-- ==== Sys2Proof/Word.lean ====
section
/-! DEFINITION. The words of the KLB-2 and the sparse maps its state is held in. Bit 0 is the least
significant bit of any value and multi-byte values are little-endian (R3). -/

namespace Sys2Proof

/-- A 64-bit register value (R28). -/
abbrev Word := BitVec 64

/-- One byte of memory, scratch, tiles or code lines (R3). -/
abbrev Byte := BitVec 8

/-- A sparse table: rows of a key and a value, keys strictly rising, no row equal to the default. -/
abbrev SMap (α : Type) := List (Nat × α)

/-- What a key holds; a key with no row holds the default `d`. -/
def SMap.get {α : Type} (d : α) (k : Nat) : SMap α → α
  | [] => d
  | (k', v') :: t => if k = k' then v' else SMap.get d k t

/-- Gives key `k` the value `v`, keeping the keys rising and listing no default. -/
def SMap.set {α : Type} [DecidableEq α] (d : α) (k : Nat) (v : α) : SMap α → SMap α
  | [] => if v = d then [] else [(k, v)]
  | (k', v') :: t =>
    if k < k' then
      (if v = d then (k', v') :: SMap.set d k v t else (k, v) :: (k', v') :: t)
    else if k = k' then
      (if v = d then SMap.set d k v t else (k, v) :: t)
    else (k', v') :: SMap.set d k v t

/-- Every key of the map is above `lo` and the keys rise. -/
def SMap.sortedFrom {α : Type} (lo : Nat) : SMap α → Bool
  | [] => true
  | (k, _) :: t => decide (lo ≤ k) && SMap.sortedFrom (k + 1) t

/-- No row of the map holds the default. -/
def SMap.noDefault {α : Type} [DecidableEq α] (d : α) (m : SMap α) : Bool :=
  m.all fun r => decide (r.2 ≠ d)

/-- The canonical form: rising keys and no default row, so that equal tables are equal data. -/
def SMap.wf {α : Type} [DecidableEq α] (d : α) (m : SMap α) : Bool :=
  SMap.sortedFrom 0 m && SMap.noDefault d m

/-- The keys that hold something other than the default. -/
def SMap.keys {α : Type} (m : SMap α) : List Nat := m.map (·.1)

end Sys2Proof
end

