-- ==== Sys2Proof/Machine/Hash.lean ====
section
/-! DEFINITION. SHA-384, by which the root of trust measures (R401): FIPS 180-4 over bytes. -/

namespace Sys2Proof.Machine

/-- The first round constants. -/
def sha384Ka : List Nat :=
  [0x428A2F98D728AE22, 0x7137449123EF65CD, 0xB5C0FBCFEC4D3B2F, 0xE9B5DBA58189DBBC,
   0x3956C25BF348B538, 0x59F111F1B605D019, 0x923F82A4AF194F9B, 0xAB1C5ED5DA6D8118,
   0xD807AA98A3030242, 0x12835B0145706FBE, 0x243185BE4EE4B28C, 0x550C7DC3D5FFB4E2,
   0x72BE5D74F27B896F, 0x80DEB1FE3B1696B1, 0x9BDC06A725C71235, 0xC19BF174CF692694,
   0xE49B69C19EF14AD2, 0xEFBE4786384F25E3, 0x0FC19DC68B8CD5B5, 0x240CA1CC77AC9C65]
/-- The next round constants. -/
def sha384Kb : List Nat :=
  [0x2DE92C6F592B0275, 0x4A7484AA6EA6E483, 0x5CB0A9DCBD41FBD4, 0x76F988DA831153B5,
   0x983E5152EE66DFAB, 0xA831C66D2DB43210, 0xB00327C898FB213F, 0xBF597FC7BEEF0EE4,
   0xC6E00BF33DA88FC2, 0xD5A79147930AA725, 0x06CA6351E003826F, 0x142929670A0E6E70,
   0x27B70A8546D22FFC, 0x2E1B21385C26C926, 0x4D2C6DFC5AC42AED, 0x53380D139D95B3DF,
   0x650A73548BAF63DE, 0x766A0ABB3C77B2A8, 0x81C2C92E47EDAEE6, 0x92722C851482353B]
/-- The next round constants. -/
def sha384Kc : List Nat :=
  [0xA2BFE8A14CF10364, 0xA81A664BBC423001, 0xC24B8B70D0F89791, 0xC76C51A30654BE30,
   0xD192E819D6EF5218, 0xD69906245565A910, 0xF40E35855771202A, 0x106AA07032BBD1B8,
   0x19A4C116B8D2D0C8, 0x1E376C085141AB53, 0x2748774CDF8EEB99, 0x34B0BCB5E19B48A8,
   0x391C0CB3C5C95A63, 0x4ED8AA4AE3418ACB, 0x5B9CCA4F7763E373, 0x682E6FF3D6B2B8A3,
   0x748F82EE5DEFB2FC, 0x78A5636F43172F60, 0x84C87814A1F0AB72, 0x8CC702081A6439EC]
/-- The last round constants. -/
def sha384Kd : List Nat :=
  [0x90BEFFFA23631E28, 0xA4506CEBDE82BDE9, 0xBEF9A3F7B2C67915, 0xC67178F2E372532B,
   0xCA273ECEEA26619C, 0xD186B8C721C0C207, 0xEADA7DD6CDE0EB1E, 0xF57D4F7FEE6ED178,
   0x06F067AA72176FBA, 0x0A637DC5A2C898A6, 0x113F9804BEF90DAE, 0x1B710B35131C471B,
   0x28DB77F523047D84, 0x32CAAB7B40C72493, 0x3C9EBE0A15C9BEBC, 0x431D67C49C100D4C,
   0x4CC5D4BECB3E42B6, 0x597F299CFC657E2A, 0x5FCB6FAB3AD6FAEC, 0x6C44198C4A475817]

/-- The 80 round constants. -/
def sha384K : List Word := (sha384Ka ++ sha384Kb ++ sha384Kc ++ sha384Kd).map (BitVec.ofNat 64)

/-- The initial hash value. -/
def sha384Init : List Word := [0xCBBB9D5DC1059ED8, 0x629A292A367CD507, 0x9159015A3070DD17, 0x152FECD8F70E5939,
   0x67332667FFC00B31, 0x8EB44A8768581511, 0xDB0C2E0D64F98FA7, 0x47B5481DBEFA4FA4].map (BitVec.ofNat 64)

/-- A rotation to the right. -/
def rotr64 (x : Word) (n : Nat) : Word := x.rotateRight n

/-- The message schedule, extended to 80 words; the list is held newest first. -/
def shaExtend : Nat → List Word → List Word
  | 0, w => w
  | n + 1, w =>
    let g (i : Nat) : Word := w.getD (i - 1) 0
    let s0 := rotr64 (g 15) 1 ^^^ rotr64 (g 15) 8 ^^^ (g 15 >>> 7)
    let s1 := rotr64 (g 2) 19 ^^^ rotr64 (g 2) 61 ^^^ (g 2 >>> 6)
    shaExtend n ((g 16 + s0 + g 7 + s1) :: w)

/-- One round. -/
def shaRound (h : List Word) (k w : Word) : List Word :=
  let r (i : Nat) : Word := h.getD i 0
  let s1 := rotr64 (r 4) 14 ^^^ rotr64 (r 4) 18 ^^^ rotr64 (r 4) 41
  let ch := (r 4 &&& r 5) ^^^ (~~~ r 4 &&& r 6)
  let t1 := r 7 + s1 + ch + k + w
  let s0 := rotr64 (r 0) 28 ^^^ rotr64 (r 0) 34 ^^^ rotr64 (r 0) 39
  let maj := (r 0 &&& r 1) ^^^ (r 0 &&& r 2) ^^^ (r 1 &&& r 2)
  [t1 + s0 + maj, r 0, r 1, r 2, r 3 + t1, r 4, r 5, r 6]

/-- A big-endian word of a block. -/
def beWord (l : List Byte) (i : Nat) : Word := ((l.drop (8 * i)).take 8).foldl (fun a b => a * 256 + b.setWidth 64) 0

/-- The bytes of a word, the highest first. -/
def beBytes (w : Word) : List Byte := (List.range 8).map fun i => (w >>> (8 * (7 - i))).setWidth 8

/-- One block of 128 bytes. -/
def shaBlock (h : List Word) (b : List Byte) : List Word :=
  let w0 := ((List.range 16).map (beWord b)).reverse
  let w := (shaExtend 64 w0).reverse
  let r := (sha384K.zip w).foldl (fun a p => shaRound a p.1 p.2) h
  (h.zip r).map fun p => p.1 + p.2

/-- The message with its padding. -/
def shaPad (l : List Byte) : List Byte :=
  let n := l.length
  l ++ [0x80#8] ++ List.replicate ((239 - n % 128) % 128) 0#8 ++ List.replicate 8 0#8 ++ beBytes (BitVec.ofNat 64 (8 * n))

/-- SHA-384. -/
def sha384 (l : List Byte) : List Byte :=
  let m := shaPad l
  let h := (List.range (m.length / 128)).foldl (fun a i => shaBlock a ((m.drop (128 * i)).take 128)) sha384Init
  (h.take 6).flatMap beBytes

end Sys2Proof.Machine
end

