-- ==== Sys2Proof/Config.lean ====
section
/-! DEFINITION. What one part or one run fixes and the spec leaves open: free values. Each constant is opaque,
so that no proof can see it (log entry 7). -/

namespace Sys2Proof

/-- The home die and channel the firmware gives an extent of an object it allocates at once (R247), by object
id and extent number. -/
opaque Config.home : Nat → Nat → Nat × Nat

/-- The slot there. -/
opaque Config.homeSlot : Nat → Nat → Nat

/-- The host has marked an object for weight residence (R316), by object id. -/
opaque Config.weightMark : Nat → Bool

/-- The C-cycle at which a station drops the copy of a table entry that it holds when the entry changes (R105), at most that
of the change where it holds none: by station, the entry's location, and the C-cycle of the change. -/
opaque Config.copyUntil : Nat → Nat → Nat → Nat

/-- The mesh hops from a cluster of a die to the memory edge of a channel (R160): by channel and cluster. -/
opaque Config.edgeHops : Nat → Nat → Nat

/-- A byte of a signature, of a public key or of a certificate (R403, R405, R406), by the number of the free
value and the byte's place in it. -/
opaque Config.sigByte : Nat → Nat → Byte

/-- The CHK of a remote ticket (R326) that the package's key makes of the ticket's low 64 bits. -/
opaque Config.ticketCheck : Word → Word

/-- The endpoint of a context's port on a die (R336). -/
opaque Config.endpoint : Nat → Nat → Word

/-- A byte of a record of a system file whose layout the spec leaves open: by file, the record's content, and offset. -/
opaque Config.fileByte : Nat → Nat → Nat → Byte

/-- The golden signature of a fallow test of a unit (R391). -/
opaque Config.testSignature : Nat → Word

/-- The reserve channel of a die (R11). -/
opaque Config.reserveCh : Nat → Nat

/-- The two compute cores with which a die enters service as fallow spares (R10): their positions among its 640. -/
opaque Config.spareCores : Nat → Nat × Nat

/-- The extents a channel has, up to 32,768 (R396). -/
opaque Config.channelCap : Nat → Nat → Nat

/-- The places of a channel that lie in one of its banks, those that a column of a bank crosses, and the one at a row and a
column of a bank (R389). -/
opaque Config.inBank : Nat → Nat → Nat → Bool
opaque Config.onColumn : Nat → Nat → Nat → Nat → Bool
opaque Config.cellSlot : Nat → Nat → Nat → Nat → Nat

/-- The package's number in its load-store domain (R20). -/
opaque Config.package : Nat

/-- The Press groups that the firmware has made for a context (R234): the name, the members, and the ranks of those that
stand in other packages. -/
opaque Config.pressGroups : Nat → List (List Byte × Nat × List Nat)

/-- What the peer packages export to a context (R18, R20): the package, and the name, the size and the rights of a view. -/
opaque Config.peerViews : Nat → List (Nat × List Byte × Nat × Nat)

/-- A byte of a peer package's view, by its place and the C-cycle of its reading: the peer may write it at any time. -/
opaque Config.viewByte : Nat → Nat → Byte

/-- Any other free value: a word by its number. -/
opaque Config.free : Nat → Word

end Sys2Proof
end

