-- ==== Sys2Proof/Syntax.lean ====
section
/-! DEFINITION. The instructions and the steps of the KLB-2: one constructor for each row of the table of
operations. A form of an instruction (R44) carries every field of its head and of its tail, the fields it
does not use included: R61 looks at the reserved fields only after the guard, so an instruction with a
false guard and a reserved field that is not zero has no effect, and decoding may not lose that field. -/

namespace Sys2Proof

/-- A head with no tail (R43). -/
structure F0 where
  s : Bool
  p : Bool
  d : BitVec 4
  deriving DecidableEq, Repr

/-- A head with a T2 tail (R44). -/
structure F2 where
  s : Bool
  p : Bool
  d : BitVec 4
  a : BitVec 4
  b : BitVec 4
  la : Bool
  lb : Bool
  m : BitVec 6
  deriving DecidableEq, Repr

/-- A head with a T4 tail (R44). -/
structure F4 where
  s : Bool
  p : Bool
  d : BitVec 4
  a : BitVec 4
  b : BitVec 4
  c : BitVec 4
  pg : BitVec 4
  la : Bool
  lb : Bool
  lc : Bool
  m : BitVec 13
  deriving DecidableEq, Repr

/-- A head with a T4b tail, the branch form (R44). -/
structure F4b where
  s : Bool
  p : Bool
  d : BitVec 4
  disp : BitVec 16
  pg : BitVec 4
  m : BitVec 12
  deriving DecidableEq, Repr

/-- A head with a T8 tail (R44). -/
structure F8 where
  s : Bool
  p : Bool
  d : BitVec 4
  a : BitVec 4
  pg : BitVec 4
  la : Bool
  m : BitVec 7
  i : BitVec 48
  deriving DecidableEq, Repr

/-- A head whose opcode names no instruction: its fields, its opcode and the bits of its tail (R60). -/
structure FRaw where
  s : Bool
  p : Bool
  tl : BitVec 2
  op : BitVec 8
  d : BitVec 4
  tail : BitVec 64
  deriving DecidableEq, Repr

/-- Where an extent stands: home die, channel, slot, and whether it is weight-resident (R312). -/
structure Place where
  die : Nat
  ch : Nat
  slot : Nat
  ws : Bool
  deriving DecidableEq, Repr

/-- What a packet of the Network Engine carries (R236). -/
inductive PktKind where
  | send
  | write
  | readReq
  | readData
  deriving DecidableEq, Repr

/-- One packet of a message or of a remote access (R236, R325). -/
structure NetPkt where
  kind : PktKind
  src : Word
  dst : Word
  msg : Nat
  idx : Nat
  len : Nat
  tag : Word
  ticket : BitVec 128
  roff : Nat
  data : List Byte
  deriving DecidableEq, Repr

/-- An acknowledgement or a refusal of a packet (R338); `data` marks one of a remote read's data. -/
structure NetReply where
  dst : Word
  msg : Nat
  idx : Nat
  placed : List Nat
  refused : Nat
  data : Bool := false
  deriving DecidableEq, Repr

/-- A packet that reaches a port: the k-th in flight inside the package, or one from a peer. -/
inductive NetArr where
  | flight (k : Nat)
  | outside (p : NetPkt)
  deriving DecidableEq, Repr

/-- A reply that reaches a sending port. -/
inductive NetAck where
  | flight (k : Nat)
  | outside (r : NetReply)
  deriving DecidableEq, Repr

/-- A transaction frame of R343; `peer` names the peer package it came from, none for the APC. -/
structure Frame where
  type : BitVec 8
  flags : BitVec 8
  len : BitVec 16
  ctx : BitVec 16
  seq : BitVec 16
  token : Word
  arg : Word
  rest : Word
  payload : List Byte
  peer : Option Nat
  deriving DecidableEq, Repr

/-- What the rind of an adder or multiplier formed where that is not what the unit formed (R90): the unit among those of the
piece of work, which of the piece's results it is, and the word. -/
structure Rind where
  unit : Nat
  ix : Nat
  word : Word
  deriving DecidableEq, Repr

/-- A supervisor request of R367: the 64 bytes that the host has placed on the supervisor ring. -/
structure SupReq where
  unit : List Byte
  deriving DecidableEq, Repr

/-- Every row of the table of operations, in the table's order. -/
inductive Instr where
  /-- NOP (R59, R111): Issues with no effect; the 0x8000 form ends its group. -/
  | nop (f : F0)
  /-- JMP (R59, R112): Branches to PC plus twice the displacement without ending the group. -/
  | jmp (f : F4b)
  /-- JP (R59, R112): Branches when the named predicate is true. -/
  | jp (f : F4b)
  /-- JNP (R59, R112): Branches when the named predicate is false. -/
  | jnp (f : F4b)
  /-- CALL_T2 (R59, R113): Writes the link into g14 and jumps to the address in gA; always ends its group. -/
  | callT2 (f : F2)
  /-- CALL_T4B (R59, R113): Writes the link into g14 and jumps by displacement, ending the group when taken. -/
  | callT4b (f : F4b)
  /-- RET_T0 (R59, R114): Jumps to the address in g14 and ends its group. -/
  | retT0 (f : F0)
  /-- RET_T4 (R59, R114): Guarded return to the address in g14. -/
  | retT4 (f : F4)
  /-- JR_T2 (R59, R114): Jumps to the address in gA and ends its group. -/
  | jrT2 (f : F2)
  /-- JR_T4 (R59, R114): Guarded jump to the address in gA. -/
  | jrT4 (f : F4)
  /-- LOOP (R59, R115): Decrements gD as a buffered result and branches while the new value is non-zero. -/
  | loop (f : F4b)
  /-- YIELD_T0 (R59, R116): Ends the group and gives up issue until the next rotation begins. -/
  | yieldT0 (f : F0)
  /-- YIELD_T4 (R59, R116): Guarded yield. -/
  | yieldT4 (f : F4)
  /-- TEND_T0 (R59, R117): Ends the group and the task, then starts a deque record or frees the thread. -/
  | tendT0 (f : F0)
  /-- TEND_T4 (R59, R117): Guarded task end. -/
  | tendT4 (f : F4)
  /-- TRAP_T0 (R59, R118): Commits the group, then sends cause 0x08 with sub-code D to the handler. -/
  | trapT0 (f : F0)
  /-- TRAP_T4 (R59, R118): Commits the group, then sends cause 0x08 with gA as info to the handler. -/
  | trapT4 (f : F4)
  /-- SYSC (R59, R118): Commits the group, then sends cause 0x09 with a service number and gA to the handler. -/
  | sysc (f : F4)
  /-- IFENCE_T0 (R59, R120): Empties the thread's fetch buffer at step 6 of its commit. -/
  | ifenceT0 (f : F0)
  /-- IFENCE_T4 (R59, R120): Guarded fetch-buffer flush. -/
  | ifenceT4 (f : F4)
  /-- WAITF_T0 (R59, R121): Parks the thread until register D is full. -/
  | waitfT0 (f : F0)
  /-- WAITF_T4 (R59, R121): Guarded wait for a full register. -/
  | waitfT4 (f : F4)
  /-- BRK (R59, R119): Raises fault 0x0A with a tag, so the group is discarded at its marker. -/
  | brk (f : F0)
  /-- ADD_T2 (R59, R123): Writes the 64-bit sum of gA and gB. -/
  | addT2 (f : F2)
  /-- ADD_T4 (R59, R123): Guarded 64-bit add. -/
  | addT4 (f : F4)
  /-- SUB_T2 (R59, R123): Writes the 64-bit difference of gA and gB. -/
  | subT2 (f : F2)
  /-- SUB_T4 (R59, R123): Guarded 64-bit subtract. -/
  | subT4 (f : F4)
  /-- MUL_T2 (R59, R123): Writes the low 64 bits of the product. -/
  | mulT2 (f : F2)
  /-- MUL_T4 (R59, R123): Guarded low multiply. -/
  | mulT4 (f : F4)
  /-- MULH_T2 (R59, R123): Writes the high half of the signed 128-bit product. -/
  | mulhT2 (f : F2)
  /-- MULH_T4 (R59, R123): Guarded signed high multiply. -/
  | mulhT4 (f : F4)
  /-- MULHN_T2 (R59, R123): Writes the high half of the unsigned 128-bit product. -/
  | mulhnT2 (f : F2)
  /-- MULHN_T4 (R59, R123): Guarded unsigned high multiply. -/
  | mulhnT4 (f : F4)
  /-- DIV_T2 (R59, R124): Signed truncating division with a long-latency result; traps 0x34 on zero. -/
  | divT2 (f : F2)
  /-- DIV_T4 (R59, R124): Guarded signed division. -/
  | divT4 (f : F4)
  /-- DIVN_T2 (R59, R124): Unsigned division with a long-latency result. -/
  | divnT2 (f : F2)
  /-- DIVN_T4 (R59, R124): Guarded unsigned division. -/
  | divnT4 (f : F4)
  /-- REM_T2 (R59, R124): Signed remainder with the sign of the dividend. -/
  | remT2 (f : F2)
  /-- REM_T4 (R59, R124): Guarded signed remainder. -/
  | remT4 (f : F4)
  /-- REMN_T2 (R59, R124): Unsigned remainder. -/
  | remnT2 (f : F2)
  /-- REMN_T4 (R59, R124): Guarded unsigned remainder. -/
  | remnT4 (f : F4)
  /-- AND_T2 (R59, R123): Bitwise AND of gA and gB. -/
  | andT2 (f : F2)
  /-- AND_T4 (R59, R123): Guarded bitwise AND. -/
  | andT4 (f : F4)
  /-- OR_T2 (R59, R123): Bitwise OR of gA and gB. -/
  | orT2 (f : F2)
  /-- OR_T4 (R59, R123): Guarded bitwise OR. -/
  | orT4 (f : F4)
  /-- XOR_T2 (R59, R123): Bitwise XOR of gA and gB. -/
  | xorT2 (f : F2)
  /-- XOR_T4 (R59, R123): Guarded bitwise XOR. -/
  | xorT4 (f : F4)
  /-- SHL_T2 (R59, R123): Shifts gA left by gB[5:0]. -/
  | shlT2 (f : F2)
  /-- SHL_T4 (R59, R123): Guarded left shift. -/
  | shlT4 (f : F4)
  /-- SHR_T2 (R59, R123): Shifts gA right logically by gB[5:0]. -/
  | shrT2 (f : F2)
  /-- SHR_T4 (R59, R123): Guarded logical right shift. -/
  | shrT4 (f : F4)
  /-- SAR_T2 (R59, R123): Shifts gA right arithmetically by gB[5:0]. -/
  | sarT2 (f : F2)
  /-- SAR_T4 (R59, R123): Guarded arithmetic right shift. -/
  | sarT4 (f : F4)
  /-- ROT_T2 (R59, R123): Rotates gA left by gB[5:0]. -/
  | rotT2 (f : F2)
  /-- ROT_T4 (R59, R123): Guarded rotate. -/
  | rotT4 (f : F4)
  /-- ADDI_T2 (R59, R126): Adds a 6-bit signed immediate to gA. -/
  | addiT2 (f : F2)
  /-- ADDI_T4 (R59, R126): Adds a 13-bit signed immediate, guarded. -/
  | addiT4 (f : F4)
  /-- ADDI_T8 (R59, R126): Adds a 48-bit signed immediate. -/
  | addiT8 (f : F8)
  /-- ANDI_T2 (R59, R126): ANDs gA with a 6-bit sign-extended immediate. -/
  | andiT2 (f : F2)
  /-- ANDI_T4 (R59, R126): ANDs with a 13-bit immediate, guarded. -/
  | andiT4 (f : F4)
  /-- ANDI_T8 (R59, R126): ANDs with a 48-bit immediate. -/
  | andiT8 (f : F8)
  /-- ORI_T2 (R59, R126): ORs gA with a 6-bit sign-extended immediate. -/
  | oriT2 (f : F2)
  /-- ORI_T4 (R59, R126): ORs with a 13-bit immediate, guarded. -/
  | oriT4 (f : F4)
  /-- ORI_T8 (R59, R126): ORs with a 48-bit immediate. -/
  | oriT8 (f : F8)
  /-- XORI_T2 (R59, R126): XORs gA with a 6-bit sign-extended immediate. -/
  | xoriT2 (f : F2)
  /-- XORI_T4 (R59, R126): XORs with a 13-bit immediate, guarded. -/
  | xoriT4 (f : F4)
  /-- XORI_T8 (R59, R126): XORs with a 48-bit immediate. -/
  | xoriT8 (f : F8)
  /-- SHLI_T2 (R59, R126): Shifts gA left by an immediate amount. -/
  | shliT2 (f : F2)
  /-- SHLI_T4 (R59, R126): Guarded immediate left shift. -/
  | shliT4 (f : F4)
  /-- SHRI_T2 (R59, R126): Shifts gA right logically by an immediate amount. -/
  | shriT2 (f : F2)
  /-- SHRI_T4 (R59, R126): Guarded immediate logical right shift. -/
  | shriT4 (f : F4)
  /-- SARI_T2 (R59, R126): Shifts gA right arithmetically by an immediate amount. -/
  | sariT2 (f : F2)
  /-- SARI_T4 (R59, R126): Guarded immediate arithmetic right shift. -/
  | sariT4 (f : F4)
  /-- LI (R59, R126): Loads a sign-extended 48-bit immediate into gD. -/
  | li (f : F8)
  /-- LIH (R59, R126): Places a 16-bit immediate in bits 63:48 above gA[47:0]. -/
  | lih (f : F8)
  /-- MOV_T2 (R59, R126): Copies gA into gD. -/
  | movT2 (f : F2)
  /-- MOV_T4 (R59, R126): Guarded register copy. -/
  | movT4 (f : F4)
  /-- SEL_T2 (R59, R126): Selects gA or gB by a named predicate, optionally negated. -/
  | selT2 (f : F2)
  /-- SEL_T4 (R59, R126): Guarded select. -/
  | selT4 (f : F4)
  /-- CLZ_T2 (R59, R127): Counts leading zero bits of gA. -/
  | clzT2 (f : F2)
  /-- CLZ_T4 (R59, R127): Guarded leading-zero count. -/
  | clzT4 (f : F4)
  /-- POPC_T2 (R59, R127): Counts the one bits of gA. -/
  | popcT2 (f : F2)
  /-- POPC_T4 (R59, R127): Guarded population count. -/
  | popcT4 (f : F4)
  /-- BSWAP_T2 (R59, R127): Reverses the bytes of gA. -/
  | bswapT2 (f : F2)
  /-- BSWAP_T4 (R59, R127): Guarded byte swap. -/
  | bswapT4 (f : F4)
  /-- BFX (R59, R128): Extracts a bit field of gA, optionally sign-extended. -/
  | bfx (f : F4)
  /-- BFI (R59, R128): Inserts gA's low bits as a field into gB. -/
  | bfi (f : F4)
  /-- CMP_T2 (R59, R130): Compares gA and gB and writes or combines the result into pD. -/
  | cmpT2 (f : F2)
  /-- CMP_T4 (R59, R130): Guarded register compare. -/
  | cmpT4 (f : F4)
  /-- CMPI_T4 (R59, R130): Compares gA with a 7-bit immediate into pD. -/
  | cmpiT4 (f : F4)
  /-- CMPI_T8 (R59, R130): Compares gA with a 48-bit immediate into pD. -/
  | cmpiT8 (f : F8)
  /-- PAND_T2 (R59, R131): ANDs two optionally negated predicates into pD. -/
  | pandT2 (f : F2)
  /-- PAND_T4 (R59, R131): Guarded predicate AND. -/
  | pandT4 (f : F4)
  /-- POR_T2 (R59, R131): ORs two optionally negated predicates into pD. -/
  | porT2 (f : F2)
  /-- POR_T4 (R59, R131): Guarded predicate OR. -/
  | porT4 (f : F4)
  /-- PXOR_T2 (R59, R131): XORs two optionally negated predicates into pD. -/
  | pxorT2 (f : F2)
  /-- PXOR_T4 (R59, R131): Guarded predicate XOR. -/
  | pxorT4 (f : F4)
  /-- PNOT_T2 (R59, R131): Writes the negation of a predicate into pD. -/
  | pnotT2 (f : F2)
  /-- PNOT_T4 (R59, R131): Guarded predicate negation. -/
  | pnotT4 (f : F4)
  /-- PTOG_T0 (R59, R132): Copies p0–p7 into bits 7:0 of gD. -/
  | ptogT0 (f : F0)
  /-- PTOG_T4 (R59, R132): Guarded predicate copy into a register. -/
  | ptogT4 (f : F4)
  /-- GTOP_T2 (R59, R132): Sets p1–p7 from bits 7:1 of gA. -/
  | gtopT2 (f : F2)
  /-- GTOP_T4 (R59, R132): Sets the predicates chosen by a mask from gA, guarded. -/
  | gtopT4 (f : F4)
  /-- PMK_T2 (R59, R134): Builds a fat pointer from handle gA and offset gB. -/
  | pmkT2 (f : F2)
  /-- PMK_T4 (R59, R134): Builds a fat pointer with FMT and BLG from the modifier. -/
  | pmkT4 (f : F4)
  /-- PADD_T2 (R59, R135): Adds a scaled register delta to a pointer's offset. -/
  | paddT2 (f : F2)
  /-- PADD_T4 (R59, R135): Guarded pointer add. -/
  | paddT4 (f : F4)
  /-- PADDI_T2 (R59, R135): Adds a 6-bit immediate to a pointer's offset. -/
  | paddiT2 (f : F2)
  /-- PADDI_T4 (R59, R135): Adds a 13-bit immediate to a pointer's offset, guarded. -/
  | paddiT4 (f : F4)
  /-- PADDI_T8 (R59, R135): Adds a 48-bit immediate to a pointer's offset. -/
  | paddiT8 (f : F8)
  /-- PSETF_T2 (R59, R136): Replaces a pointer's FMT field. -/
  | psetfT2 (f : F2)
  /-- PSETF_T4 (R59, R136): Guarded FMT replacement. -/
  | psetfT4 (f : F4)
  /-- PSETB_T2 (R59, R136): Replaces a pointer's BLG field. -/
  | psetbT2 (f : F2)
  /-- PSETB_T4 (R59, R136): Guarded BLG replacement. -/
  | psetbT4 (f : F4)
  /-- PHND_T2 (R59, R136): Extracts a pointer's handle. -/
  | phndT2 (f : F2)
  /-- PHND_T4 (R59, R136): Guarded handle extraction. -/
  | phndT4 (f : F4)
  /-- POFF_T2 (R59, R136): Extracts a pointer's offset. -/
  | poffT2 (f : F2)
  /-- POFF_T4 (R59, R136): Guarded offset extraction. -/
  | poffT4 (f : F4)
  /-- PCHK (R59, R137): Reports, as a long-latency result, the first check an access would fail. -/
  | pchk (f : F4)
  /-- LD (R59, R141): Loads 1–8 bytes zero-extended through a fat pointer. -/
  | ld (f : F4)
  /-- LDS (R59, R141): Loads 1–8 bytes sign-extended. -/
  | lds (f : F4)
  /-- ST (R59, R141): Checks at issue and defers a store of gD to dispatch. -/
  | st (f : F4)
  /-- LDA (R59, R143): Loads as an acquire at its scope. -/
  | lda (f : F4)
  /-- STL (R59, R143): Stores as a release at its scope. -/
  | stl (f : F4)
  /-- LDT (R59, R146): Loads and decodes one typed element into register form. -/
  | ldt (f : F4)
  /-- STT (R59, R146): Converts from register form and stores one typed element. -/
  | stt (f : F4)
  /-- LDP (R59, R144): Loads 16 aligned bytes into gD and gD+1. -/
  | ldp (f : F4)
  /-- STP (R59, R144): Stores gD and gD+1 as 16 aligned bytes. -/
  | stp (f : F4)
  /-- LDX (R59, R145): Loads at base plus scaled index. -/
  | ldx (f : F4)
  /-- STX (R59, R145): Stores at base plus scaled index. -/
  | stx (f : F4)
  /-- CAS (R59, R150): Compare-and-swap at the home station, ending its group. -/
  | cas (f : F4)
  /-- SWP (R59, R150): Atomic swap at the home station. -/
  | swp (f : F4)
  /-- AADD (R59, R150): Atomic add at the home station. -/
  | aadd (f : F4)
  /-- AAND (R59, R150): Atomic AND at the home station. -/
  | aand (f : F4)
  /-- AOR (R59, R150): Atomic OR at the home station. -/
  | aor (f : F4)
  /-- AXOR (R59, R150): Atomic XOR at the home station. -/
  | axor (f : F4)
  /-- AMIN (R59, R150): Atomic minimum, signed or unsigned. -/
  | amin (f : F4)
  /-- AMAX (R59, R150): Atomic maximum, signed or unsigned. -/
  | amax (f : F4)
  /-- AFADD (R59, R150): Atomic floating add rounded RNE. -/
  | afadd (f : F4)
  /-- FENCE_T2 (R59, R151): Deferred fence of kind rel, acq, ar or sc at a scope. -/
  | fenceT2 (f : F2)
  /-- FENCE_T4 (R59, R151): Guarded fence. -/
  | fenceT4 (f : F4)
  /-- TFENCE_T2 (R59, R152): Stalls step 5 until earlier table stores have performed. -/
  | tfenceT2 (f : F2)
  /-- TFENCE_T4 (R59, R152): Guarded table fence. -/
  | tfenceT4 (f : F4)
  /-- SBWAIT_T0 (R59, R153): Parks until earlier vector, Trellis and Ladle writes of the thread retire. -/
  | sbwaitT0 (f : F0)
  /-- SBWAIT_T4 (R59, R153): Guarded scoreboard wait. -/
  | sbwaitT4 (f : F4)
  /-- SEND (R59, R156): Sends gB into register D of a thread of a named core at step 5. -/
  | send (f : F4)
  /-- SENDI (R59, R156): Sends a 48-bit immediate into a register of a named thread. -/
  | sendi (f : F8)
  /-- EMPTY_T0 (R59, R158): Empties register D at step 5, letting a waiting message move in. -/
  | emptyT0 (f : F0)
  /-- EMPTY_T4 (R59, R158): Guarded empty that may also set the expected sender. -/
  | emptyT4 (f : F4)
  /-- MIGR_T2 (R59, R159): Migrates the thread to the named logical core. -/
  | migrT2 (f : F2)
  /-- MIGR_T4 (R59, R159): Migration in the T4 form. -/
  | migrT4 (f : F4)
  /-- MIGH_T2 (R59, R160): Migrates the thread next to the home of an address. -/
  | mighT2 (f : F2)
  /-- MIGH_T4 (R59, R160): Home migration in the T4 form. -/
  | mighT4 (f : F4)
  /-- ROLE_T0 (R59, R161): Reads the issuing core's role entry. -/
  | roleT0 (f : F0)
  /-- ROLE_T4 (R59, R161): Guarded role read. -/
  | roleT4 (f : F4)
  /-- RCAST_T2 (R59, R162): Writes a core's role entry from the cluster control core. -/
  | rcastT2 (f : F2)
  /-- RCAST_T4 (R59, R162): Role recast in the T4 form. -/
  | rcastT4 (f : F4)
  /-- CHMAP_T2 (R59, R162): Writes the code address for a role into the role entry vector. -/
  | chmapT2 (f : F2)
  /-- CHMAP_T4 (R59, R162): Role vector write in the T4 form. -/
  | chmapT4 (f : F4)
  /-- MBOXQ_T0 (R59, R164): Reports the thread's mailbox count and waiting-register mask. -/
  | mboxqT0 (f : F0)
  /-- MBOXQ_T4 (R59, R164): Guarded mailbox query. -/
  | mboxqT4 (f : F4)
  /-- POISQ_T0 (R59, R164): Reports the poison marks of the thread's registers. -/
  | poisqT0 (f : F0)
  /-- POISQ_T4 (R59, R164): Guarded poison query. -/
  | poisqT4 (f : F4)
  /-- DQPUSH_T2 (R59, R167): Reserves a deque slot at issue and places the record at step 5. -/
  | dqpushT2 (f : F2)
  /-- DQPUSH_T4 (R59, R167): Deque push in the T4 form. -/
  | dqpushT4 (f : F4)
  /-- DQPOP_T2 (R59, R167): Reserves the top record and writes it to memory at step 5. -/
  | dqpopT2 (f : F2)
  /-- DQPOP_T4 (R59, R167): Deque pop in the T4 form. -/
  | dqpopT4 (f : F4)
  /-- SPAWN_T2 (R59, R167): Starts a task record on a free thread at step 5, or places it. -/
  | spawnT2 (f : F2)
  /-- SPAWN_T4 (R59, R167): Spawn in the T4 form. -/
  | spawnT4 (f : F4)
  /-- GLNCH_T2 (R59, R168): Submits a launch header, receives admission status before commit, enqueues at step 5. -/
  | glnchT2 (f : F2)
  /-- GLNCH_T4 (R59, R168): Device launch in the T4 form. -/
  | glnchT4 (f : F4)
  /-- WIDF (R59, R169): Writes a WID field or group key as a single-cycle result. -/
  | widf (f : F2)
  /-- BARA_T0 (R59, R170): Arrives at a level barrier at step 5 and continues. -/
  | baraT0 (f : F0)
  /-- BARA_T4 (R59, R170): Guarded barrier arrival. -/
  | baraT4 (f : F4)
  /-- BARW_T0 (R59, R170): Parks until the phase of the latest arrival completes. -/
  | barwT0 (f : F0)
  /-- BARW_T4 (R59, R170): Guarded barrier wait. -/
  | barwT4 (f : F4)
  /-- BAR_T0 (R59, R170): Arrives at a level barrier and waits for the phase. -/
  | barT0 (f : F0)
  /-- BAR_T4 (R59, R170): Guarded full barrier. -/
  | barT4 (f : F4)
  /-- SLTW_T2 (R59, R172): Writes one shadow slot-table entry at step 5. -/
  | sltwT2 (f : F2)
  /-- SLTW_T4 (R59, R172): Shadow slot write in the T4 form. -/
  | sltwT4 (f : F4)
  /-- SLTR_T2 (R59, R172): Reads an active or shadow slot-table entry. -/
  | sltrT2 (f : F2)
  /-- SLTR_T4 (R59, R172): Slot read in the T4 form. -/
  | sltrT4 (f : F4)
  /-- CBINIT_T2 (R59, R174): Initialises a completion barrier with plain stores at step 5. -/
  | cbinitT2 (f : F2)
  /-- CBINIT_T4 (R59, R174): Barrier initialisation in the T4 form. -/
  | cbinitT4 (f : F4)
  /-- CBARR_T2 (R59, R174): Arrives at a completion barrier by an atomic step, optionally in error. -/
  | cbarrT2 (f : F2)
  /-- CBARR_T4 (R59, R174): Barrier arrival in the T4 form. -/
  | cbarrT4 (f : F4)
  /-- CBWAIT_T2 (R59, R175): Waits at commit for a completion barrier and acquires; traps 0x53 on error. -/
  | cbwaitT2 (f : F2)
  /-- CBWAIT_T4 (R59, R175): Barrier wait in the T4 form. -/
  | cbwaitT4 (f : F4)
  /-- CBPH_T2 (R59, R175): Reads a completion barrier's phase without ordering. -/
  | cbphT2 (f : F2)
  /-- CBPH_T4 (R59, R175): Barrier phase read in the T4 form. -/
  | cbphT4 (f : F4)
  /-- FADD_T2 (R59, R180): Scalar floating add, F32 or F64. -/
  | faddT2 (f : F2)
  /-- FADD_T4 (R59, R180): Guarded scalar floating add. -/
  | faddT4 (f : F4)
  /-- FSUB_T2 (R59, R180): Scalar floating subtract. -/
  | fsubT2 (f : F2)
  /-- FSUB_T4 (R59, R180): Guarded scalar floating subtract. -/
  | fsubT4 (f : F4)
  /-- FMUL_T2 (R59, R180): Scalar floating multiply. -/
  | fmulT2 (f : F2)
  /-- FMUL_T4 (R59, R180): Guarded scalar floating multiply. -/
  | fmulT4 (f : F4)
  /-- FFMA (R59, R180): Scalar fused multiply-add with one rounding. -/
  | ffma (f : F4)
  /-- FDIV_T2 (R59, R180): Scalar floating divide. -/
  | fdivT2 (f : F2)
  /-- FDIV_T4 (R59, R180): Guarded scalar floating divide. -/
  | fdivT4 (f : F4)
  /-- FSQRT_T2 (R59, R180): Scalar floating square root. -/
  | fsqrtT2 (f : F2)
  /-- FSQRT_T4 (R59, R180): Guarded scalar square root. -/
  | fsqrtT4 (f : F4)
  /-- FMIN_T2 (R59, R180): Scalar floating minimum. -/
  | fminT2 (f : F2)
  /-- FMIN_T4 (R59, R180): Guarded scalar floating minimum. -/
  | fminT4 (f : F4)
  /-- FMAX_T2 (R59, R180): Scalar floating maximum. -/
  | fmaxT2 (f : F2)
  /-- FMAX_T4 (R59, R180): Guarded scalar floating maximum. -/
  | fmaxT4 (f : F4)
  /-- FCMP_T2 (R59, R181): Floating compare into pD as a long-latency result. -/
  | fcmpT2 (f : F2)
  /-- FCMP_T4 (R59, R181): Guarded floating compare. -/
  | fcmpT4 (f : F4)
  /-- FCVT (R59, R182): Converts between register forms of format codes 5 to 13. -/
  | fcvt (f : F4)
  /-- FCLS_T2 (R59, R183): Changes only the sign bit: abs, neg, copy sign or xor sign. -/
  | fclsT2 (f : F2)
  /-- FCLS_T4 (R59, R183): Guarded sign operation. -/
  | fclsT4 (f : F4)
  /-- FTLD_T2 (R59, R184): Reads a 1 KiB image and installs the decode table at step 5. -/
  | ftldT2 (f : F2)
  /-- FTLD_T4 (R59, R184): Decode-table load in the T4 form. -/
  | ftldT4 (f : F4)
  /-- ENC8_T2 (R59, R185): Encodes an F32 or F64 value to a T8 code. -/
  | enc8T2 (f : F2)
  /-- ENC8_T4 (R59, R185): Guarded T8 encode. -/
  | enc8T4 (f : F4)
  /-- DEC8_T2 (R59, R185): Decodes a T8 code to F32 or F64. -/
  | dec8T2 (f : F2)
  /-- DEC8_T4 (R59, R185): Guarded T8 decode. -/
  | dec8T4 (f : F4)
  /-- VADD (R59, R192): Vector floating add, memory to memory. -/
  | vadd (f : F4)
  /-- VSUB (R59, R192): Vector floating subtract. -/
  | vsub (f : F4)
  /-- VMUL (R59, R192): Vector floating multiply. -/
  | vmul (f : F4)
  /-- VFMA (R59, R192): Vector fused multiply-add into the destination. -/
  | vfma (f : F4)
  /-- VMIN (R59, R192): Vector floating minimum. -/
  | vmin (f : F4)
  /-- VMAX (R59, R192): Vector floating maximum. -/
  | vmax (f : F4)
  /-- VDIV (R59, R192): Vector floating divide. -/
  | vdiv (f : F4)
  /-- VSQRT (R59, R192): Vector square root. -/
  | vsqrt (f : F4)
  /-- VEXP (R59, R192): Vector base-2 exponential. -/
  | vexp (f : F4)
  /-- VLOG (R59, R192): Vector base-2 logarithm. -/
  | vlog (f : F4)
  /-- VRCP (R59, R192): Vector reciprocal. -/
  | vrcp (f : F4)
  /-- VRSQ (R59, R192): Vector reciprocal square root. -/
  | vrsq (f : F4)
  /-- VCVT (R59, R193): Vector format conversion between ZF and YF. -/
  | vcvt (f : F4)
  /-- VSCL (R59, R192): Vector multiply by a register scalar. -/
  | vscl (f : F4)
  /-- VABS (R59, R192): Vector sign clear. -/
  | vabs (f : F4)
  /-- VNEG (R59, R192): Vector sign flip. -/
  | vneg (f : F4)
  /-- VIADD (R59, R194): Vector integer add, wrapping. -/
  | viadd (f : F4)
  /-- VISUB (R59, R194): Vector integer subtract, wrapping. -/
  | visub (f : F4)
  /-- VIMUL (R59, R194): Vector integer multiply, wrapping. -/
  | vimul (f : F4)
  /-- VDOT4 (R59, R194): Adds four-element 8-bit dot products into I32 destinations. -/
  | vdot4 (f : F4)
  /-- VAND (R59, R194): Vector bitwise AND. -/
  | vand (f : F4)
  /-- VOR (R59, R194): Vector bitwise OR. -/
  | vor (f : F4)
  /-- VXOR (R59, R194): Vector bitwise XOR. -/
  | vxor (f : F4)
  /-- VSHL (R59, R194): Vector left shift by per-element amounts. -/
  | vshl (f : F4)
  /-- VSHR (R59, R194): Vector right shift, arithmetic for I and logical for N. -/
  | vshr (f : F4)
  /-- UNPK3 (R59, R195): Unpacks TERN5 bytes into I8 trits. -/
  | unpk3 (f : F4)
  /-- VTAS (R59, R195): Adds trit-signed values into I32 destinations. -/
  | vtas (f : F4)
  /-- VSEL (R59, R194): Vector select by an N8 mask. -/
  | vsel (f : F4)
  /-- VPERM (R59, R194): Vector permutation by I32 indices. -/
  | vperm (f : F4)
  /-- VCMP (R59, R194): Vector compare into N8 results. -/
  | vcmp (f : F4)
  /-- VSAT (R59, R194): Vector saturating integer narrowing. -/
  | vsat (f : F4)
  /-- VCLZ (R59, R194): Vector leading-zero count. -/
  | vclz (f : F4)
  /-- VCLAIM_T2 (R59, R197): Claims vector lanes for the core, granted at commit. -/
  | vclaimT2 (f : F2)
  /-- VCLAIM_T4 (R59, R197): Guarded lane claim. -/
  | vclaimT4 (f : F4)
  /-- VREL_T0 (R59, R197): Sets the core's lane grant to 0 at step 5. -/
  | vrelT0 (f : F0)
  /-- VREL_T4 (R59, R197): Guarded lane release. -/
  | vrelT4 (f : F4)
  /-- VRADD (R59, R198): Sum reduction by the fixed tree. -/
  | vradd (f : F4)
  /-- VRMAX (R59, R198): Maximum reduction. -/
  | vrmax (f : F4)
  /-- VRMIN (R59, R198): Minimum reduction. -/
  | vrmin (f : F4)
  /-- VSCAN (R59, R198): Running add, max or min in increasing order. -/
  | vscan (f : F4)
  /-- VGATH (R59, R199): Gathers elements through an index vector. -/
  | vgath (f : F4)
  /-- VSCAT (R59, R199): Scatters elements through an index vector. -/
  | vscat (f : F4)
  /-- VMOV (R59, R200): Vector copy. -/
  | vmov (f : F4)
  /-- VFILL (R59, R200): Fills a vector with an encoded register value. -/
  | vfill (f : F4)
  /-- VMASK (R59, R200): Packs N8 values to bits or unpacks bits to N8. -/
  | vmask (f : F4)
  /-- VIOTA (R59, R200): Writes s + i encoded into the element format. -/
  | viota (f : F4)
  /-- SHLD_T2 (R59, R211): Loads 64 bytes into a shape register at commit. -/
  | shldT2 (f : F2)
  /-- SHLD_T4 (R59, R211): Shape load in the T4 form. -/
  | shldT4 (f : F4)
  /-- SHST_T2 (R59, R211): Stores a shape register as eight deferred doubleword stores. -/
  | shstT2 (f : F2)
  /-- SHST_T4 (R59, R211): Shape store in the T4 form. -/
  | shstT4 (f : F4)
  /-- SHSET (R59, R211): Writes a field of a shape register from gA. -/
  | shset (f : F4)
  /-- SHGET (R59, R211): Reads a field of a shape register into gD. -/
  | shget (f : F4)
  /-- TOWN_T2 (R59, R214): Claims a tile for the context. -/
  | townT2 (f : F2)
  /-- TOWN_T4 (R59, R214): Claims or, with REL, frees and zero-fills a tile. -/
  | townT4 (f : F4)
  /-- TGIVE_T2 (R59, R214): Hands a tile to the engines at dispatch. -/
  | tgiveT2 (f : F2)
  /-- TGIVE_T4 (R59, R214): Tile hand-over in the T4 form. -/
  | tgiveT4 (f : F4)
  /-- TTAG (R59, R214): Sets a tile's layout tag at step 5. -/
  | ttag (f : F4)
  /-- TTASK_T2 (R59, R217): Dispatches a tile-task record address to q0. -/
  | ttaskT2 (f : F2)
  /-- TTASK_T4 (R59, R217): Tile task command with guard and notify flag. -/
  | ttaskT4 (f : F4)
  /-- TQRY_T2 (R59, R214): Reads a tile's owner, tag and pending count. -/
  | tqryT2 (f : F2)
  /-- TQRY_T4 (R59, R214): Tile query in the T4 form. -/
  | tqryT4 (f : F4)
  /-- QPUSH_T2 (R59, R206): Issues a raw engine command from a 64-byte record. -/
  | qpushT2 (f : F2)
  /-- QPUSH_T4 (R59, R206): Raw engine command in the T4 form. -/
  | qpushT4 (f : F4)
  /-- QPOP_T2 (R59, R206): Pops the thread's oldest completion word from q5–q7. -/
  | qpopT2 (f : F2)
  /-- QPOP_T4 (R59, R206): Completion pop in the T4 form. -/
  | qpopT4 (f : F4)
  /-- QSTAT_T2 (R59, R206): Reads the occupancy of a queue register. -/
  | qstatT2 (f : F2)
  /-- QSTAT_T4 (R59, R206): Queue status in the T4 form. -/
  | qstatT4 (f : F4)
  /-- SPLD (R59, R226): Copies words from memory into value or gradient scratch entries. -/
  | spld (f : F4)
  /-- SPST (R59, R226): Writes full value entries to memory. -/
  | spst (f : F4)
  /-- SPUP_T0 (R59, R227): Empties OUT at dispatch and evaluates a subtree into it. -/
  | spupT0 (f : F0)
  /-- SPUP_T4 (R59, R227): Subtree evaluation with guard and notify flag. -/
  | spupT4 (f : F4)
  /-- SPDN_T0 (R59, R228): Adds a subtree's derivatives into gradient entries. -/
  | spdnT0 (f : F0)
  /-- SPDN_T4 (R59, R228): Downward pass with MX, W and notify flags. -/
  | spdnT4 (f : F4)
  /-- SPMAX_T0 (R59, R227): Evaluates a subtree with sums as maxima. -/
  | spmaxT0 (f : F0)
  /-- SPMAX_T4 (R59, R227): Max-product evaluation with guard and notify flag. -/
  | spmaxT4 (f : F4)
  /-- SPCVT (R59, R226): Converts value entries in place between F32 and SP32. -/
  | spcvt (f : F4)
  /-- SPCLR (R59, R226): Empties value entries at dispatch or zeroes gradient entries. -/
  | spclr (f : F4)
  /-- SPWLD (R59, R226): Loads converted elements into value entries. -/
  | spwld (f : F4)
  /-- SPGST (R59, R226): Writes gradient entries to memory. -/
  | spgst (f : F4)
  /-- SPSTAT_T2 (R59, R229): Reads Trellis occupancy or a value entry's full bit and word. -/
  | spstatT2 (f : F2)
  /-- SPSTAT_T4 (R59, R229): Trellis status in the T4 form. -/
  | spstatT4 (f : F4)
  /-- LCOPY (R59, R231): Commands the Ladle to copy up to 2^40 bytes, flat or strided. -/
  | lcopy (f : F4)
  /-- LFILL (R59, R231): Commands the Ladle to fill with an 8-byte pattern. -/
  | lfill (f : F4)
  /-- LCANCEL_T2 (R59, R233): Marks the latest Ladle request with a tag for cancellation. -/
  | lcancelT2 (f : F2)
  /-- LCANCEL_T4 (R59, R233): Ladle cancel in the T4 form. -/
  | lcancelT4 (f : F4)
  /-- LSTAT_T2 (R59, R233): Reads a Ladle request's progress. -/
  | lstatT2 (f : F2)
  /-- LSTAT_T4 (R59, R233): Ladle status in the T4 form. -/
  | lstatT4 (f : F4)
  /-- PRRED (R59, R234): Press reduce to a root rank. -/
  | prred (f : F4)
  /-- PRBC (R59, R234): Press broadcast from a root rank. -/
  | prbc (f : F4)
  /-- PRAR (R59, R234): Press all-reduce. -/
  | prar (f : F4)
  /-- PRAG (R59, R234): Press all-gather. -/
  | prag (f : F4)
  /-- NSEND_T2 (R59, R235): Submits a send work request to the Network Engine. -/
  | nsendT2 (f : F2)
  /-- NSEND_T4 (R59, R235): Network send in the T4 form. -/
  | nsendT4 (f : F4)
  /-- NPOST_T2 (R59, R235): Submits a receive post. -/
  | npostT2 (f : F2)
  /-- NPOST_T4 (R59, R235): Network post in the T4 form. -/
  | npostT4 (f : F4)
  /-- RWRITE_T2 (R59, R235): Submits a remote write under a ticket. -/
  | rwriteT2 (f : F2)
  /-- RWRITE_T4 (R59, R235): Remote write in the T4 form. -/
  | rwriteT4 (f : F4)
  /-- RREAD_T2 (R59, R235): Submits a remote read under a ticket. -/
  | rreadT2 (f : F2)
  /-- RREAD_T4 (R59, R235): Remote read in the T4 form. -/
  | rreadT4 (f : F4)
  /-- CCWAIT_T2 (R59, R238): Waits at commit until a counter reaches a threshold, then acquires. -/
  | ccwaitT2 (f : F2)
  /-- CCWAIT_T4 (R59, R238): Counter wait in the T4 form. -/
  | ccwaitT4 (f : F4)
  /-- CCRD_T2 (R59, R238): Plain 8-byte read of a completion counter. -/
  | ccrdT2 (f : F2)
  /-- CCRD_T4 (R59, R238): Counter read in the T4 form. -/
  | ccrdT4 (f : F4)
  /-- CCSET_T2 (R59, R238): Plain 8-byte store to a completion counter. -/
  | ccsetT2 (f : F2)
  /-- CCSET_T4 (R59, R238): Counter set in the T4 form. -/
  | ccsetT4 (f : F4)
  /-- NSTAT_T0 (R59, R236): Reads the core's open network requests and unmatched posts. -/
  | nstatT0 (f : F0)
  /-- NSTAT_T4 (R59, R236): Guarded network status. -/
  | nstatT4 (f : F4)
  /-- WALK_T2 (R59, R246): Resolves a path from the root to a token through the NSE. -/
  | walkT2 (f : F2)
  /-- WALK_T4 (R59, R246): Resolves a relative path from a base token. -/
  | walkT4 (f : F4)
  /-- OPEN_T2 (R59, R247): Turns a token into a handle with the requested rights. -/
  | openT2 (f : F2)
  /-- OPEN_T4 (R59, R247): Opens or creates an object, optionally lazy. -/
  | openT4 (f : F4)
  /-- CLOSE_T2 (R59, R248): Releases a handle once every station has dropped it. -/
  | closeT2 (f : F2)
  /-- CLOSE_T4 (R59, R248): Guarded close. -/
  | closeT4 (f : F4)
  /-- BIND (R59, R249): Covers a place or layers a directory at a rank. -/
  | bind (f : F4)
  /-- UNBIND_T2 (R59, R249): Removes a layer or cover. -/
  | unbindT2 (f : F2)
  /-- UNBIND_T4 (R59, R249): Guarded unbind. -/
  | unbindT4 (f : F4)
  /-- REVOKE_T2 (R59, R250): Revokes a handle and waits at step 5 until REVOKED. -/
  | revokeT2 (f : F2)
  /-- REVOKE_T4 (R59, R250): Revocation in the T4 form. -/
  | revokeT4 (f : F4)
  /-- CSRR_T2 (R59, R252): Reads CSR 0–63 as it stands at issue. -/
  | csrrT2 (f : F2)
  /-- CSRR_T4 (R59, R252): Reads any CSR number, guarded. -/
  | csrrT4 (f : F4)
  /-- CSRW_T2 (R59, R252): Writes CSR 0–63 at step 5. -/
  | csrwT2 (f : F2)
  /-- CSRW_T4 (R59, R252): Writes, sets or clears any CSR's writable fields at step 5. -/
  | csrwT4 (f : F4)
  /-- TRET_T2 (R59, R255): From t7, resumes, redirects, kills or answers the assist of a trapped thread. -/
  | tretT2 (f : F2)
  /-- TRET_T4 (R59, R255): Trap return in the T4 form. -/
  | tretT4 (f : F4)
  /-- PMACK_T2 (R59, R256): Acknowledges a plot-map version to the supervisor. -/
  | pmackT2 (f : F2)
  /-- PMACK_T4 (R59, R256): Guarded plot-map acknowledgement. -/
  | pmackT4 (f : F4)
  /-- TSHOOT_T2 (R59, R251): Shoots down a table entry at every station in scope and waits for acknowledgements. -/
  | tshootT2 (f : F2)
  /-- TSHOOT_T4 (R59, R251): Shoot-down in the T4 form. -/
  | tshootT4 (f : F4)
  /-- SSTOP (R59, R257): Announces a synchronised stop of a partition or core at a domain time. -/
  | sstop (f : F4)
  /-- PARTW_T2 (R59, R258): Writes a partition's logical-to-physical entry into every router. -/
  | partwT2 (f : F2)
  /-- PARTW_T4 (R59, R258): Guarded partition table write. -/
  | partwT4 (f : F4)
  /-- HALT_T0 (R59, R259): Stops a core outside any partition until a message reaches its t7. -/
  | haltT0 (f : F0)
  /-- HALT_T4 (R59, R259): Guarded halt. -/
  | haltT4 (f : F4)
  /-- ATTQ_T2 (R59, R260): Queues a request for a signed attestation quote. -/
  | attqT2 (f : F2)
  /-- ATTQ_T4 (R59, R260): Guarded quote request. -/
  | attqT4 (f : F4)
  /-- RESERVED_OPCODE (R60): An issued head with a reserved opcode traps 0x01 with sub-code 0. -/
  | reservedOpcode (f : FRaw)
  /-- ILLEGAL_OPCODE_FF (R60): An issued head with opcode 0xFF traps 0x01 with sub-code 1. -/
  | illegalOpcodeFf (f : FRaw)
  /-- GROUP_COMMIT (R55): At the switch marker, once results return, discards or writes the group and dispatches its deferred effects.
  `rind` is what the rind of one of its results formed where that is not what the adder or multiplier formed (R90): the
  result returns with it, before the marker too. -/
  | groupCommit (c t : Nat) (rind : Option (Nat × Word))
  /-- COMMIT_STEP5_RESUME (R55): A step-5 dispatch stalled for room, acceptance or an answer continues with the effects behind it. -/
  | commitStep5Resume (c t : Nat)
  /-- RESULT_RETURN (R412): A long-latency result or fault report returns to the result buffer. -/
  | resultReturn (c t k : Nat)
  /-- LINE_FETCH (R106): A 64-byte code line is read into the thread's fetch buffer. -/
  | lineFetch (c t : Nat)
  /-- MESSAGE_DELIVERY (R38): A SEND or SENDI reaches its target register, or waits in the mailbox. -/
  | messageDelivery (k : Nat)
  /-- HANDLER_MESSAGE_ARRIVAL (R281): A trap or notification message enters a core's trap or notification queue. -/
  | handlerMessageArrival (k : Nat)
  /-- HANDLER_ENTRY_TIMEOUT (R282): A message queued 1 ms with no handler entry ends the context's kernel on the cluster. -/
  | handlerEntryTimeout (c x : Nat)
  /-- SLOT_ROTATION_START (R302): At each rotation the arbiter assigns OWN of pooled entries by credit. -/
  | slotRotationStart (c : Nat)
  /-- CHANNEL_DRY (R163): A worker parked on its INREG longer than RCTMO raises notification 0x45. -/
  | channelDry (c t : Nat)
  /-- LOAD_READ_STEP (R96): A load takes a forwarded or eligible write for each byte and extends its frontier. -/
  | loadReadStep (c t k : Nat)
  /-- WRITE_PERFORM (R95): A write leaves the commit queue and joins the write graph and frontier. -/
  | writePerform (c t k : Nat)
  /-- HOME_APPLY (R97): A performed write is applied at its home station. -/
  | homeApply (e : Nat)
  /-- ATOMIC_STEP (R98): An atomic reads and writes H(x) in one step at the home station. -/
  | atomicStep (c t k : Nat)
  /-- FRONTIER_PROPAGATION (R333): An applied write enters every agent's frontier within the bound. -/
  | frontierPropagation (e : Nat)
  /-- EXTENT_ALLOCATION_WAKE (R314): The firmware allocates the extent, fences and wakes every dropped thread. -/
  | extentAllocationWake (oid x : Nat) (p : Place) (ok : Bool)
  /-- HEAT_SWEEP (R315): Every 16 ms both heats of every entry are halved. -/
  | heatSweep
  /-- EXTENT_MOVE (R316): The firmware moves a hot extent while its context is quiescent. -/
  | extentMove (oid x : Nat) (p : Place)
  /-- WEIGHT_REFRESH_WINDOW (R318): Every 3,400 A-cycles the next weight-store bank enters its refresh window. -/
  | weightRefreshWindow
  /-- SCRUB_EXTENT_CLEAR (R320): The scrubber zeroes a Z extent, clears Z, shoots down and wakes writers. -/
  | scrubExtentClear (oid x : Nat)
  /-- VECTOR_OP_START (R189): A queued vector operation starts once its reads have returned. -/
  | vectorOpStart (c k : Nat)
  /-- VECTOR_OP_RETIRE (R189): A vector operation writes its elements, ORs flags and frees its scoreboard entry. -/
  | vectorOpRetire (c : Nat) (rind : Option Rind)
  /-- TILE_ZERO_FILL_END (R214): A released tile's zero-fill ends and waiting claims complete. -/
  | tileZeroFillEnd (cl tile : Nat)
  /-- TILE_TASK_ACCEPT (R217): The scheduler accepts a tile task, copies and checks its record. -/
  | tileTaskAccept (c : Nat)
  /-- TILE_TASK_START (R218): A ready task starts on a Vat after its tile, tag and Rake checks. -/
  | tileTaskStart (cl k vat : Nat)
  /-- TILE_TASK_COMPLETE (R218): A task's C writes perform and it arrives at its completion barrier. -/
  | tileTaskComplete (cl k : Nat) (rind : Option Rind)
  /-- TRELLIS_ACCEPT (R226): The Trellis window accepts a command from a core's q1. -/
  | trellisAccept (c : Nat)
  /-- TRELLIS_COMMAND_START (R226): A waiting Trellis command starts once its entries and a tree are ready. -/
  | trellisCommandStart (cl k tree : Nat)
  /-- TRELLIS_COMMAND_RETIRE (R227): A Trellis command fills its entries or writes memory and retires. -/
  | trellisCommandRetire (cl k : Nat) (rind : Option Rind)
  /-- TRELLIS_IMAGE_SWAP (R223): The Trellis saves one context's scratch image and loads another's. -/
  | trellisImageSwap (cl x : Nat)
  /-- LADLE_CHUNK (R232): The Ladle checks and moves one 64 KiB chunk and saves its progress. -/
  | ladleChunk (cl k : Nat)
  /-- PRESS_CHUNK (R234): The Press moves one chunk of a matched collective. -/
  | pressChunk (d k : Nat)
  /-- NET_PACKET_SEND (R236): The Network Engine reads a packet's payload and sends it. -/
  | netPacketSend (d k i : Nat) (lost : Bool)
  /-- NET_PACKET_ARRIVAL (R236): A packet arrives, matches a post or ticket, and is placed or refused. -/
  | netPacketArrival (d : Nat) (a : NetArr)
  /-- NET_ACK_ARRIVAL (R338): An acknowledgement updates the sender's placed set and may trigger a resend. -/
  | netAckArrival (d : Nat) (a : NetAck)
  /-- NET_RESEND_TIMEOUT (R338): A packet unacknowledged for 8 µs is resent. -/
  | netResendTimeout (d k i : Nat) (lost : Bool)
  /-- NET_UNMATCHED_RETRY (R236): A refused unmatched message is retried every 10 µs. -/
  | netUnmatchedRetry (d k : Nat) (lost : Bool)
  /-- COMPLETION_COUNTER_STEP (R237): An ended request takes one atomic success or error step on its counter. -/
  | completionCounterStep (k : Nat)
  /-- PLACER_PASS (R291): Every tick the placer visits queue heads and places gangs all or nothing. -/
  | placerPass (tag : Nat)
  /-- LAUNCH_END (R296): When every core is released the launch ends and its counter steps. -/
  | launchEnd (l : Nat)
  /-- STEAL_REQUEST (R303): An idle core sends a steal request to the next victim. -/
  | stealRequest (c : Nat)
  /-- STEAL_ANSWER (R304): A victim hands over its bottom unreserved record or answers empty. -/
  | stealAnswer (c : Nat)
  /-- STEAL_BACKOFF_EXPIRY (R304): After an empty round the thief's 2 µs wait ends. -/
  | stealBackoffExpiry (c : Nat)
  /-- MIGRATION_ARRIVAL (R306): A migration image lands and the thread becomes ready on the target. -/
  | migrationArrival (k : Nat)
  /-- NSE_ANSWER (R245): The NSE, supervisor or root of trust answers a waiting step-5 request. -/
  | nseAnswer (k : Nat)
  /-- SHOOTDOWN_RECEIPT (R349): A station or core drops the handle and acknowledges after passed requests perform. -/
  | shootdownReceipt (k st : Nat)
  /-- SHOOTDOWN_ACK (R349): The NSE counts an acknowledgement; the last writes REVOKED and answers. -/
  | shootdownAck (k st : Nat)
  /-- FRAME_WALK (R344): A walk frame resolves a path and replies with a token. -/
  | frameWalk (f : Frame)
  /-- FRAME_OPEN (R344): An open frame returns a handle or creates an object. -/
  | frameOpen (f : Frame)
  /-- FRAME_READ (R344): A read frame is checked once and returns up to 4 KiB as an acquire. -/
  | frameRead (f : Frame)
  /-- FRAME_WRITE (R344): A write frame is checked once and writes up to 4 KiB as a release. -/
  | frameWrite (f : Frame)
  /-- FRAME_MAKE (R382): A write frame through a make handle creates missing directories. -/
  | frameMake (f : Frame)
  /-- FRAME_CLOSE (R344): A close frame releases a handle. -/
  | frameClose (f : Frame)
  /-- FRAME_REVOKE (R344): A close frame with REVOKE runs the revocation sequence. -/
  | frameRevoke (f : Frame)
  /-- FRAME_BIND (R344): A bind frame covers or layers a place and logs the bind. -/
  | frameBind (f : Frame)
  /-- FRAME_UNBIND (R344): A bind frame with UNBIND removes a bind. -/
  | frameUnbind (f : Frame)
  /-- CONTEXT_CREATE (R345): An open frame with CREATE on /tenant/ctx/ creates a tenant context. -/
  | contextCreate (f : Frame) (id : Nat)
  /-- CONTEXT_END (R345): A revoke-close on /tenant/ctx/ccc/ stops, revokes and frees the context. -/
  | contextEnd (f : Frame)
  /-- QUEUE_GO (R359): A host write of GO checks the configuration and starts the queue at RST. -/
  | queueGo (q : Nat) (rst : Nat)
  /-- QUEUE_CTL_WRITE (R353): A write to a queue control-block field that has no behaviour of its own. -/
  | queueCtlWrite (q off : Nat) (v : Word) (dev : Bool)
  /-- QUEUE_HEADER_READ (R358): The command processor acquires the header word at its read index. -/
  | queueHeaderRead (q : Nat)
  /-- PACKET_PARSE (R358): A parser core reads, checks and copies a whole packet. -/
  | packetParse (q : Nat)
  /-- PKT_LAUNCH (R355): A LAUNCH packet hands its inline header to the placer. -/
  | pktLaunch (q : Nat)
  /-- PKT_GLAUNCH (R355): A GLAUNCH packet reads a launch header through a pointer. -/
  | pktGlaunch (q : Nat)
  /-- PKT_WAIT (R355): A WAIT packet holds the queue until a counter reaches a threshold. -/
  | pktWait (q : Nat)
  /-- PKT_SIGNAL (R355): A SIGNAL packet takes one success step after earlier packets complete. -/
  | pktSignal (q : Nat)
  /-- PKT_COPY (R355): A COPY packet moves bytes in Ladle-checked chunks. -/
  | pktCopy (q : Nat)
  /-- PKT_IB (R360): An IB packet runs the packets in an indirect buffer. -/
  | pktIb (q : Nat)
  /-- PKT_REPLAY (R362): A REPLAY packet copies, patches and runs a graph body. -/
  | pktReplay (q : Nat)
  /-- PKT_BIND (R355): A BIND packet binds in the queue owner's tree. -/
  | pktBind (q : Nat)
  /-- PKT_NOP (R355): A NOP packet completes at once. -/
  | pktNop (q : Nat)
  /-- IB_GRANULE_FETCH (R360): A 256-byte indirect-buffer granule is read and watched. -/
  | ibGranuleFetch (q : Nat)
  /-- PARSER_CORE_FAULT (R364): A faulting parser drops its packet and another parses it again. -/
  | parserCoreFault (q : Nat)
  /-- SUPERVISOR_MISMATCH (R365): A lock-step mismatch restarts the pair from its checkpoint and replays the journal. -/
  | supervisorMismatch
  /-- SUPERVISOR_CHECKPOINT (R365): Every 1 ms the supervisor pair checkpoints its state. -/
  | supervisorCheckpoint
  /-- SET_PARTITION (R368): Supervisor request OP 1 maps a partition's cores and shares. -/
  | setPartition (r : SupReq)
  /-- REMOVE_PARTITION (R368): Supervisor request OP 2 unmaps a partition and frees its tag. -/
  | removePartition (r : SupReq)
  /-- ACTIVATE_FIRMWARE (R381): Supervisor request OP 3 activates new firmware or defers. -/
  | activateFirmware (r : SupReq) (vers : List Nat) (img : List (List Byte))
  /-- SLICE_EXPIRY (R369): A sliced partition's time slice ends and it is stopped for the next. -/
  | sliceExpiry (tag : Nat)
  /-- STOP_ANNOUNCEMENT (R370): A stop announcement reaches the partition's cores, engines and placer. -/
  | stopAnnouncement (k : Nat)
  /-- SYNC_STOP (R370): At the stop time each core stops issuing and captures its threads. -/
  | syncStop (k : Nat)
  /-- FLUSH_TOKEN (R372): A flush token sweeps a router's channel into its save buffer. -/
  | flushToken (k d : Nat)
  /-- PARTITION_SAVE (R374): Firmware writes the save object once the flush is done. -/
  | partitionSave (k : Nat) (bad : List Nat)
  /-- PARTITION_RESTORE (R380): The supervisor checks, remaps and writes a save back. -/
  | partitionRestore (tag : Nat) (cores : List (Nat × Nat))
  /-- PARTITION_RESUME (R380): At the resume time every core of the partition begins issuing. -/
  | partitionResume (tag : Nat)
  /-- GRADER_SIGNATURE (R389): A corrected-error signature is classified by a channel's Grader. -/
  | graderSignature (ch bank row col : Nat)
  /-- FALLOW_LEASE_START (R391): A unit is withdrawn for its stored-pattern test and 0xA4 is sent. -/
  | fallowLeaseStart (u : Nat)
  /-- FALLOW_LEASE_END (R390): A unit's test passes or fails and its lease ends. -/
  | fallowLeaseEnd (u : Nat) (pass : Bool)
  /-- CHANNEL_LEASE_WAIT_RECORD (R391): Each day a channel lease waits for room, a /sys/time record is appended. -/
  | channelLeaseWaitRecord (u : Nat)
  /-- SCORE_DECAY (R392): Each full hour without increment lowers a unit's score by 1. -/
  | scoreDecay (u : Nat)
  /-- PMACK_DEADLINE_EXPIRY (R397): A context not acknowledging within 1 ms is suspended and resumed with 0xA2. -/
  | pmackDeadlineExpiry (x : Nat)
  /-- DUO_VOTE (R395): Both copies arrive and vote on their log digests. -/
  | duoVote (l g : Nat)
  /-- DUO_THIRD_COPY (R395): After a mismatch a third copy runs and decides or 0xA1 is raised. -/
  | duoThirdCopy (l g : Nat)
  /-- QUOTE_SIGN (R406): The root of trust signs a quote for the request at the head of its queue. -/
  | quoteSign
  /-- POWER_ON_BOOT (R401): At reset the root of trust checks, measures and boots each stage. -/
  | powerOnBoot (img : List (List Byte)) (good : Bool)
  /-- MGMT_READ (R407): The management controller reads system files or sensors over MCTP. -/
  | mgmtRead (what off len : Nat)
  /-- PACKAGE_RESET (R407): The management controller resets the package. -/
  | packageReset
  /-- THERMAL_HOLD_ENTER (R408): Junction reaching 105 °C refuses new promised launches. -/
  | thermalHoldEnter
  /-- THERMAL_HOLD_EXIT (R408): Junction back below 100 °C ends thermal hold. -/
  | thermalHoldExit
  /-- THERMAL_SHUTDOWN (R408): Junction reaching 115 °C removes power from the compute dies. -/
  | thermalShutdown
  /-- LADLE_REQUEST_ACCEPT (R232): The cluster's Ladle accepts a command from a core's q2 once earlier writes have performed and it holds fewer than 16 requests. -/
  | ladleRequestAccept (c : Nat)
  /-- PRESS_COMMAND_ACCEPT (R234): The die's Press accepts a collective from a core's q3 and reads the member's completion-counter pointer. -/
  | pressCommandAccept (c : Nat)
  /-- NET_REQUEST_ACCEPT (R235): The Network Engine accepts a work request from a core's q4 and begins serving it in acceptance order. -/
  | netRequestAccept (c : Nat)
  /-- POWER_LOSS (R404): Supply to the module is lost, possibly between writing a plot-map record slot and raising the replay-protected counter. -/
  | powerLoss (between : Bool)
  deriving DecidableEq, Repr

end Sys2Proof
end

