-- ==== Sys2Proof/Machine/Forms.lean ====
section
/-! DEFINITION. What each form of each opcode makes of its fields: the kind of its D field and of its
sources, and the modifier and immediate bits it defines. Every other bit is reserved (R46). The rows are
those of the encoding tables R110, R122, R125, R129, R133, R139, R149, R154, R165, R178, R186, R192, R194,
R196, R207, R208, R209 and R242. -/

namespace Sys2Proof

/-- The tail forms (R44). -/
inductive Form where
  | t0
  | t2
  | t4
  | t4b
  | t8
  deriving DecidableEq, Repr

/-- What a 4-bit field names: nothing (reserved), a g register, a g register other than g0, a predicate
or a queue register (bit 3 reserved), a shape register, or a small immediate (R46). -/
inductive FK where
  | no
  | g
  | gz
  | p
  | s
  | q
  | imm
  deriving DecidableEq, Repr

/-- A row of the encoding tables. -/
structure OpInfo where
  op : Nat
  form : Form
  d : FK
  a : FK
  b : FK
  c : FK
  mm : Nat
  im : Nat
  deriving DecidableEq, Repr

/-- Row 0 of the opcode map (R59). -/
def opRow0 : List OpInfo := [
  ⟨0x00, .t0, .no, .no, .no, .no, 0x0, 0x0⟩,
  ⟨0x01, .t4b, .no, .no, .no, .no, 0x0, 0x0⟩,
  ⟨0x02, .t4b, .p, .no, .no, .no, 0x0, 0x0⟩,
  ⟨0x03, .t4b, .p, .no, .no, .no, 0x0, 0x0⟩,
  ⟨0x04, .t2, .no, .g, .no, .no, 0x0, 0x0⟩,
  ⟨0x04, .t4b, .no, .no, .no, .no, 0x0, 0x0⟩,
  ⟨0x05, .t0, .no, .no, .no, .no, 0x0, 0x0⟩,
  ⟨0x05, .t4, .no, .no, .no, .no, 0x0, 0x0⟩,
  ⟨0x06, .t2, .no, .g, .no, .no, 0x0, 0x0⟩,
  ⟨0x06, .t4, .no, .g, .no, .no, 0x0, 0x0⟩,
  ⟨0x07, .t4b, .gz, .no, .no, .no, 0x0, 0x0⟩,
  ⟨0x08, .t0, .no, .no, .no, .no, 0x0, 0x0⟩,
  ⟨0x08, .t4, .no, .no, .no, .no, 0x0, 0x0⟩,
  ⟨0x09, .t0, .no, .no, .no, .no, 0x0, 0x0⟩,
  ⟨0x09, .t4, .no, .no, .no, .no, 0x0, 0x0⟩,
  ⟨0x0A, .t0, .imm, .no, .no, .no, 0x0, 0x0⟩,
  ⟨0x0A, .t4, .no, .g, .no, .no, 0xFF, 0x0⟩,
  ⟨0x0B, .t4, .no, .g, .no, .no, 0xFF, 0x0⟩,
  ⟨0x0C, .t0, .no, .no, .no, .no, 0x0, 0x0⟩,
  ⟨0x0C, .t4, .no, .no, .no, .no, 0x0, 0x0⟩,
  ⟨0x0D, .t0, .g, .no, .no, .no, 0x0, 0x0⟩,
  ⟨0x0D, .t4, .g, .no, .no, .no, 0x0, 0x0⟩,
  ⟨0x0E, .t0, .imm, .no, .no, .no, 0x0, 0x0⟩]

/-- Row 1 of the opcode map (R59). -/
def opRow1 : List OpInfo := [
  ⟨0x10, .t2, .g, .g, .g, .no, 0x0, 0x0⟩,
  ⟨0x10, .t4, .g, .g, .g, .no, 0x0, 0x0⟩,
  ⟨0x11, .t2, .g, .g, .g, .no, 0x0, 0x0⟩,
  ⟨0x11, .t4, .g, .g, .g, .no, 0x0, 0x0⟩,
  ⟨0x12, .t2, .g, .g, .g, .no, 0x0, 0x0⟩,
  ⟨0x12, .t4, .g, .g, .g, .no, 0x0, 0x0⟩,
  ⟨0x13, .t2, .g, .g, .g, .no, 0x0, 0x0⟩,
  ⟨0x13, .t4, .g, .g, .g, .no, 0x0, 0x0⟩,
  ⟨0x14, .t2, .g, .g, .g, .no, 0x0, 0x0⟩,
  ⟨0x14, .t4, .g, .g, .g, .no, 0x0, 0x0⟩,
  ⟨0x15, .t2, .g, .g, .g, .no, 0x0, 0x0⟩,
  ⟨0x15, .t4, .g, .g, .g, .no, 0x0, 0x0⟩,
  ⟨0x16, .t2, .g, .g, .g, .no, 0x0, 0x0⟩,
  ⟨0x16, .t4, .g, .g, .g, .no, 0x0, 0x0⟩,
  ⟨0x17, .t2, .g, .g, .g, .no, 0x0, 0x0⟩,
  ⟨0x17, .t4, .g, .g, .g, .no, 0x0, 0x0⟩,
  ⟨0x18, .t2, .g, .g, .g, .no, 0x0, 0x0⟩,
  ⟨0x18, .t4, .g, .g, .g, .no, 0x0, 0x0⟩,
  ⟨0x19, .t2, .g, .g, .g, .no, 0x0, 0x0⟩,
  ⟨0x19, .t4, .g, .g, .g, .no, 0x0, 0x0⟩,
  ⟨0x1A, .t2, .g, .g, .g, .no, 0x0, 0x0⟩,
  ⟨0x1A, .t4, .g, .g, .g, .no, 0x0, 0x0⟩,
  ⟨0x1B, .t2, .g, .g, .g, .no, 0x0, 0x0⟩,
  ⟨0x1B, .t4, .g, .g, .g, .no, 0x0, 0x0⟩,
  ⟨0x1C, .t2, .g, .g, .g, .no, 0x0, 0x0⟩,
  ⟨0x1C, .t4, .g, .g, .g, .no, 0x0, 0x0⟩,
  ⟨0x1D, .t2, .g, .g, .g, .no, 0x0, 0x0⟩,
  ⟨0x1D, .t4, .g, .g, .g, .no, 0x0, 0x0⟩,
  ⟨0x1E, .t2, .g, .g, .g, .no, 0x0, 0x0⟩,
  ⟨0x1E, .t4, .g, .g, .g, .no, 0x0, 0x0⟩,
  ⟨0x1F, .t2, .g, .g, .g, .no, 0x0, 0x0⟩,
  ⟨0x1F, .t4, .g, .g, .g, .no, 0x0, 0x0⟩]

/-- Row 2 of the opcode map (R59). -/
def opRow2 : List OpInfo := [
  ⟨0x20, .t2, .g, .g, .no, .no, 0x3F, 0x0⟩,
  ⟨0x20, .t4, .g, .g, .no, .no, 0x1FFF, 0x0⟩,
  ⟨0x20, .t8, .g, .g, .no, .no, 0x0, 0xFFFFFFFFFFFF⟩,
  ⟨0x21, .t2, .g, .g, .no, .no, 0x3F, 0x0⟩,
  ⟨0x21, .t4, .g, .g, .no, .no, 0x1FFF, 0x0⟩,
  ⟨0x21, .t8, .g, .g, .no, .no, 0x0, 0xFFFFFFFFFFFF⟩,
  ⟨0x22, .t2, .g, .g, .no, .no, 0x3F, 0x0⟩,
  ⟨0x22, .t4, .g, .g, .no, .no, 0x1FFF, 0x0⟩,
  ⟨0x22, .t8, .g, .g, .no, .no, 0x0, 0xFFFFFFFFFFFF⟩,
  ⟨0x23, .t2, .g, .g, .no, .no, 0x3F, 0x0⟩,
  ⟨0x23, .t4, .g, .g, .no, .no, 0x1FFF, 0x0⟩,
  ⟨0x23, .t8, .g, .g, .no, .no, 0x0, 0xFFFFFFFFFFFF⟩,
  ⟨0x24, .t2, .g, .g, .no, .no, 0x3F, 0x0⟩,
  ⟨0x24, .t4, .g, .g, .no, .no, 0x3F, 0x0⟩,
  ⟨0x25, .t2, .g, .g, .no, .no, 0x3F, 0x0⟩,
  ⟨0x25, .t4, .g, .g, .no, .no, 0x3F, 0x0⟩,
  ⟨0x26, .t2, .g, .g, .no, .no, 0x3F, 0x0⟩,
  ⟨0x26, .t4, .g, .g, .no, .no, 0x3F, 0x0⟩,
  ⟨0x27, .t8, .g, .no, .no, .no, 0x0, 0xFFFFFFFFFFFF⟩,
  ⟨0x28, .t8, .g, .g, .no, .no, 0x0, 0xFFFF⟩,
  ⟨0x29, .t2, .g, .g, .no, .no, 0x0, 0x0⟩,
  ⟨0x29, .t4, .g, .g, .no, .no, 0x0, 0x0⟩,
  ⟨0x2A, .t2, .g, .g, .g, .no, 0xF, 0x0⟩,
  ⟨0x2A, .t4, .g, .g, .g, .no, 0xF, 0x0⟩,
  ⟨0x2B, .t2, .g, .g, .no, .no, 0x0, 0x0⟩,
  ⟨0x2B, .t4, .g, .g, .no, .no, 0x0, 0x0⟩,
  ⟨0x2C, .t2, .g, .g, .no, .no, 0x0, 0x0⟩,
  ⟨0x2C, .t4, .g, .g, .no, .no, 0x0, 0x0⟩,
  ⟨0x2D, .t2, .g, .g, .no, .no, 0x0, 0x0⟩,
  ⟨0x2D, .t4, .g, .g, .no, .no, 0x0, 0x0⟩,
  ⟨0x2E, .t4, .g, .g, .no, .no, 0x1FFF, 0x0⟩,
  ⟨0x2F, .t4, .g, .g, .g, .no, 0xFFF, 0x0⟩]

/-- Row 3 of the opcode map (R59). -/
def opRow3 : List OpInfo := [
  ⟨0x30, .t2, .p, .g, .g, .no, 0x3F, 0x0⟩,
  ⟨0x30, .t4, .p, .g, .g, .no, 0x3F, 0x0⟩,
  ⟨0x31, .t4, .p, .g, .no, .no, 0x1FFF, 0x0⟩,
  ⟨0x31, .t8, .p, .g, .no, .no, 0x3F, 0xFFFFFFFFFFFF⟩,
  ⟨0x32, .t2, .p, .p, .p, .no, 0x3, 0x0⟩,
  ⟨0x32, .t4, .p, .p, .p, .no, 0x3, 0x0⟩,
  ⟨0x33, .t2, .p, .p, .p, .no, 0x3, 0x0⟩,
  ⟨0x33, .t4, .p, .p, .p, .no, 0x3, 0x0⟩,
  ⟨0x34, .t2, .p, .p, .p, .no, 0x3, 0x0⟩,
  ⟨0x34, .t4, .p, .p, .p, .no, 0x3, 0x0⟩,
  ⟨0x35, .t2, .p, .p, .no, .no, 0x0, 0x0⟩,
  ⟨0x35, .t4, .p, .p, .no, .no, 0x0, 0x0⟩,
  ⟨0x36, .t0, .g, .no, .no, .no, 0x0, 0x0⟩,
  ⟨0x36, .t4, .g, .no, .no, .no, 0x0, 0x0⟩,
  ⟨0x37, .t2, .no, .g, .no, .no, 0x0, 0x0⟩,
  ⟨0x37, .t4, .no, .g, .no, .no, 0xFE, 0x0⟩,
  ⟨0x38, .t2, .g, .g, .g, .no, 0x0, 0x0⟩,
  ⟨0x38, .t4, .g, .g, .g, .no, 0x1FF, 0x0⟩,
  ⟨0x39, .t2, .g, .g, .g, .no, 0x7, 0x0⟩,
  ⟨0x39, .t4, .g, .g, .g, .no, 0x7, 0x0⟩,
  ⟨0x3A, .t2, .g, .g, .no, .no, 0x3F, 0x0⟩,
  ⟨0x3A, .t4, .g, .g, .no, .no, 0x1FFF, 0x0⟩,
  ⟨0x3A, .t8, .g, .g, .no, .no, 0x0, 0xFFFFFFFFFFFF⟩,
  ⟨0x3B, .t2, .g, .g, .no, .no, 0x3F, 0x0⟩,
  ⟨0x3B, .t4, .g, .g, .no, .no, 0x3F, 0x0⟩,
  ⟨0x3C, .t2, .g, .g, .no, .no, 0x7, 0x0⟩,
  ⟨0x3C, .t4, .g, .g, .no, .no, 0x7, 0x0⟩,
  ⟨0x3D, .t2, .g, .g, .no, .no, 0x0, 0x0⟩,
  ⟨0x3D, .t4, .g, .g, .no, .no, 0x0, 0x0⟩,
  ⟨0x3E, .t2, .g, .g, .no, .no, 0x0, 0x0⟩,
  ⟨0x3E, .t4, .g, .g, .no, .no, 0x0, 0x0⟩,
  ⟨0x3F, .t4, .g, .g, .g, .no, 0x3F, 0x0⟩]

/-- Row 4 of the opcode map (R59). -/
def opRow4 : List OpInfo := [
  ⟨0x40, .t4, .g, .g, .no, .no, 0x1FFF, 0x0⟩,
  ⟨0x41, .t4, .g, .g, .no, .no, 0x1FFF, 0x0⟩,
  ⟨0x42, .t4, .g, .g, .no, .no, 0x1FFF, 0x0⟩,
  ⟨0x43, .t4, .g, .g, .no, .no, 0x3B, 0x0⟩,
  ⟨0x44, .t4, .g, .g, .no, .no, 0x3B, 0x0⟩,
  ⟨0x45, .t4, .g, .g, .no, .no, 0x3FF, 0x0⟩,
  ⟨0x46, .t4, .g, .g, .no, .no, 0x3FF, 0x0⟩,
  ⟨0x47, .t4, .g, .g, .no, .no, 0x1FFF, 0x0⟩,
  ⟨0x48, .t4, .g, .g, .no, .no, 0x1FFF, 0x0⟩,
  ⟨0x49, .t4, .g, .g, .g, .no, 0x7, 0x0⟩,
  ⟨0x4A, .t4, .g, .g, .g, .no, 0x3, 0x0⟩]

/-- Row 5 of the opcode map (R59). -/
def opRow5 : List OpInfo := [
  ⟨0x50, .t4, .g, .g, .g, .g, 0x7F, 0x0⟩,
  ⟨0x51, .t4, .g, .g, .g, .no, 0x7F, 0x0⟩,
  ⟨0x52, .t4, .g, .g, .g, .no, 0x7F, 0x0⟩,
  ⟨0x53, .t4, .g, .g, .g, .no, 0x7F, 0x0⟩,
  ⟨0x54, .t4, .g, .g, .g, .no, 0x7F, 0x0⟩,
  ⟨0x55, .t4, .g, .g, .g, .no, 0x7F, 0x0⟩,
  ⟨0x56, .t4, .g, .g, .g, .no, 0xFF, 0x0⟩,
  ⟨0x57, .t4, .g, .g, .g, .no, 0xFF, 0x0⟩,
  ⟨0x58, .t4, .g, .g, .g, .no, 0x7F, 0x0⟩,
  ⟨0x59, .t2, .no, .no, .no, .no, 0x1F, 0x0⟩,
  ⟨0x59, .t4, .no, .no, .no, .no, 0x1F, 0x0⟩,
  ⟨0x5A, .t2, .no, .no, .no, .no, 0x7, 0x0⟩,
  ⟨0x5A, .t4, .no, .no, .no, .no, 0x7, 0x0⟩,
  ⟨0x5B, .t0, .no, .no, .no, .no, 0x0, 0x0⟩,
  ⟨0x5B, .t4, .no, .no, .no, .no, 0x0, 0x0⟩]

/-- Row 6 of the opcode map (R59). -/
def opRow6 : List OpInfo := [
  ⟨0x60, .t4, .gz, .g, .g, .no, 0x7, 0x0⟩,
  ⟨0x61, .t8, .gz, .g, .no, .no, 0x7, 0xFFFFFFFFFFFF⟩,
  ⟨0x62, .t0, .gz, .no, .no, .no, 0x0, 0x0⟩,
  ⟨0x62, .t4, .gz, .g, .no, .no, 0x1, 0x0⟩,
  ⟨0x63, .t2, .no, .g, .no, .no, 0x0, 0x0⟩,
  ⟨0x63, .t4, .no, .g, .no, .no, 0x0, 0x0⟩,
  ⟨0x64, .t2, .no, .g, .no, .no, 0x0, 0x0⟩,
  ⟨0x64, .t4, .no, .g, .no, .no, 0x0, 0x0⟩,
  ⟨0x65, .t0, .g, .no, .no, .no, 0x0, 0x0⟩,
  ⟨0x65, .t4, .g, .no, .no, .no, 0x0, 0x0⟩,
  ⟨0x66, .t2, .no, .g, .g, .no, 0x0, 0x0⟩,
  ⟨0x66, .t4, .no, .g, .g, .no, 0x0, 0x0⟩,
  ⟨0x67, .t2, .no, .g, .g, .no, 0x0, 0x0⟩,
  ⟨0x67, .t4, .no, .g, .g, .no, 0x0, 0x0⟩,
  ⟨0x68, .t0, .g, .no, .no, .no, 0x0, 0x0⟩,
  ⟨0x68, .t4, .g, .no, .no, .no, 0x0, 0x0⟩,
  ⟨0x69, .t0, .g, .no, .no, .no, 0x0, 0x0⟩,
  ⟨0x69, .t4, .g, .no, .no, .no, 0x0, 0x0⟩]

/-- Row 7 of the opcode map (R59). -/
def opRow7 : List OpInfo := [
  ⟨0x70, .t2, .no, .g, .no, .no, 0x0, 0x0⟩,
  ⟨0x70, .t4, .no, .g, .no, .no, 0x0, 0x0⟩,
  ⟨0x71, .t2, .g, .g, .no, .no, 0x0, 0x0⟩,
  ⟨0x71, .t4, .g, .g, .no, .no, 0x0, 0x0⟩,
  ⟨0x72, .t2, .no, .g, .no, .no, 0x0, 0x0⟩,
  ⟨0x72, .t4, .no, .g, .no, .no, 0x0, 0x0⟩,
  ⟨0x73, .t2, .g, .g, .no, .no, 0x0, 0x0⟩,
  ⟨0x73, .t4, .g, .g, .no, .no, 0x0, 0x0⟩,
  ⟨0x74, .t2, .g, .no, .no, .no, 0xF, 0x0⟩,
  ⟨0x75, .t0, .imm, .no, .no, .no, 0x0, 0x0⟩,
  ⟨0x75, .t4, .imm, .no, .no, .no, 0x0, 0x0⟩,
  ⟨0x76, .t0, .imm, .no, .no, .no, 0x0, 0x0⟩,
  ⟨0x76, .t4, .imm, .no, .no, .no, 0x0, 0x0⟩,
  ⟨0x77, .t0, .imm, .no, .no, .no, 0x0, 0x0⟩,
  ⟨0x77, .t4, .imm, .no, .no, .no, 0x0, 0x0⟩,
  ⟨0x78, .t2, .no, .g, .g, .no, 0x0, 0x0⟩,
  ⟨0x78, .t4, .no, .g, .g, .no, 0x0, 0x0⟩,
  ⟨0x79, .t2, .g, .g, .no, .no, 0x0, 0x0⟩,
  ⟨0x79, .t4, .g, .g, .no, .no, 0x0, 0x0⟩,
  ⟨0x7A, .t2, .no, .g, .g, .no, 0x0, 0x0⟩,
  ⟨0x7A, .t4, .no, .g, .g, .no, 0x0, 0x0⟩,
  ⟨0x7B, .t2, .no, .g, .g, .no, 0x1, 0x0⟩,
  ⟨0x7B, .t4, .no, .g, .g, .no, 0x1, 0x0⟩,
  ⟨0x7C, .t2, .no, .g, .no, .no, 0x1, 0x0⟩,
  ⟨0x7C, .t4, .no, .g, .no, .no, 0x1, 0x0⟩,
  ⟨0x7D, .t2, .g, .g, .no, .no, 0x0, 0x0⟩,
  ⟨0x7D, .t4, .g, .g, .no, .no, 0x0, 0x0⟩]

/-- Row 8 of the opcode map (R59). -/
def opRow8 : List OpInfo := [
  ⟨0x80, .t2, .g, .g, .g, .no, 0x1, 0x0⟩,
  ⟨0x80, .t4, .g, .g, .g, .no, 0x1, 0x0⟩,
  ⟨0x81, .t2, .g, .g, .g, .no, 0x1, 0x0⟩,
  ⟨0x81, .t4, .g, .g, .g, .no, 0x1, 0x0⟩,
  ⟨0x82, .t2, .g, .g, .g, .no, 0x1, 0x0⟩,
  ⟨0x82, .t4, .g, .g, .g, .no, 0x1, 0x0⟩,
  ⟨0x83, .t4, .g, .g, .g, .g, 0x1, 0x0⟩,
  ⟨0x84, .t2, .g, .g, .g, .no, 0x1, 0x0⟩,
  ⟨0x84, .t4, .g, .g, .g, .no, 0x1, 0x0⟩,
  ⟨0x85, .t2, .g, .g, .no, .no, 0x1, 0x0⟩,
  ⟨0x85, .t4, .g, .g, .no, .no, 0x1, 0x0⟩,
  ⟨0x86, .t2, .g, .g, .g, .no, 0x1, 0x0⟩,
  ⟨0x86, .t4, .g, .g, .g, .no, 0x1, 0x0⟩,
  ⟨0x87, .t2, .g, .g, .g, .no, 0x1, 0x0⟩,
  ⟨0x87, .t4, .g, .g, .g, .no, 0x1, 0x0⟩,
  ⟨0x88, .t2, .p, .g, .g, .no, 0xF, 0x0⟩,
  ⟨0x88, .t4, .p, .g, .g, .no, 0xF, 0x0⟩,
  ⟨0x89, .t4, .g, .g, .no, .no, 0xFFF, 0x0⟩,
  ⟨0x8A, .t2, .g, .g, .g, .no, 0x7, 0x0⟩,
  ⟨0x8A, .t4, .g, .g, .g, .no, 0x7, 0x0⟩,
  ⟨0x8B, .t2, .no, .g, .no, .no, 0x0, 0x0⟩,
  ⟨0x8B, .t4, .no, .g, .no, .no, 0x0, 0x0⟩,
  ⟨0x8C, .t2, .g, .g, .no, .no, 0x1, 0x0⟩,
  ⟨0x8C, .t4, .g, .g, .no, .no, 0x1, 0x0⟩,
  ⟨0x8D, .t2, .g, .g, .no, .no, 0x1, 0x0⟩,
  ⟨0x8D, .t4, .g, .g, .no, .no, 0x1, 0x0⟩]

/-- Row 9 of the opcode map (R59). -/
def opRow9 : List OpInfo := [
  ⟨0x90, .t4, .g, .g, .g, .g, 0x1FF, 0x0⟩,
  ⟨0x91, .t4, .g, .g, .g, .g, 0x1FF, 0x0⟩,
  ⟨0x92, .t4, .g, .g, .g, .g, 0x1FF, 0x0⟩,
  ⟨0x93, .t4, .g, .g, .g, .g, 0x1FF, 0x0⟩,
  ⟨0x94, .t4, .g, .g, .g, .g, 0x1FF, 0x0⟩,
  ⟨0x95, .t4, .g, .g, .g, .g, 0x1FF, 0x0⟩,
  ⟨0x96, .t4, .g, .g, .g, .g, 0x1FF, 0x0⟩,
  ⟨0x97, .t4, .g, .g, .no, .g, 0xFF, 0x0⟩,
  ⟨0x98, .t4, .g, .g, .no, .g, 0xFF, 0x0⟩,
  ⟨0x99, .t4, .g, .g, .no, .g, 0xFF, 0x0⟩,
  ⟨0x9A, .t4, .g, .g, .no, .g, 0xFF, 0x0⟩,
  ⟨0x9B, .t4, .g, .g, .no, .g, 0xFF, 0x0⟩,
  ⟨0x9C, .t4, .g, .g, .no, .g, 0x1FFF, 0x0⟩,
  ⟨0x9D, .t4, .g, .g, .g, .g, 0xFF, 0x0⟩,
  ⟨0x9E, .t4, .g, .g, .no, .g, 0xFF, 0x0⟩,
  ⟨0x9F, .t4, .g, .g, .no, .g, 0xFF, 0x0⟩]

/-- Row A of the opcode map (R59). -/
def opRowA : List OpInfo := [
  ⟨0xA0, .t4, .g, .g, .g, .g, 0x1FF, 0x0⟩,
  ⟨0xA1, .t4, .g, .g, .g, .g, 0x1FF, 0x0⟩,
  ⟨0xA2, .t4, .g, .g, .g, .g, 0x1FF, 0x0⟩,
  ⟨0xA3, .t4, .g, .g, .g, .g, 0x1FF, 0x0⟩,
  ⟨0xA4, .t4, .g, .g, .g, .g, 0x1FF, 0x0⟩,
  ⟨0xA5, .t4, .g, .g, .g, .g, 0x1FF, 0x0⟩,
  ⟨0xA6, .t4, .g, .g, .g, .g, 0x1FF, 0x0⟩,
  ⟨0xA7, .t4, .g, .g, .g, .g, 0x1FF, 0x0⟩,
  ⟨0xA8, .t4, .g, .g, .g, .g, 0x1FF, 0x0⟩,
  ⟨0xA9, .t4, .g, .g, .no, .g, 0xC0, 0x0⟩,
  ⟨0xAA, .t4, .g, .g, .g, .g, 0x1FF, 0x0⟩,
  ⟨0xAB, .t4, .g, .g, .g, .g, 0x1FF, 0x0⟩,
  ⟨0xAC, .t4, .g, .g, .g, .g, 0x1FF, 0x0⟩,
  ⟨0xAD, .t4, .g, .g, .g, .g, 0xFFF, 0x0⟩,
  ⟨0xAE, .t4, .g, .g, .no, .g, 0x1FFF, 0x0⟩,
  ⟨0xAF, .t4, .g, .g, .no, .g, 0xFF, 0x0⟩]

/-- Row B of the opcode map (R59). -/
def opRowB : List OpInfo := [
  ⟨0xB0, .t2, .g, .g, .no, .no, 0x1F, 0x0⟩,
  ⟨0xB0, .t4, .g, .g, .no, .no, 0x1F, 0x0⟩,
  ⟨0xB1, .t0, .no, .no, .no, .no, 0x0, 0x0⟩,
  ⟨0xB1, .t4, .no, .no, .no, .no, 0x0, 0x0⟩,
  ⟨0xB2, .t4, .g, .g, .no, .g, 0xFF, 0x0⟩,
  ⟨0xB3, .t4, .g, .g, .no, .g, 0xFF, 0x0⟩,
  ⟨0xB4, .t4, .g, .g, .no, .g, 0xFF, 0x0⟩,
  ⟨0xB5, .t4, .g, .g, .no, .g, 0x6FF, 0x0⟩,
  ⟨0xB6, .t4, .g, .g, .g, .g, 0x17F, 0x0⟩,
  ⟨0xB7, .t4, .g, .g, .g, .g, 0x1BF, 0x0⟩,
  ⟨0xB8, .t4, .g, .g, .no, .g, 0xFF, 0x0⟩,
  ⟨0xB9, .t4, .g, .g, .no, .g, 0x7F, 0x0⟩,
  ⟨0xBA, .t4, .g, .g, .no, .g, 0x2C0, 0x0⟩,
  ⟨0xBB, .t4, .g, .g, .no, .g, 0x7F, 0x0⟩]

/-- Row C of the opcode map (R59). -/
def opRowC : List OpInfo := [
  ⟨0xC0, .t2, .s, .g, .no, .no, 0x0, 0x0⟩,
  ⟨0xC0, .t4, .s, .g, .no, .no, 0x0, 0x0⟩,
  ⟨0xC1, .t2, .s, .g, .no, .no, 0x0, 0x0⟩,
  ⟨0xC1, .t4, .s, .g, .no, .no, 0x0, 0x0⟩,
  ⟨0xC2, .t4, .s, .g, .no, .no, 0x1FFF, 0x0⟩,
  ⟨0xC3, .t4, .g, .s, .no, .no, 0x1FFF, 0x0⟩,
  ⟨0xC4, .t2, .g, .no, .no, .no, 0x3F, 0x0⟩,
  ⟨0xC4, .t4, .g, .g, .no, .no, 0xFF, 0x0⟩,
  ⟨0xC5, .t2, .no, .no, .no, .no, 0x3F, 0x0⟩,
  ⟨0xC5, .t4, .no, .g, .no, .no, 0x7F, 0x0⟩,
  ⟨0xC6, .t4, .no, .g, .no, .no, 0x7FF, 0x0⟩,
  ⟨0xC7, .t2, .no, .g, .no, .no, 0x0, 0x0⟩,
  ⟨0xC7, .t4, .no, .g, .no, .no, 0x1, 0x0⟩,
  ⟨0xC8, .t2, .g, .no, .no, .no, 0x3F, 0x0⟩,
  ⟨0xC8, .t4, .g, .g, .no, .no, 0x7F, 0x0⟩,
  ⟨0xC9, .t2, .q, .g, .no, .no, 0x0, 0x0⟩,
  ⟨0xC9, .t4, .q, .g, .no, .no, 0x0, 0x0⟩,
  ⟨0xCA, .t2, .g, .q, .no, .no, 0x0, 0x0⟩,
  ⟨0xCA, .t4, .g, .q, .no, .no, 0x0, 0x0⟩,
  ⟨0xCB, .t2, .g, .q, .no, .no, 0x0, 0x0⟩,
  ⟨0xCB, .t4, .g, .q, .no, .no, 0x0, 0x0⟩]

/-- Row D of the opcode map (R59). -/
def opRowD : List OpInfo := [
  ⟨0xD0, .t4, .no, .g, .g, .g, 0x3, 0x0⟩,
  ⟨0xD1, .t4, .no, .g, .g, .g, 0x2, 0x0⟩,
  ⟨0xD2, .t0, .s, .no, .no, .no, 0x0, 0x0⟩,
  ⟨0xD2, .t4, .s, .no, .no, .no, 0x1, 0x0⟩,
  ⟨0xD3, .t0, .s, .no, .no, .no, 0x0, 0x0⟩,
  ⟨0xD3, .t4, .s, .no, .no, .no, 0x7, 0x0⟩,
  ⟨0xD4, .t0, .s, .no, .no, .no, 0x0, 0x0⟩,
  ⟨0xD4, .t4, .s, .no, .no, .no, 0x1, 0x0⟩,
  ⟨0xD5, .t4, .no, .no, .g, .g, 0x3, 0x0⟩,
  ⟨0xD6, .t4, .no, .no, .g, .g, 0x1, 0x0⟩,
  ⟨0xD7, .t4, .no, .g, .g, .g, 0xF, 0x0⟩,
  ⟨0xD8, .t4, .no, .g, .g, .g, 0x2, 0x0⟩,
  ⟨0xD9, .t2, .g, .g, .no, .no, 0x0, 0x0⟩,
  ⟨0xD9, .t4, .g, .g, .no, .no, 0x0, 0x0⟩]

/-- Row E of the opcode map (R59). -/
def opRowE : List OpInfo := [
  ⟨0xE0, .t4, .g, .g, .g, .g, 0x1FFF, 0x0⟩,
  ⟨0xE1, .t4, .g, .g, .g, .g, 0x1FFF, 0x0⟩,
  ⟨0xE2, .t2, .no, .g, .no, .no, 0x0, 0x0⟩,
  ⟨0xE2, .t4, .no, .g, .no, .no, 0x0, 0x0⟩,
  ⟨0xE3, .t2, .g, .g, .no, .no, 0x0, 0x0⟩,
  ⟨0xE3, .t4, .g, .g, .no, .no, 0x0, 0x0⟩,
  ⟨0xE4, .t4, .g, .g, .g, .g, 0x3F, 0x0⟩,
  ⟨0xE5, .t4, .g, .g, .g, .g, 0x27, 0x0⟩,
  ⟨0xE6, .t4, .g, .g, .g, .g, 0x3F, 0x0⟩,
  ⟨0xE7, .t4, .g, .g, .g, .g, 0x27, 0x0⟩,
  ⟨0xE8, .t2, .no, .g, .no, .no, 0x0, 0x0⟩,
  ⟨0xE8, .t4, .no, .g, .no, .no, 0x0, 0x0⟩,
  ⟨0xE9, .t2, .no, .g, .no, .no, 0x0, 0x0⟩,
  ⟨0xE9, .t4, .no, .g, .no, .no, 0x0, 0x0⟩,
  ⟨0xEA, .t2, .no, .g, .no, .no, 0x0, 0x0⟩,
  ⟨0xEA, .t4, .no, .g, .no, .no, 0x0, 0x0⟩,
  ⟨0xEB, .t2, .no, .g, .no, .no, 0x0, 0x0⟩,
  ⟨0xEB, .t4, .no, .g, .no, .no, 0x0, 0x0⟩,
  ⟨0xEC, .t2, .no, .g, .g, .no, 0x0, 0x0⟩,
  ⟨0xEC, .t4, .no, .g, .g, .no, 0x0, 0x0⟩,
  ⟨0xED, .t2, .g, .g, .no, .no, 0x0, 0x0⟩,
  ⟨0xED, .t4, .g, .g, .no, .no, 0x0, 0x0⟩,
  ⟨0xEE, .t2, .no, .g, .g, .no, 0x0, 0x0⟩,
  ⟨0xEE, .t4, .no, .g, .g, .no, 0x0, 0x0⟩,
  ⟨0xEF, .t0, .g, .no, .no, .no, 0x0, 0x0⟩,
  ⟨0xEF, .t4, .g, .no, .no, .no, 0x0, 0x0⟩]

/-- Row F of the opcode map (R59). -/
def opRowF : List OpInfo := [
  ⟨0xF0, .t2, .g, .g, .no, .no, 0x0, 0x0⟩,
  ⟨0xF0, .t4, .g, .g, .g, .no, 0x0, 0x0⟩,
  ⟨0xF1, .t2, .g, .g, .no, .no, 0x3F, 0x0⟩,
  ⟨0xF1, .t4, .g, .g, .g, .no, 0xFF, 0x0⟩,
  ⟨0xF2, .t2, .no, .g, .no, .no, 0x0, 0x0⟩,
  ⟨0xF2, .t4, .no, .g, .no, .no, 0x0, 0x0⟩,
  ⟨0xF3, .t4, .no, .g, .g, .no, 0x1F, 0x0⟩,
  ⟨0xF4, .t2, .no, .g, .g, .no, 0x0, 0x0⟩,
  ⟨0xF4, .t4, .no, .g, .g, .no, 0x0, 0x0⟩,
  ⟨0xF5, .t2, .no, .g, .g, .no, 0x1, 0x0⟩,
  ⟨0xF5, .t4, .no, .g, .g, .no, 0x1, 0x0⟩,
  ⟨0xF6, .t2, .g, .no, .no, .no, 0x3F, 0x0⟩,
  ⟨0xF6, .t4, .g, .no, .no, .no, 0x3FF, 0x0⟩,
  ⟨0xF7, .t2, .no, .g, .no, .no, 0x3F, 0x0⟩,
  ⟨0xF7, .t4, .no, .g, .no, .no, 0xFFF, 0x0⟩,
  ⟨0xF8, .t2, .no, .g, .g, .no, 0x3, 0x0⟩,
  ⟨0xF8, .t4, .no, .g, .g, .no, 0x3, 0x0⟩,
  ⟨0xF9, .t2, .no, .g, .no, .no, 0x0, 0x0⟩,
  ⟨0xF9, .t4, .no, .g, .no, .no, 0x0, 0x0⟩,
  ⟨0xFA, .t2, .no, .g, .no, .no, 0xF, 0x0⟩,
  ⟨0xFA, .t4, .no, .g, .no, .no, 0xF, 0x0⟩,
  ⟨0xFB, .t4, .no, .g, .g, .no, 0x1, 0x0⟩,
  ⟨0xFC, .t2, .no, .g, .g, .no, 0x0, 0x0⟩,
  ⟨0xFC, .t4, .no, .g, .g, .no, 0x0, 0x0⟩,
  ⟨0xFD, .t0, .no, .no, .no, .no, 0x0, 0x0⟩,
  ⟨0xFD, .t4, .no, .no, .no, .no, 0x0, 0x0⟩,
  ⟨0xFE, .t2, .no, .g, .no, .no, 0x0, 0x0⟩,
  ⟨0xFE, .t4, .no, .g, .no, .no, 0x0, 0x0⟩]

/-- The encoding table of a row of the opcode map. -/
def opRow (r : Nat) : List OpInfo :=
  match r with
  | 0 => opRow0
  | 1 => opRow1
  | 2 => opRow2
  | 3 => opRow3
  | 4 => opRow4
  | 5 => opRow5
  | 6 => opRow6
  | 7 => opRow7
  | 8 => opRow8
  | 9 => opRow9
  | 10 => opRowA
  | 11 => opRowB
  | 12 => opRowC
  | 13 => opRowD
  | 14 => opRowE
  | 15 => opRowF
  | _ => []

/-- The row of an opcode and a tail form, none where the opcode does not accept the form. -/
def opInfo (op : Nat) (fm : Form) : Option OpInfo :=
  (opRow (op / 16)).find? fun i => i.op == op && i.form == fm

/-- The fields of an instruction as numbers, whatever its form (R44); `i` holds disp or i48. -/
structure Opnd where
  s : Bool := false
  p : Bool := false
  d : Nat := 0
  a : Nat := 0
  b : Nat := 0
  c : Nat := 0
  pg : Nat := 0
  la : Bool := false
  lb : Bool := false
  lc : Bool := false
  m : Nat := 0
  i : Nat := 0
  deriving DecidableEq, Repr

/-- The fields of a head with no tail. -/
def F0.opnd (f : F0) : Opnd := { s := f.s, p := f.p, d := f.d.toNat }

/-- The fields of a T2 form; it has the guard p0 (R44). -/
def F2.opnd (f : F2) : Opnd :=
  { s := f.s, p := f.p, d := f.d.toNat, a := f.a.toNat, b := f.b.toNat, la := f.la, lb := f.lb, m := f.m.toNat }

/-- The fields of a T4 form. -/
def F4.opnd (f : F4) : Opnd :=
  { s := f.s, p := f.p, d := f.d.toNat, a := f.a.toNat, b := f.b.toNat, c := f.c.toNat, pg := f.pg.toNat,
    la := f.la, lb := f.lb, lc := f.lc, m := f.m.toNat }

/-- The fields of a T4b form. -/
def F4b.opnd (f : F4b) : Opnd :=
  { s := f.s, p := f.p, d := f.d.toNat, pg := f.pg.toNat, m := f.m.toNat, i := f.disp.toNat }

/-- The fields of a T8 form. -/
def F8.opnd (f : F8) : Opnd :=
  { s := f.s, p := f.p, d := f.d.toNat, a := f.a.toNat, pg := f.pg.toNat, la := f.la, m := f.m.toNat, i := f.i.toNat }

/-- A bit field of a number: `w` bits from bit `lo`. -/
def bits (n lo w : Nat) : Nat := n / 2 ^ lo % 2 ^ w

/-- Bit `k` of a number. -/
def bit (n k : Nat) : Bool := n / 2 ^ k % 2 = 1

/-- A field number breaks the rule of its kind (R46). -/
def FK.bad (k : FK) (n : Nat) : Bool :=
  match k with
  | .no => n != 0
  | .gz => n == 0
  | .p => n ≥ 8
  | .q => n ≥ 8
  | _ => false

/-- A last-read mark stands where it may not: it is legal only on a g register other than g0 (R46). -/
def FK.badMark (k : FK) (n : Nat) (mark : Bool) : Bool :=
  mark && !((k == .g) && n != 0)

/-- The width that a width code selects (R211), none for the reserved codes. -/
def widthCode (wc : Nat) : Option Nat :=
  if wc < 8 then some (wc + 1)
  else match wc with
  | 8 => some 13
  | 9 => some 16
  | 10 => some 32
  | 11 => some 44
  | 12 => some 64
  | 13 => some 40
  | _ => none

/-- A scope code is reserved (R94). -/
def badScope (n : Nat) : Bool := n ≥ 6

/-- Reserved forms of row 4 (R139). -/
def badRow4 (op : Nat) (o : Opnd) : Bool :=
  let pi (b : Bool) := b && (o.la || o.a == 0)
  match op with
  | 0x40 | 0x41 => pi (bit o.m 2) || (bit o.m 2 && (bits o.m 3 10 != 0 || o.d == o.a))
  | 0x42 => pi (bit o.m 2) || (bit o.m 2 && bits o.m 3 10 != 0)
  | 0x43 | 0x44 => badScope (bits o.m 3 3)
  | 0x45 => pi (bit o.m 6) || (bit o.m 6 && o.d == o.a) || bits o.m 7 3 ≥ 5
  | 0x46 => pi (bit o.m 6) || bits o.m 7 3 ≥ 5
  | 0x47 => pi (bit o.m 2) || (bit o.m 2 && (bits o.m 3 10 != 0 || o.d == o.a || o.d + 1 == o.a))
      || o.d == 0 || o.d == 15 || bits o.m 0 2 != 3
  | 0x48 => pi (bit o.m 2) || (bit o.m 2 && bits o.m 3 10 != 0) || o.d == 15 || bits o.m 0 2 != 3
  | _ => false

/-- The post-increments of a vector form: which of D, sA and sB it advances (R186). -/
def vecPI (op : Nat) (m : Nat) : Bool × Bool × Bool :=
  if op == 0x9C || op == 0xAE then (bit m 12, bit m 12, false)
  else (bit m 6, bit m 7, bit m 8)

/-- Reserved combinations of post-increments and marks of a vector form (R186). -/
def badVec (op : Nat) (o : Opnd) : Bool :=
  let (pd, pa, pb) := vecPI op o.m
  (pa && o.la) || (pb && o.lb) || (pd && o.d == 0) || (pa && o.a == 0) || (pb && o.b == 0)
    || (pd && pa && o.d == o.a) || (pd && pb && o.d == o.b) || (pa && pb && o.a == o.b)

/-- Reserved values of fields that the masks of the table do not show (R128, R130, R149, R158, R165,
R178, R181, R182, R183, R186, R194, R196, R197, R206, R207, R211, R226, R234, R242, R249). -/
def badValue (op : Nat) (fm : Form) (o : Opnd) : Bool :=
  match op with
  | 0x2E | 0x2F => bits o.m 0 6 + bits o.m 6 6 + 1 > 64
  | 0x30 | 0x31 => bits o.m 0 4 ≥ 12 || bits o.m 4 2 == 3
  | 0x59 => badScope (bits o.m 2 3)
  | 0x5A => badScope (bits o.m 0 3)
  | 0x62 => fm == .t4 && !bit o.m 0 && (o.a != 0 || o.la)
  | 0x75 | 0x76 | 0x77 => o.d ≥ 7
  | 0x88 => bits o.m 1 3 ≥ 5
  | 0x89 => (let f := bits o.m 0 6; let t := bits o.m 6 6; f < 5 || f > 13 || t < 5 || t > 13 || f == t)
  | 0x8A => bits o.m 1 2 < 2 && (o.b != 0 || o.lb)
  | 0xAD => bits o.m 9 3 ≥ 5 || badVec op o
  | 0xB0 => (bit o.m 4 == false && (o.a != 0 || o.la)) || (!bit o.m 4 && bits o.m 0 4 > 8)
  | 0xB5 => bits o.m 9 2 == 3 || badVec op o
  | 0xC2 | 0xC3 =>
    match widthCode (bits o.m 9 4) with
    | none => true
    | some w => bits o.m 0 9 + w > 512
  | 0xC4 | 0xC5 | 0xC6 | 0xC8 => fm == .t4 && !bit o.m 6 && (o.a != 0 || o.la)
  | 0xCA => o.a < 5
  | 0xD7 => bits o.m 0 2 == 3
  | 0xE0 | 0xE1 => bit o.m 4 && o.b != 0
  | 0xE4 | 0xE6 => bits o.m 0 3 ≥ 5 || bits o.m 3 2 == 3
  | 0xE5 | 0xE7 => bits o.m 0 3 ≥ 5
  | 0xF3 => !bit o.m 0 && bits o.m 1 4 != 0
  | 0xF5 => !bit o.m 0 && (o.b != 0 || o.lb)
  | 0xF7 => fm == .t4 && bits o.m 10 2 == 3
  | 0xF8 => bits o.m 0 2 % 2 == 0 && (o.b != 0 || o.lb)
  | 0xFA => badScope (bits o.m 0 3)
  | _ =>
    if op / 16 == 4 then badRow4 op o
    else if 0x50 ≤ op && op ≤ 0x58 then
      bits o.m 0 2 < 2 || (if bits o.m 2 2 == 0 then bits o.m 4 3 != 0 else badScope (bits o.m 4 3))
    else if 0x90 ≤ op && op ≤ 0xBB && op != 0xB1 then badVec op o
    else false

/-- The instruction breaks a rule of R46 or of its entry's fields: check 6 of R61, cause 0x07. -/
def badForm (op : Nat) (fm : Form) (o : Opnd) : Bool :=
  match opInfo op fm with
  | none => true
  | some i =>
    i.d.bad o.d || i.a.bad o.a || i.b.bad o.b || i.c.bad o.c
      || i.a.badMark o.a o.la || i.b.badMark o.b o.lb || i.c.badMark o.c o.lc
      || (o.m &&& i.mm) != o.m || (fm == .t8 && (o.i &&& i.im) != o.i) || badValue op fm o

/-- Opcodes that name no instruction (R59, R60). -/
def reservedOp (op : Nat) : Bool :=
  op == 0x0F || (0x4B ≤ op && op ≤ 0x4F) || (0x5C ≤ op && op ≤ 0x5F) || (0x6A ≤ op && op ≤ 0x6F)
    || op == 0x7E || op == 0x7F || op == 0x8E || op == 0x8F || (0xBC ≤ op && op ≤ 0xBF)
    || (0xCC ≤ op && op ≤ 0xCF) || (0xDA ≤ op && op ≤ 0xDF)

end Sys2Proof
end

