-- ==== Sys2Proof/WellFormed.lean ====
section
/-! DEFINITION. Which instruction terms the machine takes as they stand: no reserved field is used, no
guard is 0b1000 (R45, R46, R61); a head of a reserved opcode names one, and its tail has the length its TL
says. The steps that are no instructions of a thread have no fields to check. -/

namespace Sys2Proof

/-- The opcode, the form and the fields of an instruction; none for a step that has no encoding and for
the heads that name no instruction. -/
def Instr.view : Instr → Option (Nat × Form × Opnd)
  | .nop f => some (0x00, .t0, f.opnd)
  | .jmp f => some (0x01, .t4b, f.opnd)
  | .jp f => some (0x02, .t4b, f.opnd)
  | .jnp f => some (0x03, .t4b, f.opnd)
  | .callT2 f => some (0x04, .t2, f.opnd)
  | .callT4b f => some (0x04, .t4b, f.opnd)
  | .retT0 f => some (0x05, .t0, f.opnd)
  | .retT4 f => some (0x05, .t4, f.opnd)
  | .jrT2 f => some (0x06, .t2, f.opnd)
  | .jrT4 f => some (0x06, .t4, f.opnd)
  | .loop f => some (0x07, .t4b, f.opnd)
  | .yieldT0 f => some (0x08, .t0, f.opnd)
  | .yieldT4 f => some (0x08, .t4, f.opnd)
  | .tendT0 f => some (0x09, .t0, f.opnd)
  | .tendT4 f => some (0x09, .t4, f.opnd)
  | .trapT0 f => some (0x0A, .t0, f.opnd)
  | .trapT4 f => some (0x0A, .t4, f.opnd)
  | .sysc f => some (0x0B, .t4, f.opnd)
  | .ifenceT0 f => some (0x0C, .t0, f.opnd)
  | .ifenceT4 f => some (0x0C, .t4, f.opnd)
  | .waitfT0 f => some (0x0D, .t0, f.opnd)
  | .waitfT4 f => some (0x0D, .t4, f.opnd)
  | .brk f => some (0x0E, .t0, f.opnd)
  | .addT2 f => some (0x10, .t2, f.opnd)
  | .addT4 f => some (0x10, .t4, f.opnd)
  | .subT2 f => some (0x11, .t2, f.opnd)
  | .subT4 f => some (0x11, .t4, f.opnd)
  | .mulT2 f => some (0x12, .t2, f.opnd)
  | .mulT4 f => some (0x12, .t4, f.opnd)
  | .mulhT2 f => some (0x13, .t2, f.opnd)
  | .mulhT4 f => some (0x13, .t4, f.opnd)
  | .mulhnT2 f => some (0x14, .t2, f.opnd)
  | .mulhnT4 f => some (0x14, .t4, f.opnd)
  | .divT2 f => some (0x15, .t2, f.opnd)
  | .divT4 f => some (0x15, .t4, f.opnd)
  | .divnT2 f => some (0x16, .t2, f.opnd)
  | .divnT4 f => some (0x16, .t4, f.opnd)
  | .remT2 f => some (0x17, .t2, f.opnd)
  | .remT4 f => some (0x17, .t4, f.opnd)
  | .remnT2 f => some (0x18, .t2, f.opnd)
  | .remnT4 f => some (0x18, .t4, f.opnd)
  | .andT2 f => some (0x19, .t2, f.opnd)
  | .andT4 f => some (0x19, .t4, f.opnd)
  | .orT2 f => some (0x1A, .t2, f.opnd)
  | .orT4 f => some (0x1A, .t4, f.opnd)
  | .xorT2 f => some (0x1B, .t2, f.opnd)
  | .xorT4 f => some (0x1B, .t4, f.opnd)
  | .shlT2 f => some (0x1C, .t2, f.opnd)
  | .shlT4 f => some (0x1C, .t4, f.opnd)
  | .shrT2 f => some (0x1D, .t2, f.opnd)
  | .shrT4 f => some (0x1D, .t4, f.opnd)
  | .sarT2 f => some (0x1E, .t2, f.opnd)
  | .sarT4 f => some (0x1E, .t4, f.opnd)
  | .rotT2 f => some (0x1F, .t2, f.opnd)
  | .rotT4 f => some (0x1F, .t4, f.opnd)
  | .addiT2 f => some (0x20, .t2, f.opnd)
  | .addiT4 f => some (0x20, .t4, f.opnd)
  | .addiT8 f => some (0x20, .t8, f.opnd)
  | .andiT2 f => some (0x21, .t2, f.opnd)
  | .andiT4 f => some (0x21, .t4, f.opnd)
  | .andiT8 f => some (0x21, .t8, f.opnd)
  | .oriT2 f => some (0x22, .t2, f.opnd)
  | .oriT4 f => some (0x22, .t4, f.opnd)
  | .oriT8 f => some (0x22, .t8, f.opnd)
  | .xoriT2 f => some (0x23, .t2, f.opnd)
  | .xoriT4 f => some (0x23, .t4, f.opnd)
  | .xoriT8 f => some (0x23, .t8, f.opnd)
  | .shliT2 f => some (0x24, .t2, f.opnd)
  | .shliT4 f => some (0x24, .t4, f.opnd)
  | .shriT2 f => some (0x25, .t2, f.opnd)
  | .shriT4 f => some (0x25, .t4, f.opnd)
  | .sariT2 f => some (0x26, .t2, f.opnd)
  | .sariT4 f => some (0x26, .t4, f.opnd)
  | .li f => some (0x27, .t8, f.opnd)
  | .lih f => some (0x28, .t8, f.opnd)
  | .movT2 f => some (0x29, .t2, f.opnd)
  | .movT4 f => some (0x29, .t4, f.opnd)
  | .selT2 f => some (0x2A, .t2, f.opnd)
  | .selT4 f => some (0x2A, .t4, f.opnd)
  | .clzT2 f => some (0x2B, .t2, f.opnd)
  | .clzT4 f => some (0x2B, .t4, f.opnd)
  | .popcT2 f => some (0x2C, .t2, f.opnd)
  | .popcT4 f => some (0x2C, .t4, f.opnd)
  | .bswapT2 f => some (0x2D, .t2, f.opnd)
  | .bswapT4 f => some (0x2D, .t4, f.opnd)
  | .bfx f => some (0x2E, .t4, f.opnd)
  | .bfi f => some (0x2F, .t4, f.opnd)
  | .cmpT2 f => some (0x30, .t2, f.opnd)
  | .cmpT4 f => some (0x30, .t4, f.opnd)
  | .cmpiT4 f => some (0x31, .t4, f.opnd)
  | .cmpiT8 f => some (0x31, .t8, f.opnd)
  | .pandT2 f => some (0x32, .t2, f.opnd)
  | .pandT4 f => some (0x32, .t4, f.opnd)
  | .porT2 f => some (0x33, .t2, f.opnd)
  | .porT4 f => some (0x33, .t4, f.opnd)
  | .pxorT2 f => some (0x34, .t2, f.opnd)
  | .pxorT4 f => some (0x34, .t4, f.opnd)
  | .pnotT2 f => some (0x35, .t2, f.opnd)
  | .pnotT4 f => some (0x35, .t4, f.opnd)
  | .ptogT0 f => some (0x36, .t0, f.opnd)
  | .ptogT4 f => some (0x36, .t4, f.opnd)
  | .gtopT2 f => some (0x37, .t2, f.opnd)
  | .gtopT4 f => some (0x37, .t4, f.opnd)
  | .pmkT2 f => some (0x38, .t2, f.opnd)
  | .pmkT4 f => some (0x38, .t4, f.opnd)
  | .paddT2 f => some (0x39, .t2, f.opnd)
  | .paddT4 f => some (0x39, .t4, f.opnd)
  | .paddiT2 f => some (0x3A, .t2, f.opnd)
  | .paddiT4 f => some (0x3A, .t4, f.opnd)
  | .paddiT8 f => some (0x3A, .t8, f.opnd)
  | .psetfT2 f => some (0x3B, .t2, f.opnd)
  | .psetfT4 f => some (0x3B, .t4, f.opnd)
  | .psetbT2 f => some (0x3C, .t2, f.opnd)
  | .psetbT4 f => some (0x3C, .t4, f.opnd)
  | .phndT2 f => some (0x3D, .t2, f.opnd)
  | .phndT4 f => some (0x3D, .t4, f.opnd)
  | .poffT2 f => some (0x3E, .t2, f.opnd)
  | .poffT4 f => some (0x3E, .t4, f.opnd)
  | .pchk f => some (0x3F, .t4, f.opnd)
  | .ld f => some (0x40, .t4, f.opnd)
  | .lds f => some (0x41, .t4, f.opnd)
  | .st f => some (0x42, .t4, f.opnd)
  | .lda f => some (0x43, .t4, f.opnd)
  | .stl f => some (0x44, .t4, f.opnd)
  | .ldt f => some (0x45, .t4, f.opnd)
  | .stt f => some (0x46, .t4, f.opnd)
  | .ldp f => some (0x47, .t4, f.opnd)
  | .stp f => some (0x48, .t4, f.opnd)
  | .ldx f => some (0x49, .t4, f.opnd)
  | .stx f => some (0x4A, .t4, f.opnd)
  | .cas f => some (0x50, .t4, f.opnd)
  | .swp f => some (0x51, .t4, f.opnd)
  | .aadd f => some (0x52, .t4, f.opnd)
  | .aand f => some (0x53, .t4, f.opnd)
  | .aor f => some (0x54, .t4, f.opnd)
  | .axor f => some (0x55, .t4, f.opnd)
  | .amin f => some (0x56, .t4, f.opnd)
  | .amax f => some (0x57, .t4, f.opnd)
  | .afadd f => some (0x58, .t4, f.opnd)
  | .fenceT2 f => some (0x59, .t2, f.opnd)
  | .fenceT4 f => some (0x59, .t4, f.opnd)
  | .tfenceT2 f => some (0x5A, .t2, f.opnd)
  | .tfenceT4 f => some (0x5A, .t4, f.opnd)
  | .sbwaitT0 f => some (0x5B, .t0, f.opnd)
  | .sbwaitT4 f => some (0x5B, .t4, f.opnd)
  | .send f => some (0x60, .t4, f.opnd)
  | .sendi f => some (0x61, .t8, f.opnd)
  | .emptyT0 f => some (0x62, .t0, f.opnd)
  | .emptyT4 f => some (0x62, .t4, f.opnd)
  | .migrT2 f => some (0x63, .t2, f.opnd)
  | .migrT4 f => some (0x63, .t4, f.opnd)
  | .mighT2 f => some (0x64, .t2, f.opnd)
  | .mighT4 f => some (0x64, .t4, f.opnd)
  | .roleT0 f => some (0x65, .t0, f.opnd)
  | .roleT4 f => some (0x65, .t4, f.opnd)
  | .rcastT2 f => some (0x66, .t2, f.opnd)
  | .rcastT4 f => some (0x66, .t4, f.opnd)
  | .chmapT2 f => some (0x67, .t2, f.opnd)
  | .chmapT4 f => some (0x67, .t4, f.opnd)
  | .mboxqT0 f => some (0x68, .t0, f.opnd)
  | .mboxqT4 f => some (0x68, .t4, f.opnd)
  | .poisqT0 f => some (0x69, .t0, f.opnd)
  | .poisqT4 f => some (0x69, .t4, f.opnd)
  | .dqpushT2 f => some (0x70, .t2, f.opnd)
  | .dqpushT4 f => some (0x70, .t4, f.opnd)
  | .dqpopT2 f => some (0x71, .t2, f.opnd)
  | .dqpopT4 f => some (0x71, .t4, f.opnd)
  | .spawnT2 f => some (0x72, .t2, f.opnd)
  | .spawnT4 f => some (0x72, .t4, f.opnd)
  | .glnchT2 f => some (0x73, .t2, f.opnd)
  | .glnchT4 f => some (0x73, .t4, f.opnd)
  | .widf f => some (0x74, .t2, f.opnd)
  | .baraT0 f => some (0x75, .t0, f.opnd)
  | .baraT4 f => some (0x75, .t4, f.opnd)
  | .barwT0 f => some (0x76, .t0, f.opnd)
  | .barwT4 f => some (0x76, .t4, f.opnd)
  | .barT0 f => some (0x77, .t0, f.opnd)
  | .barT4 f => some (0x77, .t4, f.opnd)
  | .sltwT2 f => some (0x78, .t2, f.opnd)
  | .sltwT4 f => some (0x78, .t4, f.opnd)
  | .sltrT2 f => some (0x79, .t2, f.opnd)
  | .sltrT4 f => some (0x79, .t4, f.opnd)
  | .cbinitT2 f => some (0x7A, .t2, f.opnd)
  | .cbinitT4 f => some (0x7A, .t4, f.opnd)
  | .cbarrT2 f => some (0x7B, .t2, f.opnd)
  | .cbarrT4 f => some (0x7B, .t4, f.opnd)
  | .cbwaitT2 f => some (0x7C, .t2, f.opnd)
  | .cbwaitT4 f => some (0x7C, .t4, f.opnd)
  | .cbphT2 f => some (0x7D, .t2, f.opnd)
  | .cbphT4 f => some (0x7D, .t4, f.opnd)
  | .faddT2 f => some (0x80, .t2, f.opnd)
  | .faddT4 f => some (0x80, .t4, f.opnd)
  | .fsubT2 f => some (0x81, .t2, f.opnd)
  | .fsubT4 f => some (0x81, .t4, f.opnd)
  | .fmulT2 f => some (0x82, .t2, f.opnd)
  | .fmulT4 f => some (0x82, .t4, f.opnd)
  | .ffma f => some (0x83, .t4, f.opnd)
  | .fdivT2 f => some (0x84, .t2, f.opnd)
  | .fdivT4 f => some (0x84, .t4, f.opnd)
  | .fsqrtT2 f => some (0x85, .t2, f.opnd)
  | .fsqrtT4 f => some (0x85, .t4, f.opnd)
  | .fminT2 f => some (0x86, .t2, f.opnd)
  | .fminT4 f => some (0x86, .t4, f.opnd)
  | .fmaxT2 f => some (0x87, .t2, f.opnd)
  | .fmaxT4 f => some (0x87, .t4, f.opnd)
  | .fcmpT2 f => some (0x88, .t2, f.opnd)
  | .fcmpT4 f => some (0x88, .t4, f.opnd)
  | .fcvt f => some (0x89, .t4, f.opnd)
  | .fclsT2 f => some (0x8A, .t2, f.opnd)
  | .fclsT4 f => some (0x8A, .t4, f.opnd)
  | .ftldT2 f => some (0x8B, .t2, f.opnd)
  | .ftldT4 f => some (0x8B, .t4, f.opnd)
  | .enc8T2 f => some (0x8C, .t2, f.opnd)
  | .enc8T4 f => some (0x8C, .t4, f.opnd)
  | .dec8T2 f => some (0x8D, .t2, f.opnd)
  | .dec8T4 f => some (0x8D, .t4, f.opnd)
  | .vadd f => some (0x90, .t4, f.opnd)
  | .vsub f => some (0x91, .t4, f.opnd)
  | .vmul f => some (0x92, .t4, f.opnd)
  | .vfma f => some (0x93, .t4, f.opnd)
  | .vmin f => some (0x94, .t4, f.opnd)
  | .vmax f => some (0x95, .t4, f.opnd)
  | .vdiv f => some (0x96, .t4, f.opnd)
  | .vsqrt f => some (0x97, .t4, f.opnd)
  | .vexp f => some (0x98, .t4, f.opnd)
  | .vlog f => some (0x99, .t4, f.opnd)
  | .vrcp f => some (0x9A, .t4, f.opnd)
  | .vrsq f => some (0x9B, .t4, f.opnd)
  | .vcvt f => some (0x9C, .t4, f.opnd)
  | .vscl f => some (0x9D, .t4, f.opnd)
  | .vabs f => some (0x9E, .t4, f.opnd)
  | .vneg f => some (0x9F, .t4, f.opnd)
  | .viadd f => some (0xA0, .t4, f.opnd)
  | .visub f => some (0xA1, .t4, f.opnd)
  | .vimul f => some (0xA2, .t4, f.opnd)
  | .vdot4 f => some (0xA3, .t4, f.opnd)
  | .vand f => some (0xA4, .t4, f.opnd)
  | .vor f => some (0xA5, .t4, f.opnd)
  | .vxor f => some (0xA6, .t4, f.opnd)
  | .vshl f => some (0xA7, .t4, f.opnd)
  | .vshr f => some (0xA8, .t4, f.opnd)
  | .unpk3 f => some (0xA9, .t4, f.opnd)
  | .vtas f => some (0xAA, .t4, f.opnd)
  | .vsel f => some (0xAB, .t4, f.opnd)
  | .vperm f => some (0xAC, .t4, f.opnd)
  | .vcmp f => some (0xAD, .t4, f.opnd)
  | .vsat f => some (0xAE, .t4, f.opnd)
  | .vclz f => some (0xAF, .t4, f.opnd)
  | .vclaimT2 f => some (0xB0, .t2, f.opnd)
  | .vclaimT4 f => some (0xB0, .t4, f.opnd)
  | .vrelT0 f => some (0xB1, .t0, f.opnd)
  | .vrelT4 f => some (0xB1, .t4, f.opnd)
  | .vradd f => some (0xB2, .t4, f.opnd)
  | .vrmax f => some (0xB3, .t4, f.opnd)
  | .vrmin f => some (0xB4, .t4, f.opnd)
  | .vscan f => some (0xB5, .t4, f.opnd)
  | .vgath f => some (0xB6, .t4, f.opnd)
  | .vscat f => some (0xB7, .t4, f.opnd)
  | .vmov f => some (0xB8, .t4, f.opnd)
  | .vfill f => some (0xB9, .t4, f.opnd)
  | .vmask f => some (0xBA, .t4, f.opnd)
  | .viota f => some (0xBB, .t4, f.opnd)
  | .shldT2 f => some (0xC0, .t2, f.opnd)
  | .shldT4 f => some (0xC0, .t4, f.opnd)
  | .shstT2 f => some (0xC1, .t2, f.opnd)
  | .shstT4 f => some (0xC1, .t4, f.opnd)
  | .shset f => some (0xC2, .t4, f.opnd)
  | .shget f => some (0xC3, .t4, f.opnd)
  | .townT2 f => some (0xC4, .t2, f.opnd)
  | .townT4 f => some (0xC4, .t4, f.opnd)
  | .tgiveT2 f => some (0xC5, .t2, f.opnd)
  | .tgiveT4 f => some (0xC5, .t4, f.opnd)
  | .ttag f => some (0xC6, .t4, f.opnd)
  | .ttaskT2 f => some (0xC7, .t2, f.opnd)
  | .ttaskT4 f => some (0xC7, .t4, f.opnd)
  | .tqryT2 f => some (0xC8, .t2, f.opnd)
  | .tqryT4 f => some (0xC8, .t4, f.opnd)
  | .qpushT2 f => some (0xC9, .t2, f.opnd)
  | .qpushT4 f => some (0xC9, .t4, f.opnd)
  | .qpopT2 f => some (0xCA, .t2, f.opnd)
  | .qpopT4 f => some (0xCA, .t4, f.opnd)
  | .qstatT2 f => some (0xCB, .t2, f.opnd)
  | .qstatT4 f => some (0xCB, .t4, f.opnd)
  | .spld f => some (0xD0, .t4, f.opnd)
  | .spst f => some (0xD1, .t4, f.opnd)
  | .spupT0 f => some (0xD2, .t0, f.opnd)
  | .spupT4 f => some (0xD2, .t4, f.opnd)
  | .spdnT0 f => some (0xD3, .t0, f.opnd)
  | .spdnT4 f => some (0xD3, .t4, f.opnd)
  | .spmaxT0 f => some (0xD4, .t0, f.opnd)
  | .spmaxT4 f => some (0xD4, .t4, f.opnd)
  | .spcvt f => some (0xD5, .t4, f.opnd)
  | .spclr f => some (0xD6, .t4, f.opnd)
  | .spwld f => some (0xD7, .t4, f.opnd)
  | .spgst f => some (0xD8, .t4, f.opnd)
  | .spstatT2 f => some (0xD9, .t2, f.opnd)
  | .spstatT4 f => some (0xD9, .t4, f.opnd)
  | .lcopy f => some (0xE0, .t4, f.opnd)
  | .lfill f => some (0xE1, .t4, f.opnd)
  | .lcancelT2 f => some (0xE2, .t2, f.opnd)
  | .lcancelT4 f => some (0xE2, .t4, f.opnd)
  | .lstatT2 f => some (0xE3, .t2, f.opnd)
  | .lstatT4 f => some (0xE3, .t4, f.opnd)
  | .prred f => some (0xE4, .t4, f.opnd)
  | .prbc f => some (0xE5, .t4, f.opnd)
  | .prar f => some (0xE6, .t4, f.opnd)
  | .prag f => some (0xE7, .t4, f.opnd)
  | .nsendT2 f => some (0xE8, .t2, f.opnd)
  | .nsendT4 f => some (0xE8, .t4, f.opnd)
  | .npostT2 f => some (0xE9, .t2, f.opnd)
  | .npostT4 f => some (0xE9, .t4, f.opnd)
  | .rwriteT2 f => some (0xEA, .t2, f.opnd)
  | .rwriteT4 f => some (0xEA, .t4, f.opnd)
  | .rreadT2 f => some (0xEB, .t2, f.opnd)
  | .rreadT4 f => some (0xEB, .t4, f.opnd)
  | .ccwaitT2 f => some (0xEC, .t2, f.opnd)
  | .ccwaitT4 f => some (0xEC, .t4, f.opnd)
  | .ccrdT2 f => some (0xED, .t2, f.opnd)
  | .ccrdT4 f => some (0xED, .t4, f.opnd)
  | .ccsetT2 f => some (0xEE, .t2, f.opnd)
  | .ccsetT4 f => some (0xEE, .t4, f.opnd)
  | .nstatT0 f => some (0xEF, .t0, f.opnd)
  | .nstatT4 f => some (0xEF, .t4, f.opnd)
  | .walkT2 f => some (0xF0, .t2, f.opnd)
  | .walkT4 f => some (0xF0, .t4, f.opnd)
  | .openT2 f => some (0xF1, .t2, f.opnd)
  | .openT4 f => some (0xF1, .t4, f.opnd)
  | .closeT2 f => some (0xF2, .t2, f.opnd)
  | .closeT4 f => some (0xF2, .t4, f.opnd)
  | .bind f => some (0xF3, .t4, f.opnd)
  | .unbindT2 f => some (0xF4, .t2, f.opnd)
  | .unbindT4 f => some (0xF4, .t4, f.opnd)
  | .revokeT2 f => some (0xF5, .t2, f.opnd)
  | .revokeT4 f => some (0xF5, .t4, f.opnd)
  | .csrrT2 f => some (0xF6, .t2, f.opnd)
  | .csrrT4 f => some (0xF6, .t4, f.opnd)
  | .csrwT2 f => some (0xF7, .t2, f.opnd)
  | .csrwT4 f => some (0xF7, .t4, f.opnd)
  | .tretT2 f => some (0xF8, .t2, f.opnd)
  | .tretT4 f => some (0xF8, .t4, f.opnd)
  | .pmackT2 f => some (0xF9, .t2, f.opnd)
  | .pmackT4 f => some (0xF9, .t4, f.opnd)
  | .tshootT2 f => some (0xFA, .t2, f.opnd)
  | .tshootT4 f => some (0xFA, .t4, f.opnd)
  | .sstop f => some (0xFB, .t4, f.opnd)
  | .partwT2 f => some (0xFC, .t2, f.opnd)
  | .partwT4 f => some (0xFC, .t4, f.opnd)
  | .haltT0 f => some (0xFD, .t0, f.opnd)
  | .haltT4 f => some (0xFD, .t4, f.opnd)
  | .attqT2 f => some (0xFE, .t2, f.opnd)
  | .attqT4 f => some (0xFE, .t4, f.opnd)
  | .reservedOpcode _ => none
  | .illegalOpcodeFf _ => none
  | .groupCommit _ _ _ => none
  | .commitStep5Resume _ _ => none
  | .resultReturn _ _ _ => none
  | .lineFetch _ _ => none
  | .messageDelivery _ => none
  | .handlerMessageArrival _ => none
  | .handlerEntryTimeout _ _ => none
  | .slotRotationStart _ => none
  | .channelDry _ _ => none
  | .loadReadStep _ _ _ => none
  | .writePerform _ _ _ => none
  | .homeApply _ => none
  | .atomicStep _ _ _ => none
  | .frontierPropagation _ => none
  | .extentAllocationWake _ _ _ _ => none
  | .heatSweep => none
  | .extentMove _ _ _ => none
  | .weightRefreshWindow => none
  | .scrubExtentClear _ _ => none
  | .vectorOpStart _ _ => none
  | .vectorOpRetire _ _ => none
  | .tileZeroFillEnd _ _ => none
  | .tileTaskAccept _ => none
  | .tileTaskStart _ _ _ => none
  | .tileTaskComplete _ _ _ => none
  | .trellisAccept _ => none
  | .trellisCommandStart _ _ _ => none
  | .trellisCommandRetire _ _ _ => none
  | .trellisImageSwap _ _ => none
  | .ladleChunk _ _ => none
  | .pressChunk _ _ => none
  | .netPacketSend _ _ _ _ => none
  | .netPacketArrival _ _ => none
  | .netAckArrival _ _ => none
  | .netResendTimeout _ _ _ _ => none
  | .netUnmatchedRetry _ _ _ => none
  | .completionCounterStep _ => none
  | .placerPass _ => none
  | .launchEnd _ => none
  | .stealRequest _ => none
  | .stealAnswer _ => none
  | .stealBackoffExpiry _ => none
  | .migrationArrival _ => none
  | .nseAnswer _ => none
  | .shootdownReceipt _ _ => none
  | .shootdownAck _ _ => none
  | .frameWalk _ => none
  | .frameOpen _ => none
  | .frameRead _ => none
  | .frameWrite _ => none
  | .frameMake _ => none
  | .frameClose _ => none
  | .frameRevoke _ => none
  | .frameBind _ => none
  | .frameUnbind _ => none
  | .contextCreate _ _ => none
  | .contextEnd _ => none
  | .queueGo _ _ => none
  | .queueCtlWrite _ _ _ _ => none
  | .queueHeaderRead _ => none
  | .packetParse _ => none
  | .pktLaunch _ => none
  | .pktGlaunch _ => none
  | .pktWait _ => none
  | .pktSignal _ => none
  | .pktCopy _ => none
  | .pktIb _ => none
  | .pktReplay _ => none
  | .pktBind _ => none
  | .pktNop _ => none
  | .ibGranuleFetch _ => none
  | .parserCoreFault _ => none
  | .supervisorMismatch => none
  | .supervisorCheckpoint => none
  | .setPartition _ => none
  | .removePartition _ => none
  | .activateFirmware _ _ _ => none
  | .sliceExpiry _ => none
  | .stopAnnouncement _ => none
  | .syncStop _ => none
  | .flushToken _ _ => none
  | .partitionSave _ _ => none
  | .partitionRestore _ _ => none
  | .partitionResume _ => none
  | .graderSignature _ _ _ _ => none
  | .fallowLeaseStart _ => none
  | .fallowLeaseEnd _ _ => none
  | .channelLeaseWaitRecord _ => none
  | .scoreDecay _ => none
  | .pmackDeadlineExpiry _ => none
  | .duoVote _ _ => none
  | .duoThirdCopy _ _ => none
  | .quoteSign => none
  | .powerOnBoot _ _ => none
  | .mgmtRead _ _ _ => none
  | .packageReset => none
  | .thermalHoldEnter => none
  | .thermalHoldExit => none
  | .thermalShutdown => none
  | .ladleRequestAccept _ => none
  | .pressCommandAccept _ => none
  | .netRequestAccept _ => none
  | .powerLoss _ => none

/-- The guard 0b1000 would mean never and is reserved (R45). -/
def badGuard (o : Opnd) : Bool := o.pg == 8

/-- The tail holds no bit beyond the length its TL gives (R44). -/
def FRaw.fits (f : FRaw) : Bool :=
  match f.tl.toNat with
  | 0 => f.tail.toNat == 0
  | 1 => f.tail.toNat < 2 ^ 16
  | 2 => f.tail.toNat < 2 ^ 32
  | _ => true

/-- The well-formed terms. -/
def Instr.wf (i : Instr) : Bool :=
  match i with
  | .reservedOpcode f => reservedOp f.op.toNat && f.fits
  | .illegalOpcodeFf f => f.op == 0xFF#8 && f.fits
  | _ =>
    match i.view with
    | none => true
    | some (op, fm, o) => !badGuard o && !badForm op fm o

end Sys2Proof
end

