-- ==== Sys2Proof/Decode.lean ====
section
/-! DEFINITION. Decoding a head and its tail (R41 to R44), finding them in a 64-byte line, and the
encoder. Decoding is total: every head gives an instruction or the name of what is wrong with it. -/

namespace Sys2Proof

/-- Why a head gives no instruction: its opcode does not accept its tail length (check 2 of R61). -/
inductive DecErr where
  | tailNotAccepted (op tl : Nat)
  deriving DecidableEq, Repr

/-- A head word and its tail, the tail's bytes in the low bits. -/
structure Enc where
  head : Nat
  tail : Nat
  deriving DecidableEq, Repr

/-- The number of a Boolean. -/
def b2n (b : Bool) : Nat := if b then 1 else 0

/-- Bit `k` of a number, as the decoder reads it. -/
def nb (n k : Nat) : Bool := n / 2 ^ k % 2 == 1

/-- The head word S, P, TL, OP, D (R43). -/
def mkHead (s p : Bool) (tl op d : Nat) : Nat := b2n s * 32768 + b2n p * 16384 + tl * 4096 + op * 16 + d

/-- The tail bits of a T2 form (R44). -/
def F2.tail (f : F2) : Nat :=
  f.a.toNat * 4096 + f.b.toNat * 256 + b2n f.la * 128 + b2n f.lb * 64 + f.m.toNat

/-- The tail bits of a T4 form. -/
def F4.tail (f : F4) : Nat :=
  f.a.toNat * 2 ^ 28 + f.b.toNat * 2 ^ 24 + f.c.toNat * 2 ^ 20 + f.pg.toNat * 2 ^ 16
    + b2n f.la * 2 ^ 15 + b2n f.lb * 2 ^ 14 + b2n f.lc * 2 ^ 13 + f.m.toNat

/-- The tail bits of a T4b form. -/
def F4b.tail (f : F4b) : Nat := f.disp.toNat * 2 ^ 16 + f.pg.toNat * 2 ^ 12 + f.m.toNat

/-- The tail bits of a T8 form. -/
def F8.tail (f : F8) : Nat :=
  f.a.toNat * 2 ^ 60 + f.pg.toNat * 2 ^ 56 + b2n f.la * 2 ^ 55 + f.m.toNat * 2 ^ 48 + f.i.toNat

/-- The fields of a head that has no tail. -/
def F0.of (h _t : Nat) : F0 :=
  { s := nb h 15, p := nb h 14, d := BitVec.ofNat 4 h }

/-- The fields of a head and a T2 tail. -/
def F2.of (h t : Nat) : F2 :=
  { s := nb h 15, p := nb h 14, d := BitVec.ofNat 4 h, a := BitVec.ofNat 4 (t / 4096),
    b := BitVec.ofNat 4 (t / 256), la := nb t 7, lb := nb t 6, m := BitVec.ofNat 6 t }

/-- The fields of a head and a T4 tail. -/
def F4.of (h t : Nat) : F4 :=
  { s := nb h 15, p := nb h 14, d := BitVec.ofNat 4 h, a := BitVec.ofNat 4 (t / 2 ^ 28),
    b := BitVec.ofNat 4 (t / 2 ^ 24), c := BitVec.ofNat 4 (t / 2 ^ 20), pg := BitVec.ofNat 4 (t / 2 ^ 16),
    la := nb t 15, lb := nb t 14, lc := nb t 13, m := BitVec.ofNat 13 t }

/-- The fields of a head and a T4b tail. -/
def F4b.of (h t : Nat) : F4b :=
  { s := nb h 15, p := nb h 14, d := BitVec.ofNat 4 h, disp := BitVec.ofNat 16 (t / 2 ^ 16),
    pg := BitVec.ofNat 4 (t / 2 ^ 12), m := BitVec.ofNat 12 t }

/-- The fields of a head and a T8 tail. -/
def F8.of (h t : Nat) : F8 :=
  { s := nb h 15, p := nb h 14, d := BitVec.ofNat 4 h, a := BitVec.ofNat 4 (t / 2 ^ 60),
    pg := BitVec.ofNat 4 (t / 2 ^ 56), la := nb t 55, m := BitVec.ofNat 7 (t / 2 ^ 48), i := BitVec.ofNat 48 t }

/-- The fields of a head whose opcode names no instruction. -/
def FRaw.of (h t : Nat) : FRaw :=
  { s := nb h 15, p := nb h 14, tl := BitVec.ofNat 2 (h / 4096), op := BitVec.ofNat 8 (h / 16),
    d := BitVec.ofNat 4 h, tail := BitVec.ofNat 64 t }

/-- A row of the decoder: 4 × opcode + TL, and what a head and a tail give. -/
abbrev DecRow := Nat × (Nat → Nat → Instr)

/-- The decoder of row 0 of the opcode map (R59). -/
def decRow0 : List DecRow := [
  (0x000, fun h t => .nop (F0.of h t)),
  (0x006, fun h t => .jmp (F4b.of h t)),
  (0x00A, fun h t => .jp (F4b.of h t)),
  (0x00E, fun h t => .jnp (F4b.of h t)),
  (0x011, fun h t => .callT2 (F2.of h t)),
  (0x012, fun h t => .callT4b (F4b.of h t)),
  (0x014, fun h t => .retT0 (F0.of h t)),
  (0x016, fun h t => .retT4 (F4.of h t)),
  (0x019, fun h t => .jrT2 (F2.of h t)),
  (0x01A, fun h t => .jrT4 (F4.of h t)),
  (0x01E, fun h t => .loop (F4b.of h t)),
  (0x020, fun h t => .yieldT0 (F0.of h t)),
  (0x022, fun h t => .yieldT4 (F4.of h t)),
  (0x024, fun h t => .tendT0 (F0.of h t)),
  (0x026, fun h t => .tendT4 (F4.of h t)),
  (0x028, fun h t => .trapT0 (F0.of h t)),
  (0x02A, fun h t => .trapT4 (F4.of h t)),
  (0x02E, fun h t => .sysc (F4.of h t)),
  (0x030, fun h t => .ifenceT0 (F0.of h t)),
  (0x032, fun h t => .ifenceT4 (F4.of h t)),
  (0x034, fun h t => .waitfT0 (F0.of h t)),
  (0x036, fun h t => .waitfT4 (F4.of h t)),
  (0x038, fun h t => .brk (F0.of h t))]

/-- The decoder of row 1 of the opcode map (R59). -/
def decRow1 : List DecRow := [
  (0x041, fun h t => .addT2 (F2.of h t)),
  (0x042, fun h t => .addT4 (F4.of h t)),
  (0x045, fun h t => .subT2 (F2.of h t)),
  (0x046, fun h t => .subT4 (F4.of h t)),
  (0x049, fun h t => .mulT2 (F2.of h t)),
  (0x04A, fun h t => .mulT4 (F4.of h t)),
  (0x04D, fun h t => .mulhT2 (F2.of h t)),
  (0x04E, fun h t => .mulhT4 (F4.of h t)),
  (0x051, fun h t => .mulhnT2 (F2.of h t)),
  (0x052, fun h t => .mulhnT4 (F4.of h t)),
  (0x055, fun h t => .divT2 (F2.of h t)),
  (0x056, fun h t => .divT4 (F4.of h t)),
  (0x059, fun h t => .divnT2 (F2.of h t)),
  (0x05A, fun h t => .divnT4 (F4.of h t)),
  (0x05D, fun h t => .remT2 (F2.of h t)),
  (0x05E, fun h t => .remT4 (F4.of h t)),
  (0x061, fun h t => .remnT2 (F2.of h t)),
  (0x062, fun h t => .remnT4 (F4.of h t)),
  (0x065, fun h t => .andT2 (F2.of h t)),
  (0x066, fun h t => .andT4 (F4.of h t)),
  (0x069, fun h t => .orT2 (F2.of h t)),
  (0x06A, fun h t => .orT4 (F4.of h t)),
  (0x06D, fun h t => .xorT2 (F2.of h t)),
  (0x06E, fun h t => .xorT4 (F4.of h t)),
  (0x071, fun h t => .shlT2 (F2.of h t)),
  (0x072, fun h t => .shlT4 (F4.of h t)),
  (0x075, fun h t => .shrT2 (F2.of h t)),
  (0x076, fun h t => .shrT4 (F4.of h t)),
  (0x079, fun h t => .sarT2 (F2.of h t)),
  (0x07A, fun h t => .sarT4 (F4.of h t)),
  (0x07D, fun h t => .rotT2 (F2.of h t)),
  (0x07E, fun h t => .rotT4 (F4.of h t))]

/-- The decoder of row 2 of the opcode map (R59). -/
def decRow2 : List DecRow := [
  (0x081, fun h t => .addiT2 (F2.of h t)),
  (0x082, fun h t => .addiT4 (F4.of h t)),
  (0x083, fun h t => .addiT8 (F8.of h t)),
  (0x085, fun h t => .andiT2 (F2.of h t)),
  (0x086, fun h t => .andiT4 (F4.of h t)),
  (0x087, fun h t => .andiT8 (F8.of h t)),
  (0x089, fun h t => .oriT2 (F2.of h t)),
  (0x08A, fun h t => .oriT4 (F4.of h t)),
  (0x08B, fun h t => .oriT8 (F8.of h t)),
  (0x08D, fun h t => .xoriT2 (F2.of h t)),
  (0x08E, fun h t => .xoriT4 (F4.of h t)),
  (0x08F, fun h t => .xoriT8 (F8.of h t)),
  (0x091, fun h t => .shliT2 (F2.of h t)),
  (0x092, fun h t => .shliT4 (F4.of h t)),
  (0x095, fun h t => .shriT2 (F2.of h t)),
  (0x096, fun h t => .shriT4 (F4.of h t)),
  (0x099, fun h t => .sariT2 (F2.of h t)),
  (0x09A, fun h t => .sariT4 (F4.of h t)),
  (0x09F, fun h t => .li (F8.of h t)),
  (0x0A3, fun h t => .lih (F8.of h t)),
  (0x0A5, fun h t => .movT2 (F2.of h t)),
  (0x0A6, fun h t => .movT4 (F4.of h t)),
  (0x0A9, fun h t => .selT2 (F2.of h t)),
  (0x0AA, fun h t => .selT4 (F4.of h t)),
  (0x0AD, fun h t => .clzT2 (F2.of h t)),
  (0x0AE, fun h t => .clzT4 (F4.of h t)),
  (0x0B1, fun h t => .popcT2 (F2.of h t)),
  (0x0B2, fun h t => .popcT4 (F4.of h t)),
  (0x0B5, fun h t => .bswapT2 (F2.of h t)),
  (0x0B6, fun h t => .bswapT4 (F4.of h t)),
  (0x0BA, fun h t => .bfx (F4.of h t)),
  (0x0BE, fun h t => .bfi (F4.of h t))]

/-- The decoder of row 3 of the opcode map (R59). -/
def decRow3 : List DecRow := [
  (0x0C1, fun h t => .cmpT2 (F2.of h t)),
  (0x0C2, fun h t => .cmpT4 (F4.of h t)),
  (0x0C6, fun h t => .cmpiT4 (F4.of h t)),
  (0x0C7, fun h t => .cmpiT8 (F8.of h t)),
  (0x0C9, fun h t => .pandT2 (F2.of h t)),
  (0x0CA, fun h t => .pandT4 (F4.of h t)),
  (0x0CD, fun h t => .porT2 (F2.of h t)),
  (0x0CE, fun h t => .porT4 (F4.of h t)),
  (0x0D1, fun h t => .pxorT2 (F2.of h t)),
  (0x0D2, fun h t => .pxorT4 (F4.of h t)),
  (0x0D5, fun h t => .pnotT2 (F2.of h t)),
  (0x0D6, fun h t => .pnotT4 (F4.of h t)),
  (0x0D8, fun h t => .ptogT0 (F0.of h t)),
  (0x0DA, fun h t => .ptogT4 (F4.of h t)),
  (0x0DD, fun h t => .gtopT2 (F2.of h t)),
  (0x0DE, fun h t => .gtopT4 (F4.of h t)),
  (0x0E1, fun h t => .pmkT2 (F2.of h t)),
  (0x0E2, fun h t => .pmkT4 (F4.of h t)),
  (0x0E5, fun h t => .paddT2 (F2.of h t)),
  (0x0E6, fun h t => .paddT4 (F4.of h t)),
  (0x0E9, fun h t => .paddiT2 (F2.of h t)),
  (0x0EA, fun h t => .paddiT4 (F4.of h t)),
  (0x0EB, fun h t => .paddiT8 (F8.of h t)),
  (0x0ED, fun h t => .psetfT2 (F2.of h t)),
  (0x0EE, fun h t => .psetfT4 (F4.of h t)),
  (0x0F1, fun h t => .psetbT2 (F2.of h t)),
  (0x0F2, fun h t => .psetbT4 (F4.of h t)),
  (0x0F5, fun h t => .phndT2 (F2.of h t)),
  (0x0F6, fun h t => .phndT4 (F4.of h t)),
  (0x0F9, fun h t => .poffT2 (F2.of h t)),
  (0x0FA, fun h t => .poffT4 (F4.of h t)),
  (0x0FE, fun h t => .pchk (F4.of h t))]

/-- The decoder of row 4 of the opcode map (R59). -/
def decRow4 : List DecRow := [
  (0x102, fun h t => .ld (F4.of h t)),
  (0x106, fun h t => .lds (F4.of h t)),
  (0x10A, fun h t => .st (F4.of h t)),
  (0x10E, fun h t => .lda (F4.of h t)),
  (0x112, fun h t => .stl (F4.of h t)),
  (0x116, fun h t => .ldt (F4.of h t)),
  (0x11A, fun h t => .stt (F4.of h t)),
  (0x11E, fun h t => .ldp (F4.of h t)),
  (0x122, fun h t => .stp (F4.of h t)),
  (0x126, fun h t => .ldx (F4.of h t)),
  (0x12A, fun h t => .stx (F4.of h t))]

/-- The decoder of row 5 of the opcode map (R59). -/
def decRow5 : List DecRow := [
  (0x142, fun h t => .cas (F4.of h t)),
  (0x146, fun h t => .swp (F4.of h t)),
  (0x14A, fun h t => .aadd (F4.of h t)),
  (0x14E, fun h t => .aand (F4.of h t)),
  (0x152, fun h t => .aor (F4.of h t)),
  (0x156, fun h t => .axor (F4.of h t)),
  (0x15A, fun h t => .amin (F4.of h t)),
  (0x15E, fun h t => .amax (F4.of h t)),
  (0x162, fun h t => .afadd (F4.of h t)),
  (0x165, fun h t => .fenceT2 (F2.of h t)),
  (0x166, fun h t => .fenceT4 (F4.of h t)),
  (0x169, fun h t => .tfenceT2 (F2.of h t)),
  (0x16A, fun h t => .tfenceT4 (F4.of h t)),
  (0x16C, fun h t => .sbwaitT0 (F0.of h t)),
  (0x16E, fun h t => .sbwaitT4 (F4.of h t))]

/-- The decoder of row 6 of the opcode map (R59). -/
def decRow6 : List DecRow := [
  (0x182, fun h t => .send (F4.of h t)),
  (0x187, fun h t => .sendi (F8.of h t)),
  (0x188, fun h t => .emptyT0 (F0.of h t)),
  (0x18A, fun h t => .emptyT4 (F4.of h t)),
  (0x18D, fun h t => .migrT2 (F2.of h t)),
  (0x18E, fun h t => .migrT4 (F4.of h t)),
  (0x191, fun h t => .mighT2 (F2.of h t)),
  (0x192, fun h t => .mighT4 (F4.of h t)),
  (0x194, fun h t => .roleT0 (F0.of h t)),
  (0x196, fun h t => .roleT4 (F4.of h t)),
  (0x199, fun h t => .rcastT2 (F2.of h t)),
  (0x19A, fun h t => .rcastT4 (F4.of h t)),
  (0x19D, fun h t => .chmapT2 (F2.of h t)),
  (0x19E, fun h t => .chmapT4 (F4.of h t)),
  (0x1A0, fun h t => .mboxqT0 (F0.of h t)),
  (0x1A2, fun h t => .mboxqT4 (F4.of h t)),
  (0x1A4, fun h t => .poisqT0 (F0.of h t)),
  (0x1A6, fun h t => .poisqT4 (F4.of h t))]

/-- The decoder of row 7 of the opcode map (R59). -/
def decRow7 : List DecRow := [
  (0x1C1, fun h t => .dqpushT2 (F2.of h t)),
  (0x1C2, fun h t => .dqpushT4 (F4.of h t)),
  (0x1C5, fun h t => .dqpopT2 (F2.of h t)),
  (0x1C6, fun h t => .dqpopT4 (F4.of h t)),
  (0x1C9, fun h t => .spawnT2 (F2.of h t)),
  (0x1CA, fun h t => .spawnT4 (F4.of h t)),
  (0x1CD, fun h t => .glnchT2 (F2.of h t)),
  (0x1CE, fun h t => .glnchT4 (F4.of h t)),
  (0x1D1, fun h t => .widf (F2.of h t)),
  (0x1D4, fun h t => .baraT0 (F0.of h t)),
  (0x1D6, fun h t => .baraT4 (F4.of h t)),
  (0x1D8, fun h t => .barwT0 (F0.of h t)),
  (0x1DA, fun h t => .barwT4 (F4.of h t)),
  (0x1DC, fun h t => .barT0 (F0.of h t)),
  (0x1DE, fun h t => .barT4 (F4.of h t)),
  (0x1E1, fun h t => .sltwT2 (F2.of h t)),
  (0x1E2, fun h t => .sltwT4 (F4.of h t)),
  (0x1E5, fun h t => .sltrT2 (F2.of h t)),
  (0x1E6, fun h t => .sltrT4 (F4.of h t)),
  (0x1E9, fun h t => .cbinitT2 (F2.of h t)),
  (0x1EA, fun h t => .cbinitT4 (F4.of h t)),
  (0x1ED, fun h t => .cbarrT2 (F2.of h t)),
  (0x1EE, fun h t => .cbarrT4 (F4.of h t)),
  (0x1F1, fun h t => .cbwaitT2 (F2.of h t)),
  (0x1F2, fun h t => .cbwaitT4 (F4.of h t)),
  (0x1F5, fun h t => .cbphT2 (F2.of h t)),
  (0x1F6, fun h t => .cbphT4 (F4.of h t))]

/-- The decoder of row 8 of the opcode map (R59). -/
def decRow8 : List DecRow := [
  (0x201, fun h t => .faddT2 (F2.of h t)),
  (0x202, fun h t => .faddT4 (F4.of h t)),
  (0x205, fun h t => .fsubT2 (F2.of h t)),
  (0x206, fun h t => .fsubT4 (F4.of h t)),
  (0x209, fun h t => .fmulT2 (F2.of h t)),
  (0x20A, fun h t => .fmulT4 (F4.of h t)),
  (0x20E, fun h t => .ffma (F4.of h t)),
  (0x211, fun h t => .fdivT2 (F2.of h t)),
  (0x212, fun h t => .fdivT4 (F4.of h t)),
  (0x215, fun h t => .fsqrtT2 (F2.of h t)),
  (0x216, fun h t => .fsqrtT4 (F4.of h t)),
  (0x219, fun h t => .fminT2 (F2.of h t)),
  (0x21A, fun h t => .fminT4 (F4.of h t)),
  (0x21D, fun h t => .fmaxT2 (F2.of h t)),
  (0x21E, fun h t => .fmaxT4 (F4.of h t)),
  (0x221, fun h t => .fcmpT2 (F2.of h t)),
  (0x222, fun h t => .fcmpT4 (F4.of h t)),
  (0x226, fun h t => .fcvt (F4.of h t)),
  (0x229, fun h t => .fclsT2 (F2.of h t)),
  (0x22A, fun h t => .fclsT4 (F4.of h t)),
  (0x22D, fun h t => .ftldT2 (F2.of h t)),
  (0x22E, fun h t => .ftldT4 (F4.of h t)),
  (0x231, fun h t => .enc8T2 (F2.of h t)),
  (0x232, fun h t => .enc8T4 (F4.of h t)),
  (0x235, fun h t => .dec8T2 (F2.of h t)),
  (0x236, fun h t => .dec8T4 (F4.of h t))]

/-- The decoder of row 9 of the opcode map (R59). -/
def decRow9 : List DecRow := [
  (0x242, fun h t => .vadd (F4.of h t)),
  (0x246, fun h t => .vsub (F4.of h t)),
  (0x24A, fun h t => .vmul (F4.of h t)),
  (0x24E, fun h t => .vfma (F4.of h t)),
  (0x252, fun h t => .vmin (F4.of h t)),
  (0x256, fun h t => .vmax (F4.of h t)),
  (0x25A, fun h t => .vdiv (F4.of h t)),
  (0x25E, fun h t => .vsqrt (F4.of h t)),
  (0x262, fun h t => .vexp (F4.of h t)),
  (0x266, fun h t => .vlog (F4.of h t)),
  (0x26A, fun h t => .vrcp (F4.of h t)),
  (0x26E, fun h t => .vrsq (F4.of h t)),
  (0x272, fun h t => .vcvt (F4.of h t)),
  (0x276, fun h t => .vscl (F4.of h t)),
  (0x27A, fun h t => .vabs (F4.of h t)),
  (0x27E, fun h t => .vneg (F4.of h t))]

/-- The decoder of row A of the opcode map (R59). -/
noncomputable def decRowA : List DecRow := [
  (0x282, fun h t => .viadd (F4.of h t)),
  (0x286, fun h t => .visub (F4.of h t)),
  (0x28A, fun h t => .vimul (F4.of h t)),
  (0x28E, fun h t => .vdot4 (F4.of h t)),
  (0x292, fun h t => .vand (F4.of h t)),
  (0x296, fun h t => .vor (F4.of h t)),
  (0x29A, fun h t => .vxor (F4.of h t)),
  (0x29E, fun h t => .vshl (F4.of h t)),
  (0x2A2, fun h t => .vshr (F4.of h t)),
  (0x2A6, fun h t => .unpk3 (F4.of h t)),
  (0x2AA, fun h t => .vtas (F4.of h t)),
  (0x2AE, fun h t => .vsel (F4.of h t)),
  (0x2B2, fun h t => .vperm (F4.of h t)),
  (0x2B6, fun h t => .vcmp (F4.of h t)),
  (0x2BA, fun h t => .vsat (F4.of h t)),
  (0x2BE, fun h t => .vclz (F4.of h t))]

/-- The decoder of row B of the opcode map (R59). -/
noncomputable def decRowB : List DecRow := [
  (0x2C1, fun h t => .vclaimT2 (F2.of h t)),
  (0x2C2, fun h t => .vclaimT4 (F4.of h t)),
  (0x2C4, fun h t => .vrelT0 (F0.of h t)),
  (0x2C6, fun h t => .vrelT4 (F4.of h t)),
  (0x2CA, fun h t => .vradd (F4.of h t)),
  (0x2CE, fun h t => .vrmax (F4.of h t)),
  (0x2D2, fun h t => .vrmin (F4.of h t)),
  (0x2D6, fun h t => .vscan (F4.of h t)),
  (0x2DA, fun h t => .vgath (F4.of h t)),
  (0x2DE, fun h t => .vscat (F4.of h t)),
  (0x2E2, fun h t => .vmov (F4.of h t)),
  (0x2E6, fun h t => .vfill (F4.of h t)),
  (0x2EA, fun h t => .vmask (F4.of h t)),
  (0x2EE, fun h t => .viota (F4.of h t))]

/-- The decoder of row C of the opcode map (R59). -/
noncomputable def decRowC : List DecRow := [
  (0x301, fun h t => .shldT2 (F2.of h t)),
  (0x302, fun h t => .shldT4 (F4.of h t)),
  (0x305, fun h t => .shstT2 (F2.of h t)),
  (0x306, fun h t => .shstT4 (F4.of h t)),
  (0x30A, fun h t => .shset (F4.of h t)),
  (0x30E, fun h t => .shget (F4.of h t)),
  (0x311, fun h t => .townT2 (F2.of h t)),
  (0x312, fun h t => .townT4 (F4.of h t)),
  (0x315, fun h t => .tgiveT2 (F2.of h t)),
  (0x316, fun h t => .tgiveT4 (F4.of h t)),
  (0x31A, fun h t => .ttag (F4.of h t)),
  (0x31D, fun h t => .ttaskT2 (F2.of h t)),
  (0x31E, fun h t => .ttaskT4 (F4.of h t)),
  (0x321, fun h t => .tqryT2 (F2.of h t)),
  (0x322, fun h t => .tqryT4 (F4.of h t)),
  (0x325, fun h t => .qpushT2 (F2.of h t)),
  (0x326, fun h t => .qpushT4 (F4.of h t)),
  (0x329, fun h t => .qpopT2 (F2.of h t)),
  (0x32A, fun h t => .qpopT4 (F4.of h t)),
  (0x32D, fun h t => .qstatT2 (F2.of h t)),
  (0x32E, fun h t => .qstatT4 (F4.of h t))]

/-- The decoder of row D of the opcode map (R59). -/
noncomputable def decRowD : List DecRow := [
  (0x342, fun h t => .spld (F4.of h t)),
  (0x346, fun h t => .spst (F4.of h t)),
  (0x348, fun h t => .spupT0 (F0.of h t)),
  (0x34A, fun h t => .spupT4 (F4.of h t)),
  (0x34C, fun h t => .spdnT0 (F0.of h t)),
  (0x34E, fun h t => .spdnT4 (F4.of h t)),
  (0x350, fun h t => .spmaxT0 (F0.of h t)),
  (0x352, fun h t => .spmaxT4 (F4.of h t)),
  (0x356, fun h t => .spcvt (F4.of h t)),
  (0x35A, fun h t => .spclr (F4.of h t)),
  (0x35E, fun h t => .spwld (F4.of h t)),
  (0x362, fun h t => .spgst (F4.of h t)),
  (0x365, fun h t => .spstatT2 (F2.of h t)),
  (0x366, fun h t => .spstatT4 (F4.of h t))]

/-- The decoder of row E of the opcode map (R59). -/
noncomputable def decRowE : List DecRow := [
  (0x382, fun h t => .lcopy (F4.of h t)),
  (0x386, fun h t => .lfill (F4.of h t)),
  (0x389, fun h t => .lcancelT2 (F2.of h t)),
  (0x38A, fun h t => .lcancelT4 (F4.of h t)),
  (0x38D, fun h t => .lstatT2 (F2.of h t)),
  (0x38E, fun h t => .lstatT4 (F4.of h t)),
  (0x392, fun h t => .prred (F4.of h t)),
  (0x396, fun h t => .prbc (F4.of h t)),
  (0x39A, fun h t => .prar (F4.of h t)),
  (0x39E, fun h t => .prag (F4.of h t)),
  (0x3A1, fun h t => .nsendT2 (F2.of h t)),
  (0x3A2, fun h t => .nsendT4 (F4.of h t)),
  (0x3A5, fun h t => .npostT2 (F2.of h t)),
  (0x3A6, fun h t => .npostT4 (F4.of h t)),
  (0x3A9, fun h t => .rwriteT2 (F2.of h t)),
  (0x3AA, fun h t => .rwriteT4 (F4.of h t)),
  (0x3AD, fun h t => .rreadT2 (F2.of h t)),
  (0x3AE, fun h t => .rreadT4 (F4.of h t)),
  (0x3B1, fun h t => .ccwaitT2 (F2.of h t)),
  (0x3B2, fun h t => .ccwaitT4 (F4.of h t)),
  (0x3B5, fun h t => .ccrdT2 (F2.of h t)),
  (0x3B6, fun h t => .ccrdT4 (F4.of h t)),
  (0x3B9, fun h t => .ccsetT2 (F2.of h t)),
  (0x3BA, fun h t => .ccsetT4 (F4.of h t)),
  (0x3BC, fun h t => .nstatT0 (F0.of h t)),
  (0x3BE, fun h t => .nstatT4 (F4.of h t))]

/-- The decoder of row F of the opcode map (R59). -/
noncomputable def decRowF : List DecRow := [
  (0x3C1, fun h t => .walkT2 (F2.of h t)),
  (0x3C2, fun h t => .walkT4 (F4.of h t)),
  (0x3C5, fun h t => .openT2 (F2.of h t)),
  (0x3C6, fun h t => .openT4 (F4.of h t)),
  (0x3C9, fun h t => .closeT2 (F2.of h t)),
  (0x3CA, fun h t => .closeT4 (F4.of h t)),
  (0x3CE, fun h t => .bind (F4.of h t)),
  (0x3D1, fun h t => .unbindT2 (F2.of h t)),
  (0x3D2, fun h t => .unbindT4 (F4.of h t)),
  (0x3D5, fun h t => .revokeT2 (F2.of h t)),
  (0x3D6, fun h t => .revokeT4 (F4.of h t)),
  (0x3D9, fun h t => .csrrT2 (F2.of h t)),
  (0x3DA, fun h t => .csrrT4 (F4.of h t)),
  (0x3DD, fun h t => .csrwT2 (F2.of h t)),
  (0x3DE, fun h t => .csrwT4 (F4.of h t)),
  (0x3E1, fun h t => .tretT2 (F2.of h t)),
  (0x3E2, fun h t => .tretT4 (F4.of h t)),
  (0x3E5, fun h t => .pmackT2 (F2.of h t)),
  (0x3E6, fun h t => .pmackT4 (F4.of h t)),
  (0x3E9, fun h t => .tshootT2 (F2.of h t)),
  (0x3EA, fun h t => .tshootT4 (F4.of h t)),
  (0x3EE, fun h t => .sstop (F4.of h t)),
  (0x3F1, fun h t => .partwT2 (F2.of h t)),
  (0x3F2, fun h t => .partwT4 (F4.of h t)),
  (0x3F4, fun h t => .haltT0 (F0.of h t)),
  (0x3F6, fun h t => .haltT4 (F4.of h t)),
  (0x3F9, fun h t => .attqT2 (F2.of h t)),
  (0x3FA, fun h t => .attqT4 (F4.of h t))]

/-- The decoder rows of a row of the opcode map. -/
noncomputable def decRow (r : Nat) : List DecRow :=
  match r with
  | 0 => decRow0
  | 1 => decRow1
  | 2 => decRow2
  | 3 => decRow3
  | 4 => decRow4
  | 5 => decRow5
  | 6 => decRow6
  | 7 => decRow7
  | 8 => decRow8
  | 9 => decRow9
  | 10 => decRowA
  | 11 => decRowB
  | 12 => decRowC
  | 13 => decRowD
  | 14 => decRowE
  | 15 => decRowF
  | _ => []

/-- The decoder row with a key. -/
def decFind (k : Nat) : List DecRow → Option (Nat → Nat → Instr)
  | [] => none
  | (k', f) :: t => if k = k' then some f else decFind k t

/-- The bits of a tail of code TL: 0, 2, 4 or 8 bytes (R41). -/
def tailMod (tl t : Nat) : Nat :=
  match tl with
  | 0 => 0
  | 1 => t % 2 ^ 16
  | 2 => t % 2 ^ 32
  | _ => t % 2 ^ 64

/-- The instruction of a head word and its tail (R43, R44, R59, R60). -/
noncomputable def decode (h t : Nat) : Except DecErr Instr :=
  let op := h / 16 % 256
  let tl := h / 4096 % 4
  let t := tailMod tl t
  if op = 0xFF then .ok (.illegalOpcodeFf (FRaw.of h t))
  else if reservedOp op then .ok (.reservedOpcode (FRaw.of h t))
  else match decFind (op * 4 + tl) (decRow (op / 16)) with
    | some f => .ok (f h t)
    | none => .error (.tailNotAccepted op tl)

/-- The head and the tail of an instruction; none for a step that is no instruction of a thread. -/
def encode : Instr → Option Enc
  | .nop f => some ⟨mkHead f.s f.p 0 0x00 f.d.toNat, 0⟩
  | .jmp f => some ⟨mkHead f.s f.p 2 0x01 f.d.toNat, f.tail⟩
  | .jp f => some ⟨mkHead f.s f.p 2 0x02 f.d.toNat, f.tail⟩
  | .jnp f => some ⟨mkHead f.s f.p 2 0x03 f.d.toNat, f.tail⟩
  | .callT2 f => some ⟨mkHead f.s f.p 1 0x04 f.d.toNat, f.tail⟩
  | .callT4b f => some ⟨mkHead f.s f.p 2 0x04 f.d.toNat, f.tail⟩
  | .retT0 f => some ⟨mkHead f.s f.p 0 0x05 f.d.toNat, 0⟩
  | .retT4 f => some ⟨mkHead f.s f.p 2 0x05 f.d.toNat, f.tail⟩
  | .jrT2 f => some ⟨mkHead f.s f.p 1 0x06 f.d.toNat, f.tail⟩
  | .jrT4 f => some ⟨mkHead f.s f.p 2 0x06 f.d.toNat, f.tail⟩
  | .loop f => some ⟨mkHead f.s f.p 2 0x07 f.d.toNat, f.tail⟩
  | .yieldT0 f => some ⟨mkHead f.s f.p 0 0x08 f.d.toNat, 0⟩
  | .yieldT4 f => some ⟨mkHead f.s f.p 2 0x08 f.d.toNat, f.tail⟩
  | .tendT0 f => some ⟨mkHead f.s f.p 0 0x09 f.d.toNat, 0⟩
  | .tendT4 f => some ⟨mkHead f.s f.p 2 0x09 f.d.toNat, f.tail⟩
  | .trapT0 f => some ⟨mkHead f.s f.p 0 0x0A f.d.toNat, 0⟩
  | .trapT4 f => some ⟨mkHead f.s f.p 2 0x0A f.d.toNat, f.tail⟩
  | .sysc f => some ⟨mkHead f.s f.p 2 0x0B f.d.toNat, f.tail⟩
  | .ifenceT0 f => some ⟨mkHead f.s f.p 0 0x0C f.d.toNat, 0⟩
  | .ifenceT4 f => some ⟨mkHead f.s f.p 2 0x0C f.d.toNat, f.tail⟩
  | .waitfT0 f => some ⟨mkHead f.s f.p 0 0x0D f.d.toNat, 0⟩
  | .waitfT4 f => some ⟨mkHead f.s f.p 2 0x0D f.d.toNat, f.tail⟩
  | .brk f => some ⟨mkHead f.s f.p 0 0x0E f.d.toNat, 0⟩
  | .addT2 f => some ⟨mkHead f.s f.p 1 0x10 f.d.toNat, f.tail⟩
  | .addT4 f => some ⟨mkHead f.s f.p 2 0x10 f.d.toNat, f.tail⟩
  | .subT2 f => some ⟨mkHead f.s f.p 1 0x11 f.d.toNat, f.tail⟩
  | .subT4 f => some ⟨mkHead f.s f.p 2 0x11 f.d.toNat, f.tail⟩
  | .mulT2 f => some ⟨mkHead f.s f.p 1 0x12 f.d.toNat, f.tail⟩
  | .mulT4 f => some ⟨mkHead f.s f.p 2 0x12 f.d.toNat, f.tail⟩
  | .mulhT2 f => some ⟨mkHead f.s f.p 1 0x13 f.d.toNat, f.tail⟩
  | .mulhT4 f => some ⟨mkHead f.s f.p 2 0x13 f.d.toNat, f.tail⟩
  | .mulhnT2 f => some ⟨mkHead f.s f.p 1 0x14 f.d.toNat, f.tail⟩
  | .mulhnT4 f => some ⟨mkHead f.s f.p 2 0x14 f.d.toNat, f.tail⟩
  | .divT2 f => some ⟨mkHead f.s f.p 1 0x15 f.d.toNat, f.tail⟩
  | .divT4 f => some ⟨mkHead f.s f.p 2 0x15 f.d.toNat, f.tail⟩
  | .divnT2 f => some ⟨mkHead f.s f.p 1 0x16 f.d.toNat, f.tail⟩
  | .divnT4 f => some ⟨mkHead f.s f.p 2 0x16 f.d.toNat, f.tail⟩
  | .remT2 f => some ⟨mkHead f.s f.p 1 0x17 f.d.toNat, f.tail⟩
  | .remT4 f => some ⟨mkHead f.s f.p 2 0x17 f.d.toNat, f.tail⟩
  | .remnT2 f => some ⟨mkHead f.s f.p 1 0x18 f.d.toNat, f.tail⟩
  | .remnT4 f => some ⟨mkHead f.s f.p 2 0x18 f.d.toNat, f.tail⟩
  | .andT2 f => some ⟨mkHead f.s f.p 1 0x19 f.d.toNat, f.tail⟩
  | .andT4 f => some ⟨mkHead f.s f.p 2 0x19 f.d.toNat, f.tail⟩
  | .orT2 f => some ⟨mkHead f.s f.p 1 0x1A f.d.toNat, f.tail⟩
  | .orT4 f => some ⟨mkHead f.s f.p 2 0x1A f.d.toNat, f.tail⟩
  | .xorT2 f => some ⟨mkHead f.s f.p 1 0x1B f.d.toNat, f.tail⟩
  | .xorT4 f => some ⟨mkHead f.s f.p 2 0x1B f.d.toNat, f.tail⟩
  | .shlT2 f => some ⟨mkHead f.s f.p 1 0x1C f.d.toNat, f.tail⟩
  | .shlT4 f => some ⟨mkHead f.s f.p 2 0x1C f.d.toNat, f.tail⟩
  | .shrT2 f => some ⟨mkHead f.s f.p 1 0x1D f.d.toNat, f.tail⟩
  | .shrT4 f => some ⟨mkHead f.s f.p 2 0x1D f.d.toNat, f.tail⟩
  | .sarT2 f => some ⟨mkHead f.s f.p 1 0x1E f.d.toNat, f.tail⟩
  | .sarT4 f => some ⟨mkHead f.s f.p 2 0x1E f.d.toNat, f.tail⟩
  | .rotT2 f => some ⟨mkHead f.s f.p 1 0x1F f.d.toNat, f.tail⟩
  | .rotT4 f => some ⟨mkHead f.s f.p 2 0x1F f.d.toNat, f.tail⟩
  | .addiT2 f => some ⟨mkHead f.s f.p 1 0x20 f.d.toNat, f.tail⟩
  | .addiT4 f => some ⟨mkHead f.s f.p 2 0x20 f.d.toNat, f.tail⟩
  | .addiT8 f => some ⟨mkHead f.s f.p 3 0x20 f.d.toNat, f.tail⟩
  | .andiT2 f => some ⟨mkHead f.s f.p 1 0x21 f.d.toNat, f.tail⟩
  | .andiT4 f => some ⟨mkHead f.s f.p 2 0x21 f.d.toNat, f.tail⟩
  | .andiT8 f => some ⟨mkHead f.s f.p 3 0x21 f.d.toNat, f.tail⟩
  | .oriT2 f => some ⟨mkHead f.s f.p 1 0x22 f.d.toNat, f.tail⟩
  | .oriT4 f => some ⟨mkHead f.s f.p 2 0x22 f.d.toNat, f.tail⟩
  | .oriT8 f => some ⟨mkHead f.s f.p 3 0x22 f.d.toNat, f.tail⟩
  | .xoriT2 f => some ⟨mkHead f.s f.p 1 0x23 f.d.toNat, f.tail⟩
  | .xoriT4 f => some ⟨mkHead f.s f.p 2 0x23 f.d.toNat, f.tail⟩
  | .xoriT8 f => some ⟨mkHead f.s f.p 3 0x23 f.d.toNat, f.tail⟩
  | .shliT2 f => some ⟨mkHead f.s f.p 1 0x24 f.d.toNat, f.tail⟩
  | .shliT4 f => some ⟨mkHead f.s f.p 2 0x24 f.d.toNat, f.tail⟩
  | .shriT2 f => some ⟨mkHead f.s f.p 1 0x25 f.d.toNat, f.tail⟩
  | .shriT4 f => some ⟨mkHead f.s f.p 2 0x25 f.d.toNat, f.tail⟩
  | .sariT2 f => some ⟨mkHead f.s f.p 1 0x26 f.d.toNat, f.tail⟩
  | .sariT4 f => some ⟨mkHead f.s f.p 2 0x26 f.d.toNat, f.tail⟩
  | .li f => some ⟨mkHead f.s f.p 3 0x27 f.d.toNat, f.tail⟩
  | .lih f => some ⟨mkHead f.s f.p 3 0x28 f.d.toNat, f.tail⟩
  | .movT2 f => some ⟨mkHead f.s f.p 1 0x29 f.d.toNat, f.tail⟩
  | .movT4 f => some ⟨mkHead f.s f.p 2 0x29 f.d.toNat, f.tail⟩
  | .selT2 f => some ⟨mkHead f.s f.p 1 0x2A f.d.toNat, f.tail⟩
  | .selT4 f => some ⟨mkHead f.s f.p 2 0x2A f.d.toNat, f.tail⟩
  | .clzT2 f => some ⟨mkHead f.s f.p 1 0x2B f.d.toNat, f.tail⟩
  | .clzT4 f => some ⟨mkHead f.s f.p 2 0x2B f.d.toNat, f.tail⟩
  | .popcT2 f => some ⟨mkHead f.s f.p 1 0x2C f.d.toNat, f.tail⟩
  | .popcT4 f => some ⟨mkHead f.s f.p 2 0x2C f.d.toNat, f.tail⟩
  | .bswapT2 f => some ⟨mkHead f.s f.p 1 0x2D f.d.toNat, f.tail⟩
  | .bswapT4 f => some ⟨mkHead f.s f.p 2 0x2D f.d.toNat, f.tail⟩
  | .bfx f => some ⟨mkHead f.s f.p 2 0x2E f.d.toNat, f.tail⟩
  | .bfi f => some ⟨mkHead f.s f.p 2 0x2F f.d.toNat, f.tail⟩
  | .cmpT2 f => some ⟨mkHead f.s f.p 1 0x30 f.d.toNat, f.tail⟩
  | .cmpT4 f => some ⟨mkHead f.s f.p 2 0x30 f.d.toNat, f.tail⟩
  | .cmpiT4 f => some ⟨mkHead f.s f.p 2 0x31 f.d.toNat, f.tail⟩
  | .cmpiT8 f => some ⟨mkHead f.s f.p 3 0x31 f.d.toNat, f.tail⟩
  | .pandT2 f => some ⟨mkHead f.s f.p 1 0x32 f.d.toNat, f.tail⟩
  | .pandT4 f => some ⟨mkHead f.s f.p 2 0x32 f.d.toNat, f.tail⟩
  | .porT2 f => some ⟨mkHead f.s f.p 1 0x33 f.d.toNat, f.tail⟩
  | .porT4 f => some ⟨mkHead f.s f.p 2 0x33 f.d.toNat, f.tail⟩
  | .pxorT2 f => some ⟨mkHead f.s f.p 1 0x34 f.d.toNat, f.tail⟩
  | .pxorT4 f => some ⟨mkHead f.s f.p 2 0x34 f.d.toNat, f.tail⟩
  | .pnotT2 f => some ⟨mkHead f.s f.p 1 0x35 f.d.toNat, f.tail⟩
  | .pnotT4 f => some ⟨mkHead f.s f.p 2 0x35 f.d.toNat, f.tail⟩
  | .ptogT0 f => some ⟨mkHead f.s f.p 0 0x36 f.d.toNat, 0⟩
  | .ptogT4 f => some ⟨mkHead f.s f.p 2 0x36 f.d.toNat, f.tail⟩
  | .gtopT2 f => some ⟨mkHead f.s f.p 1 0x37 f.d.toNat, f.tail⟩
  | .gtopT4 f => some ⟨mkHead f.s f.p 2 0x37 f.d.toNat, f.tail⟩
  | .pmkT2 f => some ⟨mkHead f.s f.p 1 0x38 f.d.toNat, f.tail⟩
  | .pmkT4 f => some ⟨mkHead f.s f.p 2 0x38 f.d.toNat, f.tail⟩
  | .paddT2 f => some ⟨mkHead f.s f.p 1 0x39 f.d.toNat, f.tail⟩
  | .paddT4 f => some ⟨mkHead f.s f.p 2 0x39 f.d.toNat, f.tail⟩
  | .paddiT2 f => some ⟨mkHead f.s f.p 1 0x3A f.d.toNat, f.tail⟩
  | .paddiT4 f => some ⟨mkHead f.s f.p 2 0x3A f.d.toNat, f.tail⟩
  | .paddiT8 f => some ⟨mkHead f.s f.p 3 0x3A f.d.toNat, f.tail⟩
  | .psetfT2 f => some ⟨mkHead f.s f.p 1 0x3B f.d.toNat, f.tail⟩
  | .psetfT4 f => some ⟨mkHead f.s f.p 2 0x3B f.d.toNat, f.tail⟩
  | .psetbT2 f => some ⟨mkHead f.s f.p 1 0x3C f.d.toNat, f.tail⟩
  | .psetbT4 f => some ⟨mkHead f.s f.p 2 0x3C f.d.toNat, f.tail⟩
  | .phndT2 f => some ⟨mkHead f.s f.p 1 0x3D f.d.toNat, f.tail⟩
  | .phndT4 f => some ⟨mkHead f.s f.p 2 0x3D f.d.toNat, f.tail⟩
  | .poffT2 f => some ⟨mkHead f.s f.p 1 0x3E f.d.toNat, f.tail⟩
  | .poffT4 f => some ⟨mkHead f.s f.p 2 0x3E f.d.toNat, f.tail⟩
  | .pchk f => some ⟨mkHead f.s f.p 2 0x3F f.d.toNat, f.tail⟩
  | .ld f => some ⟨mkHead f.s f.p 2 0x40 f.d.toNat, f.tail⟩
  | .lds f => some ⟨mkHead f.s f.p 2 0x41 f.d.toNat, f.tail⟩
  | .st f => some ⟨mkHead f.s f.p 2 0x42 f.d.toNat, f.tail⟩
  | .lda f => some ⟨mkHead f.s f.p 2 0x43 f.d.toNat, f.tail⟩
  | .stl f => some ⟨mkHead f.s f.p 2 0x44 f.d.toNat, f.tail⟩
  | .ldt f => some ⟨mkHead f.s f.p 2 0x45 f.d.toNat, f.tail⟩
  | .stt f => some ⟨mkHead f.s f.p 2 0x46 f.d.toNat, f.tail⟩
  | .ldp f => some ⟨mkHead f.s f.p 2 0x47 f.d.toNat, f.tail⟩
  | .stp f => some ⟨mkHead f.s f.p 2 0x48 f.d.toNat, f.tail⟩
  | .ldx f => some ⟨mkHead f.s f.p 2 0x49 f.d.toNat, f.tail⟩
  | .stx f => some ⟨mkHead f.s f.p 2 0x4A f.d.toNat, f.tail⟩
  | .cas f => some ⟨mkHead f.s f.p 2 0x50 f.d.toNat, f.tail⟩
  | .swp f => some ⟨mkHead f.s f.p 2 0x51 f.d.toNat, f.tail⟩
  | .aadd f => some ⟨mkHead f.s f.p 2 0x52 f.d.toNat, f.tail⟩
  | .aand f => some ⟨mkHead f.s f.p 2 0x53 f.d.toNat, f.tail⟩
  | .aor f => some ⟨mkHead f.s f.p 2 0x54 f.d.toNat, f.tail⟩
  | .axor f => some ⟨mkHead f.s f.p 2 0x55 f.d.toNat, f.tail⟩
  | .amin f => some ⟨mkHead f.s f.p 2 0x56 f.d.toNat, f.tail⟩
  | .amax f => some ⟨mkHead f.s f.p 2 0x57 f.d.toNat, f.tail⟩
  | .afadd f => some ⟨mkHead f.s f.p 2 0x58 f.d.toNat, f.tail⟩
  | .fenceT2 f => some ⟨mkHead f.s f.p 1 0x59 f.d.toNat, f.tail⟩
  | .fenceT4 f => some ⟨mkHead f.s f.p 2 0x59 f.d.toNat, f.tail⟩
  | .tfenceT2 f => some ⟨mkHead f.s f.p 1 0x5A f.d.toNat, f.tail⟩
  | .tfenceT4 f => some ⟨mkHead f.s f.p 2 0x5A f.d.toNat, f.tail⟩
  | .sbwaitT0 f => some ⟨mkHead f.s f.p 0 0x5B f.d.toNat, 0⟩
  | .sbwaitT4 f => some ⟨mkHead f.s f.p 2 0x5B f.d.toNat, f.tail⟩
  | .send f => some ⟨mkHead f.s f.p 2 0x60 f.d.toNat, f.tail⟩
  | .sendi f => some ⟨mkHead f.s f.p 3 0x61 f.d.toNat, f.tail⟩
  | .emptyT0 f => some ⟨mkHead f.s f.p 0 0x62 f.d.toNat, 0⟩
  | .emptyT4 f => some ⟨mkHead f.s f.p 2 0x62 f.d.toNat, f.tail⟩
  | .migrT2 f => some ⟨mkHead f.s f.p 1 0x63 f.d.toNat, f.tail⟩
  | .migrT4 f => some ⟨mkHead f.s f.p 2 0x63 f.d.toNat, f.tail⟩
  | .mighT2 f => some ⟨mkHead f.s f.p 1 0x64 f.d.toNat, f.tail⟩
  | .mighT4 f => some ⟨mkHead f.s f.p 2 0x64 f.d.toNat, f.tail⟩
  | .roleT0 f => some ⟨mkHead f.s f.p 0 0x65 f.d.toNat, 0⟩
  | .roleT4 f => some ⟨mkHead f.s f.p 2 0x65 f.d.toNat, f.tail⟩
  | .rcastT2 f => some ⟨mkHead f.s f.p 1 0x66 f.d.toNat, f.tail⟩
  | .rcastT4 f => some ⟨mkHead f.s f.p 2 0x66 f.d.toNat, f.tail⟩
  | .chmapT2 f => some ⟨mkHead f.s f.p 1 0x67 f.d.toNat, f.tail⟩
  | .chmapT4 f => some ⟨mkHead f.s f.p 2 0x67 f.d.toNat, f.tail⟩
  | .mboxqT0 f => some ⟨mkHead f.s f.p 0 0x68 f.d.toNat, 0⟩
  | .mboxqT4 f => some ⟨mkHead f.s f.p 2 0x68 f.d.toNat, f.tail⟩
  | .poisqT0 f => some ⟨mkHead f.s f.p 0 0x69 f.d.toNat, 0⟩
  | .poisqT4 f => some ⟨mkHead f.s f.p 2 0x69 f.d.toNat, f.tail⟩
  | .dqpushT2 f => some ⟨mkHead f.s f.p 1 0x70 f.d.toNat, f.tail⟩
  | .dqpushT4 f => some ⟨mkHead f.s f.p 2 0x70 f.d.toNat, f.tail⟩
  | .dqpopT2 f => some ⟨mkHead f.s f.p 1 0x71 f.d.toNat, f.tail⟩
  | .dqpopT4 f => some ⟨mkHead f.s f.p 2 0x71 f.d.toNat, f.tail⟩
  | .spawnT2 f => some ⟨mkHead f.s f.p 1 0x72 f.d.toNat, f.tail⟩
  | .spawnT4 f => some ⟨mkHead f.s f.p 2 0x72 f.d.toNat, f.tail⟩
  | .glnchT2 f => some ⟨mkHead f.s f.p 1 0x73 f.d.toNat, f.tail⟩
  | .glnchT4 f => some ⟨mkHead f.s f.p 2 0x73 f.d.toNat, f.tail⟩
  | .widf f => some ⟨mkHead f.s f.p 1 0x74 f.d.toNat, f.tail⟩
  | .baraT0 f => some ⟨mkHead f.s f.p 0 0x75 f.d.toNat, 0⟩
  | .baraT4 f => some ⟨mkHead f.s f.p 2 0x75 f.d.toNat, f.tail⟩
  | .barwT0 f => some ⟨mkHead f.s f.p 0 0x76 f.d.toNat, 0⟩
  | .barwT4 f => some ⟨mkHead f.s f.p 2 0x76 f.d.toNat, f.tail⟩
  | .barT0 f => some ⟨mkHead f.s f.p 0 0x77 f.d.toNat, 0⟩
  | .barT4 f => some ⟨mkHead f.s f.p 2 0x77 f.d.toNat, f.tail⟩
  | .sltwT2 f => some ⟨mkHead f.s f.p 1 0x78 f.d.toNat, f.tail⟩
  | .sltwT4 f => some ⟨mkHead f.s f.p 2 0x78 f.d.toNat, f.tail⟩
  | .sltrT2 f => some ⟨mkHead f.s f.p 1 0x79 f.d.toNat, f.tail⟩
  | .sltrT4 f => some ⟨mkHead f.s f.p 2 0x79 f.d.toNat, f.tail⟩
  | .cbinitT2 f => some ⟨mkHead f.s f.p 1 0x7A f.d.toNat, f.tail⟩
  | .cbinitT4 f => some ⟨mkHead f.s f.p 2 0x7A f.d.toNat, f.tail⟩
  | .cbarrT2 f => some ⟨mkHead f.s f.p 1 0x7B f.d.toNat, f.tail⟩
  | .cbarrT4 f => some ⟨mkHead f.s f.p 2 0x7B f.d.toNat, f.tail⟩
  | .cbwaitT2 f => some ⟨mkHead f.s f.p 1 0x7C f.d.toNat, f.tail⟩
  | .cbwaitT4 f => some ⟨mkHead f.s f.p 2 0x7C f.d.toNat, f.tail⟩
  | .cbphT2 f => some ⟨mkHead f.s f.p 1 0x7D f.d.toNat, f.tail⟩
  | .cbphT4 f => some ⟨mkHead f.s f.p 2 0x7D f.d.toNat, f.tail⟩
  | .faddT2 f => some ⟨mkHead f.s f.p 1 0x80 f.d.toNat, f.tail⟩
  | .faddT4 f => some ⟨mkHead f.s f.p 2 0x80 f.d.toNat, f.tail⟩
  | .fsubT2 f => some ⟨mkHead f.s f.p 1 0x81 f.d.toNat, f.tail⟩
  | .fsubT4 f => some ⟨mkHead f.s f.p 2 0x81 f.d.toNat, f.tail⟩
  | .fmulT2 f => some ⟨mkHead f.s f.p 1 0x82 f.d.toNat, f.tail⟩
  | .fmulT4 f => some ⟨mkHead f.s f.p 2 0x82 f.d.toNat, f.tail⟩
  | .ffma f => some ⟨mkHead f.s f.p 2 0x83 f.d.toNat, f.tail⟩
  | .fdivT2 f => some ⟨mkHead f.s f.p 1 0x84 f.d.toNat, f.tail⟩
  | .fdivT4 f => some ⟨mkHead f.s f.p 2 0x84 f.d.toNat, f.tail⟩
  | .fsqrtT2 f => some ⟨mkHead f.s f.p 1 0x85 f.d.toNat, f.tail⟩
  | .fsqrtT4 f => some ⟨mkHead f.s f.p 2 0x85 f.d.toNat, f.tail⟩
  | .fminT2 f => some ⟨mkHead f.s f.p 1 0x86 f.d.toNat, f.tail⟩
  | .fminT4 f => some ⟨mkHead f.s f.p 2 0x86 f.d.toNat, f.tail⟩
  | .fmaxT2 f => some ⟨mkHead f.s f.p 1 0x87 f.d.toNat, f.tail⟩
  | .fmaxT4 f => some ⟨mkHead f.s f.p 2 0x87 f.d.toNat, f.tail⟩
  | .fcmpT2 f => some ⟨mkHead f.s f.p 1 0x88 f.d.toNat, f.tail⟩
  | .fcmpT4 f => some ⟨mkHead f.s f.p 2 0x88 f.d.toNat, f.tail⟩
  | .fcvt f => some ⟨mkHead f.s f.p 2 0x89 f.d.toNat, f.tail⟩
  | .fclsT2 f => some ⟨mkHead f.s f.p 1 0x8A f.d.toNat, f.tail⟩
  | .fclsT4 f => some ⟨mkHead f.s f.p 2 0x8A f.d.toNat, f.tail⟩
  | .ftldT2 f => some ⟨mkHead f.s f.p 1 0x8B f.d.toNat, f.tail⟩
  | .ftldT4 f => some ⟨mkHead f.s f.p 2 0x8B f.d.toNat, f.tail⟩
  | .enc8T2 f => some ⟨mkHead f.s f.p 1 0x8C f.d.toNat, f.tail⟩
  | .enc8T4 f => some ⟨mkHead f.s f.p 2 0x8C f.d.toNat, f.tail⟩
  | .dec8T2 f => some ⟨mkHead f.s f.p 1 0x8D f.d.toNat, f.tail⟩
  | .dec8T4 f => some ⟨mkHead f.s f.p 2 0x8D f.d.toNat, f.tail⟩
  | .vadd f => some ⟨mkHead f.s f.p 2 0x90 f.d.toNat, f.tail⟩
  | .vsub f => some ⟨mkHead f.s f.p 2 0x91 f.d.toNat, f.tail⟩
  | .vmul f => some ⟨mkHead f.s f.p 2 0x92 f.d.toNat, f.tail⟩
  | .vfma f => some ⟨mkHead f.s f.p 2 0x93 f.d.toNat, f.tail⟩
  | .vmin f => some ⟨mkHead f.s f.p 2 0x94 f.d.toNat, f.tail⟩
  | .vmax f => some ⟨mkHead f.s f.p 2 0x95 f.d.toNat, f.tail⟩
  | .vdiv f => some ⟨mkHead f.s f.p 2 0x96 f.d.toNat, f.tail⟩
  | .vsqrt f => some ⟨mkHead f.s f.p 2 0x97 f.d.toNat, f.tail⟩
  | .vexp f => some ⟨mkHead f.s f.p 2 0x98 f.d.toNat, f.tail⟩
  | .vlog f => some ⟨mkHead f.s f.p 2 0x99 f.d.toNat, f.tail⟩
  | .vrcp f => some ⟨mkHead f.s f.p 2 0x9A f.d.toNat, f.tail⟩
  | .vrsq f => some ⟨mkHead f.s f.p 2 0x9B f.d.toNat, f.tail⟩
  | .vcvt f => some ⟨mkHead f.s f.p 2 0x9C f.d.toNat, f.tail⟩
  | .vscl f => some ⟨mkHead f.s f.p 2 0x9D f.d.toNat, f.tail⟩
  | .vabs f => some ⟨mkHead f.s f.p 2 0x9E f.d.toNat, f.tail⟩
  | .vneg f => some ⟨mkHead f.s f.p 2 0x9F f.d.toNat, f.tail⟩
  | .viadd f => some ⟨mkHead f.s f.p 2 0xA0 f.d.toNat, f.tail⟩
  | .visub f => some ⟨mkHead f.s f.p 2 0xA1 f.d.toNat, f.tail⟩
  | .vimul f => some ⟨mkHead f.s f.p 2 0xA2 f.d.toNat, f.tail⟩
  | .vdot4 f => some ⟨mkHead f.s f.p 2 0xA3 f.d.toNat, f.tail⟩
  | .vand f => some ⟨mkHead f.s f.p 2 0xA4 f.d.toNat, f.tail⟩
  | .vor f => some ⟨mkHead f.s f.p 2 0xA5 f.d.toNat, f.tail⟩
  | .vxor f => some ⟨mkHead f.s f.p 2 0xA6 f.d.toNat, f.tail⟩
  | .vshl f => some ⟨mkHead f.s f.p 2 0xA7 f.d.toNat, f.tail⟩
  | .vshr f => some ⟨mkHead f.s f.p 2 0xA8 f.d.toNat, f.tail⟩
  | .unpk3 f => some ⟨mkHead f.s f.p 2 0xA9 f.d.toNat, f.tail⟩
  | .vtas f => some ⟨mkHead f.s f.p 2 0xAA f.d.toNat, f.tail⟩
  | .vsel f => some ⟨mkHead f.s f.p 2 0xAB f.d.toNat, f.tail⟩
  | .vperm f => some ⟨mkHead f.s f.p 2 0xAC f.d.toNat, f.tail⟩
  | .vcmp f => some ⟨mkHead f.s f.p 2 0xAD f.d.toNat, f.tail⟩
  | .vsat f => some ⟨mkHead f.s f.p 2 0xAE f.d.toNat, f.tail⟩
  | .vclz f => some ⟨mkHead f.s f.p 2 0xAF f.d.toNat, f.tail⟩
  | .vclaimT2 f => some ⟨mkHead f.s f.p 1 0xB0 f.d.toNat, f.tail⟩
  | .vclaimT4 f => some ⟨mkHead f.s f.p 2 0xB0 f.d.toNat, f.tail⟩
  | .vrelT0 f => some ⟨mkHead f.s f.p 0 0xB1 f.d.toNat, 0⟩
  | .vrelT4 f => some ⟨mkHead f.s f.p 2 0xB1 f.d.toNat, f.tail⟩
  | .vradd f => some ⟨mkHead f.s f.p 2 0xB2 f.d.toNat, f.tail⟩
  | .vrmax f => some ⟨mkHead f.s f.p 2 0xB3 f.d.toNat, f.tail⟩
  | .vrmin f => some ⟨mkHead f.s f.p 2 0xB4 f.d.toNat, f.tail⟩
  | .vscan f => some ⟨mkHead f.s f.p 2 0xB5 f.d.toNat, f.tail⟩
  | .vgath f => some ⟨mkHead f.s f.p 2 0xB6 f.d.toNat, f.tail⟩
  | .vscat f => some ⟨mkHead f.s f.p 2 0xB7 f.d.toNat, f.tail⟩
  | .vmov f => some ⟨mkHead f.s f.p 2 0xB8 f.d.toNat, f.tail⟩
  | .vfill f => some ⟨mkHead f.s f.p 2 0xB9 f.d.toNat, f.tail⟩
  | .vmask f => some ⟨mkHead f.s f.p 2 0xBA f.d.toNat, f.tail⟩
  | .viota f => some ⟨mkHead f.s f.p 2 0xBB f.d.toNat, f.tail⟩
  | .shldT2 f => some ⟨mkHead f.s f.p 1 0xC0 f.d.toNat, f.tail⟩
  | .shldT4 f => some ⟨mkHead f.s f.p 2 0xC0 f.d.toNat, f.tail⟩
  | .shstT2 f => some ⟨mkHead f.s f.p 1 0xC1 f.d.toNat, f.tail⟩
  | .shstT4 f => some ⟨mkHead f.s f.p 2 0xC1 f.d.toNat, f.tail⟩
  | .shset f => some ⟨mkHead f.s f.p 2 0xC2 f.d.toNat, f.tail⟩
  | .shget f => some ⟨mkHead f.s f.p 2 0xC3 f.d.toNat, f.tail⟩
  | .townT2 f => some ⟨mkHead f.s f.p 1 0xC4 f.d.toNat, f.tail⟩
  | .townT4 f => some ⟨mkHead f.s f.p 2 0xC4 f.d.toNat, f.tail⟩
  | .tgiveT2 f => some ⟨mkHead f.s f.p 1 0xC5 f.d.toNat, f.tail⟩
  | .tgiveT4 f => some ⟨mkHead f.s f.p 2 0xC5 f.d.toNat, f.tail⟩
  | .ttag f => some ⟨mkHead f.s f.p 2 0xC6 f.d.toNat, f.tail⟩
  | .ttaskT2 f => some ⟨mkHead f.s f.p 1 0xC7 f.d.toNat, f.tail⟩
  | .ttaskT4 f => some ⟨mkHead f.s f.p 2 0xC7 f.d.toNat, f.tail⟩
  | .tqryT2 f => some ⟨mkHead f.s f.p 1 0xC8 f.d.toNat, f.tail⟩
  | .tqryT4 f => some ⟨mkHead f.s f.p 2 0xC8 f.d.toNat, f.tail⟩
  | .qpushT2 f => some ⟨mkHead f.s f.p 1 0xC9 f.d.toNat, f.tail⟩
  | .qpushT4 f => some ⟨mkHead f.s f.p 2 0xC9 f.d.toNat, f.tail⟩
  | .qpopT2 f => some ⟨mkHead f.s f.p 1 0xCA f.d.toNat, f.tail⟩
  | .qpopT4 f => some ⟨mkHead f.s f.p 2 0xCA f.d.toNat, f.tail⟩
  | .qstatT2 f => some ⟨mkHead f.s f.p 1 0xCB f.d.toNat, f.tail⟩
  | .qstatT4 f => some ⟨mkHead f.s f.p 2 0xCB f.d.toNat, f.tail⟩
  | .spld f => some ⟨mkHead f.s f.p 2 0xD0 f.d.toNat, f.tail⟩
  | .spst f => some ⟨mkHead f.s f.p 2 0xD1 f.d.toNat, f.tail⟩
  | .spupT0 f => some ⟨mkHead f.s f.p 0 0xD2 f.d.toNat, 0⟩
  | .spupT4 f => some ⟨mkHead f.s f.p 2 0xD2 f.d.toNat, f.tail⟩
  | .spdnT0 f => some ⟨mkHead f.s f.p 0 0xD3 f.d.toNat, 0⟩
  | .spdnT4 f => some ⟨mkHead f.s f.p 2 0xD3 f.d.toNat, f.tail⟩
  | .spmaxT0 f => some ⟨mkHead f.s f.p 0 0xD4 f.d.toNat, 0⟩
  | .spmaxT4 f => some ⟨mkHead f.s f.p 2 0xD4 f.d.toNat, f.tail⟩
  | .spcvt f => some ⟨mkHead f.s f.p 2 0xD5 f.d.toNat, f.tail⟩
  | .spclr f => some ⟨mkHead f.s f.p 2 0xD6 f.d.toNat, f.tail⟩
  | .spwld f => some ⟨mkHead f.s f.p 2 0xD7 f.d.toNat, f.tail⟩
  | .spgst f => some ⟨mkHead f.s f.p 2 0xD8 f.d.toNat, f.tail⟩
  | .spstatT2 f => some ⟨mkHead f.s f.p 1 0xD9 f.d.toNat, f.tail⟩
  | .spstatT4 f => some ⟨mkHead f.s f.p 2 0xD9 f.d.toNat, f.tail⟩
  | .lcopy f => some ⟨mkHead f.s f.p 2 0xE0 f.d.toNat, f.tail⟩
  | .lfill f => some ⟨mkHead f.s f.p 2 0xE1 f.d.toNat, f.tail⟩
  | .lcancelT2 f => some ⟨mkHead f.s f.p 1 0xE2 f.d.toNat, f.tail⟩
  | .lcancelT4 f => some ⟨mkHead f.s f.p 2 0xE2 f.d.toNat, f.tail⟩
  | .lstatT2 f => some ⟨mkHead f.s f.p 1 0xE3 f.d.toNat, f.tail⟩
  | .lstatT4 f => some ⟨mkHead f.s f.p 2 0xE3 f.d.toNat, f.tail⟩
  | .prred f => some ⟨mkHead f.s f.p 2 0xE4 f.d.toNat, f.tail⟩
  | .prbc f => some ⟨mkHead f.s f.p 2 0xE5 f.d.toNat, f.tail⟩
  | .prar f => some ⟨mkHead f.s f.p 2 0xE6 f.d.toNat, f.tail⟩
  | .prag f => some ⟨mkHead f.s f.p 2 0xE7 f.d.toNat, f.tail⟩
  | .nsendT2 f => some ⟨mkHead f.s f.p 1 0xE8 f.d.toNat, f.tail⟩
  | .nsendT4 f => some ⟨mkHead f.s f.p 2 0xE8 f.d.toNat, f.tail⟩
  | .npostT2 f => some ⟨mkHead f.s f.p 1 0xE9 f.d.toNat, f.tail⟩
  | .npostT4 f => some ⟨mkHead f.s f.p 2 0xE9 f.d.toNat, f.tail⟩
  | .rwriteT2 f => some ⟨mkHead f.s f.p 1 0xEA f.d.toNat, f.tail⟩
  | .rwriteT4 f => some ⟨mkHead f.s f.p 2 0xEA f.d.toNat, f.tail⟩
  | .rreadT2 f => some ⟨mkHead f.s f.p 1 0xEB f.d.toNat, f.tail⟩
  | .rreadT4 f => some ⟨mkHead f.s f.p 2 0xEB f.d.toNat, f.tail⟩
  | .ccwaitT2 f => some ⟨mkHead f.s f.p 1 0xEC f.d.toNat, f.tail⟩
  | .ccwaitT4 f => some ⟨mkHead f.s f.p 2 0xEC f.d.toNat, f.tail⟩
  | .ccrdT2 f => some ⟨mkHead f.s f.p 1 0xED f.d.toNat, f.tail⟩
  | .ccrdT4 f => some ⟨mkHead f.s f.p 2 0xED f.d.toNat, f.tail⟩
  | .ccsetT2 f => some ⟨mkHead f.s f.p 1 0xEE f.d.toNat, f.tail⟩
  | .ccsetT4 f => some ⟨mkHead f.s f.p 2 0xEE f.d.toNat, f.tail⟩
  | .nstatT0 f => some ⟨mkHead f.s f.p 0 0xEF f.d.toNat, 0⟩
  | .nstatT4 f => some ⟨mkHead f.s f.p 2 0xEF f.d.toNat, f.tail⟩
  | .walkT2 f => some ⟨mkHead f.s f.p 1 0xF0 f.d.toNat, f.tail⟩
  | .walkT4 f => some ⟨mkHead f.s f.p 2 0xF0 f.d.toNat, f.tail⟩
  | .openT2 f => some ⟨mkHead f.s f.p 1 0xF1 f.d.toNat, f.tail⟩
  | .openT4 f => some ⟨mkHead f.s f.p 2 0xF1 f.d.toNat, f.tail⟩
  | .closeT2 f => some ⟨mkHead f.s f.p 1 0xF2 f.d.toNat, f.tail⟩
  | .closeT4 f => some ⟨mkHead f.s f.p 2 0xF2 f.d.toNat, f.tail⟩
  | .bind f => some ⟨mkHead f.s f.p 2 0xF3 f.d.toNat, f.tail⟩
  | .unbindT2 f => some ⟨mkHead f.s f.p 1 0xF4 f.d.toNat, f.tail⟩
  | .unbindT4 f => some ⟨mkHead f.s f.p 2 0xF4 f.d.toNat, f.tail⟩
  | .revokeT2 f => some ⟨mkHead f.s f.p 1 0xF5 f.d.toNat, f.tail⟩
  | .revokeT4 f => some ⟨mkHead f.s f.p 2 0xF5 f.d.toNat, f.tail⟩
  | .csrrT2 f => some ⟨mkHead f.s f.p 1 0xF6 f.d.toNat, f.tail⟩
  | .csrrT4 f => some ⟨mkHead f.s f.p 2 0xF6 f.d.toNat, f.tail⟩
  | .csrwT2 f => some ⟨mkHead f.s f.p 1 0xF7 f.d.toNat, f.tail⟩
  | .csrwT4 f => some ⟨mkHead f.s f.p 2 0xF7 f.d.toNat, f.tail⟩
  | .tretT2 f => some ⟨mkHead f.s f.p 1 0xF8 f.d.toNat, f.tail⟩
  | .tretT4 f => some ⟨mkHead f.s f.p 2 0xF8 f.d.toNat, f.tail⟩
  | .pmackT2 f => some ⟨mkHead f.s f.p 1 0xF9 f.d.toNat, f.tail⟩
  | .pmackT4 f => some ⟨mkHead f.s f.p 2 0xF9 f.d.toNat, f.tail⟩
  | .tshootT2 f => some ⟨mkHead f.s f.p 1 0xFA f.d.toNat, f.tail⟩
  | .tshootT4 f => some ⟨mkHead f.s f.p 2 0xFA f.d.toNat, f.tail⟩
  | .sstop f => some ⟨mkHead f.s f.p 2 0xFB f.d.toNat, f.tail⟩
  | .partwT2 f => some ⟨mkHead f.s f.p 1 0xFC f.d.toNat, f.tail⟩
  | .partwT4 f => some ⟨mkHead f.s f.p 2 0xFC f.d.toNat, f.tail⟩
  | .haltT0 f => some ⟨mkHead f.s f.p 0 0xFD f.d.toNat, 0⟩
  | .haltT4 f => some ⟨mkHead f.s f.p 2 0xFD f.d.toNat, f.tail⟩
  | .attqT2 f => some ⟨mkHead f.s f.p 1 0xFE f.d.toNat, f.tail⟩
  | .attqT4 f => some ⟨mkHead f.s f.p 2 0xFE f.d.toNat, f.tail⟩
  | .reservedOpcode f => some ⟨mkHead f.s f.p f.tl.toNat f.op.toNat f.d.toNat, f.tail.toNat⟩
  | .illegalOpcodeFf f => some ⟨mkHead f.s f.p f.tl.toNat f.op.toNat f.d.toNat, f.tail.toNat⟩
  | .groupCommit _ _ _ => none
  | .commitStep5Resume _ _ => none
  | .resultReturn _ _ _ => none
  | .lineFetch _ _ => none
  | .messageDelivery _ => none
  | .handlerMessageArrival _ => none
  | .handlerEntryTimeout _ _ => none
  | .slotRotationStart _ => none
  | .channelDry _ _ => none
  | .loadReadStep _ _ _ => none
  | .writePerform _ _ _ => none
  | .homeApply _ => none
  | .atomicStep _ _ _ => none
  | .frontierPropagation _ => none
  | .extentAllocationWake _ _ _ _ => none
  | .heatSweep => none
  | .extentMove _ _ _ => none
  | .weightRefreshWindow => none
  | .scrubExtentClear _ _ => none
  | .vectorOpStart _ _ => none
  | .vectorOpRetire _ _ => none
  | .tileZeroFillEnd _ _ => none
  | .tileTaskAccept _ => none
  | .tileTaskStart _ _ _ => none
  | .tileTaskComplete _ _ _ => none
  | .trellisAccept _ => none
  | .trellisCommandStart _ _ _ => none
  | .trellisCommandRetire _ _ _ => none
  | .trellisImageSwap _ _ => none
  | .ladleChunk _ _ => none
  | .pressChunk _ _ => none
  | .netPacketSend _ _ _ _ => none
  | .netPacketArrival _ _ => none
  | .netAckArrival _ _ => none
  | .netResendTimeout _ _ _ _ => none
  | .netUnmatchedRetry _ _ _ => none
  | .completionCounterStep _ => none
  | .placerPass _ => none
  | .launchEnd _ => none
  | .stealRequest _ => none
  | .stealAnswer _ => none
  | .stealBackoffExpiry _ => none
  | .migrationArrival _ => none
  | .nseAnswer _ => none
  | .shootdownReceipt _ _ => none
  | .shootdownAck _ _ => none
  | .frameWalk _ => none
  | .frameOpen _ => none
  | .frameRead _ => none
  | .frameWrite _ => none
  | .frameMake _ => none
  | .frameClose _ => none
  | .frameRevoke _ => none
  | .frameBind _ => none
  | .frameUnbind _ => none
  | .contextCreate _ _ => none
  | .contextEnd _ => none
  | .queueGo _ _ => none
  | .queueCtlWrite _ _ _ _ => none
  | .queueHeaderRead _ => none
  | .packetParse _ => none
  | .pktLaunch _ => none
  | .pktGlaunch _ => none
  | .pktWait _ => none
  | .pktSignal _ => none
  | .pktCopy _ => none
  | .pktIb _ => none
  | .pktReplay _ => none
  | .pktBind _ => none
  | .pktNop _ => none
  | .ibGranuleFetch _ => none
  | .parserCoreFault _ => none
  | .supervisorMismatch => none
  | .supervisorCheckpoint => none
  | .setPartition _ => none
  | .removePartition _ => none
  | .activateFirmware _ _ _ => none
  | .sliceExpiry _ => none
  | .stopAnnouncement _ => none
  | .syncStop _ => none
  | .flushToken _ _ => none
  | .partitionSave _ _ => none
  | .partitionRestore _ _ => none
  | .partitionResume _ => none
  | .graderSignature _ _ _ _ => none
  | .fallowLeaseStart _ => none
  | .fallowLeaseEnd _ _ => none
  | .channelLeaseWaitRecord _ => none
  | .scoreDecay _ => none
  | .pmackDeadlineExpiry _ => none
  | .duoVote _ _ => none
  | .duoThirdCopy _ _ => none
  | .quoteSign => none
  | .powerOnBoot _ _ => none
  | .mgmtRead _ _ _ => none
  | .packageReset => none
  | .thermalHoldEnter => none
  | .thermalHoldExit => none
  | .thermalShutdown => none
  | .ladleRequestAccept _ => none
  | .pressCommandAccept _ => none
  | .netRequestAccept _ => none
  | .powerLoss _ => none

/-! ### Lines (R41, R42) -/

/-- The bytes of a list from `o`, little-endian, as a number (R3). -/
def leNat : List Byte → Nat
  | [] => 0
  | b :: t => b.toNat + 256 * leNat t

/-- `n` bytes of a number, little-endian. -/
def leBytes : Nat → Nat → List Byte
  | 0, _ => []
  | n + 1, v => BitVec.ofNat 8 v :: leBytes n (v / 256)

/-- `n` bytes of a list from offset `o`, as a number; bytes beyond its end read as zero. -/
def leAt (l : List Byte) (o n : Nat) : Nat := leNat ((l.drop o).take n)

/-- The tail length of a head in bytes: 0, 2, 4 or 8 (R41). -/
def tlBytes (h : Nat) : Nat :=
  match h / 4096 % 4 with
  | 0 => 0
  | 1 => 2
  | 2 => 4
  | _ => 8

/-- Head `k` of a line and T(k); none when head `k` is not valid. `f` bounds the scan. -/
def headScan (line : List Byte) : Nat → Nat → Nat → Option (Nat × Nat)
  | 0, _, _ => none
  | f + 1, k, tsum =>
    let j := 32 - (f + 1)
    let h := leAt line (2 * j) 2
    let t := tsum + tlBytes h
    if 2 * (j + 1) + t > 64 then none
    else if j = k then some (h, t)
    else headScan line f k t

/-- Head `k` of a line and the number of tail bytes up to it (R41); none for a head that is not valid. -/
def headAt (line : List Byte) (k : Nat) : Option (Nat × Nat) := headScan line 32 k 0

/-- The head word and the tail of head `k` (R41). -/
def encAt (line : List Byte) (k : Nat) : Option Enc :=
  match headAt line k with
  | none => none
  | some (h, t) => some ⟨h, leAt line (64 - t) (tlBytes h)⟩

/-- The first head at or after `k` that is not a filler, or none when the line ends first (R42). -/
def skipFillers (line : List Byte) : Nat → Nat → Option Nat
  | 0, _ => none
  | f + 1, k =>
    match headAt line k with
    | none => none
    | some (h, _) => if h = 0 then skipFillers line f (k + 1) else some k

/-- The bytes of a line that holds one instruction as its head 0. -/
def lineOf (h t : Nat) : List Byte :=
  let n := tlBytes h
  leBytes 2 h ++ List.replicate (62 - n) 0#8 ++ leBytes n t

/-- The instruction that the decoder reads from a word numbered as the table numbers it: the head in the
upper 16 bits and the tail below it; a word of 16 bits is a head whose tail is zero. -/
noncomputable def decodeTableWord (nbits w : Nat) : Option Instr :=
  let e : Enc :=
    if nbits ≤ 16 then ⟨w % 2 ^ 16, 0⟩
    else ⟨w / 2 ^ (nbits - 16) % 2 ^ 16, w % 2 ^ (nbits - 16)⟩
  match encAt (lineOf e.head e.tail) 0 with
  | none => none
  | some x =>
    match decode x.head x.tail with
    | .ok i => some i
    | .error _ => none

end Sys2Proof
end

