-- ==== Sys2Proof/Machine/Flags.lean ====
section
/-! DEFINITION. The flag bits of FXF, VXF and VXE (R68, R69) and the rounding modes (R66). -/

namespace Sys2Proof.Machine

/-- Inexact. -/
def flNX : Nat := 0x1
/-- Underflow. -/
def flUF : Nat := 0x2
/-- Overflow. -/
def flOF : Nat := 0x4
/-- Division by zero. -/
def flDZ : Nat := 0x8
/-- Invalid operation. -/
def flNV : Nat := 0x10
/-- Reserved SP32 word read. -/
def flSPRZ : Nat := 0x100
/-- SP32 result flushed to zero. -/
def flSPUN : Nat := 0x200
/-- SP32 result saturated. -/
def flSPOV : Nat := 0x400
/-- Negative or NaN value converted to SP32. -/
def flSPIN : Nat := 0x800
/-- T8 encode outside the table's finite range. -/
def flT8SAT : Nat := 0x1000
/-- NaN encoded to T8 through a table without a NaN code. -/
def flT8N : Nat := 0x2000
/-- Illegal TERN5 byte met. -/
def flILLC : Nat := 0x10000

/-- The writable bits of FXF: ILLC is reserved there (R68). -/
def fxfMask : Nat := 0x3F1F
/-- The writable bits of VXF (R68). -/
def vxfMask : Nat := 0x13F1F
/-- The writable bits of VXE: ILLC and SPOV (R69). -/
def vxeMask : Nat := 0x10400

/-- A rounding mode of FRM (R66). -/
inductive RM where
  | rne
  | rz
  | ru
  | rd
  deriving DecidableEq, Repr

/-- The mode that FRM's RM field codes (R66). -/
def RM.of (n : Nat) : RM :=
  match n % 4 with
  | 0 => .rne
  | 1 => .rz
  | 2 => .ru
  | _ => .rd

/-- Flag bits joined: a flag once set stays set (R68). -/
def flOr (a b : Nat) : Nat := a ||| b

/-- A flag bit is set. -/
def flHas (f k : Nat) : Bool := (f &&& k) != 0

/-- Flag bits ORed into a flag register. -/
def flInto (r : Word) (f : Nat) : Word := r ||| BitVec.ofNat 64 f

end Sys2Proof.Machine
end

