-- ==== Sys2Proof/Machine/Numbers.lean ====
section
/-! DEFINITION. The number formats and their arithmetic (R62 to R91): exact values, one rounding, flags,
conversions, SP32, T8, block scaling, TERN5 and the orders of summation. -/

namespace Sys2Proof.Machine

/-! ### Exact values -/

/-- An exact real, an infinity or a NaN. A finite value is (−1)^neg × m × 2^e; with `st` set its magnitude
lies strictly between m × 2^e and (m + 1) × 2^e. -/
inductive Num where
  | nan (sig : Bool)
  | inf (neg : Bool)
  | fin (neg : Bool) (m : Nat) (e : Int) (st : Bool)
  deriving DecidableEq, Repr

/-- The magnitude of a number. -/
def Num.magnitude : Num → Num
  | .nan sig => .nan sig
  | .inf _ => .inf false
  | .fin _ m e st => .fin false m e st

/-- The zero of a sign. -/
def Num.zero (neg : Bool) : Num := .fin neg 0 0 false

/-- The value of an integer. -/
def Num.ofInt (i : Int) : Num := .fin (decide (i < 0)) i.natAbs 0 false

/-- A NaN. -/
def Num.isNaN : Num → Bool
  | .nan _ => true
  | _ => false

/-- A signalling NaN. -/
def Num.isSNaN : Num → Bool
  | .nan s => s
  | _ => false

/-- A zero. -/
def Num.isZero : Num → Bool
  | .fin _ m _ st => m == 0 && !st
  | _ => false

/-- The sign of a value, false for a NaN. -/
def Num.sign : Num → Bool
  | .nan _ => false
  | .inf n => n
  | .fin n _ _ _ => n

/-- The value with its sign flipped. -/
def Num.neg : Num → Num
  | .nan s => .nan s
  | .inf n => .inf (!n)
  | .fin n m e st => .fin (!n) m e st

/-- The mantissa of a value moved to exponent `e`, for `e` at most its own. -/
def scaleTo (m : Nat) (e0 e : Int) : Nat := m * 2 ^ (e0 - e).toNat

/-- The signed integer n with value = n × 2^e, for an exact finite value and an exponent not above its own. -/
def signedAt (neg : Bool) (m : Nat) (e0 e : Int) : Int :=
  if neg then -(Int.ofNat (scaleTo m e0 e)) else Int.ofNat (scaleTo m e0 e)

/-- Exact comparison of two finite values: −1, 0 or 1 in an Int. -/
def cmpFin (n1 : Bool) (m1 : Nat) (e1 : Int) (n2 : Bool) (m2 : Nat) (e2 : Int) : Int :=
  let e := min e1 e2
  (signedAt n1 m1 e1 e - signedAt n2 m2 e2 e).sign

/-- The order of two values that are no NaN; −0 and +0 compare equal. -/
def Num.cmp : Num → Num → Int
  | .fin n1 m1 e1 _, .fin n2 m2 e2 _ => cmpFin n1 m1 e1 n2 m2 e2
  | .inf n1, .inf n2 => if n1 == n2 then 0 else if n1 then -1 else 1
  | .inf n1, _ => if n1 then -1 else 1
  | _, .inf n2 => if n2 then 1 else -1
  | _, _ => 0

/-- The floor of a square root, bit by bit from bit `k`. -/
def isqrtGo (n : Nat) : Nat → Nat → Nat
  | 0, r => r
  | k + 1, r =>
    let r' := r + 2 ^ k
    isqrtGo n k (if r' * r' ≤ n then r' else r)

/-- The floor of a square root. -/
def isqrt (n : Nat) : Nat := isqrtGo n (n.log2 / 2 + 1) 0

/-! ### IEEE formats (R65) -/

/-- A floating format: exponent bits and fraction bits. -/
structure Fmt where
  eb : Nat
  fb : Nat
  deriving DecidableEq, Repr

def fmtF16 : Fmt := ⟨5, 10⟩
def fmtBF16 : Fmt := ⟨8, 7⟩
def fmtK19 : Fmt := ⟨8, 10⟩
def fmtF32 : Fmt := ⟨8, 23⟩
def fmtF64 : Fmt := ⟨11, 52⟩

/-- The exponent bias. -/
def Fmt.bias (f : Fmt) : Nat := 2 ^ (f.eb - 1) - 1
/-- The least exponent of a normal value. -/
def Fmt.emin (f : Fmt) : Int := 1 - (f.bias : Int)
/-- The width of a word of the format. -/
def Fmt.width (f : Fmt) : Nat := 1 + f.eb + f.fb
/-- The biased exponent of infinities and NaNs. -/
def Fmt.emax (f : Fmt) : Nat := 2 ^ f.eb - 1
/-- The sign bit in place. -/
def Fmt.signBit (f : Fmt) (neg : Bool) : Nat := if neg then 2 ^ (f.eb + f.fb) else 0
/-- The canonical NaN (R65). -/
def Fmt.qnan (f : Fmt) : Nat := f.emax * 2 ^ f.fb + 2 ^ (f.fb - 1)
/-- An infinity. -/
def Fmt.infinity (f : Fmt) (neg : Bool) : Nat := f.signBit neg + f.emax * 2 ^ f.fb
/-- The largest finite value of a sign. -/
def Fmt.largest (f : Fmt) (neg : Bool) : Nat := f.signBit neg + (f.emax * 2 ^ f.fb - 1)

/-- The value of a word (R65). -/
def Fmt.decode (f : Fmt) (w : Nat) : Num :=
  let neg := decide (w / 2 ^ (f.eb + f.fb) % 2 = 1)
  let ex := w / 2 ^ f.fb % 2 ^ f.eb
  let fr := w % 2 ^ f.fb
  if ex = f.emax then
    (if fr = 0 then .inf neg else .nan (decide (fr < 2 ^ (f.fb - 1))))
  else if ex = 0 then .fin neg fr (f.emin - f.fb) false
  else .fin neg (fr + 2 ^ f.fb) ((ex : Int) - f.bias - f.fb) false

/-- A word is a non-zero subnormal of its format. -/
def Fmt.subnormal (f : Fmt) (w : Nat) : Bool :=
  w / 2 ^ f.fb % 2 ^ f.eb == 0 && w % 2 ^ f.fb != 0

/-- Whether rounding m + rest goes up: `rem` of `2^sh` parts is cut off, `st` marks more below. -/
def roundUp (rm : RM) (neg : Bool) (m rem sh : Nat) (st : Bool) : Bool :=
  match rm with
  | .rne => decide (2 * rem > 2 ^ sh) || (decide (2 * rem = 2 ^ sh) && (st || m % 2 == 1))
  | .rz => false
  | .ru => !neg && (rem != 0 || st)
  | .rd => neg && (rem != 0 || st)

/-- A mantissa cut at exponent `q` and rounded, and whether that was inexact. -/
def roundAt (rm : RM) (neg : Bool) (m : Nat) (e q : Int) (st : Bool) : Nat × Bool :=
  if q ≤ e then (m * 2 ^ (e - q).toNat + (if roundUp rm neg 0 0 1 st && st then 1 else 0), st)
  else
    let sh := (q - e).toNat
    let t := m / 2 ^ sh
    let rem := m % 2 ^ sh
    (if roundUp rm neg t rem sh st then t + 1 else t, rem != 0 || st)

/-- The result of an overflow under a rounding mode (R67). -/
def overflowWord (f : Fmt) (rm : RM) (neg : Bool) : Nat :=
  match rm with
  | .rne => f.infinity neg
  | .rz => f.largest neg
  | .ru => if neg then f.largest neg else f.infinity neg
  | .rd => if neg then f.infinity neg else f.largest neg

/-- Round(fmt, x) with its flags (R8, R67): tininess is detected after rounding, and UF is set only when
the result is tiny and inexact. -/
def Fmt.round (f : Fmt) (rm : RM) (x : Num) : Nat × Nat :=
  match x with
  | .nan _ => (f.qnan, 0)
  | .inf neg => (f.infinity neg, 0)
  | .fin neg m e st =>
    if m = 0 then (f.signBit neg, 0)
    else
      let top : Int := (m.log2 : Int) + e
      let q := max (top - f.fb) (f.emin - f.fb)
      let (t, inex) := roundAt rm neg m e q st
      let tiny : Bool :=
        decide (top < f.emin) &&
          (decide (top < f.emin - 1) || decide ((roundAt rm neg m e (top - f.fb) st).1 < 2 ^ (f.fb + 1)))
      let (t, q) := if t = 2 ^ (f.fb + 1) then (2 ^ f.fb, q + 1) else (t, q)
      if t < 2 ^ f.fb then
        (f.signBit neg + t, (if inex then flNX else 0) ||| (if inex && tiny then flUF else 0))
      else
        let ex := q + f.fb + f.bias
        if ex ≥ f.emax then (overflowWord f rm neg, flOF ||| flNX)
        else
          (f.signBit neg + ex.toNat * 2 ^ f.fb + (t - 2 ^ f.fb),
            (if inex then flNX else 0) ||| (if inex && tiny then flUF else 0))

/-! ### Exact operations (R67, R180) -/

/-- The flag of a signalling NaN operand (R67). -/
def snanFlag (a b : Num) : Nat := if a.isSNaN || b.isSNaN then flNV else 0

/-- The sign of an exact zero sum of values that are not zeros of one sign (R180). -/
def zeroSign (rm : RM) : Bool := rm == .rd

/-- a + b exactly, with the sign of a zero sum (R180). -/
def Num.add (rm : RM) (a b : Num) : Num × Nat :=
  match a, b with
  | .nan s, b => (.nan false, if s || b.isSNaN then flNV else 0)
  | a, .nan s => (.nan false, if s || a.isSNaN then flNV else 0)
  | .inf x, .inf y => if x == y then (.inf x, 0) else (.nan false, flNV)
  | .inf x, _ => (.inf x, 0)
  | _, .inf y => (.inf y, 0)
  | .fin n1 m1 e1 s1, .fin n2 m2 e2 s2 =>
    if m1 = 0 && m2 = 0 then (.zero (if n1 == n2 then n1 else zeroSign rm), 0)
    else
      let e := min e1 e2
      let v := signedAt n1 m1 e1 e + signedAt n2 m2 e2 e
      if v = 0 then (.zero (zeroSign rm), 0)
      else (.fin (decide (v < 0)) v.natAbs e (s1 || s2), 0)

/-- a × b exactly. -/
def Num.mul (a b : Num) : Num × Nat :=
  match a, b with
  | .nan s, b => (.nan false, if s || b.isSNaN then flNV else 0)
  | a, .nan s => (.nan false, if s || a.isSNaN then flNV else 0)
  | .inf x, b => if b.isZero then (.nan false, flNV) else (.inf (x != b.sign), 0)
  | a, .inf y => if a.isZero then (.nan false, flNV) else (.inf (a.sign != y), 0)
  | .fin n1 m1 e1 s1, .fin n2 m2 e2 s2 => (.fin (n1 != n2) (m1 * m2) (e1 + e2) (s1 || s2), 0)

/-- How many bits a quotient, a root or a power is worked out to before its one rounding. -/
def workBits : Nat := 160

/-- a ÷ b, cut to enough bits with the rest marked. -/
def Num.div (a b : Num) : Num × Nat :=
  match a, b with
  | .nan s, b => (.nan false, if s || b.isSNaN then flNV else 0)
  | a, .nan s => (.nan false, if s || a.isSNaN then flNV else 0)
  | .inf _, .inf _ => (.nan false, flNV)
  | .inf x, b => (.inf (x != b.sign), 0)
  | a, .inf y => (.zero (a.sign != y), 0)
  | .fin n1 m1 e1 _, .fin n2 m2 e2 _ =>
    if m2 = 0 then (if m1 = 0 then (.nan false, flNV) else (.inf (n1 != n2), flDZ))
    else if m1 = 0 then (.zero (n1 != n2), 0)
    else
      let k := workBits + m2.log2
      let q := m1 * 2 ^ k / m2
      (.fin (n1 != n2) q (e1 - e2 - k) (m1 * 2 ^ k % m2 != 0), 0)

/-- The square root (R180). -/
def Num.sqrt (a : Num) : Num × Nat :=
  match a with
  | .nan s => (.nan false, if s then flNV else 0)
  | .inf neg => if neg then (.nan false, flNV) else (.inf false, 0)
  | .fin neg m e _ =>
    if m = 0 then (.zero neg, 0)
    else if neg then (.nan false, flNV)
    else
      let k : Nat := 2 * workBits + (if (e - 2 * workBits) % 2 = 0 then 0 else 1)
      let n := m * 2 ^ k
      let r := isqrt n
      (.fin false r ((e - k) / 2) (r * r != n), 0)

/-- 1 ÷ sqrt(a) (R192). -/
def Num.rsqrt (a : Num) : Num × Nat :=
  match a with
  | .nan s => (.nan false, if s then flNV else 0)
  | .inf neg => if neg then (.nan false, flNV) else (.zero false, 0)
  | .fin neg m e _ =>
    if m = 0 then (.inf neg, flDZ)
    else if neg then (.nan false, flNV)
    else
      let k0 : Nat := 2 * workBits + m.log2
      let k : Nat := k0 + (if (-e - (k0 : Int)) % 2 = 0 then 0 else 1)
      let y := 2 ^ k / m
      let r := isqrt y
      (.fin false r ((-e - k) / 2) (r * r != y || 2 ^ k % m != 0), 0)

/-- Fixed point of `fxBits` bits for powers of two. -/
def fxBits : Nat := 320

/-- The product of the roots 2^(2^-i) that the fraction bits of `f` name, from bit `i`; `k` bits remain. -/
def exp2Go (f : Nat) : Nat → Nat → Nat → Nat
  | 0, _, acc => acc
  | k + 1, root, acc =>
    let root := isqrt (root * 2 ^ fxBits)
    exp2Go f k root (if f / 2 ^ k % 2 = 1 then acc * root / 2 ^ fxBits else acc)

/-- 2^a (R192). -/
def Num.exp2 (a : Num) : Num × Nat :=
  match a with
  | .nan s => (.nan false, if s then flNV else 0)
  | .inf neg => if neg then (.zero false, 0) else (.inf false, 0)
  | .fin neg m e _ =>
    if m = 0 then (.fin false 1 0 false, 0)
    else if (m.log2 : Int) + e ≥ 14 then
      (.fin false 1 (if neg then -(2 ^ 20) else 2 ^ 20) true, 0)
    else
      let k := (-e).toNat
      let v := signedAt neg m e (min e 0)
      let whole := v / 2 ^ k
      let frac := (v % 2 ^ k).toNat
      if frac = 0 then (.fin false 1 whole false, 0)
      else (.fin false (exp2Go frac k (2 ^ (fxBits + 1)) (2 ^ fxBits)) (whole - fxBits) true, 0)

/-- Fixed point of `lgBits` bits for logarithms. -/
def lgBits : Nat := 560

/-- The next bits of a binary logarithm by repeated squaring. -/
def log2Go : Nat → Nat → Nat → Nat
  | 0, _, acc => acc
  | k + 1, x, acc =>
    let y := x * x / 2 ^ lgBits
    if y ≥ 2 ^ (lgBits + 1) then log2Go k (y / 2) (2 * acc + 1) else log2Go k y (2 * acc)

/-- log2 a (R192). -/
def Num.lg (a : Num) : Num × Nat :=
  match a with
  | .nan s => (.nan false, if s then flNV else 0)
  | .inf neg => if neg then (.nan false, flNV) else (.inf false, 0)
  | .fin neg m e _ =>
    if m = 0 then (.inf true, flDZ)
    else if neg then (.nan false, flNV)
    else
      let whole : Int := (m.log2 : Int) + e
      if m = 2 ^ m.log2 then
        (if whole = 0 then (.zero false, 0) else (.fin (decide (whole < 0)) whole.natAbs 0 false, 0))
      else
        let fr := log2Go 220 (m * 2 ^ lgBits / 2 ^ m.log2) 0
        let v : Int := whole * 2 ^ 220 + fr
        if v < 0 then (.fin true (v + 1).natAbs (-220) true, 0) else (.fin false v.natAbs (-220) true, 0)

/-- The lesser or the greater of two values: −0 below +0, and a NaN gives the other operand (R67). -/
def Num.pick (wantMax : Bool) (a b : Num) : Num × Nat :=
  let fl := snanFlag a b
  if a.isNaN && b.isNaN then (.nan false, fl)
  else if a.isNaN then (b, fl)
  else if b.isNaN then (a, fl)
  else
    let c := a.cmp b
    let aLess := decide (c < 0) || (decide (c = 0) && a.sign && !b.sign)
    let bLess := decide (c > 0) || (decide (c = 0) && b.sign && !a.sign)
    (if wantMax then (if aLess then b else a) else (if bLess then b else a), fl)

/-- A two-operand operation rounded once, with its flags. -/
def Fmt.op2 (f : Fmt) (rm : RM) (r : Num × Nat) : Nat × Nat :=
  let (w, fl) := f.round rm r.1
  (w, r.2 ||| fl)

/-- min or max of two words; the chosen operand passes unchanged unless it is a NaN (R67). -/
def Fmt.minmax (f : Fmt) (wantMax : Bool) (a b : Nat) : Nat × Nat :=
  f.op2 .rne (Num.pick wantMax (f.decode a) (f.decode b))

/-- The condition of a floating compare and NV (R181): 0 eq, 1 ne, 2 lt, 3 le, 4 un. -/
def fcmp (cond : Nat) (a b : Num) : Bool × Nat :=
  let un := a.isNaN || b.isNaN
  let c := a.cmp b
  let nv := if cond == 2 || cond == 3 then un else a.isSNaN || b.isSNaN
  let r := match cond with
    | 0 => !un && decide (c = 0)
    | 1 => un || decide (c ≠ 0)
    | 2 => !un && decide (c < 0)
    | 3 => !un && decide (c ≤ 0)
    | _ => un
  (r, if nv then flNV else 0)

/-! ### Integers -/

/-- An unsigned word read as two's complement of `w` bits (R7). -/
def sgn (w n : Nat) : Int :=
  let n := n % 2 ^ w
  if n < 2 ^ (w - 1) then (n : Int) else (n : Int) - 2 ^ w

/-- The low `w` bits of an integer. -/
def wrap (w : Nat) (i : Int) : Nat := (i % 2 ^ w).toNat

/-- A value rounded to an integer under `rm`, and whether that was inexact (R70). -/
def roundInt (rm : RM) (neg : Bool) (m : Nat) (e : Int) (st : Bool) : Int × Bool :=
  let (t, inex) := roundAt rm neg m e 0 st
  (if neg then -(t : Int) else t, inex)

/-- A value clamped to [lo, hi]. -/
def clampInt (lo hi i : Int) : Int × Bool :=
  if i < lo then (lo, true) else if i > hi then (hi, true) else (i, false)

/-- The range of an integer format of `w` bits. -/
def intRange (signed : Bool) (w : Nat) : Int × Int :=
  if signed then (-(2 ^ (w - 1)), 2 ^ (w - 1) - 1) else (0, 2 ^ w - 1)

/-- Floating to integer: rounds, saturates with NV, a NaN gives 0 with NV, NX when inexact in range (R70). -/
def toInt (rm : RM) (signed : Bool) (w : Nat) (x : Num) : Int × Nat :=
  let (lo, hi) := intRange signed w
  match x with
  | .nan _ => (0, flNV)
  | .inf neg => (if neg then lo else hi, flNV)
  | .fin neg m e st =>
    let (i, inex) := roundInt rm neg m e st
    let (c, sat) := clampInt lo hi i
    (c, if sat then flNV else if inex then flNX else 0)

/-! ### SP32 (R81 to R83) -/

/-- The value of an SP32 word; a reserved word reads as zero and sets SPRZ (R81). -/
def sp32Decode (w : Nat) : Num × Nat :=
  let ex : Nat := w / 2 ^ 20 % 2 ^ 12
  let fr := w % 2 ^ 20
  if ex = 0 then (.zero false, if fr = 0 then 0 else flSPRZ)
  else (.fin false (2 ^ 20 + fr) ((ex : Int) - 2048 - 20) false, 0)

/-- SP32Round of an exact non-negative value (R82). -/
def sp32Round (m : Nat) (e : Int) (st : Bool) : Nat × Nat :=
  if m = 0 then (0, 0)
  else
    let top : Int := (m.log2 : Int) + e
    if top < -2048 then (0, flSPUN)
    else if top < -2047 then (0x00100000, 0)
    else
      let (t, _) := roundAt .rne false m e (top - 20) st
      let (t, top) := if t = 2 ^ 21 then (2 ^ 20, top + 1) else (t, top)
      if top > 2047 then (0xFFFFFFFF, flSPOV)
      else ((top + 2048).toNat * 2 ^ 20 + (t - 2 ^ 20), 0)

/-- A value converted to SP32 (R83); a signalling NaN sets NV too (R67). -/
def sp32Of (x : Num) : Nat × Nat :=
  match x with
  | .nan _ => (0, flSPIN ||| if x.isSNaN then flNV else 0)
  | .inf neg => if neg then (0, flSPIN) else (0xFFFFFFFF, flSPOV)
  | .fin neg m e st => if m = 0 then (0, 0) else if neg then (0, flSPIN) else sp32Round m e st

/-! ### T8 (R75 to R78) -/

/-- The value of a decode-table entry: a K19 word is the top 19 bits of an F32 word (R75). -/
def k19Num (w : Nat) : Num := fmtF32.decode (w % 2 ^ 19 * 2 ^ 13)

/-- The F32 word of code `c` (R77). -/
def t8Word (tab : SMap (BitVec 19)) (c : Nat) : Nat := (SMap.get 0#19 (c % 256) tab).toNat * 2 ^ 13

/-- The smallest code, from `c` with `n` codes left, whose entry is a NaN. -/
def t8NaN (tab : SMap (BitVec 19)) : Nat → Nat → Option Nat
  | 0, _ => none
  | n + 1, c => if (k19Num (SMap.get 0#19 c tab).toNat).isNaN then some c else t8NaN tab n (c + 1)

/-- The finite entries of the sorted index: each value with the smallest code that holds it (R78). -/
def t8Finite (tab : SMap (BitVec 19)) : List (Nat × Num) :=
  (List.range 256).filterMap fun c =>
    match k19Num (SMap.get 0#19 c tab).toNat with
    | .fin n m e st => some (c, .fin n m e st)
    | _ => none

/-- Whether |a − x| is less than |b − x| (−1), equal (0) or greater (1), for finite values. -/
def nearer (a b x : Num) : Int :=
  match a, b, x with
  | .fin n1 m1 e1 _, .fin n2 m2 e2 _, .fin n3 m3 e3 _ =>
    let e := min e1 (min e2 e3)
    let x := signedAt n3 m3 e3 e
    (((signedAt n1 m1 e1 e - x).natAbs : Int) - ((signedAt n2 m2 e2 e - x).natAbs : Int)).sign
  | _, _, _ => 0

/-- The better of two codes for x: the nearer value, at a halfway point the smaller code; equal values are
represented by the smaller code. -/
def t8Better (x : Num) (p q : Nat × Num) : Nat × Num :=
  let c := nearer p.2 q.2 x
  if c < 0 then p else if c > 0 then q else if p.1 ≤ q.1 then p else q

/-- The code of the greatest or the least finite value, the smallest code among equals. -/
def t8Edge (wantMax : Bool) (p q : Nat × Num) : Nat × Num :=
  let c := p.2.cmp q.2
  if (if wantMax then c > 0 else c < 0) then p
  else if (if wantMax then c < 0 else c > 0) then q
  else if p.1 ≤ q.1 then p else q

/-- The code of a value and its flags (R78); a signalling NaN sets NV too (R67). -/
def t8Encode (tab : SMap (BitVec 19)) (x : Num) : Nat × Nat :=
  if x.isNaN then
    let nv := if x.isSNaN then flNV else 0
    match t8NaN tab 256 0 with
    | some c => (c, nv)
    | none => (0, flT8N ||| nv)
  else
    match t8Finite tab with
    | [] => (0, flT8SAT)
    | p :: t =>
      let hi := t.foldl (t8Edge true) p
      let lo := t.foldl (t8Edge false) p
      if x.cmp hi.2 > 0 then (hi.1, flT8SAT)
      else if x.cmp lo.2 < 0 then (lo.1, flT8SAT)
      else ((t.foldl (t8Better x) p).1, 0)

/-! ### TERN5 (R84, R85) -/

/-- The digits of a byte by R85, none for an illegal byte. -/
def ternDigits (b : Nat) : Option (List Nat) :=
  if b ≥ 243 then none
  else some [b % 3, b / 3 % 3, b / 9 % 3, b / 27 % 3, b / 81 % 3]

/-- Digit `i` of a byte as a trit, and ILLC for an illegal byte, whose trits are zero (R85). -/
def tern (b i : Nat) : Int × Nat :=
  match ternDigits b with
  | none => (0, flILLC)
  | some ds => ((ds.getD i 1 : Int) - 1, 0)

/-- The byte whose digit `i` holds the trit and whose other digits hold 1 (R84). -/
def ternByte (i : Nat) (t : Int) : Nat := (121 + t * 3 ^ i).toNat

/-! ### Format codes (R62) -/

/-- The codes that name no format. -/
def fmtReserved (f : Nat) : Bool := f == 15 || f ≥ 17

/-- The element size in bytes; TERN5 elements are single bytes where they are accessed one by one (R62). -/
def fmtSize (f : Nat) : Nat :=
  match f with
  | 3 | 4 | 9 | 10 => 2
  | 5 | 6 | 11 | 13 => 4
  | 7 | 8 | 12 => 8
  | _ => 1

/-- The integer formats. -/
def fmtIsInt (f : Nat) : Bool := 1 ≤ f && f ≤ 8

/-- The signed integer formats I8 to I64. -/
def fmtSigned (f : Nat) : Bool := fmtIsInt f && f % 2 == 1

/-- The IEEE formats F16, BF16, F32 and F64. -/
def fmtIsFloat (f : Nat) : Bool := 9 ≤ f && f ≤ 12

/-- The IEEE format of a code. -/
def fmtOf (f : Nat) : Fmt :=
  match f with
  | 9 => fmtF16
  | 10 => fmtBF16
  | 12 => fmtF64
  | _ => fmtF32

/-- The width of an integer format in bits. -/
def fmtBits (f : Nat) : Nat := 8 * fmtSize f

/-- The exact value of an element word and the flags its reading sets (R62, R77, R81). -/
def elemNum (tab : SMap (BitVec 19)) (f : Nat) (w : Nat) : Num × Nat :=
  if fmtIsInt f then (.ofInt (if fmtSigned f then sgn (fmtBits f) w else ((w % 2 ^ fmtBits f : Nat) : Int)), 0)
  else if fmtIsFloat f then ((fmtOf f).decode w, 0)
  else if f == 13 then sp32Decode w
  else if f == 16 then (fmtF32.decode (t8Word tab w), 0)
  else (.ofInt (w : Int), 0)

/-- The integer of an element of an integer format. -/
def elemInt (f w : Nat) : Int :=
  if fmtSigned f then sgn (fmtBits f) w else ((w % 2 ^ fmtBits f : Nat) : Int)

/-- A value × 2^s. -/
def Num.scale (x : Num) (s : Int) : Num :=
  match x with
  | .fin n m e st => .fin n m (e + s) st
  | y => y

/-- A value encoded into format `f` (R70, R78, R83), not from an integer source. -/
def numTo (tab : SMap (BitVec 19)) (f : Nat) (rm : RM) (x : Num) : Nat × Nat :=
  if fmtIsInt f then
    let (i, fl) := toInt rm (fmtSigned f) (fmtBits f) x
    (wrap (fmtBits f) i, fl)
  else if fmtIsFloat f then
    let (w, fl) := (fmtOf f).round rm x
    (w, fl ||| (if x.isSNaN then flNV else 0))
  else if f == 13 then sp32Of x
  else if f == 16 then t8Encode tab x
  else (0, 0)

/-- VCVT and STT between formats: integers to integers wrap (R64), everything else by its value. -/
def convElem (tab : SMap (BitVec 19)) (src dst : Nat) (rm : RM) (w : Nat) : Nat × Nat :=
  if src == dst then (w, 0)
  else if fmtIsInt src && fmtIsInt dst then (wrap (fmtBits dst) (elemInt src w), 0)
  else
    let (x, f1) := elemNum tab src w
    let (r, f2) := numTo tab dst rm x
    (r, f1 ||| f2)

/-- FCVT between the register forms of codes 5 to 13: integers to integers saturate (R182). -/
def fcvt (src dst : Nat) (rm : RM) (w : Nat) : Nat × Nat :=
  if fmtIsInt src && fmtIsInt dst then
    let (lo, hi) := intRange (fmtSigned dst) (fmtBits dst)
    (wrap (fmtBits dst) (clampInt lo hi (elemInt src w)).1, 0)
  else
    let (x, f1) := elemNum [] src w
    let (r, f2) := numTo [] dst rm x
    (r, f1 ||| f2)

/-- The integer of an FCVT result widened to its register form (R182). -/
def fcvtWrite (dst w : Nat) : Nat :=
  if dst == 5 then wrap 64 (sgn 32 w) else w

/-! ### Register form of typed loads and stores (R146) -/

/-- The register form of an element word and its flags: integers extended, F16, BF16 and T8 as F32,
F64, SP32 words unchanged but a reserved one, which reads 0 (R146). -/
def toReg (tab : SMap (BitVec 19)) (f w : Nat) : Nat × Nat :=
  if fmtIsInt f then (wrap 64 (elemInt f w), 0)
  else match f with
  | 9 | 10 =>
    let x := (fmtOf f).decode w
    ((fmtF32.round .rne x).1, if x.isSNaN then flNV else 0)
  | 13 => (let (_, fl) := sp32Decode w; (if flHas fl flSPRZ then 0 else w, fl))
  | 16 => (t8Word tab w, 0)
  | _ => (w, 0)

/-- The register form of a block-scaled element: Round(F32, decode(code) × 2^s) (R79). -/
def toRegScaled (tab : SMap (BitVec 19)) (f : Nat) (rm : RM) (s : Int) (w : Nat) : Nat × Nat :=
  let (x, fl) := elemNum tab f w
  let (r, fl2) := fmtF32.round rm (x.scale s)
  (r, fl ||| fl2 ||| if x.isSNaN then flNV else 0)

/-- An element of LDT or STT, or its register form, is subnormal (R71, R146): in the element's own format, or as the F32 of
a register. -/
def subnormalElem (f : Nat) (scaled : Bool) (w v : Nat) : Bool :=
  (!scaled && fmtIsFloat f && (fmtOf f).subnormal w)
    || ((scaled || f == 16 || (fmtIsFloat f && f != 12)) && fmtF32.subnormal (v % 2 ^ 32))

/-- The element word that STT writes for a register value (R146). -/
def ofReg (tab : SMap (BitVec 19)) (f : Nat) (rm : RM) (v : Nat) : Nat × Nat :=
  if fmtIsInt f then (v % 2 ^ fmtBits f, 0)
  else match f with
  | 9 | 10 => convElem tab 11 f rm (v % 2 ^ 32)
  | 11 | 13 => (v % 2 ^ 32, 0)
  | 16 => t8Encode tab (fmtF32.decode (v % 2 ^ 32))
  | 12 => (v % 2 ^ 64, 0)
  | _ => (v % 256, 0)

/-- The element byte of a block-scaled store of an exact value: the code or the integer of x × 2^(−s)
(R80). -/
def scaledByte (tab : SMap (BitVec 19)) (f : Nat) (rm : RM) (s : Int) (x : Num) : Nat × Nat :=
  numTo tab f rm (x.scale (-s))

/-! ### The rind of a floating adder or multiplier (R90) -/

/-- A word is an infinity or a NaN. -/
def Fmt.isSpecial (f : Fmt) (w : Nat) : Bool := w / 2 ^ f.fb % 2 ^ f.eb == f.emax

/-- A result that is compared with its rind: an infinity, a NaN, or one of at least 2^(emin + 6) in magnitude. -/
def Fmt.compared (f : Fmt) (w : Nat) : Bool := f.isSpecial w || decide (7 ≤ w / 2 ^ f.fb % 2 ^ f.eb)

/-- A result diverges from its rind, which forms its sign, its exponent and the top 6 bits of its fraction (R90). -/
def Fmt.diverges (f : Fmt) (w r : Nat) : Bool :=
  let ex (v : Nat) : Nat := v / 2 ^ f.fb % 2 ^ f.eb
  let top (v : Nat) : Nat := v / 2 ^ (f.fb - 6) % 64
  let neg (v : Nat) : Bool := v / 2 ^ (f.eb + f.fb) % 2 == 1
  let nan (v : Nat) : Bool := f.isSpecial v && v % 2 ^ f.fb != 0
  let far (a b : Nat) : Bool := decide (b + 1 < a) || decide (a + 1 < b)
  if !f.compared w then false
  else if f.isSpecial w || f.isSpecial r then
    !(f.isSpecial w && f.isSpecial r && nan w == nan r && neg w == neg r)
  else neg w != neg r || far (ex w) (ex r) || (ex w == ex r && far (top w) (top r))

/-! ### Orders of summation (R86, R87) -/

/-- The largest power of two below n, for n at least 2 (R87). -/
def halfPow (n : Nat) : Nat := 2 ^ ((n - 1).log2)

/-- The tree T of R87 over a list, with fuel for its depth; the operation also gives flags. -/
def treeT (op : Nat → Nat → Nat × Nat) (e : Nat) : Nat → List Nat → Nat × Nat
  | 0, l => (l.headD e, 0)
  | k + 1, l =>
    match l with
    | [] => (e, 0)
    | [x] => (x, 0)
    | l =>
      let h := halfPow l.length
      let (a, f1) := treeT op e k (l.take h)
      let (b, f2) := treeT op e k (l.drop h)
      let (r, f3) := op a b
      (r, f1 ||| f2 ||| f3)

/-- The running results of VSCAN (R87). -/
def scanGo (op : Nat → Nat → Nat × Nat) (acc : Nat) : List Nat → List Nat × Nat
  | [] => ([], 0)
  | x :: t =>
    let (r, f) := op acc x
    let (rs, fs) := scanGo op r t
    (r :: rs, f ||| fs)

/-- VSCAN (R87). -/
def scan (op : Nat → Nat → Nat × Nat) : List Nat → List Nat × Nat
  | [] => ([], 0)
  | x :: t =>
    let (rs, f) := scanGo op x t
    (x :: rs, f)

/-- One level of the pairwise tree of R86. -/
def pairUp (node : Num → Num → Num) : List Num → List Num
  | a :: b :: t => node a b :: pairUp node t
  | l => l

/-- The five levels over 32 exact products (R86). -/
def chunkSum (node : Num → Num → Num) (l : List Num) : Num :=
  (pairUp node (pairUp node (pairUp node (pairUp node (pairUp node l))))).headD (.zero false)

/-- One element of a Vat's output over its chunks of 32 products, the accumulator first (R86). Each chunk
is rounded once into the accumulator; for F32 and F64 each node rounds too. -/
def vatAcc (acc : Fmt) (nodeRounds : Bool) : List (List Num) → Nat → Nat
  | [], a => a
  | c :: t, a =>
    let node := fun x y =>
      let s := (Num.add .rne x y).1
      if nodeRounds then acc.decode (acc.round .rne s).1 else s
    vatAcc acc nodeRounds t (acc.round .rne (Num.add .rne (acc.decode a) (chunkSum node c)).1).1

end Sys2Proof.Machine
end

