-- ==== Sys2Proof/Machine/State.lean ====
section
/-! DEFINITION. The state of one KLB-2 package: threads, cores, clusters, dies, the memory of the ordering
machine, the names, queues, partitions and firmware records of the hub, and the schedule of what moves
next. Plain data throughout. A structure's fields stand at their reset values (R29, R34, R35, R66, R68,
R69, R76, R161, R213, R223, R253, R254, R353); log entries 3 and 4 name the values the spec leaves open. -/

namespace Sys2Proof.Machine

/-- Why the machine stops: the spec names no such stop, every exception being taken (R279). -/
inductive Fault where
  deriving DecidableEq, Repr

/-- What the model does not give a meaning. -/
inductive Refusal where
  /-- Raised by `exec` for an instruction without a meaning, by its mnemonic. Safe: the run stops. -/
  | notModelled (mnemonic : String)
  deriving DecidableEq, Repr

/-! ### The ordering machine (R92 to R105) -/

/-- One byte written by a performed write: its own number, the number of its event, the byte location,
the value, and whether its home has applied it (R95, R97). -/
structure WByte where
  id : Nat
  ev : Nat
  loc : Nat
  val : Byte
  applied : Bool := false
  deriving DecidableEq, Repr

/-- A view with the scope it was released at (R99). -/
structure View where
  scope : Nat
  pos : Nat
  ids : List Nat
  deriving DecidableEq, Repr

/-- A performed write event: its agent, the views it carries, and the store, vector operation or Ladle chunk that it
is a piece of, zero for an event of its own (R106); `vec` is the core plus one whose vector queue made it (R189). -/
structure WEv where
  agent : Nat := 0
  views : List View := []
  whole : Nat := 0
  vec : Nat := 0
  deriving DecidableEq, Repr

/-- W, the order of supersession, the frontiers and the home records; `all` lists the writes that the machine has added
to every frontier (R333). A location without a row in `hl` has I(x), the byte of `State.mem`, as the write last applied
at home. -/
structure Oom where
  nextId : Nat := 1
  nextEv : Nat := 1
  ws : List WByte := []
  evs : SMap WEv := []
  sup : List (Nat × Nat) := []
  fr : SMap (List Nat) := []
  all : List Nat := []
  hl : SMap Nat := []
  deriving DecidableEq, Repr

/-! ### Groups and effects (R50 to R58) -/

/-- A deferred effect or an engine command, in the fields of a step-5 record (R377, R206): the opcode,
the modifier, the values its operand registers had, the number of its D register, its shape copy, the
bytes and the home location it carries, the accesses its issue checked (pointer, bytes, alignment, right), who issued
it, how far its request has come, whether the check of its issue was released at a stop, whether a TRET has released
its thread's hold on the queue register (R255), the C-cycle of its dispatch (R217), and the launch of its thread (R296). -/
structure Eff where
  op : Nat := 0
  m : Nat := 0
  rd : Nat := 0
  vd : Word := 0
  va : Word := 0
  vb : Word := 0
  vc : Word := 0
  sreg : Nat := 0
  sh : BitVec 512 := 0
  data : List Byte := []
  locs : List Nat := []
  hnds : List Nat := []
  chk : List (Word × Nat × Nat × Nat) := []
  core : Nat := 0
  thr : Nat := 0
  ctx : Nat := 0
  pos : Nat := 0
  head : Word := 0
  pc : Word := 0
  seq : Nat := 0
  rm : Nat := 0
  n : Bool := false
  st : Nat := 0
  ans : Word := 0
  views : List View := []
  again : Bool := false
  loose : Bool := false
  arr : Nat := 0
  lid : Nat := 0
  deriving DecidableEq, Repr

/-- Where a buffered result goes. -/
inductive Dest where
  | g (n : Nat)
  | p (n : Nat)
  | sh (n : Nat)
  | none
  deriving DecidableEq, Repr

/-- One read event of a load: its home location, its size, and the bytes once it has performed. -/
structure Part where
  loc : Nat
  size : Nat
  got : Option (List Byte) := none
  deriving DecidableEq, Repr

/-- How the bytes of a load become the value of its destination. -/
inductive Conv where
  | zero
  | sign
  | fmt (f : Nat) (scale : Bool) (digit : Nat) (rm : Nat) (tab : SMap (BitVec 19))
  | stt (f : Nat) (rm : Nat) (tab : SMap (BitVec 19)) (v : Word)
  | shape
  | record (op : Nat)
  | cbph
  deriving DecidableEq, Repr

/-- A buffered result: a value already known, a shape register or a field of one, a load, an atomic step, a
tile claim that waits for a zero-fill, or a wait on a completion barrier or counter. -/
inductive LVal where
  | val (v : Word)
  | shape (v : BitVec 512)
  | field (lo w v : Nat)
  | load (c : Conv) (acq : Option Nat) (side : Bool)
  | atom (op size ord scope : Nat) (uns : Bool) (b c : Word)
  | claim (tile : Nat)
  | cbwait (noTrap : Bool)
  | ccwait (threshold : Nat)
  deriving DecidableEq, Repr

/-- A result-buffer entry of the group: the position of its instruction, where it goes, what it is, its
read events, whether it has returned, the handle it passed its check on (0 for none), the completion that a QPOP took
(R206), and the format code of a result that a floating adder or multiplier formed, whose rind is compared (R90). -/
structure LRes where
  pos : Nat
  op : Nat := 0
  dest : Dest
  val : LVal
  parts : List Part := []
  ret : Bool := false
  done : Bool := false
  hnd : Nat := 0
  ptr : Word := 0
  pc : Word := 0
  seq : Nat := 0
  fmt : Nat := 0
  deriving DecidableEq, Repr

/-- A wait on a completion barrier or counter. -/
def LRes.isWait (r : LRes) : Bool := match r.val with | .cbwait _ | .ccwait _ => true | _ => false

/-- A load of an object with the side-effecting right (R148). -/
def LRes.isSide (r : LRes) : Bool := match r.val with | .load _ _ true => true | _ => false

/-- An atomic whose step has not been taken. -/
def LRes.isAtom (r : LRes) : Bool := match r.val with | .atom .. => true | _ => false

/-- A trap raised by an instruction of the group. -/
structure GTrap where
  pos : Nat
  pc : Word
  cause : Nat
  sub : Nat
  info : Word
  deriving DecidableEq, Repr

/-- A not-present condition met by an instruction of the group (R314). -/
structure NotPres where
  pos : Nat
  pc : Word
  oid : Nat
  ext : Nat
  addr : Word
  touch : Bool := false
  deriving DecidableEq, Repr

/-- A claim taken at issue that a discarded group gives back (R167, R168, R197, R214). -/
inductive Undo where
  | tile (t : Nat)
  | slot
  | record (id : Nat)
  | grant (g : Nat)
  | launch (l : Nat)
  deriving DecidableEq, Repr

/-- The acquire part of a fence of the group: its position, its scope, whether it has joined, and the views of
the messages that the thread had read before it (R99). -/
structure GFence where
  pos : Nat
  scope : Nat
  joined : Bool := false
  msgs : List View := []
  deriving DecidableEq, Repr

/-- The thread's group in flight; `given` holds 64 × position + tile for each of its TGIVEs, and `self` and
`selfEnd` the positions of its first and its last self-updating instruction (R54); `rind` is the position and the head
of its first divergence, and `rindBits` what the unit and its rind formed there (R386); `old` holds, of each register
that the group has written at once, its value before the group (R8). Flags and claims stand with the position of their instruction. -/
structure Group where
  head : Word := 0
  n : Nat := 0
  nb : Nat := 0
  nr : Nat := 0
  rd : List Nat := []
  res : List LRes := []
  defs : List Eff := []
  marks : List (Nat × Nat) := []
  w1 : List (Nat × Nat) := []
  trap : Option GTrap := none
  np : List NotPres := []
  self : Option Nat := none
  selfEnd : Nat := 0
  cut : Option Word := none
  fx : List (Nat × Nat) := []
  vx : List (Nat × Nat) := []
  fences : List GFence := []
  undo : List (Nat × Undo) := []
  given : List Nat := []
  ifence : Bool := false
  rind : Option (Nat × Word) := none
  rindBits : List Word := []
  old : SMap Word := []
  deriving DecidableEq, Repr

/-- What follows a group's commit. -/
inductive Post where
  | none
  | tend
  | yield
  | msg (cause sub : Nat) (info : Word)
  | bar (lvl : Nat)
  | drop (n : NotPres)
  deriving DecidableEq, Repr

/-- Where a thread stands between its groups: issuing, at its marker in step 1, in step 5, or waiting for
a level barrier. -/
inductive Phase where
  | issue
  | marker
  | step5
  | barrier (lvl : Nat)
  deriving DecidableEq, Repr

/-- An entry of the commit queue: a store of some pieces, a fence's capture, or an arrival or atomic step
owed at a home (R95, R99, R174). -/
inductive CqKind where
  | write
  | fence
  | cbarr
  | bar
  deriving DecidableEq, Repr

/-- A commit-queue entry; `whole` is the number of the SHST that it is a piece of (R106), and `lid` the launch whose write it
is (R296). -/
structure CqE where
  kind : CqKind := .write
  seq : Nat := 0
  whole : Nat := 0
  locs : List Nat := []
  data : List Byte := []
  rel : Option Nat := none
  err : Bool := false
  code : Nat := 0
  faddr : Word := 0
  hnd : Nat := 0
  ctx : Nat := 0
  lid : Nat := 0
  deriving DecidableEq, Repr

/-- A message that waits in a mailbox (R38, R375). -/
structure Mbx where
  reg : Nat
  val : Word
  src : Nat
  views : List View := []
  poison : Bool := false
  ctx : Nat := 0
  deriving DecidableEq, Repr

/-- A trap or notification message (R280); `ready` is false while a late fault's thread has not stopped, `id` tells late
faults apart, `since` is the domain time from which the wait of R282 counts, and `from_` the source core, plus one, of a message
that goes to another core. -/
structure HMsg where
  g1 : Word
  g2 : Word
  g3 : Word
  ctx : Nat := 0
  late : Bool := false
  resume : Word := 0
  ready : Bool := true
  id : Nat := 0
  since : Nat := 0
  from_ : Nat := 0
  deriving DecidableEq, Repr

/-- A refusal that came after step 3 (R157). -/
structure Late where
  cause : Nat
  sub : Nat
  info : Word
  deriving DecidableEq, Repr

/-- A thread's state at one level of barrier: its arrivals, and the views of its latest arrival and of the
two before (R170, R171, R375). -/
structure BarSt where
  count : Nat := 0
  views : List View := []
  prev : List View := []
  prev2 : List View := []
  deriving DecidableEq, Repr

/-- A task record (R166). -/
structure TaskRec where
  entry : Word := 0
  a1 : Word := 0
  a3 : Word := 0
  a4 : Word := 0
  launch : Bool := false
  deriving DecidableEq, Repr

/-- The registers as they stood before a pair issued: both instructions read these (R49). -/
structure Snap where
  g : SMap Word
  full : BitVec 16
  poison : BitVec 16
  pr : BitVec 8
  deriving DecidableEq, Repr

/-- An assist the thread has outstanding (R72, R73). -/
structure Assist where
  pos : Nat
  vector : Bool
  idx : Nat
  loc : Nat
  width : Nat
  stopped : Bool := false
  deriving DecidableEq, Repr

/-- A thread context with what the core keeps for it (R28, R29, R32); `logTile` is the tile, plus one, that firmware holds
for the log of a duo copy (R394). -/
structure Thread where
  g : SMap Word := []
  full : BitVec 16 := 0xFFFF#16
  poison : BitVec 16 := 0#16
  pr : BitVec 8 := 0#8
  pc : Word := 0
  wid : Word := 0
  hasWid : Bool := false
  st : Nat := 0
  prsn : Nat := 0
  lcause : Nat := 0
  duo : Bool := false
  grp : Group := {}
  phase : Phase := .issue
  s5 : List Eff := []
  late : List Late := []
  post : Post := .none
  nextPc : Word := 0
  cq : List CqE := []
  seq : Nat := 0
  mbx : List Mbx := []
  fb : List (Word × List Byte) := []
  exs : SMap Nat := []
  lastSrc : SMap Nat := []
  recast : Bool := false
  wasFree : Bool := false
  drop : Option NotPres := none
  resume : Word := 0
  bars : SMap BarSt := []
  rel : List View := []
  seen : List Nat := []
  rviews : SMap (List View) := []
  msgViews : List View := []
  ladleIds : List Nat := []
  task : TaskRec := {}
  lid : Nat := 0
  queue : Nat := 0
  ctx : Nat := 0
  assist : Option Assist := none
  answers : List (Nat × Word) := []
  yielded : Bool := false
  lost : Nat := 0
  dueStop : Bool := false
  last : Nat := 0
  ready : Nat := 0
  parkReg : Nat := 0
  dry : Nat := 0
  dryTold : Bool := false
  rinds : Nat := 0
  snap : Option Snap := none
  log : List (Word × Word) := []
  logTile : Nat := 0
  voteWait : Bool := false
  postponed : Post := .none
  deriving DecidableEq, Repr

/-! ### Cores (R32 to R37, R281) -/

/-- A record of the deque; `res` is the thread whose DQPOP reserved it, plus one. -/
structure DqRec where
  id : Nat
  task : TaskRec
  views : List View := []
  res : Nat := 0
  deriving DecidableEq, Repr

/-- A range of handle 0 held by the scoreboard (R319). -/
structure ScbE where
  lo : Nat
  hi : Nat
  thr : Nat
  seq : Nat
  deriving DecidableEq, Repr

/-- A vector operation in the core's queue (R189, R190): its command, the read events of its operands, its
decode table, the elements it still has after a failed check, whether its indices have been checked and its
results formed, the targets of a scatter, its results by target, its flags, the first elements that met an
enabled condition, the element an assist holds and those to come, its divergences and its scoreboard entry. -/
structure VOp where
  e : Eff
  pa : List Part := []
  pb : List Part := []
  pd : List Part := []
  tab : SMap (BitVec 19) := []
  n : Nat := 0
  bad : Option (Nat × Word) := none
  idx : Bool := false
  read : Bool := false
  started : Bool := false
  dl : List Nat := []
  out : List (Nat × List Byte) := []
  fl : Nat := 0
  hits : List (Nat × Nat) := []
  held : Option Nat := none
  subs : List Nat := []
  rinds : Nat := 0
  scb : Bool := false
  deriving DecidableEq, Repr

/-- A completion word or a reserved slot of q5 to q7 (R204, R205). -/
structure Comp where
  thr : Nat
  seq : Nat
  word : Option Word := none
  deriving DecidableEq, Repr

/-- The steal state of a core (R303, R304): idle, asking the victims that remain, or waiting. -/
inductive Steal where
  | idle
  | asking (left : List Nat)
  | waiting
  deriving DecidableEq, Repr

/-- The slot table that pins position i to thread i mod 8 (R35). -/
def slotsReset : List (BitVec 16) := (List.range 32).map fun i => BitVec.ofNat 16 (i % 8)

/-- A compute core or a cluster control core; `due7` is the WID of a launch's eighth thread, which starts once t7 is free
(R292, log entry 29). -/
structure Core where
  due7 : Option Word := none
  th : SMap Thread := []
  shp : SMap (BitVec 512) := []
  hold : SMap Nat := []
  q : SMap (List Eff) := []
  comps : SMap (List Comp) := []
  active : List (BitVec 16) := slotsReset
  shadow : List (BitVec 16) := slotsReset
  activate : Bool := false
  pos : Nat := 0
  hist : List Nat := []
  deque : List DqRec := []
  dqNext : Nat := 1
  dqSlots : Nat := 0
  dtab : SMap (BitVec 19) := []
  scb : List ScbE := []
  vq : List VOp := []
  frm : Word := 0
  fxf : Word := 0
  vxf : Word := 0
  vxe : Word := 0
  am : Bool := false
  ptag : Nat := 0
  grant : Nat := 0
  tq : List HMsg := []
  nq : SMap (List HMsg) := []
  nqDrop : SMap Nat := []
  tqDrop : Nat := 0
  serving : Nat := 0
  served : Nat := 0
  hnext : Nat := 1
  halted : Bool := false
  isSealed : Bool := false
  stopped : Bool := false
  lid : Nat := 0
  tpc : Nat := 0
  tpg : Nat := 0
  pin : Nat := 4
  hint : Nat := 0
  queue : Nat := 0
  wid0 : Word := 0
  credit : SMap Int := []
  owned : List Nat := []
  steal : Steal := .idle
  seq : Nat := 0
  tags : SMap Nat := []
  deriving DecidableEq, Repr

/-! ### Clusters (R161, R213 to R237) -/

/-- Who owns a tile (R213). -/
inductive Owner where
  | free
  | ctx (x : Nat)
  | eng (x : Nat)
  deriving DecidableEq, Repr

/-- A tile's owner, its layout tag, whether its zero-fill runs, and whether a completed task marked it LAST
while others still name it (R215). -/
structure Tile where
  own : Owner := .free
  tag : Nat := 0
  filling : Bool := false
  due : Bool := false
  deriving DecidableEq, Repr

/-- A tile task the scheduler holds: its command, its record, the decode table and the Rake descriptor it
copied, the Vat it runs on plus one, how many times each of its blocks diverged, its fault, whether its barrier's extent cannot be
allocated, the held predecessors that have not completed, and how many elements of C it has written (R217 to R219, R386). -/
structure TTask where
  e : Eff
  bytes : List Byte
  tab : SMap (BitVec 19) := []
  rake : BitVec 512 := 0
  vat : Nat := 0
  rinds : SMap Nat := []
  fault : Option (Nat × Word) := none
  noBar : Bool := false
  waits : List Nat := []
  prog : Nat := 0
  deriving DecidableEq, Repr

/-- A Trellis command in the window: whether it has started, the tree it runs on plus one, how many times it
diverged, the bytes or entries it has read (R226, R386), how many entries a fill has written, and the value entries that
have been filled since an SPDN started, as entry and value (R329). -/
structure TCmd where
  e : Eff
  started : Bool := false
  tree : Nat := 0
  rinds : Nat := 0
  mem : List Byte := []
  prog : Nat := 0
  had : List (Nat × Nat) := []
  deriving DecidableEq, Repr

/-- A context's image of the Trellis scratch (R223). -/
structure Image where
  val : SMap (BitVec 32) := []
  full : SMap Bool := []
  grad : SMap (BitVec 32) := []
  deriving DecidableEq, Repr

/-- The Trellis of a cluster. -/
structure Trellis where
  held : Nat := 0
  win : List TCmd := []
  img : SMap Image := []
  deriving DecidableEq, Repr

/-- How an engine request ended. -/
inductive EndKind where
  | running
  | done
  | err (cause : Nat)
  | cancelled
  deriving DecidableEq, Repr

/-- A Ladle request with its progress pointer (R231 to R233). -/
structure LReq where
  id : Nat
  e : Eff
  total : Nat
  prog : Nat := 0
  cancel : Bool := false
  ended : EndKind := .running
  waiting : Bool := false
  accepted : Bool := false
  deriving DecidableEq, Repr

/-- A cluster: its tiles, roles, task scheduler, Trellis and Ladle. -/
structure Cluster where
  tiles : SMap Tile := []
  roles : SMap (BitVec 16) := []
  vec : SMap Word := []
  sched : List TTask := []
  trel : Trellis := {}
  ladle : List LReq := []
  ladleNext : Nat := 1
  rctmo : BitVec 32 := 0
  lanesOff : Nat := 0
  vatsOff : List Nat := []
  treesOff : List Nat := []
  deriving DecidableEq, Repr

/-! ### Dies: the Press and the Network Engine (R234 to R237, R336 to R338) -/

/-- A member's collective the Press has accepted (R234). -/
structure PMem where
  e : Eff
  grp : Nat
  rank : Nat
  k : Nat
  cc : Word := 0
  prog : Nat := 0
  deriving DecidableEq, Repr

/-- A packet of a request: sent how often, when last, whether acknowledged or placed, whether refused, and whether an
acknowledgement has named it as placed (R338). -/
structure PktSt where
  sends : Nat := 0
  last : Nat := 0
  done : Bool := false
  refused : Bool := false
  named : Bool := false
  deriving DecidableEq, Repr

/-- A request of the Network Engine or a post (R235, R236). -/
structure NReq where
  id : Nat
  e : Eff
  op : Nat
  len : Nat
  lptr : Word
  peer : Word
  tag : Word
  ticket : BitVec 128 := 0
  roff : Nat := 0
  cc : Word := 0
  fence : Bool := false
  pkts : SMap PktSt := []
  from_ : Word := 0
  msg : Nat := 0
  posted : Bool := false
  refused : Bool := false
  ended : Bool := false
  cause : Nat := 0
  sub : Nat := 0
  queue : Option (Nat × Nat) := none
  total : Nat := 0
  words : SMap Word := []
  pubd : Nat := 0
  deriving DecidableEq, Repr

/-- A Trotis die's Press and Network Engine. -/
structure Die where
  press : List PMem := []
  net : List NReq := []
  netNext : Nat := 1
  deriving DecidableEq, Repr

/-! ### Objects, handles and names (R311, R312, R340 to R352) -/

/-- What stands behind an object id; `file n x` is a system file (SysFiles), and `away` lists the ranks of a Press group
that stand in other packages (R20). -/
inductive ObjKind where
  | memory
  | ring (q : Nat)
  | ctl (q : Nat)
  | err (q : Nat)
  | file (n x : Nat)
  | press (members : Nat) (away : List Nat)
  | port (die : Nat)
  | view
  | listing (n : Nat)
  | ladle
  | make (node : Nat)
  | save
  deriving DecidableEq, Repr

/-- An extent entry (R312), with what its station keeps of it: whether a walk has brought it into the station's cache,
the reads and the writes that passed through that copy since the heat last rose (R315), and the accesses by the die
whose station made them (R316); `was` tells that it has been allocated before, and `rep` is the die of the core that
reported it, plus one (R314). -/
structure Extent where
  present : Bool := true
  z : Bool := false
  pin : Bool := false
  ws : Bool := false
  die : Nat := 0
  ch : Nat := 0
  slot : Nat := 0
  rheat : Nat := 0
  wheat : Nat := 0
  reported : Bool := false
  cached : Bool := false
  racc : Nat := 0
  wacc : Nat := 0
  byDie : SMap Nat := []
  was : Bool := false
  rep : Nat := 0
  deriving DecidableEq, Repr

/-- An object: its kind, size, creator and extents; `lazy` extents are not present until allocated. `weight` is the host's
mark for weight residence (R316), `inner` holds, plus one, the interior entries of its tree that a table store has written
(R312), and `avoid` lists the channels that were out of service when it was made, as die times 32 plus channel (R11). -/
structure Obj where
  kind : ObjKind := .memory
  size : Nat := 0
  owner : Nat := 0
  isLazy : Bool := false
  side : Bool := false
  ext : SMap Extent := []
  weight : Bool := false
  inner : SMap Nat := []
  avoid : List Nat := []
  deriving DecidableEq, Repr

/-- A handle's STATE (R311). -/
inductive HSt where
  | invalid
  | valid
  | revoking
  | revoked
  deriving DecidableEq, Repr

/-- A handle descriptor (R311); `node` is how far NODE lies from the root of the object's own tree (log entry 105). -/
structure Desc where
  oid : Nat := 0
  size : Nat := 0
  gen : Nat := 0
  st : HSt := .invalid
  rights : Nat := 0
  dfmt : Nat := 0
  levels : Nat := 1
  node : Nat := 0
  owner : Nat := 0
  isLazy : Bool := false
  deriving DecidableEq, Repr

/-- A context: its domain (0 tenant, 1 host, 2 firmware), creator, handles, root and acknowledgements; `ending` is how far
its end has come: its kernels stop, its handles are revoked, its tiles are zero-filled, all done (R345). -/
structure Context where
  alive : Bool := false
  dom : Nat := 0
  owner : Nat := 0
  hnd : SMap Desc := []
  root : Nat := 0
  handler : Word := 0
  pmver : Nat := 0
  due : List (Nat × Nat) := []
  ending : Nat := 0
  logn : Nat := 0
  tag : Nat := 0
  overdue : Nat := 0
  deriving DecidableEq, Repr

/-- A node of the name trees (R243): TYPE, generation, the children by name, and the object it names. -/
structure Node where
  type : Nat := 0
  gen : Nat := 0
  ctx : Nat := 0
  kids : List (List Byte × Nat) := []
  oid : Nat := 0
  grants : SMap Nat := []
  udf : Bool := false
  dfmt : Nat := 0
  prot : Bool := false
  deriving DecidableEq, Repr

/-- A bind in force (R249). -/
structure Bind where
  place : Nat
  node : Nat
  layer : Bool
  rank : Nat
  issuer : Nat
  deriving DecidableEq, Repr

/-- A record of the bind log (R346); `live` is false once the context of its tree has ended. -/
structure BindRec where
  time : Nat
  issuer : Nat
  flag : Nat
  new : Word
  old : Word
  tree : Nat
  live : Bool := true
  deriving DecidableEq, Repr

/-! ### Requests in transit -/

/-- A message on its way (R156), or a migration image (R159). -/
structure Msg where
  e : Eff
  dst : Nat
  thr : Nat
  reg : Nat
  val : Word
  src : Nat
  stamp : Nat
  fw : Bool := false
  views : List View := []
  poison : Bool := false
  deriving DecidableEq, Repr

/-- A thread on its way to another core (R159, R306). -/
structure Mig where
  src : Nat
  thr : Nat
  dst : Nat
  stamp : Nat
  image : Thread
  agent : List Nat
  deriving DecidableEq, Repr

/-- A message on its way to a handler (R280): the core it goes to, its class and content. -/
structure HTrans where
  dst : Nat
  msg : HMsg
  deriving DecidableEq, Repr

/-- A request that waits for the NSE, the supervisor or the root of trust (R245). -/
structure HubReq where
  e : Eff
  seq : Nat
  frame : Option Frame := none
  ctx : Nat := 0
  deriving DecidableEq, Repr

/-- A shoot-down under way (R349, R251): the handle, who has not received it, and who has not
acknowledged; `entry` is false for a revocation, `loc` is the location of the entry of a TSHOOT, and `since` the C-cycle at
which the descriptor was marked. -/
structure Shoot where
  ctx : Nat
  hnd : Nat
  toReach : List Nat
  toAck : List Nat
  entry : Bool
  close : Bool := false
  loc : Nat := 0
  since : Nat := 0
  deriving DecidableEq, Repr

/-- A table entry that a table store has taken the place of, and the stations that may still use it until the TSHOOT of
that entry reaches them (R105): the location of the entry, the descriptor or the extent entry it was, and the C-cycle of
the store. -/
structure Stale where
  loc : Nat
  desc : Desc := {}
  entry : Extent := {}
  left : List Nat
  since : Nat := 0
  deriving DecidableEq, Repr

/-- A counter step that an engine owes (R237, R413). -/
structure Owed where
  ctr : Word
  ctx : Nat
  core : Nat
  thr : Nat
  cause : Nat
  head : Word := 0
  queue : Option Nat := none
  after : List Nat := []
  agent : Nat := 0
  deriving DecidableEq, Repr

/-! ### Queues, launches and partitions (R288 to R300, R353 to R369) -/

/-- A packet the parser has copied (R358). -/
structure Pkt where
  idx : Nat
  tag : Nat
  bytes : List Byte
  ib : Option (Word × Nat) := none
  started : Bool := false
  done : Bool := false
  body : List Byte := []
  graph : Nat := 0
  lids : List Nat := []
  prog : Nat := 0
  cc : Word := 0
  parent : Option Nat := none
  slots : Nat := 0
  views : List View := []
  deriving DecidableEq, Repr

/-- A command queue: its owner, and the command processor's own registers (R353, R358), with the read indices whose
publication waits for the journal (R365), the watched granules that a write has reached (R361), and where the packet of the
latest fault lies: the read index, and the offset in an indirect buffer (R359). -/
structure Queue where
  ctx : Nat := 0
  num : Nat := 0
  ring : Nat := 0
  ctl : Nat := 0
  err : Nat := 0
  alive : Bool := false
  logu : Nat := 4
  cls : Nat := 0
  pubn : Nat := 0
  net : Bool := false
  vats : Nat := 0
  resv : List Nat := []
  npeer : Word := 0
  c : Nat := 0
  state : Nat := 2
  valid : Bool := false
  hdr : Word := 0
  sincePub : Nat := 0
  pkts : List Pkt := []
  granules : SMap (List Byte) := []
  gptr : Word := 0
  gids : SMap Nat := []
  lastPub : Nat := 0
  hview : List View := []
  irq : Bool := false
  nextTag : Nat := 1
  pubOwed : List Nat := []
  hits : List Nat := []
  errIdx : Nat := 0
  errOff : Option Nat := none
  deriving DecidableEq, Repr

/-- A launch the placer holds or has placed (R288 to R296). Of a duo launch, for each pair of copies times 8 plus the thread:
the core, plus one, of a third copy, the votes that the copies and the third have passed since they began, and those whose
logs have been committed (R295, R395). `roamed` lists the agents as which migrated threads of it have run (R296). -/
structure Launch where
  hdr : List Byte := []
  ctx : Nat := 0
  tag : Nat := 0
  queue : Nat := 0
  cls : Nat := 0
  deadline : Nat := 0
  placed : Nat := 0
  age : Nat := 0
  waiting : Bool := false
  ended : Bool := false
  cores : List Nat := []
  cause : Nat := 0
  last : Nat := 0
  views : List View := []
  order : Nat := 0
  core : Nat := 0
  thr : Nat := 0
  fromCore : Bool := false
  pkt : Option (Nat × Nat) := none
  copies : List (Nat × Nat) := []
  thirds : SMap Nat := []
  passed : SMap Nat := []
  passed3 : SMap Nat := []
  kept : SMap Nat := []
  roamed : List Nat := []
  deriving DecidableEq, Repr

/-- A partition (R366 to R369): its context, weight and shares, the logical cores it names and the physical core plus
one of each, its slice and its save object, whether it runs, and since when. -/
structure Part_ where
  alive : Bool := false
  ctx : Nat := 0
  weight : Nat := 1
  vats : Nat := 2
  trees : Nat := 4
  map : SMap Nat := []
  slice : Nat := 0
  save : Word := 0
  running : Bool := true
  cls0 : Nat := 0
  pending : Option SupReq := none
  want : List Nat := []
  saved : Bool := false
  names : List Nat := []
  since : Nat := 0
  turn : Nat := 0
  deriving DecidableEq, Repr

/-- A synchronised stop for a partition or a core (R257, R370): its time, how far it has come, the packets that the
flush has taken (R372), and the logical cores killed since its announcement (R373). -/
structure Stop where
  core : Bool
  target : Nat
  time : Nat
  announced : Bool := false
  stopped : Bool := false
  flushed : List Nat := []
  msgs : List Msg := []
  migs : List Mig := []
  held : List HTrans := []
  killed : List Nat := []
  deriving DecidableEq, Repr

/-- A core section of a save (R375): the logical name, the physical core it was saved from, STATUS (0 good, 1 damaged,
2 killed) and the core. -/
structure SecCore where
  name : Nat
  phys : Nat
  status : Nat := 0
  body : Core
  deriving DecidableEq, Repr

/-- A cluster section (R376). -/
structure SecClu where
  clu : Nat
  status : Nat := 0
  body : Cluster
  deriving DecidableEq, Repr

/-- A die section (R376). -/
structure SecDie where
  die : Nat
  status : Nat := 0
  body : Die
  deriving DecidableEq, Repr

/-- A saved partition, or a saved core (R374 to R378): the sections, the bytes of banks and tiles by location, the
packets of the router save buffers, and the number below which every write had performed (R107). -/
structure Save where
  ctx : Nat := 0
  ver : Nat := 4
  oid : Nat := 0
  cores : List SecCore := []
  clus : List SecClu := []
  dies : List SecDie := []
  bytes : List Host.Cell := []
  msgs : List Msg := []
  migs : List Mig := []
  held : List HTrans := []
  stop : Nat := 0
  pmv : Nat := 0
  pool : Bool := false
  converted : Bool := false
  seen : Nat := 0
  deriving DecidableEq, Repr

/-! ### Reliability, boot and the platform (R385 to R408) -/

/-- A serviceable unit (R385, R392, R396): STATE, SCORE and CAP, whether an immediate lease is due, the domain time of the
score's latest change, and whether its loss has been told as a degradation (R397). -/
structure Unit_ where
  state : Nat := 0
  score : Nat := 0
  cap : Nat := 0
  due : Bool := false
  last : Nat := 0
  lost : Bool := false
  deriving DecidableEq, Repr

/-- A lease of the schedule (R390), with where the extents it moved stood: object, extent, die, channel and slot (R391). -/
structure Lease where
  unit : Nat
  state : Nat
  start : Nat
  stop : Nat
  sig : Word
  moved : List (Nat × Nat × Nat × Nat × Nat) := []
  deriving DecidableEq, Repr

/-- A retirement record (R393), with bits 63:0 of the signature of the last failed test. -/
structure Retired where
  unit : Nat
  pmv : Nat
  reason : Nat
  score : Nat
  boot : Nat
  time : Nat
  sig : Option Word := none
  deriving DecidableEq, Repr

/-- A record of /sys/time (R300, R365, R378, R391, R408, R413). -/
structure TimeRec where
  reason : Nat
  start : Nat
  stop : Nat
  val : Nat
  deriving DecidableEq, Repr

/-- A record of /sys/plotmap/events (R386, R395). -/
structure EventRec where
  unit : Nat
  time : Nat
  ctx : Nat
  data : List Word
  deriving DecidableEq, Repr

/-- A plot-map record slot of the module flash: its counter, whether its signature verifies, its version, time and units,
the logical positions that were unmapped, and the retired places of each channel (R389, R396, R404). -/
structure Flash where
  ctr : Nat := 0
  good : Bool := true
  ver : Nat := 0
  time : Nat := 0
  units : SMap Unit_ := []
  holes : List Nat := []
  worn : SMap (List Nat) := []
  deriving DecidableEq, Repr

/-- A journal entry of the supervisor pair (R365). -/
structure Journal where
  queue : Nat
  idx : Nat
  done : Bool
  deriving DecidableEq, Repr

/-- A quote request in the package's queue (R260, R406). -/
structure QuoteReq where
  nonce : List Byte
  ptr : Word
  cc : Word
  ctx : Nat
  core : Nat
  thr : Nat
  head : Word
  deriving DecidableEq, Repr

/-- A reply the package gave, in the frame layout of R343: to the host and the management controller, or to the peer
package `peer` - 1. -/
structure Reply where
  type : Nat := 0
  flags : Nat := 0
  ctx : Nat := 0
  peer : Nat := 0
  seq : Nat
  status : Nat
  sub : Nat
  token : Word
  arg : Word
  data : List Byte
  deriving DecidableEq, Repr

/-! ### The schedule -/

/-- What moves next: a core's issue turn, or one of the steps of the table. -/
inductive Act where
  | turn (c : Nat)
  | ev (i : Instr)
  deriving DecidableEq, Repr

/-- An entry of the schedule: how many C-cycles pass before it, which writes its reads prefer among the
eligible ones (R96), the bytes that an error has made uncorrectable before it, the links that mark a byte uncorrectable on
its way in it (R398), the links that have slowed to a rate before it (R397), and what moves. -/
structure Sched where
  dt : Nat := 0
  pref : List Nat := []
  bad : List Nat := []
  link : List (Nat × Nat) := []
  slow : List (Nat × Nat) := []
  act : Act
  deriving DecidableEq, Repr

/-- The whole package. -/
structure State where
  cyc : Nat
  dtimeBase : Nat
  agenda : List Sched
  pref : List Nat
  bad : List Nat
  linkBad : List Nat
  curCore : Nat
  curThr : Nat
  free : Nat
  off : Bool
  cut : Bool
  mem : List Host.Cell
  oom : Oom
  cores : SMap Core
  clus : SMap Cluster
  dies : SMap Die
  pressK : SMap Nat
  msgs : List Msg
  migs : List Mig
  hmsgs : List HTrans
  hub : List HubReq
  hubNext : Nat
  shoots : List Shoot
  stale : List Stale
  owed : List Owed
  gage : Word
  ctxs : SMap Context
  objs : SMap Obj
  oidNext : Nat
  nodes : SMap Node
  nodeNext : Nat
  binds : List Bind
  bindLog : List BindRec
  scrub : List (Nat × Nat × Nat)
  queues : SMap Queue
  supRing : List (List Byte)
  parts : SMap Part_
  launches : SMap Launch
  launchNext : Nat
  ticks : Nat
  stops : List Stop
  saves : SMap Save
  deferred : Option (List Nat)
  heldMsgs : List HTrans
  pkts : List (Nat × NetPkt)
  acks : List (Nat × NetReply)
  pkg : Nat
  pmVer : Nat
  pmTime : Nat
  units : SMap Unit_
  leases : List Lease
  retired : List Retired
  events : List EventRec
  times : List TimeRec
  reserveGone : List Nat
  grader : SMap (List (Nat × Nat × Nat))
  worn : SMap (List Nat)
  hold : Bool
  journal : List Journal
  ckpt : List Journal
  pause : Nat
  parserFaults : Nat
  bankWin : Nat
  flash : List Flash
  flashCtr : Nat
  bootCount : Nat
  bootStage : Nat
  secVer : SMap Nat
  slots : SMap (BitVec 384)
  slotsClosed : Bool
  attKey : Nat
  restorable : List Nat
  quotes : List QuoteReq
  quote : List Byte
  replies : List Reply
  deriving DecidableEq, Repr

/-- The object of the assist records (R73), the first object of the handle tables, context 0's, and the first of the
extent trees: the tree of object o is `oidTree` + o (log entries 11 and 105). -/
def oidAssist : Nat := 2 ^ 63
def oidTable : Nat := 2 ^ 62
def oidTree : Nat := 2 ^ 61

/-- The handles that the firmware's context starts with: 1 the assist records, 2 its own handle table, both to read and
write (log entries 11 and 105). -/
def firmwareHandles : SMap Desc :=
  [(1, { oid := oidAssist, size := 2 ^ 23, st := .valid, rights := 3 }),
   (2, { oid := oidTable, size := 2 ^ 18, st := .valid, rights := 3 })]

/-- The package right after reset: every core, cluster and die at its reset values, memory with nothing
listed, the firmware's context 0 and the host's context 1 (log entries 3 and 4). -/
def State.reset : State where
  cyc := 0
  dtimeBase := 3399
  agenda := []
  pref := []
  bad := []
  linkBad := []
  curCore := 0
  curThr := 0
  free := 0
  off := false
  cut := false
  mem := []
  oom := {}
  cores := []
  clus := []
  dies := []
  pressK := []
  msgs := []
  migs := []
  hmsgs := []
  hub := []
  hubNext := 1
  shoots := []
  stale := []
  owed := []
  gage := 32
  ctxs := [(0, { alive := true, dom := 2, root := 1, hnd := firmwareHandles }), (1, { alive := true, dom := 1, root := 2 })]
  objs := []
  oidNext := 1
  nodes := [(1, { type := 1, ctx := 0 }), (2, { type := 1, ctx := 1 })]
  nodeNext := 3
  binds := []
  bindLog := []
  scrub := []
  queues := []
  supRing := []
  parts := []
  launches := []
  launchNext := 1
  ticks := 0
  stops := []
  saves := []
  deferred := none
  heldMsgs := []
  pkts := []
  acks := []
  pkg := 0
  pmVer := 0
  pmTime := 0
  units := []
  leases := []
  retired := []
  events := []
  times := []
  reserveGone := []
  grader := []
  worn := []
  hold := false
  journal := []
  ckpt := []
  pause := 0
  parserFaults := 0
  bankWin := 0
  flash := [{}, {}]
  flashCtr := 0
  bootCount := 0
  bootStage := 0
  secVer := []
  slots := []
  slotsClosed := false
  attKey := 0
  restorable := [3, 4]
  quotes := []
  quote := []
  replies := []

end Sys2Proof.Machine
end

