-- ==== Sys2Proof/Machine/SysFiles.lean ====
section
/-! DEFINITION. What reads of the system files and of the port objects find (R326, R336, R340, R341, R346, R390,
R393, R396, R403, R405): bytes computed from the state, at addresses that no program can write. -/

namespace Sys2Proof.Machine

/-- The bytes of a word. -/
def word8 (v : Word) : List Byte := leBytes 8 v.toNat

/-- A signature block over some bytes (R405); the signatures are free values that depend on all that they cover. -/
def sigBlock (file : Nat) (bytes : List Byte) (ctr : Nat) : List Byte :=
  leBytes 8 bytes.length ++ leBytes 8 ctr
    ++ (List.range 3373).map (fun i => Config.sigByte (leNat bytes * 2 ^ 128 + file * 2 ^ 64 + ctr) i) ++ List.replicate 3 0#8

/-- The reserve channel of a die (R11): fixed, one of its 32. -/
def reserveCh (d : Nat) : Nat := Config.reserveCh d % 32

/-- /ctx/self (R340). -/
def State.selfFile (s : State) (x : Nat) : List Byte :=
  let k := SMap.get {} x s.ctxs
  let tag := ((s.parts.find? fun r => r.2.alive && r.2.ctx == x).map (·.1)).getD 0
  leBytes 8 x ++ word8 k.handler ++ leBytes 8 (tag + k.dom * 256)
    ++ leBytes 8 (k.hnd.filter fun r => r.2.st != .invalid).length

/-- The names of every serviceable unit of the package, in rising order (R385): 8 dies of 80 clusters with 9 cores, 2
Vats, 4 trees and 8 lane groups each, 4 links and 32 channels a die, and 12 fabric links. -/
def allUnits : List Nat :=
  let inClu (kind n : Nat) : List Nat := (List.range 8).flatMap fun d => (List.range 80).flatMap fun c =>
    (List.range n).map fun i => kind * 2 ^ 28 + d * 2 ^ 13 + c * 2 ^ 6 + i
  let onDie (kind n : Nat) : List Nat := (List.range 8).flatMap fun d => (List.range n).map fun i => kind * 2 ^ 28 + d * 2 ^ 13 + i
  inClu 1 9 ++ inClu 2 2 ++ inClu 3 4 ++ onDie 4 4 ++ (List.range 12).map (fun i => 4 * 2 ^ 28 + 2 ^ 16 + i) ++ onDie 5 32 ++ inClu 6 8

/-- An entry of the plot map (R396). -/
def unitEntry (r : Nat × Unit_) : List Byte := leBytes 8 (r.1 * 2 ^ 32 + r.2.state * 2 ^ 24 + r.2.score * 2 ^ 16 + r.2.cap)

/-- The unit name of a core. -/
def unitCore (c : Nat) : Nat := 2 ^ 28 + c / 2048 % 8 * 2 ^ 13 + c / 16 % 128 * 2 ^ 6 + c % 16

/-- A plot map: the header, an entry for each unit and, with STATE 5, for each logical position that is unmapped, and the
signature block (R396; log entry 96). -/
def plotBytes (ver time ctr : Nat) (units : SMap Unit_) (holes : List Nat) : List Byte :=
  let h := leBytes 4 ver ++ leBytes 2 0x0B01 ++ leBytes 2 (allUnits.length + holes.length) ++ leBytes 8 time ++ List.replicate 48 0#8
    ++ (allUnits.flatMap fun u => unitEntry (u, SMap.get {} u units)) ++ holes.flatMap fun l => unitEntry (unitCore l, { state := 5 })
  h ++ sigBlock 1 h ctr

/-- The logical positions of the partitions that no core stands for (R396, R397). -/
def State.holes (s : State) : List Nat :=
  s.parts.flatMap fun r => if r.2.alive && r.2.map != [] then r.2.names.filter fun l => SMap.get 0 l r.2.map == 0 else []

/-- /sys/plotmap (R396). -/
def State.plotFile (s : State) : List Byte := plotBytes s.pmVer s.pmTime s.flashCtr s.units s.holes

/-- The plot map that a record of the flash holds (R401, R404). -/
def Flash.file (f : Flash) : List Byte := plotBytes f.ver f.time f.ctr f.units f.holes

/-- /sys/fallow (R390). -/
def State.fallowFile (s : State) : List Byte :=
  leBytes 8 s.leases.length ++ s.leases.flatMap fun l =>
    leBytes 4 l.unit ++ leBytes 1 l.state ++ leBytes 3 0 ++ leBytes 8 l.start ++ leBytes 8 l.stop ++ word8 l.sig

/-- A measurement slot's 48 bytes. -/
def State.slotBytes (s : State) (i : Nat) : List Byte := leBytes 48 (SMap.get 0 i s.slots).toNat

/-- /sys/attest (R403): the latest quote and the certificate. The public keys are free values. -/
def State.attestFile (s : State) : List Byte :=
  let cert := (List.range 1984).map (Config.sigByte (3 * 2 ^ 64 + s.attKey)) ++ (List.range 4).flatMap s.slotBytes
  (s.quote ++ List.replicate 4096 0#8).take 4096 ++ cert ++ sigBlock 4 cert s.attKey

/-- /sys/plotmap/retired (R393); the full test signature is a free value past its low word. -/
def State.retiredFile (s : State) : List Byte :=
  let h := leBytes 8 s.retired.length ++ s.retired.flatMap fun r =>
    leBytes 4 r.unit ++ leBytes 4 r.pmv ++ leBytes 1 r.reason ++ leBytes 1 r.score ++ leBytes 2 0 ++ leBytes 4 r.boot
      ++ leBytes 8 r.time ++ (match r.sig with
        | some w => word8 w ++ (List.range 8).map (Config.sigByte (5 * 2 ^ 64 + w.toNat))
        | none => leBytes 16 0)
      ++ leBytes 24 0
  h ++ sigBlock 7 h s.flashCtr

/-- The bind log of a context (R346): all records in the firmware's, the latest 65,536 in a tenant's, none of them of an
ended context that had its identifier. -/
def State.bindFile (s : State) (x : Nat) : List Byte :=
  let l := s.bindLog.filter fun r => x = 0 || (r.tree == x && r.live)
  let n := if x = 0 then l.length else (SMap.get {} x s.ctxs).logn
  leBytes 8 n ++ (if x = 0 then l else l.drop (l.length - 65536)).flatMap fun r =>
    leBytes 8 r.time ++ leBytes 2 r.issuer ++ leBytes 1 r.flag ++ leBytes 5 0 ++ word8 r.new ++ word8 r.old

/-- /obj/oid.fmt of a node (R341). -/
def State.fmtFile (s : State) (n : Nat) : List Byte :=
  let k := SMap.get {} n s.nodes
  leBytes 1 (k.dfmt % 64) ++ leBytes 1 (if k.udf then 1 else 0) ++ leBytes 6 0

/-- What a record of /sys/time holds, and one of /sys/plotmap/events, as one number (R300, R386). -/
def TimeRec.code (r : TimeRec) : Nat := ((r.reason * 2 ^ 64 + r.start) * 2 ^ 64 + r.stop) * 2 ^ 64 + r.val
def EventRec.code (r : EventRec) : Nat :=
  r.data.foldl (fun a v => a * 2 ^ 64 + v.toNat) ((r.unit * 2 ^ 64 + r.time) * 2 ^ 12 + r.ctx)

/-- A file whose layout the spec leaves open: a count of its records, then 32 free bytes of each by what it holds (log
entry 14). -/
def openFile (file : Nat) (l : List Nat) : List Byte :=
  leBytes 8 l.length ++ l.flatMap fun r => (List.range 32).map (Config.fileByte file r)

/-- A system file by its number: 0 self, 1 plot map, 2 fallow, 3 attest, 4 time, 5 bind log, 6 events, 7 retired,
8 the format file of a node. -/
def State.sysFile (s : State) (n x : Nat) : List Byte :=
  match n with
  | 0 => s.selfFile x
  | 1 => s.plotFile
  | 2 => s.fallowFile
  | 3 => s.attestFile
  | 4 => openFile 4 (s.times.map TimeRec.code)
  | 5 => s.bindFile x
  | 6 => openFile 6 (s.events.map EventRec.code)
  | 7 => s.retiredFile
  | _ => s.fmtFile x

/-- The low doubleword of a remote ticket (R326). -/
def ticketLow (x h : Nat) (d : Desc) : Word :=
  let b (k w : Nat) : Nat := if d.rights / 2 ^ k % 2 = 1 then 2 ^ w else 0
  BitVec.ofNat 64 (d.gen % 256 * 2 ^ 56 + b 1 55 + b 0 54 + h % 2 ^ 13 * 2 ^ 41 + x % 2 ^ 12 * 2 ^ 29)

/-- The endpoint of a context's port on a die: never all-ones (R336). -/
def portName (d x : Nat) : Word :=
  let e := Config.endpoint d x
  if e = BitVec.allOnes 64 then 0 else e

/-- A doubleword of a context's port object on a die (R326, R336); the slot of a handle that is not open holds
a free value. -/
def State.portWord (s : State) (d x k : Nat) : Word :=
  if k = 0 then portName d x
  else if k = 1 then 0
  else
    let h := k / 2
    let e := SMap.get {} h (SMap.get {} x s.ctxs).hnd
    if e.st != .valid then Config.free (2 ^ 64 + k)
    else if k % 2 = 0 then ticketLow x h e else Config.ticketCheck (ticketLow x h e)

/-! ### The tables of the translation path (R105, R311, R312) -/

/-- STATE of a descriptor. -/
def HSt.code : HSt → Nat
  | .invalid => 0
  | .valid => 1
  | .revoking => 2
  | .revoked => 3

/-- A STATE from its code. -/
def HSt.ofCode (n : Nat) : HSt :=
  match n % 4 with
  | 0 => .invalid
  | 1 => .valid
  | 2 => .revoking
  | _ => .revoked

/-- The location of the root node of an object's tree, in units of 4 KiB; its other nodes follow it, level by level
(log entry 105). -/
def treeRoot (oid : Nat) : Nat := oid * 2 ^ 17

/-- A descriptor as a number of 256 bits; reserved bits are zero (R311). -/
def Desc.code (d : Desc) : Nat :=
  d.oid % 2 ^ 64 + (d.size - 1) % 2 ^ 42 * 2 ^ 64 + d.gen % 256 * 2 ^ 106 + d.st.code * 2 ^ 114 + d.rights % 64 * 2 ^ 116
    + d.dfmt % 64 * 2 ^ 122 + d.levels % 4 * 2 ^ 128 + (treeRoot d.oid + d.node) % 2 ^ 52 * 2 ^ 140 + d.owner % 2 ^ 12 * 2 ^ 192
    + (if d.isLazy then 2 ^ 204 else 0)

/-- The descriptor that a number of 256 bits codes; reserved bits are ignored (R4, R311). -/
def Desc.ofCode (n : Nat) : Desc :=
  { oid := n % 2 ^ 64, size := n / 2 ^ 64 % 2 ^ 42 + 1, gen := n / 2 ^ 106 % 256, st := HSt.ofCode (n / 2 ^ 114)
    rights := n / 2 ^ 116 % 64, dfmt := n / 2 ^ 122 % 64, levels := n / 2 ^ 128 % 4
    node := (n / 2 ^ 140 % 2 ^ 52 + 2 ^ 52 - treeRoot (n % 2 ^ 64) % 2 ^ 52) % 2 ^ 52
    owner := n / 2 ^ 192 % 2 ^ 12, isLazy := n / 2 ^ 204 % 2 == 1 }

/-- A leaf entry as a number of 128 bits (R312). -/
def Extent.code (e : Extent) (x : Nat) : Nat :=
  let b (f : Bool) (k : Nat) : Nat := if f then 2 ^ k else 0
  b e.present 56 + b e.ws 57 + b e.pin 58 + b e.z 59 + e.wheat % 4 * 2 ^ 60 + e.rheat % 4 * 2 ^ 62
    + (if e.ws then e.slot % 2 ^ 8 else e.slot % 2 ^ 15) * 2 ^ 81 + e.ch % 32 * 2 ^ 96 + e.die % 8 * 2 ^ 101 + x % 2 ^ 24 * 2 ^ 104

/-- An entry with what a number of 128 bits codes; what the station keeps of it stays (R312). -/
def Extent.recode (e : Extent) (n : Nat) : Extent :=
  let b (k : Nat) : Bool := n / 2 ^ k % 2 == 1
  { e with
    present := b 56, ws := b 57, pin := b 58, z := b 59, wheat := n / 2 ^ 60 % 4, rheat := n / 2 ^ 62 % 4
    slot := if b 57 then n / 2 ^ 81 % 2 ^ 8 else n / 2 ^ 81 % 2 ^ 15, ch := n / 2 ^ 96 % 32, die := n / 2 ^ 101 % 8 }

/-- The depth of an object's tree (R312). -/
def treeLevels (size : Nat) : Nat := if size ≤ 2 ^ 26 then 1 else if size ≤ 2 ^ 34 then 2 else 3

/-- The place among an object's nodes of the node at a depth on the way to extent x, in a tree of n levels. -/
def treeNode (n depth x : Nat) : Nat :=
  match depth with
  | 0 => 0
  | 1 => 1 + x / 2 ^ (8 * (n - 1)) % 256
  | _ => 257 + x / 2 ^ (8 * (n - 2)) % 65536

/-- The offset in an object's tree of the entry at a depth for extent x (R312). -/
def treeOff (n depth x : Nat) : Nat := treeNode n depth x * 4096 + x / 2 ^ (8 * (n - 1 - depth)) % 256 * 16

/-- The depth of the node in place k. -/
def depthOf (k : Nat) : Nat := if k = 0 then 0 else if k ≤ 256 then 1 else 2

/-- The extent of entry i of the node in place k, at the last level. -/
def leafExtent (k i : Nat) : Nat := if k = 0 then i else if k ≤ 256 then (k - 1) * 256 + i else (k - 257) * 256 + i

/-- The interior entry that a tree has from the start: the location of the child of entry i of the node in place k, and
PRESENT (R312). -/
def ownInterior (oid k i : Nat) : Nat :=
  let child := if k = 0 then 1 + i else 257 + (k - 1) * 256 + i
  (treeRoot oid + child) % 2 ^ 52 * 2 ^ 76 + 2 ^ 56

/-- An interior entry of an object's tree as a number of 128 bits: what a table store left, else its own (R312). -/
def Obj.interior (o : Obj) (oid k i : Nat) : Nat :=
  match SMap.get 0 (k * 4096 + 16 * i) o.inner with
  | 0 => ownInterior oid k i
  | n + 1 => n

/-- A byte of an object's tree (R312): entries of nodes beyond its depth are zero. -/
def Obj.treeByte (o : Obj) (oid off : Nat) (entry : Nat → Extent) : Byte :=
  let n := treeLevels o.size
  let k := off / 4096
  let i := off / 16 % 256
  let w := if depthOf k + 1 = n then (entry (leafExtent k i)).code (leafExtent k i)
    else if depthOf k + 1 < n then o.interior oid k i else 0
  BitVec.ofNat 8 (w / 2 ^ (8 * (off % 16)))

/-- A location lies in a handle table or an extent tree. -/
def isTable (l : Nat) : Bool := l / 2 ^ 120 == 2 && decide (oidTree ≤ l / 2 ^ 44 % 2 ^ 76) && decide (l / 2 ^ 44 % 2 ^ 76 < oidAssist)

/-- The key that no extent has; an extent with no row of its own is told by it. -/
def noExtent : Extent := { ch := 999 }

/-- The channels that advertise capacity, but for some, as die times 32 plus channel: no reserve is among them (R9, R11). -/
def homeChannels (avoid : List Nat) : List Nat :=
  (List.range 256).filter fun n => n % 32 != reserveCh (n / 32) && !avoid.contains n

/-- The home that the firmware gives an extent of an object it allocates at once: a free choice among the channels in
service (R11, R247). -/
def homeOf (avoid : List Nat) (oid x : Nat) : Nat × Nat :=
  let l := homeChannels avoid
  let n := l.getD (((Config.home oid x).1 * 32 + (Config.home oid x).2) % l.length) 0
  (n / 32, n % 32)

/-- The extent entry of an extent number of an object: its row, or the entry of an extent the object was made with. -/
def Obj.entry (o : Obj) (oid x : Nat) : Extent :=
  let e := SMap.get noExtent x o.ext
  if e = noExtent then
    { present := !o.isLazy, was := !o.isLazy, die := (homeOf o.avoid oid x).1, ch := (homeOf o.avoid oid x).2
      slot := Config.homeSlot oid x % 32768, pin := o.side || o.kind == .save }
  else e

/-- A byte of a handle table or an extent tree. -/
def State.tableByte (s : State) (oid off : Nat) : Byte :=
  if oidTable ≤ oid then
    BitVec.ofNat 8 ((SMap.get {} (off / 32) (SMap.get {} (oid - oidTable) s.ctxs).hnd).code / 2 ^ (8 * (off % 32)))
  else
    let o := SMap.get {} (oid - oidTree) s.objs
    o.treeByte (oid - oidTree) off (o.entry (oid - oidTree))

/-- What a byte without a performed write holds: for a table, a system file and a port object, what the state says; for a
peer's view, what the peer has put there; else the byte of memory. -/
def State.base (s : State) (l : Nat) : Byte :=
  if isTable l then s.tableByte (l / 2 ^ 44 % 2 ^ 76) (l % 2 ^ 44)
  else if l / 2 ^ 120 = 2 then
    let o := SMap.get {} (l / 2 ^ 44 % 2 ^ 76) s.objs
    let off := l % 2 ^ 44
    match o.kind with
    | .file n x => (s.sysFile n x).getD off 0#8
    | .port d => BitVec.ofNat 8 ((s.portWord d o.owner (off / 8)).toNat / 2 ^ (8 * (off % 8)))
    | .view => Config.viewByte l s.cyc
    | _ => SMap.get 0#8 l s.mem
  else SMap.get 0#8 l s.mem

end Sys2Proof.Machine
end

