-- ==== Sys2Proof/Machine/Ops.lean ====
section
/-! DEFINITION. The named operations over the state: cores, threads and registers (R28 to R40), fat pointers
(R17), the ordering machine's steps (R92 to R104), messages and trap delivery (R38, R279 to R286). -/

namespace Sys2Proof.Machine

/-! ### Names of places (R155) -/

/-- The die of a core name. -/
def dieOf (c : Nat) : Nat := c / 2048 % 8
/-- The number of a core's cluster in the package. -/
def clusterOf (c : Nat) : Nat := c / 16
/-- A core name with CC set. -/
def isCC (c : Nat) : Bool := c / 8 % 2 == 1
/-- A number put into a rising list. -/
def insertNat (n : Nat) : List Nat → List Nat
  | [] => [n]
  | m :: l => if n ≤ m then n :: m :: l else m :: insertNat n l
/-- A list in rising order. -/
def sortNats (l : List Nat) : List Nat := l.foldr insertNat []
/-- The position of a compute core in its cluster. -/
def coreIx (c : Nat) : Nat := c % 8
/-- The cluster control core of a core's cluster. -/
def ccOf (c : Nat) : Nat := c / 16 * 16 + 8
/-- The cluster numbers of the package: die × 128 + cluster, clusters 0 to 79 (R9, R155). -/
def clusterNames : List Nat := (List.range 8).flatMap fun d => (List.range 80).map fun k => d * 128 + k
/-- The compute cores of a cluster. -/
def coresOf (cl : Nat) : List Nat := (List.range 8).map fun i => cl * 16 + i

/-! ### Reading and writing parts of the state -/

/-- A core. -/
def State.core (s : State) (c : Nat) : Core := SMap.get {} c s.cores
/-- The state with a core replaced. -/
def State.setCore (s : State) (c : Nat) (k : Core) : State := { s with cores := SMap.set {} c k s.cores }
/-- The state with a core changed. -/
def State.modCore (s : State) (c : Nat) (f : Core → Core) : State := s.setCore c (f (s.core c))
/-- A thread of a core. -/
def Core.thread (k : Core) (t : Nat) : Thread := SMap.get {} t k.th
/-- The core with a thread replaced. -/
def Core.setThread (k : Core) (t : Nat) (x : Thread) : Core := { k with th := SMap.set {} t x k.th }
/-- A thread. -/
def State.thr (s : State) (c t : Nat) : Thread := (s.core c).thread t
/-- The state with a thread replaced. -/
def State.setThr (s : State) (c t : Nat) (x : Thread) : State := s.modCore c fun k => k.setThread t x
/-- The state with a thread changed. -/
def State.modThr (s : State) (c t : Nat) (f : Thread → Thread) : State := s.setThr c t (f (s.thr c t))
/-- The state with a thread's group changed. -/
def State.modGrp (s : State) (c t : Nat) (f : Group → Group) : State :=
  s.modThr c t fun x => { x with grp := f x.grp }
/-- A cluster. -/
def State.clu (s : State) (cl : Nat) : Cluster := SMap.get {} cl s.clus
/-- The state with a cluster changed. -/
def State.modClu (s : State) (cl : Nat) (f : Cluster → Cluster) : State :=
  { s with clus := SMap.set {} cl (f (s.clu cl)) s.clus }
/-- A die's Press and Network Engine. -/
def State.die (s : State) (d : Nat) : Die := SMap.get {} d s.dies
/-- The state with a die changed. -/
def State.modDie (s : State) (d : Nat) (f : Die → Die) : State :=
  { s with dies := SMap.set {} d (f (s.die d)) s.dies }
/-- A context. -/
def State.ctx (s : State) (x : Nat) : Context := SMap.get {} x s.ctxs
/-- The state with a context changed. -/
def State.modCtx (s : State) (x : Nat) (f : Context → Context) : State :=
  { s with ctxs := SMap.set {} x (f (s.ctx x)) s.ctxs }
/-- An object. -/
def State.obj (s : State) (o : Nat) : Obj := SMap.get {} o s.objs
/-- The state with an object changed. -/
def State.modObj (s : State) (o : Nat) (f : Obj → Obj) : State :=
  { s with objs := SMap.set {} o (f (s.obj o)) s.objs }
/-- A handle descriptor of a context. -/
def State.desc (s : State) (x h : Nat) : Desc := SMap.get {} h (s.ctx x).hnd
/-- The state with a descriptor replaced. -/
def State.setDesc (s : State) (x h : Nat) (d : Desc) : State :=
  s.modCtx x fun k => { k with hnd := SMap.set {} h d k.hnd }
/-- A node of the name trees. -/
def State.node (s : State) (n : Nat) : Node := SMap.get {} n s.nodes
/-- The state with a node changed. -/
def State.modNode (s : State) (n : Nat) (f : Node → Node) : State :=
  { s with nodes := SMap.set {} n (f (s.node n)) s.nodes }
/-- A partition. -/
def State.part (s : State) (tag : Nat) : Part_ := SMap.get {} tag s.parts
/-- The state with a partition changed. -/
def State.modPart (s : State) (tag : Nat) (f : Part_ → Part_) : State :=
  { s with parts := SMap.set {} tag (f (s.part tag)) s.parts }
/-- A launch. -/
def State.launch (s : State) (l : Nat) : Launch := SMap.get {} l s.launches
/-- The state with a launch changed. -/
def State.modLaunch (s : State) (l : Nat) (f : Launch → Launch) : State :=
  { s with launches := SMap.set {} l (f (s.launch l)) s.launches }
/-- A command queue. -/
def State.queue (s : State) (q : Nat) : Queue := SMap.get {} q s.queues
/-- The state with a queue changed. -/
def State.modQueue (s : State) (q : Nat) (f : Queue → Queue) : State :=
  { s with queues := SMap.set {} q (f (s.queue q)) s.queues }
/-- A serviceable unit. -/
def State.unit (s : State) (u : Nat) : Unit_ := SMap.get {} u s.units
/-- The state with a unit changed. -/
def State.modUnit (s : State) (u : Nat) (f : Unit_ → Unit_) : State :=
  { s with units := SMap.set {} u (f (s.unit u)) s.units }

/-- A fresh free value's number, and the state that has given it out (log entry 7). -/
def State.takeFree (s : State) : State × Nat := ({ s with free := s.free + 1 }, s.free)

/-- Domain time in A-cycles; two C-cycles pass per A-cycle (R13). DESIGN CHOICE (log entry 3): every core reads one clock, where
R13 lets two agents differ by 2 A-cycles. -/
def State.dtime (s : State) : Nat := s.dtimeBase + s.cyc / 2

/-- The context a thread runs in. -/
def State.ctxOf (s : State) (c t : Nat) : Nat := (s.thr c t).ctx

/-- The domain of a thread's context: 0 tenant, 1 host, 2 firmware (R241). -/
def State.domOf (s : State) (c t : Nat) : Nat := (s.ctx (s.ctxOf c t)).dom

/-! ### Logical and physical cores (R155, R258) -/

/-- The physical core that a logical name stands for in a partition; a cluster control core is not mapped. -/
def State.phys (s : State) (tag l : Nat) : Option Nat :=
  if isCC l then some l
  else match SMap.get 0 l (s.part tag).map with
    | 0 => none
    | n + 1 => some n

/-- The logical name that a row of a partition's table gives to a physical core. -/
def logicalIn (c : Nat) : SMap Nat → Option Nat
  | [] => none
  | (l, v) :: t => if v = c + 1 then some l else logicalIn c t

/-- A core's own logical name: a control core's own, and that of a core outside every partition is its
physical name (log entry 9). -/
def State.logical (s : State) (c : Nat) : Nat :=
  (logicalIn c (s.part (s.core c).ptag).map).getD c

/-- A core name that SEND, SENDI and MIGR may use (R155). -/
def State.coreNameOk (s : State) (tag : Nat) (w : Word) : Bool :=
  let n := w.toNat
  n < 2 ^ 14 && n / 16 % 128 < 80 && (if isCC n then coreIx n == 0 else (s.phys tag n).isSome)

/-! ### Synchronised stops (R370, R371) -/

/-- A stop covers a core: the core's own, or that of its partition. -/
def State.covers (s : State) (k : Stop) (c : Nat) : Bool :=
  if k.core then k.target == c else (s.core c).ptag != 0 && k.target == (s.core c).ptag

/-- A stop that covers a core has been announced: engines begin nothing new for it (R371). -/
def State.quiet (s : State) (c : Nat) : Bool :=
  (s.stops.any fun k => k.announced && s.covers k c) || ((s.core c).stopped && !(s.core c).isSealed)

/-- The time of a stop that covers a core has come, or the core has stopped (R370). -/
def State.stopReached (s : State) (c : Nat) : Bool :=
  (s.core c).stopped || s.stops.any fun k => decide (k.time ≤ s.dtime) && s.covers k c

/-! ### Fat pointers (R17, R47) -/

/-- FMT. -/
def fpFmt (p : Word) : Nat := p.toNat / 2 ^ 58
/-- BLG. -/
def fpBlg (p : Word) : Nat := p.toNat / 2 ^ 55 % 8
/-- HND. -/
def fpHnd (p : Word) : Nat := p.toNat / 2 ^ 42 % 2 ^ 13
/-- OFF. -/
def fpOff (p : Word) : Nat := p.toNat % 2 ^ 42
/-- The pointer with another offset. -/
def fpWith (p : Word) (off : Nat) : Word := BitVec.ofNat 64 (p.toNat / 2 ^ 42 * 2 ^ 42 + off % 2 ^ 42)
/-- A pointer built from a handle and an offset, FMT and BLG zero. -/
def fpMk (h off : Nat) : Word := BitVec.ofNat 64 (h % 2 ^ 13 * 2 ^ 42 + off % 2 ^ 42)
/-- FMT and BLG cleared, as in every code address. -/
def fpCode (p : Word) : Word := BitVec.ofNat 64 (p.toNat % 2 ^ 55)
/-- The pointer moved by a signed distance, none when the offset leaves 42 bits (R135). -/
def fpMove (p : Word) (d : Int) : Option Word :=
  let o := (fpOff p : Int) + d
  if o < 0 || o ≥ 2 ^ 42 then none else some (fpWith p o.toNat)

/-! ### Registers (R28, R38 to R40) -/

/-- The value of a g register: g0 reads as zero. -/
def Thread.gv (x : Thread) (n : Nat) : Word := if n = 0 then 0#64 else SMap.get 0#64 n x.g
/-- The full bit: g0 is always full. -/
def Thread.isFull (x : Thread) (n : Nat) : Bool := n == 0 || x.full.getLsbD n
/-- The poison bit: g0 is never poisoned. -/
def Thread.isPoison (x : Thread) (n : Nat) : Bool := n != 0 && x.poison.getLsbD n
/-- A mask with one bit. -/
def oneBit (w n : Nat) : BitVec w := BitVec.ofNat w (2 ^ n)
/-- A write of a g register by its own thread: sets it full and clears its poison mark; g0 discards it. -/
def Thread.setG (x : Thread) (n : Nat) (v : Word) : Thread :=
  if n = 0 then x
  else { x with
    g := SMap.set 0#64 n v x.g
    full := x.full ||| oneBit 16 n
    poison := x.poison &&& ~~~ oneBit 16 n
    rviews := SMap.set [] n [] x.rviews
    exs := SMap.set 0 n 0 x.exs
    lastSrc := SMap.set 0 n 0 x.lastSrc }
/-- A register made empty and unpoisoned; g0 stays full. -/
def Thread.emptyG (x : Thread) (n : Nat) : Thread :=
  if n = 0 then x
  else { x with full := x.full &&& ~~~ oneBit 16 n, poison := x.poison &&& ~~~ oneBit 16 n }
/-- The value of a predicate: p0 is true. -/
def Thread.pv (x : Thread) (n : Nat) : Bool := n % 8 == 0 || x.pr.getLsbD (n % 8)
/-- A write of a predicate: p0 discards it. -/
def Thread.setP (x : Thread) (n : Nat) (v : Bool) : Thread :=
  if n % 8 = 0 then x
  else { x with pr := if v then x.pr ||| oneBit 8 (n % 8) else x.pr &&& ~~~ oneBit 8 (n % 8) }
/-- An effect that writes its register when it is answered: WALK and OPEN (R245). -/
def Eff.answers (e : Eff) (n : Nat) : Bool := (e.op == 0xF0 || e.op == 0xF1) && e.rd == n
/-- A long-latency result of the thread's current group is due to a register (R38); that of WALK and of OPEN is due until
its answer at step 5 (R245). -/
def Thread.isDue (x : Thread) (n : Nat) : Bool :=
  (x.grp.res.any fun r => r.dest == .g n) || n != 0 && ((x.grp.defs.any fun e => e.answers n) || x.s5.any fun e => e.answers n)
/-- A delivery from outside the thread: the value, the views the message carries and its sender plus one,
zero for a sender that is no core (R38, R101, R387). -/
def Thread.fill (x : Thread) (n : Nat) (v : Word) (views : List View) (src : Nat) (poison : Bool) : Thread :=
  let wake := x.st == 2 && (x.prsn == 0x01 || x.prsn == 0x0B) && x.parkReg == n
  { x with
    g := SMap.set 0#64 n v x.g
    full := x.full ||| oneBit 16 n
    poison := if poison then x.poison ||| oneBit 16 n else x.poison &&& ~~~ oneBit 16 n
    rviews := SMap.set [] n views x.rviews
    lastSrc := SMap.set 0 n src x.lastSrc
    yielded := x.yielded || (wake && x.prsn == 0x0B)
    prsn := if wake then 0 else x.prsn
    st := if wake then 1 else x.st }

/-- The thread parks for a reason (R30); `n` holds the reason and, above 8 bits, the register it waits for. -/
def Thread.park (x : Thread) (n : Nat) : Thread :=
  if x.st = 2 then { x with parkReg := n / 256 } else { x with st := 2, prsn := n % 256, parkReg := n / 256 }
/-- The thread becomes ready (R30). -/
def Thread.wake (x : Thread) : Thread := { x with st := 1, prsn := 0 }

/-! ### Agents and scopes (R92, R94, R97) -/

/-- The agent of a thread; a core has eight. -/
def agThread (c t : Nat) : Nat := c * 8 + t
/-- A cluster's Vats and Rake (0, 1), Trellis (2) or Ladle (3). -/
def agEngine (cl k : Nat) : Nat := 2 ^ 20 + cl * 4 + k
/-- The agent of a cluster's Vats, and that of its Rake (R92). -/
def agVat (cl : Nat) : Nat := agEngine cl 0
def agRake (cl : Nat) : Nat := agEngine cl 1
/-- A die's Press (0) or Network Engine (1). -/
def agDie (d k : Nat) : Nat := 2 ^ 21 + d * 2 + k
/-- The walkers. -/
def agWalker : Nat := 2 ^ 22
/-- The hub's agents: 0 NSE, 1 supervisor and firmware, 2 the APC, 3 root of trust, 16 + q the command
processor of queue q. -/
def agHub (n : Nat) : Nat := 2 ^ 23 + n
/-- An agent of a peer package. -/
def agPeer (p : Nat) : Nat := 2 ^ 25 + p

/-- Where an agent stands: core, cluster and die where it has one, each plus one, and its package. -/
structure Stand where
  core : Nat := 0
  clu : Nat := 0
  die : Nat := 0
  pkg : Nat := 0
  deriving DecidableEq, Repr

/-- The place of an agent. -/
def standOf (a : Nat) : Stand :=
  if a < 2 ^ 17 then { core := a / 8 + 1, clu := a / 128 + 1, die := a / 16384 + 1 }
  else if a < 2 ^ 21 then { clu := (a - 2 ^ 20) / 4 + 1, die := (a - 2 ^ 20) / 512 + 1 }
  else if a < 2 ^ 22 then { die := (a - 2 ^ 21) / 2 + 1 }
  else if a < 2 ^ 25 then {}
  else { pkg := a - 2 ^ 25 + 1 }

/-- Two agents lie in one instance of a scope (R94). -/
def sameScope (a b scope : Nat) : Bool :=
  let x := standOf a
  let y := standOf b
  match scope with
  | 0 => a == b
  | 1 => x.core != 0 && x.core == y.core
  | 2 => x.clu != 0 && x.clu == y.clu
  | 3 => x.die != 0 && x.die == y.die
  | 4 => x.pkg == y.pkg
  | _ => true

/-! ### Locations (R97, R310) -/

/-- A byte of a core's banks. -/
def locBank (c off : Nat) : Nat := c * 2 ^ 44 + off
/-- A byte of a cluster's tiles. -/
def locTile (cl off : Nat) : Nat := 2 ^ 120 + cl * 2 ^ 44 + off
/-- A byte of an object. -/
def locObj (oid off : Nat) : Nat := 2 * 2 ^ 120 + oid * 2 ^ 44 + off
/-- The kind of a location: 0 bank, 1 tile, 2 object. -/
def locKind (l : Nat) : Nat := l / 2 ^ 120
/-- The core, cluster or object of a location. -/
def locId (l : Nat) : Nat := l / 2 ^ 44 % 2 ^ 76
/-- The offset of a location. -/
def locOff (l : Nat) : Nat := l % 2 ^ 44
/-- `n` consecutive locations. -/
def locs (l n : Nat) : List Nat := (List.range n).map (l + ·)

/-- Where a walk of an extent number ends that begins at a node with some levels to go (R312): the object and the extent
whose leaf entry it finds, if every interior entry on the way has PRESENT. A node's location tells its object and its place
among that object's nodes (log entry 105). -/
def State.walkGo (s : State) : Nat → Nat → Nat → Option (Nat × Nat)
  | 0, _, _ => none
  | r + 1, node, x =>
    let oid := node / 2 ^ 17
    let k := node % 2 ^ 17
    let o := s.obj oid
    let i := x / 2 ^ (8 * r) % 256
    if r = 0 then (if depthOf k + 1 = treeLevels o.size then some (oid, leafExtent k i) else none)
    else if depthOf k + 1 < treeLevels o.size then
      let w := o.interior oid k i
      if w / 2 ^ 56 % 2 = 1 then
        s.walkGo r (if w = ownInterior oid k i then treeRoot oid + (if k = 0 then 1 + i else 257 + (k - 1) * 256 + i) else w / 2 ^ 76) x
      else none
    else none

/-- The walk of an extent number of a descriptor's object, by its LEVELS from its NODE (R311, R312). -/
def State.walk (s : State) (d : Desc) (x : Nat) : Option (Nat × Nat) :=
  s.walkGo d.levels (if d.node = 0 then treeRoot d.oid else (treeRoot d.oid + d.node) % 2 ^ 52) x

/-- The extent entry of an extent number, which is not present where a walk of the object's own tree does not end there
(R312). -/
def State.extent (s : State) (oid x : Nat) : Extent :=
  let o := s.obj oid
  let e := o.entry oid x
  if o.inner.isEmpty then e
  else { e with present := e.present && s.walkGo (treeLevels o.size) (treeRoot oid) x == some (oid, x) }

/-- The state with an extent entry written. -/
def State.setExtent (s : State) (oid x : Nat) (e : Extent) : State :=
  s.modObj oid fun o => { o with ext := SMap.set noExtent x e o.ext }

/-- The home of a location lies in the scope instance of an agent (R97); a peer's view is homed in the peer's package. -/
def State.homeIn (s : State) (a l scope : Nat) : Bool :=
  let x := standOf a
  match locKind l with
  | 0 =>
    let c := locId l
    match scope with
    | 0 | 1 => x.core == c + 1
    | 2 => x.clu == clusterOf c + 1
    | 3 => x.die == dieOf c + 1
    | _ => true
  | 1 =>
    let cl := locId l
    match scope with
    | 0 | 1 => false
    | 2 => x.clu == cl + 1
    | 3 => x.die == cl / 128 + 1
    | _ => true
  | _ =>
    let away := (s.obj (locId l)).kind == .view
    match scope with
    | 0 | 1 | 2 => false
    | 3 => !away && x.die == (s.extent (locId l) (locOff l / 2 ^ 18)).die + 1
    | 4 => !away
    | _ => true

/-! ### The ordering machine (R93 to R99) -/

/-- The performed writes of a byte, oldest first. -/
def Oom.writes (o : Oom) (l : Nat) : List WByte := o.ws.filter fun w => w.loc == l
/-- u ≺ w; the initial write 0 is superseded by every other. -/
def Oom.below (o : Oom) (u w : Nat) : Bool := if u = 0 then w != 0 else o.sup.contains (u, w)
/-- The writes an agent has seen. -/
def Oom.front (o : Oom) (a : Nat) : List Nat := SMap.get [] a o.fr
/-- An agent has seen a write: itself, or because the machine has added it to every frontier (R333). -/
def Oom.knows (o : Oom) (a w : Nat) : Bool := (o.front a).contains w || o.all.contains w
/-- F(a, x) without the initial write. -/
def Oom.seenAt (o : Oom) (a l : Nat) : List Nat := ((o.writes l).map (·.id)).filter (o.knows a)
/-- eligible(a, x) (R95); 0 stands for the initial write. -/
def Oom.eligible (o : Oom) (a l : Nat) : List Nat :=
  let f := o.seenAt a l
  (if f.isEmpty then [0] else []) ++ ((o.writes l).map (·.id)).filter fun w => !f.any fun v => o.below w v
/-- H(x). -/
def Oom.home (o : Oom) (l : Nat) : Nat := SMap.get 0 l o.hl
/-- A write has been applied at its home or is superseded by one that has (R97, R98). -/
def Oom.settledAtHome (o : Oom) (w : WByte) : Bool :=
  w.applied || (o.writes w.loc).any fun v => v.applied && o.below w.id v.id
/-- Every write an agent has seen to a byte is settled at its home (R98). -/
def Oom.ready (o : Oom) (a l : Nat) : Bool :=
  (o.writes l).all fun w => !o.knows a w.id || o.settledAtHome w
/-- The agent with more writes seen. -/
def Oom.see (o : Oom) (a : Nat) (ids : List Nat) : Oom :=
  let f := o.front a
  { o with fr := SMap.set [] a (f ++ (ids.filter fun i => i != 0 && !f.contains i).dedup) o.fr }

/-- A write's relations: everything the agent has seen to the byte, and what that supersedes (R95). -/
def Oom.supBy (o : Oom) (vs : List Nat) (u : Nat) : List (Nat × Nat) :=
  let below := vs ++ (o.sup.filter fun p => vs.contains p.2).map (·.1)
  below.dedup.map fun v => (v, u)

/-- The bytes of one event performed one after another, given the writes each supersedes. -/
def Oom.putBytes (o : Oom) (a ev : Nat) (applied : Bool) : List Nat → List Byte → Oom
  | l :: ls, b :: bs =>
    let vs := (o.seenAt a l ++ if applied then ((o.writes l).filter (·.applied)).map (·.id) else []).dedup
    let u := o.nextId
    let o1 := { o with
      nextId := u + 1
      ws := o.ws ++ [({ id := u, ev := ev, loc := l, val := b, applied := applied } : WByte)]
      sup := o.sup ++ o.supBy vs u
      hl := if applied then SMap.set 0 l u o.hl else o.hl }
    Oom.putBytes (o1.see a [u]) a ev applied ls bs
  | _, _ => o

/-- The perform step of a write event by an agent: its bytes, the views it carries, and the scope of its own
release if it is one (R95, R99). `home` is set for an atomic step, which is applied at once (R98). -/
def Oom.put (o : Oom) (a : Nat) (ls : List Nat) (bs : List Byte) (carried : List View) (rel : Option Nat)
    (home : Bool) : Oom :=
  let ev := o.nextEv
  let o1 := Oom.putBytes { o with nextEv := ev + 1 } a ev home ls bs
  let own := match rel with
    | some sc => [({ scope := sc, pos := a, ids := o1.front a } : View)]
    | none => []
  { o1 with evs := SMap.set {} ev { agent := a, views := carried ++ own } o1.evs }

/-- The perform step in the state; what it writes is no longer uncorrectable (R398). -/
def State.put (s : State) (a : Nat) (ls : List Nat) (bs : List Byte) (carried : List View) (rel : Option Nat) : State :=
  { s with
    bad := s.bad.filter fun l => !ls.contains l
    oom := s.oom.put a ls bs carried rel false }

/-- The byte that a write left; 0 is the initial write. -/
def State.byteOf (s : State) (l id : Nat) : Byte :=
  match s.oom.ws.find? fun w => w.id == id && w.loc == l with
  | some w => w.val
  | none => s.base l

/-- The first preferred write that is eligible, else the one performed last (R96; log entry 1). -/
def pickOf (pref el : List Nat) : Nat :=
  match pref.find? el.contains with
  | some p => p
  | none => el.foldl Nat.max 0

/-- The picks of one event do not mix a write with one that it supersedes (R93). -/
def Oom.whole (o : Oom) (ls picks : List Nat) : Bool :=
  (ls.zip picks).all fun (_, p) =>
    match o.ws.find? fun w => w.id == p with
    | none => true
    | some w =>
      (ls.zip picks).all fun (l2, q) =>
        match o.ws.find? fun v => v.ev == w.ev && v.loc == l2 with
        | none => true
        | some v => q == v.id || !o.below q v.id

/-- The writes that one read event takes, byte by byte (R93, R96). -/
def State.picks (s : State) (a : Nat) (ls : List Nat) : List Nat :=
  let p := ls.map fun l => pickOf s.pref (s.oom.eligible a l)
  if s.oom.whole ls p then p else ls.map fun l => pickOf [] (s.oom.eligible a l)

/-- The picks of one line do not mix, of a store, vector operation or chunk that wrote the whole line, some bytes with
bytes that it supersedes; nor do they take any byte of one with pieces still to perform (R106). -/
def Oom.wholeLine (o : Oom) (busy : Nat → Bool) (ls picks : List Nat) : Bool :=
  (ls.zip picks).all fun (_, p) =>
    match o.ws.find? fun w => w.id == p with
    | none => true
    | some w =>
      let k := (SMap.get {} w.ev o.evs).whole
      let piece (l : Nat) : Option WByte := o.ws.find? fun v => v.loc == l && (SMap.get {} v.ev o.evs).whole == k
      k == 0 || (!busy k && (ls.zip picks).all fun (l2, q) =>
        match piece l2 with
        | none => true
        | some v => q == v.id || !o.below q v.id)

/-- The picks of a read step that takes lines whole (R106), if some choice among the eligible writes does: the preferred one,
else the latest writes, else the earliest. -/
def State.linePicks (s : State) (busy : Nat → Bool) (a : Nat) (ls : List Nat) : Option (List Nat) :=
  let pick (f : List Nat → Nat) : List Nat := ls.map fun l => f (s.oom.eligible a l)
  let low (el : List Nat) : Nat := el.foldl Nat.min (el.headD 0)
  [pick (pickOf s.pref), pick (pickOf []), pick low].find? fun p => s.oom.whole ls p && s.oom.wholeLine busy ls p

/-- The read step of a line fetch (R106). -/
def State.lineEv (s : State) (busy : Nat → Bool) (a : Nat) (ls : List Nat) : Option (State × List Byte) :=
  match s.linePicks busy a ls with
  | none => none
  | some p => some ({ s with oom := s.oom.see a p }, (ls.zip p).map fun (l, i) => s.byteOf l i)

/-- The events that some writes belong to. -/
def Oom.eventsOf (o : Oom) (ids : List Nat) : List Nat :=
  ((o.ws.filter fun w => ids.contains w.id).map (·.ev)).dedup

/-- The read step of one event by an agent: the bytes, and the events whose writes it took (R96). -/
def State.readEv (s : State) (a : Nat) (ls : List Nat) : State × List Byte × List Nat :=
  let p := s.picks a ls
  ({ s with oom := s.oom.see a p }, (ls.zip p).map fun (l, i) => s.byteOf l i, s.oom.eventsOf p)

/-- A location's bytes cut at aligned 8-byte pieces, `fuel` bounding their number (R93). -/
def piecesGo : Nat → Nat → Nat → List (Nat × Nat)
  | 0, _, _ => []
  | f + 1, l, n =>
    if n = 0 then []
    else
      let k := min n (8 - l % 8)
      (l, k) :: piecesGo f (l + k) (n - k)

/-- The pieces of a range (R93). -/
def pieces (l n : Nat) : List (Nat × Nat) := piecesGo (n / 8 + 2) l n

/-- A read of a range, one event per aligned 8-byte piece (R93). -/
def State.readRange (s : State) (a l n : Nat) : State × List Byte :=
  (pieces l n).foldl (fun (st, bs) (p, k) =>
    let (st1, b, _) := st.readEv a (locs p k)
    (st1, bs ++ b)) (s, [])

/-- A write of a range, one event per aligned 8-byte piece (R93). -/
def State.writeRange (s : State) (a l : Nat) (bs : List Byte) (carried : List View) : State :=
  (pieces l bs.length).foldl (fun st (p, k) => st.put a (locs p k) ((bs.drop (p - l)).take k) carried none) s

/-- An agent joins a view it may join (R99). -/
def State.joinView (s : State) (a scope : Nat) (v : View) : State :=
  if sameScope a v.pos scope && sameScope a v.pos v.scope then
    { s with oom := s.oom.see a (v.ids.filter fun i => s.oom.ws.any fun w => w.id == i) }
  else s

/-- An agent joins some views. -/
def State.joinViews (s : State) (a scope : Nat) (vs : List View) : State :=
  vs.foldl (fun st v => st.joinView a scope v) s

/-- The views that an event's write carries. -/
def State.viewsOf (s : State) (ev : Nat) : List View := (SMap.get {} ev s.oom.evs).views

/-- An agent joins the views of the events it read (R99). -/
def State.joinEvents (s : State) (a scope : Nat) (evs : List Nat) : State :=
  evs.foldl (fun st e => st.joinViews a scope (st.viewsOf e)) s

/-- A view of everything an agent has seen (R99). -/
def State.viewFrom (s : State) (a scope : Nat) : View := { scope := scope, pos := a, ids := s.oom.front a }

/-- An engine or the hub joins what a command carries (R100, R245). -/
def State.takeViews (s : State) (a : Nat) (vs : List View) : State := s.joinViews a 5 vs

/-- The atomic step of R98 by an agent on some bytes: what H holds, the events joined when it acquires, and
the new bytes, if it writes. Not enabled while a write it has seen is not settled. -/
def State.atomicReady (s : State) (a : Nat) (ls : List Nat) : Bool := ls.all fun l => s.oom.ready a l

/-- The bytes that the home holds. -/
def State.homeBytes (s : State) (ls : List Nat) : List Byte := ls.map fun l => s.byteOf l (s.oom.home l)

/-- The atomic step of R98: reads H, then writes `new` there, if it is given. `acq` and `rel` are the scopes
of its acquire and of its release. Answers the events it read. -/
def State.atomicStep (s : State) (a : Nat) (ls : List Nat) (acq rel : Option Nat) (carried : List View)
    (new : Option (List Byte)) : State × List Nat :=
  let old := ls.map s.oom.home
  let evs := s.oom.eventsOf old
  let s1 := { s with oom := s.oom.see a old }
  let s2 := match acq with
    | some sc => s1.joinEvents a sc evs
    | none => s1
  match new with
  | some bs => ({ s2 with
      bad := s2.bad.filter fun l => !ls.contains l
      oom := s2.oom.put a ls bs carried rel true }, evs)
  | none => (s2, evs)

/-- The home step of an event (R97): each byte not superseded by an applied write is applied. -/
def Oom.applyEv (o : Oom) (ev : Nat) : Oom :=
  (o.ws.filter fun w => w.ev == ev && !o.settledAtHome w).foldl (fun o w =>
    { o with
      ws := o.ws.map fun v => if v.id = w.id then { v with applied := true } else v
      hl := SMap.set 0 w.loc w.id o.hl }) o

/-- Home step enabled: some byte of the event is neither applied nor superseded at home. -/
def Oom.canApply (o : Oom) (ev : Nat) : Bool := o.ws.any fun w => w.ev == ev && !o.settledAtHome w

/-- Propagation enabled (R333): a byte of the event has been applied at its home and is not in every frontier yet. -/
def Oom.canPropagate (o : Oom) (ev : Nat) : Bool := o.ws.any fun w => w.ev == ev && w.applied && !o.all.contains w.id

/-- Some writes no longer told apart: nothing of the machine names them. -/
def Oom.forget (o : Oom) (gone : List Nat) : Oom :=
  { o with
    ws := o.ws.filter fun w => !gone.contains w.id
    sup := o.sup.filter fun p => !gone.contains p.1 && !gone.contains p.2
    fr := (o.fr.map fun r => (r.1, r.2.filter fun i => !gone.contains i)).filter fun r => !r.2.isEmpty
    all := o.all.filter fun i => !gone.contains i }

/-- A write that one in every frontier supersedes: no read may return it. -/
def Oom.dead (o : Oom) (w : WByte) : Bool := o.all.any fun g => o.below w.id g

/-- A write belongs to the event or to the whole of another. -/
def Oom.sameWhole (o : Oom) (v w : WByte) : Bool :=
  v.ev == w.ev || ((SMap.get {} w.ev o.evs).whole != 0 && (SMap.get {} v.ev o.evs).whole == (SMap.get {} w.ev o.evs).whole)

/-- A write stands for every agent as an initial write does: it is alone at its location, applied last at home and in
every frontier, and so is, or is superseded, all that it was performed with and all that its views hold. -/
def Oom.settled (o : Oom) (w : WByte) : Bool :=
  o.all.contains w.id && o.home w.loc == w.id && (o.writes w.loc).length == 1
    && (o.ws.all fun v => !o.sameWhole v w || o.all.contains v.id || o.dead v)
    && (SMap.get {} w.ev o.evs).views.all fun v => v.ids.all fun i => o.all.contains i || o.ws.all fun u => u.id != i

/-- A settled write becomes the byte that a location without a listed write holds (R333). -/
def State.settleByte (s : State) (w : WByte) : State :=
  { s with
    mem := SMap.set 0#8 w.loc w.val s.mem
    oom := { s.oom.forget [w.id] with hl := SMap.set 0 w.loc 0 s.oom.hl } }

/-- FRONTIER_PROPAGATION of an event (R333): its applied bytes join every frontier, what they supersede is gone, and
what is settled is no longer told apart; an event that a thread has read keeps the views its writes carried, for the
thread's later fence (R99). `busy` says which wholes have pieces still to perform. -/
def State.propagate (s : State) (busy : Nat → Bool) (ev : Nat) : State :=
  let o := s.oom
  let o1 : Oom := { o with all := (o.all ++ ((o.ws.filter fun w => w.ev == ev && w.applied).map (·.id))).dedup }
  let o2 := o1.forget ((o1.ws.filter o1.dead).map (·.id))
  let s2 : State := { s with oom := o2 }
  let done := o2.ws.filter fun w => o2.settled w && !busy (SMap.get {} w.ev o2.evs).whole
  let s3 := done.foldl (fun st w => st.settleByte w) s2
  let seen (e : Nat) : Bool := s3.cores.any fun k => k.2.th.any fun t => t.2.seen.contains e
  { s3 with oom := { s3.oom with evs := s3.oom.evs.filter fun r => (s3.oom.ws.any fun w => w.ev == r.1) || seen r.1 } }

/-- The events performed from a number on, of those that lie in lines all of which they wrote, are the pieces of one
store, vector operation or chunk (R106). -/
def State.asWhole (s : State) (whole since : Nat) : State :=
  let new := s.oom.ws.filter fun w => since ≤ w.ev
  let line (w : WByte) : Bool := (List.range 64).all fun i => new.any fun v => v.loc == w.loc / 64 * 64 + i
  { s with oom := { s.oom with
      evs := s.oom.evs.map fun r =>
        (r.1, if since ≤ r.1 && new.any (fun w => w.ev == r.1 && line w) then { r.2 with whole := whole } else r.2) } }

/-- The latest event is a vector operation's of a core: its writes stand over those of the core's earlier operations
(R189). -/
def Oom.overVec (o : Oom) (c : Nat) : Oom :=
  let ev := o.nextEv - 1
  let old (w : WByte) : List Nat :=
    ((o.writes w.loc).filter fun v => v.ev != ev && (SMap.get {} v.ev o.evs).vec == c + 1).map (·.id)
  let o1 := (o.ws.filter fun w => w.ev == ev).foldl (fun o w =>
    { o with sup := o.sup ++ ((o.supBy (old w) w.id).filter fun p => !o.sup.contains p) }) o
  { o1 with evs := SMap.set {} ev { SMap.get {} ev o1.evs with vec := c + 1 } o1.evs }

/-- The number of the whole that the eight pieces of a thread's SHST make (R211). -/
def shstWhole (a seq : Nat) : Nat := 2 ^ 64 * (a + 1) + seq

/-- The number of the whole that a vector operation of a thread makes, and that of a Ladle chunk (R106). -/
def vecWhole (a seq : Nat) : Nat := 2 ^ 128 + shstWhole a seq
def chunkWhole (ev : Nat) : Nat := 2 ^ 129 + ev

/-- The latest event is a piece of a thread's SHST, if that is what the store is. -/
def State.asPiece (s : State) (whole : Nat) : State :=
  if whole = 0 then s
  else { s with oom := { s.oom with
    evs := s.oom.evs.map fun r => (r.1, if r.1 + 1 = s.oom.nextEv then { r.2 with whole := whole } else r.2) } }

/-- Pieces of a whole wait in some commit queue. -/
def State.piecesWait (s : State) (whole : Nat) : Bool :=
  whole != 0 && s.cores.any fun k => k.2.th.any fun r => r.2.cq.any fun e => e.whole == whole

/-- A write made by the firmware or the device outside any program: performed, applied and seen by every
agent in one step (scrubbing, zero-fill, directory and record updates). -/
def State.poke (s : State) (l : Nat) (bs : List Byte) : State :=
  { s with
    mem := (locs l bs.length).zip bs |>.foldl (fun m (x, b) => SMap.set 0#8 x b m) s.mem
    oom := { s.oom with
      ws := s.oom.ws.filter fun w => !(l ≤ w.loc && w.loc < l + bs.length)
      hl := s.oom.hl.filter fun r => !(l ≤ r.1 && r.1 < l + bs.length) } }

/-- The rows of memory for some bytes from a location on. -/
def rowsOf (l : Nat) : List Byte → List Host.Cell
  | [] => []
  | b :: bs => if b = 0#8 then rowsOf (l + 1) bs else (l, b) :: rowsOf (l + 1) bs

/-- A long write of the firmware, as `State.poke` makes a short one. -/
def State.blit (s : State) (l : Nat) (bs : List Byte) : State :=
  let n := bs.length
  { s with
    mem := s.mem.filter (fun r => r.1 < l) ++ rowsOf l bs ++ s.mem.filter (fun r => l + n ≤ r.1)
    oom := { s.oom with
      ws := s.oom.ws.filter fun w => !(l ≤ w.loc && w.loc < l + n)
      hl := s.oom.hl.filter fun r => !(l ≤ r.1 && r.1 < l + n) } }

/-- The bytes of a range made zero for every agent (R213, R320, R345). -/
def State.zeroRange (s : State) (l n : Nat) : State :=
  { s with
    mem := s.mem.filter fun r => !(l ≤ r.1 && r.1 < l + n)
    oom := { s.oom with
      ws := s.oom.ws.filter fun w => !(l ≤ w.loc && w.loc < l + n)
      hl := s.oom.hl.filter fun r => !(l ≤ r.1 && r.1 < l + n) } }

/-- What a device read outside any agent's frontier finds: the home's bytes. -/
def State.peek (s : State) (l n : Nat) : List Byte := s.homeBytes (locs l n)

/-! ### Messages to handlers (R280 to R283) -/

/-- g1 of a trap or notification message. -/
def msgG1 (thr cls sub cause : Nat) : Word :=
  BitVec.ofNat 64 (thr % 8 * 2 ^ 24 + cls % 256 * 2 ^ 16 + sub % 256 * 2 ^ 8 + cause % 256)

/-- A message sets out for a core's handler. -/
def State.sendHandler (s : State) (dst : Nat) (m : HMsg) : State :=
  { s with hmsgs := s.hmsgs ++ [{ dst := dst, msg := m }] }

/-- A notification of class 1, 2, 3 or 6 for a context; `from_` is the source core of the thread concerned, plus one, where
the message goes to another core (R280). -/
def State.notify (s : State) (dst cls cause sub thr : Nat) (pc info : Word) (ctx : Nat) (from_ : Nat := 0) : State :=
  s.sendHandler dst { g1 := msgG1 thr cls sub cause, g2 := pc, g3 := info, ctx := ctx, from_ := from_ }

/-- The handler entry of a context: the doubleword at 0x08 of /ctx/self (R282). -/
def State.handlerEntry (s : State) (x : Nat) : Word := (s.ctx x).handler

/-! ### Tasks and threads (R117, R166) -/

/-- A task starts on a thread (R166): the registers of R166, with the group, buffers and fetch state of a
thread between groups. The mailbox and what the thread has seen stay. -/
def Thread.start (x : Thread) (r : TaskRec) (views : List View) : Thread :=
  { x with
    g := [(1, r.a1), (2, x.wid), (3, r.a3), (4, r.a4)].filter fun p => p.2 != 0#64
    full := 0xFFFF#16
    poison := 0#16
    pr := 0#8
    exs := []
    lastSrc := []
    recast := false
    drop := none
    pc := fpCode r.entry
    st := 1
    prsn := 0
    grp := {}
    phase := .issue
    s5 := []
    late := []
    post := .none
    fb := []
    rviews := []
    task := r
    answers := []
    rinds := 0
    snap := none
    yielded := false
    voteWait := false
    postponed := .none
    msgViews := x.msgViews ++ views }

/-- A thread becomes free (R117, R255): nothing of its group stays. -/
def Thread.release (x : Thread) : Thread :=
  { x with
    wasFree := true, drop := none
    st := 0, prsn := 0, grp := {}, phase := .issue, s5 := [], late := [], post := .none, snap := none
    answers := [], assist := none, yielded := false, postponed := .none, voteWait := false, duo := false }

end Sys2Proof.Machine
end

