-- ==== Sys2Proof/Machine/Handlers.lean ====
section
/-! DEFINITION. The handler thread's queues: which message comes next, what a queue that has emptied tells, and how a
message moves into t7 (R166, R259, R281 to R283). -/

namespace Sys2Proof.Machine

/-! ### The handler thread's queues (R281 to R283) -/

/-- The context whose handler a message waits for on a core, the oldest deliverable message of the trap queue
first, then of the notification queue. On a control core the contexts are served in turn. -/
def State.nextMsg (s : State) (c : Nat) (x : Nat) : Option HMsg :=
  let k := s.core c
  match k.tq.find? fun m => m.ready && m.ctx == x with
  | some m => some m
  | none => (SMap.get [] x k.nq).head?

/-- The contexts with a message waiting on a core. -/
def Core.waiting (k : Core) : List Nat := ((k.tq.map (·.ctx)) ++ (k.nq.map (·.1))).dedup

/-- The next context in turn after the one last served whose queue holds a deliverable message. -/
def State.nextCtx (s : State) (c : Nat) : Option Nat :=
  let k := s.core c
  let ok := k.waiting.filter fun x => s.handlerEntry x != 0 && (s.nextMsg c x).isSome
  let up := ok.filter (· > k.serving)
  match (if up.isEmpty then ok else up) with
  | [] => none
  | a :: l => some (l.foldl Nat.min a)

/-- The notification that tells how many messages a queue has dropped: sub-code 1 for late faults, 2 for notifications
(R281). -/
def lostMsg (sub n now x : Nat) : HMsg :=
  { g1 := msgG1 0 6 sub 0x4F, g2 := 0, g3 := BitVec.ofNat 64 (min n (2 ^ 32 - 1)), ctx := x, since := now }

/-- A queue of a core that has emptied tells what it has dropped: the trap queue to context x, and the notification queue
of context x (R281, R283). -/
def Core.tellLost (k : Core) (now x : Nat) : Core :=
  let k1 := if k.tq.isEmpty && k.tqDrop > 0 then
      { k with tqDrop := 0, nq := SMap.set [] x (SMap.get [] x k.nq ++ [lostMsg 1 k.tqDrop now x]) k.nq }
    else k
  let n := SMap.get 0 x k1.nqDrop
  if (SMap.get [] x k1.nq).isEmpty && n > 0 then
    { k1 with nqDrop := SMap.set 0 x 0 k1.nqDrop, nq := SMap.set [] x [lostMsg 2 n now x] k1.nq }
  else k1

/-- The time in which a context must acknowledge a degradation counts from the delivery of its first 0xA3 (R256, R397). -/
def State.told (s : State) (m : HMsg) : State :=
  let v := m.g3.toNat
  if m.g1.toNat % 256 = 0xA3 ∧ m.g1.toNat / 2 ^ 16 % 256 = 3 ∧ (s.ctx m.ctx).pmver < v then
    s.modCtx m.ctx fun k => if k.due.any fun d => d.1 == v then k else { k with due := k.due ++ [(v, s.dtime)] }
  else s

/-- A message leaves its queue; a class-0 message sets LCAUSE (R280); a queue that empties after it has
dropped messages tells how many (R281). -/
def State.takeMsg (s : State) (c x : Nat) (m : HMsg) : State :=
  let k := s.core c
  let inTq := k.tq.contains m
  let thr := m.g1.toNat / 2 ^ 24 % 8
  let k1 := if inTq then { k with tq := k.tq.erase m }
    else { k with nq := SMap.set [] x ((SMap.get [] x k.nq).erase m) k.nq }
  let k2 := if inTq then k1.setThread thr { k1.thread thr with lcause := m.g1.toNat % 256 } else k1
  (s.told m).setCore c (k2.tellLost s.dtime x)

/-- g1 to g3 of t7 are empty and not reserved. -/
def Thread.roomForMsg (x : Thread) : Bool := [1, 2, 3].all fun n => !x.isFull n && !x.isDue n

/-- A thread context that has run no thread of its core's launch joins it: it takes t0's WID (R166), and having been free
it counts as arrived at every barrier (R170). -/
def Thread.joinLaunch (x : Thread) (k : Core) : Thread :=
  if x.lid = k.lid then x
  else { x with lid := k.lid, queue := k.queue, bars := [], wid := k.wid0, hasWid := true, wasFree := true }

/-- The context whose message moves into the registers of a t7 that runs: its own on a control core; elsewhere that of the
oldest trap, else of the oldest notification (R281, R283). -/
def Core.msgCtx (k : Core) (cc : Bool) (own : Nat) : Nat :=
  if cc then own
  else match k.tq.find? (·.ready) with
    | some m => m.ctx
    | none => ((k.nq.find? fun r => !r.2.isEmpty).map (·.1)).getD own

/-- A halted core issues again once something has been delivered into a register of its t7 (R259). -/
def State.haltWake (s0 s1 : State) (d : Nat) : State :=
  let before := s0.thr d 7
  let after := s1.thr d 7
  if after.full ≠ before.full ∨ after.st ≠ before.st ∨ after.g ≠ before.g then s1.modCore d fun k => { k with halted := false } else s1

/-- A message moves into t7: it starts t7 when t7 is free, as a task of the launch for which a compute core was placed,
else fills g1 to g3 as a whole once all three are empty (R166, R281, R282). -/
def State.pump (s : State) (c : Nat) : State :=
  let x := s.thr c 7
  if x.st = 0 then
    match s.nextCtx c with
    | none => s
    | some cx =>
      match s.nextMsg c cx with
      | none => s
      | some m =>
        let s1 := (s.takeMsg c cx m).modCore c fun k => { k with serving := cx, served := s.dtime }
        let k := s.core c
        let mine := !isCC c && k.lid != 0 && (s.launch k.lid).ctx == cx
        s.haltWake (s1.modThr c 7 fun y =>
          ({ (if mine then y.joinLaunch k else y) with ctx := cx }.start
            { entry := s.handlerEntry cx, a1 := m.g1, a3 := m.g3 } []).setG 2 m.g2) c
  else if x.roomForMsg then
    let cx := (s.core c).msgCtx (isCC c) x.ctx
    match s.nextMsg c cx with
    | none => s
    | some m =>
      s.haltWake ((s.takeMsg c cx m).modThr c 7 fun y =>
        ((y.fill 1 m.g1 [] 0 false).fill 2 m.g2 [] 0 false).fill 3 m.g3 [] 0 false) c
  else s

/-- The messages of a context that has come to have a handler entry start the handlers that are free (R282, R283). -/
def State.pumpCtx (s : State) (x : Nat) : State :=
  s.cores.foldl (fun st r => if r.2.waiting.contains x then st.pump r.1 else st) s

end Sys2Proof.Machine
end

