-- ==== Sys2Proof/Machine/Objects.lean ====
section
/-! DEFINITION. Handles, the checks of `Translate` (R8, R140), the cluster-local map (R310), extents and
their heat (R311 to R316, R320), and weight-store windows (R318). -/

namespace Sys2Proof.Machine

/-! ### The cluster-local map (R310) -/

/-- The region that a handle-0 offset lies in: 1 to 3 the banks, 16 + t tile t, 4 and 5 the holes. -/
def region (o : Nat) : Nat :=
  if o < 0x10000 then 1
  else if o < 0x20000 then 2
  else if o < 0x30000 then 3
  else if o < 0x100000 then 4
  else if o < 0x500000 then 16 + (o - 0x100000) / 0x10000
  else 5

/-- A region with something behind it. -/
def isMapped (r : Nat) : Bool := r != 4 && r != 5

/-- The location of a mapped handle-0 offset as a core sees it. -/
def locLocal (c o : Nat) : Nat :=
  if o < 0x30000 then locBank c o else locTile (clusterOf c) (o - 0x100000)

/-- The handle-0 offset of a bank or tile location. -/
def offLocal (l : Nat) : Nat := if locKind l = 1 then locOff l + 0x100000 else locOff l

/-- The fat pointer of a tile. -/
def tilePtr (t : Nat) : Word := fpMk 0 (0x100000 + t * 0x10000)

/-- The address that a fault of an access names: for a tile that is not owned, the tile's own (R287). -/
def faultPtr (cause : Nat) (p : Word) : Word := if cause = 0x20 then tilePtr (region (fpOff p) - 16) else p

/-- A tile of a cluster. -/
def Cluster.tile (k : Cluster) (t : Nat) : Tile := SMap.get {} t k.tiles

/-- The tile's owner is a context. -/
def State.ownsTile (s : State) (cl x t : Nat) : Bool := ((s.clu cl).tile t).own == .ctx x

/-! ### Checked accesses -/

/-- A checked access: its first byte, the handle it passed its check on, and what its extents say: one that is not
present, one that is scrub-pending (its `zKey`, zero for none), and from which offset on it is weight-resident. -/
structure Ok where
  loc : Nat
  hnd : Nat := 0
  np : Option (Nat × Nat) := none
  z : Nat := 0
  ws : Option Nat := none
  side : Bool := false
  deriving DecidableEq, Repr

/-- What a thread that parks for a scrub-pending extent waits for: the extent's number, never zero (R320, R351). -/
def zKey (oid x : Nat) : Nat := oid * 2 ^ 24 + x + 1

/-- The rights of R137 by bit number. -/
def rRead : Nat := 0
def rWrite : Nat := 1
def rExec : Nat := 2
def rAtomic : Nat := 3
def rEngine : Nat := 4
def rSide : Nat := 5

/-- The translation station that serves a channel of a die (log entry 8). -/
def stationOf (d ch : Nat) : Nat := d * 8 + ch % 8

/-- The location of a handle's descriptor in its context's table (R311, log entry 105). -/
def descLoc (x h : Nat) : Nat := locObj (oidTable + x) (32 * h)

/-- The location of an extent's leaf entry in its object's tree (R312, log entry 105). -/
def State.leafLoc (s : State) (oid x : Nat) : Nat :=
  let n := treeLevels (s.obj oid).size
  locObj (oidTree + oid) (treeOff n (n - 1) x)

/-- The translation station that serves an extent: that of its home channel, or that of its weight-store bank, whose
channel its entry does not tell (R97, R312, log entry 8). -/
def Extent.station (e : Extent) (x : Nat) : Nat := stationOf e.die (if e.ws then x % 16 else e.ch)

/-- The first of the changes of an entry, in their order, whose earlier copy a station still holds: no change before it was
still hidden from the station when it came (R105). -/
def copyGo (l st now : Nat) : Nat → List Stale → Option Stale
  | _, [] => none
  | busy, k :: ks =>
    let until_ := Config.copyUntil st l k.since
    if k.loc != l || !k.left.contains st then copyGo l st now busy ks
    else if busy ≤ k.since ∧ now < until_ then some k else copyGo l st now (max busy until_) ks

/-- The copy of a table entry that a station uses until it drops it, or the entry's shoot-down reaches it (R105). -/
def State.copyAt (s : State) (l st : Nat) : Option Stale := copyGo l st s.cyc 0 s.stale

/-! ### Table stores (R105, R152, R251, R311, R312) -/

/-- The translation stations of the package. -/
def stations : List Nat := List.range 64

/-- An entry of `size` bytes with some of them replaced. -/
def patchEntry (n size off : Nat) (bs : List Byte) : Nat :=
  let l := leBytes size n
  leNat (l.take off ++ bs ++ l.drop (off + bs.length))

/-- A store of some bytes of one descriptor: walks that begin from now on use it, and every station may go on using the
valid one that it takes the place of until a TSHOOT (R105). -/
def State.storeDesc (s : State) (x h off : Nat) (bs : List Byte) : State :=
  let d := s.desc x h
  let e := Desc.ofCode (patchEntry d.code 32 off bs)
  let s1 := s.setDesc x h e
  if d.st = .valid ∧ e ≠ d then { s1 with stale := s1.stale ++ [{ loc := descLoc x h, desc := d, left := stations, since := s.cyc }] } else s1

/-- A store of some bytes of one leaf entry, as `State.storeDesc` makes one of a descriptor. -/
def State.storeLeaf (s : State) (oid x off : Nat) (bs : List Byte) : State :=
  let e := (s.obj oid).entry oid x
  let f := { e.recode (patchEntry (e.code x) 16 off bs) with cached := false }
  let s1 := s.setExtent oid x f
  if e.present ∧ f.code x ≠ e.code x then { s1 with stale := s1.stale ++ [{ loc := s.leafLoc oid x, entry := e, left := stations, since := s.cyc }] }
  else s1

/-- A store of some bytes of one interior entry: the child's location and PRESENT, every other bit being zero (R312). -/
def State.storeInterior (s : State) (oid k i off : Nat) (bs : List Byte) : State :=
  s.modObj oid fun o =>
    let w := patchEntry (o.interior oid k i) 16 off bs
    let v := w / 2 ^ 76 * 2 ^ 76 + w / 2 ^ 56 % 2 * 2 ^ 56
    { o with inner := SMap.set 0 (k * 4096 + 16 * i) (if v = ownInterior oid k i then 0 else v + 1) o.inner }

/-- A store of bytes that lie in one entry of a table. -/
def State.storeEntry (s : State) (l : Nat) (bs : List Byte) : State :=
  let off := locOff l
  if oidTable ≤ locId l then s.storeDesc (locId l - oidTable) (off / 32) (off % 32) bs
  else
    let oid := locId l - oidTree
    let k := off / 4096
    let i := off / 16 % 256
    let n := treeLevels (s.obj oid).size
    if depthOf k + 1 = n then s.storeLeaf oid (leafExtent k i) (off % 16) bs
    else if depthOf k + 1 < n then s.storeInterior oid k i (off % 16) bs else s

/-! ### Stores to the system files (R340, R341, R352) -/

/-- Some bytes put into others from an offset. -/
def overlay (old : List Byte) (o : Nat) (new : List Byte) : List Byte := old.take o ++ new ++ old.drop (o + new.length)

/-- The wait of R282 for a handler entry begins anew for a context's messages, whose entry may go (R283). -/
def State.restartWaits (s : State) (x : Nat) : State :=
  let now (m : HMsg) : HMsg := if m.ctx = x then { m with since := s.dtime } else m
  { s with cores := s.cores.map fun r => (r.1, { r.2 with tq := r.2.tq.map now, nq := r.2.nq.map fun q => (q.1, q.2.map now) }) }

/-- A store to a system file: the handler entry in bytes 8 to 15 of /ctx/self (R340), for which messages may have waited
(R282), and a node's format (R341). The
other files show what the machine holds, and a store changes nothing there (DESIGN CHOICE, log entry 130). -/
def State.storeFile (s : State) (oid off : Nat) (bs : List Byte) : State :=
  match (s.obj oid).kind with
  | .file 0 x =>
    if off + bs.length ≤ 8 ∨ 16 ≤ off then s
    else
      let old := (s.ctx x).handler
      let v := overlay (List.replicate 8 0#8 ++ leBytes 8 old.toNat ++ List.replicate 16 0#8) off bs
      ((if old = 0 then s else s.restartWaits x).modCtx x fun k => { k with handler := BitVec.ofNat 64 (leAt v 8 8) }).pumpCtx x
  | .file 8 n =>
    let v := overlay (s.fmtFile n) off bs
    s.modNode n fun k => { k with dfmt := leAt v 0 1 % 64, udf := leAt v 1 1 % 2 == 1 }
  | _ => s

/-- A location of a table or of a system file: no memory stands behind it. -/
def State.isSys (s : State) (l : Nat) : Bool :=
  isTable l || (locKind l == 2 && match (s.obj (locId l)).kind with | .file _ _ => true | _ => false)

/-- A store of bytes that lie in one entry of a table, or in a system file. -/
def State.storeSys (s : State) (l : Nat) (bs : List Byte) : State :=
  if isTable l then s.storeEntry l bs else s.storeFile (locId l) (locOff l) bs

/-- A write performs. One to a table changes its entry for every walk from now on (R105, log entry 105); one to a system
file changes what the file shows (R340). -/
def State.putMem (s : State) (a : Nat) (ls : List Nat) (bs : List Byte) (carried : List View) (rel : Option Nat) : State :=
  if s.isSys (ls.headD 0) then (pieces (ls.headD 0) bs.length).foldl (fun st (p, k) =>
    st.storeSys p ((bs.drop (p - ls.headD 0)).take k)) s
  else s.put a ls bs carried rel

/-- A write of a range by an engine or a command, through the tables and the system files too (R105, R340). -/
def State.writeAt (s : State) (a l : Nat) (bs : List Byte) (carried : List View) : State :=
  if s.isSys l then s.putMem a [l] bs carried none else s.writeRange a l bs carried

/-- A handle's descriptor as a station's check sees it: one that a shoot-down has still to reach, and that holds a copy,
sees it as it was; where it holds none, its walk finds the mark (R105, R349). -/
def State.descAt (s : State) (x h st : Nat) : Desc :=
  let d := s.desc x h
  if s.shoots.any fun k => !k.entry && k.ctx == x && k.hnd == h && k.toReach.contains st
      && decide (s.cyc < Config.copyUntil st (descLoc x h) k.since) then { d with st := .valid }
  else match s.copyAt (descLoc x h) st with
    | some k => k.desc
    | none => d

/-- A handle's state as a station's check sees it. -/
def State.stateAt (s : State) (x h st : Nat) : HSt := (s.descAt x h st).st

/-- An extent's entry as its station sees it (R105). -/
def State.extentAt (s : State) (oid x : Nat) : Extent :=
  let e := s.extent oid x
  match s.copyAt (s.leafLoc oid x) (e.station x) with
  | some k => k.entry
  | none => e

/-- The extents of a range. -/
def extentsOf (o n : Nat) : List Nat :=
  if n = 0 then [] else (List.range ((o + n - 1) / 2 ^ 18 + 1 - o / 2 ^ 18)).map (· + o / 2 ^ 18)

/-- The object and the extent that an extent number of a descriptor's object leads to; where a walk finds no entry, the
object's own. -/
def State.walkTo (s : State) (d : Desc) (x : Nat) : Nat × Nat := (s.walk d x).getD (d.oid, x)

/-- The location of an offset of a descriptor's object. -/
def State.placeOf (s : State) (d : Desc) (o : Nat) : Nat :=
  let w := s.walkTo d (o / 2 ^ 18)
  locObj w.1 (w.2 * 2 ^ 18 + o % 2 ^ 18)

/-- The first extent of a range that is not present (R312, R314). -/
def State.absent (s : State) (d : Desc) (o n : Nat) : Option (Nat × Nat) :=
  ((extentsOf o n).find? fun x => match s.walk d x with
    | none => true
    | some w => !(s.extentAt w.1 w.2).present).map (s.walkTo d)

/-- The offset from which a range lies in an extent with a property, the range's own first. -/
def State.firstIn (s : State) (d : Desc) (o n : Nat) (p : Extent → Bool) : Option Nat :=
  ((extentsOf o n).find? fun x => p (s.extentAt (s.walkTo d x).1 (s.walkTo d x).2)).map fun x => max o (x * 2 ^ 18)

/-- The first scrub-pending extent of a range (R320). -/
def State.unscrubbedIn (s : State) (d : Desc) (o n : Nat) : Nat :=
  match (extentsOf o n).find? fun x => (s.extentAt (s.walkTo d x).1 (s.walkTo d x).2).z with
  | some x => zKey (s.walkTo d x).1 (s.walkTo d x).2
  | none => 0

/-- The station that serves a location of an object. -/
def State.stationAt (s : State) (l : Nat) : Nat := (s.extent (locId l) (locOff l / 2 ^ 18)).station (locOff l / 2 ^ 18)

/-- A pointer's descriptor as the check at the station of its extent sees it (R8, R349). -/
def State.handleAt (s : State) (x : Nat) (p : Word) : Desc :=
  s.descAt x (fpHnd p) (s.stationAt (s.placeOf (s.desc x (fpHnd p)) (fpOff p)))

/-- A context's write of a queue's control block outside WIDX, or of WIDX without the atomic right (R353), one of
/ctx/self outside the handler entry, but for firmware (R340, R352), and any access through a make handle (R382). -/
def State.ctlBars (s : State) (x : Nat) (d : Desc) (o n right : Nat) : Bool :=
  match (s.obj d.oid).kind with
  | .file 0 _ => (right == rWrite || right == rAtomic) && (s.ctx x).dom != 2 && !(decide (8 ≤ o) && decide (o + n ≤ 16))
  | .ctl _ => (right == rWrite || right == rAtomic) && (decide (8 < o + n) || !bit d.rights rAtomic)
  | .make _ => true
  | _ => false

/-- The checks of a handle other than 0 (R8): valid, not revoked, rights, bounds, alignment; then presence,
which is no fault. -/
def State.checkHandle (s : State) (x : Nat) (p : Word) (n align right : Nat) : Except (Nat × Nat) Ok :=
  let h := fpHnd p
  let o := fpOff p
  let d := s.handleAt x p
  match d.st with
  | .invalid => .error (0x13, 0)
  | .revoking => .error (0x14, 0)
  | .revoked => .error (0x14, 0)
  | .valid =>
    if right < 6 && !bit d.rights right then .error (0x12, 0)
    else if s.ctlBars x d o n right then .error (0x12, 0)
    else if o + n > d.size then .error (0x11, 0)
    else if o % align != 0 then .error (0x16, 0)
    else .ok
      { loc := s.placeOf d o, hnd := h, np := s.absent d o n, z := s.unscrubbedIn d o n,
        ws := s.firstIn d o n (·.ws), side := bit d.rights rSide }

/-- The checks of handle 0 (R140, R310): one region, mapped, its tile owned, aligned. `given` lists the tiles
that the group has handed over (R103). -/
def State.checkLocal (s : State) (c x : Nat) (given : List Nat) (p : Word) (n align : Nat) : Except (Nat × Nat) Ok :=
  let o := fpOff p
  let r := region o
  if n > 0 && region (o + n - 1) != r then .error (0x23, 1)
  else if !isMapped r then .error (0x23, 0)
  else if r ≥ 16 && (!s.ownsTile (clusterOf c) x (r - 16) || given.contains (r - 16)) then .error (0x20, 0)
  else if o % align != 0 then .error (0x16, 0)
  else .ok { loc := locLocal c o }

/-- `Translate` (R8) for an access of `n` bytes by a thread of core `c` in context `x`. -/
def State.translate (s : State) (c x : Nat) (given : List Nat) (p : Word) (n align right : Nat) :
    Except (Nat × Nat) Ok :=
  if fpHnd p = 0 then s.checkLocal c x given p n align else s.checkHandle x p n align right

/-! ### Heat (R315) -/

/-- A heat after an access and its count of passes: a walk raises it, and so does every 4,096th access that passes
through the station's copy of the entry. -/
def heatUp (walk : Bool) (acc heat : Nat) : Nat × Nat :=
  if walk then (acc, min 3 (heat + 1)) else if acc + 1 < 4096 then (acc + 1, heat) else (0, min 3 (heat + 1))

/-- An access by an agent through a station, which walks for an entry that it holds no copy of (R315, log entry 106); the
die whose station made it is counted (R316). -/
def State.heat (s : State) (a l : Nat) (write : Bool) : State :=
  if locKind l = 2 ∧ !isTable l then
    let oid := locId l
    let x := locOff l / 2 ^ 18
    let e := (s.obj oid).entry oid x
    let r := if write then (e.racc, e.rheat) else heatUp (!e.cached) e.racc e.rheat
    let w := if write then heatUp (!e.cached) e.wacc e.wheat else (e.wacc, e.wheat)
    let d := (standOf a).die
    s.setExtent oid x
      { e with
        cached := true, racc := r.1, rheat := r.2, wacc := w.1, wheat := w.2
        byDie := if d = 0 then e.byDie else SMap.set 0 (d - 1) (SMap.get 0 (d - 1) e.byDie + 1) e.byDie }
  else s

/-- The report of a not-present extent, made once while it is outstanding, with the die of the core that reports it, plus
one (R314). -/
def State.report (s : State) (oid x : Nat) (die : Nat := 0) : State :=
  let e := (s.obj oid).entry oid x
  s.setExtent oid x { e with reported := true, rep := if e.reported then e.rep else die }

/-! ### The weight store (R313, R318) -/

/-- The bank now in its refresh window. -/
def State.bankNow (s : State) : Nat := s.dtime / 3400 % 16

/-- WSWIN (R254, R318). -/
def State.wswin (s : State) : Nat := (3399 - s.dtime % 3400) * 2 ^ 16 + s.bankNow

/-- A read of a location would meet its bank's refresh window. -/
def State.inWindow (s : State) (l : Nat) : Bool :=
  locKind l == 2 && (s.extent (locId l) (locOff l / 2 ^ 18)).ws && locOff l / 2 ^ 18 % 16 == s.bankNow

end Sys2Proof.Machine
end

