-- ==== Sys2Proof/Machine/Deliver.lean ====
section
/-! DEFINITION. Mailboxes, the handler thread's queues, traps, barriers, and the start and end of tasks
(R38, R117, R166, R170, R279 to R286, R303, R366). Taking a trap is `State.trapThread`; the return is
`State.resumeThread`. -/

namespace Sys2Proof.Machine

/-! ### Barriers (R169 to R171) -/

/-- Little-endian field of a launch header. -/
def hdrAt (h : List Byte) (o n : Nat) : Nat := leAt h o n

/-- The level count L of a launch header (R271). -/
def hdrLevels (h : List Byte) : Nat := bits (hdrAt h 0x08 8) 36 3
/-- Width i. -/
def hdrWidth (h : List Byte) (i : Nat) : Nat := bits (hdrAt h 0x08 8) (6 * i) 6
/-- Extent i. -/
def hdrExt (h : List Byte) (i : Nat) : Nat := hdrAt h (0x10 + 2 * i) 2
/-- Groups per gang. -/
def hdrGpg (h : List Byte) : Nat := hdrAt h 0x1C 2
/-- Threads per group. -/
def hdrTpg (h : List Byte) : Nat := hdrAt h 0x1E 1
/-- lo_i: the widths of the fields after field i (R169). -/
def hdrLo (h : List Byte) (i : Nat) : Nat :=
  ((List.range (hdrLevels h)).filter (· > i)).foldl (fun a k => a + hdrWidth h k) 0

/-- The threads a launch may have: those of every core of the package that hold its number. -/
def State.threadsOf (s : State) (l : Nat) : List (Nat × Nat) :=
  s.cores.flatMap fun (c, k) => (k.th.filter fun r => r.2.lid == l).map fun r => (c, r.1)

/-- The set of threads that a barrier level names for a thread (R170). -/
def State.barSet (s : State) (c t lvl : Nat) : List (Nat × Nat) :=
  let x := s.thr c t
  let h := (s.launch x.lid).hdr
  (s.threadsOf x.lid).filter fun (c2, t2) =>
    if lvl = 0 then c2 == c
    else (s.thr c2 t2).wid.toNat / 2 ^ hdrLo h (lvl - 1) == x.wid.toNat / 2 ^ hdrLo h (lvl - 1)

/-- A thread's record at a level. -/
def Thread.bar (x : Thread) (lvl : Nat) : BarSt := SMap.get {} lvl x.bars

/-- Phase k of a level is complete for a thread's set: every member has arrived in it or has become free. -/
def State.phaseDone (s : State) (c t lvl k : Nat) : Bool :=
  (s.barSet c t lvl).all fun (c2, t2) =>
    let y := s.thr c2 t2
    y.st == 0 || y.wasFree || k ≤ (y.bar lvl).count

/-- The views of every arrival in phase k. -/
def State.phaseViews (s : State) (c t lvl k : Nat) : List View :=
  (s.barSet c t lvl).flatMap fun (c2, t2) =>
    let b := (s.thr c2 t2).bar lvl
    if b.count = k then b.views else if b.count = k + 1 then b.prev else if b.count = k + 2 then b.prev2 else []

/-- The scope of a barrier level (R171). -/
def barScope (lvl : Nat) : Nat := if lvl = 0 then 1 else 2

/-- A thread that waits for a phase ends its wait if the phase is complete, and joins its arrivals' views. -/
def State.barWake (s : State) (c t lvl : Nat) : State :=
  let x := s.thr c t
  let k := (x.bar lvl).count
  let owed := x.cq.any fun e => e.kind == .bar && e.code == lvl
  if x.phase == .barrier lvl && !owed && s.phaseDone c t lvl k then
    (s.joinViews (agThread c t) (barScope lvl) (s.phaseViews c t lvl k)).modThr c t fun y =>
      { y.wake with phase := .issue }
  else s

/-- Waits of a launch that may have ended. -/
def State.barWakeAll (s : State) (l : Nat) : State :=
  (s.threadsOf l).foldl (fun st (c, t) =>
    match (st.thr c t).phase with
    | .barrier lvl => st.barWake c t lvl
    | _ => st) s

/-- The lanes that a claim of a group not yet committed holds on a core. -/
def Core.pendGrant (k : Core) : Nat :=
  k.th.foldl (fun a r => r.2.grp.undo.foldl (fun b u => match u.2 with | .grant g => max b g | _ => b) a) 0

/-- The lanes that a core holds: its grant, or what a pending claim has taken beyond it. -/
def Core.lanes (k : Core) : Nat := max k.grant k.pendGrant

/-- The lanes of a cluster's pool that are in service and that no other core holds. -/
def State.freeLanes (s : State) (c : Nat) : Nat :=
  64 - (s.clu (clusterOf c)).lanesOff
    - ((coresOf (clusterOf c)).filter (· != c)).foldl (fun a d => a + (s.core d).lanes) 0

/-- A core whose grant is below its launch's lane hint is raised toward it from the free lanes (R197). -/
def State.raiseLane (s : State) (c : Nat) : State :=
  let k := s.core c
  if k.grant < k.hint then
    s.modCore c fun q => { q with grant := min q.hint (q.grant + (s.freeLanes c - q.lanes)) }
  else s

/-- What the completion of a phase brings: at core level the shadow table's activation (R36); at another level,
where the set holds threads on two or more cores of a cluster, more lanes, in core order (R197). -/
def State.phaseComplete (s : State) (c t lvl : Nat) : State :=
  if lvl = 0 then s.modCore c fun k => { k with activate := true }
  else
    let cores := ((s.barSet c t lvl).map (·.1)).dedup
    let many := cores.filter fun d => (cores.filter fun e => clusterOf e == clusterOf d).length ≥ 2
    (sortNats many).foldl (fun st d => st.raiseLane d) s

/-- The latest phase of a level that a thread of the set has arrived in. -/
def State.topPhase (s : State) (c t lvl : Nat) : Nat :=
  (s.barSet c t lvl).foldl (fun k (c2, t2) => max k ((s.thr c2 t2).bar lvl).count) 0

/-- The levels of a thread's launch at which the latest phase is not complete. -/
def State.openLevels (s : State) (c t : Nat) : List Nat :=
  (List.range 7).filter fun lvl => s.topPhase c t lvl > 0 && !s.phaseDone c t lvl (s.topPhase c t lvl)

/-- A core of a barrier's set whose partition tag is not that of the arriving core, which drops the arrival (R366). -/
def State.barBarred (s : State) (c t lvl : Nat) : Option Nat :=
  ((s.barSet c t lvl).map (·.1)).find? fun d => (s.core d).ptag != (s.core c).ptag

/-- The arrival of a thread at a level: a release (R170, R171). -/
def State.arriveBar (s : State) (c t lvl : Nat) : State :=
  let v := (s.thr c t).rel ++ [s.viewFrom (agThread c t) (barScope lvl)]
  let s1 := s.modThr c t fun x =>
    let b := x.bar lvl
    { x with bars := SMap.set {} lvl { count := b.count + 1, views := v, prev := b.views, prev2 := b.prev } x.bars }
  let s2 := if s1.phaseDone c t lvl ((s1.thr c t).bar lvl).count then s1.phaseComplete c t lvl else s1
  s2.barWakeAll (s.thr c t).lid

/-! ### Mailboxes (R26, R38) -/

/-- Some message of the handler's queues waits, so that a mailbox message for g1 to g3 of t7 may not move in: on a control
core, of the queue of any context (DESIGN CHOICE, log entry 136: R281 says only "both queues"). -/
def State.handlerBusy (s : State) (c : Nat) : Bool :=
  let k := s.core c
  !k.tq.isEmpty || k.nq.any fun r => !r.2.isEmpty

/-- A mailbox message may move into its register now. -/
def State.mayMove (s : State) (c t : Nat) (m : Mbx) : Bool :=
  let x := s.thr c t
  !x.isFull m.reg && !x.isDue m.reg
    && !(t == 7 && m.reg ≤ 3 && s.handlerBusy c)
    && !(t == 7 && isCC c && m.ctx != x.ctx)

/-- A message moves into its register. -/
def Thread.take (x : Thread) (m : Mbx) : Thread := x.fill m.reg m.val m.views m.src m.poison

/-- A message is for the task that runs: on a control core, one of the running context (R366). -/
def State.forTask (s : State) (c t : Nat) (m : Mbx) : Bool := !(t == 7 && isCC c) || m.ctx == (s.thr c t).ctx

/-- The oldest waiting message of each register that may move in does so, `seen` listing the registers whose
oldest message has been looked at. A message of another context than the one that a control core's t7 runs in holds none
back (DEDUCED from R366; log entry 108). -/
def State.moveIn (s : State) (c t : Nat) : List Mbx → List Nat → List Mbx → State
  | [], _, keep => s.modThr c t fun x => { x with mbx := keep.reverse }
  | m :: ms, seen, keep =>
    if !seen.contains m.reg && s.mayMove c t m then
      State.moveIn (s.modThr c t fun x => x.take m) c t ms (m.reg :: seen) keep
    else State.moveIn s c t ms (if s.forTask c t m then m.reg :: seen else seen) (m :: keep)

/-- What follows when registers of a thread may have emptied: the handler's queues first, then the mailbox
(R38, R281). -/
def State.settleMbx (s : State) (c t : Nat) : State :=
  let s1 := if t = 7 then s.pump c else s
  let s2 := s1.moveIn c t (s1.thr c t).mbx [] []
  if t = 7 then s1.haltWake s2 c else s2

/-- A message arrives at a thread: into the empty register, else into the mailbox; none while the mailbox
is full (R38). -/
def State.deliver (s : State) (c t : Nat) (m : Mbx) : Option State :=
  let x := s.thr c t
  if s.mayMove c t m && !x.mbx.any fun w => w.reg == m.reg && s.forTask c t w then
    some (let s1 := s.modThr c t fun y => y.take m; if t = 7 then s.haltWake s1 c else s1)
  else if (x.mbx.filter fun w => !isCC c || w.ctx == m.ctx).length < 16 then
    some (s.modThr c t fun y => { y with mbx := y.mbx ++ [m] })
  else none

/-! ### The end of a task (R117, R162, R303) -/

/-- The topmost record of the deque that no DQPOP has reserved. -/
def Core.topRec (k : Core) : Option DqRec := (k.deque.filter fun r => r.res == 0).getLast?

/-- The bottom record that no DQPOP has reserved. -/
def Core.botRec (k : Core) : Option DqRec := (k.deque.filter fun r => r.res == 0).head?

/-- A record leaves the deque. -/
def Core.dropRec (k : Core) (id : Nat) : Core := { k with deque := k.deque.filter fun r => r.id != id }

/-- A task record starts on a thread of a core, joining the view of its push (R166, R305). A context that
has run no thread of the core's launch takes t0's WID. -/
def State.startTask (s : State) (c t : Nat) (r : TaskRec) (views : List View) : State :=
  let k := s.core c
  let s1 := s.modThr c t fun x =>
    let y := x.joinLaunch k
    { y with ctx := if x.lid = k.lid then x.ctx else (s.launch k.lid).ctx }.start r []
  s1.joinViews (agThread c t) 5 views

/-- The role table's entry of a core (R161). -/
def State.roleOf (s : State) (c : Nat) : BitVec 16 := SMap.get 0#16 (coreIx c) (s.clu (clusterOf c)).roles

/-- The code address of a role (R162). -/
def State.roleEntry (s : State) (c : Nat) : Word :=
  SMap.get 0#64 ((s.roleOf c).toNat / 2 ^ 14) (s.clu (clusterOf c)).vec

/-- The wait of R282 leaves out the time for which t7 served another context (R283). -/
def Core.holdWaits (k : Core) (now x : Nat) : Core :=
  let late (m : HMsg) : HMsg := if m.ctx = x then m else { m with since := m.since + (now - max m.since k.served) }
  { k with tq := k.tq.map late, nq := k.nq.map fun r => (r.1, r.2.map late) }

/-- The oldest late fault that has not stopped its thread yet (R284). -/
def Core.lateOf (k : Core) (t : Nat) : Option HMsg :=
  k.tq.find? fun m => m.late && !m.ready && m.g1.toNat / 2 ^ 24 % 8 == t

/-- A late fault's message becomes deliverable; that of a compute core's handler thread, no other issuing the commands
that meet one (R162, R202), is a class-5 message for the control core (R282). -/
def State.readyLate (s : State) (c t : Nat) (m : HMsg) : State :=
  if t = 7 then
    (s.modCore c fun k => ({ k with tq := k.tq.filter fun w => w.id != m.id } : Core).tellLost s.dtime m.ctx).sendHandler (ccOf c)
      { g1 := msgG1 7 5 (m.g1.toNat / 2 ^ 8 % 256) (m.g1.toNat % 256), g2 := m.g2, g3 := m.g3, ctx := m.ctx, from_ := c + 1 }
  else
    (s.modCore c fun k => { k with tq := k.tq.map fun w => if w.id = m.id then { w with ready := true, since := s.dtime } else w }).pump c

/-- The late faults of a thread that has no task left stop nothing, and their messages become deliverable at once (R284). -/
def State.endLates (s : State) (c t : Nat) : State :=
  ((s.core c).tq.filter fun m => m.late && !m.ready && m.g1.toNat / 2 ^ 24 % 8 == t).foldl (fun st m => st.readyLate c t m) s

/-- The tile that firmware holds for the log of a duo copy becomes free, and is zero-filled (R213, R394). -/
def State.dropLog (s : State) (c t : Nat) : State :=
  match (s.thr c t).logTile with
  | 0 => s
  | n + 1 =>
    (s.modClu (clusterOf c) fun k => { k with tiles := SMap.set {} n { own := .free, filling := true } k.tiles }).modThr c t fun x =>
      { x with logTile := 0 }

/-- A thread becomes free (STATE 0): its late faults stop nothing (R284). It counts as arrived from now on, which may complete phases, and a core
phase that it completes activates the shadow table (R36, R170); messages may start t7 (R282). -/
def State.freeThread (s : State) (c t : Nat) : State :=
  let levels := s.openLevels c t
  let s1 := (s.dropLog c t).modThr c t fun x => x.release
  let s2 := levels.foldl (fun st lvl =>
    if s1.phaseDone c t lvl (s1.topPhase c t lvl) then st.phaseComplete c t lvl else st) s1
  let s3 := (s2.barWakeAll (s.thr c t).lid).endLates c t
  if t = 7 then (s3.modCore c fun k => k.holdWaits s.dtime k.serving).pump c else s3

/-- A thread's task has ended (R117): a recast core's thread takes its new role's entry (R162); else the top
record of the deque starts; else the thread is free. R303 keeps t7 from the records only while it is free; a control
core has no deque (log entry 16). -/
def State.endTask (s : State) (c t : Nat) : State :=
  let x := s.thr c t
  if x.recast && s.roleEntry c != 0 && !isCC c then
    s.modThr c t fun y => y.start { entry := s.roleEntry c, a1 := (s.roleOf c).zeroExtend 64 } []
  else
    match (if isCC c then none else (s.core c).topRec) with
    | some r => (s.modCore c fun k => k.dropRec r.id).startTask c t r.task r.views
    | none => s.freeThread c t

/-! ### Traps (R279 to R284) -/

/-- The kernel of a context ends on a cluster (R282): its threads there become free, and its launches end
with 0xB6 and the unhandled cause. -/
def State.endKernelOn (s : State) (cl x cause : Nat) : State :=
  let mine := s.launches.filter fun r => r.2.ctx == x && !r.2.ended && r.2.cores.any fun c => clusterOf c == cl
  let s1 := mine.foldl (fun st (l, _) => st.modLaunch l fun k => { k with cause := 0xB6, last := cause, waiting := false }) s
  (s1.cores.filter fun r => clusterOf r.1 == cl).foldl (fun st (c, k) =>
    let st1 := st.modCore c fun q => ({ q with due7 := none, deque := [], tq := q.tq.filter (fun m => m.ctx != x), nq := SMap.set [] x [] q.nq } : Core).tellLost s.dtime x
    k.th.foldl (fun st2 (t, y) => if y.ctx = x && y.st ≠ 0 && y.lid ≠ 0 then st2.freeThread c t else st2) st1) s1

/-- A fault of a handler thread (R282): a compute core's is a class-5 message for the control core; a control core's ends
the context's kernel on the cluster. -/
def State.handlerFault (s : State) (c cause sub : Nat) (pc info : Word) (x : Nat) : State :=
  if isCC c then (s.modThr c 7 fun y => { y with lcause := cause }).endKernelOn (clusterOf c) x cause
  else s.sendHandler (ccOf c) { g1 := msgG1 7 5 sub cause, g2 := pc, g3 := info, ctx := x, from_ := c + 1 }

/-- The message of a trap sets out for its own core's queue; that of a handler thread goes as R282 says. -/
def State.trapMsg (s : State) (c t cause sub : Nat) (pc info : Word) : State :=
  let x := (s.thr c t).ctx
  if t = 7 then s.handlerFault c cause sub pc info x
  else s.sendHandler c { g1 := msgG1 t 0 sub cause, g2 := pc, g3 := info, ctx := x }

/-- Taking an exception: the one operation by which a thread traps (R55, R280, R282, R284). The thread stops
in STATE 4 with its resume point; the message goes to t7 of its core. A fault of a handler thread frees t7. -/
def State.trapThread (s : State) (c t cause sub : Nat) (pc info resume : Word) : State :=
  if t = 7 then (s.trapMsg c t cause sub pc info).freeThread c t
  else
    (s.trapMsg c t cause sub pc info).modThr c t fun y =>
      { y with st := 4, prsn := 0, resume := resume, grp := {}, phase := .issue, s5 := [], late := [], post := .none, snap := none }

/-- The return from an exception: the thread becomes ready at a code address with an empty fetch buffer, and
its first line fetch joins the view of the TRET (R255). -/
def State.resumeThread (s : State) (c t : Nat) (pc : Word) (views : List View) : State :=
  (s.modThr c t fun y =>
    { y with st := 1, prsn := 0, pc := fpCode pc, fb := [], grp := {}, phase := .issue }).joinViews (agThread c t) 5 views

/-- A late fault is recorded: it takes its place in the trap queue at once and becomes deliverable when its
thread stops, or at once when the thread has no task left (R281, R284). -/
def State.lateFault (s : State) (c t cause sub : Nat) (head info : Word) : State :=
  let k := s.core c
  let x := k.thread t
  let m : HMsg :=
    { g1 := msgG1 t 0 sub cause, g2 := head, g3 := info, ctx := x.ctx, late := true, ready := false, id := k.hnext, since := s.dtime }
  if (k.tq.filter fun m => m.g1.toNat / 2 ^ 24 % 8 == t).length ≥ 4 then
    s.modCore c fun q => { q with tqDrop := q.tqDrop + 1 }
  else
    let s1 := s.modCore c fun q => { q with tq := q.tq ++ [m], hnext := q.hnext + 1 }
    if x.st = 0 then s1.readyLate c t m else s1

/-- The thread stops for a late fault, whose message becomes deliverable: STATE 4 until TRET, resuming after
the marker (R284). A handler thread becomes free (R282). -/
def State.stopLate (s : State) (c t : Nat) (resume : Word) : State :=
  match (s.core c).lateOf t with
  | none => s
  | some m =>
    if t = 7 then s.freeThread c t
    else (s.modThr c t fun x => { x with st := 4, prsn := 0, resume := resume }).readyLate c t m

end Sys2Proof.Machine
end

