-- ==== Sys2Proof/Machine/Operands.lean ====
section
/-! DEFINITION. Reading the operands of an issuing instruction (R8, R39, R40, R46, R49), its immediates
(R108), the static facts the group rules count (R50 to R54), and what an instruction answers at issue. -/

namespace Sys2Proof.Machine

/-- Why an issuing instruction does not go through: a fault of its own, a park (R8), a subnormal assist with the record it
leaves (R72, R73), or a line fetch that has still to perform (R106): the thread then issues it in a later turn. -/
inductive NoGo where
  | trap (cause sub : Nat) (info : Word)
  | park (prsn : Nat)
  | assist (rec : List Byte)
  | hold
  deriving DecidableEq, Repr

/-- The answer of a check. -/
abbrev Try := Except NoGo

/-- A trap of the issuing instruction. -/
def trap {α : Type} (cause sub : Nat) (info : Word) : Try α := .error (.trap cause sub info)

/-- The value of a register as an instruction of the group reads it: its value before the group where a long-latency
result is due to it (R8). -/
def Thread.inGroup (x : Thread) (n : Nat) : Word :=
  match if x.isDue n then x.grp.old.find? fun r => r.1 == n else none with
  | some r => r.2
  | none => x.gv n

/-- Both sources of a pair read the registers as they stood before the pair (R49). -/
def Thread.src (x : Thread) (n : Nat) : Word × Bool × Bool :=
  match x.snap with
  | none => (x.inGroup n, x.isFull n, x.isPoison n)
  | some k =>
    (if n = 0 then 0#64 else SMap.get 0#64 n k.g, n == 0 || k.full.getLsbD n, n != 0 && k.poison.getLsbD n)

/-- ReadG (R8, R39, R40). -/
def Thread.readG (x : Thread) (n : Nat) : Try Word :=
  let (v, full, poison) := x.src n
  if n = 0 then .ok 0#64
  else if !full then (if x.isDue n then trap 0x46 0 (BitVec.ofNat 64 n) else .error (.park (0x01 + 256 * n)))
  else if poison then trap 0x40 0 (BitVec.ofNat 64 n)
  else .ok v

/-- A predicate source. -/
def Thread.readP (x : Thread) (n : Nat) : Bool :=
  match x.snap with
  | none => x.pv n
  | some k => n % 8 == 0 || k.pr.getLsbD (n % 8)

/-- A guard field: bit 3 negates (R45). -/
def Thread.guard (x : Thread) (pg : Nat) : Bool := (pg ≥ 8) != x.readP pg

/-- A field of `w` bits read as two's complement. -/
def sx (w n : Nat) : Int := if n % 2 ^ w < 2 ^ (w - 1) then (n % 2 ^ w : Nat) else (n % 2 ^ w : Nat) - 2 ^ w

/-- An integer's low 64 bits. -/
def wordOf (i : Int) : Word := BitVec.ofInt 64 i

/-- The signed immediate of rows 2 and 3: m6, m13 or i48 (R108, R125). -/
def immOf (fm : Form) (o : Opnd) : Int :=
  match fm with
  | .t2 => sx 6 o.m
  | .t8 => sx 48 o.i
  | _ => sx 13 o.m

/-- An instruction as it issues: the state, its thread, its fields, its place in the group, and the values of
its g sources. -/
structure Iss where
  s : State
  c : Nat
  t : Nat
  x : Thread
  op : Nat
  fm : Form
  o : Opnd
  pos : Nat := 0
  pc : Word := 0
  va : Word := 0
  vb : Word := 0
  vc : Word := 0

/-- The tiles that the TGIVEs of a group before a position have handed over (R103). -/
def Group.givenBefore (g : Group) (pos : Nat) : List Nat := (g.given.filter fun n => n / 64 < pos).map (· % 64)

/-- The tiles that earlier instructions of the group have handed over (R103). -/
def Iss.given (i : Iss) : List Nat := i.x.grp.givenBefore i.pos

/-- What an instruction does at issue and leaves to its group (R50 to R55): single-cycle writes, buffered
results, deferred effects, a not-present condition, a taken jump, flags, registers read beside its sources,
what follows its group, tiles handed over, fences, claims to give back, and the state if it claimed something. -/
structure Out where
  g : List (Nat × Word) := []
  p : List (Nat × Bool) := []
  res : List LRes := []
  defs : List Eff := []
  np : Option (Nat × Nat × Word) := none
  touch : Bool := false
  jump : Option Word := none
  fx : Nat := 0
  vx : Nat := 0
  rd : List Nat := []
  post : Option Post := none
  given : List Nat := []
  fence : Option Nat := none
  undo : List Undo := []
  ifence : Bool := false
  lost : Bool := false
  st : Option State := none

/-- A result whose value is known at issue. -/
def valRes (d : Nat) (v : Word) : List LRes :=
  if d = 0 then [] else [{ pos := 0, dest := .g d, val := .val v, done := true }]

/-- The registers that an instruction with a true guard writes by single-cycle results: g as 0 to 15, p as 16
to 23 (R50, R53). -/
def singleWrites (op : Nat) (fm : Form) (o : Opnd) : List Nat :=
  let gd := if o.d = 0 then [] else [o.d]
  let pd := if o.d % 8 = 0 then [] else [16 + o.d % 8]
  if op = 0x04 then [14]
  else if (0x10 ≤ op ∧ op ≤ 0x14) ∨ (0x19 ≤ op ∧ op ≤ 0x2F) then gd
  else if 0x30 ≤ op ∧ op ≤ 0x35 then pd
  else if op = 0x37 then
    ((List.range 8).filter fun n => n != 0 && (fm == .t2 || bit o.m n)).map (16 + ·)
  else if op = 0x36 ∨ (0x38 ≤ op ∧ op ≤ 0x3E) ∨ op = 0x74 then gd
  else []

/-- The group-buffer and result-buffer entries an instruction takes, its last-read marks apart (R51). DESIGN CHOICE (log
entry 139): each pass of a LOOP without S takes its own entry, so a body of at most three instructions traps 0x0D sub-code 2
on the ninth pass, where R115 says that it repeats until 0x0C. -/
def costs (op : Nat) (fm : Form) (o : Opnd) : Nat × Nat :=
  let r := if o.d = 0 then 0 else 1
  let one (b : Bool) : Nat := if b then 1 else 0
  match op with
  | 0x07 => (0, 1)
  | 0x15 | 0x16 | 0x17 | 0x18 | 0x3F => (0, r)
  | 0x40 | 0x41 => (0, r + one (bit o.m 2))
  | 0x42 => (1, one (bit o.m 2))
  | 0x43 | 0x49 => (0, r)
  | 0x44 | 0x4A => (1, 0)
  | 0x45 => (0, r + one (bit o.m 6))
  | 0x46 => (1, one (bit o.m 6))
  | 0x47 => (0, 2 + one (bit o.m 2))
  | 0x48 => (1, one (bit o.m 2))
  | 0x59 | 0x5A | 0x60 | 0x61 | 0x62 | 0x63 | 0x64 | 0x66 | 0x67 => (1, 0)
  | 0x65 | 0x68 | 0x69 => (0, r)
  | 0x70 | 0x72 => (1, 0)
  | 0x71 | 0x73 => (1, r)
  | 0x75 | 0x77 | 0x78 | 0x7A | 0x7B => (1, 0)
  | 0x79 | 0x7D => (0, r)
  | 0x88 => (0, if o.d % 8 = 0 then 0 else 1)
  | 0x8B => (1, 0)
  | 0xB0 => (0, r)
  | 0xB1 => (1, 0)
  | 0xC0 => (0, 1)
  | 0xC1 | 0xC5 | 0xC6 | 0xC7 | 0xC9 => (1, 0)
  | 0xC2 => (0, 1)
  | 0xC3 | 0xC8 | 0xCA | 0xCB => (0, r)
  | 0xC4 => (one (fm == .t4 && bit o.m 7), r)
  | 0xD9 => (0, r)
  | 0xE3 | 0xED | 0xEF => (0, r)
  | 0xEC => (0, 0)
  | 0xF0 | 0xF1 | 0xF6 => (0, r)
  | 0xF2 => (0, 0)
  | _ =>
    if 0x50 ≤ op ∧ op ≤ 0x58 then (0, r)
    else if 0x80 ≤ op ∧ op ≤ 0x8D then (0, r)
    else if 0x90 ≤ op ∧ op ≤ 0xBB then
      let (pd, pa, pb) := vecPI op o.m
      (1, one pd + one pa + one pb)
    else if 0xD0 ≤ op then (1, 0)
    else (0, 0)

/-- The instructions that end their group and must carry S (R52). -/
def mustEnd (op : Nat) : Bool :=
  op == 0x04 || op == 0x05 || op == 0x06 || op == 0x08 || op == 0x09 || op == 0x0A || op == 0x0B
    || (0x50 ≤ op && op ≤ 0x58) || op == 0x63 || op == 0x64 || op == 0x75 || op == 0x76 || op == 0x77
    || op == 0x7C || op == 0xEC || op == 0xF0 || op == 0xF1 || op == 0xF2

/-- The marks that an instruction sets on its sources. -/
def marksOf (o : Opnd) : List Nat :=
  (if o.la then [o.a] else []) ++ (if o.lb then [o.b] else []) ++ (if o.lc then [o.c] else [])

/-- Its duo-restricted opcodes (R138, R202, R240). -/
def duoBarred (op : Nat) : Bool :=
  (0x50 ≤ op && op ≤ 0x58) || op == 0x60 || op == 0x61 || op == 0x63 || op == 0x64 || op == 0x70 || op == 0x72
    || op == 0x73 || op == 0xC5 || op == 0xC7 || op == 0xC9 || (0xD0 ≤ op && op ≤ 0xD8)
    || op == 0xE0 || op == 0xE1 || (0xE4 ≤ op && op ≤ 0xEB) || (0xF0 ≤ op && op != 0xF6)

end Sys2Proof.Machine
end

