-- ==== Sys2Proof/Machine/Issue.lean ====
section
/-! DEFINITION. The issue of one instruction (R25, R49 to R54, R61): the checks in the order of R61, the reading
of its sources, and what its answer does to the thread and its group. Every CPU instruction's meaning is one
call of `issue` with the instruction's own effect. -/

namespace Sys2Proof.Machine

/-- The line that a code address lies in, if the thread's fetch buffer holds it (R47). -/
def Thread.line (x : Thread) (pc : Word) : Option (List Byte) :=
  let base := fpWith pc (fpOff pc / 64 * 64)
  (x.fb.find? fun r => r.1 == base).map (·.2)

/-- The head after the one at `pc` in fetch order: fillers skipped, byte 0 of the next line after the last
(R42, R113). Outside a buffered line it is the head two bytes on. -/
def Thread.following (x : Thread) (pc : Word) : Word :=
  match x.line pc with
  | none => fpWith pc (fpOff pc + 2)
  | some l =>
    match skipFillers l 32 (fpOff pc % 64 / 2 + 1) with
    | some k => fpWith pc (fpOff pc / 64 * 64 + 2 * k)
    | none => fpWith pc (fpOff pc / 64 * 64 + 64)

/-- The byte offset of a head in its line, the g3 of causes 0x01, 0x02, 0x05 to 0x07, 0x0C and 0x0D (R61, R287). -/
def lineOff (pc : Word) : Word := BitVec.ofNat 64 (fpOff pc % 64)

/-- The g3 of a head that check 6 refuses: its byte offset (R61), and 0 for a BFX or BFI whose field leaves bit 63
(R128). -/
def formInfo (op : Nat) (o : Opnd) (pc : Word) : Word :=
  if (op == 0x2E || op == 0x2F) && decide (64 < bits o.m 0 6 + bits o.m 6 6 + 1) then 0 else lineOff pc

/-- The privilege of an opcode (check 7): the sub-code of 0x06 it traps with (R162, R177, R202, R241, R255, R259). -/
def State.barred (s : State) (c t op : Nat) (o : Opnd) : Option Nat :=
  if (op = 0x66 ∨ op = 0x67) ∧ ¬ isCC c then some 2
  else if isCC c ∧ 0x90 ≤ op ∧ op ≤ 0xEF ∧ op ≠ 0xEC ∧ op ≠ 0xED ∧ op ≠ 0xEE then some 3
  else if op = 0xFA ∧ s.domOf c t = 0 then some 1
  else if (op = 0xFB ∨ op = 0xFC ∨ op = 0xFD) ∧ s.domOf c t ≠ 2 then some 1
  else if op = 0xF5 ∧ bit o.m 0 ∧ s.domOf c t = 0 then some 1
  else if op = 0xF8 ∧ t ≠ 7 then some 5
  else if op = 0xFD ∧ (s.core c).ptag ≠ 0 then some 6
  else none

/-- The earlier of two positions. -/
def minPos (a b : Option Nat) : Option Nat :=
  match a, b with
  | some x, some y => some (min x y)
  | some x, none => some x
  | none, y => y

/-- The position of the earliest fault of a group: a trap, a not-present condition that is not a touch's, or a
divergence (R54, R55). -/
def Group.faultAt (g : Group) : Option Nat :=
  minPos (g.trap.map (·.pos)) (minPos (g.np.foldl (fun a n => if n.touch then a else minPos a (some n.pos)) none) (g.rind.map (·.1)))

/-- The group holds a fault. -/
def Group.blocked (g : Group) : Bool := g.faultAt.isSome

/-- The position at which a self-updating group is cut: its earliest fault (R54). -/
def Group.cutAt (g : Group) : Option Nat := if g.self.isSome then g.faultAt else none

/-- The group ends here: its marker has been reached (R51, R55). -/
def Thread.close (x : Thread) : Thread :=
  let due := x.grp.res.filter fun r => !r.ret
  let prsn := if due.all (·.isWait) then 5 else if x.st = 1 ∧ x.prsn = 0x0A then 0x0A else 2
  { x with phase := .marker, st := if due.isEmpty then x.st else 2, prsn := if due.isEmpty then x.prsn else prsn }

/-- One instruction more has issued: the thread goes on at `next`, and its group ends if S is set (R51). -/
def Thread.advance (x : Thread) (s : Bool) (next : Word) : Thread :=
  let y := { x with pc := next, nextPc := next, grp := { x.grp with n := x.grp.n + 1 } }
  if s then y.close else y

/-- A trap of the issuing instruction joins its group: the earliest in program order stands; after a
self-updating instruction the group is cut at the faulting head, and a broken limit ends it (R51, R54, R55). -/
def Thread.groupTrap (x : Thread) (cause sub : Nat) (info : Word) (s limit : Bool) : Thread :=
  let g := x.grp
  let tr : GTrap := { pos := g.n, pc := x.pc, cause := cause, sub := sub, info := info }
  let y := { x with grp := { g with trap := some (g.trap.getD tr), cut := if g.self.isSome && g.trap.isNone then some x.pc else g.cut } }
  if g.self.isSome ∧ g.trap.isNone then { y with nextPc := x.pc }.close
  else y.advance (s || limit || decide (32 ≤ g.n)) (x.following x.pc)

/-- A not-present condition joins its group (R54, R55). -/
def Thread.groupAbsent (x : Thread) (pos : Nat) (a : Nat × Nat × Word) (touch : Bool) : Thread :=
  { x with grp := { x.grp with np := x.grp.np ++ [{ pos := pos, pc := x.pc, oid := a.1, ext := a.2.1, addr := a.2.2, touch := touch }] } }

/-- Check 8 of R61: the limits of R51, the endings of R52, and restartability (R53). -/
def Thread.groupRules (x : Thread) (op : Nat) (fm : Form) (o : Opnd) : Option (Nat × Nat × Word × Bool) :=
  let g := x.grp
  let (nb, nr) := costs op fm o
  let w := singleWrites op fm o
  if g.n ≥ 32 then some (0x0C, 0, lineOff x.pc, true)
  else if g.nb + nb + (marksOf o).length > 16 then some (0x0D, 1, lineOff x.pc, true)
  else if g.nr + nr > 8 then some (0x0D, 2, lineOff x.pc, true)
  else if mustEnd op && !o.s then some (0x05, 0, lineOff x.pc, false)
  else match w.find? fun r => g.rd.contains r || g.marks.any (fun m => m.2 == r) || (marksOf o).contains r with
    | some r => some (0x04, 0, BitVec.ofNat 64 r, false)
    | none => none

/-- The g registers that an instruction reads through its source fields (R46). -/
def srcRegs (op : Nat) (fm : Form) (o : Opnd) : List Nat :=
  match opInfo op fm with
  | none => []
  | some i =>
    ((if i.a == .g then [o.a] else []) ++ (if i.b == .g then [o.b] else []) ++ (if i.c == .g then [o.c] else [])).filter (· != 0)

/-- The values of an instruction's g sources, in field order. -/
def Thread.readSrcs (x : Thread) (op : Nat) (fm : Form) (o : Opnd) : Try (Word × Word × Word) := do
  match opInfo op fm with
  | none => pure (0, 0, 0)
  | some i =>
    let a ← if i.a == .g then x.readG o.a else pure 0
    let b ← if i.b == .g then x.readG o.b else pure 0
    let c ← if i.c == .g then x.readG o.c else pure 0
    pure (a, b, c)

/-- Views of messages that the thread reads from registers (R101). -/
def Thread.seeMsgs (x : Thread) (ns : List Nat) : Thread :=
  ns.foldl (fun y n =>
    { y with msgViews := y.msgViews ++ SMap.get [] n y.rviews, rviews := SMap.set [] n [] y.rviews }) x

/-- The g registers among the registers that a group has read. -/
def gRegs (l : List Nat) : List Nat := l.filter fun n => n != 0 && n < 16

/-- What an instruction reads: its g sources, the registers beside them, and its guard. -/
def ownReads (op : Nat) (fm : Form) (o : Opnd) (r : Out) : List Nat :=
  let guard := if o.pg % 8 = 0 then [] else [16 + o.pg % 8]
  srcRegs op fm o ++ r.rd.filter (fun n => n != 0 && n != 16) ++ guard

/-- It overwrites by a single-cycle result a register that it reads (R54). -/
def selfUpdates (op : Nat) (fm : Form) (o : Opnd) (r : Out) : Bool :=
  (singleWrites op fm o).any (ownReads op fm o r).contains

/-- Flags of an instruction at a position join those of its group. -/
def flAdd (l : List (Nat × Nat)) (pos f : Nat) : List (Nat × Nat) := if f = 0 then l else l ++ [(pos, f)]

/-- What a group keeps of an instruction that has issued. -/
def Group.add (g : Group) (i : Iss) (r : Out) (msgs : List View) : Group :=
  let w := singleWrites i.op i.fm i.o
  let own := ownReads i.op i.fm i.o r
  let (nb, nr) := costs i.op i.fm i.o
  { g with
    nb := g.nb + nb + (marksOf i.o).length
    nr := g.nr + nr
    rd := (g.rd ++ own).dedup
    res := g.res ++ r.res.map fun e => { e with pos := i.pos, pc := i.pc, op := i.op }
    defs := g.defs ++ r.defs.map fun e => { e with pos := i.pos, pc := i.pc }
    marks := g.marks ++ (marksOf i.o).map fun n => (i.pos, n)
    w1 := g.w1 ++ w.map fun n => (i.pos, n)
    self := if g.self.isNone && w.any own.contains then some i.pos else g.self
    selfEnd := if w.any own.contains then i.pos else g.selfEnd
    fx := flAdd g.fx i.pos r.fx
    vx := flAdd g.vx i.pos r.vx
    fences := g.fences ++ (match r.fence with | some sc => [{ pos := i.pos, scope := sc, msgs := msgs }] | none => [])
    undo := g.undo ++ r.undo.map fun u => (i.pos, u)
    given := g.given ++ r.given.map (64 * i.pos + ·)
    ifence := g.ifence || r.ifence }

/-- The values of some registers before the group are kept, before its first single-cycle write of each (R8). -/
def Thread.keepOld (x : Thread) (ws : List (Nat × Word)) : Thread :=
  let new := ws.filter fun w => !x.grp.old.any fun r => r.1 == w.1
  { x with grp := { x.grp with old := x.grp.old ++ new.map fun w => (w.1, x.gv w.1) } }

/-- An instruction that has trapped has read its sources: no later single-cycle result of the group may overwrite them
(R53). -/
def Thread.readBy (x : Thread) (op : Nat) (fm : Form) (o : Opnd) : Thread :=
  { x with grp := { x.grp with rd := (x.grp.rd ++ ownReads op fm o {}).dedup } }

/-- A thread with no pinned entry is passed over for 32 C-cycles in place of its lost turns (R71). -/
def Core.pins (k : Core) (t : Nat) : Bool := k.active.any fun e => e.toNat / 2 ^ 15 == 0 && e.toNat % 8 == t

/-- The thread gives up its turns for a subnormal (R71). -/
def Thread.loseTurns (x : Thread) (k : Core) (cyc t : Nat) : Thread :=
  if k.pins t then { x with lost := x.lost + 4 } else { x with ready := cyc + 32 }

/-- An instruction that has passed its checks takes effect on its thread (R50 to R54). -/
def Thread.accept (x : Thread) (k : Core) (cyc : Nat) (i : Iss) (r : Out) : Thread :=
  let y := x.seeMsgs (gRegs (srcRegs i.op i.fm i.o ++ r.rd))
  let y := r.g.foldl (fun z w => z.setG w.1 w.2) (y.keepOld r.g)
  let y := r.p.foldl (fun z w => z.setP w.1 w.2) y
  let y := { y with
    grp := y.grp.add i r y.msgViews
    post := r.post.getD y.post }
  let y := if r.lost then y.loseTurns k cyc i.t else y
  match r.np with
  | none => y.advance i.o.s (r.jump.getD (x.following x.pc))
  | some a =>
    let z := y.groupAbsent i.pos a r.touch
    if y.grp.self.isSome && !r.touch then { z with nextPc := x.pc, grp := { z.grp with cut := some x.pc } }.close
    else z.advance i.o.s (r.jump.getD (x.following x.pc))

/-- A result whose return may still bring a trap or a divergence: a record, a shape register or a field of one, a decoded
element, or a result that has a rind. -/
def LRes.mayTrap (r : LRes) : Bool :=
  !r.ret && (r.fmt != 0 ||
    match r.val with | .load (.record _) _ _ | .load .shape _ _ | .load (.fmt ..) _ _ | .field .. => true | _ => false)

/-- An instruction waits for its turn while its group is self-updating, or would be by it, and a fault report of an
earlier instruction is due: so that the fault is precise (R54). -/
def Group.holdsSelf (g : Group) (selfUp : Bool) : Bool := (g.self.isSome || selfUp) && g.res.any (·.mayTrap)

/-- A self-updating instruction that meets a fault of its group makes it a self-updating group, cut at that fault, and does
not issue (R54, R57). -/
def Thread.cutHere (x : Thread) : Thread :=
  { x with nextPc := x.pc, grp := { x.grp with self := some x.grp.n, selfEnd := x.grp.n } }.close

/-- The outcome of the checks of R61 that come before the group rules. -/
inductive Gate where
  | trap (cause sub : Nat) (info : Word)
  | skip
  | go
  deriving DecidableEq, Repr

/-- Checks 3 and 5 to 7 of R61. -/
def State.gate (s : State) (c t op : Nat) (fm : Form) (o : Opnd) : Gate :=
  let x := s.thr c t
  if badGuard o then .trap 0x07 0 (lineOff x.pc)
  else if !x.guard o.pg then .skip
  else if badForm op fm o then .trap 0x07 0 (formInfo op o x.pc)
  else match s.barred c t op o with
    | some sub => .trap 0x06 sub (lineOff x.pc)
    | none => .go

/-- The start of a group: its head is the instruction that issues first. -/
def Thread.open_ (x : Thread) : Thread :=
  if x.grp.n = 0 then { x with grp := { x.grp with head := x.pc } } else x

/-- A thread's record in the assist object of the firmware (R73, log entry 11). -/
def assistOff (c t : Nat) : Nat := (c * 8 + t) * 64
/-- The fat pointer to a thread's assist record: handle 1 of the firmware's context (log entry 11). -/
def assistPtr (c t : Nat) : Word := fpMk 1 (assistOff c t)

/-- The record of an assist is written, unless an earlier trap of the group stands, or another assist of the thread is
outstanding (R73). -/
def State.assistRecord (s : State) (c t : Nat) (rec : List Byte) : State :=
  if (s.thr c t).grp.trap.isSome || (s.thr c t).assist.isSome then s else s.poke (locObj oidAssist (assistOff c t)) rec

/-- The issue of an instruction by the thread whose turn it is (R61). `body` is what the instruction does. -/
def State.issue (s : State) (op : Nat) (fm : Form) (o : Opnd) (body : Iss → Try Out) : State :=
  let c := s.curCore
  let t := s.curThr
  let x := (s.thr c t).open_
  let s0 := s.setThr c t x
  match s0.gate c t op fm o with
  | .trap cause sub info => s0.setThr c t (x.groupTrap cause sub info o.s false)
  | .skip => s0.setThr c t (x.advance o.s (x.following x.pc))
  | .go =>
    match x.groupRules op fm o with
    | some (cause, sub, info, limit) => s0.setThr c t (x.groupTrap cause sub info o.s limit)
    | none =>
      let run : Try Out := do
        if x.duo && duoBarred op then trap 0x07 8 (lineOff x.pc)
        let (va, vb, vc) ← x.readSrcs op fm o
        body { s := s0, c := c, t := t, x := x, op := op, fm := fm, o := o, pos := x.grp.n, pc := x.pc, va := va, vb := vb, vc := vc }
      match run with
      | .error (.park prsn) => s0.setThr c t (x.park prsn)
      | .error .hold => s0
      | .error (.assist rec) =>
        (s0.assistRecord c t rec).setThr c t ((x.readBy op fm o).groupTrap 0x31 (if x.assist.isSome then 1 else 0) (assistPtr c t) o.s false)
      | .error (.trap cause sub info) => s0.setThr c t ((x.readBy op fm o).groupTrap cause sub info o.s false)
      | .ok r =>
        if x.grp.holdsSelf (selfUpdates op fm o r) then s0
        else if selfUpdates op fm o r && x.grp.blocked then s0.setThr c t (x.cutHere) else
        let s1 := r.st.getD s0
        let i : Iss := { s := s0, c := c, t := t, x := x, op := op, fm := fm, o := o, pos := x.grp.n, pc := x.pc }
        s1.setThr c t ((s1.thr c t).accept (s1.core c) s.cyc i r)

/-- The issue of an instruction, as an outcome of a step. -/
def issue (op : Nat) (fm : Form) (o : Opnd) (body : Iss → Try Out) (s : State) : Host.Outcome State Fault Refusal :=
  .next (s.issue op fm o body)

/-- A single-cycle result in gD. -/
def oneG (i : Iss) (v : Word) : Try Out := .ok { g := if i.o.d = 0 then [] else [(i.o.d, v)] }

/-- A single-cycle result in pD. -/
def oneP (i : Iss) (v : Bool) (rd : List Nat) : Try Out := .ok { p := [(i.o.d, v)], rd := rd }

/-- A long-latency result in gD. -/
def longG (i : Iss) (v : Word) : Try Out := .ok { res := valRes i.o.d v }

end Sys2Proof.Machine
end

