-- ==== Sys2Proof/Machine/Memory.lean ====
section
/-! DEFINITION. Rows 4 and 5 at issue: loads, stores, atomics, fences and the scoreboard wait (R139 to R153).
A load's read step, an atomic's step and a store's perform step are events (Commit, Access). -/

namespace Sys2Proof.Machine

/-! ### Checks shared by every access of a thread -/

/-- A handle-0 range overlaps a range that the core's scoreboard holds (R319). -/
def Core.scbHit (k : Core) (l n : Nat) : Bool :=
  locKind l != 2 && k.scb.any fun e => e.lo ≤ offLocal l + n - 1 && offLocal l ≤ e.hi

/-- A checked access of the issuing thread: a failed check traps with the address, an overlap with the
scoreboard parks (R140, R319). -/
def Iss.check (i : Iss) (p : Word) (n align right : Nat) : Try Ok :=
  match i.s.translate i.c i.x.ctx i.given p n align right with
  | .error (cause, sub) => trap cause sub (faultPtr cause p)
  | .ok k => if (i.s.core i.c).scbHit k.loc n then .error (.park 0x07) else .ok k

/-- A checked store or atomic: a weight-resident extent traps 0x22, a scrub-pending one parks (R148, R320). -/
def Iss.checkW (i : Iss) (p : Word) (n align right : Nat) : Try Ok := do
  let k ← i.check p n align right
  if k.np.isSome then pure k
  else if let some o := k.ws then trap 0x22 0 (fpWith p o)
  else if k.z ≠ 0 then .error (.park (0x08 + 256 * k.z))
  else pure k

/-- The results of a load whose check has passed, or its not-present condition. -/
def Iss.loads (p : Word) (k : Ok) (touch : Bool) (rs : List LRes) (r : Out) : Out :=
  match k.np with
  | some (oid, e) => { r with np := some (oid, e, p), touch := touch }
  | none => { r with res := r.res ++ rs.map fun x => { x with hnd := k.hnd, ptr := p } }

/-- The right that a deferred store was checked with, which the check of a saved one repeats (R140): CBARR and CCSET ask
for the atomic right (R174, R238). -/
def storeRight (op : Nat) : Nat := if op = 0x7B ∨ op = 0xEE then rAtomic else rWrite

/-- A deferred store whose check has passed, or its not-present condition. -/
def Iss.stores (p : Word) (k : Ok) (e : Eff) (r : Out) : Out :=
  match k.np with
  | some (oid, x) => { r with np := some (oid, x, p) }
  | none => { r with defs := r.defs ++ [{ e with hnds := [k.hnd], va := p, chk := [(p, e.locs.length, e.locs.length, storeRight e.op)] }] }

/-- The post-increment of the base, written at commit (R24). -/
def Iss.bump (i : Iss) (p : Word) (n : Nat) : Try (List LRes) :=
  match fpMove p n with
  | none => trap 0x17 0 p
  | some q => pure (valRes i.o.a q)

/-- The destination of a load: a touch has none (R142). -/
def gDest (d : Nat) : Dest := if d = 0 then .none else .g d

/-! ### Addresses (R141, R144, R145) -/

/-- A pointer moved, trapping 0x17 on overflow. -/
def moved (p : Word) (d : Int) : Try Word :=
  match fpMove p d with
  | none => trap 0x17 0 p
  | some q => .ok q

/-- Displacement of rows 4's plain forms: signed, in units of the access size; none with a post-increment. -/
def Iss.dispAddr (i : Iss) (size : Nat) : Try Word := moved i.va (sx 10 (bits i.o.m 3 10) * size)

/-- The access size that SZ codes. -/
def szOf (o : Opnd) : Nat := 2 ^ (o.m % 4)

/-- LD and LDS (R141). -/
def load (signed : Bool) (i : Iss) : Try Out := do
  let size := szOf i.o
  let pi := bit i.o.m 2
  let a ← if pi then pure i.va else i.dispAddr size
  let k ← i.check a size size rRead
  let inc ← if pi then i.bump i.va size else pure []
  pure (Iss.loads a k (i.o.d == 0)
    [{ pos := 0, dest := gDest i.o.d, val := .load (if signed then .sign else .zero) none k.side, parts := [{ loc := k.loc, size := size }] }]
    { res := inc })
def opLd (i : Iss) : Try Out := load false i
def opLds (i : Iss) : Try Out := load true i

/-- The bytes of a register's low part. -/
def lowBytes (v : Word) (n : Nat) : List Byte := leBytes n v.toNat

/-- ST (R141). -/
def opSt (i : Iss) : Try Out := do
  let size := szOf i.o
  let pi := bit i.o.m 2
  let v ← i.x.readG i.o.d
  let a ← if pi then pure i.va else i.dispAddr size
  let k ← i.checkW a size size rWrite
  let inc ← if pi then i.bump i.va size else pure []
  pure (Iss.stores a k { op := 0x42, locs := locs k.loc size, data := lowBytes v size } { res := inc, rd := [i.o.d] })

/-- LDA: an acquire at its scope (R143). -/
def opLda (i : Iss) : Try Out := do
  let size := szOf i.o
  let k ← i.check i.va size size rRead
  pure (Iss.loads i.va k (i.o.d == 0)
    [{ pos := 0, dest := gDest i.o.d, val := .load .zero (some (bits i.o.m 3 3)) k.side, parts := [{ loc := k.loc, size := size }] }] {})

/-- STL: a release at its scope, kept plus one in `sreg` (R143). -/
def opStl (i : Iss) : Try Out := do
  let size := szOf i.o
  let v ← i.x.readG i.o.d
  let k ← i.checkW i.va size size rWrite
  pure (Iss.stores i.va k { op := 0x44, locs := locs k.loc size, data := lowBytes v size, sreg := bits i.o.m 3 3 + 1 } { rd := [i.o.d] })

/-! ### Typed accesses (R63, R79, R146, R147) -/

/-- The format of a typed access (R63). -/
def resolveFmt (p : Word) (m : Nat) : Try Nat :=
  let f := fpFmt p
  if f ≠ 0 ∧ m ≠ 0 ∧ f ≠ m then trap 0x15 1 p
  else
    let r := if f = 0 then m else f
    if r = 0 then trap 0x15 2 p
    else if fmtReserved r then trap 0x15 0 p
    else if fpBlg p ≠ 0 ∧ r ≠ 1 ∧ r ≠ 2 ∧ r ≠ 16 then trap 0x15 3 p
    else .ok r

/-- Elements in a block of a block-scaled pointer (R79). -/
def blockLen (p : Word) : Nat := 2 ^ (fpBlg p + 2)

/-- The place of a byte offset in its block; 0 is the scale byte (R79). -/
def blockPos (p : Word) (o : Nat) : Nat := o % (blockLen p + 1)

/-- The distance to the next element of a typed access with post-increment (R146). -/
def nextElem (p : Word) (size : Nat) : Nat :=
  if fpBlg p = 0 then size else if blockPos p (fpOff p) = blockLen p then 2 else 1

/-- The checked element of a typed access: its format, its check, and the location of its scale byte. A block's scale
byte and element are one access to handle 0's regions (R310), and each is held to the scoreboard and to presence (R314,
R319). -/
def Iss.typed (i : Iss) (write : Bool) : Try (Nat × Ok × Option Nat) := do
  let p := i.va
  let f ← resolveFmt p (bits i.o.m 0 6)
  if f ≠ 14 ∧ bits i.o.m 7 3 ≠ 0 then trap 0x07 0 (lineOff i.pc)
  let size := fmtSize f
  let j := blockPos p (fpOff p)
  if fpBlg p ≠ 0 ∧ fpHnd p = 0 ∧ region (fpOff p - j) ≠ region (fpOff p) then trap 0x23 1 p
  let k ← if write then i.checkW p size size rWrite else i.check p size size rRead
  if fpBlg p = 0 then pure (f, k, none)
  else
    if j = 0 then trap 0x16 0 p
    let q ← i.check (fpWith p (fpOff p - j)) 1 1 (if write then rWrite else rRead)
    pure (f, { k with np := if k.np.isSome then k.np else q.np }, some q.loc)

/-- LDT (R146, R147). -/
def opLdt (i : Iss) : Try Out := do
  let (f, k, sc) ← i.typed false
  let size := fmtSize f
  let inc ← if bit i.o.m 6 then i.bump i.va (nextElem i.va size) else pure []
  let tab := if f = 16 then (i.s.core i.c).dtab else []
  let conv : Conv := .fmt f sc.isSome (bits i.o.m 7 3) ((i.s.core i.c).frm.toNat % 4) tab
  let parts : List Part := [{ loc := k.loc, size := size }] ++ (match sc with | some l => [{ loc := l, size := 1 }] | none => [])
  pure (Iss.loads i.va k (i.o.d == 0) [{ pos := 0, dest := gDest i.o.d, val := .load conv none k.side, parts := parts }] { res := inc })

/-- STT (R146, R147). A block-scaled store reads its scale byte before it knows its own byte. -/
def opStt (i : Iss) : Try Out := do
  let v ← i.x.readG i.o.d
  let (f, k, sc) ← i.typed true
  let size := fmtSize f
  let rm := (i.s.core i.c).frm.toNat % 4
  let tab := if f = 16 then (i.s.core i.c).dtab else []
  if f = 14 ∧ (v.toInt < -1 ∨ v.toInt > 1) then trap 0x32 1 i.va
  let inc ← if bit i.o.m 6 then i.bump i.va (nextElem i.va size) else pure []
  match sc with
  | some l =>
    pure (Iss.stores i.va k { op := 0x46, locs := locs k.loc 1 }
      { res := inc ++ (if k.np.isSome then [] else
          [{ pos := 0, dest := .none, val := .load (.stt f rm tab v) none false, parts := [{ loc := l, size := 1 }], hnd := k.hnd, ptr := i.va }])
        rd := [i.o.d] })
  | none =>
    let (w, fl) := if f = 14 then (ternByte (bits i.o.m 7 3) v.toInt, 0) else ofReg tab f (RM.of rm) v.toNat
    pure (Iss.stores i.va k { op := 0x46, locs := locs k.loc size, data := leBytes size w }
      { res := inc, rd := [i.o.d], fx := fl, lost := k.np.isNone && subnormalElem f false w v.toNat })

/-- LDP: two 8-byte events (R144). -/
def opLdp (i : Iss) : Try Out := do
  let pi := bit i.o.m 2
  let a ← if pi then pure i.va else i.dispAddr 16
  let k ← i.check a 16 16 rRead
  let inc ← if pi then i.bump i.va 16 else pure []
  let half (d o : Nat) : LRes :=
    { pos := 0, dest := gDest d, val := .load .zero none k.side, parts := [{ loc := k.loc + o, size := 8 }] }
  pure (Iss.loads a k false [half i.o.d 0, half (i.o.d + 1) 8] { res := inc })

/-- STP: two 8-byte events; D = 0 writes zero to both halves (R144). -/
def opStp (i : Iss) : Try Out := do
  let pi := bit i.o.m 2
  let lo ← i.x.readG i.o.d
  let hi ← if i.o.d = 0 then pure 0 else i.x.readG (i.o.d + 1)
  let a ← if pi then pure i.va else i.dispAddr 16
  let k ← i.checkW a 16 16 rWrite
  let inc ← if pi then i.bump i.va 16 else pure []
  pure (Iss.stores a k { op := 0x48, locs := locs k.loc 16, data := lowBytes lo 8 ++ lowBytes hi 8 }
    { res := inc, rd := if i.o.d = 0 then [] else [i.o.d, i.o.d + 1] })

/-- LDX (R145). -/
def opLdx (i : Iss) : Try Out := do
  let size := szOf i.o
  let a ← moved i.va (i.vb.toInt * size)
  let k ← i.check a size size rRead
  pure (Iss.loads a k (i.o.d == 0)
    [{ pos := 0, dest := gDest i.o.d, val := .load (if bit i.o.m 2 then .sign else .zero) none k.side, parts := [{ loc := k.loc, size := size }] }] {})

/-- STX (R145). -/
def opStx (i : Iss) : Try Out := do
  let size := szOf i.o
  let v ← i.x.readG i.o.d
  let a ← moved i.va (i.vb.toInt * size)
  let k ← i.checkW a size size rWrite
  pure (Iss.stores a k { op := 0x4A, locs := locs k.loc size, data := lowBytes v size } { rd := [i.o.d] })

/-! ### Row 5 -/

/-- An atomic at issue: its check; its step is ATOMIC_STEP (R150). -/
def atomic (i : Iss) : Try Out := do
  let size := szOf i.o
  let k ← i.checkW i.va size size rAtomic
  pure (Iss.loads i.va k false
    [{ pos := 0, dest := gDest i.o.d
       val := .atom i.op size (bits i.o.m 2 2) (bits i.o.m 4 3) (bit i.o.m 7) i.vb i.vc
       parts := [{ loc := k.loc, size := size }] }] {})

/-- The new value of an atomic from the old one, none when it writes nothing (R150). -/
def atomicNew (op size : Nat) (uns : Bool) (old b c : Nat) : Option Nat :=
  let w := 8 * size
  let b := b % 2 ^ w
  let c := c % 2 ^ w
  let le := if uns then decide (old ≤ b) else decide (sgn w old ≤ sgn w b)
  match op with
  | 0x50 => if old = b then some c else none
  | 0x51 => some b
  | 0x52 => some ((old + b) % 2 ^ w)
  | 0x53 => some (old &&& b)
  | 0x54 => some (old ||| b)
  | 0x55 => some (old ^^^ b)
  | 0x56 => some (if le then old else b)
  | 0x57 => some (if le then b else old)
  | _ =>
    let f := if size = 4 then fmtF32 else fmtF64
    some (f.op2 .rne (Num.add .rne (f.decode old) (f.decode b))).1

/-- FENCE is a deferred effect; its join waits only for earlier loads (R99, R151). -/
def opFence (i : Iss) : Try Out :=
  let kind := i.o.m % 4
  let scope := bits i.o.m 2 3
  .ok { defs := [{ op := 0x59, m := i.o.m }], fence := if kind = 0 then none else some scope }

/-- TFENCE is a deferred effect (R152). -/
def opTfence (i : Iss) : Try Out := .ok { defs := [{ op := 0x5A, m := i.o.m }] }

/-- A command writes memory for its thread when it retires: vector operations, Trellis stores and Ladle
requests (R102, R153). -/
def writesLater (op : Nat) : Bool :=
  (0x90 ≤ op && op ≤ 0xBB) || op == 0xD1 || op == 0xD8 || op == 0xE0 || op == 0xE1

/-- The commands of a thread that have been dispatched and have not retired. -/
def State.pendingOf (s : State) (c t : Nat) : List Eff :=
  let k := s.core c
  let cl := s.clu (clusterOf c)
  (k.vq.map (·.e) ++ SMap.get [] 1 k.q ++ SMap.get [] 2 k.q ++ cl.trel.win.map (·.e)
    ++ (cl.ladle.filter fun r => r.ended == .running).map (·.e)).filter fun e => e.core == c && e.thr == t

/-- SBWAIT parks until every earlier write of those commands has retired; the thread then has its Ladle
writes (R153, R321). -/
def opSbwait (i : Iss) : Try Out :=
  if (i.s.pendingOf i.c i.t).any fun e => writesLater e.op then .error (.park 0x07)
  else
    let ids := i.x.ladleIds.filter fun w => i.s.oom.ws.any fun v => v.id == w
    let s1 := { i.s with oom := i.s.oom.see (agThread i.c i.t) ids }
    .ok { st := some (s1.modThr i.c i.t fun x => { x with ladleIds := [] }) }

/-- LD (R141). -/
def execLd (f : F4) (s : State) : Host.Outcome State Fault Refusal :=
  issue 0x40 .t4 f.opnd opLd s

/-- LDS (R141). -/
def execLds (f : F4) (s : State) : Host.Outcome State Fault Refusal :=
  issue 0x41 .t4 f.opnd opLds s

/-- ST (R141). -/
def execSt (f : F4) (s : State) : Host.Outcome State Fault Refusal :=
  issue 0x42 .t4 f.opnd opSt s

/-- LDA (R143). -/
def execLda (f : F4) (s : State) : Host.Outcome State Fault Refusal :=
  issue 0x43 .t4 f.opnd opLda s

/-- STL (R143). -/
def execStl (f : F4) (s : State) : Host.Outcome State Fault Refusal :=
  issue 0x44 .t4 f.opnd opStl s

/-- LDT (R146). -/
def execLdt (f : F4) (s : State) : Host.Outcome State Fault Refusal :=
  issue 0x45 .t4 f.opnd opLdt s

/-- STT (R146). -/
def execStt (f : F4) (s : State) : Host.Outcome State Fault Refusal :=
  issue 0x46 .t4 f.opnd opStt s

/-- LDP (R144). -/
def execLdp (f : F4) (s : State) : Host.Outcome State Fault Refusal :=
  issue 0x47 .t4 f.opnd opLdp s

/-- STP (R144). -/
def execStp (f : F4) (s : State) : Host.Outcome State Fault Refusal :=
  issue 0x48 .t4 f.opnd opStp s

/-- LDX (R145). -/
def execLdx (f : F4) (s : State) : Host.Outcome State Fault Refusal :=
  issue 0x49 .t4 f.opnd opLdx s

/-- STX (R145). -/
def execStx (f : F4) (s : State) : Host.Outcome State Fault Refusal :=
  issue 0x4A .t4 f.opnd opStx s

/-- CAS (R150). -/
def execCas (f : F4) (s : State) : Host.Outcome State Fault Refusal :=
  issue 0x50 .t4 f.opnd atomic s

/-- SWP (R150). -/
def execSwp (f : F4) (s : State) : Host.Outcome State Fault Refusal :=
  issue 0x51 .t4 f.opnd atomic s

/-- AADD (R150). -/
def execAadd (f : F4) (s : State) : Host.Outcome State Fault Refusal :=
  issue 0x52 .t4 f.opnd atomic s

/-- AAND (R150). -/
def execAand (f : F4) (s : State) : Host.Outcome State Fault Refusal :=
  issue 0x53 .t4 f.opnd atomic s

/-- AOR (R150). -/
def execAor (f : F4) (s : State) : Host.Outcome State Fault Refusal :=
  issue 0x54 .t4 f.opnd atomic s

/-- AXOR (R150). -/
def execAxor (f : F4) (s : State) : Host.Outcome State Fault Refusal :=
  issue 0x55 .t4 f.opnd atomic s

/-- AMIN (R150). -/
def execAmin (f : F4) (s : State) : Host.Outcome State Fault Refusal :=
  issue 0x56 .t4 f.opnd atomic s

/-- AMAX (R150). -/
def execAmax (f : F4) (s : State) : Host.Outcome State Fault Refusal :=
  issue 0x57 .t4 f.opnd atomic s

/-- AFADD (R150). -/
def execAfadd (f : F4) (s : State) : Host.Outcome State Fault Refusal :=
  issue 0x58 .t4 f.opnd atomic s

/-- FENCE_T2 (R151). -/
def execFenceT2 (f : F2) (s : State) : Host.Outcome State Fault Refusal :=
  issue 0x59 .t2 f.opnd opFence s

/-- FENCE_T4 (R151). -/
def execFenceT4 (f : F4) (s : State) : Host.Outcome State Fault Refusal :=
  issue 0x59 .t4 f.opnd opFence s

/-- TFENCE_T2 (R152). -/
def execTfenceT2 (f : F2) (s : State) : Host.Outcome State Fault Refusal :=
  issue 0x5A .t2 f.opnd opTfence s

/-- TFENCE_T4 (R152). -/
def execTfenceT4 (f : F4) (s : State) : Host.Outcome State Fault Refusal :=
  issue 0x5A .t4 f.opnd opTfence s

/-- SBWAIT_T0 (R153). -/
def execSbwaitT0 (f : F0) (s : State) : Host.Outcome State Fault Refusal :=
  issue 0x5B .t0 f.opnd opSbwait s

/-- SBWAIT_T4 (R153). -/
def execSbwaitT4 (f : F4) (s : State) : Host.Outcome State Fault Refusal :=
  issue 0x5B .t4 f.opnd opSbwait s


end Sys2Proof.Machine
end

