-- ==== Sys2Proof/Machine/Tasks.lean ====
section
/-! DEFINITION. Row 7 at issue: the deque, launches from device code, work identifiers, barriers, the slot
table and completion barriers (R165 to R175), with the counter instructions of row E (R238). -/

namespace Sys2Proof.Machine

/-- The 32 bytes of a task record (R166). -/
def TaskRec.bytes (r : TaskRec) : List Byte := lowBytes r.entry 8 ++ lowBytes r.a1 8 ++ lowBytes r.a3 8 ++ lowBytes r.a4 8

/-- A doubleword of some bytes. -/
def wordAt (l : List Byte) (o : Nat) : Word := BitVec.ofNat 64 (leAt l o 8)

/-- A task record from its 32 bytes (R166). -/
def TaskRec.of (l : List Byte) : TaskRec := { entry := wordAt l 0, a1 := wordAt l 8, a3 := wordAt l 16, a4 := wordAt l 24 }

/-- The doubleword loads by which an instruction reads its record (R410). -/
def recParts (loc n : Nat) : List Part := (List.range (n / 8)).map fun k => { loc := loc + 8 * k, size := 8 }

/-- A record of `n` bytes read at issue, its address checked with the read right; what is read is completed into
the deferred effect `e` of the same instruction when it returns (R410). -/
def Iss.record (i : Iss) (n align : Nat) (dest : Dest) (e : Eff) (claim : State → State) (undo : List Undo) : Try Out := do
  let k ← i.check i.va n align rRead
  match k.np with
  | some (oid, x) => pure { np := some (oid, x, i.va) }
  | none =>
    pure { res := [{ pos := 0, dest := dest, val := .load (.record i.op) none false, parts := recParts k.loc n, hnd := k.hnd, ptr := i.va }]
           defs := [e], undo := undo, st := some (claim i.s) }

/-- DQPUSH and SPAWN reserve a slot of the deque and read their record (R167). -/
def push (i : Iss) : Try Out :=
  let k := i.s.core i.c
  if k.deque.length + k.dqSlots ≥ 64 then trap 0x51 0 i.va
  else i.record 32 8 .none { op := i.op, va := i.va } (fun s => s.modCore i.c fun q => { q with dqSlots := q.dqSlots + 1 }) [.slot]

/-- DQPOP reserves the topmost record and checks its destination as a 32-byte store (R167). -/
def opDqpop (i : Iss) : Try Out := do
  let k ← i.checkW i.va 32 8 rWrite
  match k.np with
  | some (oid, e) => pure { np := some (oid, e, i.va) }
  | none =>
    match (i.s.core i.c).topRec with
    | none => pure { res := valRes i.o.d 0 }
    | some r =>
      pure
        { res := valRes i.o.d 1
          defs := [{ op := 0x71, va := i.va, locs := locs k.loc 32, data := r.task.bytes, hnds := [k.hnd], chk := [(i.va, 32, 8, rWrite)], st := r.id, views := r.views }]
          undo := [.record r.id]
          st := some (i.s.modCore i.c fun q =>
            { q with deque := q.deque.map fun w => if w.id = r.id then { w with res := i.t + 1 } else w }) }

/-- GLNCH reads its 64-byte header; the answer is formed when the header has returned (R168). -/
def opGlnch (i : Iss) : Try Out := i.record 64 8 (gDest i.o.d) { op := 0x73, va := i.va } id []

/-- The header of the launch that a thread belongs to. -/
def Iss.hdr (i : Iss) : List Byte := (i.s.launch i.x.lid).hdr

/-- WIDF (R169). -/
def opWidf (i : Iss) : Try Out :=
  let h := i.hdr
  let l := hdrLevels h
  let n := i.o.m % 8
  let w := i.x.wid.toNat
  if bit i.o.m 3 then
    if n = 0 ∨ n > l then trap 0x07 0 (lineOff i.pc) else oneG i (BitVec.ofNat 64 (w / 2 ^ hdrLo h (n - 1)))
  else
    if n ≥ l then trap 0x07 0 (lineOff i.pc) else oneG i (BitVec.ofNat 64 (bits w (hdrLo h n) (hdrWidth h n)))

/-- Threads that agree in the first n fields of their WIDs. -/
def hdrGroup (h : List Byte) (n : Nat) : Nat :=
  ((List.range (hdrLevels h)).filter (· ≥ n)).foldl (fun a k => a * hdrExt h k) 1

/-- The check of a barrier level at issue (R170). -/
def Iss.level (i : Iss) : Try Unit :=
  let h := i.hdr
  let n := i.o.d
  let gang := hdrGpg h * hdrTpg h
  if n = 0 then .ok ()
  else if n > hdrLevels h then trap 0x52 1 (BitVec.ofNat 64 n)
  else if gang % hdrGroup h n ≠ 0 ∧ hdrGroup h 0 ≠ gang then trap 0x52 2 (BitVec.ofNat 64 n)
  else .ok ()

/-- BARA (R170). -/
def opBara (i : Iss) : Try Out := do
  i.level
  pure { defs := [{ op := 0x75, rd := i.o.d }] }
/-- BARW (R170). -/
def opBarw (i : Iss) : Try Out := do
  i.level
  pure { post := some (.bar i.o.d) }
/-- BAR (R170). -/
def opBar (i : Iss) : Try Out := do
  i.level
  pure { defs := [{ op := 0x75, rd := i.o.d }], post := some (.bar i.o.d) }

/-- SLTW (R172). -/
def opSltw (i : Iss) : Try Out :=
  let e := i.vb.toNat
  if i.va.toNat > 31 then trap 0x50 3 i.va
  else if e ≥ 2 ^ 16 ∨ bits e 8 7 ≠ 0 ∨ (bits e 15 1 = 0 ∧ bits e 3 5 ≠ 0) then trap 0x50 4 i.va
  else .ok { defs := [{ op := 0x78, va := i.va, vb := i.vb }] }

/-- SLTR (R172). -/
def opSltr (i : Iss) : Try Out :=
  let k := i.s.core i.c
  let a := i.va.toNat
  if a > 63 then trap 0x50 3 i.va
  else longG i (((if bit a 5 then k.shadow else k.active)[a % 32]?.getD 0#16).zeroExtend 64)

/-- CBINIT: a 32-byte store of EXPECT and zeros (R174). -/
def opCbinit (i : Iss) : Try Out := do
  let k ← i.checkW i.va 32 32 rWrite
  pure (Iss.stores i.va k { op := 0x7A, locs := locs k.loc 32, data := lowBytes i.vb 4 ++ List.replicate 28 0#8 } {})

/-- CBARR: an atomic step owed at the barrier's home (R174). -/
def opCbarr (i : Iss) : Try Out := do
  let k ← i.checkW i.va 32 32 rAtomic
  pure (Iss.stores i.va k { op := 0x7B, locs := locs k.loc 32, vb := i.vb, n := bit i.o.m 0 } {})

/-- CBWAIT: step 1 of its commit waits for the barrier (R175). DEDUCED (log entry 125): its address is checked for the read
right and the barrier's alignment of 32. -/
def opCbwait (i : Iss) : Try Out := do
  let k ← i.check i.va 32 32 rRead
  pure (Iss.loads i.va k false
    [{ pos := 0, dest := .none, val := .cbwait (bit i.o.m 0), parts := [{ loc := k.loc, size := 32 }] }] {})

/-- CBPH: two doubleword events (R175, log entry 10). -/
def opCbph (i : Iss) : Try Out := do
  let k ← i.check i.va 16 16 rRead
  pure (Iss.loads i.va k false
    [{ pos := 0, dest := gDest i.o.d, val := .load .cbph none k.side, parts := recParts k.loc 16 }] {})

/-- CCWAIT: step 1 of its commit waits for the counter (R238). -/
def opCcwait (i : Iss) : Try Out := do
  let k ← i.check i.va 8 8 rAtomic
  pure (Iss.loads i.va k false
    [{ pos := 0, dest := .none, val := .ccwait (i.vb.toNat % 2 ^ 49), parts := [{ loc := k.loc, size := 8 }] }] {})

/-- CCRD: a plain load checked with the atomic right (R238). -/
def opCcrd (i : Iss) : Try Out := do
  let k ← i.check i.va 8 8 rAtomic
  pure (Iss.loads i.va k (i.o.d == 0)
    [{ pos := 0, dest := gDest i.o.d, val := .load .zero none k.side, parts := [{ loc := k.loc, size := 8 }] }] {})

/-- CCSET: a plain store checked with the atomic right (R238). -/
def opCcset (i : Iss) : Try Out := do
  let k ← i.checkW i.va 8 8 rAtomic
  pure (Iss.stores i.va k { op := 0xEE, locs := locs k.loc 8, data := lowBytes i.vb 8 } {})

/-- DQPUSH_T2 (R167). -/
def execDqpushT2 (f : F2) (s : State) : Host.Outcome State Fault Refusal :=
  issue 0x70 .t2 f.opnd push s

/-- DQPUSH_T4 (R167). -/
def execDqpushT4 (f : F4) (s : State) : Host.Outcome State Fault Refusal :=
  issue 0x70 .t4 f.opnd push s

/-- SPAWN_T2 (R167). -/
def execSpawnT2 (f : F2) (s : State) : Host.Outcome State Fault Refusal :=
  issue 0x72 .t2 f.opnd push s

/-- SPAWN_T4 (R167). -/
def execSpawnT4 (f : F4) (s : State) : Host.Outcome State Fault Refusal :=
  issue 0x72 .t4 f.opnd push s

/-- DQPOP_T2 (R167). -/
def execDqpopT2 (f : F2) (s : State) : Host.Outcome State Fault Refusal :=
  issue 0x71 .t2 f.opnd opDqpop s

/-- DQPOP_T4 (R167). -/
def execDqpopT4 (f : F4) (s : State) : Host.Outcome State Fault Refusal :=
  issue 0x71 .t4 f.opnd opDqpop s

/-- GLNCH_T2 (R168). -/
def execGlnchT2 (f : F2) (s : State) : Host.Outcome State Fault Refusal :=
  issue 0x73 .t2 f.opnd opGlnch s

/-- GLNCH_T4 (R168). -/
def execGlnchT4 (f : F4) (s : State) : Host.Outcome State Fault Refusal :=
  issue 0x73 .t4 f.opnd opGlnch s

/-- WIDF (R169). -/
def execWidf (f : F2) (s : State) : Host.Outcome State Fault Refusal :=
  issue 0x74 .t2 f.opnd opWidf s

/-- BARA_T0 (R170). -/
def execBaraT0 (f : F0) (s : State) : Host.Outcome State Fault Refusal :=
  issue 0x75 .t0 f.opnd opBara s

/-- BARA_T4 (R170). -/
def execBaraT4 (f : F4) (s : State) : Host.Outcome State Fault Refusal :=
  issue 0x75 .t4 f.opnd opBara s

/-- BARW_T0 (R170). -/
def execBarwT0 (f : F0) (s : State) : Host.Outcome State Fault Refusal :=
  issue 0x76 .t0 f.opnd opBarw s

/-- BARW_T4 (R170). -/
def execBarwT4 (f : F4) (s : State) : Host.Outcome State Fault Refusal :=
  issue 0x76 .t4 f.opnd opBarw s

/-- BAR_T0 (R170). -/
def execBarT0 (f : F0) (s : State) : Host.Outcome State Fault Refusal :=
  issue 0x77 .t0 f.opnd opBar s

/-- BAR_T4 (R170). -/
def execBarT4 (f : F4) (s : State) : Host.Outcome State Fault Refusal :=
  issue 0x77 .t4 f.opnd opBar s

/-- SLTW_T2 (R172). -/
def execSltwT2 (f : F2) (s : State) : Host.Outcome State Fault Refusal :=
  issue 0x78 .t2 f.opnd opSltw s

/-- SLTW_T4 (R172). -/
def execSltwT4 (f : F4) (s : State) : Host.Outcome State Fault Refusal :=
  issue 0x78 .t4 f.opnd opSltw s

/-- SLTR_T2 (R172). -/
def execSltrT2 (f : F2) (s : State) : Host.Outcome State Fault Refusal :=
  issue 0x79 .t2 f.opnd opSltr s

/-- SLTR_T4 (R172). -/
def execSltrT4 (f : F4) (s : State) : Host.Outcome State Fault Refusal :=
  issue 0x79 .t4 f.opnd opSltr s

/-- CBINIT_T2 (R174). -/
def execCbinitT2 (f : F2) (s : State) : Host.Outcome State Fault Refusal :=
  issue 0x7A .t2 f.opnd opCbinit s

/-- CBINIT_T4 (R174). -/
def execCbinitT4 (f : F4) (s : State) : Host.Outcome State Fault Refusal :=
  issue 0x7A .t4 f.opnd opCbinit s

/-- CBARR_T2 (R174). -/
def execCbarrT2 (f : F2) (s : State) : Host.Outcome State Fault Refusal :=
  issue 0x7B .t2 f.opnd opCbarr s

/-- CBARR_T4 (R174). -/
def execCbarrT4 (f : F4) (s : State) : Host.Outcome State Fault Refusal :=
  issue 0x7B .t4 f.opnd opCbarr s

/-- CBWAIT_T2 (R175). -/
def execCbwaitT2 (f : F2) (s : State) : Host.Outcome State Fault Refusal :=
  issue 0x7C .t2 f.opnd opCbwait s

/-- CBWAIT_T4 (R175). -/
def execCbwaitT4 (f : F4) (s : State) : Host.Outcome State Fault Refusal :=
  issue 0x7C .t4 f.opnd opCbwait s

/-- CBPH_T2 (R175). -/
def execCbphT2 (f : F2) (s : State) : Host.Outcome State Fault Refusal :=
  issue 0x7D .t2 f.opnd opCbph s

/-- CBPH_T4 (R175). -/
def execCbphT4 (f : F4) (s : State) : Host.Outcome State Fault Refusal :=
  issue 0x7D .t4 f.opnd opCbph s

/-- CCWAIT_T2 (R238). -/
def execCcwaitT2 (f : F2) (s : State) : Host.Outcome State Fault Refusal :=
  issue 0xEC .t2 f.opnd opCcwait s

/-- CCWAIT_T4 (R238). -/
def execCcwaitT4 (f : F4) (s : State) : Host.Outcome State Fault Refusal :=
  issue 0xEC .t4 f.opnd opCcwait s

/-- CCRD_T2 (R238). -/
def execCcrdT2 (f : F2) (s : State) : Host.Outcome State Fault Refusal :=
  issue 0xED .t2 f.opnd opCcrd s

/-- CCRD_T4 (R238). -/
def execCcrdT4 (f : F4) (s : State) : Host.Outcome State Fault Refusal :=
  issue 0xED .t4 f.opnd opCcrd s

/-- CCSET_T2 (R238). -/
def execCcsetT2 (f : F2) (s : State) : Host.Outcome State Fault Refusal :=
  issue 0xEE .t2 f.opnd opCcset s

/-- CCSET_T4 (R238). -/
def execCcsetT4 (f : F4) (s : State) : Host.Outcome State Fault Refusal :=
  issue 0xEE .t4 f.opnd opCcset s


end Sys2Proof.Machine
end

