-- ==== Sys2Proof/Machine/Float.lean ====
section
/-! DEFINITION. Row 8: scalar floating point and the decode table (R177 to R185), with the assists of R72. -/

namespace Sys2Proof.Machine

/-- The format that bit 0 of the modifier selects (R178). -/
def fOf (m : Nat) : Fmt := if bit m 0 then fmtF64 else fmtF32

/-- The rounding mode in force (R66). -/
def Iss.rm (i : Iss) : RM := RM.of (i.s.core i.c).frm.toNat

/-- The assist record of a scalar instruction (R73). -/
def Iss.assistRec (i : Iss) (f : Fmt) : List Byte :=
  leBytes 1 i.op ++ leBytes 1 (if f = fmtF64 then 12 else 11) ++ leBytes 1 ((i.s.core i.c).frm.toNat % 4) ++ leBytes 1 0
    ++ leBytes 2 i.c ++ leBytes 1 i.t ++ leBytes 1 i.pos ++ leBytes 8 i.o.m
    ++ lowBytes i.va 8 ++ lowBytes i.vb 8 ++ lowBytes i.vc 8 ++ List.replicate 24 0#8

/-- A floating result in gD: its flags go to FXF at commit; a subnormal operand or result costs four turns
(R71), and in assist mode a subnormal F32 or F64 result is the handler's unless it has answered (R72). -/
def Iss.fres (i : Iss) (f : Fmt) (sub0 : Bool) (r : Nat × Nat) : Try Out :=
  let sub := f.subnormal r.1
  if (i.s.core i.c).am && sub then
    match i.x.answers.find? fun a => a.1 == i.pos with
    | some a => .ok { res := valRes i.o.d a.2, fx := r.2, lost := false }
    | none => .error (.assist (i.assistRec f))
  else .ok { res := valRes i.o.d (BitVec.ofNat 64 r.1), fx := r.2, lost := sub || sub0 }

/-- A result that a floating adder or multiplier formed, which its rind is compared with (R90): FADD, FSUB, FMUL and
FFMA (log entry 107). -/
def Out.ringed (f : Fmt) (r : Out) : Out :=
  { r with res := r.res.map fun e => { e with fmt := if f = fmtF64 then 12 else 11 } }

/-- A two-operand operation of row 8 on the values of gA and gB. -/
def farith (op : RM → Num → Num → Num × Nat) (i : Iss) : Try Out :=
  let f := fOf i.o.m
  let a := i.va.toNat % 2 ^ f.width
  let b := i.vb.toNat % 2 ^ f.width
  i.fres f (f.subnormal a || f.subnormal b) (f.op2 i.rm (op i.rm (f.decode a) (f.decode b)))

/-- `farith` by an adder or a multiplier. -/
def fring (op : RM → Num → Num → Num × Nat) (i : Iss) : Try Out := (farith op i).map (Out.ringed (fOf i.o.m))

/-- FADD (R180). -/
def opFadd (i : Iss) : Try Out := fring Num.add i
/-- FSUB (R180). -/
def opFsub (i : Iss) : Try Out := fring (fun rm a b => Num.add rm a b.neg) i
/-- FMUL (R180). -/
def opFmul (i : Iss) : Try Out := fring (fun _ a b => Num.mul a b) i
/-- FDIV (R180). -/
def opFdiv (i : Iss) : Try Out := farith (fun _ a b => Num.div a b) i

/-- a × b + c with one rounding (R180). -/
def fmaNum (rm : RM) (a b c : Num) : Num × Nat :=
  let (p, f1) := Num.mul a b
  let (r, f2) := Num.add rm p c
  (r, f1 ||| f2)

/-- FFMA (R180). -/
def opFfma (i : Iss) : Try Out :=
  let f := fOf i.o.m
  let a := i.va.toNat % 2 ^ f.width
  let b := i.vb.toNat % 2 ^ f.width
  let c := i.vc.toNat % 2 ^ f.width
  (i.fres f ([a, b, c].any f.subnormal) (f.op2 i.rm (fmaNum i.rm (f.decode a) (f.decode b) (f.decode c)))).map (Out.ringed f)

/-- FSQRT (R180). -/
def opFsqrt (i : Iss) : Try Out :=
  let f := fOf i.o.m
  let a := i.va.toNat % 2 ^ f.width
  i.fres f (f.subnormal a) (f.op2 i.rm (Num.sqrt (f.decode a)))

/-- FMIN and FMAX (R67, R180). -/
def fpick (wantMax : Bool) (i : Iss) : Try Out :=
  let f := fOf i.o.m
  let a := i.va.toNat % 2 ^ f.width
  let b := i.vb.toNat % 2 ^ f.width
  i.fres f (f.subnormal a || f.subnormal b) (f.minmax wantMax a b)
def opFmin (i : Iss) : Try Out := fpick false i
def opFmax (i : Iss) : Try Out := fpick true i

/-- FCMP: a long-latency predicate (R181). -/
def opFcmp (i : Iss) : Try Out :=
  let f := fOf i.o.m
  let a := i.va.toNat % 2 ^ f.width
  let b := i.vb.toNat % 2 ^ f.width
  let (v, fl) := fcmp (bits i.o.m 1 3) (f.decode a) (f.decode b)
  .ok { res := if i.o.d % 8 = 0 then [] else [{ pos := 0, dest := .p i.o.d, val := .val (if v then 1 else 0), done := true }]
        fx := fl, lost := f.subnormal a || f.subnormal b }

/-- FCVT; an enabled SP32 saturation traps 0x33 (R69, R182), with g3 zero: of what R287 lists for that cause an FCVT has
none (DESIGN CHOICE, log entry 140). -/
def opFcvt (i : Iss) : Try Out :=
  let src := bits i.o.m 0 6
  let dst := bits i.o.m 6 6
  let w := i.va.toNat % 2 ^ fmtBits src
  let (r, fl) := fcvt src dst i.rm w
  let v := BitVec.ofNat 64 (fcvtWrite dst r)
  if flHas fl flSPOV && flHas (i.s.core i.c).vxe.toNat flSPOV then trap 0x33 0 0
  else
    let sub := fmtIsFloat src && (fmtOf src).subnormal w
    if fmtIsFloat dst then
      if (i.s.core i.c).am && dst ≥ 11 then i.fres (fmtOf dst) sub (r, fl)
      else .ok { res := valRes i.o.d v, fx := fl, lost := sub || (fmtOf dst).subnormal r }
    else .ok { res := valRes i.o.d v, fx := fl, lost := sub }

/-- FCLS changes only the sign (R183); a subnormal one costs turns and is assisted as any of row 8 (R71, R72, R179). -/
def opFcls (i : Iss) : Try Out :=
  let f := fOf i.o.m
  let top := f.width - 1
  let a := i.va.toNat % 2 ^ f.width
  let s := bit a top
  let t := bit i.vb.toNat top
  let n := match bits i.o.m 1 2 with
    | 0 => false
    | 1 => !s
    | 2 => t
    | _ => s != t
  let b := i.vb.toNat % 2 ^ f.width
  i.fres f (f.subnormal a || (bit i.o.m 2 && f.subnormal b)) (a % 2 ^ top + (if n then 2 ^ top else 0), 0)

/-- FTLD reads 256 word loads at issue; the table is installed at step 5 (R184). -/
def opFtld (i : Iss) : Try Out := do
  let k ← i.check i.va 1024 64 rRead
  pure (match k.np with
  | some (oid, e) => { np := some (oid, e, i.va) }
  | none =>
    { res := [{ pos := 0, dest := .none, val := .load (.record 0x8B) none false, hnd := k.hnd, ptr := i.va
                parts := (List.range 256).map fun j => { loc := k.loc + 4 * j, size := 4 } }]
      defs := [{ op := 0x8B }] })

/-- ENC8 (R78, R185). -/
def opEnc8 (i : Iss) : Try Out :=
  let f := fOf i.o.m
  let a := i.va.toNat % 2 ^ f.width
  let (c, fl) := t8Encode (i.s.core i.c).dtab (f.decode a)
  .ok { res := valRes i.o.d (BitVec.ofNat 64 c), fx := fl, lost := f.subnormal a }

/-- DEC8: exact, in F32 or F64 (R185), a subnormal one assisted (R72). -/
def opDec8 (i : Iss) : Try Out :=
  let w := t8Word (i.s.core i.c).dtab (i.va.toNat % 256)
  let v := if bit i.o.m 0 then
      (match fmtF32.decode w with
       | .nan _ => w / 2 ^ 31 * 2 ^ 63 + 2047 * 2 ^ 52 + w % 2 ^ 23 * 2 ^ 29
       | x => (fmtF64.round .rne x).1)
    else w
  i.fres (fOf i.o.m) (fmtF32.subnormal w) (v, 0)

/-- FADD_T2 (R180). -/
def execFaddT2 (f : F2) (s : State) : Host.Outcome State Fault Refusal :=
  issue 0x80 .t2 f.opnd opFadd s

/-- FADD_T4 (R180). -/
def execFaddT4 (f : F4) (s : State) : Host.Outcome State Fault Refusal :=
  issue 0x80 .t4 f.opnd opFadd s

/-- FSUB_T2 (R180). -/
def execFsubT2 (f : F2) (s : State) : Host.Outcome State Fault Refusal :=
  issue 0x81 .t2 f.opnd opFsub s

/-- FSUB_T4 (R180). -/
def execFsubT4 (f : F4) (s : State) : Host.Outcome State Fault Refusal :=
  issue 0x81 .t4 f.opnd opFsub s

/-- FMUL_T2 (R180). -/
def execFmulT2 (f : F2) (s : State) : Host.Outcome State Fault Refusal :=
  issue 0x82 .t2 f.opnd opFmul s

/-- FMUL_T4 (R180). -/
def execFmulT4 (f : F4) (s : State) : Host.Outcome State Fault Refusal :=
  issue 0x82 .t4 f.opnd opFmul s

/-- FFMA (R180). -/
def execFfma (f : F4) (s : State) : Host.Outcome State Fault Refusal :=
  issue 0x83 .t4 f.opnd opFfma s

/-- FDIV_T2 (R180). -/
def execFdivT2 (f : F2) (s : State) : Host.Outcome State Fault Refusal :=
  issue 0x84 .t2 f.opnd opFdiv s

/-- FDIV_T4 (R180). -/
def execFdivT4 (f : F4) (s : State) : Host.Outcome State Fault Refusal :=
  issue 0x84 .t4 f.opnd opFdiv s

/-- FSQRT_T2 (R180). -/
def execFsqrtT2 (f : F2) (s : State) : Host.Outcome State Fault Refusal :=
  issue 0x85 .t2 f.opnd opFsqrt s

/-- FSQRT_T4 (R180). -/
def execFsqrtT4 (f : F4) (s : State) : Host.Outcome State Fault Refusal :=
  issue 0x85 .t4 f.opnd opFsqrt s

/-- FMIN_T2 (R180). -/
def execFminT2 (f : F2) (s : State) : Host.Outcome State Fault Refusal :=
  issue 0x86 .t2 f.opnd opFmin s

/-- FMIN_T4 (R180). -/
def execFminT4 (f : F4) (s : State) : Host.Outcome State Fault Refusal :=
  issue 0x86 .t4 f.opnd opFmin s

/-- FMAX_T2 (R180). -/
def execFmaxT2 (f : F2) (s : State) : Host.Outcome State Fault Refusal :=
  issue 0x87 .t2 f.opnd opFmax s

/-- FMAX_T4 (R180). -/
def execFmaxT4 (f : F4) (s : State) : Host.Outcome State Fault Refusal :=
  issue 0x87 .t4 f.opnd opFmax s

/-- FCMP_T2 (R181). -/
def execFcmpT2 (f : F2) (s : State) : Host.Outcome State Fault Refusal :=
  issue 0x88 .t2 f.opnd opFcmp s

/-- FCMP_T4 (R181). -/
def execFcmpT4 (f : F4) (s : State) : Host.Outcome State Fault Refusal :=
  issue 0x88 .t4 f.opnd opFcmp s

/-- FCVT (R182). -/
def execFcvt (f : F4) (s : State) : Host.Outcome State Fault Refusal :=
  issue 0x89 .t4 f.opnd opFcvt s

/-- FCLS_T2 (R183). -/
def execFclsT2 (f : F2) (s : State) : Host.Outcome State Fault Refusal :=
  issue 0x8A .t2 f.opnd opFcls s

/-- FCLS_T4 (R183). -/
def execFclsT4 (f : F4) (s : State) : Host.Outcome State Fault Refusal :=
  issue 0x8A .t4 f.opnd opFcls s

/-- FTLD_T2 (R184). -/
def execFtldT2 (f : F2) (s : State) : Host.Outcome State Fault Refusal :=
  issue 0x8B .t2 f.opnd opFtld s

/-- FTLD_T4 (R184). -/
def execFtldT4 (f : F4) (s : State) : Host.Outcome State Fault Refusal :=
  issue 0x8B .t4 f.opnd opFtld s

/-- ENC8_T2 (R185). -/
def execEnc8T2 (f : F2) (s : State) : Host.Outcome State Fault Refusal :=
  issue 0x8C .t2 f.opnd opEnc8 s

/-- ENC8_T4 (R185). -/
def execEnc8T4 (f : F4) (s : State) : Host.Outcome State Fault Refusal :=
  issue 0x8C .t4 f.opnd opEnc8 s

/-- DEC8_T2 (R185). -/
def execDec8T2 (f : F2) (s : State) : Host.Outcome State Fault Refusal :=
  issue 0x8D .t2 f.opnd opDec8 s

/-- DEC8_T4 (R185). -/
def execDec8T4 (f : F4) (s : State) : Host.Outcome State Fault Refusal :=
  issue 0x8D .t4 f.opnd opDec8 s


end Sys2Proof.Machine
end

