-- ==== Sys2Proof/Machine/Vector.lean ====
section
/-! DEFINITION. Rows 9 to B at issue: the operands, formats, spans and checks of a vector operation (R186 to
R188), and the lane grant (R197). Dispatch, reads and retirement stand in VecUnit. -/

namespace Sys2Proof.Machine

/-! ### Operands and formats (R186 to R188) -/

/-- What an operand of a vector operation is: absent, of the element format, of a fixed format, of the target
or source format of VCVT and VSAT, a register value, or the base pointer of a gather or scatter. -/
inductive VRole where
  | none
  | e
  | fixed (f : Nat)
  | y
  | z
  | reg
  | base
  deriving DecidableEq, Repr

/-- The roles of D, sA and sB, and whether D is read too (R187, R192 to R200). -/
structure VRow where
  d : VRole
  a : VRole := .none
  b : VRole := .none
  rw : Bool := false
  deriving DecidableEq, Repr

/-- The roles of an opcode's operands; `x` is the X field. -/
def vecRow (op x : Nat) : VRow :=
  match op with
  | 0x93 => { d := .e, a := .e, b := .e, rw := true }
  | 0x9C | 0xAE => { d := .y, a := .z }
  | 0x9D => { d := .e, a := .e, b := .reg }
  | 0x97 | 0x98 | 0x99 | 0x9A | 0x9B | 0x9E | 0x9F | 0xAF | 0xB2 | 0xB3 | 0xB4 | 0xB5 | 0xB8 => { d := .e, a := .e }
  | 0xA3 => { d := .fixed 5, a := .e, b := .e, rw := true }
  | 0xA9 => { d := .fixed 1, a := .fixed 14 }
  | 0xAA => { d := .fixed 5, a := .fixed 1, b := .e, rw := true }
  | 0xAB => { d := .e, a := .e, b := .fixed 2, rw := true }
  | 0xAC => { d := .e, a := .e, b := .fixed 5 }
  | 0xAD => { d := .fixed 2, a := .e, b := .e }
  | 0xB6 => { d := .e, a := .base, b := .fixed 5 }
  | 0xB7 => { d := .base, a := .e, b := .fixed 5 }
  | 0xB9 | 0xBB => { d := .e, a := .reg }
  | 0xBA => if x % 2 = 0 then { d := .fixed 0, a := .fixed 2 } else { d := .fixed 2, a := .fixed 0 }
  | _ => { d := .e, a := .e, b := .e }

/-- The formats an entry accepts (R192 to R200); VGATH, VSCAT and VFILL, for which row B names no list, take codes 1 to 13
and 16 (DESIGN CHOICE, log entry 12). -/
def vecAccepts (op f : Nat) : Bool :=
  let int := fmtIsInt f
  let flt := fmtIsFloat f
  match op with
  | 0x98 | 0x99 | 0x9A | 0x9B => 9 ≤ f && f ≤ 11
  | 0x9C => (1 ≤ f && f ≤ 13) || f == 16
  | 0xA3 => f == 1 || f == 2
  | 0xA4 | 0xA5 | 0xA6 => f == 0 || int
  | 0xAA => f == 1 || f == 3 || f == 5
  | 0xAB | 0xAC | 0xB8 => f ≤ 13 || f == 16
  | 0xB6 | 0xB7 | 0xB9 => (1 ≤ f && f ≤ 13) || f == 16
  | 0xAD | 0xB2 | 0xB3 | 0xB4 | 0xB5 | 0xBB => int || flt
  | _ => if op < 0xA0 then flt else int

/-- The X field; VCVT and VSAT have none. -/
def vecX (op m : Nat) : Nat := if op = 0x9C ∨ op = 0xAE then 0 else bits m 9 4

/-- A format against its entry (R188 rule 4). -/
def vecAccept (op f : Nat) (p : Word) : Except (Nat × Word) Nat :=
  if fmtReserved f then .error (0, p) else if vecAccepts op f then .ok f else .error (4, p)

/-- The common format of a pointer and a modifier, 0 for none (R188 rules 2 and 3). -/
def vecJoin (ptr : Word) (acc : Except (Nat × Word) Nat) (f : Nat) : Except (Nat × Word) Nat :=
  acc.bind fun g => if f ≠ 0 ∧ g ≠ 0 ∧ f ≠ g then .error (1, ptr) else .ok (if f = 0 then g else f)

/-- An operand shares the element format. -/
def VRole.shares (r : VRole) : Bool := r == .e || r == .base

/-- The element format, target format and source format of an operation, or the sub-code and address of its
0x15 (R188; log entry 12 for format 0). -/
def vecFmts (op m : Nat) (vd va vb : Word) : Except (Nat × Word) (Nat × Nat × Nat) :=
  let r := vecRow op (vecX op m)
  let ops := [(r.d, vd), (r.a, va), (r.b, vb)]
  if op = 0x9C ∨ op = 0xAE then do
    let one (p : Word) (f : Nat) : Except (Nat × Word) Nat := do
      let g ← vecJoin p (.ok f) (fpFmt p)
      if g = 0 then .error (2, p) else .ok g
    let y ← one vd (bits m 0 6)
    let z ← one va (bits m 6 6)
    let y ← vecAccept op y vd
    let z ← vecAccept op z va
    pure (y, y, z)
  else
    match ops.find? fun o => match o.1 with | .fixed f => fpFmt o.2 != 0 && fpFmt o.2 != f | _ => false with
    | some o => .error (1, o.2)
    | none =>
      let es := ops.filter fun o => o.1.shares
      if es.isEmpty then .ok (0, 0, 0)
      else do
        let e ← es.foldl (fun acc o => vecJoin o.2 acc (fpFmt o.2)) (.ok (bits m 0 6))
        if e = 0 ∧ !vecAccepts op 0 then .error (2, vd)
        else
          let f ← vecAccept op e vd
          pure (f, f, f)

/-- The operand of a role holds a pointer. -/
def VRole.isPtr : VRole → Bool
  | .none | .reg => false
  | _ => true

/-- The format that a role takes. -/
def VRole.fmt (e y z : Nat) : VRole → Nat
  | .fixed f => f
  | .y => y
  | .z => z
  | _ => e

/-- R188 rule 5: an operand whose block scale is not allowed. -/
def vecBadBlg (op m : Nat) (vd va vb : Word) (e y z : Nat) : Option Word :=
  let r := vecRow op (vecX op m)
  ([(r.d, vd), (r.a, va), (r.b, vb)].find? fun o =>
    o.1.isPtr && fpBlg o.2 != 0 &&
      !(op == 0x9C && (let f := o.1.fmt e y z; f == 1 || f == 2 || f == 16))).map (·.2)

/-- The offset of element `i` from a block-scaled pointer (R79), beyond the pointer's own. -/
def blockStep (p : Word) (i : Nat) : Nat :=
  let l := blockLen p
  let q := blockPos p (fpOff p) - 1 + i
  q / l * (l + 1) + q % l + 1 - blockPos p (fpOff p)

/-- How many parts an operand has, each read or written as one event, and the size of one (R93, R187): bytes of
five trits or eight mask bits, the four bytes of a dot product's element, one result of a reduction. -/
def vecParts (op x : Nat) (which : Nat) (n size : Nat) : Nat × Nat :=
  match op with
  | 0xA3 => if which = 0 then (n, 4) else (4 * n, 1)
  | 0xA9 => if which = 1 then ((n + 4) / 5, 1) else (n, 1)
  | 0xB2 | 0xB3 | 0xB4 => if which = 0 then (1, size) else (n, size)
  | 0xBA => if which = (if x % 2 = 0 then 0 else 1) then ((n + 7) / 8, 1) else (n, 1)
  | _ => (n, size)

/-- The span of an operand (R187). -/
def vecSpan (op x which : Nat) (p : Word) (n size : Nat) : Nat :=
  if fpBlg p ≠ 0 then (if n = 0 then 0 else blockStep p (n - 1) + 1)
  else
    let (k, sz) := vecParts op x which n size
    k * sz

/-- The pointer after a post-increment (R186, R193): past its span, and past a scale byte where one follows. -/
def vecNext (op x which : Nat) (p : Word) (n size : Nat) : Nat :=
  if fpBlg p ≠ 0 then blockStep p n else vecSpan op x which p n size

/-- The address of the element at which a span's check fails (R287): the first that leaves the object or the
region, else the first of the span. -/
def State.firstBad (s : State) (x : Nat) (cause sub : Nat) (p : Word) (size : Nat) : Word :=
  let o := fpOff p
  let lim :=
    if cause = 0x11 then (s.desc x (fpHnd p)).size
    else if cause = 0x23 ∧ sub = 1 then
      (if o < 0x30000 ∨ (0x100000 ≤ o ∧ o < 0x500000) then o / 2 ^ 16 * 2 ^ 16 + 2 ^ 16
       else if o < 0x100000 then 0x100000 else 2 ^ 42)
    else 0
  if fpBlg p = 0 ∧ o < lim then fpWith p (o + (lim - o) / size * size) else faultPtr cause p

/-- The check of a whole operand at issue (R187), the scale byte of its first block with it (R310): a source, or a destination with what a store checks (R148). -/
def Iss.span (i : Iss) (p : Word) (n size : Nat) (rd wr : Bool) : Try Ok := do
  let one (right : Nat) : Try Ok :=
    match i.s.translate i.c i.x.ctx i.given p n size right with
    | .error (cause, sub) => trap cause sub (i.s.firstBad i.x.ctx cause sub p size)
    | .ok k => .ok k
  if fpBlg p ≠ 0 ∧ fpHnd p = 0 ∧ n > 0 ∧ region (fpOff p - blockPos p (fpOff p)) ≠ region (fpOff p) then trap 0x23 1 p
  let k ← one (if rd then rRead else rWrite)
  if rd && wr then let _ ← one rWrite
  if fpBlg p ≠ 0 ∧ blockPos p (fpOff p) = 0 then trap 0x16 0 p
  if let some o := (if wr && k.np.isNone then k.ws else none) then trap 0x22 0 (fpWith p o)
  if wr ∧ k.np.isNone ∧ k.z ≠ 0 then .error (.park (0x08 + 256 * k.z))
  pure k

/-- Which of the operands D, A and B of a vector operation are spans of memory (R187). -/
def vecSpanned (op m : Nat) : List Bool :=
  let r := vecRow op (vecX op m)
  [r.d, r.a, r.b].map fun k => k.isPtr && k != .base

/-- A vector operation at issue (R186 to R189): its registers, its formats, its spans and its checks; it
dispatches at step 5 with the first bytes' locations in `locs`, the count in `vc` and FRM in `rm`. -/
def vec (i : Iss) : Try Out := do
  let m := i.o.m
  let x := vecX i.op m
  let r := vecRow i.op x
  let vd ← i.x.readG i.o.d
  let n := i.vc.toNat
  let (e, y, z) ← match vecFmts i.op m vd i.va i.vb with
    | .error (sub, p) => trap 0x15 sub p
    | .ok f => .ok f
  if i.op = 0xAD ∧ x = 4 ∧ fmtIsInt e then trap 0x07 0 (lineOff i.pc)
  match vecBadBlg i.op m vd i.va i.vb e y z with
  | some p => trap 0x15 3 p
  | none => pure ()
  let size (k : VRole) : Nat := fmtSize (k.fmt e y z)
  let spanned (k : VRole) : Bool := k.isPtr && k != .base
  let span (k : VRole) (w : Nat) (p : Word) : Nat := if spanned k then vecSpan i.op x w p n (size k) else 0
  if span r.d 0 vd > 65536 ∨ span r.a 1 i.va > 65536 ∨ span r.b 2 i.vb > 65536 then trap 0x07 9 (lineOff i.pc)
  let check (k : VRole) (w : Nat) (p : Word) (rd wr : Bool) : Try Ok :=
    if spanned k then i.span p (span k w p) (size k) rd wr else pure { loc := 0 }
  let kd ← check r.d 0 vd r.rw true
  let ka ← check r.a 1 i.va true false
  let kb ← check r.b 2 i.vb true false
  let (pd, pa, pb) := vecPI i.op m
  let bump (on : Bool) (reg : Nat) (k : VRole) (w : Nat) (p : Word) : Try (List LRes) :=
    if on then
      match fpMove p (vecNext i.op x w p n (size k)) with
      | none => trap 0x17 0 p
      | some q => pure (valRes reg q)
    else pure []
  let b1 ← bump pd i.o.d r.d 0 vd
  let b2 ← bump pa i.o.a r.a 1 i.va
  let b3 ← bump pb i.o.b r.b 2 i.vb
  match ([(kd, vd), (ka, i.va), (kb, i.vb)].find? fun k => k.1.np.isSome) with
  | some (k, p) =>
    let (oid, ext) := k.np.getD (0, 0)
    pure { np := some (oid, ext, fpWith p (max (fpOff p) (ext * 2 ^ 18))), rd := [i.o.d] }
  | none =>
    pure
      { res := b1 ++ b2 ++ b3
        rd := [i.o.d]
        defs := [{ op := i.op, m := m, rd := i.o.d, vd := vd, va := i.va, vb := i.vb, vc := i.vc
                   locs := [kd.loc, ka.loc, kb.loc], hnds := [kd.hnd, ka.hnd, kb.hnd]
                   chk := [(r.d, 0, vd, rWrite), (r.a, 1, i.va, rRead), (r.b, 2, i.vb, rRead)].filterMap fun (k, w, p, right) =>
                     if spanned k then some (p, span k w p, size k, right) else none
                   rm := (i.s.core i.c).frm.toNat % 4 }] }

/-! ### The lane grant (R197) -/

/-- VCLAIM: the lanes are taken at issue, and the grant changes at commit (R197). -/
def opVclaim (i : Iss) : Try Out :=
  let r := if bit i.o.m 4 then i.va.toNat else 8 * (i.o.m % 16)
  let want := min 64 ((r + 7) / 8 * 8)
  let g := min want (i.s.freeLanes i.c)
  .ok { res := valRes i.o.d (BitVec.ofNat 64 g), undo := [.grant g] }

/-- VREL acts at step 5 (R197). -/
def opVrel (_ : Iss) : Try Out := .ok { defs := [{ op := 0xB1 }] }

/-- VADD (R192). -/
def execVadd (f : F4) (s : State) : Host.Outcome State Fault Refusal :=
  issue 0x90 .t4 f.opnd vec s

/-- VSUB (R192). -/
def execVsub (f : F4) (s : State) : Host.Outcome State Fault Refusal :=
  issue 0x91 .t4 f.opnd vec s

/-- VMUL (R192). -/
def execVmul (f : F4) (s : State) : Host.Outcome State Fault Refusal :=
  issue 0x92 .t4 f.opnd vec s

/-- VFMA (R192). -/
def execVfma (f : F4) (s : State) : Host.Outcome State Fault Refusal :=
  issue 0x93 .t4 f.opnd vec s

/-- VMIN (R192). -/
def execVmin (f : F4) (s : State) : Host.Outcome State Fault Refusal :=
  issue 0x94 .t4 f.opnd vec s

/-- VMAX (R192). -/
def execVmax (f : F4) (s : State) : Host.Outcome State Fault Refusal :=
  issue 0x95 .t4 f.opnd vec s

/-- VDIV (R192). -/
def execVdiv (f : F4) (s : State) : Host.Outcome State Fault Refusal :=
  issue 0x96 .t4 f.opnd vec s

/-- VSQRT (R192). -/
def execVsqrt (f : F4) (s : State) : Host.Outcome State Fault Refusal :=
  issue 0x97 .t4 f.opnd vec s

/-- VEXP (R192). -/
def execVexp (f : F4) (s : State) : Host.Outcome State Fault Refusal :=
  issue 0x98 .t4 f.opnd vec s

/-- VLOG (R192). -/
def execVlog (f : F4) (s : State) : Host.Outcome State Fault Refusal :=
  issue 0x99 .t4 f.opnd vec s

/-- VRCP (R192). -/
def execVrcp (f : F4) (s : State) : Host.Outcome State Fault Refusal :=
  issue 0x9A .t4 f.opnd vec s

/-- VRSQ (R192). -/
def execVrsq (f : F4) (s : State) : Host.Outcome State Fault Refusal :=
  issue 0x9B .t4 f.opnd vec s

/-- VCVT (R193). -/
def execVcvt (f : F4) (s : State) : Host.Outcome State Fault Refusal :=
  issue 0x9C .t4 f.opnd vec s

/-- VSCL (R192). -/
def execVscl (f : F4) (s : State) : Host.Outcome State Fault Refusal :=
  issue 0x9D .t4 f.opnd vec s

/-- VABS (R192). -/
def execVabs (f : F4) (s : State) : Host.Outcome State Fault Refusal :=
  issue 0x9E .t4 f.opnd vec s

/-- VNEG (R192). -/
def execVneg (f : F4) (s : State) : Host.Outcome State Fault Refusal :=
  issue 0x9F .t4 f.opnd vec s

/-- VIADD (R194). -/
def execViadd (f : F4) (s : State) : Host.Outcome State Fault Refusal :=
  issue 0xA0 .t4 f.opnd vec s

/-- VISUB (R194). -/
def execVisub (f : F4) (s : State) : Host.Outcome State Fault Refusal :=
  issue 0xA1 .t4 f.opnd vec s

/-- VIMUL (R194). -/
def execVimul (f : F4) (s : State) : Host.Outcome State Fault Refusal :=
  issue 0xA2 .t4 f.opnd vec s

/-- VDOT4 (R194). -/
def execVdot4 (f : F4) (s : State) : Host.Outcome State Fault Refusal :=
  issue 0xA3 .t4 f.opnd vec s

/-- VAND (R194). -/
def execVand (f : F4) (s : State) : Host.Outcome State Fault Refusal :=
  issue 0xA4 .t4 f.opnd vec s

/-- VOR (R194). -/
def execVor (f : F4) (s : State) : Host.Outcome State Fault Refusal :=
  issue 0xA5 .t4 f.opnd vec s

/-- VXOR (R194). -/
def execVxor (f : F4) (s : State) : Host.Outcome State Fault Refusal :=
  issue 0xA6 .t4 f.opnd vec s

/-- VSHL (R194). -/
def execVshl (f : F4) (s : State) : Host.Outcome State Fault Refusal :=
  issue 0xA7 .t4 f.opnd vec s

/-- VSHR (R194). -/
def execVshr (f : F4) (s : State) : Host.Outcome State Fault Refusal :=
  issue 0xA8 .t4 f.opnd vec s

/-- UNPK3 (R195). -/
def execUnpk3 (f : F4) (s : State) : Host.Outcome State Fault Refusal :=
  issue 0xA9 .t4 f.opnd vec s

/-- VTAS (R195). -/
def execVtas (f : F4) (s : State) : Host.Outcome State Fault Refusal :=
  issue 0xAA .t4 f.opnd vec s

/-- VSEL (R194). -/
def execVsel (f : F4) (s : State) : Host.Outcome State Fault Refusal :=
  issue 0xAB .t4 f.opnd vec s

/-- VPERM (R194). -/
def execVperm (f : F4) (s : State) : Host.Outcome State Fault Refusal :=
  issue 0xAC .t4 f.opnd vec s

/-- VCMP (R194). -/
def execVcmp (f : F4) (s : State) : Host.Outcome State Fault Refusal :=
  issue 0xAD .t4 f.opnd vec s

/-- VSAT (R194). -/
def execVsat (f : F4) (s : State) : Host.Outcome State Fault Refusal :=
  issue 0xAE .t4 f.opnd vec s

/-- VCLZ (R194). -/
def execVclz (f : F4) (s : State) : Host.Outcome State Fault Refusal :=
  issue 0xAF .t4 f.opnd vec s

/-- VCLAIM_T2 (R197). -/
def execVclaimT2 (f : F2) (s : State) : Host.Outcome State Fault Refusal :=
  issue 0xB0 .t2 f.opnd opVclaim s

/-- VCLAIM_T4 (R197). -/
def execVclaimT4 (f : F4) (s : State) : Host.Outcome State Fault Refusal :=
  issue 0xB0 .t4 f.opnd opVclaim s

/-- VREL_T0 (R197). -/
def execVrelT0 (f : F0) (s : State) : Host.Outcome State Fault Refusal :=
  issue 0xB1 .t0 f.opnd opVrel s

/-- VREL_T4 (R197). -/
def execVrelT4 (f : F4) (s : State) : Host.Outcome State Fault Refusal :=
  issue 0xB1 .t4 f.opnd opVrel s

/-- VRADD (R198). -/
def execVradd (f : F4) (s : State) : Host.Outcome State Fault Refusal :=
  issue 0xB2 .t4 f.opnd vec s

/-- VRMAX (R198). -/
def execVrmax (f : F4) (s : State) : Host.Outcome State Fault Refusal :=
  issue 0xB3 .t4 f.opnd vec s

/-- VRMIN (R198). -/
def execVrmin (f : F4) (s : State) : Host.Outcome State Fault Refusal :=
  issue 0xB4 .t4 f.opnd vec s

/-- VSCAN (R198). -/
def execVscan (f : F4) (s : State) : Host.Outcome State Fault Refusal :=
  issue 0xB5 .t4 f.opnd vec s

/-- VGATH (R199). -/
def execVgath (f : F4) (s : State) : Host.Outcome State Fault Refusal :=
  issue 0xB6 .t4 f.opnd vec s

/-- VSCAT (R199). -/
def execVscat (f : F4) (s : State) : Host.Outcome State Fault Refusal :=
  issue 0xB7 .t4 f.opnd vec s

/-- VMOV (R200). -/
def execVmov (f : F4) (s : State) : Host.Outcome State Fault Refusal :=
  issue 0xB8 .t4 f.opnd vec s

/-- VFILL (R200). -/
def execVfill (f : F4) (s : State) : Host.Outcome State Fault Refusal :=
  issue 0xB9 .t4 f.opnd vec s

/-- VMASK (R200). -/
def execVmask (f : F4) (s : State) : Host.Outcome State Fault Refusal :=
  issue 0xBA .t4 f.opnd vec s

/-- VIOTA (R200). -/
def execViota (f : F4) (s : State) : Host.Outcome State Fault Refusal :=
  issue 0xBB .t4 f.opnd vec s


end Sys2Proof.Machine
end

