-- ==== Sys2Proof/Machine/Access.lean ====
section
/-! DEFINITION. What a thread's accesses need of the ordering machine: forwarding (R96), the joins of fences
(R99), the order of its writes (R95, R99, R102), and what a discarded group gives back (R56, R167, R168, R197). -/

namespace Sys2Proof.Machine

/-! ### Forwarding (R96, R394) -/

/-- The location of a pointer's byte in a context, without a check. -/
def State.locOf (s : State) (c x : Nat) (p : Word) : Nat :=
  if fpHnd p = 0 then locLocal c (fpOff p) else locObj (s.desc x (fpHnd p)).oid (fpOff p)

/-- An entry of a duo log: the locations its mask covers and their bytes (R394). -/
def State.logEntry (s : State) (c x : Nat) (e : Word × Word) : List Nat × List Byte :=
  let l := s.locOf c x e.1
  let ks := (List.range 8).filter fun k => bit e.1.toNat (55 + k)
  (ks.map (l + ·), ks.map fun k => (lowBytes e.2 8).getD k 0#8)

/-- The stores that a read of a thread forwards from, oldest first: its log, its commit queue up to a number,
and the stores of its group before a position. -/
def State.storesOf (s : State) (c t seq pos : Nat) : List (List Nat × List Byte) :=
  let x := s.thr c t
  x.log.map (s.logEntry c x.ctx)
    ++ ((x.cq.filter fun e => e.seq ≤ seq).map fun e => (e.locs, e.data))
    ++ ((x.s5.filter fun e => e.pos < pos).map fun e => (e.locs, e.data))
    ++ ((x.grp.defs.filter fun e => e.pos < pos).map fun e => (e.locs, e.data))

/-- The youngest of some stores to a byte. -/
def youngest (st : List (List Nat × List Byte)) (l : Nat) : Option Byte :=
  st.foldl (fun a w => match (w.1.zip w.2).find? fun p => p.1 == l with | some p => some p.2 | none => a) none

/-- A byte of a scrub-pending extent, which reads as zero (R320). -/
def State.zLoc (s : State) (l : Nat) : Bool := locKind l == 2 && (s.extent (locId l) (locOff l / 2 ^ 18)).z

/-- A byte of an extent that is not present. What passed its check under an entry that a table store has taken the place
of completes as checked (R105). -/
def State.goneLoc (s : State) (l : Nat) : Bool :=
  let x := locOff l / 2 ^ 18
  locKind l == 2 && !(s.extent (locId l) x).present && !s.stale.any fun k => k.loc == s.leafLoc (locId l) x

/-- One read event of a thread: forwarded bytes leave the frontier unchanged, scrub-pending ones are zero, and
the rest is a read step (R96, R320). -/
def State.readFwd (s : State) (a : Nat) (st : List (List Nat × List Byte)) (ls : List Nat) :
    State × List Byte × List Nat :=
  let own := ls.filter fun l => (youngest st l).isNone && !s.zLoc l
  let (s1, bs, evs) := s.readEv a own
  let got := own.zip bs
  let one (l : Nat) : Byte :=
    match youngest st l with
    | some b => b
    | none => if s.zLoc l then 0#8 else ((got.find? fun p => p.1 == l).map (·.2)).getD 0#8
  (s1, ls.map one, evs)

/-! ### Fences of a group (R99) -/

/-- The loads and atomics of a group before a position have performed their read steps. -/
def Group.readBefore (g : Group) (pos : Nat) : Bool :=
  g.res.all fun r => r.pos ≥ pos || r.done || (match r.val with | .load .. | .atom .. => false | _ => true)

/-- The join of one fence. -/
def State.joinFence (s : State) (c t : Nat) (f : GFence) : State :=
  let a := agThread c t
  let s1 := (s.joinEvents a f.scope (s.thr c t).seen).joinViews a f.scope f.msgs
  s1.modGrp c t fun g => { g with fences := g.fences.map fun h => if h.pos = f.pos then { h with joined := true } else h }

/-- The fences before a position that have not joined. -/
def Group.openFences (g : Group) (pos : Nat) : List GFence := g.fences.filter fun f => f.pos < pos && !f.joined

/-- The joins of every fence of a group before a position. -/
def State.joinFences (s : State) (c t pos : Nat) : State :=
  ((s.thr c t).grp.openFences pos).foldl (fun st f => st.joinFence c t f) s

/-- What comes before a load or atomic in its group has performed far enough for it: acquiring loads have joined,
and fences may join (R99). -/
def Group.orderedAt (g : Group) (pos : Nat) : Bool :=
  (g.res.all fun r => r.pos ≥ pos || r.done || (match r.val with | .load _ (some _) _ => false | _ => true))
    && (g.openFences pos).all fun f => g.readBefore f.pos

/-! ### The order of a thread's writes (R95, R99, R102) -/

/-- Two lists of locations share one. -/
def meets (a b : List Nat) : Bool := a.any b.contains

/-- The locations that a vector operation still has to write: known ones, or none while its indices are open. -/
def VOp.targets (v : VOp) : Option (List Nat) :=
  if v.read then some (v.out.flatMap fun w => locs w.1 w.2.length)
  else if v.e.op = 0xB7 then none
  else
    let x := vecX v.e.op v.e.m
    match vecFmts v.e.op v.e.m v.e.vd v.e.va v.e.vb with
    | .error _ => none
    | .ok (e, y, z) =>
      some (locs (v.e.locs.getD 0 0) (vecSpan v.e.op x 0 v.e.vd v.e.vc.toNat (fmtSize ((vecRow v.e.op x).d.fmt e y z))))

/-- An earlier vector operation of the thread that may still write one of some bytes. -/
def State.vecMeets (s : State) (c t seq : Nat) (ls : List Nat) : Bool :=
  (s.core c).vq.any fun v => v.e.thr == t && v.e.seq < seq &&
    (match v.targets with | some w => meets w ls | none => true)

/-- An earlier SPST or SPGST of the thread that has still to write one of some bytes (R102). -/
def State.spMeets (s : State) (c t seq : Nat) (p : Nat → Bool) : Bool :=
  (s.pendingOf c t).any fun e =>
    e.seq < seq && (e.op == 0xD1 || e.op == 0xD8) && (locs (e.locs.headD 0) (4 * e.vc.toNat)).any p

/-- An earlier table store of the thread is still to perform: in its commit queue, of a vector operation, or of an SPST or
SPGST (R105, R152). -/
def State.tableBusy (s : State) (c t seq : Nat) : Bool :=
  ((s.thr c t).cq.any fun w => w.seq < seq && w.locs.any isTable)
    || ((s.core c).vq.any fun v => v.e.thr == t && v.e.seq < seq && (match v.targets with | some w => w.any isTable | none => true))
    || s.spMeets c t seq isTable

/-- Every write of the thread before a number has performed, its vector, Trellis and Ladle writes retired. -/
def State.drainedTo (s : State) (c t seq : Nat) : Bool :=
  (s.thr c t).cq.all (fun e => e.seq ≥ seq)
    && (s.pendingOf c t).all fun e => e.seq ≥ seq || !writesLater e.op

/-- A write of a thread with a number may perform: no earlier write of it to one of the bytes is outstanding, no
earlier fence has its capture to come, and a release has everything before it performed. -/
def State.writeMay (s : State) (c t seq : Nat) (ls : List Nat) (rel : Bool) : Bool :=
  let cq := (s.thr c t).cq
  (cq.all fun e => e.seq ≥ seq || (e.kind != .fence && !meets e.locs ls))
    && !s.vecMeets c t seq ls && !s.spMeets c t seq ls.contains && (!rel || s.drainedTo c t seq)
    && (!ls.any s.zLoc)

/-- The views that a thread carries after a fence: the latest of each scope, the latest fence's last (R99, R101). -/
def Thread.capture (x : Thread) (v : View) : Thread := { x with rel := (x.rel.filter fun w => w.scope != v.scope) ++ [v] }

/-- A fence of the thread has its capture still to come (R99, R151). -/
def Thread.holdsFence (x : Thread) : Bool := x.cq.any fun e => e.kind == .fence

/-! ### Waking (R30) -/

/-- The threads of a core parked at issue for a reason issue again. -/
def State.wakeOn (s : State) (c prsn : Nat) : State :=
  (s.core c).th.foldl (fun st r =>
    if r.2.st = 2 ∧ r.2.prsn = prsn ∧ r.2.phase = .issue then st.modThr c r.1 fun y => y.wake else st) s

/-! ### What a discarded group gives back (R56) -/

/-- One claim given back. -/
def State.giveBack (s : State) (c : Nat) (u : Undo) : State :=
  match u with
  | .tile t => s.modClu (clusterOf c) fun k => { k with tiles := SMap.set {} t { k.tile t with own := .free } k.tiles }
  | .slot => s.modCore c fun k => { k with dqSlots := k.dqSlots - 1 }
  | .record id => s.modCore c fun k =>
      { k with deque := k.deque.map fun r => if r.id = id then { r with res := 0 } else r }
  | .grant _ => s
  | .launch l => { s with launches := SMap.set {} l {} s.launches }

/-- Nothing of the thread's group stays but its claims' return (R56). -/
def State.dropGroup (s : State) (c t : Nat) : State :=
  ((s.thr c t).grp.undo.foldl (fun st u => st.giveBack c u.2) s).modThr c t fun x => { x with grp := {}, post := .none, s5 := [], snap := none }

/-- The thread's group is discarded, and the messages that its results held back move in (R38, R56). -/
def State.discard (s : State) (c t : Nat) : State := (s.dropGroup c t).settleMbx c t

/-- A group is discarded for a trap: a handler thread, which the trap frees, takes no message first (R282). -/
def State.discardOnly (s : State) (c t : Nat) : State := if t = 7 then s.dropGroup c t else s.discard c t

end Sys2Proof.Machine
end

