-- ==== Sys2Proof/Machine/Units.lean ====
section
/-! DEFINITION. Serviceable units (R385), their scores and retirement (R392, R393), the plot map's version and
its record in flash (R396, R404), degradations (R397), the move of a core to a spare (R10, R391), and the kill
and restart of a core (R387, R388). -/

namespace Sys2Proof.Machine

/-! ### Unit names (R385) -/

/-- The unit name of a Vat (2), a Trellis tree (3) or a lane group (6) of a cluster. -/
def unitIn (kind cl i : Nat) : Nat := kind * 2 ^ 28 + cl / 128 % 8 * 2 ^ 13 + cl % 128 * 2 ^ 6 + i % 64
/-- The unit name of a channel of a die. -/
def unitCh (d ch : Nat) : Nat := 5 * 2 ^ 28 + d % 8 * 2 ^ 13 + ch % 64
/-- KIND. -/
def unitKind (u : Nat) : Nat := u / 2 ^ 28 % 16
/-- DIE. -/
def unitDie (u : Nat) : Nat := u / 2 ^ 13 % 8
/-- The cluster number of a unit in the package. -/
def unitClu (u : Nat) : Nat := unitDie u * 128 + u / 2 ^ 6 % 128
/-- INDEX. -/
def unitIx (u : Nat) : Nat := u % 64
/-- The physical core of a unit of kind 1. -/
def unitCoreName (u : Nat) : Nat := unitClu u * 16 + unitIx u % 16

/-- A fabric link of the hub die. -/
def unitHub (u : Nat) : Bool := bit u 16

/-- The two spares with which a die enters service, among its 640 compute cores (R9, R10). -/
def spareCores (d : Nat) : Nat × Nat :=
  let p := Config.spareCores d
  (p.1 % 640, if p.2 % 640 = p.1 % 640 then (p.1 + 1) % 640 else p.2 % 640)

/-! ### Contexts and their clusters -/

/-- The partitions of a context. -/
def State.partsOf (s : State) (x : Nat) : List Nat := (s.parts.filter fun r => r.2.alive && r.2.ctx == x).map (·.1)

/-- The physical cores that a partition maps. -/
def Part_.cores (p : Part_) : List Nat := (p.map.filter fun r => r.2 != 0).map fun r => r.2 - 1

/-- The clusters that hold a core of a partition. -/
def State.partClusters (s : State) (tag : Nat) : List Nat := (((s.part tag).cores).map clusterOf).dedup

/-- A partition has stopped, or its synchronised stop has come (R370, R373). -/
def State.partStopped (s : State) (tag : Nat) : Bool :=
  !(s.part tag).running || s.stops.any fun k => !k.core && k.target == tag && (k.stopped || (k.announced && k.time ≤ s.dtime))

/-- A system notification for a context, at every cluster of its partitions as they stood in `old`; that of a stopped
partition waits at the hub until it resumes (R280, R373). -/
def State.notifyCtx (s : State) (x cause sub : Nat) (info : Word) (old : State := s) : State :=
  (old.partsOf x).foldl (fun st tag =>
    (old.partClusters tag).foldl (fun st2 cl =>
      let m : HTrans := { dst := cl * 16 + 8, msg := { g1 := msgG1 0 3 sub cause, g2 := 0, g3 := info, ctx := x } }
      if !st.partStopped tag then { st2 with hmsgs := st2.hmsgs ++ [m] }
      else { st2 with heldMsgs := st2.heldMsgs ++ [m] }) st) s

/-! ### The plot map's version (R396, R404) -/

/-- The new record goes into the older slot with counter C + 1, and then C rises (R404). -/
def State.saveFlash (s : State) : State :=
  let f : Flash :=
    { ctr := s.flashCtr + 1, ver := s.pmVer, time := s.pmTime, units := s.units, holes := s.holes, worn := s.worn }
  let a := s.flash.getD 0 {}
  let b := s.flash.getD 1 {}
  { s with
    flash := if a.ctr ≤ b.ctr then [f, b] else [a, f]
    flashCtr := s.flashCtr + 1 }

/-- VER rises by one (R396). -/
def State.raiseVer (s : State) : State := ({ s with pmVer := s.pmVer + 1, pmTime := s.dtime }).saveFlash

/-- The contexts that a loss on a unit affects (R397): the hub's fabric links lie on no Trotis die. -/
def State.affected (s : State) (u : Nat) : List Nat :=
  let onDie := if unitHub u then [] else (s.parts.filter fun r => r.2.alive && r.2.cores.any fun c => dieOf c == unitDie u).map (·.2.ctx)
  let onCh := if unitKind u = 5 then
      (s.ctxs.filter fun r => r.2.alive && r.2.hnd.any fun h =>
        (s.obj h.2.oid).ext.any fun e => e.2.present && !e.2.ws && e.2.die == unitDie u && e.2.ch == unitIx u).map (·.1)
    else []
  (onDie ++ onCh).dedup

/-- The suspension of a promised queue that has no end yet (R300). -/
def TimeRec.isOpen (r : TimeRec) (q : Nat) : Bool := r.reason == 4 && r.stop == 0 && r.val == q

/-- A lost unit takes capacity from a queue's reservation: a reserved core that nothing maps now, or a Vat of a cluster
that holds cores of its partition (R299, R397). -/
def State.breaks (s : State) (u : Nat) (k : Queue) : Bool :=
  k.alive && k.cls != 0 && (s.partsOf k.ctx).any fun tag =>
    match unitKind u with
    | 1 => k.resv.any fun l => (s.phys tag l).isNone
    | 2 => k.vats != 0 && (s.partClusters tag).contains (unitClu u)
    | _ => false

/-- A suspension of promises begins: it is recorded once at /sys/time, with its queue (R300). -/
def State.suspend (s : State) (p : Queue → Bool) : State :=
  let qs := s.queues.filter fun r => p r.2 && !s.times.any fun w => w.isOpen r.1
  { s with times := s.times ++ qs.map fun r => { reason := 4, start := s.dtime, stop := 0, val := r.1 } }

/-- The reservations of a context's promised queues, computed again against the capacity there is, take effect, and the
suspensions end (R397, DEDUCED; log entry 118). -/
def State.recompute (s : State) (x : Nat) : State :=
  let mapped (l : Nat) : Bool := (s.partsOf x).any fun tag => (s.phys tag l).isSome
  { s with
    queues := s.queues.map fun r => if r.2.ctx = x then (r.1, { r.2 with resv := r.2.resv.filter mapped }) else r
    times := s.times.map fun r => if r.reason = 4 ∧ r.stop = 0 ∧ (s.queue r.val).ctx = x then { r with stop := s.dtime } else r }

/-- A degradation: every context that the loss affects, as the partitions stood in `old` before it, is told the version,
whose acknowledgement is due from its delivery on, and the promises on what is lost are suspended (R300, R397). -/
def State.degrade (s : State) (u : Nat) (old : State := s) : State :=
  ((old.affected u).foldl (fun st x =>
    (st.suspend fun k => k.ctx == x && st.breaks u k).notifyCtx x 0xA3 0 (BitVec.ofNat 64 st.pmVer) old) s).modUnit u
      fun v => { v with lost := true }

/-! ### Moving a channel's extents (R11, R391) -/

/-- The present extents of memory objects on a channel, outside the weight store: object and extent. -/
def State.extentsOn (s : State) (d ch : Nat) : List (Nat × Nat) :=
  (s.objs.filter fun r => r.2.kind == .memory || r.2.kind == .save).flatMap fun r =>
    ((List.range ((r.2.size + 2 ^ 18 - 1) / 2 ^ 18)).filter fun x =>
      let e := s.extent r.1 x
      e.present && !e.ws && e.die == d && e.ch == ch).map fun x => (r.1, x)

/-- A place of a channel that the Grader has retired: no extent is put there (R389). -/
def State.isWorn (s : State) (d ch slot : Nat) : Bool := (SMap.get [] (d * 32 + ch) s.worn).contains slot

/-- The extents that a channel still has room for (R396). -/
def State.roomOn (s : State) (d ch : Nat) : Nat :=
  let u := s.unit (unitCh d ch)
  if u.state = 0 ∧ s.reserveGone.contains d ∨ u.state = 0 ∧ ch ≠ reserveCh d then u.cap - (s.extentsOn d ch).length else 0

/-- Where a channel's extents go, as many as there are: to the die's reserve channel, else to other channels of the
die, else to other dies' channels (R391); none where that lacks room. -/
def State.placesFor (s : State) (d ch n : Nat) : Option (List (Nat × Nat)) :=
  if !s.reserveGone.contains d && ch != reserveCh d then some (List.replicate n (d, reserveCh d))
  else
    let chans (e : Nat) : List (Nat × Nat) := ((List.range 32).filter fun c => !(e == d && c == ch)).flatMap fun c =>
      List.replicate (min n (s.roomOn e c)) (e, c)
    let all := (chans d ++ ((List.range 8).filter (· != d)).flatMap chans).take n
    if all.length = n then some all else none

/-- The contexts that hold a handle of an object. -/
def State.holdersOf (s : State) (oid : Nat) : List Nat :=
  (s.ctxs.filter fun r => r.2.alive && r.2.hnd.any fun h => h.2.oid == oid).map (·.1)

/-- No launch of a context holds a placed core (R316). -/
def State.quiescent (s : State) (x : Nat) : Bool := s.launches.all fun r => r.2.ctx != x || r.2.ended || r.2.cores.isEmpty

/-- Every partition of a context is stopped. -/
def State.allStopped (s : State) (x : Nat) : Bool := s.parts.all fun r => !r.2.alive || r.2.ctx != x || !r.2.running

/-- An extent may leave its channel: while its object's contexts are quiescent; a pinned one, for the repair of what has
failed alone, while they are stopped (R316, R389). -/
def State.mayLeave (s : State) (repair : Bool) (oid x : Nat) : Bool :=
  if (s.extent oid x).pin then repair && (s.holdersOf oid).all s.allStopped else (s.holdersOf oid).all s.quiescent

/-- Extents moved to channels, their heats zero and their stations told (R316); their slots there are free values. Answers
where they stood. -/
def State.moveExtents (s : State) (l : List ((Nat × Nat) × (Nat × Nat))) : State × List (Nat × Nat × Nat × Nat × Nat) :=
  l.foldl (fun (a : State × List (Nat × Nat × Nat × Nat × Nat)) p =>
    let e := a.1.extent p.1.1 p.1.2
    let (s1, f) := a.1.takeFree
    (s1.setExtent p.1.1 p.1.2 { e with die := p.2.1, ch := p.2.2, slot := (Config.free f).toNat % 32768, rheat := 0, wheat := 0, cached := false },
      a.2 ++ [(p.1.1, p.1.2, e.die, e.ch, e.slot)])) (s, [])

/-- The extents of a channel move away from it for a lease, none if there is no room or one of them may not move now: the
lease waits (DEDUCED, log entry 129). -/
def State.clearChannel (s : State) (d ch : Nat) : Option (State × List (Nat × Nat × Nat × Nat × Nat)) :=
  let es := s.extentsOn d ch
  if es.all fun p => s.mayLeave false p.1 p.2 then (s.placesFor d ch es.length).map fun ps => s.moveExtents (es.zip ps)
  else none

/-- The extents of a channel that is lost move away from it, those that may move now; the others follow by EXTENT_MOVE
(R316, R389). -/
def State.leaveChannel (s : State) (d ch : Nat) : State :=
  let es := (s.extentsOn d ch).filter fun p => s.mayLeave true p.1 p.2
  match s.placesFor d ch es.length with
  | some ps => (s.moveExtents (es.zip ps)).1
  | none => s

/-! ### Moving a core (R10, R391) -/

/-- Every engine command, request and step in transit that a core issued, changed. -/
def State.mapEffs (s : State) (f : Eff → Eff) (g : Owed → Owed) : State :=
  { s with
    clus := s.clus.map fun r => (r.1, { r.2 with
      sched := r.2.sched.map fun k => { k with e := f k.e }
      trel := { r.2.trel with win := r.2.trel.win.map fun k => { k with e := f k.e } }
      ladle := r.2.ladle.map fun k => { k with e := f k.e } })
    dies := s.dies.map fun r => (r.1, { r.2 with
      press := r.2.press.map fun k => { k with e := f k.e }
      net := r.2.net.map fun k => { k with e := f k.e } })
    msgs := s.msgs.map fun m => { m with e := f m.e }
    hub := s.hub.map fun h => { h with e := f h.e }
    owed := s.owed.map g }

/-- The commands of a core's own queues and threads, changed. -/
def Core.mapEffs (k : Core) (f : Eff → Eff) : Core :=
  { k with
    q := k.q.map fun r => (r.1, r.2.map f)
    vq := k.vq.map fun v => { v with e := f v.e }
    th := k.th.map fun r => (r.1, { r.2 with
      s5 := r.2.s5.map f
      grp := { r.2.grp with defs := r.2.grp.defs.map f } }) }

/-- A location of one core's banks as the same place of another's. -/
def moveLoc (c r l : Nat) : Nat := if locKind l = 0 ∧ locId l = c then locBank r (locOff l) else l

/-- The agent number of one core's thread as that of another's. -/
def moveAg (c r a : Nat) : Nat := if a / 8 = c then r * 8 + a % 8 else a

/-- Rows put into a table under other keys. -/
def rekey {α : Type} [DecidableEq α] (d : α) (f : Nat → Nat) (m : SMap α) : SMap α :=
  m.foldl (fun a r => SMap.set d (f r.1) r.2 a) []

/-- A launch in which one core takes the place of another. -/
def Launch.moveTo (k : Launch) (c r : Nat) : Launch :=
  let f (d : Nat) : Nat := if d = c then r else d
  { k with
    cores := k.cores.map f, copies := k.copies.map fun p => (f p.1, f p.2)
    thirds := k.thirds.map fun p => (p.1, if p.2 = c + 1 then r + 1 else p.2) }

/-- A core's state moves to another core: its threads, its banks and what names them (R391). -/
def State.moveCore (s : State) (c r : Nat) : State :=
  let fe (e : Eff) : Eff := { e with
    core := if e.core = c then r else e.core
    locs := e.locs.map (moveLoc c r) }
  let k := (s.core c).mapEffs fe
  let k : Core := { k with th := k.th.map fun t => (t.1, { t.2 with
    cq := t.2.cq.map fun e => { e with locs := e.locs.map (moveLoc c r) }
    rel := t.2.rel.map fun v => { v with pos := moveAg c r v.pos } }) }
  let s1 := s.mapEffs fe fun o => if o.core = c then { o with core := r } else o
  let s2 : State := { s1 with
    mem := rekey 0#8 (moveLoc c r) s1.mem
    oom := { s1.oom with
      ws := s1.oom.ws.map fun w => { w with loc := moveLoc c r w.loc }
      fr := rekey [] (moveAg c r) s1.oom.fr
      evs := s1.oom.evs.map fun e => (e.1, { e.2 with agent := moveAg c r e.2.agent })
      hl := rekey 0 (moveLoc c r) s1.oom.hl }
    msgs := s1.msgs.map fun m => if m.dst = c then { m with dst := r } else m
    hmsgs := s1.hmsgs.map fun m => if m.dst = c then { m with dst := r } else m
    migs := s1.migs.map fun m => { m with src := if m.src = c then r else m.src, dst := if m.dst = c then r else m.dst }
    launches := s1.launches.map fun l => (l.1, l.2.moveTo c r)
    parts := s1.parts.map fun p => (p.1, { p.2 with map := p.2.map.map fun m => if m.2 = c + 1 then (m.1, r + 1) else m }) }
  (s2.setCore c {}).setCore r { k with ptag := (s.core c).ptag }

/-- A core with no thread, no partition and no stop or seal, fit to stand as a spare of its die (R10). -/
def State.isSpare (s : State) (c : Nat) : Bool :=
  (s.unit (unitCore c)).state == 1 && (s.core c).ptag == 0 && !(s.core c).isSealed

/-- The free spares of a die, lowest first. -/
def State.spares (s : State) (d : Nat) : List Nat :=
  (s.units.filter fun r => unitKind r.1 == 1 && unitDie r.1 == d && r.2.state == 1).map (fun r => unitCoreName r.1)
    |>.filter s.isSpare

/-! ### Ending launches -/

/-- A launch ends before its time with a cause: its threads become free and its records go (R282, R388). -/
def State.endLaunch (s : State) (l cause last : Nat) : State :=
  let s1 := s.modLaunch l fun k => { k with cause := cause, last := last, waiting := false }
  s1.cores.foldl (fun st (c, k) =>
    let st1 := if k.lid = l then st.modCore c fun q => { q with deque := [], dqSlots := 0, due7 := none } else st
    k.th.foldl (fun st2 (t, y) => if y.lid = l && y.st ≠ 0 then (st2.discard c t).freeThread c t else st2) st1) s1

/-! ### The start of a launch's threads (R22, R289) -/

/-- The task record of a launch's threads (R166, R388): g1 points to offset 0 of the argument object (R22). -/
def launchRec (h : List Byte) : TaskRec :=
  let code := fpCode (wordAt h 0)
  let nr := if bit (hdrAt h 0x2D 1) 0 then 2 ^ 62 else 0
  { entry := code + BitVec.ofNat 64 nr, a1 := fpWith (fpCode (wordAt h 0x30)) 0, launch := true }

/-- The firmware takes a free tile of its cluster for the log of a duo copy (R394; log entry 133). -/
def State.takeLog (s : State) (c t : Nat) : State :=
  let cl := clusterOf c
  if !(s.thr c t).duo || (s.thr c t).logTile ≠ 0 then s
  else match (List.range 64).find? fun n => ((s.clu cl).tile n).own == .free && !((s.clu cl).tile n).filling with
    | none => s
    | some n =>
      (s.modClu cl fun k => { k with tiles := SMap.set {} n { own := .ctx 0 } k.tiles }).modThr c t fun x => { x with logTile := n + 1 }

/-- The log tiles of a core's threads become free. -/
def State.dropLogs (s : State) (c : Nat) : State := (List.range 8).foldl (fun st t => st.dropLog c t) s

/-- The duo copies on a core take tiles for their logs, whatever tiles they had elsewhere. -/
def State.takeLogs (s : State) (c : Nat) : State :=
  (List.range 8).foldl (fun st t =>
    if (st.thr c t).logTile = 0 && !(st.thr c t).duo then st
    else (st.modThr c t fun x => { x with logTile := 0 }).takeLog c t) s

/-- A thread starts as a thread of a launch with a WID; its frontier joins the launch's view at `.pkg` (R290). -/
def State.launchThread (s : State) (c t l : Nat) (wid : Word) (duo : Bool) : State :=
  let k := s.launch l
  let s1 := s.modThr c t fun x =>
    { ({ x with wid := wid }.start (launchRec k.hdr) []) with
      lid := l, ctx := k.ctx, queue := k.queue, hasWid := true, bars := [], duo := duo, seen := [], rel := []
      msgViews := [], log := [], wasFree := false, pc := fpCode (wordAt k.hdr 0) }
  (s1.joinViews (agThread c t) 4 k.views).takeLog c t

/-! ### Kill and restart (R387, R388) -/

/-- A register that a kill of a core with this logical name poisons (R387). -/
def Thread.expects (x : Thread) (n l : Nat) : Bool :=
  let e := SMap.get 0 n x.exs
  !x.isFull n && (if e ≠ 0 then e == l + 1 else SMap.get 0 n x.lastSrc == l + 1)

/-- The marks that a kill leaves: messages not yet in a register, and registers that expect the core (R387). -/
def State.poisonFor (s : State) (c l tag : Nat) : State :=
  let mark (m : Msg) : Msg := if m.e.core = c && !m.fw then { m with poison := true } else m
  let s1 : State := { s with
    msgs := s.msgs.map mark
    saves := s.saves.map fun r => (r.1, { r.2 with
      msgs := r.2.msgs.map mark
      cores := r.2.cores.map fun q => if q.body.ptag ≠ tag then q else { q with body := { q.body with th := q.body.th.map fun y =>
        (y.1, { y.2 with mbx := y.2.mbx.map fun m => if m.src = l + 1 then { m with poison := true } else m }) } } })
    stops := s.stops.map fun k => { k with msgs := k.msgs.map mark, killed := if !k.core && k.target == tag && k.announced then (l :: k.killed).dedup else k.killed } }
  s1.cores.foldl (fun st (d, k) =>
    if k.ptag ≠ tag && !isCC d then st
    else k.th.foldl (fun st2 (t, x) =>
      let y := { x with mbx := x.mbx.map fun m => if m.src = l + 1 then { m with poison := true } else m }
      let z := if x.st = 0 || k.ptag ≠ tag then y
        else (List.range 16).foldl (fun w n => if n ≠ 0 && x.expects n l then w.fill n 0 [] 0 true else w) y
      st2.setThr d t z) st) s1

/-- The core of the other copy of a duo task, which runs on the thread of the same number (R295). -/
def State.duoMate (s : State) (c t : Nat) : Option Nat :=
  let cs := (s.launch (s.thr c t).lid).copies
  match cs.find? fun p => p.1 == c || p.2 == c with
  | none => none
  | some p => some (if p.1 = c then p.2 else p.1)

/-- The third copy is gone, and its core is free. -/
def State.dropThird (s : State) (l g c t : Nat) : State :=
  (((s.modThr c t fun x => { x with log := [], duo := false }).freeThread c t).modCore c fun q => { q with lid := 0 }).modLaunch l
    fun w => { w with thirds := SMap.set 0 g 0 w.thirds, passed3 := SMap.set 0 g 0 w.passed3 }

/-- The number of the pair of copies that a core is one of, times 8, plus the thread. -/
def Launch.pairOf (k : Launch) (c t : Nat) : Nat := 8 * k.copies.findIdx (fun p => p.1 == c || p.2 == c) + t

/-- The copies of a pair begin from their record: they have passed no vote since (R395; log entry 133). -/
def State.pairBegins (s : State) (l g : Nat) : State := s.modLaunch l fun w => { w with passed := SMap.set 0 g 0 w.passed }

/-- A third copy on a core begins from its record. -/
def State.thirdBegins (s : State) (l c : Nat) : State :=
  s.modLaunch l fun w => match w.thirds.find? fun p => p.2 == c + 1 with
    | some p => { w with passed3 := SMap.set 0 p.1 0 w.passed3 }
    | none => w

/-- The other copy of a killed one begins anew with an empty log, and a third copy of theirs is gone (R395). -/
def State.restartMate (s : State) (d t : Nat) (x : Thread) : State :=
  let k := s.launch x.lid
  let g := k.pairOf d t
  let s1 := match SMap.get 0 g k.thirds with
    | 0 => s
    | c3 + 1 => (s.discard c3 t).dropThird x.lid g c3 t
  ((s1.discard d t).launchThread d t x.lid (s.thr d t).wid true).pairBegins x.lid g

/-- What a thread was running starts anew on another core: a launch's thread in the state of R22 with its WID, a
task from its record (R388). -/
def State.restart (s : State) (r t : Nat) (x : Thread) : State :=
  if x.task.launch then s.launchThread r t x.lid x.wid x.duo
  else
    s.modThr r t fun y =>
      { ({ y with wid := x.wid }.start x.task []) with
        lid := x.lid, ctx := x.ctx, queue := x.queue, hasWid := x.hasWid, wasFree := x.wasFree }

/-- A core ends (R387): its threads and messages end, what it owed is poisoned, its control core is told, and its logical
core moves to a spare, where its tasks start anew (R388), a duo task with its other copy (R395), or is lost, which `tell`
makes a degradation. -/
def State.dropCore (s : State) (c : Nat) (tell : Bool) : State :=
  let k := s.core c
  let l := s.logical c
  let tag := k.ptag
  let cx := if tag = 0 then 0 else (s.part tag).ctx
  let s1 := k.th.foldl (fun st r => st.discard c r.1) (s.dropLogs c)
  let running := k.th.filter fun r => r.2.st ≠ 0 && r.2.lid ≠ 0
  let s2 := s1.modCore c fun q => { q with
    th := q.th.map fun r => (r.1, { r.2.release with mbx := [], lid := 0, log := [] })
    tq := [], nq := [], tqDrop := 0, nqDrop := [], vq := [], q := [], comps := [], scb := [], deque := [], dqSlots := 0
    isSealed := true, stopped := true, ptag := 0, lid := 0, grant := 0 }
  let s3 := (s2.poisonFor c l tag).notify (ccOf c) 3 0xA6 0 0 0 (BitVec.ofNat 64 l) cx
  let s4 := s3.modUnit (unitCore c) fun u => { u with due := true, state := 2 }
  let nrs := (running.filter fun r => bit r.2.task.entry.toNat 62).map (·.2.lid)
  let s5 := match s4.spares (dieOf c) with
    | r :: _ =>
      let t1 := (s4.modPart tag fun p => { p with map := SMap.set 0 l (r + 1) p.map }).modUnit (unitCore r)
        fun u => { u with state := 0 }
      let t2 := t1.setCore r { ({} : Core) with
        ptag := tag, stopped := s.stops.any (fun q => q.stopped && !q.core && q.target == tag), lid := k.lid, tpc := k.tpc, tpg := k.tpg, pin := k.pin, hint := k.hint, queue := k.queue, wid0 := k.wid0
        active := k.active, shadow := k.shadow, owned := k.owned, credit := k.credit
        deque := k.deque.map (fun d => { d with res := 0 }), dqNext := k.dqNext, due7 := k.due7 }
      let t3 : State := { t2 with launches := t2.launches.map fun q => (q.1, q.2.moveTo c r) }
      let again := running.filter fun q => !bit q.2.task.entry.toNat 62
      let t4 := again.foldl (fun st q => st.restart r q.1 q.2) t3
      ((again.filter (·.2.duo)).foldl (fun st q => match s.duoMate c q.1 with
        | some d => st.restartMate d q.1 q.2
        | none => st.thirdBegins q.2.lid r) t4).raiseVer
    | [] =>
      let lost := (running.map (·.2.lid) ++ (if k.deque.isEmpty && k.due7.isNone then [] else [k.lid])).dedup.filter (· != 0)
      let t0 := s4.modPart tag fun p => { p with map := SMap.set 0 l 0 p.map }
      let t1 := if tell then t0.raiseVer.degrade (unitCore c) s else t0
      let t2 : State := { t1 with launches := t1.launches.map fun q => (q.1, { q.2 with cores := q.2.cores.filter (· != c) }) }
      lost.foldl (fun st q => st.endLaunch q 0xA0 0xA0) t2
  nrs.dedup.foldl (fun st q => st.endLaunch q 0xA0 0xA0) s5

/-! ### Scores and retirement (R392, R393) -/

/-- What the loss of a unit takes out of service, and whether a spare or the reserve absorbs it (R10, R11, R397). A spare
itself takes nothing with it; a core out on a lease or killed, whose place a spare has taken, would have come back as a
spare, and its loss is absorbed while its die has a free one, or where it has been told at the kill. -/
def State.loseUnit (s : State) (u : Nat) : State × Bool :=
  match unitKind u with
  | 1 =>
    let c := unitCoreName u
    if (s.core c).ptag = 0 ∧ (s.unit u).state ≠ 0 then
      (s, (s.unit u).state == 1 || (s.unit u).lost || !(s.spares (unitDie u)).isEmpty)
    else match s.spares (unitDie u) with
      | r :: _ => ((if (s.core c).ptag = 0 then s else s.moveCore c r).modUnit (unitCore r) (fun v => { v with state := 0 }), true)
      | [] => (if (s.core c).ptag = 0 then s else s.dropCore c false, false)
  | 2 => (s.modClu (unitClu u) fun k => { k with vatsOff := (unitIx u :: k.vatsOff).dedup }, false)
  | 3 => (s.modClu (unitClu u) fun k => { k with treesOff := (unitIx u :: k.treesOff).dedup }, false)
  | 6 => if (s.unit u).state = 2 then (s, false)
    else (s.modClu (unitClu u) fun k => { k with lanesOff := min 64 (k.lanesOff + 8) }, false)
  | 5 =>
    let d := unitDie u
    let s1 := s.leaveChannel d (unitIx u)
    if s.reserveGone.contains d then (s1, false)
    else ({ s1.modUnit (unitCh d (reserveCh d)) (fun v => if v.state = 4 then { v with state := 0 } else v) with
      reserveGone := d :: s1.reserveGone }, unitIx u != reserveCh d)
  | _ => (s, false)

/-- A unit is retired: it leaves the inventory, and its loss is handled by R397 (R392, R393). -/
def State.retireUnit (s : State) (u reason : Nat) : State :=
  let (s1, held) := s.loseUnit u
  let s2 := (s1.modUnit u fun v => { v with state := 3, due := false }).raiseVer
  let r : Retired :=
    { unit := u, pmv := s2.pmVer, reason := reason, score := (s2.unit u).score, boot := s2.bootCount, time := s2.dtime
      sig := ((s2.leases.filter fun l => l.unit == u && l.state == 3).getLast?).map (·.sig) }
  let s3 : State := { s2 with
    retired := s2.retired ++ [r]
    leases := s2.leases.map fun l => if l.unit = u ∧ l.state = 1 then { l with state := 3, stop := s2.dtime } else l }
  if held then s3 else s3.degrade u s

/-- A score rises; at 64 an immediate lease is due, at 192 the unit is retired (R392). -/
def State.bump (s : State) (u n reason : Nat) : State :=
  let v := s.unit u
  let sc := min 255 (v.score + n)
  let s1 := s.modUnit u fun w => { w with score := sc, due := w.due || (64 ≤ sc && w.state != 3), last := s.dtime }
  if 192 ≤ sc && v.state ≠ 3 then s1.retireUnit u reason else s1

/-- The record of a divergence at /sys/plotmap/events with the result bits of the unit and of its rind; a group that holds
no result word records a free value (R386; log entry 107). -/
def State.rindEvent (s : State) (u x : Nat) (bits : List Word) : State :=
  let (s1, f) := s.takeFree
  { s1 with events := s1.events ++
    [{ unit := u, time := s1.dtime, ctx := x, data := if bits.isEmpty then [Config.free f] else bits }] }

/-- The kill of a core (R387): its score gains 64, and one that no spare takes the place of is a degradation (R397). -/
def State.killCore (s : State) (c : Nat) : State := (s.dropCore c true).bump (unitCore c) 64 4

/-- A channel on which uncorrectable data is found gains 4 (R398), a bank of the weight store being no unit; the spec names
no reason of a retirement for it (DESIGN CHOICE, log entry 131). -/
def State.foundBad (s : State) (ls : List Nat) : State :=
  let at_ (l : Nat) : Nat := (let e := s.extent (locId l) (locOff l / 2 ^ 18); unitCh e.die e.ch)
  let inStore (l : Nat) : Bool := (s.extent (locId l) (locOff l / 2 ^ 18)).ws
  let new := ls.filter fun l => locKind l == 2 && !s.isSys l && !inStore l && !s.bad.contains l
  ((new.map at_).dedup).foldl (fun st u => st.bump u 4 6) { s with bad := (s.bad ++ ls).dedup }

/-- What links have marked uncorrectable in the step before is so no longer: it was bad on its way alone (R398). -/
def State.clearLink (s : State) : State := { s with bad := s.bad.filter fun l => !s.linkBad.contains l, linkBad := [] }

/-- Bytes that links mark uncorrectable, on their way in the step to come; each link gains 4 (R398). -/
def State.linkFails (s : State) (ls : List (Nat × Nat)) : State :=
  let new := ((ls.map (·.2)).filter fun l => !s.bad.contains l).dedup
  ((ls.map (·.1)).dedup).foldl (fun st u => st.bump u 4 6) { s with bad := s.bad ++ new, linkBad := new }

/-- A link carries less than before: a degradation (R397). -/
def State.slowLink (s : State) (u cap : Nat) : State :=
  if unitKind u = 4 ∧ cap < (s.unit u).cap then ((s.modUnit u fun v => { v with cap := cap }).raiseVer).degrade u else s

/-- What comes before a step: time passes, and errors and losses are found (R397, R398). -/
def State.begins (s : State) (a : Sched) : State :=
  a.slow.foldl (fun st p => st.slowLink p.1 p.2)
    ((({ s with cyc := s.cyc + a.dt, pref := a.pref } : State).clearLink.foundBad a.bad).linkFails a.link)

end Sys2Proof.Machine
end

