-- ==== Sys2Proof/Machine/Placer.lean ====
section
/-! DEFINITION. Launch headers (R288), WIDs (R289), admission (R297 to R300), placement (R291 to R295, R301), the
end of a launch (R296), the slot rotation (R36, R302, R303) and stealing (R303 to R305). -/

namespace Sys2Proof.Machine

/-! ### Launch headers (R288, R289, R298) -/

/-- The bound of a promise class in A-cycles (R297). -/
def classBound (cls : Nat) : Nat := 850 * ([0, 20, 60, 200, 600, 2000, 6000, 20000].getD cls 0)

/-- A scheduler tick in A-cycles (R291). -/
def tickLen : Nat := 8500

/-- The threads of a launch. -/
def hdrThreads (h : List Byte) : Nat := (List.range (hdrLevels h)).foldl (fun a i => a * hdrExt h i) 1
/-- tpc. -/
def hdrTpc (h : List Byte) : Nat := hdrAt h 0x1F 1
/-- pin. -/
def hdrPin (h : List Byte) : Nat := hdrAt h 0x20 1
/-- The promise class. -/
def hdrClass (h : List Byte) : Nat := hdrAt h 0x28 1
/-- The deadline in µs. -/
def hdrDeadline (h : List Byte) : Nat := hdrAt h 0x2A 2
/-- The redundancy mode. -/
def hdrDuo (h : List Byte) : Bool := hdrAt h 0x2C 1 == 1
/-- The completion-counter pointer. -/
def hdrCc (h : List Byte) : Word := wordAt h 0x38
/-- The gangs of a launch. -/
def hdrGangs (h : List Byte) : Nat := hdrThreads h / (hdrGpg h * hdrTpg h)

/-- The header keeps the rules of R288 and R298 for a context and a queue of a class. -/
def State.hdrOk (s : State) (x cls : Nat) (h : List Byte) : Bool :=
  let w := hdrAt h 0x08 8
  let l := hdrLevels h
  let ws := (List.range l).map (hdrWidth h)
  let d := s.desc x (fpHnd (wordAt h 0))
  let lanes := hdrAt h 0x24 1
  let dl := hdrDeadline h * 850
  1 ≤ l && l ≤ 6 && ws.all (fun v => 1 ≤ v) && decide (ws.foldl (· + ·) 0 ≤ 64)
    && (List.range 6).all (fun i => i < l || (hdrWidth h i == 0 && hdrExt h i == 0)) && w / 2 ^ 39 == 0
    && (List.range l).all (fun i => 1 ≤ hdrExt h i && hdrExt h i ≤ 2 ^ hdrWidth h i)
    && 1 ≤ hdrGpg h && hdrGpg h ≤ 8 && 1 ≤ hdrTpg h && hdrTpg h ≤ 8 && hdrTpg h ≤ hdrTpc h && hdrTpc h ≤ 8
    && hdrThreads h % (hdrGpg h * hdrTpg h) == 0
    && hdrPin h ≤ 4 && (hdrPin h != 0 || hdrAt h 0x22 2 != 0) && hdrAt h 0x21 1 == 0
    && lanes % 8 == 0 && lanes ≤ 64 && hdrAt h 0x25 1 ≤ 16 && hdrAt h 0x26 2 ≤ 192
    && hdrClass h == cls && hdrClass h ≤ 7 && hdrAt h 0x29 1 == 0
    && (if cls = 0 then hdrDeadline h == 0 else hdrDeadline h == 0 || (17000 ≤ dl && dl ≤ classBound cls))
    && hdrAt h 0x2C 1 ≤ 1 && hdrAt h 0x2D 1 ≤ 1 && hdrAt h 0x2E 2 == 0
    && d.st == .valid && bit d.rights rExec && fpHnd (wordAt h 0) != 0

/-- The WID of thread `j` (R289). -/
def widOf (h : List Byte) (j : Nat) : Nat :=
  ((List.range (hdrLevels h)).reverse.foldl (fun (a : Nat × Nat) i =>
    let e := max 1 (hdrExt h i)
    (a.1 / e, a.2 + a.1 % e * 2 ^ hdrLo h i)) (j, 0)).2

/-! ### Fitting gangs (R292) -/

/-- The lowest cluster with room for a gang among free logical cores in rising order, and the cores it takes. -/
def placeGang (free : List Nat) (gpg : Nat) (notIn : Option Nat) : Option (List Nat) :=
  let cls := (free.map clusterOf).dedup
  (cls.find? fun cl => some cl != notIn && decide (gpg ≤ (free.filter fun c => clusterOf c == cl).length)).map fun cl =>
    (free.filter fun c => clusterOf c == cl).take gpg

/-- A gang's cores, and its second copy's where the launch is a duo (R295). -/
def placeCopies (free : List Nat) (gpg : Nat) (duo : Bool) : Option (List Nat × List Nat) :=
  match placeGang free gpg none with
  | none => none
  | some a =>
    if duo then
      match placeGang (free.filter fun c => !a.contains c) gpg ((a.head?).map clusterOf) with
      | none => none
      | some b => some (a, b)
    else some (a, [])

/-- What is left of some free cores after `n` gangs, none if one does not fit. -/
def placeAll (gpg : Nat) (duo : Bool) : Nat → List Nat → Option (List Nat)
  | 0, free => some free
  | n + 1, free =>
    match placeCopies free gpg duo with
    | none => none
    | some (a, b) => placeAll gpg duo n (free.filter fun c => !a.contains c && !b.contains c)

/-- Every command that the threads of a core have dispatched to its queues and engines and that has not retired. -/
def State.coreCommands (s : State) (c : Nat) : List Eff :=
  let k := s.core c
  let cl := s.clu (clusterOf c)
  (k.vq.map (·.e) ++ k.q.flatMap (·.2) ++ cl.trel.win.map (·.e) ++ cl.sched.map (·.e)
    ++ (cl.ladle.filter fun r => r.ended == .running).map (·.e) ++ (s.die (dieOf c)).press.map (·.e)
    ++ ((s.die (dieOf c)).net.filter fun r => !r.ended).map (·.e)).filter fun e => e.core == c

/-- A core is released by a launch (R296). -/
def State.released (s : State) (l c : Nat) : Bool :=
  let k := s.core c
  (k.lid != l || (k.deque.isEmpty && k.due7.isNone)) && k.th.all (fun r => r.2.lid != l || r.2.st == 0)
    && (s.coreCommands c).all fun e => e.lid != l

/-- A physical core is free for a launch (R292), the launch before it has released it (R296, R400). -/
def State.coreFree (s : State) (tag c : Nat) : Bool :=
  let k := s.core c
  k.ptag == tag && !k.stopped && k.deque.isEmpty && (List.range 7).all (fun t => (k.thread t).st == 0)
    && (k.lid == 0 || s.released k.lid c)

/-- The logical cores of a partition that are free, in rising order. -/
def State.freeCores (s : State) (tag : Nat) : List Nat :=
  ((s.part tag).map.filter fun r => r.2 != 0 && s.coreFree tag (r.2 - 1)).map (·.1)

/-- The launches of a queue that wait, in submission order. -/
def State.waitingOf (s : State) (q : Nat) : List Nat :=
  let ws := s.launches.filter fun r => r.2.queue == q && r.2.waiting
  let orders := sortNats (ws.map (·.2.order))
  orders.filterMap fun o => (ws.find? fun r => r.2.order == o).map (·.1)

/-! ### Admission (R300) -/

/-- The reserved cores of a queue that are free (R292) and that no admitted, unfinished launch of it is due to occupy. -/
def State.resvFree (s : State) (tag q : Nat) : List Nat :=
  let mine := s.launches.filter fun r => r.2.queue == q && !r.2.ended
  let free := (sortNats (s.queue q).resv).filter fun l =>
    match s.phys tag l with
    | none => false
    | some c => s.coreFree tag c && !mine.any fun r => r.2.cores.contains c
  mine.foldl (fun fr r =>
    let left := hdrGangs r.2.hdr - r.2.placed
    (placeAll (hdrGpg r.2.hdr) (hdrDuo r.2.hdr) left fr).getD []) free

/-- The firmware's answer to a launch of a promised class: admitted or not (R300, R408). -/
def State.admits (s : State) (tag q : Nat) (h : List Byte) (bound : Nat) : Bool :=
  !s.hold && tickLen ≤ bound && (placeAll (hdrGpg h) (hdrDuo h) (hdrGangs h) (s.resvFree tag q)).isSome

/-- The time a launch has from its admission to its deadline (R298). -/
def hdrBound (h : List Byte) (cls : Nat) : Nat := if hdrDeadline h = 0 then classBound cls else hdrDeadline h * 850

/-- A launch submitted to a queue: status 0 with its number, 0x80 or 0x82 (R168, R288, R300). -/
def State.submit (s : State) (x tag q : Nat) (h : List Byte) (c t : Nat) (fromCore : Bool) : State × Nat × Nat :=
  let cls := (s.queue q).cls
  if !s.hdrOk x cls h then (s, 0x80, 0)
  else
    let bound := hdrBound h cls
    if cls ≠ 0 && !s.admits tag q h bound then (s, 0x82, 0)
    else
      let l := s.launchNext
      let r : Launch :=
        { hdr := h, ctx := x, tag := tag, queue := q, cls := cls, deadline := s.dtime + bound, core := c, thr := t, fromCore := fromCore }
      ({ s with launchNext := l + 1, launches := SMap.set {} l r s.launches }, 0, l)

/-- An accepted launch joins its queue behind the earlier ones (R168). -/
def State.enqueue (s : State) (l : Nat) (views : List View) : State :=
  let n := s.launches.foldl (fun a r => max a r.2.order) 0
  s.modLaunch l fun k => { k with waiting := true, order := n + 1, views := views }

/-! ### Placement (R291 to R295, R301) -/

/-- The slot table that placement leaves in the shadow (R301). -/
def shadowOf (pin tpc q : Nat) : List (BitVec 16) :=
  if pin < 4 ∨ tpc < 8 then
    (List.range 32).map fun i =>
      if i % 8 = 7 ∨ (i % 8 < tpc ∧ i / 8 < pin) then BitVec.ofNat 16 (i % 8) else BitVec.ofNat 16 (2 ^ 15 + q % 256)
  else slotsReset

/-- The eighth thread of a work group starts, at once where t7 is free, else at the first rotation that finds it free
(DESIGN CHOICE, log entry 29). -/
def State.startEighth (s : State) (c : Nat) : State :=
  let k := s.core c
  match k.due7 with
  | none => s
  | some w =>
    if (k.thread 7).st ≠ 0 then s
    else (s.modCore c fun q => { q with due7 := none }).launchThread c 7 k.lid w (hdrDuo (s.launch k.lid).hdr)

/-- A core set up for a work group whose first thread has number `j`, and its threads started (R22, R35, R76, R197, R210). -/
def State.placeOn (s : State) (c l j : Nat) : State :=
  let h := (s.launch l).hdr
  let q := (s.launch l).queue
  let num := (s.queue q).num
  let s1 := s.modCore c fun k =>
    { k with
      lid := l, tpc := hdrTpc h, tpg := hdrTpg h, pin := hdrPin h, hint := hdrAt h 0x24 1, queue := q
      grant := 0, active := slotsReset, shadow := shadowOf (hdrPin h) (hdrTpc h) num, activate := false
      wid0 := BitVec.ofNat 64 (widOf h j), owned := [], credit := [], steal := .idle
      dtab := [], shp := [], hold := []
      due7 := if hdrTpg h = 8 then some (BitVec.ofNat 64 (widOf h (j + 7))) else none
      th := k.th.map fun r => (r.1, if r.2.st = 0 then { r.2 with hasWid := false, lid := 0 } else r.2) }
  ((List.range (min 7 (hdrTpg h))).foldl (fun st t =>
    st.launchThread c t l (BitVec.ofNat 64 (widOf h (j + t))) (hdrDuo h)) s1).startEighth c

/-- A gang of a launch placed on logical cores, and its copy on others (R292, R295). -/
def State.placeGangOn (s : State) (l : Nat) (a b : List Nat) : State :=
  let k := s.launch l
  let h := k.hdr
  let base := k.placed * (hdrGpg h * hdrTpg h)
  let put (st : State) (ls : List Nat) : State :=
    ((List.range ls.length).zip ls).foldl (fun u (i, lc) =>
      match u.phys k.tag lc with
      | some c => u.placeOn c l (base + i * hdrTpg h)
      | none => u) st
  let ph (ls : List Nat) : List Nat := ls.filterMap fun lc => s.phys k.tag lc
  (put (put s a) b).modLaunch l fun w =>
    { w with placed := w.placed + 1, age := 0, cores := w.cores ++ ph a ++ ph b, copies := w.copies ++ (ph a).zip (ph b) }

/-- The queues of a partition's context with a promise class, or without one, in queue-number order. -/
def State.queuesOf (s : State) (tag : Nat) (promised : Bool) : List Nat :=
  let qs := (s.launches.filter fun r => r.2.tag == tag && r.2.waiting && (r.2.cls != 0) == promised).map (·.2.queue)
  sortNats qs.dedup

/-- The clusters that an aged head gang closes to other gangs of class 0 (R294). -/
def State.closedBy (s : State) (tag : Nat) : Option (Nat × List Nat) :=
  let heads := (s.queuesOf tag true ++ s.queuesOf tag false).filterMap fun q => (s.waitingOf q).head?
  let aged := heads.filter fun l => s.gage.toNat % 2 ^ 16 ≤ (s.launch l).age
  match aged with
  | [] => none
  | l :: ls =>
    let old := ls.foldl (fun a b =>
      if (s.launch a).age < (s.launch b).age ∨ ((s.launch a).age = (s.launch b).age ∧ (s.launch b).queue < (s.launch a).queue)
      then b else a) l
    let gpg := hdrGpg (s.launch old).hdr
    let names := ((s.part tag).map.filter fun r => r.2 != 0).map (·.1)
    some (old, (names.map clusterOf).dedup.filter fun cl => gpg ≤ (names.filter fun c => clusterOf c == cl).length)

/-- The queues of a partition with a promised launch that is admitted and not wholly placed (R299). -/
def State.holding (s : State) (tag : Nat) : List Nat :=
  ((s.launches.filter fun r =>
    r.2.tag == tag && r.2.cls != 0 && !r.2.ended && r.2.cause == 0 && decide (r.2.placed < hdrGangs r.2.hdr)).map (·.2.queue)).dedup

/-- The logical cores a launch may take now: none that another queue's promised launch waits for; for a promised launch
its queue's reserved ones, else those that no aged gang has closed (R294, R299). -/
def State.usable (s : State) (tag l : Nat) : List Nat :=
  let k := s.launch l
  let held := ((s.holding tag).filter fun q => k.cls = 0 || q != k.queue).flatMap fun q => (s.queue q).resv
  let free := (s.freeCores tag).filter fun c => !held.contains c
  if k.cls ≠ 0 then free.filter fun c => (s.queue k.queue).resv.contains c
  else
    match s.closedBy tag with
    | some (old, cls) => if l = old then free else free.filter fun c => !cls.contains (clusterOf c)
    | none => free

/-- A launch's gangs are placed in order until one does not fit (R291). -/
def State.placeLaunch (tag l : Nat) : Nat → State → State
  | 0, s => s
  | f + 1, s =>
    let k := s.launch l
    if hdrGangs k.hdr ≤ k.placed then s.modLaunch l fun w => { w with waiting := false }
    else
      match placeCopies (s.usable tag l) (hdrGpg k.hdr) (hdrDuo k.hdr) with
      | none => s.modLaunch l fun w => { w with age := w.age + 1 }
      | some (a, b) => State.placeLaunch tag l f (s.placeGangOn l a b)

/-- The head of a queue, and the next launch's once all its gangs are placed. -/
def State.placeHead (tag q : Nat) : Nat → State → State
  | 0, s => s
  | f + 1, s =>
    match (s.waitingOf q).head? with
    | none => s
    | some l =>
      let s1 := State.placeLaunch tag l (hdrGangs (s.launch l).hdr + 1) s
      if (s1.launch l).waiting then s1 else State.placeHead tag q f s1

/-- How many gangs and launches wait, an upper bound of a pass. -/
def State.passFuel (s : State) : Nat := s.launches.foldl (fun a r => a + hdrGangs r.2.hdr + 1) 1

/-- The promised queues of a pass, the head with the earliest deadline first, then by queue number; a queue is visited once,
with all that it can place (R399). -/
def State.placePromised (tag : Nat) : Nat → List Nat → State → State
  | 0, _, s => s
  | f + 1, qs, s =>
    let heads := qs.filterMap fun q => ((s.waitingOf q).head?).map fun l => (q, (s.launch l).deadline)
    match heads with
    | [] => s
    | h :: hs =>
      let m := hs.foldl (fun a b => if b.2 < a.2 ∨ (b.2 = a.2 ∧ b.1 < a.1) then b else a) h
      State.placePromised tag f (qs.filter (· != m.1)) (State.placeHead tag m.1 s.passFuel s)

/-- PLACER_PASS (R291): one pass over a partition that runs and for which no stop has been announced (R370), outside a pause of
the supervisor pair (R365). The queues of class 0 are visited from one queue further on than in the pass before. -/
def execPlacerPass (tag : Nat) (s : State) : Host.Outcome State Fault Refusal :=
  let p := s.part tag
  if !p.alive || !p.running || s.dtime < s.pause || s.cut || s.stops.any (fun k => !k.core && k.target == tag && k.announced) then .next s
  else
    let s1 := State.placePromised tag s.passFuel (s.queuesOf tag true) s
    let qs := s1.queuesOf tag false
    let turn := qs.filter (p.cls0 ≤ ·) ++ qs.filter (· < p.cls0)
    let s2 := turn.foldl (fun st q => State.placeHead tag q st.passFuel st) s1
    .next (match turn.head? with | some q => s2.modPart tag fun w => { w with cls0 := q + 1 } | none => s2)

/-! ### The end of a launch (R296) -/

/-- Every tile that a context holds through its engines returns to it (R215). -/
def State.returnTiles (s : State) (x : Nat) (cls : List Nat) : State :=
  cls.foldl (fun st cl => st.modClu cl fun k =>
    { k with tiles := k.tiles.map fun r => if r.2.own = .eng x then (r.1, { r.2 with own := .ctx x }) else r }) s

/-- A write of a launch has still to perform, on whichever core its thread stood (R104, R296). -/
def State.writesLeft (s : State) (l : Nat) : Bool := s.cores.any fun r => r.2.th.any fun t => t.2.cq.any fun e => e.lid == l

/-- A thread of a launch still stands somewhere. -/
def State.runsAnywhere (s : State) (l : Nat) : Bool :=
  s.cores.any fun r => r.2.th.any fun t => t.2.lid == l && t.2.st != 0

/-- LAUNCH_END (R296): the launch's cores are released, its tiles return and its counter's step is owed, behind every write of
it. -/
def execLaunchEnd (l : Nat) (s : State) : Host.Outcome State Fault Refusal :=
  let k := s.launch l
  let placedAll := hdrGangs k.hdr ≤ k.placed || k.cause ≠ 0
  if k.hdr.isEmpty || k.ended || !placedAll || (s.part k.tag).saved || !k.cores.all (s.released l) || s.runsAnywhere l || s.writesLeft l
      || s.migs.any (fun m => m.image.lid == l) then .next s
  else
    let ags := (k.cores.flatMap fun c => (List.range 8).map fun t => agThread c t) ++ k.roamed
    let s1 := s.takeViews (agHub 1) (ags.map fun a => s.viewFrom a 5)
    let s2 := s1.returnTiles k.ctx (k.cores.map clusterOf).dedup
    let s3 := k.cores.foldl (fun st c => if (st.core c).lid = l then st.modCore c fun q => { q with lid := 0 } else st) s2
    let s4 := s3.modLaunch l fun w => { w with ended := true, waiting := false }
    let o : Owed :=
      { ctr := hdrCc k.hdr, ctx := k.ctx, core := k.core, thr := k.thr, cause := if k.cause = 0xB6 then k.last else k.cause
        queue := if k.fromCore then none else some k.queue, agent := agHub 1 }
    .next (if hdrCc k.hdr = 0 then s4 else { s4 with owed := s4.owed ++ [o] })

/-! ### The slot rotation (R36, R302, R303) -/

/-- An entry of a slot table is pinned. -/
def pinned (e : BitVec 16) : Bool := e.toNat / 2 ^ 15 == 0

/-- The first position whose thread also pins one of the seven before it (R36). -/
def badSpacing (t : List (BitVec 16)) : Option Nat :=
  (List.range 32).find? fun p =>
    let e := t.getD p 0
    pinned e && (List.range 7).any fun k => (let f := t.getD ((p + 31 - k) % 32) 0; pinned f && f.toNat % 8 == e.toNat % 8)

/-- The shadow table becomes active, or the handler is told why not (R36). -/
def State.activate (s : State) (c : Nat) : State :=
  let k := s.core c
  if !k.activate then s
  else
    let sevens := (k.shadow.filter fun e => pinned e && e.toNat % 8 == 7).length
    let cx := (s.launch k.lid).ctx
    let s1 := s.modCore c fun q => { q with activate := false }
    match badSpacing k.shadow with
    | some p => s1.notify c 6 0x50 1 0 0 (BitVec.ofNat 64 p) cx
    | none =>
      if sevens < 4 then s1.notify c 6 0x50 2 0 0 (BitVec.ofNat 64 sevens) cx
      else s1.modCore c fun q => { q with active := q.shadow }

/-- The launch weight of a queue's threads on a core. -/
def State.weightOn (s : State) (c q : Nat) : Nat :=
  (s.core c).th.foldl (fun a r =>
    if r.2.st = 1 && r.2.queue = q && r.2.lid ≠ 0 then max a (hdrAt (s.launch r.2.lid).hdr 0x22 2) else a) 0

/-- The arbiter's choices over the pooled positions (R302). -/
def arbGo (sum : Int) (qs : List Nat) : List Nat → List Nat → SMap Int → List Nat → List (Nat × Nat) × SMap Int × List Nat
  | [], _, cr, own => ([], cr, own)
  | p :: ps, starved, cr, own =>
    let best := match qs with
      | [] => 0
      | q :: t => t.foldl (fun a b => if SMap.get 0 a cr < SMap.get 0 b cr then b else a) q
    let (q, rest) := match starved with
      | w :: ws => (w, ws)
      | [] => (best, [])
    let (l, cr1, own1) := arbGo sum qs ps rest (SMap.set 0 q (SMap.get 0 q cr - sum) cr) (q :: own)
    ((p, q) :: l, cr1, own1)

/-- The arbiter's assignment of OWN (R302). -/
def State.arbitrate (s : State) (c : Nat) : State :=
  let k := s.core c
  let pool := (List.range 32).filter fun p => !pinned (k.active.getD p 0)
  let qs := sortNats (((k.th.filter fun r => r.2.st == 1 && r.2.lid != 0).map (·.2.queue)).dedup.filter fun q => s.weightOn c q != 0)
  if qs.isEmpty then s
  else
    let sum : Int := qs.foldl (fun a q => a + (s.weightOn c q : Int)) 0
    let cr0 : SMap Int := qs.foldl (fun m q => SMap.set 0 q (SMap.get 0 q k.credit + (s.weightOn c q : Int) * pool.length) m) []
    let starved := qs.filter fun q => !k.owned.contains q
    let (l, cr, own) := arbGo sum qs pool starved cr0 []
    s.modCore c fun w =>
      { w with
        credit := cr, owned := own.dedup
        active := (List.range 32).map fun p =>
          match l.find? fun r => r.1 == p with
          | some r => BitVec.ofNat 16 (2 ^ 15 + (s.queue r.2).num % 256)
          | none => w.active.getD p 0 }

/-- The contexts of a placed core that may start records (R303). -/
def Core.eligible (k : Core) : List Nat :=
  if k.lid = 0 then [] else (List.range 7).filter fun t => t < k.tpc && (k.thread t).st == 0

/-- The free threads of a core start the top records of its deque (R303). -/
def State.startRecords (s : State) (c : Nat) : State :=
  (s.core c).eligible.foldl (fun st t =>
    match (st.core c).topRec with
    | some r => (st.modCore c fun k => k.dropRec r.id).startTask c t r.task r.views
    | none => st) s

/-- A rotation begins: the shadow table, the arbiter, the deque, and the threads that had yielded (R36, R116, R302,
R303). -/
def State.rotate (s : State) (c : Nat) : State :=
  ((((s.activate c).arbitrate c).startEighth c).startRecords c).modCore c fun k =>
    { k with pos := 0, th := k.th.map fun r => (r.1, { r.2 with yielded := false }) }

/-- SLOT_ROTATION_START: the 32 entries have had their turns. -/
def execSlotRotationStart (c : Nat) (s : State) : Host.Outcome State Fault Refusal :=
  if (s.core c).pos < 32 || (s.core c).stopped then .next s else .next (s.rotate c)

/-! ### Stealing (R303 to R305) -/

/-- Mesh hops between two clusters of a die. -/
def meshHops (a b : Nat) : Nat :=
  let d (x y : Nat) : Nat := max x y - min x y
  d (a % 128 % 10) (b % 128 % 10) + d (a % 128 / 10) (b % 128 / 10)

/-- Links between two dies (R12). -/
def dieHops (a b : Nat) : Nat := (List.range 3).foldl (fun n k => n + if bit a k = bit b k then 0 else 1) 0

/-- The clusters of a die other than one, nearest first. -/
def nearClusters (cl : Nat) : List Nat :=
  (List.range 20).flatMap fun h => ((List.range 80).map (cl / 128 * 128 + ·)).filter fun o => o != cl && meshHops cl o == h

/-- The dies other than one, nearest first. -/
def nearDies (d : Nat) : List Nat :=
  (List.range 4).flatMap fun h => (List.range 8).filter fun e => e != d && dieHops d e == h

/-- The victims of a thief in the order it asks them (R303). -/
def State.victims (s : State) (c : Nat) : List Nat :=
  let k := s.core c
  let cl := clusterOf c
  let mates := (List.range 7).map fun i => cl * 16 + (coreIx c + 1 + i) % 8
  let die := (nearClusters cl).flatMap coresOf
  let far := (nearDies (dieOf c)).flatMap fun d => (List.range 80).flatMap fun n => coresOf (d * 128 + n)
  let cx := (s.launch k.lid).ctx
  let runs (v : Nat) : Bool := s.cores.any fun r => r.1 == v && r.2.ptag == k.ptag && !r.2.stopped
    && ((r.2.lid != 0 && (s.launch r.2.lid).ctx == cx) || r.2.th.any fun t => t.2.st != 0 && t.2.ctx == cx)
  (mates ++ die ++ far).filter runs

/-- A core that has nothing to run and room to run something (R303). -/
def Core.idleThief (k : Core) : Bool :=
  k.lid != 0 && !k.stopped && k.deque.isEmpty && k.th.all (fun r => r.2.st != 1) && !k.eligible.isEmpty

/-- STEAL_REQUEST (R303). -/
def execStealRequest (c : Nat) (s : State) : Host.Outcome State Fault Refusal :=
  let k := s.core c
  if k.steal = .idle && k.idleThief then
    .next (s.modCore c fun q => { q with steal := match s.victims c with | [] => .waiting | v => .asking v })
  else .next s

/-- STEAL_ANSWER (R304): the victim hands over its bottom record, or answers empty; a synchronised stop pauses it (R308). -/
def execStealAnswer (c : Nat) (s : State) : Host.Outcome State Fault Refusal :=
  let k := s.core c
  match k.steal with
  | .asking (v :: vs) =>
    if s.stopReached c || s.stopReached v then .next s else
    let go (st : Steal) : State := s.modCore c fun q => { q with steal := st }
    match (if (s.core v).ptag = k.ptag then (s.core v).botRec else none), k.eligible.head? with
    | some r, some t =>
      .next (((go .idle).modCore v fun q => q.dropRec r.id).startTask c t r.task r.views)
    | _, none => .next (go .idle)
    | none, _ => .next (go (if vs.isEmpty then .waiting else .asking vs))
  | _ => .next s

/-- STEAL_BACKOFF_EXPIRY (R304). -/
def execStealBackoffExpiry (c : Nat) (s : State) : Host.Outcome State Fault Refusal :=
  if (s.core c).steal = .waiting || (s.core c).steal = .asking [] then
    .next (s.modCore c fun q => { q with steal := .idle })
  else .next s

end Sys2Proof.Machine
end

