-- ==== Sys2Proof/Machine/VecUnit.lean ====
section
/-! DEFINITION. The vector unit: dispatch at step 5 with its reads, the results of every operation, retirement,
late faults and assists (R72, R189 to R200, R386). -/

namespace Sys2Proof.Machine

/-- The answer of an effect at step 5: done, waiting with a park reason, or refused late (R55, R157). -/
inductive Disp where
  | done (s : State)
  | stall (s : State) (prsn : Nat)
  | refuse (s : State) (cause sub : Nat) (info : Word)

/-! ### Element results (R192 to R200) -/

/-- The element words of some bytes. -/
def wordsOf (size : Nat) (l : List Byte) : List Nat :=
  (List.range (l.length / max 1 size)).map fun i => leAt l (i * size) size

/-- An operation's parameters at its elements. -/
structure VCtx where
  op : Nat
  x : Nat
  e : Nat
  y : Nat
  z : Nat
  rm : RM
  tab : SMap (BitVec 19)
  va : Word
  vb : Word
  tot : Nat := 0

/-- A two-operand floating operation (R192). -/
def vfBin (v : VCtx) (f : Num → Num → Num × Nat) (a b : Nat) : Nat × Nat :=
  let k := fmtOf v.e
  k.op2 v.rm (f (k.decode a) (k.decode b))

/-- A one-operand floating operation. -/
def vfUn (v : VCtx) (f : Num → Num × Nat) (a : Nat) : Nat × Nat :=
  let k := fmtOf v.e
  k.op2 v.rm (f (k.decode a))

/-- VCLZ: the leading zeros of a word. -/
def clzOf (w a : Nat) : Nat := if a = 0 then w else w - 1 - a.log2

/-- The element of a floating or integer operation with sources a, b and the destination's old value d. -/
def vElem (v : VCtx) (a b d : Nat) : Nat × Nat :=
  let w := fmtBits v.e
  let int (i : Int) : Nat × Nat := (wrap w i, 0)
  let k := fmtOf v.e
  match v.op with
  | 0x90 => vfBin v (Num.add v.rm) a b
  | 0x91 => vfBin v (fun p q => Num.add v.rm p q.neg) a b
  | 0x92 => vfBin v Num.mul a b
  | 0x93 => k.op2 v.rm (fmaNum v.rm (k.decode a) (k.decode b) (k.decode d))
  | 0x94 => k.minmax false a b
  | 0x95 => k.minmax true a b
  | 0x96 => vfBin v Num.div a b
  | 0x97 => vfUn v Num.sqrt a
  | 0x98 => vfUn v Num.exp2 a
  | 0x99 => vfUn v Num.lg a
  | 0x9A => vfUn v (Num.div (.fin false 1 0 false)) a
  | 0x9B => vfUn v Num.rsqrt a
  | 0x9D =>
    let s := if v.e = 12 then fmtF64.decode v.vb.toNat else fmtF32.decode (v.vb.toNat % 2 ^ 32)
    k.op2 v.rm (Num.mul (k.decode a) s)
  | 0x9E => (a % 2 ^ (k.width - 1), 0)
  | 0x9F => (a % 2 ^ (k.width - 1) + (if bit a (k.width - 1) then 0 else 2 ^ (k.width - 1)), 0)
  | 0xA0 => int (elemInt v.e a + elemInt v.e b)
  | 0xA1 => int (elemInt v.e a - elemInt v.e b)
  | 0xA2 => int (elemInt v.e a * elemInt v.e b)
  | 0xA4 => (a &&& b, 0)
  | 0xA5 => (a ||| b, 0)
  | 0xA6 => (a ^^^ b, 0)
  | 0xA7 => (a * 2 ^ (b % w) % 2 ^ w, 0)
  | 0xA8 => int (elemInt v.e a / 2 ^ (b % w))
  | 0xAA => (wrap 32 (sgn 32 d + (sgn 8 a).sign * elemInt v.e b), 0)
  | 0xAB => (if b = 0 then d else a, 0)
  | 0xAD =>
    if fmtIsInt v.e then
      let i := elemInt v.e a
      let j := elemInt v.e b
      (b2n (match v.x with | 0 => i == j | 1 => i != j | 2 => decide (i < j) | _ => decide (i ≤ j)), 0)
    else
      let (r, f) := fcmp v.x (k.decode a) (k.decode b)
      (b2n r, f)
  | 0xAE =>
    let (lo, hi) := intRange (fmtSigned v.y) (fmtBits v.y)
    (wrap (fmtBits v.y) (clampInt lo hi (elemInt v.z a)).1, 0)
  | 0xAF => (clzOf w a, 0)
  | _ => (a, 0)

/-- An element of VCVT: equal formats without a scale copy; a scaled source or target is scaled exactly (R193,
R79, R80, log entry 13). -/
def cvtElem (v : VCtx) (srcScale dstScale : Option Int) (a : Nat) : Nat × Nat :=
  match srcScale, dstScale with
  | none, none => convElem v.tab v.z v.y v.rm a
  | _, _ =>
    let (x, f1) := elemNum v.tab v.z a
    let x := x.scale (srcScale.getD 0)
    let (w, f2) := match dstScale with
      | some t => scaledByte v.tab v.y v.rm t x
      | none => numTo v.tab v.y v.rm x
    (w, f1 ||| f2)

/-- The operation of a reduction or scan on two values (R87, R198). -/
def redOp (v : VCtx) (kind : Nat) (a b : Nat) : Nat × Nat :=
  if fmtIsInt v.e then
    let i := elemInt v.e a
    let j := elemInt v.e b
    (wrap (fmtBits v.e) (match kind with | 0 => i + j | 1 => max i j | _ => min i j), 0)
  else
    match kind with
    | 0 => vfBin v (Num.add v.rm) a b
    | 1 => (fmtOf v.e).minmax true a b
    | _ => (fmtOf v.e).minmax false a b

/-- The result of an empty reduction (R87). -/
def redEmpty (v : VCtx) (kind : Nat) : Nat :=
  if fmtIsInt v.e then
    let (lo, hi) := intRange (fmtSigned v.e) (fmtBits v.e)
    wrap (fmtBits v.e) (match kind with | 0 => 0 | 1 => lo | _ => hi)
  else
    match kind with
    | 0 => 0
    | 1 => (fmtOf v.e).infinity true
    | _ => (fmtOf v.e).infinity false

/-- The register value of VFILL encoded as STT does (R146, R200). -/
def fillWord (v : VCtx) : Nat × Nat := if v.e = 0 then (v.va.toNat % 256, 0) else ofReg v.tab v.e v.rm v.va.toNat

/-- s + i encoded into E (R200). -/
def iotaWord (v : VCtx) (i : Nat) : Nat × Nat :=
  let n := v.va.toInt + i
  if fmtIsInt v.e then (wrap (fmtBits v.e) n, 0) else numTo v.tab v.e v.rm (.ofInt n)

/-- The results of an operation over `n` elements: the word of each part of its destination with its flags. -/
def vResults (v : VCtx) (n : Nat) (sa sb sd : List Nat) : List (Nat × Nat) :=
  let at_ (l : List Nat) (i : Nat) : Nat := l.getD i 0
  match v.op with
  | 0xA3 => (List.range n).map fun i =>
      (wrap 32 (sgn 32 (at_ sd i) + (List.range 4).foldl (fun a j =>
        a + elemInt v.e (at_ sa (4 * i + j)) * elemInt v.e (at_ sb (4 * i + j))) 0), 0)
  | 0xA9 => (List.range n).map fun i =>
      let (t, f) := tern (at_ sa (i / 5)) (i % 5)
      (wrap 8 t, f)
  | 0xAC => (List.range n).map fun i =>
      let j := sgn 32 (at_ sb i)
      (if 0 ≤ j && j < v.tot then at_ sa j.toNat else 0, 0)
  | 0xB2 | 0xB3 | 0xB4 =>
    let kind := v.op - 0xB2
    [if n = 0 then (redEmpty v kind, 0) else treeT (redOp v kind) 0 (n + 1) sa]
  | 0xB5 =>
    let (ws, f) := scan (redOp v v.x) sa
    ws.map fun w => (w, f)
  | 0xB9 => List.replicate n (fillWord v)
  | 0xBA =>
    if v.x = 0 then (List.range ((n + 7) / 8)).map fun k =>
      ((List.range 8).foldl (fun a j => a + if 8 * k + j < n && at_ sa (8 * k + j) != 0 then 2 ^ j else 0) 0, 0)
    else (List.range n).map fun i => (b2n (bit (at_ sa (i / 8)) (i % 8)), 0)
  | 0xBB => (List.range n).map (iotaWord v)
  | _ => (List.range n).map fun i => vElem v (at_ sa i) (at_ sb i) (at_ sd i)

/-- The first illegal byte that UNPK3 read, as the element it starts with; unused digits count too (R195). -/
def unpkBad (sa : List Nat) : Option Nat :=
  ((List.range sa.length).find? fun k => (ternDigits (sa.getD k 0)).isNone).map (5 * ·)

/-! ### Reads (R189, R190) -/

/-- The read events of a block-scaled operand: scale byte and element byte of each element (R79). -/
def scaledParts (p : Word) (loc n : Nat) : List Part :=
  (List.range n).flatMap fun i =>
    let l := loc + blockStep p i
    [{ loc := l - blockPos p (fpOff p + blockStep p i), size := 1 }, { loc := l, size := 1 }]

/-- The read events of an operand. -/
def operandParts (op x which : Nat) (p : Word) (loc n size : Nat) : List Part :=
  if fpBlg p ≠ 0 then scaledParts p loc n
  else
    let (k, sz) := vecParts op x which n size
    (List.range k).map fun i => { loc := loc + i * sz, size := sz }

/-- The element that a part of an operand belongs to. -/
def elemOfPart (op x which : Nat) (p : Word) (i : Nat) : Nat :=
  if fpBlg p ≠ 0 then i / 2
  else match op with
    | 0xA3 => i / 4
    | 0xA9 => 5 * i
    | 0xBA => if x = 0 then i else 8 * i
    | _ => i + which * 0

/-- A handle that no longer passes its check at the station of a location: an access behind a revocation (R140). -/
def State.barredAt (s : State) (x h l : Nat) : Bool :=
  h != 0 && (match s.stateAt x h (s.stationAt l) with | .valid => false | _ => true)

/-- What a round of reads found: the state, the parts, and whether one was uncorrectable (R387). -/
structure Reads where
  s : State
  parts : List Part := []
  kill : Bool := false

/-- One round of an operand's reads: every part that the operation still needs and that can be read now is (R96, R102,
R318). -/
def State.readParts (s : State) (c t seq : Nat) (need : Nat → Bool) (ps : List Part) : Reads :=
  let a := agThread c t
  let st := s.storesOf c t seq 0
  ((List.range ps.length).zip ps).foldl (fun r (i, p) =>
    if !need i || p.got.isSome then { r with parts := r.parts ++ [p] }
    else if r.s.goneLoc p.loc then
      { r with s := r.s.report (locId p.loc) (locOff p.loc / 2 ^ 18) (dieOf c + 1), parts := r.parts ++ [p] }
    else if r.s.inWindow p.loc then { r with parts := r.parts ++ [p] }
    else
      let (s1, bs, evs) := r.s.readFwd a st (locs p.loc p.size)
      { s := (s1.heat a p.loc false).modThr c t fun x => { x with seen := (x.seen ++ evs).dedup }
        parts := r.parts ++ [{ p with got := some bs }]
        kill := r.kill || (locs p.loc p.size).any fun l => s.bad.contains l && (youngest st l).isNone }) { s := s }

/-- Every part has been read. -/
def allGot (ps : List Part) : Bool := ps.all fun p => p.got.isSome

/-- The bytes of read parts. -/
def gotBytes (ps : List Part) : List Byte := ps.flatMap fun p => p.got.getD []

/-- The elements of a gather or scatter checked by their indices: the locations before the first that fails, and
the failure (R190, R199). -/
def State.checkIdx (s : State) (c x : Nat) (base : Word) (size right : Nat) (ws : Bool) :
    List Nat → List Nat × Option (Nat × Word)
  | [] => ([], none)
  | i :: is =>
    match fpMove base (sgn 32 i * size) with
    | none => ([], some (0x17, base))
    | some p =>
      match s.translate c x [] p size size right with
      | .error (cause, _) => ([], some (cause, faultPtr cause p))
      | .ok k =>
        if ws && k.np.isNone && k.ws.isSome then ([], some (0x22, p))
        else
          let (l, e) := State.checkIdx s c x base size right ws is
          (k.loc :: l, e)

/-- The parameters of an operation in the queue, its sizes and roles. -/
structure VPar where
  v : VCtx
  r : VRow
  da : Nat
  db : Nat
  dd : Nat

/-- The parameters of an operation from its command. -/
def VOp.par (o : VOp) : VPar :=
  let e := o.e
  let x := vecX e.op e.m
  let r := vecRow e.op x
  let (f, y, z) := match vecFmts e.op e.m e.vd e.va e.vb with | .ok k => k | .error _ => (0, 0, 0)
  { v := { op := e.op, x := x, e := f, y := y, z := z, rm := RM.of e.rm, tab := o.tab, va := e.va, vb := e.vb, tot := e.vc.toNat }
    r := r, da := fmtSize (r.a.fmt f y z), db := fmtSize (r.b.fmt f y z), dd := fmtSize (r.d.fmt f y z) }

/-- The elements and scales of a block-scaled operand's bytes. -/
def unscale (l : List Nat) : List Nat × List Int :=
  ((List.range (l.length / 2)).map (fun i => l.getD (2 * i + 1) 0), (List.range (l.length / 2)).map fun i => sgn 8 (l.getD (2 * i) 0))

/-- The location of the part `i` of an operation's destination. -/
def VOp.target (o : VOp) (p : VPar) (i : Nat) : Nat :=
  if o.e.op = 0xB7 then o.dl.getD i 0
  else
    let l := o.e.locs.getD 0 0
    if fpBlg o.e.vd ≠ 0 then l + blockStep o.e.vd i else l + i * p.dd

/-- The address of element `i` of a gather or a scatter (R199). -/
def VOp.ixPtr (o : VOp) (base : Word) (size i : Nat) : Word :=
  (fpMove base (sgn 32 ((wordsOf 4 (gotBytes o.pb)).getD i 0) * size)).getD base

/-- The fat pointer of the part `i` of a destination (R73). -/
def VOp.targetPtr (o : VOp) (p : VPar) (i : Nat) : Word :=
  if o.e.op = 0xB7 then o.ixPtr o.e.vd p.dd i
  else fpWith o.e.vd (fpOff o.e.vd + if fpBlg o.e.vd ≠ 0 then blockStep o.e.vd i else i * p.dd)

/-- The operations whose F32 and F64 results an assist completes (R72). -/
def assisted (op : Nat) : Bool := (0x90 ≤ op && op ≤ 0x9F) || (0xB2 ≤ op && op ≤ 0xB5)

/-- An operation whose reads are complete has its results formed (R189). -/
def VOp.form (o : VOp) (am : Bool) : VOp :=
  let p := o.par
  let n := if o.bad.isSome && 0xB2 ≤ o.e.op && o.e.op ≤ 0xB4 then 0 else o.n
  let sa := wordsOf (if fpBlg o.e.va ≠ 0 then 1 else (vecParts o.e.op p.v.x 1 1 p.da).2) (gotBytes o.pa)
  let sb := wordsOf (vecParts o.e.op p.v.x 2 1 p.db).2 (gotBytes o.pb)
  let sd := wordsOf (if fpBlg o.e.vd ≠ 0 then 1 else p.dd) (gotBytes o.pd)
  let cvt : List (Nat × Nat) :=
    let (as, ascale) := if fpBlg o.e.va ≠ 0 then unscale sa else (sa, [])
    let dscale := if fpBlg o.e.vd ≠ 0 then (unscale sd).2 else []
    (List.range n).map fun i => cvtElem p.v ascale[i]? dscale[i]? (as.getD i 0)
  let rs := if o.e.op = 0x9C then cvt
    else if n = 0 && o.bad.isSome then []
    else vResults p.v n (if o.e.op = 0xB5 then sa.take n else sa) sb sd
  let outs := ((List.range rs.length).zip rs).map fun (i, w) => (o.target p i, leBytes p.dd w.1)
  let unpk := if o.e.op = 0xA9 then unpkBad sa else none
  let fl := rs.foldl (fun a w => a ||| w.2) (if unpk.isSome then flILLC else 0)
  let spov := ((List.range rs.length).zip rs).find? fun w => flHas w.2.2 flSPOV
  let f := if p.v.y = 12 then fmtF64 else fmtF32
  let subs := if am && assisted o.e.op && (p.v.y == 11 || p.v.y == 12) then
      ((List.range rs.length).zip rs).filterMap fun w => if f.subnormal w.2.1 then some w.1 else none
    else []
  { o with
    read := true, out := outs, fl := fl, subs := subs
    hits := (match unpk with | some i => [(0x32, i)] | none => []) ++ (match spov with | some w => [(0x33, w.1)] | none => []) }

/-- The address of an operand's element. -/
def elemPtr (op _x which : Nat) (p : Word) (size i : Nat) : Word :=
  if fpBlg p ≠ 0 then fpWith p (fpOff p + blockStep p i)
  else fpWith p (fpOff p + (match op with | 0xA3 => if which = 0 then 4 * i else 4 * i | 0xA9 => i / 5 | _ => i * size))

/-- The first element of an operation that needs a part which a revocation now refuses is where the operation is cut: the
elements before it complete, and later ones are neither read nor written (R190). `el` tells the element of a part. -/
def State.cutBarred (s : State) (x h : Nat) (ps : List Part) (el : Nat → Nat) (addr : Nat → Word) (o : VOp) : VOp :=
  let bad := ((List.range ps.length).zip ps).filter fun (j, q) => q.got.isNone && decide (el j < o.n) && s.barredAt x h q.loc
  match bad with
  | [] => o
  | (j, _) :: ms => let m := ms.foldl (fun a q => min a (el q.1)) (el j); { o with n := m, bad := some (0x14, addr m) }

/-- The places in sA that the elements of a VPERM read, in element order; none for an index outside the operand (R195). -/
def VOp.permParts (o : VOp) : List (Option Nat) :=
  ((wordsOf 4 (gotBytes o.pb)).take o.n).map fun w =>
    let j := sgn 32 w
    if 0 ≤ j ∧ j < o.e.vc.toNat then some j.toNat else none

/-- A VPERM is cut at its first element whose source a revocation now refuses (R190). -/
def State.cutPerm (s : State) (x h da : Nat) (o : VOp) : VOp :=
  let ps := o.permParts
  let barred (j : Nat) : Bool := match o.pa[j]? with
    | some q => q.got.isNone && s.barredAt x h q.loc
    | none => false
  match ((List.range ps.length).zip ps).find? fun (_, j) => j.any barred with
  | some (i, some j) => { o with n := i, bad := some (0x14, elemPtr 0xAC 0 1 o.e.va da j) }
  | _ => o

/-- The parts of sA that an operation still needs: those of its elements; of a VPERM that has been cut, their sources. -/
def VOp.needA (o : VOp) (x j : Nat) : Bool :=
  if o.e.op = 0xAC then o.bad.isNone || o.permParts.contains (some j) else decide (elemOfPart o.e.op x 1 o.e.va j < o.n)

/-- The targets or the sources of a gather or a scatter whose indices have been read, checked (R190, R199). -/
def State.indexed (s : State) (c x dd : Nat) (o : VOp) : VOp :=
  let gather := o.e.op = 0xB6
  if (o.e.op = 0xB6 ∨ o.e.op = 0xB7) ∧ !o.idx ∧ allGot (o.pb.take o.n) then
    let (ls, e) := s.checkIdx c x (if gather then o.e.va else o.e.vd) dd (if gather then rRead else rWrite) (!gather)
      ((wordsOf 4 (gotBytes o.pb)).take o.n)
    let o := match e with
      | some b => { o with n := ls.length, bad := some b }
      | none => o
    if gather then { o with idx := true, pa := ls.map fun l => { loc := l, size := dd } } else { o with idx := true, dl := ls }
  else o

/-- The operation in place `i` of a core's queue reads what it still may and forms its results when it has read
everything; none when the reads killed the core (R189, R190, R387). -/
def State.vecRead (s : State) (c i : Nat) : State :=
  match (s.core c).vq[i]? with
  | none => s
  | some o =>
    if o.read then s
    else
      let t := o.e.thr
      let p := o.par
      let op := o.e.op
      let h (j : Nat) : Nat := o.e.hnds.getD j 0
      let x := s.ctxOf c t
      let elB (j : Nat) : Nat := elemOfPart op p.v.x 2 o.e.vb j
      let elA (j : Nat) : Nat := elemOfPart op p.v.x 1 o.e.va j
      let elD (j : Nat) : Nat := elemOfPart 0 p.v.x 0 o.e.vd j
      let ha := if op = 0xB6 then fpHnd o.e.va else h 1
      let cutA (o : VOp) : VOp :=
        if op = 0xAC then s.cutPerm x ha p.da o
        else s.cutBarred x ha o.pa elA (fun m => if op = 0xB6 then o.ixPtr o.e.va p.dd m else elemPtr op p.v.x 1 o.e.va p.da m) o
      let o := s.cutBarred x (h 2) o.pb elB (elemPtr op p.v.x 2 o.e.vb p.db) o
      let o := s.cutBarred x (h 0) o.pd elD (elemPtr 0 p.v.x 0 o.e.vd p.dd) (if op = 0xAC then o else cutA o)
      let rb := s.readParts c t o.e.seq (fun j => decide (elB j < o.n)) o.pb
      let o := rb.s.indexed c x p.dd { o with pb := rb.parts }
      let o := cutA o
      let early := (op == 0xB6 && !o.idx) || (op == 0xAC && !allGot (o.pb.take o.n))
      let ra := rb.s.readParts c t o.e.seq (fun j => !early && o.needA p.v.x j) o.pa
      let o := { o with pa := ra.parts }
      let rd := ra.s.readParts c t o.e.seq (fun j => decide (elD j < o.n)) o.pd
      let o := { o with pd := rd.parts }
      let all (need : Nat → Bool) (ps : List Part) : Bool := ((List.range ps.length).zip ps).all fun (j, w) => w.got.isSome || !need j
      let ready := !early && all (o.needA p.v.x) o.pa && all (fun j => decide (elB j < o.n)) o.pb
        && all (fun j => decide (elD j < o.n)) o.pd && (o.idx || (op != 0xB6 && op != 0xB7))
      let o := if ready then o.form (rd.s.core c).am else o
      let s1 := rd.s.modCore c fun q => { q with vq := q.vq.set i o }
      if rb.kill || ra.kill || rd.kill then s1.killCore c else s1

/-- The handle-0 offsets that an operation's writes span, for its scoreboard entry (R199, R319). A scatter whose index reads
still wait at its dispatch holds 0 to 0x4F_FFFF, and is not narrowed later (DESIGN CHOICE, log entry 141). -/
def VOp.span0 (o : VOp) : Option (Nat × Nat) :=
  if fpHnd o.e.vd ≠ 0 then none
  else
    match o.targets with
    | none => some (0, 0x4FFFFF)
    | some [] => none
    | some (l :: ls) =>
      let offs := (l :: ls).map offLocal
      some (offs.foldl min (offLocal l), offs.foldl max (offLocal l))

/-- A vector operation dispatches into the core's queue and reads (R102, R189). -/
def State.vecDispatch (s : State) (c t : Nat) (e : Eff) : Disp :=
  let k := s.core c
  if k.vq.length ≥ 8 then .stall s 0x0E
  else if fpHnd e.vd = 0 && k.scb.length ≥ 8 then .stall s 0x07
  else if k.grant = 0 then .stall s 0x09
  else
    let o : VOp := { e := e, tab := k.dtab, n := e.vc.toNat }
    let p := o.par
    let parts (r : VRole) (which : Nat) (q : Word) (size : Nat) : List Part :=
      if r.isPtr && r != .base then operandParts e.op p.v.x which q (e.locs.getD which 0) o.n size else []
    let o := { o with
      pa := parts p.r.a 1 e.va p.da
      pb := parts p.r.b 2 e.vb p.db
      pd := if p.r.rw || fpBlg e.vd ≠ 0 then parts p.r.d 0 e.vd p.dd else [] }
    let s1 := (s.modCore c fun q => { q with vq := q.vq ++ [o] }).vecRead c k.vq.length
    match (s1.core c).vq[k.vq.length]? with
    | none => .done s1
    | some o2 =>
      match o2.span0 with
      | none => .done s1
      | some (lo, hi) =>
        .done (s1.modCore c fun q => { q with
          scb := q.scb ++ [{ lo := lo, hi := hi, thr := t, seq := e.seq }]
          vq := q.vq.set k.vq.length { o2 with scb := true } })

/-! ### Start, assists and retirement (R72, R189, R190, R386) -/

/-- The assist record of a vector element (R73). -/
def VOp.assistRec (o : VOp) (c i : Nat) : List Byte :=
  let p := o.par
  let word (l : List Part) (sz : Nat) : Word := BitVec.ofNat 64 ((wordsOf sz (gotBytes l)).getD i 0)
  let first : Word := if fpBlg o.e.va ≠ 0 then BitVec.ofNat 64 ((unscale (wordsOf 1 (gotBytes o.pa))).1.getD i 0) else word o.pa p.da
  leBytes 1 o.e.op ++ leBytes 1 p.v.y ++ leBytes 1 o.e.rm ++ leBytes 1 1 ++ leBytes 2 c ++ leBytes 1 o.e.thr ++ leBytes 1 0
    ++ leBytes 8 o.e.m ++ lowBytes first 8 ++ lowBytes (if o.e.op = 0x9D then o.e.vb else word o.pb p.db) 8
    ++ lowBytes (word o.pd p.dd) 8 ++ leBytes 8 i ++ lowBytes (o.targetPtr p i) 8 ++ List.replicate 8 0#8

/-- The operation holds at its next subnormal element: the record is written and 0x31 goes to the control core
(R72, R280). A thread has at most one assist outstanding, so another operation of it waits (R73). -/
def State.vecAssist (s : State) (c i : Nat) : State :=
  match (s.core c).vq[i]? with
  | none => s
  | some o =>
    match o.held, o.subs with
    | none, j :: js =>
      let p := o.par
      let t := o.e.thr
      if (s.thr c t).assist.isSome || (s.thr c t).grp.trap.any (fun g => g.cause == 0x31) then s else
      let s1 := s.poke (locObj oidAssist (assistOff c t)) (o.assistRec c j)
      let s2 := s1.modCore c fun q => { q with vq := q.vq.set i { o with held := some j, subs := js } }
      let a : Assist := { pos := 0, vector := true, idx := j, loc := o.target p j, width := p.dd }
      (s2.modThr c t fun x => { x with assist := some a }).notify (ccOf c) 4 0x31 0 t o.e.head (assistPtr c t) 0 (c + 1)
    | _, _ => s

/-- VECTOR_OP_START: the operation in place `k` reads what its dispatch could not, and starts once everything is
read and those ahead have started (R189, R190). -/
def execVectorOpStart (c k : Nat) (s : State) : Host.Outcome State Fault Refusal :=
  let s1 := s.vecRead c k
  match (s1.core c).vq[k]? with
  | none => .next s1
  | some o =>
    if o.read && !o.started && ((s1.core c).vq.take k).all (·.started) then
      .next ((s1.modCore c fun q => { q with vq := q.vq.set k { o with started := true } }).vecAssist c k)
    else if o.started then .next (s1.vecAssist c k)
    else .next s1

/-- The pieces of a write as a duo log's entries (R394). -/
def logPieces (p : Word) (bs : List Byte) : List (Word × Word) :=
  (pieces (fpOff p) bs.length).map fun (o, n) =>
    let b := (bs.drop (o - fpOff p)).take n
    let k := o % 8
    let mask := (List.range n).foldl (fun a j => a + 2 ^ (55 + k + j)) 0
    (BitVec.ofNat 64 ((fpHnd p * 2 ^ 42 + o / 8 * 8) + mask), BitVec.ofNat 64 (leNat b * 2 ^ (8 * k)))

/-- The element writes of a retiring operation in order: a revocation that has reached the station refuses the
rest (R190). Answers the state and the refused element. -/
def State.vecWrite (s : State) (c t : Nat) (o : VOp) (p : VPar) : List (Nat × (Nat × List Byte)) → State × Option Nat
  | [] => (s, none)
  | (i, l, bs) :: ws =>
    if s.barredAt (s.ctxOf c t) (fpHnd o.e.vd) l then (s, some i)
    else
      let x := s.thr c t
      let s1 := if x.duo then s.modThr c t fun y => { y with log := y.log ++ logPieces (o.targetPtr p i) bs }
        else
          let s2 := s.putMem (agThread c t) (locs l bs.length) bs x.rel none
          ({ s2 with oom := if s.isSys l then s2.oom else s2.oom.overVec c } : State).heat (agThread c t) l true
      State.vecWrite s1 c t o p ws

/-- The scoreboard entry of a command is freed, and accesses it held back issue again (R319). -/
def State.freeScb (s : State) (c t seq : Nat) : State :=
  (s.modCore c fun q => { q with scb := q.scb.filter fun e => !(e.thr == t && e.seq == seq) }).wakeOn c 0x07

/-- The format of a result that floating adders or multipliers formed (R90; log entry 107). -/
def VOp.rindFmt (o : VOp) : Option Fmt :=
  let p := o.par
  let adds := (0x90 ≤ o.e.op && o.e.op ≤ 0x93) || o.e.op == 0x9D || o.e.op == 0xB2 || (o.e.op == 0xB5 && p.v.x == 0)
  if adds && fmtIsFloat p.v.e then some (fmtOf p.v.e) else none

/-- The words of a result of the operation and of its rind, where they diverge (R90). -/
def VOp.diverged (o : VOp) (r : Rind) : Option (List Word) :=
  match o.rindFmt, o.out[r.ix]? with
  | some f, some w => if f.diverges (leNat w.2) r.word.toNat then some [BitVec.ofNat 64 (leNat w.2), r.word] else none
  | _, _ => none

/-- VECTOR_OP_RETIRE: the operation at the head of the queue writes its elements, ORs its flags into VXF, frees
its scoreboard entry and records its late fault; a failed check is reported alone where an element before it also met
an enabled condition (DESIGN CHOICE, log entry 114). `rind` tells what the rind of a lane group formed of one of its
results: the first divergence recomputes, the second kills the core (R386). -/
def execVectorOpRetire (c : Nat) (rind : Option Rind) (s : State) : Host.Outcome State Fault Refusal :=
  match (s.core c).vq with
  | [] => .next s
  | o :: rest =>
    let t := o.e.thr
    let p := o.par
    let ls := o.out.flatMap fun w => locs w.1 w.2.length
    if !o.started || o.held.isSome || !o.subs.isEmpty || !s.writeMay c t o.e.seq ls false then .next s
    else if let some l := ls.find? s.goneLoc then .next (s.report (locId l) (locOff l / 2 ^ 18) (dieOf c + 1))
    else if let some (r, ws) := rind.bind fun r => (o.diverged r).map fun ws => (r, ws) then
      let u := unitIn 6 (clusterOf c) (r.unit % 8)
      let s1 := s.rindEvent u (s.ctxOf c t) ws
      if o.rinds = 0 then
        .next ((s1.bump u 16 1).modCore c fun q => { q with vq := { o with rinds := 1 } :: rest })
      else .next (((s1.killCore c).modUnit u fun v => { v with due := true }).bump u 48 1)
    else
      let (s1, stop) := s.vecWrite c t o p ((List.range o.out.length).zip o.out)
      let s2 := (s1.asWhole (vecWhole (agThread c t) o.e.seq) s.oom.nextEv).modCore c fun q => { q with vq := rest, vxf := flInto q.vxf o.fl }
      let s3 := if o.scb then s2.freeScb c t o.e.seq else s2.wakeOn c 0x07
      let vxe := (s.core c).vxe.toNat
      let on := o.hits.filter fun h => flHas vxe (if h.1 = 0x32 then flILLC else flSPOV)
      let late : Option (Nat × Word) := match stop, o.bad, on with
        | some i, _, _ => some (0x14, o.targetPtr p i)
        | none, some b, _ => some b
        | none, none, h :: hs =>
          let m := hs.foldl (fun a b => if b.2 < a.2 then b else a) h
          some (m.1, BitVec.ofNat 64 m.2)
        | none, none, [] => none
      match late with
      | none => .next s3
      | some (cause, info) => .next (s3.lateFault c t cause 0x0F o.e.head info)

end Sys2Proof.Machine
end

