-- ==== Sys2Proof/Machine/Engines.lean ====
section
/-! DEFINITION. Rows C, D and E at issue (R202 to R238): shape registers, tiles, the checks of engine commands,
QPUSH's record, the queue registers and the dispatch of a command into them. -/

namespace Sys2Proof.Machine

/-! ### Shape registers (R210, R211) -/

/-- A shape register. -/
def Core.shape (k : Core) (n : Nat) : BitVec 512 := SMap.get 0 n k.shp

/-- A field of a shape register. -/
def shBits (v : BitVec 512) (lo w : Nat) : Nat := bits v.toNat lo w

/-- A signed field of a shape register. -/
def shInt (v : BitVec 512) (lo w : Nat) : Int := sgn w (shBits v lo w)

/-- A shape register without its reserved bits, which read zero and ignore writes (R4): bits 511:496 and 63:13 of kind 1
(R212) and 31:24 of kind 4 (R230). The descriptors of kinds 2 and 3 keep theirs, which R222 and R225 check. -/
def shMask (v : BitVec 512) : BitVec 512 :=
  let n := v.toNat
  match n % 16 with
  | 1 => BitVec.ofNat 512 (n % 2 ^ 13 + n % 2 ^ 496 / 2 ^ 64 * 2 ^ 64)
  | 4 => BitVec.ofNat 512 (n % 2 ^ 24 + n / 2 ^ 32 * 2 ^ 32)
  | _ => v

/-- A shape register with a field written. -/
def shPut (v : BitVec 512) (lo w n : Nat) : BitVec 512 :=
  shMask (BitVec.ofNat 512 (v.toNat % 2 ^ lo + n % 2 ^ w * 2 ^ lo + v.toNat / 2 ^ (lo + w) * 2 ^ (lo + w)))

/-- The 64 bytes of a shape register, byte 0 in bits 7:0 (R211). -/
def shBytes (v : BitVec 512) : List Byte := leBytes 64 v.toNat

/-- What a shape register will hold after the buffered writes of a group. -/
def Group.shapeAfter (g : Group) (n : Nat) (v : BitVec 512) : BitVec 512 :=
  g.res.foldl (fun a r =>
    if r.dest == .sh n then
      match r.val with
      | .shape w => w
      | .field lo w x => shPut a lo w x
      | _ => a
    else a) v

/-- SHLD: 64 bytes as eight doubleword loads (R211, R410). -/
def opShld (i : Iss) : Try Out := do
  let k ← i.check i.va 64 64 rRead
  pure (Iss.loads i.va k false
    [{ pos := 0, dest := .sh i.o.d, val := .load .shape none k.side, parts := recParts k.loc 64 }] {})

/-- SHST: eight doubleword stores as one deferred effect (R211). -/
def opShst (i : Iss) : Try Out := do
  let k ← i.checkW i.va 64 64 rWrite
  pure (Iss.stores i.va k
    { op := 0xC1, locs := locs k.loc 64, data := shBytes ((i.s.core i.c).shape i.o.d) } {})

/-- SHSET: a field written at commit; a reserved kind traps (R211). -/
def opShset (i : Iss) : Try Out := do
  let lo := bits i.o.m 0 9
  let w := (widthCode (bits i.o.m 9 4)).getD 0
  let after := shPut (i.x.grp.shapeAfter i.o.d ((i.s.core i.c).shape i.o.d)) lo w i.va.toNat
  let waits := i.x.grp.res.any fun r => r.dest == .sh i.o.d && !r.ret && (match r.val with | .load .. => true | _ => false)
  if lo < 4 ∧ !waits ∧ shBits after 0 4 ≥ 5 then trap 0x07 10 (lineOff i.pc)
  pure { res := [{ pos := 0, dest := .sh i.o.d, val := .field lo w i.va.toNat, done := true }] }

/-- SHGET (R211). -/
def opShget (i : Iss) : Try Out :=
  longG i (BitVec.ofNat 64
    (shBits ((i.s.core i.c).shape i.o.a) (bits i.o.m 0 9) ((widthCode (bits i.o.m 9 4)).getD 0)))

/-! ### Tiles (R213 to R215) -/

/-- The tile number of a tile instruction (R207). -/
def Iss.tileNo (i : Iss) : Try Nat :=
  if i.fm == .t4 && bit i.o.m 6 then (if i.va.toNat ≥ 64 then trap 0x07 0 (lineOff i.pc) else .ok i.va.toNat)
  else .ok (i.o.m % 64)

/-- The context must own the tile (R214). -/
def Iss.mustOwn (i : Iss) (n : Nat) : Try Unit :=
  if i.s.ownsTile (clusterOf i.c) i.x.ctx n then .ok () else trap 0x20 0 (tilePtr n)

/-- The cluster with a tile replaced. -/
def Cluster.setTile (k : Cluster) (n : Nat) (t : Tile) : Cluster := { k with tiles := SMap.set {} n t k.tiles }

/-- TOWN: a claim acts at issue; with REL it is a deferred effect (R214). -/
def opTown (i : Iss) : Try Out := do
  let n ← i.tileNo
  let x := i.x.ctx
  let cl := clusterOf i.c
  let t := (i.s.clu cl).tile n
  if i.fm == .t4 && bit i.o.m 7 then
    i.mustOwn n
    pure { res := valRes i.o.d 1, defs := [{ op := 0xC4, va := BitVec.ofNat 64 n }] }
  else if t.own == .free || t.own == .ctx x then
    pure
      { res := if t.filling then [{ pos := 0, dest := gDest i.o.d, val := .claim n }] else valRes i.o.d 1
        undo := if t.own == .free then [.tile n] else []
        st := some (i.s.modClu cl fun k => k.setTile n { t with own := .ctx x }) }
  else pure { res := valRes i.o.d 0 }

/-- TGIVE (R103, R214). -/
def opTgive (i : Iss) : Try Out := do
  let n ← i.tileNo
  i.mustOwn n
  if i.given.contains n then trap 0x20 0 (tilePtr n)
  pure { defs := [{ op := 0xC5, va := BitVec.ofNat 64 n }], given := [n] }

/-- TTAG (R214). -/
def opTtag (i : Iss) : Try Out := do
  let n ← i.tileNo
  i.mustOwn n
  pure { defs := [{ op := 0xC6, va := BitVec.ofNat 64 n, vb := BitVec.ofNat 64 (bits i.o.m 7 4) }] }

/-! ### Tile-task records (R216) -/

/-- A field of a tile-task record. -/
def TTask.at_ (k : TTask) (o n : Nat) : Nat := leAt k.bytes o n
/-- PATH. -/
def TTask.path (k : TTask) : Nat := k.at_ 1 1
/-- A bit of FLAGS: 0 ACC, 1 RAW, 2 RAKE, 3 to 5 LAST of A, B and C. -/
def TTask.flag (k : TTask) (n : Nat) : Bool := bit (k.at_ 2 1) n
/-- TASKID. -/
def TTask.id (k : TTask) : Nat := k.at_ 0x1C 2
/-- The tiles of the Rake's input (R221). -/
def rakeTiles (v : BitVec 512) : List Nat := (List.range (shBits v 10 7)).map (shBits v 4 6 + ·)
/-- The tiles that stand for A: its own, or the Rake's input. -/
def TTask.aTiles (k : TTask) : List Nat :=
  if k.flag 2 then (rakeTiles k.rake).filter (· < 64) else [k.at_ 0xC 1 % 64]
/-- A task whose record failed its checks runs nothing and names no tile (R217). -/
def TTask.rejected (k : TTask) : Bool := match k.fault with | some (0x64, _) => true | _ => false
/-- The tiles that a task names, in the order A, B, C (R218). -/
def TTask.tiles (k : TTask) : List Nat :=
  if k.rejected then [] else k.aTiles ++ [k.at_ 0xD 1 % 64, k.at_ 0xE 1 % 64]
/-- The tiles that a task marks LAST, a failed one too; the Rake's input tiles count for a task that may start (R215,
R322). -/
def TTask.lasts (k : TTask) : List Nat :=
  (if k.flag 3 && !(k.rejected && k.flag 2) then k.aTiles else []) ++ (if k.flag 4 then [k.at_ 0xD 1 % 64] else [])
    ++ if k.flag 5 then [k.at_ 0xE 1 % 64] else []

/-- TQRY (R214). -/
def opTqry (i : Iss) : Try Out := do
  let n ← i.tileNo
  let k := i.s.clu (clusterOf i.c)
  let t := k.tile n
  let own := match t.own with
    | .free => 0
    | .ctx x => if x = i.x.ctx then 1 else 3
    | .eng x => if x = i.x.ctx then 2 else 3
  let pend := (k.sched.filter fun j => j.tiles.contains n).length
  longG i (BitVec.ofNat 64 (pend * 2 ^ 8 + (if own = 3 then 0 else t.tag) * 2 ^ 4 + own))

/-! ### Trellis descriptors (R224, R225) -/

/-- The children of node j of a subtree: leaves are 0 to 15 and node k is 16 + k (R224). -/
def nodeKids (j : Nat) : Nat × Nat :=
  if j < 8 then (2 * j, 2 * j + 1)
  else if j < 12 then (16 + 2 * (j - 8), 17 + 2 * (j - 8))
  else if j < 14 then (24 + 2 * (j - 12), 25 + 2 * (j - 12))
  else (28, 29)

/-- The leftmost leaf under a leaf or node. -/
def leftLeaf (x : Nat) : Nat :=
  if x < 16 then x else if x < 24 then 2 * (x - 16) else if x < 28 then 4 * (x - 24) else if x < 30 then 8 * (x - 28) else 0

/-- LCNT. -/
def spLcnt (d : BitVec 512) : Nat := shBits d 4 5
/-- A leaf or node is present: its leftmost leaf is. -/
def spPresent (d : BitVec 512) (x : Nat) : Bool := leftLeaf x < spLcnt d
/-- Leaf index i. -/
def spLeaf (d : BitVec 512) (i : Nat) : Nat := shBits d (64 + 13 * i) 13
/-- Weight index i. -/
def spWgt (d : BitVec 512) (i : Nat) : Nat := shBits d (272 + 13 * i) 13
/-- The index that stands for weight 1. -/
def spOne : Nat := 0x1FFF
/-- The operation of node j. -/
def spNodeOp (d : BitVec 512) (j : Nat) : Nat := shBits d (32 + 2 * j) 2
/-- OUT. -/
def spOut (d : BitVec 512) : Nat := shBits d 16 13
/-- FMT F32. -/
def spIsF32 (d : BitVec 512) : Bool := shBits d 9 1 == 1
/-- The present leaves. -/
def spLeaves (d : BitVec 512) : List Nat := List.range (spLcnt d)

/-- The first check of R225 that a subtree descriptor fails. -/
def spBad (d : BitVec 512) : Option Nat :=
  let n := spLcnt d
  let absentLeaf := (List.range 16).filter (· ≥ n)
  let nodes := List.range 15
  let ents := (spLeaves d).map (spLeaf d) ++ ((spLeaves d).map (spWgt d)).filter (· != spOne)
  if shBits d 0 4 ≠ 3 then some 1
  else if n = 0 ∨ n > 16 then some 2
  else if shBits d 480 32 ≠ 0 ∨ shBits d 62 2 ≠ 0 ∨ shBits d 29 3 ≠ 0 ∨ shBits d 10 6 ≠ 0
      ∨ absentLeaf.any (fun i => spLeaf d i != 0 || spWgt d i != 0)
      ∨ nodes.any (fun j => !spPresent d (16 + j) && spNodeOp d j != 0) then some 3
  else if nodes.any fun j => spPresent d (16 + j) && !spPresent d (nodeKids j).2 && spNodeOp d j != 0 then some 4
  else if ents.contains (spOut d) then some 6
  else if (spLeaves d).any fun i => spWgt d i != spOne && (spNodeOp d (i / 2) == 2 || spNodeOp d (i / 2) == 0) then some 7
  else none

/-! ### Ladle descriptors (R230, R231) -/

/-- ESZ, DIMS, and extent, source stride and destination stride j of a kind-4 register. -/
def k4Esz (d : BitVec 512) : Nat := shBits d 8 16
def k4Dims (d : BitVec 512) : Nat := shBits d 4 4
def k4Ext (d : BitVec 512) (j : Nat) : Nat := shBits d (32 + 32 * j) 32
def k4Src (d : BitVec 512) (j : Nat) : Int := shInt d (160 + 44 * j) 44
def k4Dst (d : BitVec 512) (j : Nat) : Int := shInt d (336 + 44 * j) 44

/-- The bytes of a strided transfer. -/
def k4Total (d : BitVec 512) : Nat := k4Esz d * k4Ext d 0 * k4Ext d 1 * k4Ext d 2 * k4Ext d 3

/-- A kind-4 register that breaks R230. -/
def k4Bad (d : BitVec 512) : Bool :=
  shBits d 0 4 != 4 || shBits d 24 8 != 0 || k4Dims d == 0 || k4Dims d > 4 || k4Esz d == 0
    || (List.range 4).any fun j => j ≥ k4Dims d && (k4Ext d j != 1 || k4Src d j != 0 || k4Dst d j != 0)

/-- The check of a pointer's handle and right alone (R231): handle 0 and bounds are checked per chunk. -/
def Iss.handleRight (i : Iss) (p : Word) (right : Nat) : Try Unit :=
  let x := i.x.ctx
  if fpHnd p = 0 then .ok ()
  else
    let d := i.s.handleAt x p
    match d.st with
    | .invalid => trap 0x13 0 p
    | .revoking => trap 0x14 0 p
    | .revoked => trap 0x14 0 p
    | .valid => if bit d.rights right then .ok () else trap 0x12 0 p

/-! ### Work requests (R235, R335, R336) -/

/-- LEN, LPTR, PEER, TAG and CC of a work request. -/
def nrLen (l : List Byte) : Nat := leAt l 4 4
def nrLptr (l : List Byte) : Word := wordAt l 8
def nrPeer (l : List Byte) : Word := wordAt l 0x10
def nrTag (l : List Byte) : Word := wordAt l 0x18
def nrCc (l : List Byte) : Word := wordAt l 0x30

/-- The check of a work request that has been read: its fields in order, and LPTR with its right. Its presence is
met packet by packet. -/
def Iss.netCheck (i : Iss) (op : Nat) (wr : Word) (l : List Byte) : Try Unit := do
  let remote := op ≥ 0xEA
  if leAt l 0 1 ≠ op - 0xE7 then trap 0x70 0x00 wr
  if leAt l 1 1 / 4 ≠ 0 then trap 0x70 0x01 wr
  if leAt l 2 2 ≠ 0 then trap 0x70 0x02 wr
  if nrLen l = 0 then trap 0x70 0x04 wr
  let p := nrLptr l
  if fpHnd p = 0 ∧ region (fpOff p) ≠ region (fpOff p + nrLen l - 1) then trap 0x70 0x08 wr
  if fpHnd p = 0 ∧ !isMapped (region (fpOff p)) then trap 0x23 0 p
  match i.s.translate i.c i.x.ctx i.given p (nrLen l) 1 (if op = 0xE8 ∨ op = 0xEA then rRead else rWrite) with
  | .error (cause, sub) => trap cause sub (faultPtr cause p)
  | .ok _ => pure ()
  if op = 0xE8 ∧ nrPeer l = BitVec.allOnes 64 then trap 0x70 0x10 wr
  if !remote ∧ leAt l 0x20 8 ≠ 0 then trap 0x70 0x20 wr
  if !remote ∧ leAt l 0x28 8 ≠ 0 then trap 0x70 0x28 wr
  let cc := nrCc l
  if cc ≠ 0 ∧ fpHnd cc = 0 then
    match i.s.checkLocal i.c i.x.ctx i.given cc 8 8 with
    | .error _ => trap 0x70 0x30 wr
    | .ok _ => pure ()
  if leAt l 0x38 8 ≠ 0 then trap 0x70 0x38 wr

/-! ### Engine commands at issue -/

/-- A command as its instruction or a QPUSH record gives it: opcode, modifier, the values of its registers and
the shape register it names. -/
structure Cmd where
  op : Nat
  m : Nat
  vd : Word := 0
  va : Word := 0
  vb : Word := 0
  vc : Word := 0
  sreg : Nat := 0

/-- The flag N of a command (R203, R208, R209). -/
def Cmd.notify (k : Cmd) : Bool :=
  match k.op with
  | 0xC7 | 0xD2 | 0xD3 | 0xD4 => bit k.m 0
  | 0xD0 | 0xD1 | 0xD5 | 0xD8 => bit k.m 1
  | 0xD7 => bit k.m 3
  | 0xE0 | 0xE1 | 0xE4 | 0xE5 | 0xE6 | 0xE7 => bit k.m 5
  | _ => false

/-- The deferred effect of a command. -/
def Cmd.eff (k : Cmd) : Eff :=
  { op := k.op, m := k.m, vd := k.vd, va := k.va, vb := k.vb, vc := k.vc, sreg := k.sreg, n := k.notify }

/-- The bytes of an element of a Trellis memory operand (R225). -/
def spElem (op m : Nat) : Nat := if op = 0xD7 ∧ bits m 0 2 = 1 then 8 else 4

/-- TTASK: the check of its record's address (R217). -/
def Iss.ttask (i : Iss) (k : Cmd) : Try Out := do
  let r ← i.check k.va 128 64 rRead
  match r.np with
  | some (oid, e) => pure { np := some (oid, e, k.va) }
  | none => pure { defs := [{ k.eff with locs := [r.loc], hnds := [r.hnd], chk := [(k.va, 128, 64, rRead)] }] }

/-- SPUP, SPMAX and SPDN: the check of the descriptor (R225). -/
def Iss.subtree (i : Iss) (k : Cmd) : Try Out :=
  let d := (i.s.core i.c).shape k.sreg
  match spBad d with
  | some sub => trap 0x62 sub 0
  | none => .ok { defs := [{ k.eff with sh := d }] }

/-- The scratch commands: their range, and their memory operand as a vector's (R225, R187). -/
def Iss.scratch (i : Iss) (k : Cmd) : Try Out := do
  let n := k.vc.toNat
  if n = 0 ∨ k.vb.toNat + n > 8192 then trap 0x62 5 0
  if k.op = 0xD5 ∨ k.op = 0xD6 then pure { defs := [k.eff] }
  else
    let sz := spElem k.op k.m
    let wr := k.op = 0xD1 ∨ k.op = 0xD8
    let p := fpCode k.va
    let r ← i.span p (n * sz) sz (!wr) wr
    match r.np with
    | some (oid, e) => pure { np := some (oid, e, fpWith p (max (fpOff p) (e * 2 ^ 18))) }
    | none => pure { defs := [{ k.eff with locs := [r.loc], hnds := [r.hnd], chk := [(p, n * sz, sz, if wr then rWrite else rRead)] }] }

/-- LCOPY and LFILL (R231). -/
def Iss.ladle (i : Iss) (k : Cmd) : Try Out := do
  if k.op = 0xE0 then i.handleRight k.va rRead
  i.handleRight k.vd rWrite
  let d := (i.s.core i.c).shape k.sreg
  let str := bit k.m 4
  let total := if str then k4Total d else k.vb.toNat
  if total > 2 ^ 40 then trap 0x07 0 (lineOff i.pc)
  if str ∧ k4Bad d then trap 0x65 1 0
  pure { defs := [{ k.eff with vb := BitVec.ofNat 64 total, sh := if str then d else 0 }] }

/-- The Press instructions (R234): the member pointer, and the rights of the pointers this rank uses. -/
def Iss.press (i : Iss) (k : Cmd) : Try Out := do
  match i.s.checkHandle i.x.ctx k.vc 64 64 rEngine with
  | .error (cause, sub) => trap cause sub k.vc
  | .ok r =>
    let members := match (i.s.obj (locId r.loc)).kind with | .press n _ => n | _ => 0
    let rank := fpOff k.vc / 64
    if members = 0 then trap 0x12 0 k.vc
    if rank = 0 ∨ rank > members then trap 0x11 0 k.vc
    let root := bits k.vb.toNat 32 16
    let isRoot := root + 1 == rank
    if k.op ≠ 0xE5 ∨ isRoot then i.handleRight k.va rRead
    if k.op ≠ 0xE4 ∨ isRoot then i.handleRight k.vd rWrite
    pure { defs := [{ k.eff with rd := rank - 1, hnds := [r.hnd], locs := [r.loc], chk := [(k.vc, 64, 64, rEngine)] }] }

/-- NSEND, NPOST, RWRITE and RREAD: where the work request lies, and its eight loads (R235). -/
def Iss.netReq (i : Iss) (k : Cmd) : Try Out := do
  if fpOff k.va % 64 ≠ 0 then trap 0x16 0 k.va
  if fpHnd k.va ≠ 0 ∨ fpOff k.va ≥ 0x30000 then trap 0x70 0x40 k.va
  let r ← i.check k.va 64 64 rRead
  pure { res := [{ pos := 0, dest := .none, val := .load (.record k.op) none false, parts := recParts r.loc 64, ptr := k.va }]
         defs := [k.eff] }

/-- The issue of an engine command. -/
def Iss.command (i : Iss) (k : Cmd) : Try Out :=
  match k.op with
  | 0xC7 => i.ttask k
  | 0xD2 | 0xD3 | 0xD4 => i.subtree k
  | 0xE0 | 0xE1 => i.ladle k
  | 0xE4 | 0xE5 | 0xE6 | 0xE7 => i.press k
  | 0xE8 | 0xE9 | 0xEA | 0xEB => i.netReq k
  | _ => i.scratch k

/-- An engine command as its instruction names it: D holds the destination pointer or the shape register (R208,
R209). -/
def opCommand (i : Iss) : Try Out := do
  let ptr := i.op ≥ 0xE0 && i.op ≤ 0xE7
  let vd ← if ptr then i.x.readG i.o.d else pure 0
  let r ← i.command
    { op := i.op, m := i.o.m, vd := vd, va := i.va, vb := i.vb, vc := i.vc
      sreg := if i.op = 0xE0 ∨ i.op = 0xE1 then i.o.m % 16 else i.o.d }
  pure (if ptr then { r with rd := r.rd ++ [i.o.d] } else r)

/-! ### QPUSH, QPOP and QSTAT (R204 to R206) -/

/-- The queue register that a command enters (R204). -/
def cmdReg (op : Nat) : Nat :=
  if op = 0xC7 then 0 else if op < 0xE0 then 1 else if op < 0xE2 then 2 else if op < 0xE8 then 3 else 4

/-- The completion register of a queue register (R204). -/
def compReg (q : Nat) : Nat := if q < 2 then 5 else if q < 4 then 6 else 7

/-- An opcode that is an engine command (R204). -/
def isCommand (op : Nat) : Bool :=
  op == 0xC7 || (0xD0 ≤ op && op ≤ 0xD8) || op == 0xE0 || op == 0xE1 || (0xE4 ≤ op && op ≤ 0xEB)

/-- QPUSH reads its record (R206); the command's own checks follow when it has returned. -/
def opQpush (i : Iss) : Try Out := do
  if i.o.d > 4 then trap 0x07 11 (lineOff i.pc)
  let k ← i.check i.va 64 64 rRead
  match k.np with
  | some (oid, x) => pure { np := some (oid, x, i.va) }
  | none =>
    pure { res := [{ pos := 0, dest := .none, val := .load (.record 0xC9) none false, parts := recParts k.loc 64, hnd := k.hnd, ptr := i.va }]
           defs := [{ op := 0xC9, rd := i.o.d, va := i.va }] }

/-- The command of a QPUSH record, none where R206 traps 0x07 with sub-code 11. -/
def qpushCmd (q : Nat) (l : List Byte) : Option Cmd :=
  let ctl := leAt l 0 8
  let op := ctl % 256
  if !isCommand op || cmdReg op != q || ctl / 2 ^ 25 != 0 || (l.drop 0x28).any (· != 0#8) then none
  else some
    { op := op, m := bits ctl 8 13, sreg := bits ctl 21 4
      vd := wordAt l 8, va := wordAt l 0x10, vb := wordAt l 0x18, vc := wordAt l 0x20 }

/-- The command of a QPUSH record as it would issue (R206). -/
def Iss.qpush (i : Iss) (q : Nat) (l : List Byte) : Try Out :=
  match qpushCmd q l with
  | none => trap 0x07 11 (lineOff i.pc)
  | some k =>
    if badForm k.op .t4 { i.o with d := 0, a := 0, b := 0, c := 0, m := k.m, la := false, lb := false, lc := false } then
      trap 0x07 0 (lineOff i.pc)
    else { i with op := k.op }.command k

/-- QPOP: the oldest completion of the thread that no earlier QPOP of its group takes; it leaves the register
at commit (R206). -/
def opQpop (i : Iss) : Try Out :=
  let q := i.o.a
  let taken (w : Comp) : Bool := i.x.grp.res.any fun r => r.op == 0xCA && r.ptr.toNat == q && r.seq == w.seq
  match (SMap.get [] q (i.s.core i.c).comps).find? fun w => w.thr == i.t && w.word.isSome && !taken w with
  | none => .error (.park 0x06)
  | some w =>
    .ok { res := [{ pos := 0, dest := gDest i.o.d, val := .val (w.word.getD 0), done := true, ptr := BitVec.ofNat 64 q, seq := w.seq }] }

/-- QSTAT (R206). -/
def opQstat (i : Iss) : Try Out :=
  let k := i.s.core i.c
  let q := i.o.a
  if q < 5 then longG i (BitVec.ofNat 64 ((SMap.get [] q k.q).length % 32))
  else
    let mine := (SMap.get [] q k.comps).filter fun w => w.thr == i.t
    longG i (BitVec.ofNat 64
      ((mine.filter fun w => w.word.isSome).length % 64 + (mine.filter fun w => w.word.isNone).length % 64 * 2 ^ 8))

/-! ### Status reads of rows D and E -/

/-- A context's image of the Trellis scratch of a cluster (R223). -/
def Trellis.image (k : Trellis) (x : Nat) : Image := SMap.get {} x k.img

/-- SPSTAT (R229). -/
def opSpstat (i : Iss) : Try Out :=
  let cl := i.s.clu (clusterOf i.c)
  let n := i.va.toNat
  if n = 0 then
    longG i (BitVec.ofNat 64 (((SMap.get [] 1 (i.s.core i.c).q).length + (cl.trel.win.filter fun w => w.e.core == i.c).length) % 32))
  else if n = 1 then longG i (BitVec.ofNat 64 (cl.trel.win.length % 64))
  else if 0x10000 ≤ n ∧ n < 0x12000 then
    let g := cl.trel.image i.x.ctx
    longG i (BitVec.ofNat 64 ((SMap.get 0#32 (n - 0x10000) g.val).toNat * 2 ^ 32 + b2n (SMap.get false (n - 0x10000) g.full)))
  else trap 0x07 0 (lineOff i.pc)

/-- The TAG of a Ladle command (R209). -/
def ladleTag (e : Eff) : Nat := bits e.m 6 7

/-- LCANCEL is a deferred effect (R233). -/
def opLcancel (i : Iss) : Try Out := .ok { defs := [{ op := 0xE2, va := i.va }] }

/-- LSTAT: the core's latest request with the tag (R233). -/
def opLstat (i : Iss) : Try Out :=
  let tag := i.va.toNat % 128
  let waits := (SMap.get [] 2 (i.s.core i.c).q).any fun e => ladleTag e == tag
  let held := ((i.s.clu (clusterOf i.c)).ladle.filter fun r => r.e.core == i.c && ladleTag r.e == tag).getLast?
  if waits then longG i (BitVec.ofNat 64 (2 ^ 60))
  else match held with
    | none => longG i 0
    | some r =>
      let k := match r.ended with | .running => 0 | .done => 8 | .err _ => 4 | .cancelled => 2
      longG i (BitVec.ofNat 64 ((k + 1) * 2 ^ 60 + r.prog % 2 ^ 41))

/-- NSTAT: the core's requests not yet ended and its unmatched posts (R236). -/
def opNstat (i : Iss) : Try Out :=
  let mine := (i.s.die (dieOf i.c)).net.filter fun r => r.e.core == i.c && !r.ended
  let waits := SMap.get [] 4 (i.s.core i.c).q
  let posts := (mine.filter fun r => r.op == 2 && !r.posted).length + (waits.filter fun e => e.op == 0xE9).length
  longG i (BitVec.ofNat 64 ((mine.length + waits.length) % 256 + posts % 256 * 2 ^ 8))

/-- SHLD_T2 (R211). -/
def execShldT2 (f : F2) (s : State) : Host.Outcome State Fault Refusal :=
  issue 0xC0 .t2 f.opnd opShld s

/-- SHLD_T4 (R211). -/
def execShldT4 (f : F4) (s : State) : Host.Outcome State Fault Refusal :=
  issue 0xC0 .t4 f.opnd opShld s

/-- SHST_T2 (R211). -/
def execShstT2 (f : F2) (s : State) : Host.Outcome State Fault Refusal :=
  issue 0xC1 .t2 f.opnd opShst s

/-- SHST_T4 (R211). -/
def execShstT4 (f : F4) (s : State) : Host.Outcome State Fault Refusal :=
  issue 0xC1 .t4 f.opnd opShst s

/-- SHSET (R211). -/
def execShset (f : F4) (s : State) : Host.Outcome State Fault Refusal :=
  issue 0xC2 .t4 f.opnd opShset s

/-- SHGET (R211). -/
def execShget (f : F4) (s : State) : Host.Outcome State Fault Refusal :=
  issue 0xC3 .t4 f.opnd opShget s

/-- TOWN_T2 (R214). -/
def execTownT2 (f : F2) (s : State) : Host.Outcome State Fault Refusal :=
  issue 0xC4 .t2 f.opnd opTown s

/-- TOWN_T4 (R214). -/
def execTownT4 (f : F4) (s : State) : Host.Outcome State Fault Refusal :=
  issue 0xC4 .t4 f.opnd opTown s

/-- TGIVE_T2 (R214). -/
def execTgiveT2 (f : F2) (s : State) : Host.Outcome State Fault Refusal :=
  issue 0xC5 .t2 f.opnd opTgive s

/-- TGIVE_T4 (R214). -/
def execTgiveT4 (f : F4) (s : State) : Host.Outcome State Fault Refusal :=
  issue 0xC5 .t4 f.opnd opTgive s

/-- TTAG (R214). -/
def execTtag (f : F4) (s : State) : Host.Outcome State Fault Refusal :=
  issue 0xC6 .t4 f.opnd opTtag s

/-- TTASK_T2 (R217). -/
def execTtaskT2 (f : F2) (s : State) : Host.Outcome State Fault Refusal :=
  issue 0xC7 .t2 f.opnd opCommand s

/-- TTASK_T4 (R217). -/
def execTtaskT4 (f : F4) (s : State) : Host.Outcome State Fault Refusal :=
  issue 0xC7 .t4 f.opnd opCommand s

/-- TQRY_T2 (R214). -/
def execTqryT2 (f : F2) (s : State) : Host.Outcome State Fault Refusal :=
  issue 0xC8 .t2 f.opnd opTqry s

/-- TQRY_T4 (R214). -/
def execTqryT4 (f : F4) (s : State) : Host.Outcome State Fault Refusal :=
  issue 0xC8 .t4 f.opnd opTqry s

/-- QPUSH_T2 (R206). -/
def execQpushT2 (f : F2) (s : State) : Host.Outcome State Fault Refusal :=
  issue 0xC9 .t2 f.opnd opQpush s

/-- QPUSH_T4 (R206). -/
def execQpushT4 (f : F4) (s : State) : Host.Outcome State Fault Refusal :=
  issue 0xC9 .t4 f.opnd opQpush s

/-- QPOP_T2 (R206). -/
def execQpopT2 (f : F2) (s : State) : Host.Outcome State Fault Refusal :=
  issue 0xCA .t2 f.opnd opQpop s

/-- QPOP_T4 (R206). -/
def execQpopT4 (f : F4) (s : State) : Host.Outcome State Fault Refusal :=
  issue 0xCA .t4 f.opnd opQpop s

/-- QSTAT_T2 (R206). -/
def execQstatT2 (f : F2) (s : State) : Host.Outcome State Fault Refusal :=
  issue 0xCB .t2 f.opnd opQstat s

/-- QSTAT_T4 (R206). -/
def execQstatT4 (f : F4) (s : State) : Host.Outcome State Fault Refusal :=
  issue 0xCB .t4 f.opnd opQstat s

/-- SPLD (R226). -/
def execSpld (f : F4) (s : State) : Host.Outcome State Fault Refusal :=
  issue 0xD0 .t4 f.opnd opCommand s

/-- SPST (R226). -/
def execSpst (f : F4) (s : State) : Host.Outcome State Fault Refusal :=
  issue 0xD1 .t4 f.opnd opCommand s

/-- SPUP_T0 (R227). -/
def execSpupT0 (f : F0) (s : State) : Host.Outcome State Fault Refusal :=
  issue 0xD2 .t0 f.opnd opCommand s

/-- SPUP_T4 (R227). -/
def execSpupT4 (f : F4) (s : State) : Host.Outcome State Fault Refusal :=
  issue 0xD2 .t4 f.opnd opCommand s

/-- SPDN_T0 (R228). -/
def execSpdnT0 (f : F0) (s : State) : Host.Outcome State Fault Refusal :=
  issue 0xD3 .t0 f.opnd opCommand s

/-- SPDN_T4 (R228). -/
def execSpdnT4 (f : F4) (s : State) : Host.Outcome State Fault Refusal :=
  issue 0xD3 .t4 f.opnd opCommand s

/-- SPMAX_T0 (R227). -/
def execSpmaxT0 (f : F0) (s : State) : Host.Outcome State Fault Refusal :=
  issue 0xD4 .t0 f.opnd opCommand s

/-- SPMAX_T4 (R227). -/
def execSpmaxT4 (f : F4) (s : State) : Host.Outcome State Fault Refusal :=
  issue 0xD4 .t4 f.opnd opCommand s

/-- SPCVT (R226). -/
def execSpcvt (f : F4) (s : State) : Host.Outcome State Fault Refusal :=
  issue 0xD5 .t4 f.opnd opCommand s

/-- SPCLR (R226). -/
def execSpclr (f : F4) (s : State) : Host.Outcome State Fault Refusal :=
  issue 0xD6 .t4 f.opnd opCommand s

/-- SPWLD (R226). -/
def execSpwld (f : F4) (s : State) : Host.Outcome State Fault Refusal :=
  issue 0xD7 .t4 f.opnd opCommand s

/-- SPGST (R226). -/
def execSpgst (f : F4) (s : State) : Host.Outcome State Fault Refusal :=
  issue 0xD8 .t4 f.opnd opCommand s

/-- SPSTAT_T2 (R229). -/
def execSpstatT2 (f : F2) (s : State) : Host.Outcome State Fault Refusal :=
  issue 0xD9 .t2 f.opnd opSpstat s

/-- SPSTAT_T4 (R229). -/
def execSpstatT4 (f : F4) (s : State) : Host.Outcome State Fault Refusal :=
  issue 0xD9 .t4 f.opnd opSpstat s

/-- LCOPY (R231). -/
def execLcopy (f : F4) (s : State) : Host.Outcome State Fault Refusal :=
  issue 0xE0 .t4 f.opnd opCommand s

/-- LFILL (R231). -/
def execLfill (f : F4) (s : State) : Host.Outcome State Fault Refusal :=
  issue 0xE1 .t4 f.opnd opCommand s

/-- LCANCEL_T2 (R233). -/
def execLcancelT2 (f : F2) (s : State) : Host.Outcome State Fault Refusal :=
  issue 0xE2 .t2 f.opnd opLcancel s

/-- LCANCEL_T4 (R233). -/
def execLcancelT4 (f : F4) (s : State) : Host.Outcome State Fault Refusal :=
  issue 0xE2 .t4 f.opnd opLcancel s

/-- LSTAT_T2 (R233). -/
def execLstatT2 (f : F2) (s : State) : Host.Outcome State Fault Refusal :=
  issue 0xE3 .t2 f.opnd opLstat s

/-- LSTAT_T4 (R233). -/
def execLstatT4 (f : F4) (s : State) : Host.Outcome State Fault Refusal :=
  issue 0xE3 .t4 f.opnd opLstat s

/-- PRRED (R234). -/
def execPrred (f : F4) (s : State) : Host.Outcome State Fault Refusal :=
  issue 0xE4 .t4 f.opnd opCommand s

/-- PRBC (R234). -/
def execPrbc (f : F4) (s : State) : Host.Outcome State Fault Refusal :=
  issue 0xE5 .t4 f.opnd opCommand s

/-- PRAR (R234). -/
def execPrar (f : F4) (s : State) : Host.Outcome State Fault Refusal :=
  issue 0xE6 .t4 f.opnd opCommand s

/-- PRAG (R234). -/
def execPrag (f : F4) (s : State) : Host.Outcome State Fault Refusal :=
  issue 0xE7 .t4 f.opnd opCommand s

/-- NSEND_T2 (R235). -/
def execNsendT2 (f : F2) (s : State) : Host.Outcome State Fault Refusal :=
  issue 0xE8 .t2 f.opnd opCommand s

/-- NSEND_T4 (R235). -/
def execNsendT4 (f : F4) (s : State) : Host.Outcome State Fault Refusal :=
  issue 0xE8 .t4 f.opnd opCommand s

/-- NPOST_T2 (R235). -/
def execNpostT2 (f : F2) (s : State) : Host.Outcome State Fault Refusal :=
  issue 0xE9 .t2 f.opnd opCommand s

/-- NPOST_T4 (R235). -/
def execNpostT4 (f : F4) (s : State) : Host.Outcome State Fault Refusal :=
  issue 0xE9 .t4 f.opnd opCommand s

/-- RWRITE_T2 (R235). -/
def execRwriteT2 (f : F2) (s : State) : Host.Outcome State Fault Refusal :=
  issue 0xEA .t2 f.opnd opCommand s

/-- RWRITE_T4 (R235). -/
def execRwriteT4 (f : F4) (s : State) : Host.Outcome State Fault Refusal :=
  issue 0xEA .t4 f.opnd opCommand s

/-- RREAD_T2 (R235). -/
def execRreadT2 (f : F2) (s : State) : Host.Outcome State Fault Refusal :=
  issue 0xEB .t2 f.opnd opCommand s

/-- RREAD_T4 (R235). -/
def execRreadT4 (f : F4) (s : State) : Host.Outcome State Fault Refusal :=
  issue 0xEB .t4 f.opnd opCommand s

/-- NSTAT_T0 (R236). -/
def execNstatT0 (f : F0) (s : State) : Host.Outcome State Fault Refusal :=
  issue 0xEF .t0 f.opnd opNstat s

/-- NSTAT_T4 (R236). -/
def execNstatT4 (f : F4) (s : State) : Host.Outcome State Fault Refusal :=
  issue 0xEF .t4 f.opnd opNstat s


/-! ### Dispatch into a queue register (R100, R204, R319) -/

/-- The lowest and highest handle-0 bytes that a command writes, if it writes handle 0 (R231, R319). -/
def cmdSpan (e : Eff) : Option (Nat × Nat) :=
  if e.op = 0xD1 ∨ e.op = 0xD8 then
    if fpHnd e.va ≠ 0 then none else some (fpOff e.va, fpOff e.va + 4 * e.vc.toNat - 1)
  else if e.op = 0xE0 ∨ e.op = 0xE1 then
    if fpHnd e.vd ≠ 0 ∨ e.vb = 0 then none
    else if bit e.m 4 then
      let step (j : Nat) : Int := ((k4Ext e.sh j : Int) - 1) * k4Dst e.sh j
      let lo := (List.range 4).foldl (fun a j => a + min 0 (step j)) (fpOff e.vd : Int)
      let hi := (List.range 4).foldl (fun a j => a + max 0 (step j)) (fpOff e.vd : Int) + k4Esz e.sh - 1
      some (lo.toNat, hi.toNat)
    else some (fpOff e.vd, fpOff e.vd + e.vb.toNat - 1)
  else none

/-- A context's image changed. -/
def State.modImg (s : State) (cl x : Nat) (f : Image → Image) : State :=
  s.modClu cl fun k => { k with trel := { k.trel with img := SMap.set {} x (f (k.trel.image x)) k.trel.img } }

/-- Value entries made empty (R226). -/
def Image.clear (g : Image) (es : List Nat) : Image := { g with full := es.foldl (fun f i => SMap.set false i false f) g.full }

/-- A command enters its queue register, with its completion slot, its scoreboard entry, and the entries it
empties (R204, R226, R319). -/
def State.cmdDispatch (s : State) (c t : Nat) (e : Eff) : Disp :=
  let k := s.core c
  let q := cmdReg e.op
  let r := compReg q
  let span := cmdSpan e
  if (SMap.get [] q k.q).length ≥ 16 then .stall s 0x0E
  else if e.n ∧ (SMap.get [] r k.comps).length ≥ 32 then .stall s 0x0E
  else if span.isSome ∧ k.scb.length ≥ 8 then .stall s 0x07
  else
    let s1 := s.modCore c fun p => { p with
      q := SMap.set [] q (SMap.get [] q p.q ++ [{ e with arr := s.cyc }]) p.q
      comps := if e.n then SMap.set [] r (SMap.get [] r p.comps ++ [{ thr := t, seq := e.seq, word := none }]) p.comps else p.comps
      scb := match span with | some (lo, hi) => p.scb ++ [{ lo := lo, hi := hi, thr := t, seq := e.seq }] | none => p.scb }
    let out := if e.op = 0xD2 ∨ e.op = 0xD4 then [spOut e.sh]
      else if e.op = 0xD6 ∧ !bit e.m 0 then (List.range e.vc.toNat).map (e.vb.toNat + ·)
      else []
    .done (if out.isEmpty then s1 else s1.modImg (clusterOf c) e.ctx fun g => g.clear out)

/-- The command at the head of a queue register leaves it for its engine; threads that waited for room at step 5
continue by COMMIT_STEP5_RESUME (R204). -/
def State.popCmd (s : State) (c q : Nat) : State :=
  s.modCore c fun k => { k with q := SMap.set [] q (SMap.get [] q k.q).tail k.q }

/-- The slots of a completion register with one of them filled: filled ones stand first, the oldest completion at the
head (R206). -/
def fillComp (l : List Comp) (thr seq : Nat) (w : Word) : List Comp :=
  let mine (p : Comp) : Bool := p.thr == thr && p.seq == seq && p.word.isNone
  let rest := l.filter fun p => !mine p
  (rest.filter fun p => p.word.isSome) ++ ((l.filter mine).map fun p => { p with word := some w }) ++ rest.filter fun p => p.word.isNone

/-- A completion word takes its reserved slot (R205). -/
def State.complete (s : State) (e : Eff) (eng id cause info : Nat) : State :=
  if !e.n then s
  else
    let r := compReg (cmdReg e.op)
    let w : Word := BitVec.ofNat 64 (eng * 2 ^ 61 + id % 2 ^ 13 * 2 ^ 48 + cause % 256 * 2 ^ 40 + info % 2 ^ 40)
    (s.modCore e.core fun k =>
      { k with comps := SMap.set [] r (fillComp (SMap.get [] r k.comps) e.thr e.seq w) k.comps }).wakeOn e.core 0x06

/-- Everything that a command of a thread waits for in its queue register has performed (R100); a Trellis command
does not wait for the core's earlier SPST and SPGST. -/
def State.cmdReady (s : State) (e : Eff) : Bool :=
  (s.thr e.core e.thr).cq.all (fun w => w.seq ≥ e.seq)
    && (s.pendingOf e.core e.thr).all fun w => w.seq ≥ e.seq || !writesLater w.op
      || (cmdReg e.op == 1 && (w.op == 0xD1 || w.op == 0xD8))

/-- The command at the head of a core's queue register is the one that its cluster's engine takes next: of the commands
that may perform, the first to arrive, and of one A-cycle that of the lowest core (R217, R226). -/
def State.takesNext (s : State) (c q : Nat) (e : Eff) : Bool :=
  (coresOf (clusterOf c)).all fun d =>
    match SMap.get [] q (s.core d).q with
    | [] => true
    | w :: _ => d == c || s.quiet d || !s.cmdReady w || decide (e.arr / 2 < w.arr / 2 ∨ (e.arr / 2 = w.arr / 2 ∧ c < d))

/-- An engine joins the view that a command carries: everything its thread has seen (R100), or had seen when it left for
another core. -/
def State.joinCmd (s : State) (a : Nat) (e : Eff) : State :=
  s.takeViews a (if e.views.isEmpty then [s.viewFrom (agThread e.core e.thr) 5] else e.views)

/-- The completion-counter step that a request owes when it ends; a zero pointer names no counter (R237). -/
def State.oweCounter (s : State) (a : Nat) (e : Eff) (ctr : Word) (cause : Nat) : State :=
  if ctr = 0 then s
  else { s with owed := s.owed ++ [{ ctr := ctr, ctx := e.ctx, core := e.core, thr := e.thr, cause := cause, head := e.head, agent := a }] }

end Sys2Proof.Machine
end

