-- ==== Sys2Proof/Machine/Tiles.lean ====
section
/-! DEFINITION. What an engine reads and writes in memory, completion barriers and counters (R173, R174, R237),
and the tile-task scheduler with the Vats and the Rake (R216 to R222, R322, R386). -/

namespace Sys2Proof.Machine

/-! ### An engine's accesses -/

/-- How a read by an engine went: its bytes, a wait for an extent or a refresh window, or uncorrectable data
(R314, R318, R398). -/
inductive Got where
  | bytes (s : State) (l : List Byte)
  | wait (s : State)
  | bad

/-- A read of a range by an engine, piece by piece; scrub-pending bytes are zero (R93, R320). -/
def State.engRead (s : State) (a l n : Nat) : Got :=
  let ps := pieces l n
  match ps.find? fun p => s.goneLoc p.1 with
  | some p => .wait (s.report (locId p.1) (locOff p.1 / 2 ^ 18) (standOf a).die)
  | none =>
    if ps.any fun p => s.inWindow p.1 then .wait s
    else if (locs l n).any s.bad.contains then .bad
    else
      let (s1, bs) := ps.foldl (fun (st, bs) (p, k) =>
        let (st1, b, _) := st.readFwd a [] (locs p k)
        (st1.heat a p false, bs ++ b)) (s, [])
      .bytes s1 bs

/-! ### Completion barriers and counters -/

/-- A completion barrier after one arrival; `err` is the code and the address of an arrival in error (R173,
R174, R218). Reserved bytes are written as zero (R4). -/
def cbStep (old : List Byte) (err : Option (Nat × Word)) : List Byte :=
  let exp := leAt old 0 4
  let arr := leAt old 4 4
  let code := leAt old 9 1
  let st := leAt old 8 1 % 4
  let st := if arr < exp then st else st % 2 + 2
  let first := err.isSome && code == 0
  let (c, f) := err.getD (0, 0)
  leBytes 4 exp ++ leBytes 4 (if arr < exp then arr + 1 else arr)
    ++ leBytes 1 (if err.isSome then st / 2 * 2 + 1 else st) ++ leBytes 1 (if first then c % 256 else code) ++ leBytes 6 0
    ++ (if first then lowBytes f 8 else (old.drop 0x10).take 8) ++ leBytes 8 0

/-- A completion counter after one report; `cause` is 0 for a success (R237). -/
def ccStep (old : List Byte) (cause : Nat) : List Byte :=
  let count := leAt old 0 6
  let errs := leAt old 6 1
  let last := leAt old 7 1
  if cause = 0 then leBytes 6 ((count + 1) % 2 ^ 48) ++ leBytes 1 errs ++ leBytes 1 last
  else leBytes 6 count ++ leBytes 1 (min 255 (errs + 1)) ++ leBytes 1 cause

/-- How a completion object stands to be reached: at a location, not yet present, not yet scrubbed (R320), or not at all,
with a cause. -/
inductive Reach where
  | at_ (loc : Nat)
  | absent (oid x : Nat)
  | hold
  | no (cause : Nat)

/-- The check of a completion barrier or counter at its step (R218, R317, R320, R413). -/
def State.reach (s : State) (c x : Nat) (p : Word) (n : Nat) : Reach :=
  match s.translate c x [] p n n rAtomic with
  | .error (cause, _) => .no cause
  | .ok k => match k.np with
    | some (oid, e) => .absent oid e
    | none => if k.ws.isSome then .no 0x22 else if k.z ≠ 0 then .hold else .at_ k.loc

/-- An arrival at a completion barrier by an engine: an atomic step with `.rel` at `.dom` (R104); none while the
step is not enabled. -/
def State.arriveCb (s : State) (a l : Nat) (err : Option (Nat × Word)) : Option State :=
  let ls := locs l 32
  if s.atomicReady a ls then
    some ((s.atomicStep a ls none (some 5) [] (some (cbStep (s.homeBytes ls) err))).1.heat a l true)
  else none

/-! ### The formats of a tile task (R216) -/

/-- Element formats of A, B and C, and the native block, of a path. -/
def vatPath (p : Nat) : Nat × Nat × Nat × Nat :=
  match p with
  | 0 => (12, 12, 12, 32)
  | 1 => (11, 11, 11, 32)
  | 2 => (9, 9, 11, 64)
  | 3 => (10, 10, 11, 64)
  | 4 => (16, 16, 11, 64)
  | _ => (14, 1, 5, 64)

/-- M, N and K. -/
def TTask.m (k : TTask) : Nat := k.at_ 4 2
def TTask.n (k : TTask) : Nat := k.at_ 6 2
def TTask.k (k : TTask) : Nat := k.at_ 8 4
/-- The tile of B and that of C. -/
def TTask.bTile (k : TTask) : Nat := k.at_ 0xD 1 % 64
def TTask.cTile (k : TTask) : Nat := k.at_ 0xE 1 % 64
/-- CBAR. -/
def TTask.cbar (k : TTask) : Word := wordAt k.bytes 0x20
/-- The bytes of a row of A. -/
def TTask.rowA (k : TTask) : Nat := if k.path = 5 then (k.k + 4) / 5 else k.k * fmtSize (vatPath k.path).1

/-- The checks of a record at acceptance (R217). -/
def TTask.good (k : TTask) (held : List TTask) : Bool :=
  let (_, fb, fc, blk) := vatPath k.path
  let rake := k.flag 2
  let preds := (List.range 4).map fun i => k.at_ (0x14 + 2 * i) 2
  k.at_ 0 1 == 1 && k.path ≤ 5 && k.at_ 2 1 < 64 && k.at_ 3 1 < 16 && k.at_ 0xF 1 == 0 && k.at_ 0x10 2 < 2 ^ 12
    && k.at_ 0x12 2 == 0 && k.at_ 0x1E 2 == 0 && (k.bytes.drop 0x28).all (· == 0#8)
    && (rake || k.at_ 0xC 1 < 64) && k.at_ 0xD 1 < 64 && k.at_ 0xE 1 < 64
    && k.m != 0 && k.n != 0 && k.k != 0 && k.m % blk == 0 && k.n % blk == 0 && k.k % 32 == 0
    && (rake || k.m * k.rowA ≤ 65536) && k.n * k.k * fmtSize fb ≤ 65536 && k.m * k.n * fmtSize fc ≤ 65536
    && 1 ≤ k.id && k.id ≤ 8191 && !(held.any fun j => !j.rejected && j.id == k.id)
    && !preds.contains k.id && !(rake && k.path == 5)

/-! ### The Rake (R221, R222) -/

/-- A field of a Rake descriptor: NB, H, W, C, KH, KW, SH, SW, DH, DW, PT, PL, OH, OW. -/
def rkNB (d : BitVec 512) : Nat := shBits d 32 16
def rkH (d : BitVec 512) : Nat := shBits d 48 16
def rkW (d : BitVec 512) : Nat := shBits d 64 16
def rkC (d : BitVec 512) : Nat := shBits d 80 16
def rkKH (d : BitVec 512) : Nat := shBits d 96 8
def rkKW (d : BitVec 512) : Nat := shBits d 104 8
def rkSH (d : BitVec 512) : Nat := shBits d 112 8
def rkSW (d : BitVec 512) : Nat := shBits d 120 8
def rkDH (d : BitVec 512) : Nat := shBits d 128 8
def rkDW (d : BitVec 512) : Nat := shBits d 136 8
def rkPT (d : BitVec 512) : Nat := shBits d 144 8
def rkPL (d : BitVec 512) : Nat := shBits d 152 8
def rkOH (d : BitVec 512) : Nat := shBits d 160 16
def rkOW (d : BitVec 512) : Nat := shBits d 176 16
def rkNT (d : BitVec 512) : Nat := shBits d 10 7
def rkTile0 (d : BitVec 512) : Nat := shBits d 4 6

/-- A Rake descriptor passes for elements of a size (R222). -/
def rakeGood (d : BitVec 512) (size : Nat) : Bool :=
  shBits d 0 4 == 2 && shBits d 192 320 == 0 && shBits d 17 15 == 0
    && [rkNB d, rkH d, rkW d, rkC d, rkKH d, rkKW d, rkSH d, rkSW d, rkDH d, rkDW d, rkOH d, rkOW d, rkNT d].all (· != 0)
    && rkTile0 d + rkNT d ≤ 64 && rkNB d * rkH d * rkW d * rkC d * size ≤ rkNT d * 65536

/-- The element of X at row m and column k of the virtual matrix, none for a zero (R221). -/
def rakeIndex (d : BitVec 512) (m k : Nat) : Option Nat :=
  let ow := m % rkOW d
  let oh := m / rkOW d % rkOH d
  let n := m / (rkOW d * rkOH d)
  let c := k % rkC d
  let kw := k / rkC d % rkKW d
  let kh := k / (rkC d * rkKW d)
  let h : Int := (oh * rkSH d + kh * rkDH d : Nat) - (rkPT d : Int)
  let w : Int := (ow * rkSW d + kw * rkDW d : Nat) - (rkPL d : Int)
  if n < rkNB d && kh < rkKH d && 0 ≤ h && h < rkH d && 0 ≤ w && w < rkW d then
    some (((n * rkH d + h.toNat) * rkW d + w.toNat) * rkC d + c)
  else none

/-! ### The Vat (R86, R218) -/

/-- A word of some bytes in an array. -/
def arrWord (a : Array Byte) (o n : Nat) : Nat :=
  (List.range n).foldr (fun i v => (a.getD (o + i) 0#8).toNat + 256 * v) 0

/-- The word of A at a row and column; a trit as its place in the byte's five for path 5 is read apart. -/
def TTask.aWord (k : TTask) (x : Array Byte) (m j : Nat) : Nat :=
  let sz := fmtSize (vatPath k.path).1
  if k.flag 2 then
    match rakeIndex k.rake m j with
    | some i => arrWord x (i * sz) sz
    | none => 0
  else arrWord x (m * k.rowA + j * sz) sz

/-- A zero of the Rake is the number zero in every format; other words are decoded (R221). -/
def TTask.aNum (k : TTask) (x : Array Byte) (m j : Nat) : Num :=
  if k.flag 2 && (rakeIndex k.rake m j).isNone then .zero false
  else (elemNum k.tab (vatPath k.path).1 (k.aWord x m j)).1

/-- The chunk products of an output element (R86). -/
def TTask.chunks (k : TTask) (x y : Array Byte) (m n : Nat) : List (List Num) :=
  let fb := (vatPath k.path).2.1
  let sz := fmtSize fb
  (List.range (k.k / 32)).map fun c => (List.range 32).map fun j =>
    (Num.mul (k.aNum x m (32 * c + j)) (elemNum k.tab fb (arrWord y ((n * k.k + 32 * c + j) * sz) sz)).1).1

/-- One element of C (R86). -/
def TTask.element (k : TTask) (x y z : Array Byte) (m n : Nat) : Nat :=
  let fc := (vatPath k.path).2.2.1
  let sz := fmtSize fc
  let old := if k.flag 0 then arrWord z ((m * k.n + n) * sz) sz else 0
  if k.path = 5 then
    let sum : Int := (List.range k.k).foldl (fun a j =>
      a + (tern (x.getD (m * k.rowA + j / 5) 0#8).toNat (j % 5)).1 * sgn 8 (y.getD (n * k.k + j) 0#8).toNat) 0
    wrap 32 (sgn 32 old + sum)
  else vatAcc (fmtOf fc) (k.path ≤ 1) (k.chunks x y m n) old

/-- The bytes of C. -/
def TTask.result (k : TTask) (x y z : List Byte) : List Byte :=
  let xa := x.toArray
  let ya := y.toArray
  let za := z.toArray
  let sz := fmtSize (vatPath k.path).2.2.1
  (List.range k.m).flatMap fun m => (List.range k.n).flatMap fun n => leBytes sz (k.element xa ya za m n)

/-- The location of a tile's bytes. -/
def tileLoc (cl n : Nat) : Nat := locTile cl (n * 65536)

/-! ### Acceptance, start and completion -/

/-- The predecessors that a task names and the scheduler holds (R218). -/
def TTask.predsIn (k : TTask) (held : List TTask) : List Nat :=
  ((List.range 4).map fun i => k.at_ (0x14 + 2 * i) 2).filter fun p => p != 0 && held.any fun j => !j.rejected && j.id == p

/-- The tiles of an ended task that engines hold for its context flip back, once no other task names them (R215, R322). -/
def Cluster.flipBack (q : Cluster) (t : TTask) : Cluster :=
  (t.tiles ++ t.lasts).dedup.foldl (fun r n =>
    let w := r.tile n
    let due := w.own == .eng t.e.ctx && (w.due || t.lasts.contains n)
    if due && !(r.sched.any fun j => j.tiles.contains n) then r.setTile n { w with due := false, own := .ctx t.e.ctx }
    else r.setTile n { w with due := w.due || due }) q

/-- TILE_TASK_ACCEPT: the scheduler takes the oldest command of its cores' q0, reads its record and keeps a copy; the
predecessors that it holds then are the ones that the task waits for (R217, R218; log entry 119). -/
def execTileTaskAccept (c : Nat) (s : State) : Host.Outcome State Fault Refusal :=
  let cl := clusterOf c
  let a := agVat cl
  match SMap.get [] 0 (s.core c).q with
  | [] => .next s
  | e :: _ =>
    let l := e.locs.headD 0
    let gone (st : State) (id cause : Nat) : State :=
      ((st.popCmd c 0).notify c 2 cause 1 e.thr e.head e.va e.ctx).complete e 0 id cause 0
    let lost (st : State) (id : Nat) : State := gone st id 0x64
    if (s.clu cl).sched.length ≥ 64 || !s.cmdReady e || !s.takesNext c 0 e || s.quiet c then .next s
    else if s.barredAt e.ctx (e.hnds.headD 0) l then .next (lost s 0)
    else
      match (s.joinCmd a e).engRead a l 128 with
      | .wait s1 => .next s1
      | .bad => .next (gone s 0 0xA0)
      | .bytes s1 bs =>
        let k : TTask := { e := e, bytes := bs, tab := [] }
        let k := { k with
          tab := if k.path = 4 then (s1.core c).dtab else []
          rake := (s1.core c).shape (k.at_ 3 1 % 16) }
        let s2 := s1.popCmd c 0
        if k.good (s2.clu cl).sched then
          .next (s2.modClu cl fun q => { q with sched := q.sched ++ [{ k with waits := k.predsIn q.sched }] })
        else
          match s2.reach c e.ctx k.cbar 32 with
          | .no _ => .next ((lost s1 k.id).modClu cl fun q => q.flipBack k)
          | _ => .next (s2.modClu cl fun q => { q with sched := q.sched ++ [{ k with fault := some (0x64, 0) }] })

/-- A task is ready: each predecessor has completed or was not held (R218). -/
def TTask.isReady (k : TTask) : Bool := k.waits.isEmpty

/-- A task once the task of an id has ended (R218). -/
def TTask.after (id : Nat) (k : TTask) : TTask := { k with waits := k.waits.filter (· != id) }

/-- The start checks of R218: the cause and FADDR of the first that fails. -/
def Cluster.startCheck (q : Cluster) (k : TTask) : Option (Nat × Word) :=
  let own (n : Nat) : Bool := (q.tile n).own == .eng k.e.ctx
  let tags := k.at_ 0x10 2
  let as := (sortNats k.aTiles).map fun n => (n, bits tags 0 4)
  let all := as ++ [(k.bTile, bits tags 4 4), (k.cTile, bits tags 8 4)]
  match k.tiles.find? fun n => !own n with
  | some n => some (0x60, tilePtr n)
  | none =>
    match (if k.flag 1 then none else all.find? fun p => (q.tile p.1).tag != p.2) with
    | some (n, _) => some (0x21, tilePtr n)
    | none =>
      if k.flag 2 && !rakeGood k.rake (fmtSize (vatPath k.path).1) then some (0x61, 0) else none

/-- A partition's tasks that run on a cluster's Vats. -/
def State.runningVats (s : State) (cl tag : Nat) : Nat :=
  ((s.clu cl).sched.filter fun k => k.vat != 0 && (s.core k.e.core).ptag == tag).length

/-- The promised queue, with a Vat share, that a task's launch came from (R299). -/
def State.promisedOf (s : State) (k : TTask) : Option Nat :=
  let q := (s.launch k.e.lid).queue
  if k.e.lid ≠ 0 ∧ (s.queue q).cls ≠ 0 ∧ (s.queue q).vats ≠ 0 then some q else none

/-- The tasks of a queue's launches that run, on every cluster. -/
def State.queueVats (s : State) (q : Nat) : Nat :=
  s.clus.foldl (fun a r => a + (r.2.sched.filter fun k => k.vat != 0 && k.e.lid != 0 && (s.launch k.e.lid).queue == q).length) 0

/-- A task whose queue is promised a Vat share has its share left (R300). -/
def State.inShare (s : State) (k : TTask) : Bool := (s.promisedOf k).all fun q => decide (s.queueVats q < (s.queue q).vats)

/-- The Vat that a task may not take: the one its block has diverged on twice (R386). -/
def TTask.barredVat (k : TTask) : Option Nat := (k.rinds.find? fun r => 2 ≤ r.2).map fun r => r.2 - 2

/-- TILE_TASK_START: a ready task starts on an idle Vat in service, the longest-held that may run first, a task with a
promised share before the others; one that fails a start check ends in that fault (R218, R300, R368). -/
def execTileTaskStart (cl k vat : Nat) (s : State) : Host.Outcome State Fault Refusal :=
  let q := s.clu cl
  let may (j : TTask) : Bool :=
    let tag := (s.core j.e.core).ptag
    j.vat == 0 && j.fault.isNone && !s.quiet j.e.core && j.isReady && (tag == 0 || s.runningVats cl tag < (s.part tag).vats)
      && s.inShare j && j.barredVat != some vat
  let first (j : TTask) : Bool := may j && (s.promisedOf j).isSome
  match q.sched[k]? with
  | none => .next s
  | some t =>
    if vat ≥ 2 || q.vatsOff.contains vat || (q.sched.any fun j => j.vat == vat + 1) || !may t
        || (if first t then (q.sched.take k).any first else (q.sched.take k).any may || q.sched.any first) then
      .next s
    else
      match q.startCheck t with
      | some f => .next (s.modClu cl fun r => { r with sched := r.sched.set k { t with fault := some f } })
      | none => .next (s.modClu cl fun r => { r with sched := r.sched.set k { t with vat := vat + 1 } })

/-- The scheduler without an ended task, for which no other waits any longer (R218). -/
def Cluster.dropTask (q : Cluster) (k : Nat) (t : TTask) : Cluster :=
  { q with sched := (q.sched.eraseIdx k).map fun j => if t.rejected then j else j.after t.id }

/-- A task ends: its tiles flip back, it arrives at CBAR and its completion word is placed (R103, R215, R218,
R220). None while the arrival is not enabled. -/
def State.endTile (s : State) (cl k : Nat) (t : TTask) (fault : Option (Nat × Word)) : Option State :=
  let a := agVat cl
  let s1 := s.modClu cl fun q => (q.dropTask k t).flipBack t
  let done (st : State) : State := st.complete t.e 0 t.id ((fault.map (·.1)).getD 0) 0
  let lost (st : State) : State :=
    done (st.notify t.e.core 2 0x64 (if t.rejected then 1 else 2) t.e.thr t.e.head (if t.rejected then t.e.va else t.cbar) t.e.ctx)
  if t.noBar then some (lost s1)
  else
    match s.reach t.e.core t.e.ctx t.cbar 32 with
    | .no _ => some (lost s1)
    | .absent .. => none
    | .hold => none
    | .at_ l => (s1.arriveCb a l fault).map done

/-- The Vat's unit name for a task that runs. -/
def vatUnit (cl : Nat) (t : TTask) : Nat := unitIn 2 cl (t.vat - 1)

/-- A divergence in block `b` of a task (R386): first on the same Vat; then on the other, once that is idle; then error
phase 0x30, as where the other is out of service (DESIGN CHOICE, log entry 142). `bits` are the words of unit and rind. -/
def State.vatRind (s : State) (cl k : Nat) (t : TTask) (b : Nat) (bits : List Word) : State :=
  let u := vatUnit cl t
  let s1 := s.rindEvent u t.e.ctx bits
  let put (st : State) (w : TTask) : State := st.modClu cl fun q => { q with sched := q.sched.set k w }
  match SMap.get 0 b t.rinds with
  | 0 => put (s1.bump u 16 1) { t with rinds := SMap.set 0 b 1 t.rinds }
  | 1 =>
    let s2 := (s1.bump u 48 1).modUnit u fun v => { v with due := true }
    if (s.clu cl).vatsOff.contains (2 - t.vat) then put s2 { t with fault := some (0x30, 0) }
    else put s2 { t with rinds := SMap.set 0 b (2 + (t.vat - 1)) t.rinds, vat := 0 }
  | _ => put (s1.bump u 16 1) { t with fault := some (0x30, 0) }

/-- A task that cannot end yet: an absent extent of its barrier is reported (R314). -/
def State.waitBar (s : State) (t : TTask) : State :=
  match s.reach t.e.core t.e.ctx t.cbar 32 with
  | .absent oid x => s.report oid x (dieOf t.e.core + 1)
  | _ => s

/-- The operands of a running task: A through the Rake or not, B, and C where it accumulates; none when they held
uncorrectable data (R221, R398). -/
def State.tileOperands (s : State) (cl : Nat) (t : TTask) : Option (State × List Byte × List Byte × List Byte) :=
  let a := agVat cl
  let (fa, fb, fc, _) := vatPath t.path
  let aGot := if t.flag 2 then
      s.engRead (agRake cl) (tileLoc cl (rkTile0 t.rake)) (rkNB t.rake * rkH t.rake * rkW t.rake * rkC t.rake * fmtSize fa)
    else s.engRead a (tileLoc cl (t.at_ 0xC 1 % 64)) (t.m * t.rowA)
  match aGot with
  | .bytes s1 x =>
    match s1.engRead a (tileLoc cl t.bTile) (t.n * t.k * fmtSize fb) with
    | .bytes s2 y =>
      match (if t.flag 0 then s2.engRead a (tileLoc cl t.cTile) (t.m * t.n * fmtSize fc) else .bytes s2 []) with
      | .bytes s3 z => some (s3, x, y, z)
      | _ => none
    | _ => none
  | _ => none

/-- Two magnitudes of an integer or ternary multiplier, whose exponent is the place of the leading one, diverge (R90). -/
def intDiverges (a b : Int) : Bool :=
  let far (x y : Nat) : Bool := decide (y + 1 < x) || decide (x + 1 < y)
  let place (v : Int) : Nat := if v = 0 then 0 else v.natAbs.log2 + 1
  let top (v : Int) : Nat := v.natAbs * 64 / 2 ^ v.natAbs.log2 % 64
  far (place a) (place b) || (a != 0 && b != 0 && (decide (a < 0) != decide (b < 0)))
    || (a != 0 && place a == place b && far (top a) (top b))

/-- The divergence that a rind's word makes in a task, as the block of C and the words of unit and rind (R90, R386): on the
ternary path of product `ix` / (M × N) of element `ix` mod (M × N); on the others of that element's sum after the first
`ix` / (M × N) + 1 chunks (log entry 107). -/
def TTask.diverged (k : TTask) (x y z : List Byte) (r : Rind) : Option (Nat × List Word) :=
  let size := k.m * k.n
  let m := r.ix % size / k.n
  let n := r.ix % k.n
  let i := r.ix / size
  let (_, _, fc, side) := vatPath k.path
  let block := m / side * 64 + n / side
  let sz := fmtSize fc
  if k.path = 5 then
    let v : Int := if i < k.k then (tern (x.getD (m * k.rowA + i / 5) 0#8).toNat (i % 5)).1 * sgn 8 (y.getD (n * k.k + i) 0#8).toNat else 0
    if intDiverges v r.word.toInt then some (block, [wordOf v, r.word]) else none
  else
    let old := if k.flag 0 then arrWord z.toArray ((m * k.n + n) * sz) sz else 0
    let v := vatAcc (fmtOf fc) (k.path ≤ 1) ((k.chunks x.toArray y.toArray m n).take (i + 1)) old
    if (fmtOf fc).diverges v r.word.toNat then some (block, [BitVec.ofNat 64 v, r.word]) else none

/-- Another task runs that writes the same tile C (R219). -/
def Cluster.rival (q : Cluster) (k : Nat) (t : TTask) : Bool :=
  ((List.range q.sched.length).zip q.sched).any fun (i, j) => i != k && j.vat != 0 && j.fault.isNone && j.cTile == t.cTile

/-- TILE_TASK_COMPLETE: a started task computes C and writes it, and every ended task arrives at its barrier
(R86, R218). While another task that writes the same C runs, it writes a free number of elements at a time, so that the
two mix element by element (R219). `rind` tells what the rind of one of its results formed (R90, R386). -/
def execTileTaskComplete (cl k : Nat) (rind : Option Rind) (s : State) : Host.Outcome State Fault Refusal :=
  match (s.clu cl).sched[k]? with
  | none => .next s
  | some t =>
    match t.fault with
    | some f => .next ((s.endTile cl k t (some f)).getD (s.waitBar t))
    | none =>
      if t.vat = 0 then .next s
      else match s.tileOperands cl t with
        | none => .next ((s.endTile cl k t (some (0xA0, 0))).getD (s.waitBar t))
        | some (s1, x, y, z) =>
          if let some (b, bits) := rind.bind (t.diverged x y z) then .next (s.vatRind cl k t b bits)
          else
            let sz := fmtSize (vatPath t.path).2.2.1
            let left := t.m * t.n - t.prog
            let (s2, n) := if (s.clu cl).rival k t then
                let (u, f) := s1.takeFree
                (u, (Config.free f).toNat % left + 1)
              else (s1, left)
            let out := ((t.result x y z).drop (t.prog * sz)).take (n * sz)
            let s3 := s2.writeRange (agVat cl) (tileLoc cl t.cTile + t.prog * sz) out []
            let ill := t.path = 5 ∧ x.any fun b => (ternDigits b.toNat).isNone
            let s4 := if ill then s3.modCore t.e.core fun q => { q with vxf := flInto q.vxf flILLC } else s3
            if n < left then
              .next (s4.modClu cl fun q => { q with sched := q.sched.set k { t with prog := t.prog + n } })
            else .next ((s4.endTile cl k t none).getD (s.waitBar t))

/-- TILE_ZERO_FILL_END: a freed tile holds zeros (R213, R214). -/
def execTileZeroFillEnd (cl tile : Nat) (s : State) : Host.Outcome State Fault Refusal :=
  let t := (s.clu cl).tile tile
  if t.filling then .next ((s.zeroRange (tileLoc cl tile) 65536).modClu cl fun q => q.setTile tile { t with filling := false })
  else .next s

end Sys2Proof.Machine
end

