-- ==== Sys2Proof/Machine/Trellis.lean ====
section
/-! DEFINITION. The Trellis: acceptance into its window, the start of a command, its evaluation and its
retirement, and the swap of scratch images (R89, R223 to R228, R327 to R330, R386). -/

namespace Sys2Proof.Machine

/-- The agent of a cluster's Trellis. -/
def agTrellis (cl : Nat) : Nat := agEngine cl 2

/-! ### Commands -/

/-- A command on the gradient scratch (R226). -/
def isGrad (e : Eff) : Bool :=
  e.op == 0xD3 || e.op == 0xD8 || ((e.op == 0xD0 || e.op == 0xD6) && bit e.m 0)

/-- A command that runs on a tree. -/
def onTree (e : Eff) : Bool := e.op == 0xD2 || e.op == 0xD3 || e.op == 0xD4

/-- The scratch entries of a range command. -/
def rangeOf (e : Eff) : List Nat := (List.range e.vc.toNat).map (e.vb.toNat + ·)

/-- The value entries that a command waits for (R226). -/
def needs (e : Eff) : List Nat :=
  if onTree e then (spLeaves e.sh).map (spLeaf e.sh) ++ ((spLeaves e.sh).map (spWgt e.sh)).filter (· != spOne)
  else if e.op = 0xD1 ∨ e.op = 0xD5 then rangeOf e
  else []

/-! ### Evaluation (R89, R227, R228) -/

/-- The value of a scratch word in a descriptor's format, with its flags (R327). -/
def spNum (f32 : Bool) (w : Nat) : Num × Nat := if f32 then (fmtF32.decode w, 0) else sp32Decode w
/-- One rounding into the format. -/
def spRound (f32 : Bool) (x : Num) : Nat × Nat := if f32 then fmtF32.round .rne x else sp32Of x

/-- The words of a subtree's leaves and weights as read: leaf words, then weight words, 4 bytes each. -/
structure SpIn where
  d : BitVec 512
  words : List Nat

/-- The value of leaf i. -/
def SpIn.leaf (p : SpIn) (i : Nat) : Num × Nat := spNum (spIsF32 p.d) (p.words.getD i 0)
/-- The weight of leaf i's edge. -/
def SpIn.weight (p : SpIn) (i : Nat) : Num × Nat :=
  if spWgt p.d i = spOne then (.ofInt 1, 0) else spNum (spIsF32 p.d) (p.words.getD (spLcnt p.d + i) 0)
/-- The operation of node j; a max pass turns sums into maxima. -/
def SpIn.op (p : SpIn) (mx : Bool) (j : Nat) : Nat := if mx && spNodeOp p.d j == 1 then 3 else spNodeOp p.d j
/-- The value of a child, of a leaf or a node evaluated before. -/
def SpIn.child (p : SpIn) (vs : List (Nat × Nat)) (x : Nat) : Num × Nat :=
  if x < 16 then p.leaf x else (spNum (spIsF32 p.d) (vs.getD (x - 16) (0, 0)).1)
/-- The weight of a child's edge. -/
def SpIn.edge (p : SpIn) (x : Nat) : Num × Nat := if x < 16 then p.weight x else (.ofInt 1, 0)

/-- The flags of reading a present leaf and its weight, which a node does whatever it makes of them (R327, R328). -/
def SpIn.readFlags (p : SpIn) (x : Nat) : Nat := if x < 16 ∧ spPresent p.d x then (p.leaf x).2 ||| (p.weight x).2 else 0

/-- A weighted child. -/
def SpIn.weighted (p : SpIn) (vs : List (Nat × Nat)) (x : Nat) : Num × Nat :=
  let (v, f) := p.child vs x
  let (w, g) := p.edge x
  let (r, h) := Num.mul w v
  (r, f ||| g ||| h)

/-- Node j from its children, as a word with its flags (R89). -/
def SpIn.node (p : SpIn) (mx : Bool) (vs : List (Nat × Nat)) (j : Nat) : Nat × Nat :=
  let (a, b) := nodeKids j
  let f32 := spIsF32 p.d
  let fin (r : Num × Nat) (f : Nat) : Nat × Nat :=
    let (w, g) := spRound f32 r.1
    (w, r.2 ||| f ||| g)
  match p.op mx j with
  | 0 =>
    let f := (p.child vs a).2
    (if a ≥ 16 then (vs.getD (a - 16) (0, 0)).1 else if flHas f flSPRZ then 0 else p.words.getD a 0, p.readFlags a ||| p.readFlags b)
  | 2 =>
    let (x, f) := p.child vs a
    let (y, g) := p.child vs b
    fin (Num.mul x y) (f ||| g ||| p.readFlags a ||| p.readFlags b)
  | 1 =>
    let (x, f) := p.weighted vs a
    let (y, g) := p.weighted vs b
    fin (Num.add .rne x y) (f ||| g)
  | _ =>
    let (x, f) := p.weighted vs a
    let (y, g) := p.weighted vs b
    fin (Num.pick true x y) (f ||| g)

/-- Every present node from node 0 upward: its word and flags (R227). -/
def SpIn.nodes (p : SpIn) (mx : Bool) : List (Nat × Nat) :=
  (List.range 15).foldl (fun vs j => vs ++ [if spPresent p.d (16 + j) then p.node mx vs j else (0, 0)]) []

/-- The parent node of a leaf or node. -/
def spParent (x : Nat) : Nat := if x < 16 then x / 2 else if x < 24 then 8 + (x - 16) / 2 else if x < 28 then 12 + (x - 24) / 2 else 14

/-- Whether the left child wins, or the right (R228). -/
def spWins (left : Bool) (a b : Num) : Bool :=
  if a.isNaN && b.isNaN then left
  else if a.isNaN then !left
  else if b.isNaN then left
  else if left then a.cmp b ≥ 0 else a.cmp b < 0

/-- part(edge) from child x, with and without the weight's own factor (R228). -/
def SpIn.part (p : SpIn) (mx : Bool) (vs : List (Nat × Nat)) (x : Nat) : Num × Num × Nat :=
  let j := spParent x
  let (a, b) := nodeKids j
  let left := x == a
  let (w, f) := p.edge x
  let zero := Num.zero false
  let one := Num.ofInt 1
  match p.op mx j with
  | 0 => if left then (one, one, 0) else (zero, zero, 0)
  | 1 => (w, one, f)
  | 2 =>
    let (v, g) := p.child vs (if left then b else a)
    (v, v, g)
  | _ =>
    let (u, g) := p.weighted vs a
    let (v, h) := p.weighted vs b
    if spWins left u v then (w, one, f ||| g ||| h) else (zero, zero, f ||| g ||| h)

/-- The chain of edges from a leaf up to node 14. -/
def spPath (i : Nat) : List Nat := [i, 16 + i / 2, 24 + i / 4, 28 + i / 8]

/-- The exact product of the derivative g of the output and the parts along the path of leaf i, with the weight's own
factor or without it (R228). -/
def SpIn.along (p : SpIn) (mx : Bool) (vs : List (Nat × Nat)) (g : Num) (own : Bool) (i : Nat) : Num × Nat :=
  (spPath i).foldl (fun (d, f) x =>
    let (u, v, h) := p.part mx vs x
    let (d1, f1) := Num.mul d (if own then u else v)
    (d1, f ||| f1 ||| h)) (g, 0)

/-- The exact derivative by leaf i. -/
def SpIn.deriv (p : SpIn) (mx : Bool) (vs : List (Nat × Nat)) (g : Num) (i : Nat) : Num × Nat := p.along mx vs g true i

/-- The exact derivative by the weight of leaf i. -/
def SpIn.derivW (p : SpIn) (mx : Bool) (vs : List (Nat × Nat)) (g : Num) (i : Nat) : Num × Nat :=
  let (d, f) := p.along mx vs g false i
  let (lv, fl) := p.leaf i
  let (dw, f2) := Num.mul d lv
  (dw, f ||| fl ||| f2)

/-- One addition into a gradient entry, with the first entry that saturated (R228, R227). -/
def gradAdd (f32 : Bool) (acc : SMap (BitVec 32) × Nat × Option Nat) (x : Nat) (d : Num) (f : Nat) :
    SMap (BitVec 32) × Nat × Option Nat :=
  let (g, fl, sat) := acc
  let (v, f1) := spNum f32 (SMap.get 0#32 x g).toNat
  let (r, f2) := Num.add .rne v d
  let (w, f3) := spRound f32 r
  (SMap.set 0#32 x (BitVec.ofNat 32 w) g, fl ||| f ||| f1 ||| f2 ||| f3,
    if sat.isNone && flHas f3 flSPOV then some x else sat)

/-- SPDN over a subtree: the gradient scratch after it, its flags and the entry that saturated first; a node value that
saturates where no entry does stands under OUT (R227, R228; log entry 120). -/
def SpIn.down (p : SpIn) (mx w : Bool) (g : SMap (BitVec 32)) : SMap (BitVec 32) × Nat × Option Nat :=
  let f32 := spIsF32 p.d
  let vs := p.nodes mx
  let (gv, f0) := spNum f32 (SMap.get 0#32 (spOut p.d) g).toNat
  let fn := vs.foldl (fun a v => a ||| v.2) f0
  let (h, fl, sat) := (spLeaves p.d).foldl (fun acc i =>
    let (d, f) := p.deriv mx vs gv i
    let acc := gradAdd f32 acc (spLeaf p.d i) d f
    if w && spWgt p.d i != spOne then
      let (dw, fw) := p.derivW mx vs gv i
      gradAdd f32 acc (spWgt p.d i) dw fw
    else acc) (g, fn, none)
  (h, fl, if sat.isNone && flHas fn flSPOV then some (spOut p.d) else sat)

/-- Words written one after another with a conversion each: the scratch values, flags and the first entry that
saturated (R226, R227). -/
def convWords (f : Nat → Nat × Nat) (es : List Nat) (ws : List Nat) : List (Nat × Nat) × Nat × Option Nat :=
  (es.zip ws).foldl (fun (out, fl, sat) (e, w) =>
    let (v, g) := f w
    (out ++ [(e, v)], fl ||| g, if sat.isNone && flHas g flSPOV then some e else sat)) ([], 0, none)

/-- The format codes of SRC and TGT of SPWLD (R226). -/
def spSrc (m : Nat) : Nat := match bits m 0 2 with | 0 => 11 | 1 => 12 | _ => 13
def spTgt (m : Nat) : Nat := if bit m 2 then 11 else 13

/-! ### Acceptance (R226) -/

/-- A command's late fault and end without effect, where a revocation refuses its memory access. -/
def State.trellisLate (s : State) (e : Eff) (cause : Nat) (info : Word) : State :=
  ((s.lateFault e.core e.thr cause 0x0F e.head info).freeScb e.core e.thr e.seq).complete e 1 0 cause e.op

/-- TRELLIS_ACCEPT: the oldest command of a core's q1 enters the window; SPLD and SPWLD read memory (R226). -/
def execTrellisAccept (c : Nat) (s : State) : Host.Outcome State Fault Refusal :=
  let cl := clusterOf c
  let a := agTrellis cl
  match SMap.get [] 1 (s.core c).q with
  | [] => .next s
  | e :: _ =>
    let push (st : State) (bs : List Byte) : State :=
      (st.popCmd c 1).modClu cl fun q => { q with trel := { q.trel with win := q.trel.win ++ [{ e := e, mem := bs }] } }
    if (s.clu cl).trel.win.length ≥ 32 || !s.cmdReady e || !s.takesNext c 1 e || s.quiet c then .next s
    else if e.op = 0xD0 ∨ e.op = 0xD7 then
      let l := e.locs.headD 0
      if s.barredAt e.ctx (e.hnds.headD 0) l then .next ((s.popCmd c 1).trellisLate e 0x14 e.va)
      else
        match (s.joinCmd a e).engRead a l (e.vc.toNat * spElem e.op e.m) with
        | .wait s1 => .next s1
        | .bad => .next ((s.popCmd c 1).complete e 1 0 0xA0 e.op)
        | .bytes s1 bs => .next (push s1 bs)
    else .next (push (s.joinCmd a e) [])

/-! ### What a command does (R226) -/

/-- Value entries filled (R226). -/
def Image.fill (g : Image) (ws : List (Nat × Nat)) : Image :=
  ws.foldl (fun h w => { h with
    val := SMap.set 0#32 w.1 (BitVec.ofNat 32 w.2) h.val
    full := SMap.set false w.1 true h.full }) g

/-- Gradient entries written. -/
def Image.setGrad (g : Image) (ws : List (Nat × Nat)) : Image :=
  { g with grad := ws.foldl (fun h w => SMap.set 0#32 w.1 (BitVec.ofNat 32 w.2) h) g.grad }

/-- The effect of a command on its image: the image, its flags, and the entry that saturated first. -/
def TCmd.effect (w : TCmd) (g : Image) : Image × Nat × Option Nat :=
  let e := w.e
  let ws := wordsOf 4 w.mem
  let p : SpIn := { d := e.sh, words := ws }
  match e.op with
  | 0xD2 | 0xD4 =>
    let vs := p.nodes (e.op == 0xD4)
    let fl := vs.foldl (fun a v => a ||| v.2) 0
    let sat := vs.any fun v => flHas v.2 flSPOV
    (g.fill [(spOut e.sh, (vs.getD 14 (0, 0)).1)], fl, if sat then some (spOut e.sh) else none)
  | 0xD3 =>
    let (h, fl, sat) := p.down (bit e.m 1) (bit e.m 2) g.grad
    ({ g with grad := h }, fl, sat)
  | 0xD0 => if bit e.m 0 then (g.setGrad ((rangeOf e).zip ws), 0, none) else (g.fill ((rangeOf e).zip ws), 0, none)
  | 0xD7 =>
    let conv (x : Nat) : Nat × Nat :=
      let (v, f) := elemNum [] (spSrc e.m) x
      let (r, h) := numTo [] (spTgt e.m) .rne v
      (r, f ||| h)
    let (out, fl, sat) := convWords conv (rangeOf e) (wordsOf (spElem e.op e.m) w.mem)
    (g.fill out, fl, sat)
  | 0xD5 =>
    let (src, dst) := if bit e.m 0 then (13, 11) else (11, 13)
    let conv (x : Nat) : Nat × Nat :=
      let (v, f) := elemNum [] src x
      let (r, h) := numTo [] dst .rne v
      (r, f ||| h)
    let (out, fl, sat) := convWords conv (rangeOf e) ws
    ({ g with val := out.foldl (fun h v => SMap.set 0#32 v.1 (BitVec.ofNat 32 v.2) h) g.val }, fl, sat)
  | 0xD6 => if bit e.m 0 then (g.setGrad ((rangeOf e).map fun i => (i, 0)), 0, none) else (g, 0, none)
  | _ => (g, 0, none)

/-! ### Start (R226, R227) -/

/-- The words of some value entries. -/
def Image.words (g : Image) (es : List Nat) : List Byte := es.flatMap fun i => leBytes 4 (SMap.get 0#32 i g.val).toNat

/-- The words that a subtree reads: of its leaves, then of its weights. -/
def Image.subtree (g : Image) (d : BitVec 512) : List Byte :=
  g.words ((spLeaves d).map (spLeaf d)) ++ g.words ((spLeaves d).map (spWgt d))

/-- Trees of a cluster that run commands of a partition. -/
def State.runningTrees (s : State) (cl tag : Nat) : Nat :=
  ((s.clu cl).trel.win.filter fun k => k.tree != 0 && (s.core k.e.core).ptag == tag).length

/-- A command of the window replaced. -/
def State.setCmd (s : State) (cl k : Nat) (w : TCmd) : State :=
  s.modClu cl fun q => { q with trel := { q.trel with win := q.trel.win.set k w } }

/-- A command that fills value entries, each full as its word is written (R226, R329). -/
def TCmd.fills (w : TCmd) : Bool := (w.e.op == 0xD0 && !bit w.e.m 0) || w.e.op == 0xD7

/-- Value entries of a context's image filled: every SPDN that has started and not retired may read them (R329). -/
def State.fillNow (s : State) (cl x : Nat) (ws : List (Nat × Nat)) : State :=
  (s.modImg cl x fun g => g.fill ws).modClu cl fun q => { q with trel := { q.trel with
    win := q.trel.win.map fun v => if v.started && v.e.op == 0xD3 && v.e.ctx == x then { v with had := v.had ++ ws } else v } }

/-- A context's image after a conversion in place, which a started SPDN may read as it reads a fill (R329). -/
def State.convNow (s : State) (cl x : Nat) (g : Image) (ws : List (Nat × Nat)) : State :=
  (s.modImg cl x fun _ => g).modClu cl fun q => { q with trel := { q.trel with
    win := q.trel.win.map fun v => if v.started && v.e.op == 0xD3 && v.e.ctx == x then { v with had := v.had ++ ws } else v } }

/-- TRELLIS_COMMAND_START: a command of the held image whose entries are full starts, on a free tree if it needs
one; gradient operations go in acceptance order (R223, R226, R368). A started SPLD or SPWLD writes its next word but the
last (R329), and a command that has diverged twice on a tree takes another (R386). -/
def execTrellisCommandStart (cl k tree : Nat) (s : State) : Host.Outcome State Fault Refusal :=
  let t := (s.clu cl).trel
  match t.win[k]? with
  | none => .next s
  | some w =>
    let e := w.e
    let g := t.image e.ctx
    let tag := (s.core e.core).ptag
    let order := !isGrad e || !((t.win.take k).any fun v => isGrad v.e)
    let free := tree < 4 && !(s.clu cl).treesOff.contains tree && !(t.win.any fun v => v.tree == tree + 1)
      && (tag == 0 || s.runningTrees cl tag < (s.part tag).trees)
    if w.started ∧ onTree e ∧ w.tree = 0 then
      .next (if free && tree + 2 != w.rinds && !s.quiet e.core then s.setCmd cl k { w with tree := tree + 1 } else s)
    else if w.started && w.fills && w.prog + 1 < e.vc.toNat then
      let out := (w.effect g).1
      let i := e.vb.toNat + w.prog
      .next ((s.setCmd cl k { w with prog := w.prog + 1 }).fillNow cl e.ctx [(i, (SMap.get 0#32 i out.val).toNat)])
    else if w.started || s.quiet e.core || t.held != e.ctx + 1 || !order || !((needs e).all fun i => SMap.get false i g.full) || (onTree e && !free) then
      .next s
    else
      let mem :=
        if onTree e then g.subtree e.sh
        else if e.op = 0xD1 ∨ e.op = 0xD5 then g.words (rangeOf e)
        else if e.op = 0xD8 then (rangeOf e).flatMap fun i => leBytes 4 (SMap.get 0#32 i g.grad).toNat
        else w.mem
      .next (s.setCmd cl k { w with started := true, tree := if onTree e then tree + 1 else 0, mem := mem })

/-! ### Retirement (R226, R227, R386) -/

/-- The words that SPDN reads: of each it may take any that stood from the end of its wait until it retires (R329); `f`
numbers the free values that choose. -/
def TCmd.reread (w : TCmd) (g : Image) (f : Nat) : TCmd :=
  let es := (spLeaves w.e.sh).map (spLeaf w.e.sh) ++ (spLeaves w.e.sh).map (spWgt w.e.sh)
  let now := wordsOf 4 (g.subtree w.e.sh)
  let ws := wordsOf 4 w.mem
  { w with mem := (List.range ws.length).flatMap fun i =>
    let all := ws.getD i 0 :: ((w.had.filter fun h => h.1 == es.getD i 0).map (·.2) ++ [now.getD i 0])
    leBytes 4 (all.getD ((Config.free (f + i)).toNat % all.length) 0) }

/-- A word of a subtree diverges from its rind's: an SP32 word has an exponent of 12 bits above a fraction of 20 (R81, R90). -/
def spDiverges (f32 : Bool) (v r : Nat) : Bool :=
  let far (a b : Nat) : Bool := decide (b + 1 < a) || decide (a + 1 < b)
  if f32 then fmtF32.diverges v r
  else decide (7 ≤ v / 2 ^ 20) && (far (v / 2 ^ 20) (r / 2 ^ 20) || (v / 2 ^ 20 == r / 2 ^ 20 && far (v / 2 ^ 14 % 64) (r / 2 ^ 14 % 64)))

/-- The words of a result of the command and of its rind, where they diverge: result `ix` is node `ix`, unless that is a
pass-left, and from 15 on a gradient that SPDN adds into (R90). -/
def TCmd.diverged (w : TCmd) (g : Image) (r : Rind) : Option (List Word) :=
  let e := w.e
  let p : SpIn := { d := e.sh, words := wordsOf 4 w.mem }
  let mx := e.op == 0xD4 || (e.op == 0xD3 && bit e.m 1)
  let v := if r.ix < 15 then
      if spPresent e.sh (16 + r.ix) && p.op mx r.ix != 0 then some ((p.nodes mx).getD r.ix (0, 0)).1 else none
    else if e.op = 0xD3 ∧ (spLeaves e.sh).contains (r.ix - 15) then
      some (SMap.get 0#32 (spLeaf e.sh (r.ix - 15)) (w.effect g).1.grad).toNat
    else none
  match v with
  | some v => if onTree e && spDiverges (spIsF32 e.sh) v r.word.toNat then some [BitVec.ofNat 64 v, r.word] else none
  | none => none

/-- The unit name of a tree that runs a command. -/
def treeUnit (cl : Nat) (w : TCmd) : Nat := unitIn 3 cl (w.tree - 1)

/-- The window without a command. -/
def State.dropCmd (s : State) (cl k : Nat) : State :=
  s.modClu cl fun q => { q with trel := { q.trel with win := q.trel.win.eraseIdx k } }

/-- A divergence in a command on a tree (R386): first on the same tree; then on another, once one is idle; then a late
fault, as where no other is in service (DESIGN CHOICE, log entry 142). -/
def State.treeRind (s : State) (cl k : Nat) (w : TCmd) (bits : List Word) : State :=
  let u := treeUnit cl w
  let s1 := s.rindEvent u w.e.ctx bits
  let fail (st : State) : State := (st.dropCmd cl k).trellisLate w.e 0x30 (BitVec.ofNat 64 (spOut w.e.sh))
  match w.rinds with
  | 0 => (s1.bump u 16 1).setCmd cl k { w with rinds := 1 }
  | 1 =>
    let s2 := (s1.bump u 48 1).modUnit u fun v => { v with due := true }
    if (List.range 4).all fun i => i + 1 == w.tree || (s.clu cl).treesOff.contains i then fail s2
    else s2.setCmd cl k { w with rinds := w.tree + 1, tree := 0 }
  | _ => fail (s1.bump u 16 1)

/-- TRELLIS_COMMAND_RETIRE: a started command fills its entries or writes memory, ORs its flags into VXF and
retires (R226, R227); `rind` tells what the rind of one of its results formed (R386). -/
def execTrellisCommandRetire (cl k : Nat) (rind : Option Rind) (s : State) : Host.Outcome State Fault Refusal :=
  match (s.clu cl).trel.win[k]? with
  | none => .next s
  | some w =>
    let e := w.e
    let t := e.thr
    if !w.started || (onTree e && w.tree == 0) then .next s
    else if let some bits := rind.bind (w.diverged ((s.clu cl).trel.image e.ctx)) then .next (s.treeRind cl k w bits)
    else if e.op = 0xD1 ∨ e.op = 0xD8 then
      let l := e.locs.headD 0
      if s.barredAt e.ctx (e.hnds.headD 0) l then .next ((s.dropCmd cl k).trellisLate e 0x14 e.va)
      else if s.goneLoc l || !s.writeMay e.core t e.seq (locs l w.mem.length) false then .next s
      else
        let s1 := s.writeAt (agThread e.core t) l w.mem (s.thr e.core t).rel
        .next (((s1.dropCmd cl k).freeScb e.core t e.seq).complete e 1 0 0 e.op)
    else
      let g0 := (s.clu cl).trel.image e.ctx
      let (s0, w1) := if e.op = 0xD3 ∧ (g0.subtree e.sh ≠ w.mem ∨ w.had ≠ []) then
          (({ s with free := s.free + 32 } : State), w.reread g0 s.free)
        else (s, w)
      let (g, fl, sat) := w1.effect g0
      let rest := (rangeOf e).drop w.prog
      let filled : State :=
        if w.fills then s0.fillNow cl e.ctx (rest.map fun i => (i, (SMap.get 0#32 i g.val).toNat))
        else if e.op = 0xD2 ∨ e.op = 0xD4 then s0.fillNow cl e.ctx [(spOut e.sh, (SMap.get 0#32 (spOut e.sh) g.val).toNat)]
        else if e.op = 0xD5 then s0.convNow cl e.ctx g ((rangeOf e).map fun i => (i, (SMap.get 0#32 i g.val).toNat))
        else s0.modImg cl e.ctx fun _ => g
      let s1 := (filled.dropCmd cl k).modCore e.core fun q => { q with vxf := flInto q.vxf fl }
      let trapped := sat.isSome && flHas (s.core e.core).vxe.toNat flSPOV
      let s2 := if trapped then s1.lateFault e.core t 0x33 0x0F e.head (BitVec.ofNat 64 (sat.getD 0)) else s1
      .next (s2.complete e 1 0 (if trapped then 0x33 else 0) e.op)

/-- TRELLIS_IMAGE_SWAP: another context's image takes the place of the held one, once no command of the held
image's context runs (R223). -/
def execTrellisImageSwap (cl x : Nat) (s : State) : Host.Outcome State Fault Refusal :=
  let t := (s.clu cl).trel
  if t.held != x + 1 && !(t.win.any fun w => w.tree != 0) && t.win.any fun w => w.e.ctx == x then
    .next (s.modClu cl fun q => { q with trel := { q.trel with held := x + 1 } })
  else .next s

end Sys2Proof.Machine
end

