-- ==== Sys2Proof/Machine/Movers.lean ====
section
/-! DEFINITION. The Ladle (R230 to R233, R321, R324), the Press (R88, R234), and the completion-counter step that
every engine owes (R104, R237, R413). -/

namespace Sys2Proof.Machine

/-! ### The Ladle -/

/-- The agent of a cluster's Ladle. -/
def agLadle (cl : Nat) : Nat := agEngine cl 3

/-- A request is still held by the Ladle. -/
def LReq.runs (r : LReq) : Bool := r.ended == .running

/-- LADLE_REQUEST_ACCEPT: the oldest command of a core's q2 joins the requests of its cluster, at most 16 (R232).
An ended request of the same core and tag is forgotten (R233). -/
def execLadleRequestAccept (c : Nat) (s : State) : Host.Outcome State Fault Refusal :=
  let cl := clusterOf c
  match SMap.get [] 2 (s.core c).q with
  | [] => .next s
  | e :: _ =>
    if ((s.clu cl).ladle.filter LReq.runs).length ≥ 16 || !s.cmdReady e || s.quiet c then .next s
    else
      let s1 := (s.joinCmd (agLadle cl) e).popCmd c 2
      .next (s1.modClu cl fun q => { q with
        ladle := (q.ladle.filter fun r => r.runs || !(r.e.core == c && ladleTag r.e == ladleTag e))
          ++ [{ id := q.ladleNext, e := e, total := e.vb.toNat, accepted := true }]
        ladleNext := q.ladleNext + 1 })

/-- The end of a request (R205, R232, R233, R237). -/
def State.endLadle (s : State) (cl : Nat) (r : LReq) (k : EndKind) (info : Word) : State :=
  let e := r.e
  let cause := match k with | .err c => c | .cancelled => 0x66 | _ => 0
  let s1 := s.modClu cl fun q => { q with ladle := q.ladle.map fun w => if w.id = r.id then { r with ended := k } else w }
  let s2 := match k with
    | .err c => s1.notify e.core 2 0x63 c e.thr e.head info e.ctx
    | _ => s1
  ((s2.freeScb e.core e.thr e.seq).complete e 2 (ladleTag e) cause r.prog).oweCounter (agLadle cl) e e.vc cause

/-- LCANCEL at step 5: the core's latest request with the tag ends at its next chunk boundary, or at once if it has
not started (R233). -/
def State.ladleCancel (s : State) (c tag : Nat) : State :=
  let cl := clusterOf c
  let qs := SMap.get [] 2 (s.core c).q
  match (qs.filter fun e => ladleTag e == tag).getLast? with
  | some e =>
    let r : LReq := { id := (s.clu cl).ladleNext, e := e, total := e.vb.toNat }
    let s1 := s.modCore c fun k => { k with q := SMap.set [] 2 (qs.filter fun w => w.seq != e.seq || w.thr != e.thr) k.q }
    (s1.modClu cl fun q => { q with ladle := q.ladle ++ [r], ladleNext := q.ladleNext + 1 }).endLadle cl r .cancelled 0
  | none =>
    match ((s.clu cl).ladle.filter fun r => r.e.core == c && ladleTag r.e == tag).getLast? with
    | none => s
    | some r =>
      if !r.runs then s
      else if r.prog = 0 then s.endLadle cl r .cancelled 0
      else s.modClu cl fun q => { q with ladle := q.ladle.map fun w => if w.id = r.id then { w with cancel := true } else w }

/-- The parts of a chunk in transfer order: source and destination offset from the pointers, place in the transfer
and length; a strided transfer moves i0 fastest (R230). -/
def ladleParts (e : Eff) (prog n : Nat) : List (Int × Int × Nat × Nat) :=
  if bit e.m 4 then
    let d := e.sh
    let esz := k4Esz d
    let first := prog / esz
    let last := (prog + n - 1) / esz
    ((List.range (last + 1 - first)).map (first + ·)).map fun x =>
      let i0 := x % k4Ext d 0
      let i1 := x / k4Ext d 0 % k4Ext d 1
      let i2 := x / (k4Ext d 0 * k4Ext d 1) % k4Ext d 2
      let i3 := x / (k4Ext d 0 * k4Ext d 1 * k4Ext d 2)
      let lo := max prog (x * esz)
      let hi := min (prog + n) (x * esz + esz)
      let at_ (f : Nat → Int) : Int := i0 * f 0 + i1 * f 1 + i2 * f 2 + i3 * f 3 + (lo - x * esz : Nat)
      (at_ (k4Src d), at_ (k4Dst d), lo, hi - lo)
  else [((prog : Int), (prog : Int), prog, n)]

/-- A part cut at the 64 KiB lines of an offset, so that no piece spans two regions of handle 0 (R310). -/
def cut64 : Nat → Nat → Nat → List (Nat × Nat)
  | 0, _, _ => []
  | f + 1, o, n =>
    if n = 0 then []
    else
      let k := min n (65536 - o % 65536)
      (o, k) :: cut64 f (o + k) (n - k)

/-- A range that an engine has checked: its places in the transfer, or what stopped it (R8, R232). -/
inductive Chk where
  | ok (l : List (Nat × Nat))
  | fault (cause : Nat) (info : Word)
  | absent (oid x : Nat) (info : Word)
  | hold

/-- The check of one range of a request by every byte it touches: its locations in order (R140, R232, R317, R320). -/
def State.chkRange (s : State) (c x : Nat) (p : Word) (d : Int) (n : Nat) (write : Bool) : Chk :=
  match fpMove p d with
  | none => .fault 0x17 p
  | some q =>
    (cut64 (n / 65536 + 2) (fpOff q) n).foldl (fun acc (o, k) =>
      match acc with
      | .ok l =>
        let r := fpWith q o
        if o ≥ 2 ^ 42 then .fault 0x17 q
        else
          match s.translate c x [] r k 1 (if write then rWrite else rRead) with
          | .error (cause, _) =>
            .fault cause (if cause = 0x11 then fpWith q (max o (s.desc x (fpHnd q)).size) else faultPtr cause r)
          | .ok w =>
            match w.np with
            | some (oid, e) => .absent oid e (fpWith r (max o (e * 2 ^ 18)))
            | none =>
              match w.ws with
              | some at_ => if write then .fault 0x22 (fpWith r at_) else if s.inWindow w.loc then .hold else .ok (l ++ [(w.loc, k)])
              | none => if write && w.z != 0 then .hold
              else .ok (l ++ [(w.loc, k)])
      | z => z) (.ok [])

/-- A chunk once checked: the ranges it reads and those it writes. -/
inductive Chunk where
  | ok (rd wr : List (Nat × Nat))
  | fault (cause : Nat) (info : Word)
  | absent (oid x : Nat) (info : Word)
  | hold

/-- The bytes of the next chunk of a request. -/
def LReq.chunkLen (r : LReq) : Nat := min 65536 (r.total - r.prog)

/-- The checks of the next chunk (R232). -/
def State.chkChunk (s : State) (r : LReq) : Chunk :=
  let e := r.e
  (ladleParts e r.prog r.chunkLen).foldl (fun acc (so, d, _, n) =>
    match acc with
    | .ok rd wr =>
      let src := if e.op = 0xE0 then s.chkRange e.core e.ctx e.va so n false else .ok []
      match src with
      | .fault c i => .fault c i
      | .absent o x p => .absent o x p
      | .hold => .hold
      | .ok a =>
        match s.chkRange e.core e.ctx e.vd d n true with
        | .fault c i => .fault c i
        | .absent o x p => .absent o x p
        | .hold => .hold
        | .ok b => .ok (rd ++ a) (wr ++ b)
    | z => z) (.ok [] [])

/-- Reads by an engine of checked ranges; none when it consumed uncorrectable data (R398). -/
def State.readAll (s : State) (a : Nat) : List (Nat × Nat) → Option (State × List Byte)
  | [] => some (s, [])
  | (l, n) :: t =>
    match s.engRead a l n with
    | .bytes s1 bs => (State.readAll s1 a t).map fun (s2, r) => (s2, bs ++ r)
    | _ => none

/-- Writes by an engine of checked ranges. -/
def State.writeAll (s : State) (a : Nat) : List (Nat × Nat) → List Byte → State
  | [], _ => s
  | (l, n) :: t, bs =>
    let s1 := (s.writeAt a l (bs.take n) []).heat a l true
    State.writeAll s1 a t (bs.drop n)

/-- The bytes that LFILL writes (R231). -/
def fillBytes (p : Word) (o n : Nat) : List Byte :=
  let b := lowBytes p 8
  (List.range n).map fun i => b.getD ((o + i) % 8) 0#8

/-- The request, changed. -/
def State.modLadle (s : State) (cl : Nat) (r : LReq) : State :=
  s.modClu cl fun q => { q with ladle := q.ladle.map fun w => if w.id = r.id then r else w }

/-- The pointer, of the handle of `p`, to a checked location. -/
def ptrOf (p : Word) (l : Nat) : Word := fpWith p (if fpHnd p = 0 then offLocal l else locOff l)

/-- The pointer to the first uncorrectable byte of some checked ranges (R232, R287). -/
def State.badPtr (s : State) (p : Word) (rd : List (Nat × Nat)) : Word :=
  match (rd.flatMap fun r => locs r.1 r.2).find? s.bad.contains with
  | some l => ptrOf p l
  | none => p

/-- LADLE_CHUNK: a request checks, reads and writes its next chunk, saves its progress, and ends after its last one
(R232); the pieces of a chunk are one write to a fetch of a line that it wrote whole (R106). Its writes are kept for the
thread's SBWAIT (R321). -/
def execLadleChunk (cl k : Nat) (s : State) : Host.Outcome State Fault Refusal :=
  let a := agLadle cl
  match (s.clu cl).ladle[k]? with
  | none => .next s
  | some r =>
    if !r.runs || s.quiet r.e.core then .next s
    else if r.cancel then .next (s.endLadle cl r .cancelled 0)
    else if r.prog ≥ r.total then .next (s.endLadle cl r .done 0)
    else
      match s.chkChunk r with
      | .fault c i => .next (s.endLadle cl r (.err c) i)
      | .hold => .next s
      | .absent oid x _ => .next ((s.report oid x (dieOf r.e.core + 1)).modLadle cl { r with waiting := true })
      | .ok rd wr =>
        match s.readAll a rd with
        | none => .next (s.endLadle cl r (.err 0xA0) (s.badPtr r.e.va rd))
        | some (s1, bs) =>
          let bs := if r.e.op = 0xE0 then bs else fillBytes r.e.va r.prog r.chunkLen
          let from_ := s1.oom.nextId
          let s2 := (s1.writeAll a wr bs).asWhole (chunkWhole s1.oom.nextEv) s1.oom.nextEv
          let ids := (s2.oom.ws.filter fun w => w.id ≥ from_).map (·.id)
          let s3 := s2.modThr r.e.core r.e.thr fun x => { x with ladleIds := x.ladleIds ++ ids }
          let r1 := { r with prog := r.prog + r.chunkLen, waiting := false }
          if r1.prog ≥ r1.total then .next (s3.endLadle cl r1 .done 0) else .next (s3.modLadle cl r1)

/-! ### The Press (R88, R234) -/

/-- The agent of a die's Press. -/
def agPress (d : Nat) : Nat := agDie d 0

/-- The number of members of a Press group, and the ranks of those in other packages (R20). -/
def State.pressMembers (s : State) (grp : Nat) : Nat := match (s.obj grp).kind with | .press n _ => n | _ => 0
def State.pressAway (s : State) (grp : Nat) : List Nat :=
  match (s.obj grp).kind with | .press n l => (l.filter (· < n)).dedup | _ => []

/-- PRESS_COMMAND_ACCEPT: the oldest command of a core's q3; the Press reads the member's counter pointer, and the member
goes on to its next collective of the group, whichever of its cores issued (R234). -/
def execPressCommandAccept (c : Nat) (s : State) : Host.Outcome State Fault Refusal :=
  let d := dieOf c
  match SMap.get [] 3 (s.core c).q with
  | [] => .next s
  | e :: _ =>
    let l := e.locs.headD 0
    let grp := locId l
    let key := grp * 2 ^ 16 + e.rd
    if !s.cmdReady e || s.quiet c then .next s
    else
      let put (st : State) (cc : Word) : State :=
        ({ st with pressK := SMap.set 0 key (SMap.get 0 key s.pressK + 1) st.pressK } : State).popCmd c 3 |>.modDie d fun q => { q with
          press := q.press ++ [{ e := e, grp := grp, rank := e.rd, k := SMap.get 0 key s.pressK, cc := cc }] }
      match (s.joinCmd (agPress d) e).engRead (agPress d) (l + 8) 8 with
      | .wait s1 => .next s1
      | .bad => .next (((s.popCmd c 3).complete e 3 0 0xA0 0))
      | .bytes s1 bs => .next (put s1 (wordAt bs 0))

/-- The accepted members of one collective of a group in this package, in rank order. -/
def State.pressAll (s : State) (grp k : Nat) : List PMem :=
  let all := s.dies.flatMap fun r => r.2.press.filter fun m => m.grp == grp && m.k == k
  (List.range (s.pressMembers grp)).filterMap fun i => all.find? fun m => m.rank == i

/-- What must agree among the members: instruction, TYPE, OP, count and root (R234). -/
def PMem.shape (m : PMem) : Nat × Nat × Nat × Nat :=
  (m.e.op, m.e.m % 32, m.e.vb.toNat % 2 ^ 32, if m.e.op = 0xE4 ∨ m.e.op = 0xE5 then bits m.e.vb.toNat 32 16 else 0)

/-- Count and root. -/
def PMem.count (m : PMem) : Nat := m.e.vb.toNat % 2 ^ 32
def PMem.root (m : PMem) : Nat := bits m.e.vb.toNat 32 16

/-- The format code of TYPE. -/
def pressFmt (m : Nat) : Nat := match bits m 0 3 with | 0 => 11 | 1 => 12 | 2 => 10 | 3 => 5 | _ => 7

/-- The reduction of one element over the ranks (R88). -/
def pressReduce (f op : Nat) (xs : List Nat) : Nat :=
  let n := xs.length
  if fmtIsInt f then
    (treeT (fun a b =>
      let i := elemInt f a
      let j := elemInt f b
      (wrap (fmtBits f) (match op with | 0 => i + j | 1 => min i j | _ => max i j), 0)) 0 (n + 1) xs).1
  else if f = 10 ∧ op = 0 then
    let ws := xs.map fun x => (fmtF32.round .rne (fmtBF16.decode x)).1
    let r := (treeT (fun a b => fmtF32.op2 .rne (Num.add .rne (fmtF32.decode a) (fmtF32.decode b))) 0 (n + 1) ws).1
    (fmtBF16.round .rne (fmtF32.decode r)).1
  else
    let k := fmtOf f
    (treeT (fun a b =>
      match op with
      | 0 => k.op2 .rne (Num.add .rne (k.decode a) (k.decode b))
      | o => k.minmax (o == 2) a b) 0 (n + 1) xs).1

/-- A collective ends at every member (R205, R234, R237). -/
def State.endPress (s : State) (ms : List PMem) (cause : Nat) : State :=
  ms.foldl (fun st m =>
    let d := dieOf m.e.core
    let st1 := st.modDie d fun q => { q with press := q.press.filter fun w => !(w.grp == m.grp && w.rank == m.rank && w.k == m.k) }
    (st1.complete m.e 3 0 cause 0).oweCounter (agPress d) m.e m.cc cause) s

/-- A member reads its source in this collective. -/
def PMem.reads (m : PMem) : Bool := m.e.op != 0xE5 || m.rank == m.root
/-- A member's destination is written in this collective. -/
def PMem.writes (m : PMem) : Bool := m.e.op != 0xE4 || m.rank == m.root

/-- A check of ranges joined with one made before. -/
def Chk.then_ (a b : Chk) : Chk :=
  match a, b with
  | .ok x, .ok y => .ok (x ++ y)
  | .ok _, z => z
  | z, _ => z

/-- What a member in another package brings to a chunk (R20): free bytes. -/
def awayBytes (f rank n : Nat) : List Byte := (List.range n).map (Config.fileByte (102 * 2 ^ 16 + rank) f)

/-- The sources of a chunk in rank order: each member of this package reads its own, all before any write (R234). -/
def State.pressReads (s : State) (ms : List PMem) (m0 : PMem) (f n : Nat) (src : PMem → List (Nat × Nat)) (total : Nat) :
    Option (State × List (List Byte)) :=
  (List.range total).foldl (fun (acc : Option (State × List (List Byte))) i =>
    acc.bind fun (st, l) =>
      match ms.find? fun m => m.rank == i with
      | some m =>
        if m.reads then (st.readAll (agPress (dieOf m.e.core)) (src m)).map fun (st1, b) => (st1, l ++ [b])
        else some (st, l ++ [[]])
      | none => some (st, l ++ [if m0.e.op != 0xE5 || i == m0.root then awayBytes f i n else []])) (some (s, []))

/-- PRESS_CHUNK: once every member of the collective that member `k` of a die belongs to has been accepted, its
next chunk moves, or the collective ends: with 0x67 where the members differ, with a fault's cause where a chunk's
check fails (R234). A member in another package has been accepted when the package's turn comes; what it brings, and
whether it ends the collective, is free (log entry 117). -/
def execPressChunk (d k : Nat) (s : State) : Host.Outcome State Fault Refusal :=
  match (s.die d).press[k]? with
  | none => .next s
  | some m0 =>
    let ms := s.pressAll m0.grp m0.k
    let total := s.pressMembers m0.grp
    let away := s.pressAway m0.grp
    let f := pressFmt m0.e.m
    let sz := fmtSize f
    let n := min (65536 / sz) (m0.count - m0.prog)
    if ms.length + away.length ≠ total || ms.any (fun m => s.quiet m.e.core) then .next s
    else if ms.any fun m => m.shape != m0.shape then .next (s.endPress ms 0x67)
    else if n = 0 then .next (s.endPress ms 0)
    else
      let off := m0.prog * sz
      let src (m : PMem) : Chk := s.chkRange m.e.core m.e.ctx m.e.va off (n * sz) false
      let dsts (m : PMem) : Chk :=
        if m.e.op = 0xE7 then
          (List.range total).foldl (fun (acc : Chk) q =>
            acc.then_ (s.chkRange m.e.core m.e.ctx m.e.vd (q * m.count * sz + off : Nat) (n * sz) true)) (.ok [])
        else s.chkRange m.e.core m.e.ctx m.e.vd off (n * sz) true
      let all := ms.foldl (fun (acc : Chk) m =>
        (acc.then_ (if m.reads then src m else .ok [])).then_ (if m.writes then dsts m else .ok [])) (.ok [])
      match all with
      | .hold => .next s
      | .absent oid x _ => .next (s.report oid x (d + 1))
      | .fault c _ => .next (s.endPress ms c)
      | .ok _ =>
        let ranges (c : Chk) : List (Nat × Nat) := match c with | .ok l => l | _ => []
        let (s0, g) := if away.isEmpty then (s, 0) else s.takeFree
        let v := (Config.free g).toNat
        if !away.isEmpty && bit v 0 then .next (s0.endPress ms (bits v 8 8))
        else match s0.pressReads ms m0 g (n * sz) (fun m => ranges (src m)) total with
        | none => .next (s.endPress ms 0xA0)
        | some (s1, bs) =>
          let s1 := ms.foldl (fun st m => ms.foldl (fun st2 q =>
            st2.takeViews (agPress (dieOf m.e.core)) [st2.viewFrom (agPress (dieOf q.e.core)) 5]) st) s1
          let out : List Byte :=
            if m0.e.op = 0xE5 then bs.getD m0.root []
            else if m0.e.op = 0xE7 then bs.flatten
            else (List.range n).flatMap fun i =>
              leBytes sz (pressReduce f (bits m0.e.m 3 2) (bs.map fun b => leAt b (i * sz) sz))
          let s2 := ms.foldl (fun st m =>
            if m.writes then st.writeAll (agPress (dieOf m.e.core)) (ranges (dsts m)) out else st) s1
          let s3 := ms.foldl (fun st m => st.modDie (dieOf m.e.core) fun q => { q with
            press := q.press.map fun w => if w.grp = m.grp ∧ w.k = m.k ∧ w.rank = m.rank then { w with prog := w.prog + n } else w }) s2
          let after := s3.pressAll m0.grp m0.k
          if m0.prog + n ≥ m0.count then .next (s3.endPress after 0) else .next s3

/-! ### The completion-counter step (R237, R413) -/

/-- A counter step that cannot be taken is reported: 0x68 to the issuing core, or a record of /sys/time (R413). -/
def State.counterLost (s : State) (o : Owed) (cause : Nat) : State :=
  match o.queue with
  | none => s.notify o.core 2 0x68 cause o.thr o.head o.ctr o.ctx
  | some q => { s with times := s.times ++ [{ reason := 3, start := s.dtime, stop := (s.queue q).num, val := o.ctr.toNat }] }

/-- COMPLETION_COUNTER_STEP: the `k`-th step owed is taken by its agent at the counter's home (R104, R237); one that the
supervisor owes waits in its pause (R365). -/
def execCompletionCounterStep (k : Nat) (s : State) : Host.Outcome State Fault Refusal :=
  match s.owed[k]? with
  | none => .next s
  | some o =>
    let s0 : State := { s with owed := s.owed.eraseIdx k }
    if ((o.queue.isSome || o.agent == agHub 1) && s.dtime < s.pause) || o.after.any fun i => s.oom.ws.any fun w => w.id == i && !s.oom.settledAtHome w then
      .next s
    else
      match (if o.queue.isSome && fpHnd o.ctr == 0 then Reach.no 0x23 else s.reach o.core o.ctx o.ctr 8) with
      | .no cause => .next (s0.counterLost o cause)
      | .absent oid x => .next (s.report oid x (standOf o.agent).die)
      | .hold => .next s
      | .at_ l =>
        let ls := locs l 8
        if s.atomicReady o.agent ls then
          .next ((s0.atomicStep o.agent ls none (some 5) [] (some (ccStep (s.homeBytes ls) o.cause))).1.heat o.agent l true)
        else .next s

end Sys2Proof.Machine
end

