-- ==== Sys2Proof/Machine/Network.lean ====
section
/-! DEFINITION. The Network Engine (R235, R236, R325, R326, R335 to R338) and its delivery into a queue (R363). -/

namespace Sys2Proof.Machine

/-- The agent of a die's Network Engine. -/
def agNet (d : Nat) : Nat := agDie d 1

/-- The die and the context whose port an endpoint names in this package, if one does (R336). -/
def State.portOf (s : State) (ep : Word) : Option (Nat × Nat) :=
  (((List.range 8).flatMap fun d => (s.ctxs.filter fun r => r.2.alive).map fun r => (d, r.1))).find? fun p => portName p.1 p.2 == ep

/-- A packet of a request, by its index. -/
def NReq.pkt (r : NReq) (i : Nat) : PktSt := SMap.get {} i r.pkts
/-- A packet's state replaced. -/
def NReq.setPkt (r : NReq) (i : Nat) (p : PktSt) : NReq := { r with pkts := SMap.set {} i p r.pkts }
/-- The packets that are done. -/
def NReq.placed (r : NReq) : List Nat := (List.range r.total).filter fun i => (r.pkt i).done
/-- Every packet is done. -/
def NReq.allDone (r : NReq) : Bool := (List.range r.total).all fun i => (r.pkt i).done
/-- The bytes of packet `i` of a message. -/
def pktLen (len i : Nat) : Nat := min 2048 (len - i * 2048)
/-- The packets of a message (R236). -/
def pktCount (len : Nat) : Nat := (len + 2047) / 2048
/-- The bytes placed or sent (R205). -/
def NReq.bytes (r : NReq) : Nat := min r.len (r.placed.foldl (fun a i => a + pktLen r.len i) 0)

/-- A request of a die replaced. -/
def State.setReq (s : State) (d : Nat) (r : NReq) : State :=
  s.modDie d fun q => { q with net := q.net.map fun w => if w.id = r.id then r else w }

/-- A request ends: its completion word and its one counter step (R205, R236, R338); the sub-code of its cause stays with
its record. -/
def State.endReq (s : State) (d : Nat) (r : NReq) (cause : Nat) (sub : Nat := 0) : State :=
  (((s.setReq d { r with ended := true, cause := cause, sub := sub }).complete r.e 4 (r.tag.toNat % 2 ^ 13) cause r.bytes).oweCounter
    (agNet d) r.e r.cc cause)

/-- With FENCE a request starts after the core's earlier requests have ended (R235). -/
def State.netFree (s : State) (d : Nat) (r : NReq) : Bool :=
  !r.fence || (s.die d).net.all fun w => w.id ≥ r.id || w.ended || w.e.core != r.e.core

/-- NET_REQUEST_ACCEPT (R235): the oldest work request of a core's q4. -/
def execNetRequestAccept (c : Nat) (s : State) : Host.Outcome State Fault Refusal :=
  let d := dieOf c
  match SMap.get [] 4 (s.core c).q with
  | [] => .next s
  | e :: _ =>
    if !s.cmdReady e || s.quiet c then .next s
    else
      let l := e.data
      let op := e.op - 0xE7
      let s1 := (s.joinCmd (agNet d) e).popCmd c 4
      .next (s1.modDie d fun q => { q with
        net := q.net ++ [{
          id := q.netNext, e := e, op := op, len := nrLen l, lptr := nrLptr l, peer := nrPeer l, tag := nrTag l
          ticket := BitVec.ofNat 128 (leAt l 0x18 16), roff := leAt l 0x28 8, cc := nrCc l, fence := bit (leAt l 1 1) 1
          total := if op = 2 then 0 else pktCount (nrLen l) }]
        netNext := q.netNext + 1 })

/-! ### Sending (R236, R337, R338) -/

/-- A packet leaves for the port it names; one for a peer package leaves this one (die 8). -/
def State.launchPkt (s : State) (p : NetPkt) : State :=
  { s with pkts := s.pkts ++ [(match s.portOf p.dst with | some (d, _) => d | none => 8, p)] }

/-- A reply leaves for the port that sent the packet. -/
def State.replyTo (s : State) (p : NetPkt) (placed : List Nat) (refused : Nat) : State :=
  { s with acks := s.acks ++ [(match s.portOf p.src with | some (d, _) => d | none => 8,
      { dst := p.src, msg := p.msg, idx := p.idx, placed := placed, refused := refused, data := p.kind == .readData })] }

/-- The kind of a request's packets. -/
def netKind (op : Nat) : PktKind := if op = 1 then .send else if op = 3 then .write else .readReq

/-- Packet `i` of a request with its payload, sent unless the network loses it. -/
def State.sentPkt (s : State) (d : Nat) (r : NReq) (i : Nat) (data : List Byte) (lost : Bool) : State :=
  let p : NetPkt :=
    { kind := netKind r.op, src := portName d r.e.ctx, dst := r.peer, msg := r.id, idx := i, len := r.len, tag := r.tag
      ticket := r.ticket, roff := r.roff, data := data }
  let st := r.pkt i
  let s1 := s.setReq d (r.setPkt i { st with sends := st.sends + 1, last := s.cyc, refused := false })
  if lost then s1 else s1.launchPkt p

/-- The sending of a packet (R337): its payload is read now, at a resend again; a check that fails ends the request
(R335). -/
def State.sendPkt (s : State) (d : Nat) (r : NReq) (i : Nat) (lost : Bool) : State :=
  if r.op = 4 then s.sentPkt d r i [] lost
  else
    match s.chkRange r.e.core r.e.ctx r.lptr (i * 2048 : Nat) (pktLen r.len i) false with
    | .fault c _ => s.endReq d r c
    | .absent oid x _ => s.report oid x (d + 1)
    | .hold => s
    | .ok rd =>
      match s.readAll (agNet d) rd with
      | none => s.endReq d r 0xA0
      | some (s1, bs) => s1.sentPkt d r i bs lost

/-- A request that sends packets and has not ended. -/
def NReq.sends (r : NReq) : Bool := !r.ended && (r.op == 1 || r.op == 3 || r.op == 4)

/-- NET_PACKET_SEND (R236, R337): the first copy of packet `i` of the `k`-th request. -/
def execNetPacketSend (d k i : Nat) (lost : Bool) (s : State) : Host.Outcome State Fault Refusal :=
  match (s.die d).net[k]? with
  | none => .next s
  | some r =>
    let p := r.pkt i
    if !r.sends || r.total ≤ i || p.sends ≠ 0 || p.refused || p.done || !s.netFree d r || s.quiet r.e.core then .next s
    else .next (s.sendPkt d r i lost)

/-- A packet is due for a resend: a higher one is placed and 1,700 A-cycles have passed, or 6,800 have (R338). -/
def NReq.due (r : NReq) (i cyc : Nat) : Bool :=
  let p := r.pkt i
  let higher := (List.range r.total).any fun j => i < j && ((r.pkt j).named || (r.op == 4 && (r.pkt j).done))
  decide (p.last + 2 * 6800 ≤ cyc) || (higher && decide (p.last + 2 * 1700 ≤ cyc))

/-- NET_RESEND_TIMEOUT (R236, R338): a packet unacknowledged too long is resent; after eight copies its request ends
with 0x71. -/
def execNetResendTimeout (d k i : Nat) (lost : Bool) (s : State) : Host.Outcome State Fault Refusal :=
  match (s.die d).net[k]? with
  | none => .next s
  | some r =>
    let p := r.pkt i
    if !r.sends || r.total ≤ i || p.sends = 0 || p.refused || p.done || !r.due i s.cyc || s.quiet r.e.core then .next s
    else if p.sends ≥ 8 then .next (s.endReq d r 0x71)
    else .next (s.sendPkt d r i lost)

/-- NET_UNMATCHED_RETRY (R236, R338): 10 µs after their latest send the refused packets of a message are sent again;
that does not count toward the limit. -/
def execNetUnmatchedRetry (d k : Nat) (lost : Bool) (s : State) : Host.Outcome State Fault Refusal :=
  match (s.die d).net[k]? with
  | none => .next s
  | some r =>
    let again := (List.range r.total).filter fun i => (r.pkt i).refused && decide ((r.pkt i).last + 2 * 8500 ≤ s.cyc)
    if !r.sends || again.isEmpty || s.quiet r.e.core then .next s
    else .next (again.foldl (fun st i =>
      match (st.die d).net[k]? with
      | some q => if q.ended then st else st.sendPkt d q i lost
      | none => st) s)

/-- What a port of this package has placed is seen by the engine that an acknowledgement of it reaches (R104, R325). -/
def State.joinPort (s : State) (d : Nat) (peer : Word) : State :=
  match s.portOf peer with
  | some (e, _) => s.takeViews (agNet d) [s.viewFrom (agNet e) 5]
  | none => s

/-- NET_ACK_ARRIVAL (R338): an acknowledgement covers its packet and names what is placed; a refusal for want of a post, or
of an extent (R314), marks its packet, any other refusal ends the request (R326). An acknowledgement of a remote read's
data asks nothing more of its sender. -/
def execNetAckArrival (d : Nat) (a : NetAck) (s : State) : Host.Outcome State Fault Refusal :=
  let got : Option (State × NetReply) := match a with
    | .outside r => some (s, r)
    | .flight k => match s.acks[k]? with
      | some (e, r) => if e = d then some ({ s with acks := s.acks.eraseIdx k }, r) else none
      | none => none
  match got with
  | none => .next s
  | some (s1, a) =>
    match (s1.die d).net.find? fun r => !a.data && r.sends && r.id == a.msg && portName d r.e.ctx == a.dst with
    | none => .next s1
    | some r =>
      if a.refused = 1 then
        let p := r.pkt a.idx
        .next (s1.setReq d (if p.done then r else r.setPkt a.idx { p with refused := true, sends := p.sends - 1 }))
      else if a.refused ≠ 0 then .next (s1.endReq d r a.refused)
      else if r.op = 4 then .next s1
      else
        let r1 := (a.idx :: a.placed).foldl (fun (q : NReq) i =>
          if i < q.total then
            q.setPkt i { q.pkt i with done := true, refused := false, named := (q.pkt i).named || a.placed.contains i }
          else q) r
        let s2 := s1.joinPort d r.peer
        .next (if r1.allDone then s2.endReq d r1 0 else s2.setReq d r1)

/-! ### Receiving (R236, R325, R326, R338) -/

/-- What an arriving packet leads to: it is dealt with, or it waits at the port. -/
inductive Recv where
  | took (s : State)
  | stay (s : State)

/-- The packets of a message that are placed, in whole or in part: an acknowledgement names no packet that was wholly
discarded (R236, R338). -/
def NReq.stood (r : NReq) : List Nat := r.placed.filter fun i => i * 2048 < r.len

/-- A write event by the engine for a whole packet: one write to a reader of lines and granules (R106, R325, R360). -/
def State.writePkt (s : State) (a : Nat) (ls : List (Nat × Nat)) (bs : List Byte) : State :=
  (s.writeAll a ls bs).asWhole (chunkWhole s.oom.nextEv) s.oom.nextEv

/-- A packet of a message that has its post is placed, or discarded (R236, R338). -/
def State.placePost (s : State) (d : Nat) (r : NReq) (p : NetPkt) : Recv :=
  if r.ended || (r.pkt p.idx).done then .took (s.replyTo p r.stood 0)
  else
    let off := p.idx * 2048
    let n := min p.data.length (r.len - off)
    match (if n = 0 then Chk.ok [] else s.chkRange r.e.core r.e.ctx r.lptr (off : Nat) n true) with
    | .absent oid x _ => .stay (s.report oid x (d + 1))
    | .hold => .stay s
    | .fault c _ => .took ((s.endReq d r c).replyTo p r.stood 0)
    | .ok wr =>
      let s1 := s.writePkt (agNet d) wr (p.data.take n)
      let r1 := r.setPkt p.idx { r.pkt p.idx with done := true }
      let s2 := if r1.allDone then (if r.len < p.len then s1.endReq d r1 0x70 0x41 else s1.endReq d r1 0) else s1.setReq d r1
      .took (s2.replyTo p r1.stood 0)

/-- A record of the receiver for a message without a post: 12 a queue delivery, 13 a remote write. -/
def State.record (s : State) (d x op : Nat) (p : NetPkt) (queue : Option (Nat × Nat)) : State × NReq :=
  let q := s.die d
  let r : NReq :=
    { id := q.netNext, e := { ctx := x }, op := op, len := p.len, lptr := 0, peer := p.src, tag := p.tag, from_ := p.src
      msg := p.msg, posted := true, ended := true, total := pktCount p.len, queue := queue }
  (s.modDie d fun w => { w with net := w.net ++ [r], netNext := w.netNext + 1 }, r)

/-- The record of a message at its receiver. -/
def State.recordOf (s : State) (d x op : Nat) (p : NetPkt) : Option NReq :=
  (s.die d).net.find? fun r => r.op == op && r.posted && r.e.ctx == x && r.from_ == p.src && r.msg == p.msg

/-! ### Delivery into a queue (R357, R363) -/

/-- A doubleword of a queue's control block as its home holds it. -/
def State.ctlWord (s : State) (q o : Nat) : Nat := leNat (s.peek (locObj (s.queue q).ctl o) 8)

/-- The ring location of a unit. -/
def State.unitLoc (s : State) (q u : Nat) : Nat :=
  let k := s.queue q
  locObj k.ring (64 * (u % 2 ^ k.logu))

/-- The header words of the whole packets that have been placed are written by releases, in index order; `fuel`
bounds their number. -/
def State.publishUnits (s : State) (d q base : Nat) : Nat → NReq → State × NReq
  | 0, r => (s, r)
  | f + 1, r =>
    let u := r.pubd
    let units := r.len / 64
    if units ≤ u || !(r.pkt (u / 32)).done then (s, r)
    else
      let h := SMap.get 0 u r.words
      let n := min (max 1 (bits h.toNat 16 8)) (units - u)
      if !(List.range n).all fun i => (r.pkt ((u + i) / 32)).done then (s, r)
      else
        let s1 := (List.range (n - 1)).foldl (fun st i =>
          st.put (agNet d) (locs (st.unitLoc q (base + u + i + 1)) 8) (word8 (SMap.get 0 (u + i + 1) r.words)) [] none) s
        let s2 := s1.put (agNet d) (locs (s1.unitLoc q (base + u)) 8) (word8 h) [] (some 4)
        State.publishUnits s2 d q base f { r with pubd := u + n }

/-- A packet of a delivery is placed; the first doubleword of each unit waits for its header's turn. A ring in the weight
store is not written (R317), and one not yet scrubbed waits (R320). -/
def State.placeUnits (s : State) (d : Nat) (r : NReq) (p : NetPkt) (q base : Nat) : Recv :=
  if (r.pkt p.idx).done then .took (s.replyTo p r.placed 0)
  else
    let us := (List.range (p.data.length / 64)).map fun i => (p.idx * 32 + i, (p.data.drop (64 * i)).take 64)
    match us.find? fun w => s.goneLoc (s.unitLoc q (base + w.1)) with
    | some w => let l := s.unitLoc q (base + w.1); .stay (s.report (locId l) (locOff l / 2 ^ 18) (d + 1))
    | none =>
      let barred (w : Nat × List Byte) : Bool := let l := s.unitLoc q (base + w.1); (s.extent (locId l) (locOff l / 2 ^ 18)).ws
      if us.any barred then .took (s.replyTo p r.placed 0x22)
      else if us.any fun w => s.zLoc (s.unitLoc q (base + w.1)) then .stay s
      else
      let s1 := us.foldl (fun st w =>
        (st.writeRange (agNet d) (st.unitLoc q (base + w.1) + 8) (w.2.drop 8) []).heat (agNet d) (st.unitLoc q (base + w.1)) true) s
      let r1 := us.foldl (fun (k : NReq) w => { k with words := SMap.set 0 w.1 (wordAt w.2 0) k.words })
        (r.setPkt p.idx { r.pkt p.idx with done := true })
      let (s2, r2) := s1.publishUnits d q base (p.len / 64) r1
      .took ((s2.setReq d r2).replyTo p r2.placed 0)

/-- A send addressed to a queue (R363): taken as a producer's, or refused as unmatched. -/
def State.recvQueue (s : State) (d x : Nat) (p : NetPkt) : Recv :=
  match s.recordOf d x 12 p with
  | some r => match r.queue with
    | some (q, base) => s.placeUnits d r p q base
    | none => .stay s
  | none =>
    match s.queues.find? fun r => r.2.alive && r.2.ctx == x && r.2.num == p.tag.toNat % 2 ^ 12 with
    | none => .took (s.replyTo p [] 1)
    | some (q, k) =>
      let n := p.len / 64
      let w := s.ctlWord q 0
      let ls := locs (locObj k.ctl 0) 8
      let accepts := k.npeer == BitVec.allOnes 64 || k.npeer == p.src
      if bits p.tag.toNat 12 51 ≠ 0 || !k.net || !accepts || k.state ≠ 0 || p.len % 64 ≠ 0
          || s.ctlWord q 8 + 2 ^ k.logu < w + n then .took (s.replyTo p [] 1)
      else if !s.atomicReady (agNet d) ls then .stay s
      else
        let s1 := (s.atomicStep (agNet d) ls none none [] (some (leBytes 8 (w + n)))).1.heat (agNet d) (locObj k.ctl 0) true
        let (s2, _, evs) := s1.readEv (agNet d) (locs (locObj k.ctl 8) 8)
        let (s3, r) := (s2.joinEvents (agNet d) 4 evs).record d x 12 p (some (q, w))
        s3.placeUnits d r p q w

/-- A send (R236): the message's own post, or the oldest post that accepts it. -/
def State.recvSend (s : State) (d x : Nat) (p : NetPkt) : Recv :=
  if bit p.tag.toNat 63 then s.recvQueue d x p
  else match s.recordOf d x 2 p with
  | some r => if s.stopReached r.e.core then .took (s.replyTo p [] 1) else s.placePost d r p
  | none =>
    match (s.die d).net.find? fun r => r.op == 2 && !r.posted && !r.ended && r.e.ctx == x && r.tag == p.tag
        && (r.peer == BitVec.allOnes 64 || r.peer == p.src) && s.netFree d r && !s.stopReached r.e.core with
    | none => .took (s.replyTo p [] 1)
    | some r => s.placePost d { r with posted := true, from_ := p.src, msg := p.msg, total := pktCount p.len } p

/-! ### Remote access (R326) -/

/-- The check of a ticket for a packet: the access, or the cause with which the packet is refused. -/
def State.ticket (s : State) (p : NetPkt) (n right : Nat) : Except Nat Ok :=
  let low : Word := p.ticket.setWidth 64
  let chk : Word := (p.ticket >>> 64).setWidth 64
  let h := bits low.toNat 41 13
  let x := bits low.toNat 29 12
  let off := p.roff + p.idx * 2048
  if chk ≠ Config.ticketCheck low || h = 0 || bits low.toNat 56 8 ≠ (s.desc x h).gen % 256
      || !bit low.toNat (if right = rWrite then 55 else 54) || (s.handleAt x (fpMk h 0)).st ≠ .valid then .error 0x72
  else if off + n > 2 ^ 42 then .error 0x11
  else match s.checkHandle x (fpMk h off) n 1 right with
    | .error (c, _) => .error (if c = 0x11 then 0x11 else 0x72)
    | .ok k => if right = rWrite && k.ws.isSome && k.np.isNone then .error 0x22 else .ok k

/-- A packet of a remote write (R325, R326); one for an extent that is not present is refused, and that does not count
(R314). -/
def State.recvWrite (s : State) (d x : Nat) (p : NetPkt) : Recv :=
  let (s0, r) := match s.recordOf d x 13 p with
    | some r => (s, r)
    | none => s.record d x 13 p none
  if (r.pkt p.idx).done then .took (s0.replyTo p r.placed 0)
  else match s0.ticket p p.data.length rWrite with
    | .error c => .took (s0.replyTo p r.placed c)
    | .ok k =>
      match k.np with
      | some (oid, e) => .took ((s0.report oid e (d + 1)).replyTo p r.placed 1)
      | none =>
        if k.z ≠ 0 then .stay s
        else
          let s1 := s0.writePkt (agNet d) [(k.loc, p.data.length)] p.data
          let r1 := r.setPkt p.idx { done := true }
          .took ((s1.setReq d r1).replyTo p r1.placed 0)

/-- A request packet of a remote read: the target reads the bytes and sends them (R326). -/
def State.recvRead (s : State) (d : Nat) (p : NetPkt) : Recv :=
  let n := pktLen p.len p.idx
  match s.ticket p n rRead with
  | .error c => .took (s.replyTo p [] c)
  | .ok k =>
    match k.np with
    | some (oid, e) => .took ((s.report oid e (d + 1)).replyTo p [] 1)
    | none =>
      match s.engRead (agNet d) k.loc n with
      | .wait s1 => .stay s1
      | .bad => .took (s.replyTo p [] 0xA0)
      | .bytes s1 bs => .took (s1.launchPkt { p with kind := .readData, src := p.dst, dst := p.src, data := bs })

/-- A data packet of a remote read is placed at its reader, or discarded, and acknowledged (R236, R338). -/
def State.recvData (s : State) (d x : Nat) (p : NetPkt) : Recv :=
  match (s.die d).net.find? fun r => r.op == 4 && r.id == p.msg && r.e.ctx == x && r.peer == p.src with
  | none => .took (s.replyTo p [] 0)
  | some r =>
    if r.ended || r.total ≤ p.idx || (r.pkt p.idx).done then .took (s.replyTo p r.placed 0)
    else match s.chkRange r.e.core r.e.ctx r.lptr (p.idx * 2048 : Nat) (pktLen r.len p.idx) true with
      | .absent oid e _ => .stay (s.report oid e (d + 1))
      | .hold => .stay s
      | .fault c _ => .took ((s.endReq d r c).replyTo p r.placed 0)
      | .ok wr =>
        let s1 := s.writePkt (agNet d) wr p.data
        let r1 := r.setPkt p.idx { r.pkt p.idx with done := true }
        .took ((if r1.allDone then s1.endReq d r1 0 else s1.setReq d r1).replyTo p r1.placed 0)

/-- A packet carries the bytes of its place in its message. -/
def pktWhole (p : NetPkt) : Bool :=
  p.idx < pktCount p.len && (p.kind == .readReq || p.data.length == pktLen p.len p.idx)

/-- NET_PACKET_ARRIVAL (R236): a packet reaches a port of the die; one for a port that is not there, or that is no
packet of its message, is dropped. -/
def execNetPacketArrival (d : Nat) (a : NetArr) (s : State) : Host.Outcome State Fault Refusal :=
  let got : Option (State × NetPkt) := match a with
    | .outside p => some (s, p)
    | .flight k => match s.pkts[k]? with
      | some (e, p) => if e = d then some ({ s with pkts := s.pkts.eraseIdx k }, p) else none
      | none => none
  match got with
  | none => .next s
  | some (s1, p) =>
    match s1.portOf p.dst with
    | none => .next s1
    | some (e, x) =>
      if e ≠ d || !pktWhole p then .next s1
      else
        let r := match p.kind with
          | .send => s1.recvSend d x p
          | .write => s1.recvWrite d x p
          | .readReq => s1.recvRead d p
          | .readData => s1.recvData d x p
        match r, a with
        | .took s2, _ => .next s2
        | .stay s2, .flight _ => .next { s2 with pkts := s.pkts }
        | .stay s2, .outside _ => .next s2

end Sys2Proof.Machine
end

