-- ==== Sys2Proof/Machine/Names.lean ====
section
/-! DEFINITION. Row F at issue (R240 to R260): name transactions, control and status registers, trap return, the
plot map, shoot-downs, stops, the partition table, halts and quotes. Their effects at step 5 are in System. -/

namespace Sys2Proof.Machine

/-! ### Name instructions (R243 to R250) -/

/-- WALK; without a base register the path starts at the root (R244, R246). -/
def opWalk (i : Iss) : Try Out :=
  .ok { defs := [{ op := 0xF0, rd := i.o.d, va := i.va, vb := i.vb, n := i.fm == .t4 && i.o.b != 0 }] }

/-- OPEN (R247). -/
def opOpen (i : Iss) : Try Out := .ok { defs := [{ op := 0xF1, m := i.o.m % 256, rd := i.o.d, va := i.va, vb := i.vb }] }

/-- CLOSE (R248). -/
def opClose (i : Iss) : Try Out := .ok { defs := [{ op := 0xF2, va := i.va }] }

/-- BIND (R249). -/
def opBind (i : Iss) : Try Out := .ok { defs := [{ op := 0xF3, m := i.o.m % 32, va := i.va, vb := i.vb }] }

/-- UNBIND (R249). -/
def opUnbind (i : Iss) : Try Out := .ok { defs := [{ op := 0xF4, va := i.va, vb := i.vb }] }

/-- REVOKE: the context and the handle that it names are kept in `vc` and `vb` (R250). DESIGN CHOICE (log entry 143): where a
host names both a context that it did not create and a handle that is invalid there, the right to name the context is
checked first, so that nothing is told about the handle. -/
def opRevoke (i : Iss) : Try Out :=
  let named := bit i.o.m 0
  let x := if named then i.vb.toNat else i.x.ctx
  let h := if named then i.va.toNat else fpHnd i.va
  if named ∧ (i.va.toNat ≥ 2 ^ 13 ∨ i.vb.toNat ≥ 2 ^ 12) then trap 0x07 0 (lineOff i.pc)
  else if h = 0 then trap 0x13 2 i.va
  else if named ∧ i.s.domOf i.c i.t = 1 ∧ (i.s.ctx x).owner ≠ i.x.ctx then trap 0x06 1 (lineOff i.pc)
  else if (i.s.desc x h).st = .invalid then trap 0x13 0 i.va
  else .ok { defs := [{ op := 0xF5, va := i.va, vb := BitVec.ofNat 64 h, vc := BitVec.ofNat 64 x }] }

/-! ### Control and status registers (R252 to R254) -/

/-- What a CSR holds for a thread, none for a number without a register (R253). -/
def State.csr (s : State) (c t n : Nat) : Option Word :=
  let k := s.core c
  let x := k.thread t
  let w (v : Nat) : Option Word := some (BitVec.ofNat 64 v)
  match n with
  | 0x000 => w (x.lcause % 256 * 2 ^ 24 + (if x.st = 2 then x.prsn else 0) * 2 ^ 16 + b2n x.duo * 8 + x.st)
  | 0x001 => w s.dtime
  | 0x002 => w s.cyc
  | 0x003 => w ((s.ctx x.ctx).dom * 2 + b2n k.am)
  | 0x004 => some k.frm
  | 0x005 => some k.fxf
  | 0x006 => some k.vxf
  | 0x007 => some k.vxe
  | 0x008 => w (s.ctx x.ctx).pmver
  | 0x009 => w s.wswin
  | 0x00A => w (x.ctx % 2 ^ 12)
  | 0x00B => w k.ptag
  | 0x00C => w (s.logical c)
  | 0x00D => w (c * 2 ^ 16 + t)
  | 0x00E => some ((s.clu (clusterOf c)).rctmo.zeroExtend 64)
  | 0x00F => some s.gage
  | _ => none

/-- The writable field of a CSR that a thread may write, with its width; none where it may not (R253). DEDUCED (log entry
126): a CSRW to STAT traps as R252 and R253 say, and what R29 ignores is a write that no instruction makes. -/
def State.csrMask (s : State) (c t n : Nat) : Option Nat :=
  let dom := s.domOf c t
  match n with
  | 0x003 => if dom = 2 then some 1 else none
  | 0x004 => some 3
  | 0x005 => some fxfMask
  | 0x006 => some vxfMask
  | 0x007 => some vxeMask
  | 0x00E => if isCC c then some (2 ^ 32 - 1) else none
  | 0x00F => if dom = 0 then none else some (2 ^ 16 - 1)
  | _ => none

/-- The bits of a CSR that are not reserved: MODE's DOM is ignored, not reserved (R252, R254). -/
def csrKnown (n mask : Nat) : Nat := if n = 0x003 then 7 else mask

/-- CSRR (R252). -/
def opCsrr (i : Iss) : Try Out :=
  match i.s.csr i.c i.t (i.o.m % 1024) with
  | none => trap 0x07 12 (lineOff i.pc)
  | some v => longG i v

/-- CSRW: the number, the operation and the value act at step 5 (R252). -/
def opCsrw (i : Iss) : Try Out :=
  let n := i.o.m % 1024
  if (i.s.csr i.c i.t n).isNone then trap 0x07 12 (lineOff i.pc)
  else match i.s.csrMask i.c i.t n with
    | none => trap 0x06 4 (lineOff i.pc)
    | some mask =>
      if (i.va &&& ~~~ BitVec.ofNat 64 (csrKnown n mask)) ≠ 0 then trap 0x07 0 (lineOff i.pc)
      else .ok { defs := [{ op := 0xF7, m := i.o.m, va := i.va &&& BitVec.ofNat 64 mask, vb := BitVec.ofNat 64 mask }] }

/-- The CSR after a write, set or clear of its writable field (R252). -/
def csrNew (op : Nat) (old v mask : Word) : Word :=
  match op with
  | 0 => (old &&& ~~~ mask) ||| v
  | 1 => old ||| v
  | _ => old &&& ~~~ v

/-- CSRW at step 5. -/
def State.csrWrite (s : State) (c : Nat) (e : Eff) : State :=
  let n := e.m % 1024
  let new (old : Word) : Word := csrNew (bits e.m 10 2) old e.va e.vb
  match n with
  | 0x003 => s.modCore c fun k => { k with am := new (BitVec.ofNat 64 (b2n k.am)) != 0 }
  | 0x004 => s.modCore c fun k => { k with frm := new k.frm }
  | 0x005 => s.modCore c fun k => { k with fxf := new k.fxf }
  | 0x006 => s.modCore c fun k => { k with vxf := new k.vxf }
  | 0x007 => s.modCore c fun k => { k with vxe := new k.vxe }
  | 0x00E => s.modClu (clusterOf c) fun k => { k with rctmo := (new (k.rctmo.zeroExtend 64)).setWidth 32 }
  | 0x00F => { s with gage := new s.gage }
  | _ => s

/-! ### Trap return, the plot map and the supervisor (R251, R255 to R260) -/

/-- The core and thread that a TRET names, none where its operand is malformed (R255). -/
def tretTarget (c : Nat) (v : Word) : Option (Nat × Nat) :=
  let n := v.toNat
  if isCC c && bit n 6 then (if n / 128 = 0 then some (c / 16 * 16 + bits n 3 3, n % 8) else none)
  else if n ≥ 7 then none else some (c, n)

/-- TRET (R255). -/
def opTret (i : Iss) : Try Out :=
  match tretTarget i.c i.va with
  | none => trap 0x07 0 (lineOff i.pc)
  | some (c, t) =>
    .ok { defs := [{ op := 0xF8, m := i.o.m % 4, va := BitVec.ofNat 64 (c * 8 + t), vb := i.vb }] }

/-- PMACK (R256). -/
def opPmack (i : Iss) : Try Out :=
  if i.va.toNat ≥ 2 ^ 32 then trap 0x07 0 (lineOff i.pc) else .ok { defs := [{ op := 0xF9, va := i.va }] }

/-- TSHOOT: the entry's alignment and the write right on its table (R251). -/
def opTshoot (i : Iss) : Try Out := do
  let n := if bit i.o.m 3 then 16 else 32
  let k ← i.check i.va n n rWrite
  match k.np with
  | some (oid, e) => pure { np := some (oid, e, i.va) }
  | none => pure { defs := [{ op := 0xFA, m := i.o.m, va := i.va, locs := [k.loc], hnds := [k.hnd], chk := [(i.va, n, n, rWrite)] }] }

/-- SSTOP (R257). -/
def opSstop (i : Iss) : Try Out :=
  if !bit i.o.m 0 && i.va.toNat ≥ 64 then trap 0x07 0 (lineOff i.pc)
  else .ok { defs := [{ op := 0xFB, m := i.o.m % 2, va := i.va, vb := i.vb }] }

/-- PARTW (R258). -/
def opPartw (i : Iss) : Try Out := .ok { defs := [{ op := 0xFC, va := i.va, vb := i.vb }] }

/-- HALT (R259). -/
def opHalt (_ : Iss) : Try Out := .ok { defs := [{ op := 0xFD }] }

/-- ATTQ reads its request; its checks follow when it has returned (R260). -/
def opAttq (i : Iss) : Try Out := i.record 64 64 .none { op := 0xFE, va := i.va } id []

/-- The checks of a quote request that has been read (R260). -/
def Iss.attq (i : Iss) (l : List Byte) : Try Unit := do
  if leAt l 0x28 8 < 4096 then trap 0x07 0 (lineOff i.pc)
  if leAt l 0x38 8 ≠ 0 then trap 0x07 0 (lineOff i.pc)
  let p := wordAt l 0x20
  match i.s.translate i.c i.x.ctx i.given p 4096 1 rWrite with
  | .error (cause, sub) => trap cause sub (faultPtr cause p)
  | .ok _ => pure ()

/-- WALK_T2 (R246). -/
def execWalkT2 (f : F2) (s : State) : Host.Outcome State Fault Refusal :=
  issue 0xF0 .t2 f.opnd opWalk s

/-- WALK_T4 (R246). -/
def execWalkT4 (f : F4) (s : State) : Host.Outcome State Fault Refusal :=
  issue 0xF0 .t4 f.opnd opWalk s

/-- OPEN_T2 (R247). -/
def execOpenT2 (f : F2) (s : State) : Host.Outcome State Fault Refusal :=
  issue 0xF1 .t2 f.opnd opOpen s

/-- OPEN_T4 (R247). -/
def execOpenT4 (f : F4) (s : State) : Host.Outcome State Fault Refusal :=
  issue 0xF1 .t4 f.opnd opOpen s

/-- CLOSE_T2 (R248). -/
def execCloseT2 (f : F2) (s : State) : Host.Outcome State Fault Refusal :=
  issue 0xF2 .t2 f.opnd opClose s

/-- CLOSE_T4 (R248). -/
def execCloseT4 (f : F4) (s : State) : Host.Outcome State Fault Refusal :=
  issue 0xF2 .t4 f.opnd opClose s

/-- BIND (R249). -/
def execBind (f : F4) (s : State) : Host.Outcome State Fault Refusal :=
  issue 0xF3 .t4 f.opnd opBind s

/-- UNBIND_T2 (R249). -/
def execUnbindT2 (f : F2) (s : State) : Host.Outcome State Fault Refusal :=
  issue 0xF4 .t2 f.opnd opUnbind s

/-- UNBIND_T4 (R249). -/
def execUnbindT4 (f : F4) (s : State) : Host.Outcome State Fault Refusal :=
  issue 0xF4 .t4 f.opnd opUnbind s

/-- REVOKE_T2 (R250). -/
def execRevokeT2 (f : F2) (s : State) : Host.Outcome State Fault Refusal :=
  issue 0xF5 .t2 f.opnd opRevoke s

/-- REVOKE_T4 (R250). -/
def execRevokeT4 (f : F4) (s : State) : Host.Outcome State Fault Refusal :=
  issue 0xF5 .t4 f.opnd opRevoke s

/-- CSRR_T2 (R252). -/
def execCsrrT2 (f : F2) (s : State) : Host.Outcome State Fault Refusal :=
  issue 0xF6 .t2 f.opnd opCsrr s

/-- CSRR_T4 (R252). -/
def execCsrrT4 (f : F4) (s : State) : Host.Outcome State Fault Refusal :=
  issue 0xF6 .t4 f.opnd opCsrr s

/-- CSRW_T2 (R252). -/
def execCsrwT2 (f : F2) (s : State) : Host.Outcome State Fault Refusal :=
  issue 0xF7 .t2 f.opnd opCsrw s

/-- CSRW_T4 (R252). -/
def execCsrwT4 (f : F4) (s : State) : Host.Outcome State Fault Refusal :=
  issue 0xF7 .t4 f.opnd opCsrw s

/-- TRET_T2 (R255). -/
def execTretT2 (f : F2) (s : State) : Host.Outcome State Fault Refusal :=
  issue 0xF8 .t2 f.opnd opTret s

/-- TRET_T4 (R255). -/
def execTretT4 (f : F4) (s : State) : Host.Outcome State Fault Refusal :=
  issue 0xF8 .t4 f.opnd opTret s

/-- PMACK_T2 (R256). -/
def execPmackT2 (f : F2) (s : State) : Host.Outcome State Fault Refusal :=
  issue 0xF9 .t2 f.opnd opPmack s

/-- PMACK_T4 (R256). -/
def execPmackT4 (f : F4) (s : State) : Host.Outcome State Fault Refusal :=
  issue 0xF9 .t4 f.opnd opPmack s

/-- TSHOOT_T2 (R251). -/
def execTshootT2 (f : F2) (s : State) : Host.Outcome State Fault Refusal :=
  issue 0xFA .t2 f.opnd opTshoot s

/-- TSHOOT_T4 (R251). -/
def execTshootT4 (f : F4) (s : State) : Host.Outcome State Fault Refusal :=
  issue 0xFA .t4 f.opnd opTshoot s

/-- SSTOP (R257). -/
def execSstop (f : F4) (s : State) : Host.Outcome State Fault Refusal :=
  issue 0xFB .t4 f.opnd opSstop s

/-- PARTW_T2 (R258). -/
def execPartwT2 (f : F2) (s : State) : Host.Outcome State Fault Refusal :=
  issue 0xFC .t2 f.opnd opPartw s

/-- PARTW_T4 (R258). -/
def execPartwT4 (f : F4) (s : State) : Host.Outcome State Fault Refusal :=
  issue 0xFC .t4 f.opnd opPartw s

/-- HALT_T0 (R259). -/
def execHaltT0 (f : F0) (s : State) : Host.Outcome State Fault Refusal :=
  issue 0xFD .t0 f.opnd opHalt s

/-- HALT_T4 (R259). -/
def execHaltT4 (f : F4) (s : State) : Host.Outcome State Fault Refusal :=
  issue 0xFD .t4 f.opnd opHalt s

/-- ATTQ_T2 (R260). -/
def execAttqT2 (f : F2) (s : State) : Host.Outcome State Fault Refusal :=
  issue 0xFE .t2 f.opnd opAttq s

/-- ATTQ_T4 (R260). -/
def execAttqT4 (f : F4) (s : State) : Host.Outcome State Fault Refusal :=
  issue 0xFE .t4 f.opnd opAttq s


/-! ### Opcodes without an instruction (R60) -/

/-- RESERVED_OPCODE: check 1 of R61, which applies under a false guard too. -/
def execReservedOpcode (f : FRaw) (s : State) : Host.Outcome State Fault Refusal :=
  let x := (s.thr s.curCore s.curThr).open_
  .next (s.setThr s.curCore s.curThr (x.groupTrap 0x01 0 (lineOff x.pc) f.s false))

/-- ILLEGAL_OPCODE_FF: check 1 of R61. -/
def execIllegalOpcodeFf (f : FRaw) (s : State) : Host.Outcome State Fault Refusal :=
  let x := (s.thr s.curCore s.curThr).open_
  .next (s.setThr s.curCore s.curThr (x.groupTrap 0x01 1 (lineOff x.pc) f.s false))

end Sys2Proof.Machine
end

