-- ==== Sys2Proof/Machine/Trees.lean ====
section
/-! DEFINITION. The name trees (R18, R243 to R249, R340 to R346, R352, R382, R383): nodes, tokens, paths, binds,
handles and objects. -/

namespace Sys2Proof.Machine

/-! ### Nodes (R18, R243) -/

/-- A name written with letters. -/
def nameOf (l : List Char) : List Byte := l.map fun c => BitVec.ofNat 8 c.toNat

/-- A hexadecimal digit, lower case. -/
def hexDigit (n : Nat) : Byte := BitVec.ofNat 8 (if n % 16 < 10 then 48 + n % 16 else 87 + n % 16)

/-- A number in `k` hexadecimal digits (R247, R341). -/
def hexName : Nat → Nat → List Byte
  | 0, _ => []
  | k + 1, n => hexName k (n / 16) ++ [hexDigit n]

/-- A number in two decimal digits (R341). -/
def decName (n : Nat) : List Byte := [BitVec.ofNat 8 (48 + n / 10 % 10), BitVec.ofNat 8 (48 + n % 10)]

/-- A node joins the trees. -/
def State.newNode (s : State) (k : Node) : State × Nat :=
  ({ s with nodeNext := s.nodeNext + 1, nodes := SMap.set {} s.nodeNext k s.nodes }, s.nodeNext)

/-- A name is given to a node in a directory. -/
def State.addKid (s : State) (dir : Nat) (name : List Byte) (n : Nat) : State :=
  s.modNode dir fun k => { k with kids := k.kids ++ [(name, n)] }

/-- A node made with a name in a directory. -/
def State.grow (s : State) (dir : Nat) (name : List Byte) (k : Node) : State × Nat :=
  let (s1, n) := s.newNode k
  (s1.addKid dir name n, n)

/-- An object joins the package. -/
def State.newObj (s : State) (o : Obj) : State × Nat :=
  ({ s with oidNext := s.oidNext + 1, objs := SMap.set {} s.oidNext o s.objs }, s.oidNext)

/-- An object with a name in a directory. -/
def State.growObj (s : State) (dir : Nat) (name : List Byte) (k : Node) (o : Obj) : State × Nat :=
  let (s1, oid) := s.newObj o
  s1.grow dir name { k with oid := oid }

/-- A node has children by name: a directory, or another node with children, as a queue's (R246, R353). -/
def Node.isDir (k : Node) : Bool := k.type == 1 || !k.kids.isEmpty

/-- The child of a name. -/
def Node.kid (k : Node) (name : List Byte) : Option Nat := (k.kids.find? fun r => r.1 == name).map (·.2)

/-- A view that a peer package exports appears under its number in /peer/pkg/ (R18, R20; log entry 117). -/
def State.plantView (s : State) (x pk : Nat) (v : Nat × List Byte × Nat × Nat) : State :=
  let (p, name, size, rights) := v
  let view : Node := { type := 6, ctx := x }
  let (s1, d) := match (s.node pk).kid (decName p) with | some d => (s, d) | none => s.grow pk (decName p) view
  (s1.growObj d name { view with grants := [(x, rights)] } { kind := .view, owner := x, size := size }).1

/-- The names of R18 grow under the root of a context's tree. What /eng/press/group and /peer/pkg hold is the firmware's and
the peers' to say (log entry 117). -/
def State.plant (s : State) (x root : Nat) : State :=
  let dir : Node := { type := 1, ctx := x }
  let sysDir : Node := { type := 1, ctx := x, prot := true }
  let sysNode : Node := { type := 5, ctx := x, prot := true }
  let eng : Node := { type := 4, ctx := x }
  let file (st : State) (d : Nat) (name : List Char) (n a : Nat) : State × Nat :=
    st.growObj d (nameOf name) sysNode { kind := .file n a }
  let (s1, _) := s.grow root (nameOf ['o', 'b', 'j']) dir
  let (s2, _) := s1.grow root (nameOf ['q', 'u', 'e', 'u', 'e']) dir
  let (s3, e) := s2.grow root (nameOf ['e', 'n', 'g']) dir
  let (s4, _) := s3.growObj e (nameOf ['l', 'a', 'd', 'l', 'e']) eng { kind := .ladle }
  let (s5, pr) := s4.grow e (nameOf ['p', 'r', 'e', 's', 's']) dir
  let (s6a, gr) := s5.grow pr (nameOf ['g', 'r', 'o', 'u', 'p']) dir
  let s6 := (Config.pressGroups x).foldl (fun st (name, n, away) =>
    (st.growObj gr name eng { kind := .press n away, owner := x, size := 64 * (n + 1) }).1) s6a
  let (s7, nt) := s6.grow e (nameOf ['n', 'e', 't']) dir
  let (s8, po) := s7.grow nt (nameOf ['p', 'o', 'r', 't']) dir
  let s9 := (List.range 8).foldl (fun st d =>
    (st.growObj po [hexDigit d] eng { kind := .port d, owner := x, size := 2 ^ 17 }).1) s8
  let (s10, pe) := s9.grow root (nameOf ['p', 'e', 'e', 'r']) dir
  let (s11a, pk) := s10.grow pe (nameOf ['p', 'k', 'g']) dir
  let s11 := ((Config.peerViews x).filter fun v => v.1 < 64 && v.1 != s.pkg).foldl (fun st v => st.plantView x pk v) s11a
  let (s12, sy) := s11.grow root (nameOf ['s', 'y', 's']) sysDir
  let (s13, pm) := file s12 sy ['p', 'l', 'o', 't', 'm', 'a', 'p'] 1 0
  let (s14, _) := file s13 pm ['e', 'v', 'e', 'n', 't', 's'] 6 0
  let (s15, _) := file s14 pm ['r', 'e', 't', 'i', 'r', 'e', 'd'] 7 0
  let (s16, _) := file s15 sy ['f', 'a', 'l', 'l', 'o', 'w'] 2 0
  let (s17, _) := file s16 sy ['a', 't', 't', 'e', 's', 't'] 3 0
  let (s18, _) := file s17 sy ['t', 'i', 'm', 'e'] 4 0
  let (s19, cd) := s18.grow root (nameOf ['c', 't', 'x']) dir
  (file s19 cd ['s', 'e', 'l', 'f'] 0 x).1

/-- A path of names from a node, none where one is missing. -/
def State.under (s : State) : Nat → List (List Byte) → Option Nat
  | n, [] => some n
  | n, c :: cs => ((s.node n).kid c).bind fun k => State.under s k cs

/-- /obj of a context. -/
def State.objDir (s : State) (x : Nat) : Option Nat := s.under (s.ctx x).root [nameOf ['o', 'b', 'j']]

/-- /tenant/ctx/ of the host's tree. -/
def State.tenantDir (s : State) : Option Nat :=
  s.under (s.ctx 1).root [nameOf ['t', 'e', 'n', 'a', 'n', 't'], nameOf ['c', 't', 'x']]

/-! ### Tokens (R243) -/

/-- The token of a node reached in a context's tree. -/
def State.token (s : State) (x n : Nat) : Word :=
  let k := s.node n
  BitVec.ofNat 64 (k.type % 16 * 2 ^ 60 + x % 2 ^ 12 * 2 ^ 48 + k.gen % 2 ^ 8 * 2 ^ 40 + n % 2 ^ 40)

/-- The CTX field of a token. -/
def tokCtx (t : Word) : Nat := bits t.toNat 48 12
/-- The NODE field of a token. -/
def tokNode (t : Word) : Nat := t.toNat % 2 ^ 40

/-- A context may act in another one's tree: its own, the firmware in any, the host in those of tenants it
created (R243, R352). -/
def State.reaches (s : State) (x y : Nat) : Bool :=
  x == y || (s.ctx x).dom == 2 || ((s.ctx x).dom == 1 && (s.ctx y).dom == 0 && (s.ctx y).owner == x)

/-- The nodes that some nodes lead to: by name, by a bind, or by a bind once made (R243, R346). -/
def State.ledTo (s : State) (l : List Nat) : List Nat :=
  l.flatMap (fun n => (s.node n).kids.map (·.2)) ++ (s.binds.filter fun b => l.contains b.place).map (·.node)
    ++ (s.bindLog.filter fun r => l.contains (tokNode r.old)).map fun r => tokNode r.new

/-- Everything that some nodes lead to in the end; `fuel` bounds the depth. -/
def State.closure (s : State) : Nat → List Nat → List Nat
  | 0, l => l
  | f + 1, l =>
    let more := ((s.ledTo l).filter fun n => !l.contains n).dedup
    if more.isEmpty then l else State.closure s f (l ++ more)

/-- A node belongs to what the tree of a context shows or has shown (R352). -/
def State.inTree (s : State) (y n : Nat) : Bool := (s.closure (s.nodes.length + 1) [(s.ctx y).root]).contains n

/-- The node of a token that a context uses, or the sub-code of 0xB0 (R243, R352). -/
def State.useToken (s : State) (x : Nat) (t : Word) : Except Nat Nat :=
  let n := tokNode t
  let k := s.node n
  if !s.reaches x (tokCtx t) then .error 3
  else if k.type = 0 ∨ k.type ≠ bits t.toNat 60 4 ∨ k.gen % 2 ^ 8 ≠ bits t.toNat 40 8 ∨ !s.inTree (tokCtx t) n then .error 2
  else .ok n

/-! ### What a place shows (R249) -/

/-- The binds at a place since its latest cover, oldest first, and the node that the cover shows. -/
def coverOf (p : Nat) : List Bind → List Bind × Option Nat
  | [] => ([], none)
  | b :: bs =>
    let (after, c) := coverOf p bs
    if c.isSome then (after, c)
    else if b.place = p then (if b.layer then (b :: after, none) else (after, some b.node))
    else (after, none)

/-- The node that a place shows: the node of its latest cover, or its own. -/
def State.shown (s : State) : Nat → Nat → Nat
  | 0, p => p
  | f + 1, p => match (coverOf p s.binds).2 with
    | some n => State.shown s f n
    | none => p

/-- The directories that a walk searches at a place, in order: layers in rising rank, the latest bound first
among equals, and the place's own at the end of rank 8. -/
def State.dirs (s : State) : Nat → Nat → List Nat
  | 0, p => [p]
  | f + 1, p =>
    let (ls, c) := coverOf p s.binds
    let own := match c with | some n => State.dirs s f n | none => [p]
    let at_ (r : Nat) : List Nat := ((ls.filter fun b => b.rank == r).reverse).flatMap fun b => State.dirs s f b.node
    ((List.range 9).flatMap at_) ++ own ++ ((List.range 7).flatMap fun r => at_ (r + 9))

/-- How deep covers and layers can nest. -/
def State.bindDepth (s : State) : Nat := s.binds.length + 1

/-- The node that a name leads to from a place. -/
def State.find (s : State) (p : Nat) (name : List Byte) : Option Nat :=
  ((s.dirs s.bindDepth p).findSome? fun d => (s.node d).kid name).map (s.shown s.bindDepth)

/-! ### Paths (R244, R246) -/

/-- The components of a path without its zero byte, each with its byte offset. -/
def splitGo : Nat → Nat → List Byte → List Byte → List (Nat × List Byte)
  | start, _, acc, [] => [(start, acc)]
  | start, o, acc, b :: bs =>
    if b = 47 then (start, acc) :: splitGo (o + 1) (o + 1) [] bs else splitGo start (o + 1) (acc ++ [b]) bs

/-- A component that R244 refuses. -/
def badName (c : List Byte) : Bool := c.isEmpty || c.length > 255 || c == [46] || c == [46, 46]

/-- The components of a path, or the offset of what R244 refuses. `base` is set for a path from a token. -/
def pathParts (base : Bool) (p : List Byte) : Except Nat (List (Nat × List Byte)) :=
  match base, p with
  | false, b :: rest =>
    if b ≠ 47 then .error 0
    else if rest.isEmpty then .ok []
    else
      let l := splitGo 1 1 [] rest
      match l.find? fun c => badName c.2 with
      | some c => .error c.1
      | none => .ok l
  | false, [] => .error 0
  | true, _ =>
    let l := splitGo 0 0 [] p
    match l.find? fun c => badName c.2 with
    | some c => .error c.1
    | none => .ok l

/-- The walk of some components from a node: the final node, or the offset of the component that is missing or
follows a non-directory (R246). -/
def State.walkFrom (s : State) : Nat → List (Nat × List Byte) → Except Nat Nat
  | n, [] => .ok n
  | n, (o, c) :: cs =>
    if !((s.dirs s.bindDepth n).any fun d => (s.node d).isDir) then .error o
    else match s.find n c with
      | none => .error o
      | some k => State.walkFrom s k cs

/-! ### Rights (R137, R247, R352, R382, R383) -/

/-- The rights that a context may ask for on a node. -/
def State.grant (s : State) (x n : Nat) : Nat :=
  let k := s.node n
  let dom := (s.ctx x).dom
  match k.type with
  | 1 => if s.reaches x k.ctx && dom ≠ 0 then 3 else 1
  | 2 => SMap.get 0 (s.obj k.oid).owner k.grants
  | 3 => match (s.obj k.oid).kind with
    | .ctl _ => if dom = 0 then 9 else 11
    | .err _ => 1
    | _ => 3
  | 4 => match (s.obj k.oid).kind with
    | .press _ _ => 17
    | _ => 1
  | 5 => match (s.obj k.oid).kind with
    | .file 0 _ => if dom = 0 then 1 else 3
    | .file 8 _ => if dom = 0 then 1 else 3
    | _ => if dom = 2 then 3 else 1
  | _ => SMap.get 1 x k.grants

/-! ### Handles (R247, R311, R347) -/

/-- A handle that a shoot-down of its close has still to leave. -/
def State.closing (s : State) (x h : Nat) : Bool := s.shoots.any fun k => !k.entry && k.ctx == x && k.hnd == h

/-- The lowest free handle number of a context. -/
def State.freeHandle (s : State) (x : Nat) : Option Nat :=
  ((List.range 8191).map (· + 1)).find? fun h => (s.desc x h).st == .invalid && !s.closing x h

/-- A handle to an object, with its rights and its node's format (R247, R311). -/
def State.openAs (s : State) (x h n oid size rights : Nat) : State :=
  let o := s.obj oid
  s.setDesc x h
    { oid := oid, size := size, gen := ((s.desc x h).gen + 1) % 256, st := .valid, rights := rights
      dfmt := (s.node n).dfmt, levels := treeLevels size
      owner := o.owner, isLazy := o.isLazy }

/-- The fat pointer that OPEN gives for a handle (R247). -/
def State.openPtr (s : State) (h n : Nat) : Word :=
  let k := s.node n
  BitVec.ofNat 64 ((if k.udf then k.dfmt % 64 else 0) * 2 ^ 58 + h * 2 ^ 42)

/-! ### Capacity (R11, R247) -/

/-- The extents that a channel offers: those of its row in the plot map, or all of them but on the reserve (R9, R11). -/
def State.chCap (s : State) (d ch : Nat) : Nat :=
  let u := s.unit (unitCh d ch)
  if u = {} then (if ch = reserveCh d then 0 else 32768) else if u.state = 0 then u.cap else 0

/-- A place of a channel that offers capacity, neither retired nor beyond what the channel has (R389, R396). -/
def State.slotOk (s : State) (d ch slot : Nat) : Bool :=
  s.chCap d ch != 0 && decide (slot < (if s.unit (unitCh d ch) = {} then 32768 else min 32768 (Config.channelCap d ch))) && !s.isWorn d ch slot

/-- The channels that offer nothing, as die times 32 plus channel (R11). -/
def State.closedChannels (s : State) : List Nat := (List.range 256).filter fun n => s.chCap (n / 32) (n % 32) == 0

/-- The extents that the package offers. -/
def State.capacity (s : State) : Nat :=
  ((List.range 8).flatMap fun d => (List.range 32).map fun ch => s.chCap d ch).foldl (· + ·) 0

/-- The extents of an object that are present. -/
def Obj.taken (o : Obj) : Nat :=
  if o.kind != .memory && o.kind != .save then 0
  else if o.isLazy then (o.ext.filter fun e => e.2.present && !e.2.ws).length
  else (o.size + 2 ^ 18 - 1) / 2 ^ 18

/-- The extents in use. -/
def State.inUse (s : State) : Nat := s.objs.foldl (fun a r => a + r.2.taken) 0

/-! ### Objects that go (R243, R351) -/

/-- A node leaves the trees: its GEN advances, and no name or bind leads to it. -/
def State.dropNode (s : State) (n : Nat) : State :=
  { s with
    nodes := (s.nodes.map fun r => (r.1, { r.2 with kids := r.2.kids.filter fun k => k.2 != n })).map fun r =>
      if r.1 = n then (r.1, ({ gen := r.2.gen + 1 } : Node)) else r
    binds := s.binds.filter fun b => b.node != n && b.place != n }

/-- The format file of a node goes with it (R341). -/
def State.dropFmt (s : State) (n : Nat) : State :=
  (s.nodes.filter fun r => r.2.type == 5 && (s.obj r.2.oid).kind == .file 8 n).foldl (fun st r => st.dropNode r.1) s

/-- The number of an extent's channel in the scrubber's order; the banks of the weight stores come behind the channels. -/
def Extent.lane (e : Extent) (x : Nat) : Nat := if e.ws then 2 ^ 16 + e.die * 16 + x % 16 else e.die * 32 + e.ch

/-- The extents that an object may have an entry for: those it was made with, or those that have been allocated. -/
def Obj.extents (o : Obj) : List Nat := if o.isLazy then o.ext.map (·.1) else List.range ((o.size + 2 ^ 18 - 1) / 2 ^ 18)

/-- The places of an object's allocated extents, which its freeing leaves to the scrubber, with the context that had them
(R345, R351). -/
def State.placesOf (s : State) (oid : Nat) : List (Nat × Nat × Nat) :=
  let o := s.obj oid
  ((o.extents.map fun x => (x, o.entry oid x)).filter fun e => e.2.present).map fun e => (e.2.lane e.1, e.2.slot, o.owner)

/-- A place that the scrubber has still to clear. -/
def State.unscrubbed (s : State) (d ch slot : Nat) : Bool := s.scrub.any fun p => p.1 == d * 32 + ch && p.2.1 == slot

/-- An object's extents are freed: its bytes are gone, and what its name still reaches is allocated again when it is
touched; those of an object with the side-effecting right, which are pinned, stay where they are, with Z until the scrubber
has cleared them (R312, R314, R351). -/
def State.emptyObj (s : State) (oid : Nat) : State :=
  let o := s.obj oid
  let s1 := s.zeroRange (locObj oid 0) (2 ^ 44)
  let stay : SMap Extent := o.extents.map fun x => (x, { o.entry oid x with z := (o.entry oid x).present })
  { s1 with
    scrub := s1.scrub ++ s.placesOf oid
    objs := SMap.set {} oid { o with isLazy := o.isLazy || !o.side, ext := if o.side then stay else [] } s1.objs }

/-- An object is freed with its context, or with its only handle where it has no name: its extents are queued for the
scrubber, and its bytes and its name are gone. -/
def State.freeObj (s : State) (oid : Nat) : State :=
  let s1 := (s.nodes.filter fun r => r.2.type == 2 && r.2.oid == oid).foldl (fun st r => (st.dropFmt r.1).dropNode r.1) s
  let s2 := s1.zeroRange (locObj oid 0) (2 ^ 44)
  { s2 with scrub := s2.scrub ++ s.placesOf oid, objs := SMap.set {} oid {} s2.objs }

/-- Some context still holds a handle to an object. -/
def State.isHeld (s : State) (oid : Nat) : Bool := s.ctxs.any fun r => r.2.hnd.any fun h => h.2.oid == oid && h.2.st != .invalid

/-- A handle number becomes free; with the last holder of an object its extents are freed, or the object where an OPEN
of a directory made it (R347, R351). -/
def State.dropHandle (s : State) (x h : Nat) : State :=
  let d := s.desc x h
  let s1 := s.setDesc x h { gen := d.gen }
  match (s1.obj d.oid).kind with
  | .memory => if s1.isHeld d.oid then s1 else s1.emptyObj d.oid
  | .listing _ => if s1.isHeld d.oid then s1 else s1.freeObj d.oid
  | .make _ => if s1.isHeld d.oid then s1 else s1.freeObj d.oid
  | _ => s1

/-! ### Listings (R342) -/

/-- An entry of a listing that context x reads, in the tree of context y (R243, R342). -/
def State.listEntry (s : State) (x y : Nat) (name : List Byte) (n : Nat) : List Byte :=
  let k := s.node n
  let size := if k.type = 2 then (s.obj k.oid).size else 0
  leBytes 1 k.type ++ leBytes 1 name.length ++ leBytes 1 (s.grant x n) ++ leBytes 1 (b2n k.udf) ++ leBytes 4 0
    ++ word8 (s.token y n) ++ leBytes 8 size ++ name ++ List.replicate ((8 - name.length % 8) % 8) 0#8

/-- The names that a place lists: layer by layer, each name once, in search order; format files are absent (R341). -/
def State.listed (s : State) (p : Nat) : List (List Byte × Nat) :=
  ((s.dirs s.bindDepth p).flatMap fun d => (s.node d).kids).foldl (fun (acc : List (List Byte × Nat)) r =>
    let n := s.shown s.bindDepth r.2
    let isFmt := match (s.obj (s.node n).oid).kind with | .file 8 _ => (s.node n).type == 5 | _ => false
    if isFmt || acc.any fun q => q.1 == r.1 then acc else acc ++ [(r.1, n)]) []

/-- The bytes of a listing that context x reads, in the tree of context y. -/
def State.listing (s : State) (x y p : Nat) : List Byte :=
  let l := s.listed p
  leBytes 8 l.length ++ word8 (s.token y p) ++ l.flatMap fun r => s.listEntry x y r.1 r.2

/-! ### The transactions (R246 to R249) -/

/-- The answer of the NSE to a request: a value, a refusal with its cause, sub-code and g3, or no answer yet. -/
inductive Ans where
  | ok (s : State) (v : Word)
  | no (s : State) (cause sub : Nat) (info : Word)
  | wait (s : State)

/-- A path resolved for a context, from its root or from a base token (R246). -/
def State.resolve (s : State) (x : Nat) (base : Option Word) (path : List Byte) : Ans :=
  match pathParts base.isSome path with
  | .error o => .no s 0xB2 0 (BitVec.ofNat 64 o)
  | .ok cs =>
    let start : Except (Nat × Word) (Nat × Nat) := match base with
      | none => .ok ((s.ctx x).root, x)
      | some t => match s.useToken x t with
        | .error sub => .error (sub, t)
        | .ok n => .ok (n, tokCtx t)
    match start with
    | .error (sub, t) => .no s 0xB0 sub t
    | .ok (n, y) =>
      match s.walkFrom (s.shown s.bindDepth n) cs with
      | .error o => .no s 0xB0 0 (BitVec.ofNat 64 o)
      | .ok k => .ok s (s.token y k)

/-- OPEN of a node (R247): memory, engine and system objects, a directory's listing or its make handle. -/
def State.openNode (s : State) (x n rights : Nat) (tok : Word) : Ans :=
  let k := s.node n
  if (List.range 6).any fun i => bit rights i && !bit (s.grant x n) i then
    .no s 0x12 1 tok
  else match s.freeHandle x with
    | none => .no s 0xB3 1 0
    | some h =>
      if k.type = 1 then
        if bit rights 1 then
          let (s1, oid) := s.newObj { kind := .make n, size := 1, owner := x }
          .ok (s1.openAs x h n oid 1024 rights) (s.openPtr h n)
        else
          let l := s.listing x (tokCtx tok) n
          let (s1, oid) := s.newObj { kind := .listing n, size := l.length, owner := x }
          .ok ((s1.poke (locObj oid 0) l).openAs x h n oid l.length rights) (s.openPtr h n)
      else
        let o := s.obj k.oid
        let size := match o.kind with
          | .file f a => (s.sysFile f a).length
          | _ => o.size
        .ok (s.openAs x h n k.oid size rights) (s.openPtr h n)

/-- The directory in which OPEN with CREATE makes its object: /obj, or a directory bound onto it (R247, R249). -/
def State.createDir (s : State) (y n : Nat) : Option Nat :=
  match s.objDir y with
  | none => none
  | some o =>
    let on (d : Nat) : Bool := d == o || s.binds.any fun b => b.place == o && b.node == d
    if on n then (s.dirs s.bindDepth n).find? on else none

/-- The places left to the scrubber at which no extent stands. -/
def State.idleScrub (s : State) : List (Nat × Nat × Nat) :=
  s.scrub.filter fun p => !(s.objs.any fun r => r.2.ext.any fun f => f.2.z && f.2.lane f.1 == p.1 && f.2.slot == p.2.1)

/-- The first extents of an object of `need` extents stand where the scrubber has not cleared what a freed object left, and
carry Z; how many the firmware places so is free (R320, R351; log entry 121). -/
def State.reused (s : State) (need : Nat) : State × SMap Extent :=
  let idle := s.idleScrub.filter fun p => p.1 < 256 && s.slotOk (p.1 / 32) (p.1 % 32) p.2.1
  let most := min need idle.length
  if most = 0 then (s, [])
  else
    let (s1, f) := s.takeFree
    let ps := idle.take ((Config.free f).toNat % (most + 1))
    (s1, ((List.range ps.length).zip ps).map fun (x, p) =>
      (x, { present := true, was := true, z := true, die := p.1 / 32, ch := p.1 % 32, slot := p.2.1 }))

/-- OPEN with CREATE (R247, R383). What the firmware makes in the host's /obj is a save object: it is the host's, pinned, and the
host may read it (R374; log entry 145). -/
def State.create (s : State) (x n size rights : Nat) (lazy_ : Bool) (tok : Word) (sizeW : Word) : Ans :=
  match s.createDir (tokCtx tok) n with
  | none => .no s 0xB1 5 tok
  | some dir =>
    if size = 0 ∨ size > 2 ^ 42 then .no s 0x11 0 sizeW
    else match s.freeHandle x with
      | none => .no s 0xB3 1 0
      | some h =>
        let need := if lazy_ then 0 else (size + 2 ^ 18 - 1) / 2 ^ 18
        if s.capacity < s.inUse + need then .no s 0xB3 2 0
        else
          let (s0, ext) := s.reused need
          let y := (s.node dir).ctx
          let save := (s.ctx x).dom == 2 && (s.ctx y).dom == 1
          let pin := save || bit rights 5
          let o : Obj := { kind := if save then .save else .memory, size := size, owner := if save then y else x
                           isLazy := lazy_, side := bit rights 5, ext := ext.map fun r => (r.1, { r.2 with pin := pin })
                           weight := Config.weightMark s.oidNext, avoid := s.closedChannels }
          let (s1, oid) := s0.newObj o
          let (s2, k) := s1.grow dir (hexName 16 oid)
            { type := 2, ctx := y, oid := oid, grants := if save then [(y, 1)] else [(x, rights)] }
          let s3 := if (s.ctx y).dom = 1 then
              (s2.growObj dir (hexName 16 oid ++ nameOf ['.', 'f', 'm', 't']) { type := 5, ctx := x } { kind := .file 8 k, size := 8 }).1
            else s2
          .ok (s3.openAs x h k oid size rights) (s3.openPtr h k)

/-- A context may bind at a place (R241). -/
def State.mayBind (s : State) (x p : Nat) : Bool := s.reaches x (s.node p).ctx

/-- An accepted bind or unbind enters the log (R346). -/
def State.logBind (s : State) (x flag : Nat) (new old : Word) (place : Nat) : State :=
  let y := (s.node place).ctx
  let s1 : State := { s with
    bindLog := s.bindLog ++ [{ time := s.dtime, issuer := x, flag := flag, new := new, old := old, tree := y }] }
  if (s.ctx y).dom = 0 then s1.modCtx y fun k => { k with logn := k.logn + 1 } else s1

/-- BIND and UNBIND (R249): the checks in the order of its table, then the bind and its log record. -/
def State.bindDo (s : State) (x m : Nat) (un : Bool) (new old : Word) : Ans :=
  match s.useToken x new, s.useToken x old with
  | .error sub, _ => .no s 0xB0 sub new
  | _, .error sub => .no s 0xB0 sub old
  | .ok n, .ok p =>
    if !s.mayBind x p then .no s 0xB1 1 old
    else if !un && bit m 0 && ((s.node n).type ≠ 1 || (s.node (s.shown s.bindDepth p)).type ≠ 1) then .no s 0xB1 2 old
    else if (s.node p).prot && (s.ctx x).dom ≠ 2 then .no s 0xB1 3 old
    else if un then
      match (s.binds.reverse.find? fun b => b.node == n && b.place == p) with
      | none => .no s 0xB1 4 old
      | some b => .ok ({ s with binds := (s.binds.reverse.erase b).reverse }.logBind x (m % 32 + 128) new old p) 0
    else
      let b : Bind := { place := p, node := n, layer := bit m 0, rank := bits m 1 4, issuer := x }
      .ok ({ s with binds := s.binds ++ [b] }.logBind x (m % 32) new old p) 0

/-- A make through a directory's handle (R382): each missing component becomes an empty directory; a component beneath /sys or
/ctx/self is refused to all but firmware. -/
def State.makeGo (s : State) (x : Nat) : Nat → List (Nat × List Byte) → State × Option (Nat × Nat)
  | _, [] => (s, none)
  | n, (_, c) :: cs =>
    if (s.node n).prot && (s.ctx x).dom ≠ 2 then (s, some (0xB1, 3))
    else match s.find n c with
    | some k =>
      if (s.node k).type = 1 then State.makeGo s x k cs
      else if (s.node k).prot && (s.ctx x).dom ≠ 2 && !cs.isEmpty then (s, some (0xB1, 3))
      else (s, some (0xB1, 6))
    | none =>
      let d := ((s.dirs s.bindDepth n).head?).getD n
      let (s1, k) := s.grow d c { type := 1, ctx := (s.node d).ctx }
      State.makeGo s1 x k cs

/-- The make of a relative path: refused whole, with nothing made (R382). -/
def State.makePath (s : State) (x n : Nat) (path : List Byte) : State × Nat × Nat :=
  match pathParts true path with
  | .error _ => (s, 0xB2, 0)
  | .ok cs => match s.makeGo x (s.shown s.bindDepth n) cs with
    | (_, some (cause, sub)) => (s, cause, sub)
    | (s1, none) => (s1, 0, 0)

end Sys2Proof.Machine
end

