-- ==== Sys2Proof/Machine/System.lean ====
section
/-! DEFINITION. What row F does at step 5 (R245 to R260): the requests that wait for the NSE, the supervisor or
the root of trust, revocations and shoot-downs (R347 to R350), stops, the partition table and trap return. -/

namespace Sys2Proof.Machine

/-! ### Requests that wait for an answer (R240, R245) -/

/-- The effect that step 5 of a thread's commit has come to, changed. -/
def State.modHead (s : State) (c t : Nat) (f : Eff → Eff) : State :=
  s.modThr c t fun x => { x with s5 := match x.s5 with | [] => [] | e :: l => f e :: l }

/-- A request leaves for the hub once every earlier write of its thread has performed; step 5 waits for its
answer (R240, R245). `st` is 1 while it waits, 2 once answered, 3 once refused. -/
def State.askHub (s : State) (c t : Nat) (e : Eff) : Disp :=
  match e.st with
  | 0 =>
    if !s.drainedTo c t e.seq then .stall s 0x0C
    else
      let s1 : State := { s with
        hubNext := s.hubNext + 1
        hub := s.hub ++ [{ e := { e with st := 0, n := e.n && e.op == 0xF0 }, seq := e.seq, ctx := e.ctx }] }
      .stall (s1.modHead c t fun w => { w with st := 1 }) 0x0C
  | 1 => .stall s 0x0C
  | 2 => .done (if e.op = 0xF0 ∨ e.op = 0xF1 then s.modThr c t fun x => x.setG e.rd e.ans else s)
  | _ => .refuse s (e.vb.toNat / 256) (e.vb.toNat % 256) e.ans

/-- A reply leaves for the requester of a frame: to the host, or to the peer package that sent it. It has its request's
TYPE, FLAGS, CTX and SEQ; its LEN is the number of the bytes it returns (R343, log entry 116). -/
def State.reply (s : State) (f : Frame) (status sub : Nat) (token arg : Word) (data : List Byte) : State :=
  { s with replies := s.replies ++ [{
      type := f.type.toNat, flags := f.flags.toNat, ctx := f.ctx.toNat, peer := match f.peer with | some p => p + 1 | none => 0
      seq := f.seq.toNat, status := status, sub := sub, token := token, arg := arg, data := data }] }

/-- An answer reaches who waits for it: the frame's requester, or the thread's step-5 record (R245, R343, R377). -/
def State.answer (s : State) (r : HubReq) (cause sub : Nat) (v : Word) : State :=
  match r.frame with
  | some f => s.reply f cause sub (if cause = 0 then v else 0) 0 []
  | none =>
    s.modThr r.e.core r.e.thr fun x => { x with s5 := x.s5.map fun e =>
      if e.seq = r.seq ∧ e.st = 1 then
        { e with st := if cause = 0 then 2 else 3, ans := v, vb := if cause = 0 then e.vb else BitVec.ofNat 64 (cause * 256 + sub) }
      else e }

/-! ### Shoot-downs (R251, R348 to R350) -/

/-- The station of the hub die, and the number that stands for a core's handle check cache, in a shoot-down. -/
def hubStation : Nat := 64
def coreStation (c : Nat) : Nat := 128 + c

/-- Everyone who acknowledges a shoot-down on a context's handle (R349). -/
def State.shootAll (s : State) (x : Nat) : List Nat :=
  List.range 64 ++ [hubStation] ++ (s.partsOf x).flatMap fun tag => (s.part tag).cores.map coreStation

/-- A shoot-down of a handle sets out. -/
def State.shoot (s : State) (x h : Nat) (close : Bool) : State :=
  let all := s.shootAll x
  { s with shoots := s.shoots ++ [{ ctx := x, hnd := h, toReach := all, toAck := all, entry := false, close := close, since := s.cyc }] }

/-- The stations and handle check caches of a scope instance of a thread (R94, R251). -/
def State.scopeStations (s : State) (c scope : Nat) : List Nat :=
  let cores (p : Nat → Bool) : List Nat := ((s.cores.map (·.1)).filter p).map coreStation
  match scope with
  | 0 | 1 => [coreStation c]
  | 2 => cores fun d => clusterOf d == clusterOf c
  | 3 => (List.range 8).map (dieOf c * 8 + ·) ++ cores fun d => dieOf d == dieOf c
  | _ => List.range 64 ++ [hubStation] ++ cores fun _ => true

/-- A deferred effect that performs under the check of its issue (R140, R157): a store, an arrival or DQPOP. -/
def underCheck (op : Nat) : Bool :=
  (0x42 ≤ op && op ≤ 0x4A) || op == 0x71 || op == 0x7A || op == 0x7B || op == 0xC1 || op == 0xEE

/-- A thread's request on a handle that passed its check at a station and has not performed (R349). -/
def State.passed (s : State) (x h st : Nat) : Bool :=
  let at_ (ls : List Nat) : Bool := match ls with | [] => false | l :: _ => locKind l == 2 && s.stationAt l == st
  s.cores.any fun c => c.2.th.any fun r =>
    let y := r.2
    y.ctx == x &&
      (y.cq.any (fun e => e.hnd == h && at_ e.locs)
        || y.s5.any (fun e => underCheck e.op && e.hnds.contains h && at_ e.locs)
        || y.grp.defs.any (fun e => underCheck e.op && e.hnds.contains h && at_ e.locs)
        || y.grp.res.any fun e => e.hnd == h && !e.done && !e.isWait && at_ (e.parts.map (·.loc)))

/-- The requests that wait for the end of a handle's revocation or close. -/
def HubReq.waitsOn (r : HubReq) (x h : Nat) : Bool :=
  r.e.st == 1 && ((r.e.op == 0xF5 && r.e.vc.toNat == x && r.e.vb.toNat == h) || (r.e.op == 0xF2 && r.ctx == x && fpHnd r.e.va == h))

/-- The last acknowledgement has come: REVOKING becomes REVOKED and waiting REVOKEs complete, and a CLOSE leaves
the number INVALID (R347, R349). -/
def State.endShoot (s : State) (k : Shoot) : State :=
  if k.entry then s
  else
    let s1 := if k.close then s
      else s.setDesc k.ctx k.hnd { s.desc k.ctx k.hnd with st := .revoked }
    let waits := s1.hub.filter fun r => r.waitsOn k.ctx k.hnd
    let s2 : State := { s1 with hub := s1.hub.filter fun r => !r.waitsOn k.ctx k.hnd }
    let closes := waits.any fun r => r.e.op == 0xF2
    let s3 := if k.close || closes then s2.dropHandle k.ctx k.hnd else s2
    (waits.foldl (fun (acc : State × Bool) r =>
      if r.e.op = 0xF2 then
        (if acc.2 then (acc.1.answer r 0x13 0 r.e.va, true) else (acc.1.answer r 0 0 0, true))
      else (acc.1.answer r 0 0 0, acc.2)) (s3, false)).1

/-- The station of an extent forgets its entry at a location: its next access walks (R251, R315). -/
def State.dropEntry (s : State) (l st : Nat) : State :=
  let oid := locId l - oidTree
  let k := locOff l / 4096
  if locId l < oidTable ∧ depthOf k + 1 = treeLevels (s.obj oid).size then
    let x := leafExtent k (locOff l / 16 % 256)
    let e := (s.obj oid).entry oid x
    if e.station x = st then s.setExtent oid x { e with cached := false } else s
  else s

/-- A station drops its copy of the table entry at a location (R105, R251). -/
def State.dropCopy (s : State) (l st : Nat) : State :=
  ({ s with
    stale := (s.stale.map fun k => if k.loc = l then { k with left := k.left.filter (· != st) } else k).filter fun k =>
      !k.left.isEmpty } : State).dropEntry l st

/-- SHOOTDOWN_RECEIPT (R251, R349): a station or a core drops the handle, or its copy of a table's entry. -/
def execShootdownReceipt (k st : Nat) (s : State) : Host.Outcome State Fault Refusal :=
  match s.shoots[k]? with
  | none => .next s
  | some q =>
    let s1 := if q.entry then s.dropCopy q.loc st else s
    .next { s1 with shoots := s1.shoots.set k { q with toReach := q.toReach.filter (· != st) } }

/-- SHOOTDOWN_ACK (R349): the NSE counts an acknowledgement, which a station gives once the requests that passed
its check before have performed. -/
def execShootdownAck (k st : Nat) (s : State) : Host.Outcome State Fault Refusal :=
  match s.shoots[k]? with
  | none => .next s
  | some q =>
    if q.toReach.contains st || !q.toAck.contains st || (!q.entry && s.passed q.ctx q.hnd st) then .next s
    else
      let q1 := { q with toAck := q.toAck.filter (· != st) }
      if q1.toAck.isEmpty then .next (({ s with shoots := s.shoots.eraseIdx k } : State).endShoot q1)
      else .next { s with shoots := s.shoots.set k q1 }

/-! ### The NSE, the supervisor and the root of trust (R245 to R260) -/

/-- How the NSE's read of a path went (R246). -/
inductive PathRead where
  | ok (s : State) (p : List Byte)
  | no (s : State) (cause sub : Nat) (info : Word)
  | wait (s : State) (oid x : Nat)

/-- The path at a pointer, byte by byte up to its zero byte, with the read right (R244, R246). -/
def State.readPath (c x : Nat) (p : Word) : Nat → List Byte → State → PathRead
  | 0, acc, s => .no s 0xB2 0 (BitVec.ofNat 64 acc.length)
  | f + 1, acc, s =>
    match fpMove p acc.length with
    | none => .no s 0x17 0 p
    | some q => match s.translate c x [] q 1 1 rRead with
      | .error (cause, sub) => .no s cause sub (faultPtr cause q)
      | .ok k => match k.np with
        | some (oid, e) => .wait (s.report oid e) oid e
        | none => match s.engRead (agHub 0) k.loc 1 with
          | .wait s1 => .wait s1 0 0
          | .bad => .no s 0xA0 0 q
          | .bytes s1 l =>
            let b := l.headD 0#8
            if b = 0#8 then .ok s1 acc else State.readPath c x p f (acc ++ [b]) s1

/-- WALK at the NSE (R246). -/
def State.doWalk (s : State) (r : HubReq) : Ans :=
  let base := if r.e.n then some r.e.vb else none
  match r.frame with
  | some f => s.resolve r.ctx base (f.payload.take (f.payload.length - 1))
  | none =>
    match State.readPath r.e.core r.ctx r.e.va 1024 [] s with
    | .no s1 cause sub info => .no s1 cause sub info
    | .wait s1 _ _ => .wait s1
    | .ok s1 p => s1.resolve r.ctx base p

/-- OPEN at the NSE (R247). -/
def State.doOpen (s : State) (r : HubReq) : Ans :=
  match s.useToken r.ctx r.e.va with
  | .error sub => .no s 0xB0 sub r.e.va
  | .ok n =>
    if bit r.e.m 6 then s.create r.ctx n r.e.vb.toNat (r.e.m % 64) (bit r.e.m 7) r.e.va r.e.vb
    else s.openNode r.ctx n (r.e.m % 64) r.e.va

/-- The request in place `k` waits for the end of its sequence. -/
def State.hubWaits (s : State) (k : Nat) (r : HubReq) : State :=
  { s with hub := s.hub.set k { r with e := { r.e with st := 1 } } }

/-- CLOSE at the NSE (R248, R347). -/
def State.doClose (s : State) (k : Nat) (r : HubReq) : Ans :=
  let h := fpHnd r.e.va
  let d := s.desc r.ctx h
  if h = 0 then .no s 0x13 2 r.e.va
  else match d.st with
    | .invalid => .no s 0x13 0 r.e.va
    | .valid => .wait (((s.setDesc r.ctx h { d with st := .invalid }).shoot r.ctx h true).hubWaits k r)
    | .revoking => .wait (s.hubWaits k r)
    | .revoked => .ok (s.dropHandle r.ctx h) 0

/-- REVOKE at the NSE (R250, R349). -/
def State.doRevoke (s : State) (k : Nat) (r : HubReq) : Ans :=
  let x := r.e.vc.toNat
  let h := r.e.vb.toNat
  let d := s.desc x h
  match d.st with
  | .invalid => .no s 0x13 0 r.e.va
  | .valid => .wait (((s.setDesc x h { d with st := .revoking }).shoot x h false).hubWaits k r)
  | .revoking => .wait (s.hubWaits k r)
  | .revoked => .ok s 0

/-- PMACK at the supervisor (R256). -/
def State.doPmack (s : State) (r : HubReq) : Ans :=
  let v := r.e.va.toNat
  let k := s.ctx r.ctx
  if v > s.pmVer then .no s 0xA5 0 r.e.va
  else if v ≤ k.pmver ∧ v ≠ s.pmVer then .ok s 0
  else .ok ((if v = s.pmVer then s.recompute r.ctx else s).modCtx r.ctx fun q => { q with pmver := v, due := q.due.filter fun d => decide (v < d.1) }) 0

/-- SSTOP at the supervisor (R257): its refusals in the order of the table. -/
def State.doSstop (s : State) (r : HubReq) : Ans :=
  let one := bit r.e.m 0
  let t := r.e.va.toNat
  if r.e.vb.toNat < s.dtime + 34000 then .no s 0x93 1 r.e.va
  else if s.stops.any fun k => k.core == one && k.target == t then .no s 0x93 2 r.e.va
  else if (!one && !(s.part t).alive) || (one && (t ≥ 2 ^ 14 || t / 16 % 128 ≥ 80 || (isCC t && coreIx t ≠ 0))) then .no s 0x93 3 r.e.va
  else .ok { s with stops := s.stops ++ [{ core := one, target := t, time := r.e.vb.toNat }] } 0

/-- An entry of a partition's table is written into every router (R258). -/
def State.partw (s : State) (tag name phys : Nat) (v : Bool) : State :=
  let s1 := if tag = 0 then s else s.modPart tag fun p => { p with map := SMap.set 0 name (if v then phys + 1 else 0) p.map }
  if v then s1.modCore phys fun k => { k with ptag := tag } else s1

/-- PARTW at the routers. -/
def State.doPartw (s : State) (r : HubReq) : Ans :=
  let key := r.e.va.toNat
  let ent := r.e.vb.toNat
  .ok (s.partw (bits key 16 6) (key % 2 ^ 14) (ent % 2 ^ 14) (bit ent 63)) 0

/-- ATTQ at the root of trust: a full queue ends the request at its counter (R260). -/
def State.doAttq (s : State) (r : HubReq) : Ans :=
  let l := r.e.data
  let cc := wordAt l 0x30
  if s.quotes.length ≥ 64 then .ok (s.oweCounter (agHub 3) { r.e with ctx := r.ctx } cc 0xB5) 0
  else
    .ok { s with quotes := s.quotes ++ [{ nonce := l.take 32, ptr := wordAt l 0x20, cc := cc, ctx := r.ctx, core := r.e.core, thr := r.e.thr, head := r.e.head }] } 0

/-- The agent at the hub that a request goes to joins its thread's frontier at `.pkg` (R245). -/
def State.hubJoin (s : State) (r : HubReq) : State :=
  if r.frame.isSome then s else s.joinViews (agHub 0) 4 [s.viewFrom (agThread r.e.core r.e.thr) 4]

/-- What the hub makes of a request. -/
def State.hubDo (s : State) (k : Nat) (r : HubReq) : Ans :=
  match r.e.op with
  | 0xF0 => s.doWalk r
  | 0xF1 => s.doOpen r
  | 0xF2 => s.doClose k r
  | 0xF3 => s.bindDo r.ctx r.e.m false r.e.va r.e.vb
  | 0xF4 => s.bindDo r.ctx 0 true r.e.va r.e.vb
  | 0xF5 => s.doRevoke k r
  | 0xF9 => s.doPmack r
  | 0xFB => s.doSstop r
  | 0xFC => s.doPartw r
  | _ => s.doAttq r

/-- The request in place `k` leaves the hub. -/
def State.dropHub (s : State) (k : Nat) : State := { s with hub := s.hub.eraseIdx k }

/-- A request is served: answered, refused, or kept. -/
def State.hubServe (s : State) (k : Nat) (r : HubReq) : State :=
  match (s.hubJoin r).hubDo k r with
  | .ok s1 v => (s1.dropHub k).answer r 0 0 v
  | .no s1 cause sub info => (s1.dropHub k).answer r cause sub info
  | .wait s1 => s1

/-- NSE_ANSWER (R245): the request in place `k` is served; one whose sequence is under way is answered by the last
acknowledgement. -/
def execNseAnswer (k : Nat) (s : State) : Host.Outcome State Fault Refusal :=
  match s.hub[k]? with
  | none => .next s
  | some r => if r.e.st = 1 then .next s else .next (s.hubServe k r)

/-! ### TSHOOT, TRET and HALT at step 5 -/

/-- TSHOOT: the table stores of the thread perform, as TFENCE waits for them (R152); the shoot-down goes to the scope instance, and step 5 waits for every
acknowledgement; `ans` holds the number of the shoot-down (R251). -/
def State.doTshoot (s : State) (c t : Nat) (e : Eff) : Disp :=
  if e.st = 0 then
    if s.tableBusy c t e.seq then .stall s 0x0D
    else
      let n := s.hubNext
      let all := s.scopeStations c (e.m % 8)
      let s1 : State := { s with
        hubNext := n + 1
        shoots := s.shoots ++ [{ ctx := 2 ^ 12, hnd := n, toReach := all, toAck := all, entry := true, loc := e.locs.headD 0 }] }
      .stall (s1.modHead c t fun w => { w with st := 1, ans := BitVec.ofNat 64 n }) 0x0D
  else if s.shoots.any fun k => k.entry && k.hnd == e.ans.toNat then .stall s 0x0D
  else .done s

/-- The pair of a duo task starts again from its record, its logs empty (R285, R387, R395). -/
def State.duoRestart (s : State) (c t : Nat) : State :=
  let x := s.thr c t
  let s1 := (s.launchThread c t x.lid x.wid true).pairBegins x.lid ((s.launch x.lid).pairOf c t)
  match s.duoMate c t with
  | none => s1.thirdBegins x.lid c
  | some d => (s1.discard d t).launchThread d t x.lid x.wid true

/-- A trapped thread becomes ready by a TRET, whose view its first line fetch joins; the TRAP, SYSC or barrier wait
that a refusal or a late fault put off follows before it issues (R157, R255). -/
def State.tretReady (s : State) (c t : Nat) (pc : Word) (vs : List View) : State :=
  let x := s.thr c t
  let s1 := s.resumeThread c t pc vs
  match x.postponed with
  | .none => s1
  | p => s1.modThr c t fun y =>
      { y with postponed := .none, phase := .step5, s5 := [], post := p
               nextPc := match p with | .msg .. => x.nextPc | _ => fpCode pc }

/-- The result of an assist for a vector element: it is the element, and the operation goes on (R72, R255). -/
def State.assistElem (s : State) (c t : Nat) (v : Word) : State :=
  let k := s.core c
  match (List.range k.vq.length).find? fun i => match k.vq[i]? with | some o => o.held.isSome && o.e.thr == t | none => false with
  | none => s
  | some i => match k.vq[i]? with
    | none => s
    | some o =>
      let j := o.held.getD 0
      let w := match o.out[j]? with | some r => r.2.length | none => 0
      let out := match o.out[j]? with | some r => o.out.set j (r.1, leBytes w v.toNat) | none => o.out
      ((s.setCore c { k with vq := k.vq.set i { o with held := none, out := out } }).modThr c t fun x =>
        { x with assist := none }).vecAssist c i

/-- TRET mode 3 (R255). -/
def State.tretAssist (s : State) (c t : Nat) (v : Word) (vs : List View) : State :=
  let x := s.thr c t
  match x.assist with
  | none => s
  | some a =>
    if a.vector then
      let s1 := s.assistElem c t v
      if a.stopped && x.st = 4 then s1.tretReady c t x.resume vs else s1
    else if x.st = 4 then
      (s.modThr c t fun y => { y with assist := none, answers := y.answers ++ [(a.pos, v)] }).tretReady c t x.resume vs
    else s

/-- TRET mode 2: the thread becomes free, and what it held is released (R255). -/
def State.tretKill (s : State) (c t : Nat) : State :=
  let s1 := s.modCore c fun k => { k with
    hold := k.hold.filter fun r => r.2 != t + 1
    comps := k.comps.map fun r => (r.1, r.2.filter fun w => w.thr != t)
    q := k.q.map fun r => (r.1, r.2.map fun e => if e.thr = t then { e with loose := true } else e) }
  (s1.modThr c t fun x => { x with mbx := [], log := [] }).freeThread c t

/-- TRET at step 5, after every earlier write of its thread, as a release at `.pkg` (R255). -/
def State.doTret (s : State) (c t : Nat) (e : Eff) : Disp :=
  let d := e.va.toNat / 8
  let u := e.va.toNat % 8
  let x := s.thr d u
  if !s.drainedTo c t e.seq then .stall s 0x0F
  else
    let vs := [s.viewFrom (agThread c t) 4]
    if e.m = 3 then .done (s.tretAssist d u e.vb vs)
    else if x.st ≠ 4 then .done s
    else match e.m with
      | 0 => .done (if x.duo then s.duoRestart d u else s.tretReady d u x.resume vs)
      | 1 => .done (s.tretReady d u e.vb vs)
      | _ => .done (s.tretKill d u)

/-- HALT (R259). -/
def State.doHalt (s : State) (c : Nat) : State := s.modCore c fun k => { k with halted := true }

/-- Row F at step 5. -/
def State.sysEffect (s : State) (c t : Nat) (e : Eff) : Disp :=
  match e.op with
  | 0xF7 => .done (s.csrWrite c e)
  | 0xF8 => s.doTret c t e
  | 0xFA => s.doTshoot c t e
  | 0xFD => .done (s.doHalt c)
  | _ => s.askHub c t e

end Sys2Proof.Machine
end

