-- ==== Sys2Proof/Machine/Queues.lean ====
section
/-! DEFINITION. Command queues (R353 to R364): the control block, GO and reset, the read index, the parse of a packet,
indirect buffers and graph bodies, packet faults, and the parser cores. -/

namespace Sys2Proof.Machine

/-- The agent of a queue's command processor. -/
def agQueue (q : Nat) : Nat := agHub (16 + q)

/-! ### Queue nodes (R353; log entry 40) -/

/-- A decimal digit. -/
def decDigit (n : Nat) : Byte := BitVec.ofNat 8 (48 + n % 10)

/-- The decimal digits of a number below 10,000, without leading zeros. -/
def decDigits (n : Nat) : List Byte :=
  if n < 10 then [decDigit n]
  else if n < 100 then [decDigit (n / 10), decDigit n]
  else if n < 1000 then [decDigit (n / 100), decDigit (n / 10), decDigit n]
  else [decDigit (n / 1000), decDigit (n / 100), decDigit (n / 10), decDigit n]

/-- /queue/n of a context has the key 4,096 × context + n. Queue 0 stands in a context's tree from its creation on (R18), any
other from the first write of the host to its control block on (log entry 40); the command processors serve 256 queues at
most (R19). -/
def State.withQueue (s : State) (q : Nat) : State :=
  let x := q / 4096
  if (s.queue q).alive || !(s.ctx x).alive || (s.ctx x).ending ≠ 0 || 256 ≤ (s.queues.filter fun r => r.2.alive).length then s
  else match s.under (s.ctx x).root [nameOf ['q', 'u', 'e', 'u', 'e']] with
    | none => s
    | some dir =>
      let (s1, ring) := s.newObj { kind := .ring q, size := 1024, owner := x }
      let (s2, ctl) := s1.newObj { kind := .ctl q, size := 64, owner := x }
      let (s3, err) := s2.newObj { kind := .err q, size := 64, owner := x }
      let (s4, n) := s3.grow dir (decDigits (q % 4096)) { type := 3, ctx := x, oid := ring }
      let (s5, _) := s4.grow n (nameOf ['c', 't', 'l']) { type := 3, ctx := x, oid := ctl }
      let (s6, _) := s5.grow n (nameOf ['e', 'r', 'r']) { type := 3, ctx := x, oid := err }
      let s7 := (s6.poke (locObj ctl 0x10) (leBytes 8 2)).poke (locObj ctl 0x20) (leBytes 8 4)
      s7.modQueue q fun _ => { ctx := x, num := q % 4096, ring := ring, ctl := ctl, err := err, alive := true }

/-! ### The read index (R357, R358, R365) -/

/-- The index that may be published: c, or the first packet of the ring that has been parsed and not journaled (R365;
log entry 41). -/
def Queue.pubIndex (k : Queue) : Nat :=
  match k.pkts.find? fun p => !p.started && p.parent.isNone with
  | some p => p.idx
  | none => k.c

/-- RIDX_PUBLISH (R353, R358): a read index goes to RIDX by a release at `.pkg`. -/
def State.publish (s : State) (q v : Nat) : State :=
  let l := locObj (s.queue q).ctl 8
  ((s.put (agQueue q) (locs l 8) (leBytes 8 v) [] (some 4)).heat (agQueue q) l true).modQueue q fun w =>
    { w with sincePub := 0, lastPub := v, pubOwed := w.pubOwed.filter fun i => decide (v < i) }

/-- A publication that the count of packets or PUB asks for is made as far as the journal holds the packets (R358, R365). -/
def State.publishOwed (s : State) (q : Nat) : State :=
  let k := s.queue q
  match (k.pubOwed.filter fun i => decide (i ≤ k.pubIndex)).getLast? with
  | some v => if k.lastPub < v then s.publish q v else s
  | none => s

/-- STATE of a queue and of its control block. -/
def State.setQState (s : State) (q v : Nat) : State :=
  (s.poke (locObj (s.queue q).ctl 0x10) (leBytes 8 v)).modQueue q fun k => { k with state := v }

/-- A packet's TYPE, FLAGS and LEN. -/
def pktType (b : List Byte) : Nat := leAt b 0 1
def pktFlags (b : List Byte) : Nat := leAt b 1 1
def pktUnits (b : List Byte) : Nat := leAt b 2 1
/-- The buffer's pointer and length. -/
def Pkt.ptr (p : Pkt) : Word := wordAt p.bytes 8
def Pkt.len (p : Pkt) : Nat := leAt p.bytes 0x10 8

/-- The indirect buffer that the command processor reads: the latest IB packet with packets still to parse. -/
def Queue.buffer (k : Queue) : Option Pkt :=
  (k.pkts.filter fun p => pktType p.bytes == 6 && decide (p.prog < leAt p.bytes 0x10 8)).getLast?

/-- The command processor parses: the queue runs, or, after a recovery of a queue in error, what lies before the packet at
fault is parsed again (R359, R365). -/
def Queue.parses (k : Queue) : Bool :=
  k.state == 0 || (k.state == 1 && match k.buffer with
    | some p => decide (p.idx < k.errIdx) || (p.idx == k.errIdx && decide (p.prog < k.errOff.getD 0))
    | none => decide (k.c < k.errIdx)
        || (k.c == k.errIdx && k.errOff.isSome && !k.pkts.any fun p => p.idx == k.errIdx && p.parent.isNone))

/-- No granule is watched any longer. -/
def Queue.unwatch (k : Queue) : Queue := { k with granules := [], gids := [], hits := [] }

/-- PACKET_FAULT (R359): the queue stops at the packet's first unit, publishes, writes its error record and raises the
APC's interrupt. -/
def State.packetFault (s : State) (q idx : Nat) (hdr : Word) (cause sub under : Nat) (ib : Option (Word × Nat)) : State :=
  let k := s.queue q
  let off := (k.buffer.filter fun w => w.idx == idx).map (·.prog)
  let s1 := s.modQueue q fun w => { w with c := idx, valid := false, irq := true, errIdx := idx, errOff := off }
  let rec_ := leBytes 8 idx ++ word8 hdr ++ leBytes 1 cause ++ leBytes 1 sub ++ leBytes 1 under ++ leBytes 5 0
    ++ leBytes 8 s.dtime ++ (match ib with | some (p, o) => word8 p ++ leBytes 8 o | none => leBytes 16 0) ++ leBytes 16 0
  let s2 := s1.setQState q 1
  ((s2.publish q (max k.lastPub (s2.queue q).pubIndex)).poke (locObj k.err 0) rec_)

/-! ### GO and the control block (R299, R353, R359) -/

/-- The logical cores of a reservation's bitmap, 2^14 bits (R353). -/
def bitmapCores (l : List Byte) : List Nat :=
  (List.range (8 * l.length)).filter fun n => bit (l.getD (n / 8) 0#8).toNat (n % 8)

/-- What the bitmap at a pointer holds; none where its check fails. A zero pointer reserves nothing. -/
def State.readResv (s : State) (x : Nat) (p : Word) : Option (List Nat) :=
  if p = 0 then some []
  else match s.checkHandle x p 2048 8 rRead with
    | .error _ => none
    | .ok k => if k.np.isSome then none else some (bitmapCores (s.peek k.loc 2048))

/-- The Vats that the promised queues of a context's partitions take, a new share of one of them included (R299). -/
def State.vatShares (s : State) (x q vats : Nat) : Nat :=
  s.queues.foldl (fun a r => if r.2.ctx = x ∧ r.2.cls ≠ 0 ∧ r.1 ≠ q ∧ r.2.alive then a + r.2.vats else a) vats

/-- A queue's configuration from its control block (R353), none where the firmware refuses it (R299): the Vats of a
partition are its VATS on each of its clusters (R368). DESIGN CHOICE (log entry 73): a reserved field of the table that is not
zero fails the check, and until then reads back as it was written. -/
def State.queueConfig (s : State) (q : Nat) : Option Queue :=
  let k := s.queue q
  let w := s.ctlWord q 0x20
  let logu := bits w 0 4
  let cls := bits w 16 3
  let vats := w / 2 ^ 32
  let have_ := (s.parts.filter fun r => r.2.alive && r.2.ctx == k.ctx).foldl (fun a r => a + r.2.vats * (s.partClusters r.1).length) 0
  if bits w 4 4 ≠ 0 || bits w 20 12 ≠ 0 || s.ctlWord q 0x38 ≠ 0 || logu < 4 then none
  else match s.readResv k.ctx (BitVec.ofNat 64 (s.ctlWord q 0x28)) with
    | none => none
    | some resv =>
      if cls ≠ 0 ∧ 20 * s.vatShares k.ctx q vats > 19 * have_ then none
      else some { k with
        logu := logu, cls := cls, pubn := bits w 8 8, net := bit w 19, vats := vats, resv := resv
        npeer := BitVec.ofNat 64 (s.ctlWord q 0x30) }

/-- A host write of GO with RST (R353, R358, R359): with a configuration that holds the queue starts at RST, and RIDX is RST;
one that has run before, in error or stuck, does so from RIDX to WIDX only (log entry 73). -/
def State.queueGo (s : State) (q rst : Nat) : State :=
  let s0 := s.withQueue q
  let k := s0.queue q
  let s1 := s0.poke (locObj k.ctl 0x18) (leBytes 8 (rst % 2 ^ 63))
  if !k.alive then s
  else if (s.ctx k.ctx).ending ≠ 0 || (k.state ≠ 2 && (s1.ctlWord q 0 < rst || rst < k.lastPub)) then s1
  else match s1.queueConfig q with
    | none => s1
    | some k1 =>
      let s2 := s1.modQueue q fun _ => { k1.unwatch with
        c := rst, valid := false, irq := false, sincePub := 0, pubOwed := [], errIdx := 0, errOff := none
        pkts := k1.pkts.map fun p => if leAt p.bytes 0 1 = 6 then { p with prog := leAt p.bytes 0x10 8 } else p }
      ((s2.modObj k1.ring fun o => { o with size := 64 * 2 ^ k1.logu }).setQState q 0).publish q rst

/-- QUEUE_GO (R353, R359). -/
def execQueueGo (q : Nat) (rst : Nat) (s : State) : Host.Outcome State Fault Refusal :=
  .next (s.queueGo q rst)

/-- A write to a doubleword of a control block (R353): the cause it is refused with, or zero. -/
def State.ctlWrite (s : State) (q off : Nat) (v : Word) (dev : Bool) : State × Nat :=
  let s1 := s.withQueue q
  let k := s1.queue q
  if !k.alive then (s, 0xB0)
  else if dev && off ≠ 0 then (s1, 0x12)
  else if off = 0x18 then
    if bit v.toNat 63 then (s1.queueGo q (v.toNat % 2 ^ 63), 0) else (s1.poke (locObj k.ctl 0x18) (word8 v), 0)
  else if off = 0 ∨ off = 0x20 ∨ off = 0x28 ∨ off = 0x30 then (s1.poke (locObj k.ctl off) (word8 v), 0)
  else (s1, 0x12)

/-- QUEUE_CTL_WRITE (R353): a write by the host, or by another (`dev`), to a field of a control block. -/
def execQueueCtlWrite (q off : Nat) (v : Word) (dev : Bool) (s : State) : Host.Outcome State Fault Refusal :=
  let (s1, cause) := s.ctlWrite q off v dev
  .next (if cause = 0 then s1
    else { s1 with replies := s1.replies ++ [{ seq := 0, status := cause, sub := 0, token := 0, arg := 0, data := [] }] })

/-! ### Packets (R354 to R356) -/

/-- CRC-16 of R354 over one byte. -/
def crc16Byte (c b : Nat) : Nat :=
  (List.range 8).foldl (fun a _ => if 2 ^ 15 ≤ a then Nat.xor (a * 2 % 2 ^ 16) 0x1021 else a * 2) (Nat.xor c (b * 256))

/-- CRC-16 of R354: polynomial 0x1021, initial value 0xFFFF, no reflection. -/
def crc16 (l : List Byte) : Nat := l.foldl (fun c b => crc16Byte c b.toNat) 0xFFFF

/-- FEN and PROM. -/
def pktFen (b : List Byte) : Bool := bit (pktFlags b) 1
def pktProm (b : List Byte) : Bool := bit (pktFlags b) 2

/-- CHECK stands as R354 computes it. -/
def checkOk (b : List Byte) : Bool := leAt b 5 2 == crc16 (b.take 5 ++ [0#8, 0#8] ++ b.drop 7)

/-- The bits that doubleword `i` of a type's first unit may hold (R355). -/
def bodyMask (t i : Nat) : Nat :=
  let all := 2 ^ 64 - 1
  match t with
  | 2 | 4 => if i = 1 then all else 0
  | 3 => if i = 1 then all else if i = 2 then 2 ^ 49 - 1 else 0
  | 5 => if i = 1 ∨ i = 2 ∨ i = 4 then all else if i = 3 then 2 ^ 41 - 1 else 0
  | 6 => if i = 1 ∨ i = 2 then all else 0
  | 7 => if i = 1 ∨ i = 2 ∨ i = 4 then all else if i = 3 then 2 ^ 9 - 1 else 0
  | 8 => if i = 1 ∨ i = 2 then all else if i = 3 then 0x9F else 0
  | _ => 0

/-- A reserved field, a reserved flag or a value out of its range is set, RANK of a bind of KIND COVER among them (R242, R354,
R355; log entry 42). -/
def pktReserved (b : List Byte) : Bool :=
  let t := pktType b
  let len := leAt b 0x18 8
  leAt b 7 1 ≠ 0 || pktFlags b / 8 ≠ 0
    || (List.range 7).any (fun i => leAt b (8 * i + 8) 8 &&& bodyMask t (i + 1) != leAt b (8 * i + 8) 8)
    || (t != 1 && (b.drop 64).any (· != 0#8))
    || (t == 8 && !bit len 0 && bits len 1 4 ≠ 0) || (t == 5 && (len = 0 || 2 ^ 40 < len)) || (t == 7 && decide (256 < len))

/-- The units of a type. -/
def typeUnits (t : Nat) : Nat := if t = 1 then 2 else 1

/-- A pointer of a packet faults at parse: the cause (R8, R356). Handle 0 names no memory of the hub. -/
def State.hubPtr (s : State) (x : Nat) (p : Word) (n align right : Nat) : Option Nat :=
  if fpHnd p = 0 then some 0x23
  else match s.checkHandle x p n align right with
    | .error (c, _) => some c
    | .ok _ => none

/-- The check of a pointer's handle and right alone; the chunks check the rest (R231, R355). -/
def State.hubRight (s : State) (x : Nat) (p : Word) (right : Nat) : Option Nat :=
  let d := s.desc x (fpHnd p)
  if fpHnd p = 0 then some 0x23
  else match d.st with
    | .invalid => some 0x13
    | .valid => if bit d.rights right then none else some 0x12
    | _ => some 0x14

/-- A read by a parser core. -/
inductive HubRead where
  | ok (s : State) (l : List Byte)
  | no (cause : Nat)
  | wait (s : State)

/-- `n` bytes at a pointer read for a queue's context. -/
def State.hubRead (s : State) (q : Nat) (p : Word) (n align : Nat) : HubRead :=
  if fpHnd p = 0 then .no 0x23
  else match s.checkHandle (s.queue q).ctx p n align rRead with
    | .error (c, _) => .no c
    | .ok k =>
      match k.np with
      | some (oid, e) => .wait (s.report oid e)
      | none => match s.engRead (agQueue q) k.loc n with
        | .wait s1 => .wait s1
        | .bad => .no 0xA0
        | .bytes s1 l => .ok s1 l

/-- A pointer to a completion counter, which may be absent. -/
def State.hubCc (s : State) (x : Nat) (p : Word) (zero : Bool) : Option Nat :=
  if zero && p = 0 then none else s.hubPtr x p 8 8 rAtomic

/-- The pointers of a packet that are checked at parse (R356, sub-code 8). -/
def State.pktPtrs (s : State) (x : Nat) (b : List Byte) : Option Nat :=
  let p (o : Nat) : Word := wordAt b o
  match pktType b with
  | 3 | 4 => s.hubCc x (p 8) false
  | 5 => (((s.hubRight x (p 8) rWrite).or (s.hubRight x (p 0x10) rRead)).or (s.hubCc x (p 0x20) true))
  | 6 => s.hubPtr x (p 8) (leAt b 0x10 8) 1 rRead
  | 7 => s.hubCc x (p 0x20) true
  | _ => none

/-- How the parse of one packet ends. -/
inductive Parsed where
  | ok (s : State) (p : Pkt)
  | bad (s : State) (sub under : Nat)
  | wait (s : State)

/-- The checks of R356 on one packet, `inner` 1 in an indirect buffer and 2 in a graph body; a launch header is read
now (R355). -/
def State.parseOne (s : State) (q : Nat) (b : List Byte) (inner : Nat) (p : Pkt) : Parsed :=
  let k := s.queue q
  let t := pktType b
  let work := t = 1 ∨ t = 2 ∨ t = 7
  let ibLen := leAt b 0x10 8
  if t = 0 ∨ 9 < t then .bad s 1 0
  else if pktReserved b then .bad s 2 0
  else if pktUnits b ≠ typeUnits t then .bad s 3 0
  else if t = 8 ∧ (s.ctx k.ctx).dom = 0 then .bad s 5 0
  else if (t = 6 ∧ inner ≠ 0) ∨ (t = 7 ∧ inner = 2) ∨ (t = 6 ∧ (ibLen % 64 ≠ 0 ∨ ibLen < 64 ∨ 2 ^ 20 < ibLen)) then .bad s 6 0
  else if t = 1 then
    if !s.hdrOk k.ctx k.cls (b.drop 64) then .bad s 4 0
    else if pktProm b != (k.cls != 0) then .bad s 7 0
    else .ok s { p with bytes := b, body := b.drop 64 }
  else if pktProm b != (decide work && k.cls != 0) then .bad s 7 0
  else if t = 2 then
    match s.hubRead q (wordAt b 8) 64 8 with
    | .no c => .bad s 8 c
    | .wait s1 => .wait s1
    | .ok s1 h => if s1.hdrOk k.ctx k.cls h then .ok s1 { p with bytes := b, body := h } else .bad s1 4 0
  else match s.pktPtrs k.ctx b with
    | some c => .bad s 8 c
    | none => .ok s { p with bytes := b }

/-! ### Graph bodies (R362) -/

/-- The packets of a body: their offsets and bytes; none where one runs past its end or fails its CHECK (with the
sub-codes of R356: cause 0x81 is told by sub-code 100). -/
def bodyPackets (body : List Byte) : Nat → Nat → Except (Nat × Nat) (List (Nat × Nat))
  | 0, _ => .ok []
  | f + 1, o =>
    if body.length ≤ o then .ok []
    else
      let n := 64 * max 1 (leAt body (o + 2) 1)
      let b := (body.drop o).take n
      if body.length < o + n then .error (o, 3)
      else if !checkOk b || leAt b 3 2 ≠ o / 64 % 2 ^ 16 then .error (o, 100)
      else match bodyPackets body f (o + n) with
        | .error e => .error e
        | .ok l => .ok ((o, n) :: l)

/-- Patches written into a body, in list order; none where one names a header word or lies beyond it. -/
def patchBody (heads : List Nat) : List Byte → List (Nat × List Byte) → Option (List Byte)
  | body, [] => some body
  | body, (o, v) :: ps =>
    if o % 8 ≠ 0 ∨ body.length ≤ o ∨ heads.contains o then none
    else patchBody heads (body.take o ++ v ++ body.drop (o + 8)) ps

/-- How the parse of a packet with all it brings ends: its records, or a fault with the place in a body it lies at. -/
inductive ParsedAll where
  | ok (s : State) (l : List Pkt)
  | bad (s : State) (cause sub under : Nat) (ib : Option (Word × Nat)) (hdr : Word)
  | wait (s : State)

/-- The packets of a replay's patched copy are checked and take their places behind it. -/
def State.parseBody (s : State) (q : Nat) (body : List Byte) (ptr : Word) (p : Pkt) :
    List (Nat × Nat) → Nat → List Pkt → ParsedAll
  | [], _, acc => .ok s acc
  | (o, n) :: l, tag, acc =>
    let b := (body.drop o).take n
    let w : Pkt := { idx := p.idx, tag := tag, bytes := b, ib := some (ptr, o), parent := some p.tag, views := p.views }
    match s.parseOne q b 2 w with
    | .wait s1 => .wait s1
    | .bad s1 sub under => .bad s1 0x80 sub under (some (ptr, o)) (wordAt b 0)
    | .ok s1 w1 => State.parseBody s1 q body ptr p l (tag + 1) (acc ++ [w1])

/-- The parse of a REPLAY (R362): its graph is copied and checked, and then patched. -/
def State.parseReplay (s : State) (q : Nat) (p : Pkt) : ParsedAll :=
  let b := p.bytes
  let g := wordAt b 8
  let n := leAt b 0x18 8
  let bad (st : State) (sub under : Nat) : ParsedAll := .bad st 0x80 sub under none (wordAt b 0)
  match s.hubRead q g 64 8 with
  | .no c => bad s 8 c
  | .wait s1 => .wait s1
  | .ok s1 head =>
    let slots := leAt head 0 8
    let len := leAt head 8 8
    if slots = 0 ∨ 2 < slots ∨ len % 64 ≠ 0 ∨ 65536 < len then bad s1 2 0
    else
      let at_ := (fpMove g 64).getD g
      match s1.hubRead q at_ len 8 with
      | .no c => bad s1 8 c
      | .wait s2 => .wait s2
      | .ok s2 body =>
        match (if n = 0 then HubRead.ok s2 [] else s2.hubRead q (wordAt b 0x10) (16 * n) 8) with
        | .no c => bad s2 8 c
        | .wait s3 => .wait s3
        | .ok s3 pl =>
          match bodyPackets body (len / 64 + 1) 0 with
          | .error (o, sub) =>
            .bad s3 (if sub = 100 then 0x81 else 0x80) (if sub = 100 then 0 else sub) 0 (some (at_, o)) (wordAt body o)
          | .ok ps =>
            let patches := (List.range n).map fun i => (leAt pl (16 * i) 8, (pl.drop (16 * i + 8)).take 8)
            match patchBody (ps.map (·.1)) body patches with
            | none => bad s3 2 0
            | some body1 =>
              let r : Pkt := { p with body := body1, graph := (s3.desc (s3.queue q).ctx (fpHnd g)).oid, slots := slots }
              match s3.parseBody q body1 at_ r ps (p.tag + 1) [] with
              | .ok s4 l => .ok s4 (r :: l)
              | z => z

/-- The parse of a packet with what its type brings. -/
def State.parseAll (s : State) (q : Nat) (b : List Byte) (inner : Nat) (p : Pkt) : ParsedAll :=
  match s.parseOne q b inner p with
  | .wait s1 => .wait s1
  | .bad s1 sub under => .bad s1 0x80 sub under p.ib (wordAt b 0)
  | .ok s1 p1 =>
    if pktType b ≠ 7 then .ok s1 [p1]
    else match s1.parseReplay q p1 with
      | .bad s2 c sub under ib h => .bad s2 c sub under (ib.or p.ib) h
      | z => z

/-! ### Indirect buffers (R360, R361) -/

/-- The granule of a byte of a buffer. -/
def Pkt.granule (p : Pkt) (o : Nat) : Nat := (fpOff p.ptr + o) / 256

/-- IB_GRANULE_FETCH (R360, R361): the next granule, up to four ahead of the packet to parse, read by one read that takes
wholes of 64 bytes and more whole, and watched from then on: `gids` holds the number from which on a write of its bytes is one
that the read has not taken. The packet processor acquires what it reads as it does a header. -/
def execIbGranuleFetch (q : Nat) (s : State) : Host.Outcome State Fault Refusal :=
  let k := s.queue q
  match k.buffer with
  | none => .next s
  | some p =>
    let g0 := p.granule p.prog
    let gs := ((List.range 5).map (g0 + ·)).filter fun g => g ≤ p.granule (p.len - 1) && SMap.get 0 g k.gids == 0
    match gs.head? with
    | none => .next s
    | some g =>
      let lo := max (256 * g) (fpOff p.ptr)
      let hi := min (256 * g + 256) (fpOff p.ptr + p.len)
      if !k.parses || s.dtime < s.pause then .next s
      else match s.checkHandle k.ctx (fpWith p.ptr lo) (hi - lo) 1 rRead with
        | .error (c, _) => .next (s.packetFault q p.idx (wordAt p.bytes 0) 0x80 8 c (some (p.ptr, p.prog)))
        | .ok w =>
          match w.np with
          | some (oid, e) => .next (s.report oid e)
          | none =>
            let ls := locs w.loc (hi - lo)
            match s.linePicks s.piecesWait (agQueue q) ls with
            | none => .next s
            | some ps =>
              let l := (ls.zip ps).map fun (x, i) => if s.zLoc x then 0#8 else s.byteOf x i
              let missed := (ls.zip ps).flatMap fun (x, i) => ((s.oom.writes x).filter fun v => i < v.id).map (·.id)
              let s1 : State := { s with oom := s.oom.see (agQueue q) ps }
              let s2 := (s1.joinEvents (agQueue q) 4 (s.oom.eventsOf ps)).heat (agQueue q) w.loc false
              .next (s2.modQueue q fun r => { r with
                gptr := p.ptr
                granules := SMap.set [] g (List.replicate (lo - 256 * g) 0#8 ++ l) r.granules
                gids := SMap.set 0 g (missed.foldl Nat.min s2.oom.nextId) r.gids })

/-- Bytes of a buffer from the granules that hold them; none while one has not been fetched. -/
def Queue.bufBytes (k : Queue) (p : Pkt) (o n : Nat) : Option (List Byte) :=
  let gs := (List.range (p.granule (o + n - 1) + 1 - p.granule o)).map (p.granule o + ·)
  if gs.any fun g => SMap.get 0 g k.gids == 0 then none
  else
    let byte (a : Nat) : Byte := (SMap.get [] (a / 256) k.granules).getD (a % 256) 0#8
    some ((List.range n).map fun i => byte (fpOff p.ptr + o + i))

/-- A packet spans granules, one of which a write has reached while it was watched (R361). -/
def State.torn (s : State) (q : Nat) (p : Pkt) (o n : Nat) : Bool :=
  let k := s.queue q
  let a := p.granule o
  let b := p.granule (o + n - 1)
  let oid := (s.desc k.ctx (fpHnd p.ptr)).oid
  a != b && (k.hits.any fun g => a ≤ g && g ≤ b) || a != b && s.oom.ws.any fun w =>
    locKind w.loc == 2 && locId w.loc == oid && a ≤ locOff w.loc / 256 && locOff w.loc / 256 ≤ b
      && SMap.get 0 (locOff w.loc / 256) k.gids ≤ w.id

/-! ### The command processor (R358, R364) -/

/-- A header word is valid at an index: its TYPE is set and its SEQ is the index's (R354, R358). -/
def hdrValid (h : Word) (i : Nat) : Bool := h.toNat % 256 != 0 && bits h.toNat 24 16 == i % 2 ^ 16

/-- QUEUE_HEADER_READ (R358, R360): the header word at the read index, as an acquire at `.pkg`, or the next header of
the buffer being run. A word that is not valid is read again; in the ring its read index is published. On a queue in
error the index of the fault is published once the earlier packets have been journaled (R359, R365; log entry 41). -/
def execQueueHeaderRead (q : Nat) (s : State) : Host.Outcome State Fault Refusal :=
  let k := s.queue q
  if !k.alive || s.dtime < s.pause then .next s
  else if k.state = 1 && k.lastPub < k.pubIndex then .next (s.publish q k.pubIndex)
  else if !k.parses || k.valid then .next s
  else match k.buffer with
    | some p =>
      match k.bufBytes p p.prog 8 with
      | none => .next s
      | some b =>
        let h := wordAt b 0
        if hdrValid h (p.prog / 64) then .next (s.modQueue q fun w => { w with valid := true, hdr := h })
        else .next (s.modQueue q fun w => { w with
          granules := SMap.set [] (p.granule p.prog) [] w.granules, gids := SMap.set 0 (p.granule p.prog) 0 w.gids
          hits := w.hits.filter (· != p.granule p.prog) })
    | none =>
      let l := s.unitLoc q k.c
      if s.goneLoc l then .next (s.report (locId l) (locOff l / 2 ^ 18))
      else
        let (s1, b, evs) := s.readFwd (agQueue q) [] (locs l 8)
        let s2 := (s1.joinEvents (agQueue q) 4 evs).heat (agQueue q) l false
        let h := wordAt b 0
        if hdrValid h k.c then
          .next (s2.modQueue q fun w => { w with valid := true, hdr := h, hview := evs.flatMap s2.viewsOf })
        else if k.lastPub < k.pubIndex then .next (s2.publish q k.pubIndex)
        else .next s2

/-- The bytes of `n` units of the ring from an index (R354). -/
def State.ringBytes (s : State) (q u : Nat) : Nat → HubRead
  | 0 => .ok s []
  | n + 1 =>
    match State.ringBytes s q u n with
    | .ok s1 l =>
      match s1.engRead (agQueue q) (s1.unitLoc q (u + n)) 64 with
      | .wait s2 => .wait s2
      | .bad => .no 0xA0
      | .bytes s2 b => .ok s2 (l ++ b)
    | z => z

/-- A parsed packet joins the queue's records; the read index or the buffer's place moves past it, and a publication falls due
after a PUBN-th packet or one with PUB (R358). -/
def State.acceptPkts (s : State) (q units : Nat) (b : List Byte) (ib : Option Pkt) (l : List Pkt) : State :=
  let s1 := s.modQueue q fun w => { w with
    valid := false, pkts := w.pkts ++ l, nextTag := w.nextTag + l.length
    c := if ib.isNone then w.c + units else w.c
    sincePub := if ib.isNone then w.sincePub + 1 else w.sincePub }
  match ib with
  | some p => s1.modQueue q fun w =>
      let done := p.len ≤ p.prog + 64 * units
      { (if done then w.unwatch else w) with
        pkts := w.pkts.map fun r => if r.tag = p.tag then { r with prog := p.prog + 64 * units } else r }
  | none =>
    let k := s1.queue q
    if bit (pktFlags b) 0 || (if k.pubn = 0 then 16 else k.pubn) ≤ k.sincePub then
      (s1.modQueue q fun w => { w with sincePub := 0, pubOwed := w.pubOwed ++ [w.c] }).publishOwed q
    else s1

/-- PACKET_PARSE (R358, R361, R364): a parser core reads the whole packet, verifies CHECK, checks the fields and copies
it; a fault stops the queue (R359). -/
def execPacketParse (q : Nat) (s : State) : Host.Outcome State Fault Refusal :=
  let k := s.queue q
  let n := bits k.hdr.toNat 16 8
  if !k.alive || !k.parses || !k.valid || s.dtime < s.pause then .next s
  else
    let p0 : Pkt := { idx := k.c, tag := k.nextTag, bytes := [], views := k.hview }
    let take (st : State) (b : List Byte) (inner : Nat) (ib : Option Pkt) (p : Pkt) : State :=
      if !checkOk b then st.packetFault q p.idx (wordAt b 0) 0x81 0 0 p.ib
      else match st.parseAll q b inner p with
        | .wait s1 => s1
        | .bad s1 c sub under w h => s1.packetFault q p.idx h c sub under w
        | .ok s1 l => s1.acceptPkts q n b ib l
    match k.buffer with
    | some w =>
      let p : Pkt := { p0 with idx := w.idx, ib := some (w.ptr, w.prog), parent := some w.tag, views := w.views }
      if n = 0 then .next (s.packetFault q w.idx k.hdr 0x80 3 0 p.ib)
      else if w.len < w.prog + 64 * n then .next (s.packetFault q w.idx k.hdr 0x80 6 0 p.ib)
      else match k.bufBytes w w.prog (64 * n) with
        | none => .next s
        | some b =>
          if s.torn q w w.prog (64 * n) then .next (s.packetFault q w.idx k.hdr 0x81 1 0 p.ib)
          else .next (take s b 1 (some w) p)
    | none =>
      if n = 0 then .next (s.packetFault q k.c k.hdr 0x80 3 0 none)
      else match s.ringBytes q k.c n with
        | .wait s1 => .next s1
        | .no c => .next (s.packetFault q k.c k.hdr 0x80 8 c none)
        | .ok s1 b => .next (take s1 b 0 none p0)

/-- PARSER_CORE_FAULT (R364): the packet being parsed is dropped unfinished; another parser core parses it again. -/
def execParserCoreFault (q : Nat) (s : State) : Host.Outcome State Fault Refusal :=
  if (s.queue q).valid then
    .next (({ s with parserFaults := s.parserFaults + 1 } : State).modQueue q fun k => { k with valid := false })
  else .next s

end Sys2Proof.Machine
end

