-- ==== Sys2Proof/Machine/Messages.lean ====
section
/-! DEFINITION. Row 6 at issue: messages, migration, roles and mailbox queries (R154 to R164). -/

namespace Sys2Proof.Machine

/-- The partition tag that a thread's packets carry: its core's, and on a control core that of the thread's
context (R283, R366). -/
def State.tagOf (s : State) (c t : Nat) : Nat :=
  if isCC c then
    ((s.parts.find? fun r => r.2.alive && r.2.ctx == s.ctxOf c t).map (·.1)).getD 0
  else (s.core c).ptag

/-- A core name read as an operand and checked (R155). -/
def Iss.coreName (i : Iss) (w : Word) : Try Unit :=
  if i.s.coreNameOk (i.s.tagOf i.c i.t) w then .ok () else trap 0x42 0 w

/-- SEND (R156). -/
def opSend (i : Iss) : Try Out := do
  i.coreName i.va
  pure { defs := [{ op := 0x60, m := i.o.m % 8, rd := i.o.d, va := i.va, vb := i.vb }] }

/-- SENDI: a signed 48-bit value (R154). -/
def opSendi (i : Iss) : Try Out := do
  i.coreName i.va
  pure { defs := [{ op := 0x60, m := i.o.m % 8, rd := i.o.d, va := i.va, vb := wordOf (sx 48 i.o.i) }] }

/-- EMPTY, with the expected sender when SRC is set (R158). -/
def opEmpty (i : Iss) : Try Out := do
  let src := i.fm == .t4 && bit i.o.m 0
  if src then i.coreName i.va
  pure { defs := [{ op := 0x62, rd := i.o.d, va := i.va, n := src }] }

/-- MIGR (R159). -/
def opMigr (i : Iss) : Try Out := do
  i.coreName i.va
  pure { defs := [{ op := 0x63, va := i.va }] }

/-- MIGH: its address is checked as a load of one byte without the read right; on handle 0 nothing moves (R160). -/
def opMigh (i : Iss) : Try Out :=
  if fpHnd i.va = 0 then .ok { defs := [{ op := 0x64, va := i.va, n := true }] }
  else do
    let k ← i.check i.va 1 1 6
    match k.np with
    | some (oid, e) => pure { np := some (oid, e, i.va) }
    | none => pure { defs := [{ op := 0x64, va := i.va, locs := [k.loc] }] }

/-- ROLE: the issuing core's role entry; 0 on a control core (R161). -/
def opRole (i : Iss) : Try Out := longG i (if isCC i.c then 0 else (i.s.roleOf i.c).zeroExtend 64)

/-- RCAST (R162). -/
def opRcast (i : Iss) : Try Out :=
  if i.va.toNat ≥ 8 ∨ i.vb.toNat ≥ 2 ^ 16 ∨ i.vb.toNat % 16 ≠ 0 then trap 0x07 0 (lineOff i.pc)
  else .ok { defs := [{ op := 0x66, va := i.va, vb := i.vb }] }

/-- CHMAP (R162). -/
def opChmap (i : Iss) : Try Out :=
  if i.va.toNat ≥ 4 then trap 0x07 0 (lineOff i.pc)
  else .ok { defs := [{ op := 0x67, va := i.va, vb := fpCode i.vb }] }

/-- MBOXQ (R164). -/
def opMboxq (i : Iss) : Try Out :=
  let l := i.x.mbx.filter fun m => i.s.forTask i.c i.t m
  let regs := (l.map (·.reg)).dedup
  longG i (BitVec.ofNat 64 (l.length % 32 + regs.foldl (fun a n => a + 2 ^ (n + 16)) 0))

/-- POISQ (R164). -/
def opPoisq (i : Iss) : Try Out := longG i ((i.x.poison &&& 0xFFFE#16).zeroExtend 64)

/-- SEND (R156). -/
def execSend (f : F4) (s : State) : Host.Outcome State Fault Refusal :=
  issue 0x60 .t4 f.opnd opSend s

/-- SENDI (R156). -/
def execSendi (f : F8) (s : State) : Host.Outcome State Fault Refusal :=
  issue 0x61 .t8 f.opnd opSendi s

/-- EMPTY_T0 (R158). -/
def execEmptyT0 (f : F0) (s : State) : Host.Outcome State Fault Refusal :=
  issue 0x62 .t0 f.opnd opEmpty s

/-- EMPTY_T4 (R158). -/
def execEmptyT4 (f : F4) (s : State) : Host.Outcome State Fault Refusal :=
  issue 0x62 .t4 f.opnd opEmpty s

/-- MIGR_T2 (R159). -/
def execMigrT2 (f : F2) (s : State) : Host.Outcome State Fault Refusal :=
  issue 0x63 .t2 f.opnd opMigr s

/-- MIGR_T4 (R159). -/
def execMigrT4 (f : F4) (s : State) : Host.Outcome State Fault Refusal :=
  issue 0x63 .t4 f.opnd opMigr s

/-- MIGH_T2 (R160). -/
def execMighT2 (f : F2) (s : State) : Host.Outcome State Fault Refusal :=
  issue 0x64 .t2 f.opnd opMigh s

/-- MIGH_T4 (R160). -/
def execMighT4 (f : F4) (s : State) : Host.Outcome State Fault Refusal :=
  issue 0x64 .t4 f.opnd opMigh s

/-- ROLE_T0 (R161). -/
def execRoleT0 (f : F0) (s : State) : Host.Outcome State Fault Refusal :=
  issue 0x65 .t0 f.opnd opRole s

/-- ROLE_T4 (R161). -/
def execRoleT4 (f : F4) (s : State) : Host.Outcome State Fault Refusal :=
  issue 0x65 .t4 f.opnd opRole s

/-- RCAST_T2 (R162). -/
def execRcastT2 (f : F2) (s : State) : Host.Outcome State Fault Refusal :=
  issue 0x66 .t2 f.opnd opRcast s

/-- RCAST_T4 (R162). -/
def execRcastT4 (f : F4) (s : State) : Host.Outcome State Fault Refusal :=
  issue 0x66 .t4 f.opnd opRcast s

/-- CHMAP_T2 (R162). -/
def execChmapT2 (f : F2) (s : State) : Host.Outcome State Fault Refusal :=
  issue 0x67 .t2 f.opnd opChmap s

/-- CHMAP_T4 (R162). -/
def execChmapT4 (f : F4) (s : State) : Host.Outcome State Fault Refusal :=
  issue 0x67 .t4 f.opnd opChmap s

/-- MBOXQ_T0 (R164). -/
def execMboxqT0 (f : F0) (s : State) : Host.Outcome State Fault Refusal :=
  issue 0x68 .t0 f.opnd opMboxq s

/-- MBOXQ_T4 (R164). -/
def execMboxqT4 (f : F4) (s : State) : Host.Outcome State Fault Refusal :=
  issue 0x68 .t4 f.opnd opMboxq s

/-- POISQ_T0 (R164). -/
def execPoisqT0 (f : F0) (s : State) : Host.Outcome State Fault Refusal :=
  issue 0x69 .t0 f.opnd opPoisq s

/-- POISQ_T4 (R164). -/
def execPoisqT4 (f : F4) (s : State) : Host.Outcome State Fault Refusal :=
  issue 0x69 .t4 f.opnd opPoisq s


end Sys2Proof.Machine
end

