-- ==== Sys2Proof/Machine/Results.lean ====
section
/-! DEFINITION. The results of a group in flight: the read step of a load (R96), the atomic step (R98, R150), and
the return of a result with its conversion and its fault report (R55, R79, R146, R168, R175, R206, R412). -/

namespace Sys2Proof.Machine

/-! ### What a group still performs (R54, R55) -/

/-- A position of the group takes effect: nothing is discarded, or it lies before the cut. -/
def Group.lives (g : Group) (pos : Nat) : Bool :=
  !g.blocked || (match g.cutAt with | some p => decide (pos < p) | none => false)

/-- A result that performs only once its group is certain to commit. -/
def LRes.isLast (r : LRes) : Bool := r.isSide || r.isAtom

/-- Everything that step 1 of the commit waits for has returned (R55). -/
def Group.returned (g : Group) : Bool := g.res.all fun r => r.ret || (r.isLast && !g.lives r.pos)

/-- A side-effecting load, or an atomic, may perform: its group has reached its marker and commits it, every other
result has returned, and the side-effecting loads before it have performed (R148). A side-effecting load does not
wait for an atomic that a fence between them holds behind it. -/
def Group.lastMay (g : Group) (k : Nat) (r : LRes) : Bool :=
  g.lives r.pos && ((List.range g.res.length).zip g.res).all fun (j, q) =>
    j == k || q.ret || (q.isLast && !g.lives q.pos)
      || (q.isSide && (r.isAtom || r.pos ≤ q.pos))
      || (q.isAtom && g.fences.any fun f => r.pos < f.pos && f.pos < q.pos)

/-- The thread's group is in flight on a core that runs. -/
def State.inFlight (s : State) (c t : Nat) : Bool :=
  let x := s.thr c t
  !(s.core c).stopped && x.st != 0 && (x.phase == .issue || x.phase == .marker)

/-- A load or atomic of the group may perform now, as far as its group goes. -/
def State.mayPerform (s : State) (c t k : Nat) (r : LRes) : Bool :=
  let x := s.thr c t
  s.inFlight c t && x.grp.orderedAt r.pos && (!r.isLast || (x.phase == .marker && x.grp.lastMay k r))
    && x.grp.res.all fun q => q.pos ≥ r.pos || q.ret || (match q.val with | .load (.stt ..) _ _ => false | _ => true)

/-! ### The read step of a load -/

/-- A read of a thread that still issues has met a refresh window, or performs at last: should the thread park at its
marker meanwhile, that window is the first condition it met (R30, R318; DEDUCED, log entry 110). -/
def Thread.showWait (x : Thread) (waits : Bool) : Thread :=
  if x.phase = .issue ∧ x.st = 1 then { x with prsn := if waits then 0x0A else 0 } else x

/-- A result of the group replaced. -/
def State.setRes (s : State) (c t k : Nat) (r : LRes) : State := s.modGrp c t fun g => { g with res := g.res.set k r }

/-- A byte that a read would take from memory has been marked uncorrectable (R398). -/
def State.poisoned (s : State) (st : List (List Nat × List Byte)) (ls : List Nat) : Bool :=
  ls.any fun l => s.bad.contains l && (youngest st l).isNone && !s.zLoc l

/-- LOAD_READ_STEP (R96): read event `k / 32` of result `k % 32` performs. -/
def execLoadReadStep (c t k : Nat) (s : State) : Host.Outcome State Fault Refusal :=
  let x := s.thr c t
  match x.grp.res[k % 32]? with
  | none => .next s
  | some r =>
    match r.val, r.parts[k / 32]? with
    | .load _ acq _, some p =>
      if p.got.isSome || !s.mayPerform c t (k % 32) r then .next s
      else if s.goneLoc p.loc then .next (s.report (locId p.loc) (locOff p.loc / 2 ^ 18))
      else if s.inWindow p.loc then .next (s.modThr c t fun y => y.showWait true)
      else
        let ls := locs p.loc p.size
        let s0 := s.joinFences c t r.pos
        let st := s0.storesOf c t x.seq r.pos
        if s0.poisoned st ls then .next (s.killCore c)
        else
          let (s1, bs, evs) := s0.readFwd (agThread c t) st ls
          let s2 := (s1.heat (agThread c t) p.loc false).modThr c t fun y => { y.showWait false with seen := (y.seen ++ evs).dedup }
          let s3 := match acq with
            | some sc => s2.joinEvents (agThread c t) sc evs
            | none => s2
          let ps := r.parts.set (k / 32) { p with got := some bs }
          .next (s3.setRes c t (k % 32) { r with parts := ps, done := ps.all fun q => q.got.isSome })
    | _, _ => .next s

/-! ### The atomic step -/

/-- The commit-queue entries of a deferred store: one for each doubleword. An SHST's are pieces of one store of a line
(R106, R211). -/
def storePieces (e : Eff) (rel : Option Nat) : List CqE :=
  (List.range ((e.locs.length + 7) / 8)).map fun i =>
    { seq := e.seq, whole := if e.locs.length = 64 then shstWhole (agThread e.core e.thr) e.seq else 0, locs := (e.locs.drop (8 * i)).take 8, data := (e.data.drop (8 * i)).take 8, rel := rel
      hnd := e.hnds.headD 0, ctx := e.ctx }

/-- The scope of a deferred store that releases, plus one; none for another effect (R95). -/
def Eff.storeRel (e : Eff) : Option (Option Nat) :=
  match e.op with
  | 0x42 | 0x46 | 0x48 | 0x4A | 0x7A | 0xC1 | 0xEE => some none
  | 0x44 => some (some (e.sreg - 1))
  | _ => none

/-- The deferred stores of a group that its atomic performs after: those to one of its bytes, and all of them where the
atomic releases, or where a fence or a release stands among them (R95, R99). -/
def Group.storesBefore (g : Group) (pos : Nat) (ls : List Nat) (rel : Bool) : List Eff :=
  let all := g.defs.filter fun e => e.storeRel.isSome && decide (e.pos < pos)
  let near := all.filter fun e => meets e.locs ls
  let ordered := near.any fun e => e.storeRel != some none || g.defs.any fun f => f.op == 0x59 && f.m % 4 != 1 && decide (f.pos < e.pos)
  if rel || ordered then all else near

/-- One of those stores performs, with the release of an earlier fence of the group (R95, R99). -/
def State.storeNow (s : State) (c t : Nat) (g : Group) (e : Eff) : State :=
  let a := agThread c t
  let s1 := (g.defs.filter fun f => f.op == 0x59 && f.m % 4 != 1 && decide (f.pos < e.pos)).foldl (fun st f =>
    st.modThr c t fun y => y.capture (st.viewFrom a (bits f.m 2 3))) s
  (storePieces { e with core := c, thr := t, ctx := (s.thr c t).ctx, seq := (s.thr c t).seq + 1 } (e.storeRel.getD none)).foldl (fun st p =>
    ((st.putMem a p.locs p.data (st.thr c t).rel p.rel).asPiece p.whole).heat a (p.locs.headD 0) true) s1

/-- ATOMIC_STEP (R98, R150): the step of result `k` at its home, after every earlier write of the thread to the location,
and after all of them where it releases. Its group is certain to commit, so the earlier stores that the group still holds
in its buffer perform first, in program order (R95; DEDUCED, log entry 58). -/
def execAtomicStep (c t k : Nat) (s : State) : Host.Outcome State Fault Refusal :=
  let x := s.thr c t
  match x.grp.res[k]? with
  | none => .next s
  | some r =>
    match r.val, r.parts with
    | .atom op size ord scope uns b cv, [p] =>
      let a := agThread c t
      let ls := locs p.loc size
      let rel := bit ord 1
      let early := x.grp.storesBefore r.pos ls rel
      let wait := rel || early.any fun e => e.storeRel != some none
      let s0 := early.foldl (fun st e => st.storeNow c t x.grp e) (s.joinFences c t r.pos)
      if r.done || !s.mayPerform c t k r || !s.writeMay c t (x.seq + 1) ls wait || !early.all (fun e => s.writeMay c t (x.seq + 1) e.locs wait) then .next s
      else if !early.isEmpty then
        .next (s0.modGrp c t fun g => { g with defs := g.defs.filter fun e => !(early.any fun f => f.pos == e.pos && f.op == e.op) })
      else if !s0.atomicReady a ls then .next s
      else if s.goneLoc p.loc then .next (s.report (locId p.loc) (locOff p.loc / 2 ^ 18))
      else if ls.any s.bad.contains then .next (s.killCore c)
      else
        let old := leNat (s0.homeBytes ls)
        let new := (atomicNew op size uns old b.toNat cv.toNat).map (leBytes size)
        let (s1, evs) := s0.atomicStep a ls (if bit ord 0 then some scope else none) (if rel then some scope else none) x.rel new
        let s2 := (s1.heat a p.loc new.isSome).modThr c t fun y => { y with seen := (y.seen ++ evs).dedup }
        .next (s2.setRes c t k { r with val := .val (BitVec.ofNat 64 old), parts := [], done := true })
    | _, _ => .next s

/-! ### Returns -/

/-- A thread parked at its marker is ready for its commit once everything has returned. -/
def Thread.settle (x : Thread) : Thread :=
  if x.phase = .marker ∧ x.st = 2 ∧ x.grp.returned then x.wake else x

/-- Result `k` returns with its value. -/
def State.setRet (s : State) (c t k : Nat) (r : LRes) (v : LVal) : State :=
  (s.setRes c t k { r with val := v, parts := [], ret := true, done := true }).modThr c t (·.settle)

/-- A fault report joins the group: the earliest trap in program order stands. -/
def Group.addTrap (g : Group) (tr : GTrap) : Group :=
  { g with trap := match g.trap with
    | some o => if tr.pos < o.pos then some tr else some o
    | none => some tr }

/-- A self-updating group that a result's fault cuts issues no further head (R54). -/
def Thread.cutFor (x : Thread) (r : LRes) : Thread :=
  if x.phase = .issue ∧ x.grp.cutAt = some r.pos then { x with nextPc := r.pc }.close else x

/-- Result `k` returns with a trap; a self-updating group issues no further head (R54). -/
def State.retTrap (s : State) (c t k : Nat) (r : LRes) (cause sub : Nat) (info : Word) : State :=
  let s1 := s.modGrp c t fun g =>
    g.addTrap { pos := r.pos, pc := r.pc, cause := cause, sub := sub, info := info }
  (s1.setRet c t k { r with dest := .none } (.val 0)).modThr c t fun x => x.cutFor r

/-- Result `k` returns, its rind compared with it: a divergence joins the group, and a self-updating one issues no further
head (R54, R90, R386). -/
def State.retRind (s : State) (c t k : Nat) (r : LRes) (v rind : Word) : State :=
  let f := if r.fmt = 12 then fmtF64 else fmtF32
  if r.fmt ≠ 0 ∧ f.diverges v.toNat rind.toNat then
    let s1 := (s.modGrp c t fun g =>
      if g.rind.all fun p => decide (r.pos < p.1) then { g with rind := some (r.pos, r.pc), rindBits := [v, rind] } else g).setRet c t k r (.val v)
    s1.modThr c t fun x => x.cutFor r
  else s.setRet c t k r (.val v)

/-- A result that has not returned yet returns with what its rind formed (R90). -/
def State.rindReturn (s : State) (c t k : Nat) (rind : Word) : State :=
  match (s.thr c t).grp.res[k]? with
  | some r =>
    match r.val with
    | .val v => if r.ret || !s.inFlight c t then s else s.retRind c t k r v rind
    | _ => s
  | none => s

/-- A field of a shape register is written at commit; its kind is checked with what an SHLD of the group has loaded before
it (R211). -/
def State.retField (s : State) (c t k : Nat) (r : LRes) (n lo w v : Nat) : State :=
  let g := (s.thr c t).grp
  let before := { g with res := g.res.take k }
  if before.res.any fun q => q.dest == .sh n && !q.ret then s
  else if lo < 4 ∧ shBits (shPut (before.shapeAfter n ((s.core c).shape n)) lo w v) 0 4 ≥ 5 then s.retTrap c t k r 0x07 10 (lineOff r.pc)
  else s.setRet c t k r r.val

/-- The deferred effect with an opcode of an instruction of the group, changed. -/
def Group.patch (g : Group) (pos op : Nat) (f : Eff → Eff) : Group :=
  { g with defs := g.defs.map fun e => if e.pos = pos ∧ e.op = op then f e else e }

/-- The instruction of a result, as its checks see it. -/
def State.issOf (s : State) (c t op : Nat) (r : LRes) : Iss :=
  { s := s, c := c, t := t, x := s.thr c t, op := op, fm := .t4, o := {}, pos := r.pos, pc := r.pc, va := r.ptr }

/-- The bytes of the record that an instruction has read go into its deferred effect. -/
def State.retData (s : State) (c t k op : Nat) (r : LRes) (l : List Byte) (n : Bool) : State :=
  (s.modGrp c t fun g => g.patch r.pos op fun e => { e with data := l, n := e.n || n }).setRet c t k r (.val 0)

/-- The answer of a check: the record's bytes stand, or the instruction traps. -/
def State.retCheck (s : State) (c t k op : Nat) (r : LRes) (l : List Byte) (n : Bool) (ok : Try Unit) : State :=
  match ok with
  | .ok _ => s.retData c t k op r l n
  | .error (.trap cause sub info) => s.retTrap c t k r cause sub info
  | .error _ => s

/-- GLNCH's answer is formed (R168); admission waits in the pause of the supervisor pair (R365). -/
def State.retLaunch (s : State) (c t k : Nat) (r : LRes) (l : List Byte) : State :=
  if s.dtime < s.pause then s else
  let x := s.thr c t
  let (s1, status, n) := s.submit x.ctx (s.tagOf c t) x.queue l c t true
  let s2 := s1.modGrp c t fun g =>
    if status = 0 then
      { g.patch r.pos 0x73 (fun e => { e with ans := BitVec.ofNat 64 n }) with undo := g.undo ++ [(r.pos, .launch n)] }
    else { g with defs := g.defs.filter fun e => !(e.pos == r.pos && e.op == 0x73) }
  s2.setRet c t k r (.val (BitVec.ofNat 64 status))

/-- QPUSH's command takes the place of QPUSH in its group, under its own checks (R206). -/
def State.retPush (s : State) (c t k : Nat) (r : LRes) (l : List Byte) : State :=
  let x := s.thr c t
  let q := ((x.grp.defs.find? fun e => e.pos == r.pos && e.op == 0xC9).map (·.rd)).getD 0
  match (s.issOf c t 0xC9 r).qpush q l with
  | .error (.trap cause sub info) => s.retTrap c t k r cause sub info
  | .error _ => s
  | .ok o =>
    let s1 := s.modThr c t fun y =>
      let g := y.grp
      let y1 := { y with grp := { g with
        defs := g.defs.flatMap fun e =>
          if e.pos = r.pos ∧ e.op = 0xC9 then o.defs.map fun d => { d with pos := r.pos, pc := r.pc } else [e]
        res := g.res ++ o.res.map fun w => { w with pos := r.pos, pc := r.pc, op := 0xC9 } } }
      match o.np with
      | some a => { y1 with grp := { y1.grp with
          np := y1.grp.np ++ [{ pos := r.pos, pc := r.pc, oid := a.1, ext := a.2.1, addr := a.2.2 }] } }
      | none => y1
    (s1.setRet c t k r (.val 0)).modThr c t fun x => x.cutFor r

/-- A record has returned. -/
def State.retRecord (s : State) (c t k op : Nat) (r : LRes) (l : List Byte) : State :=
  match op with
  | 0x70 | 0x72 => s.retCheck c t k op r l false (if bit (leAt l 0 8) 63 then trap 0x07 0 (lineOff r.pc) else pure ())
  | 0x73 => s.retLaunch c t k r l
  | 0xC9 => s.retPush c t k r l
  | 0xE8 | 0xE9 | 0xEA | 0xEB => s.retCheck c t k op r l (bit (leAt l 1 1) 0) ((s.issOf c t op r).netCheck op r.ptr l)
  | 0xFE => s.retCheck c t k op r l false ((s.issOf c t op r).attq l)
  | _ => s.retData c t k op r l false

/-- The word of CBPH (R175). -/
def cbphWord (l : List Byte) : Nat :=
  leAt l 9 1 * 2 ^ 8 + b2n (decide (leAt l 0 4 ≤ leAt l 4 4)) * 4 + leAt l 8 1 % 4

/-- The thread gives up its turns where an element or its register form is subnormal (R71). -/
def State.loseFor (s : State) (c t : Nat) (sub : Bool) : State :=
  if sub then s.modThr c t fun x => x.loseTurns (s.core c) s.cyc t else s

/-- A load that has performed returns its value (R79, R141, R146, R147). The flags of an element that an LDT touch decodes
join its group as those of another LDT (DESIGN CHOICE, log entry 111). -/
def State.retLoad (s : State) (c t k : Nat) (r : LRes) (cv : Conv) : State :=
  let l := gotBytes r.parts
  let val (v : Nat) : LVal := .val (BitVec.ofNat 64 v)
  match cv with
  | .zero => s.setRet c t k r (val (leNat l))
  | .sign => s.setRet c t k r (.val (wordOf (sgn (8 * l.length) (leNat l))))
  | .fmt f scale digit rm tab =>
    let size := fmtSize f
    let w := leAt l 0 size
    if f = 14 then
      let (v, fl) := tern w digit
      if fl ≠ 0 ∧ flHas (s.core c).vxe.toNat flILLC then s.retTrap c t k r 0x32 0 r.ptr
      else (s.modGrp c t fun g => { g with vx := flAdd g.vx r.pos fl }).setRet c t k r (.val (wordOf v))
    else
      let (v, fl) := if scale then toRegScaled tab f (RM.of rm) (sgn 8 (leAt l size 1)) w else toReg tab f w
      ((s.modGrp c t fun g => { g with fx := flAdd g.fx r.pos fl }).setRet c t k r (val v)).loseFor c t (subnormalElem f scale w v)
  | .stt f rm tab v =>
    let (w, fl) := scaledByte tab f (RM.of rm) (sgn 8 (leAt l 0 1)) (fmtF32.decode (v.toNat % 2 ^ 32))
    let s1 := s.modGrp c t fun g => { g.patch r.pos 0x46 (fun e => { e with data := [BitVec.ofNat 8 w] }) with fx := flAdd g.fx r.pos fl }
    (s1.setRet c t k r (.val 0)).loseFor c t (subnormalElem f true w v.toNat)
  | .shape =>
    let v := BitVec.ofNat 512 (leNat l)
    if v.toNat % 16 ≥ 5 then s.retTrap c t k r 0x07 10 (lineOff r.pc) else s.setRet c t k r (.shape (shMask v))
  | .record op => s.retRecord c t k op r l
  | .cbph => s.setRet c t k r (val (cbphWord l))

/-- The bytes of a completion object as its home holds them, zero while its extent is scrub-pending (R320). -/
def State.objBytes (s : State) (ls : List Nat) : List Byte :=
  if ls.any s.zLoc then List.replicate ls.length 0#8 else s.homeBytes ls

/-- The home of a completion object answers a wait, as an acquire at `.dom` of the write that satisfied it
(R104, R175, R238). -/
def State.retWait (s : State) (c t k : Nat) (r : LRes) (done : List Byte → Bool) (err : List Byte → Option Nat) : State :=
  match r.parts with
  | [p] =>
    let ls := locs p.loc p.size
    let s0 := s.joinFences c t r.pos
    let x := s.thr c t
    if x.phase ≠ .marker || !x.grp.orderedAt r.pos || !x.cq.all (fun e => !meets e.locs ls) || !s0.atomicReady (agThread c t) ls then s
    else if s.goneLoc p.loc then s.report (locId p.loc) (locOff p.loc / 2 ^ 18)
    else if ls.any s.bad.contains then s.killCore c
    else
      let l := s0.objBytes ls
      if !done l then s
      else
        let (s1, _) := s0.atomicStep (agThread c t) ls (some 5) none [] none
        match err l with
        | some sub => s1.retTrap c t k r 0x53 sub r.ptr
        | none => s1.setRet c t k r (.val 0)
  | _ => s

/-- RESULT_RETURN (R55, R412): result `k` of the group returns, its rind in agreement (R90). -/
def execResultReturn (c t k : Nat) (s : State) : Host.Outcome State Fault Refusal :=
  match (s.thr c t).grp.res[k]? with
  | none => .next s
  | some r =>
    if r.ret || !s.inFlight c t then .next s
    else match r.val with
      | .val v => .next (s.setRet c t k r (.val v))
      | .field lo w v => .next (match r.dest with | .sh n => s.retField c t k r n lo w v | _ => s.setRet c t k r r.val)
      | .shape _ => .next (s.setRet c t k r r.val)
      | .load cv _ _ => .next (if r.done then s.retLoad c t k r cv else s)
      | .atom .. => .next s
      | .claim n => .next (if ((s.clu (clusterOf c)).tile n).filling then s else s.setRet c t k r (.val 1))
      | .cbwait nt =>
        .next (s.retWait c t k r (fun l => decide (leAt l 0 4 ≤ leAt l 4 4))
          (fun l => if bit (leAt l 8 1) 0 && !nt then some (leAt l 9 1) else none))
      | .ccwait n =>
        .next (s.retWait c t k r (fun l => decide (n ≤ leAt l 0 6 + leAt l 6 1)) (fun _ => none))

end Sys2Proof.Machine
end

