-- ==== Sys2Proof/Machine/Commit.lean ====
section
/-! DEFINITION. The commit of a group (R55, R56): its checks, its discard or its cut, the writing of its results, the
dispatch of its deferred effects with what each does at step 5, late refusals (R157), and what follows (R116 to R118,
R170, R284, R395). -/

namespace Sys2Proof.Machine

/-! ### Traps of a group (R72, R284, R285) -/

/-- A scalar assist (R72): the thread stops at its resume point, and the message goes to the control core. -/
def State.assistThread (s : State) (c t pos : Nat) (head : Word) : State :=
  let s1 := s.modThr c t fun x =>
    { x with
      st := 4, prsn := 0, resume := head, pc := head, grp := {}, phase := .issue, s5 := [], late := [], post := .none
      assist := some { pos := pos, vector := false, idx := 0, loc := 0, width := 8 } }
  s1.notify (ccOf c) 4 0x31 0 t head (assistPtr c t) 0 (c + 1)

/-- A trap in a copy of a duo task discards both logs and frees the other copy (R285). -/
def State.dropMate (s : State) (c t : Nat) : State :=
  if !(s.thr c t).duo then s
  else
    let s1 := s.modThr c t fun x => { x with log := [], voteWait := false }
    match s.duoMate c t with
    | none => s1
    | some d => ((s1.discard d t).modThr d t fun x => { x with log := [] }).freeThread d t

/-- An assist that a group met while one of a vector operation of its thread was outstanding: the thread stops for that one
first, if it still is, and its replayed group raises its own again (R72, R73). -/
def State.assistLater (s : State) (c t : Nat) (head : Word) : State :=
  s.modThr c t fun x =>
    { x with
      st := if x.assist.isSome then 4 else 1
      prsn := 0, resume := head, pc := head, grp := {}, phase := .issue, s5 := [], late := [], post := .none
      assist := x.assist.map fun a => { a with stopped := true } }

/-- A trap of the thread's group, or of TRAP or SYSC, is taken (R55, R118, R285). -/
def State.takeTrap (s : State) (c t pos cause sub : Nat) (pc info resume : Word) : State :=
  let s1 := s.modThr c t fun x => { x with pc := resume }
  if cause = 0x31 then (if sub = 1 then s1.assistLater c t pc else s1.assistThread c t pos pc) else (s1.dropMate c t).trapThread c t cause sub pc info resume

/-! ### What follows a commit -/

/-- A thread whose extent is not present is dropped from rotation; one whose extent has come meanwhile replays at
once (R314). -/
def State.dropThread (s : State) (c t : Nat) (n : NotPres) (pc : Word) : State :=
  s.modThr c t fun x =>
    if (s.extent n.oid n.ext).present then { x with st := 1, prsn := 0, pc := pc }
    else { x with st := 3, prsn := 0, pc := pc, drop := some n }

/-- The thread stops after its commit: a late fault or a vector assist is due (R72, R284). -/
def State.mustStop (s : State) (c t : Nat) : Bool :=
  ((s.core c).lateOf t).isSome || (s.thr c t).assist.any fun a => a.vector && !a.stopped

/-- The thread stops after its commit for a late fault or a vector assist (R72, R284); what it would have done next
waits for its TRET. -/
def State.stopAfter (s : State) (c t : Nat) (post : Post) : State :=
  let x := s.thr c t
  let hold (st : State) : State := st.modThr c t fun y => { y with postponed := match post with | .bar l => .bar l | _ => .none }
  match x.assist with
  | some a =>
    if a.vector && !a.stopped then
      hold (s.modThr c t fun y => { y with st := 4, prsn := 0, resume := y.nextPc, assist := some { a with stopped := true } })
    else if ((s.core c).lateOf t).isSome then hold ((s.dropMate c t).stopLate c t x.nextPc)
    else s
  | none => if ((s.core c).lateOf t).isSome then hold ((s.dropMate c t).stopLate c t x.nextPc) else s

/-- The thread waits for the phase of its latest arrival at a level (R170). -/
def State.awaitBar (s : State) (c t lvl : Nat) : State :=
  let x := s.thr c t
  let owed := x.cq.any fun e => e.kind == .bar && e.code == lvl
  if (x.bar lvl).count = 0 ∧ !owed then s
  else (s.modThr c t fun y => { y with phase := .barrier lvl, st := 2, prsn := 0x04 }).barWake c t lvl

/-- A copy of a duo task waits for the vote, after the group that `post` tells of (R395). -/
def State.awaitVote (s : State) (c t : Nat) (post : Post) : State :=
  s.modThr c t fun x => { x with st := 2, prsn := 0x05, voteWait := true, post := post }

/-- A thread's task ends with its group; a late fault of a thread without a task stops nothing (R117, R284). The task of
a duo copy ends with the vote: a late fault before it discards both logs and stops the copy (R285, R395). -/
def State.endWith (s : State) (c t : Nat) : State :=
  if (s.thr c t).duo then (if s.mustStop c t then s.stopAfter c t .none else s.awaitVote c t .tend)
  else (s.endTask c t).endLates c t

/-- The log of a duo copy is full: the copy waits at its marker for a vote (R395). -/
def State.logFull (s : State) (c t : Nat) : Bool := (s.thr c t).duo && decide (4096 ≤ (s.thr c t).log.length)

/-- The group has committed without a refusal: what its last instruction asked for. DEDUCED (log entry 123): a TRAP or
SYSC of a compute core's t7 commits its group as R118 says, and then frees t7 with a class-5 notification (R282). A TRAP or
SYSC group that commits while a late fault is due is delivered first, and the late fault stops the thread at the marker of
the next group that commits (DESIGN CHOICE, log entry 137: R284 says only that the thread stops after step 5). -/
def State.afterCommit (s : State) (c t : Nat) (post : Post) : State :=
  let x := s.thr c t
  match post with
  | .tend => s.endWith c t
  | .msg cause sub info => s.takeTrap c t 0 cause sub x.nextPc info x.nextPc
  | .drop n => s.dropThread c t n x.nextPc
  | .yield =>
    let s1 := s.modThr c t fun y => { y with yielded := true }
    if s1.mustStop c t || !s1.logFull c t then s1.stopAfter c t post else s1.awaitVote c t .none
  | .none | .bar _ =>
    let s1 := s.stopAfter c t post
    if s.mustStop c t then s1
    else if s1.logFull c t then s1.awaitVote c t post
    else match post with
      | .bar l => s1.awaitBar c t l
      | _ => s1

/-- A refusal that came after step 3 is delivered (R157): the earliest one, with the count of the refused effects for
0x41 and 0x43. A task that ends is not stopped, a TRAP or SYSC waits for the TRET, and a YIELD's turns are still given up
(R116). -/
def State.afterRefusal (s : State) (c t : Nat) (l : Late) (count : Nat) (post : Post) : State :=
  let x := s.thr c t
  let sub := if l.cause = 0x41 ∨ l.cause = 0x43 then min 255 count else l.sub
  match if x.duo ∧ post = .tend then .none else post with
  | .tend => (s.trapMsg c t l.cause sub x.nextPc l.info).endWith c t
  | _ =>
    let later : Post := match post with
      | .msg cause u i => if cause = 0x08 ∨ cause = 0x09 then .msg cause u i else .none
      | .bar k => .bar k
      | _ => .none
    (s.takeTrap c t 0 l.cause sub x.nextPc l.info x.nextPc).modThr c t fun y =>
      { y with postponed := later, yielded := y.yielded || post == .yield }

/-- Step 6, once every effect has been dispatched (R55, R120). -/
def State.finish (s : State) (c t : Nat) : State :=
  let x := s.thr c t
  let s1 := s.modThr c t fun y =>
    { y with
      st := 1, prsn := 0, phase := .issue, s5 := [], late := [], post := .none, pc := y.nextPc, snap := none
      fb := if y.grp.ifence then [] else y.fb, grp := {} }
  let s2 := s1.settleMbx c t
  match x.late with
  | l :: ls => s2.afterRefusal c t l (ls.length + 1) x.post
  | [] => s2.afterCommit c t x.post

/-! ### Effects at step 5 -/

/-- A deferred store enters the commit queue, or a duo copy's log (R95, R394). -/
def State.storeEff (s : State) (c t : Nat) (e : Eff) (rel : Option Nat) : State :=
  s.modThr c t fun x =>
    if x.duo then { x with log := x.log ++ logPieces e.va e.data } 
    else { x with cq := x.cq ++ (storePieces e rel).map fun w => { w with lid := x.lid } }

/-- Every write of an agent is applied or superseded at its home (R99). -/
def Oom.ownSettled (o : Oom) (a : Nat) : Bool :=
  o.ws.all fun w => (SMap.get {} w.ev o.evs).agent != a || o.settledAtHome w

/-- FENCE at step 5 (R99, R151). -/
def State.fenceEff (s : State) (c t : Nat) (e : Eff) : Disp :=
  let a := agThread c t
  let sc := bits e.m 2 3
  match e.m % 4 with
  | 1 => .done s
  | 3 =>
    if !s.drainedTo c t e.seq || !s.oom.ownSettled a then .stall s 0x0F
    else
      let s1 := s.modThr c t fun x => x.capture (s.viewFrom a sc)
      let ids := (s.oom.hl.filter fun r => s.homeIn a r.1 sc).map (·.2)
      .done { s1 with oom := s1.oom.see a ids }
  | _ => .done (s.modThr c t fun x => { x with cq := x.cq ++ [{ kind := .fence, seq := e.seq, code := sc }] })

/-- SEND at step 5 (R101, R156): the message leaves after the captures of earlier fences, and step 5 waits for its
acceptance. -/
def State.sendEff (s : State) (c t : Nat) (e : Eff) : Disp :=
  let x := s.thr c t
  match e.st with
  | 0 =>
    if x.holdsFence then .stall s 0x03
    else match s.phys (s.tagOf c t) e.va.toNat with
      | none => .refuse s 0x42 0 e.va
      | some d =>
        let m : Msg :=
          { e := e, dst := d, thr := e.m % 8, reg := e.rd, val := e.vb, src := s.logical c + 1, stamp := s.tagOf c t
            fw := s.domOf c t == 2, views := match x.rel.getLast? with | some v => [v] | none => [] }
        .stall (({ s with msgs := s.msgs ++ [m] } : State).modHead c t fun w => { w with st := 1 }) 0x03
  | 1 => .stall s 0x03
  | 2 => .done s
  | _ => .refuse s e.ans.toNat 0 e.va

/-- EMPTY at step 5 (R158). -/
def State.emptyEff (s : State) (c t : Nat) (e : Eff) : State :=
  let s1 := s.modThr c t fun x =>
    let y := x.emptyG e.rd
    if e.n && e.rd != 0 then { y with exs := SMap.set 0 e.rd (e.va.toNat + 1) y.exs } else y
  s1.settleMbx c t

/-- The free contexts of a core that a migration may take (R159). -/
def Core.freeCtx (k : Core) : Option Nat := (List.range 7).find? fun t => (k.thread t).st == 0

/-- The core that MIGH names for a location (R160): among the home die's clusters with a free context of the
partition, the nearest to the memory edge of the home channel, then the lowest logical core. Of clusters equally near it
is the one with the lowest logical core (DESIGN CHOICE, log entry 113). DESIGN CHOICE (log entry 138): the lowest logical
core is the lowest with a free context, and a home die with cores of the partition but no free context answers 0x44
sub-code 6, as one without cores does. -/
def State.migTarget (s : State) (tag l : Nat) : Option Nat :=
  let x := s.extent (locId l) (locOff l / 2 ^ 18)
  let fit := (s.part tag).map.filter fun r => r.2 != 0 && dieOf (r.2 - 1) == x.die && (s.core (r.2 - 1)).freeCtx.isSome
  let far (p : Nat) : Nat := Config.edgeHops x.ch (clusterOf p % 128)
  match fit with
  | [] => none
  | r :: rs =>
    let best := rs.foldl (fun a b => if far (b.2 - 1) < far (a.2 - 1) then b else a) r
    ((fit.filter fun q => clusterOf (q.2 - 1) == clusterOf (best.2 - 1)).head?).map fun q => q.2 - 1

/-- The engine commands of a thread that still wait in the queue registers of the core it leaves keep what it has seen
(R100). -/
def State.keepViews (s : State) (c t : Nat) : State :=
  let v := s.viewFrom (agThread c t) 5
  s.modCore c fun k => { k with q := k.q.map fun r => (r.1, r.2.map fun w => if w.thr = t then { w with views := w.views ++ [v] } else w) }

/-- MIGR and MIGH at step 5 (R107, R159, R160). A stall without a park reason is STATE 6. A refusal by a core names it in
g3, for MIGH too (R157); one that finds no core leaves the address there (log entry 64). -/
def State.migEff (s : State) (c t : Nat) (e : Eff) : Disp :=
  let x := s.thr c t
  let tag := s.tagOf c t
  match e.st with
  | 1 => .stall s 0
  | 3 => .refuse s (e.ans.toNat / 256) (e.ans.toNat % 256) e.vb
  | _ =>
    if e.op = 0x64 ∧ e.n then .done s
    else if !s.drainedTo c t e.seq || (s.core c).vq.any (fun v => v.e.thr == t) then .stall s 0x0F
    else
      let target := if e.op = 0x63 then s.phys tag e.va.toNat else s.migTarget tag (e.locs.headD 0)
      match target with
      | none => if e.op = 0x63 then .refuse s 0x42 0 e.va else .refuse s 0x44 6 e.va
      | some d =>
        let name : Word := if e.op = 0x63 then e.va else BitVec.ofNat 64 (s.logical d)
        if d = c then .done s
        else if !x.mbx.isEmpty then .refuse s 0x44 3 name
        else
          let m : Mig := { src := c, thr := t, dst := d, stamp := tag, image := x, agent := s.oom.front (agThread c t) }
          .stall (({ s with migs := s.migs ++ [m] } : State).keepViews c t |>.modHead c t fun w => { w with st := 1, vb := name }) 0

/-- RCAST and CHMAP at step 5 (R162). -/
def State.castEff (s : State) (c : Nat) (e : Eff) : State :=
  let cl := clusterOf c
  if e.op = 0x67 then s.modClu cl fun k => { k with vec := SMap.set 0 (e.va.toNat % 4) e.vb k.vec }
  else
    let s1 := s.modClu cl fun k => { k with roles := SMap.set 0 (e.va.toNat % 8) (e.vb.setWidth 16) k.roles }
    s1.modCore (cl * 16 + e.va.toNat % 8) fun k =>
      { k with th := k.th.map fun r => (r.1, if r.2.st = 0 then r.2 else { r.2 with recast := true }) }

/-- DQPUSH and SPAWN at step 5: a release at `.pkg`, so after every earlier write of the thread (R167, R305). -/
def State.pushEff (s : State) (c t : Nat) (e : Eff) : Disp :=
  if !s.drainedTo c t e.seq then .stall s 0x0F
  else
    let r := TaskRec.of e.data
    let vs := [s.viewFrom (agThread c t) 4]
    let s1 := s.modCore c fun k => { k with dqSlots := k.dqSlots - 1 }
    match (if e.op = 0x72 then (s1.core c).freeCtx else none) with
    | some u => .done (s1.startTask c u r vs)
    | none => .done (s1.modCore c fun k => { k with
        deque := k.deque ++ [{ id := k.dqNext, task := r, views := vs }], dqNext := k.dqNext + 1 })

/-- BARA at step 5: an arrival at most one phase ahead of completion (R170). -/
def State.baraEff (s : State) (c t : Nat) (e : Eff) : Disp :=
  let x := s.thr c t
  let n := (x.bar e.rd).count + (x.cq.filter fun q => q.kind == .bar && q.code == e.rd).length
  if n = 0 ∨ s.phaseDone c t e.rd n then
    .done (s.modThr c t fun y => { y with cq := y.cq ++ [{ kind := .bar, seq := e.seq, code := e.rd, lid := y.lid }] })
  else .stall s 0x04

/-- The tile belongs to a context, else the effect is refused late (R157, R214). -/
def State.tileEff (s : State) (c n : Nat) (x : Nat) (f : State → Disp) : Disp :=
  if s.ownsTile (clusterOf c) x n then f s else .refuse s 0x20 0 (tilePtr n)

/-- A location lies in a tile of a cluster. -/
def inTile (cl n l : Nat) : Bool := locKind l == 1 && locId l == cl && locOff l / 65536 == n

/-- An earlier write of a thread to a tile is still to perform (R103). -/
def State.tileBusy (s : State) (c t seq n : Nat) : Bool :=
  let cl := clusterOf c
  (s.thr c t).cq.any (fun e => e.seq < seq && e.locs.any (inTile cl n)) || s.spMeets c t seq (inTile cl n)
    || (s.core c).vq.any fun v => v.e.thr == t && v.e.seq < seq &&
      (match v.targets with | some w => w.any (inTile cl n) | none => true)

/-- TGIVE at step 5: the owner flips once the thread's writes to the tile have performed, and the engines have what
the thread has of the tile (R103). -/
def State.giveEff (s : State) (c t : Nat) (e : Eff) (x : Nat) : Disp :=
  let n := e.va.toNat
  let cl := clusterOf c
  if s.tileBusy c t e.seq n then .stall s 0x0F
  else
    let f := s.oom.front (agThread c t)
    let ids := (s.oom.ws.filter fun w => inTile cl n w.loc && f.contains w.id).map (·.id)
    let s1 := s.modClu cl fun k => k.setTile n { k.tile n with own := .eng x }
    .done { s1 with oom := (s1.oom.see (agVat cl) ids).see (agRake cl) ids }

/-- TOWN with REL at step 5: the tile is free and its zero-fill starts (R214). -/
def State.relTile (s : State) (cl n : Nat) : State :=
  s.modClu cl fun k => k.setTile n { k.tile n with own := .free, filling := true }

/-- The decode table of an FTLD's image (R76). -/
def tableOf (l : List Byte) : SMap (BitVec 19) :=
  (List.range 256).foldl (fun m i => SMap.set 0 i (BitVec.ofNat 19 (leAt l (4 * i) 4)) m) []

/-- An effect saved undispatched passes its checks again before it dispatches; a failure is a late refusal (R140, R157,
R377). -/
def State.recheck (s : State) (c : Nat) (e : Eff) : Option (Nat × Nat × Word) :=
  if !e.again then none
  else e.chk.findSome? fun (p, n, align, right) =>
    match s.translate c e.ctx [] p n align right with
    | .error (cause, sub) => some (cause, sub, faultPtr cause p)
    | .ok k => if right = rRead ∨ right = rEngine then none else k.ws.map fun o => (0x22, 0, fpWith p o)

/-- Places put where operands are spans. -/
def putPlaces : List Bool → List Nat → List Nat → List Nat
  | true :: bs, _ :: ls, n :: ns => n :: putPlaces bs ls ns
  | _ :: bs, l :: ls, ns => l :: putPlaces bs ls ns
  | _, ls, _ => ls

/-- A saved effect at the places that its pointers name now (R140, R377). -/
def State.relocate (s : State) (c : Nat) (e : Eff) : Eff :=
  if !e.again then e
  else
    let ns := e.chk.filterMap fun (p, n, align, right) => ((s.translate c e.ctx [] p n align right).toOption).map (·.loc)
    if 0x90 ≤ e.op ∧ e.op ≤ 0xBB then { e with locs := putPlaces (vecSpanned e.op e.m) e.locs ns }
    else match ns with
      | [] => e
      | b :: _ => { e with locs := e.locs.map fun l => b + (l - e.locs.headD 0) }

/-- An engine command or vector operation at step 5. -/
def State.unitEff (s : State) (c t : Nat) (e : Eff) : Disp :=
  if isCommand e.op then s.cmdDispatch c t e
  else if 0x90 ≤ e.op ∧ e.op ≤ 0xBB then s.vecDispatch c t e
  else s.sysEffect c t e

/-- What a deferred effect does at step 5. -/
def State.effect (s : State) (c t : Nat) (e : Eff) : Disp :=
  let x := e.ctx
  match e.op with
  | 0x42 | 0x46 | 0x48 | 0x4A | 0x7A | 0xC1 | 0xEE => .done (s.storeEff c t e none)
  | 0x44 => .done (s.storeEff c t e (some (e.sreg - 1)))
  | 0x59 => s.fenceEff c t e
  | 0x5A => if s.tableBusy c t e.seq then .stall s 0x0D else .done s
  | 0x60 => s.sendEff c t e
  | 0x62 => .done (s.emptyEff c t e)
  | 0x63 | 0x64 => s.migEff c t e
  | 0x66 | 0x67 => .done (s.castEff c e)
  | 0x70 | 0x72 => s.pushEff c t e
  | 0x71 =>
    let s1 := (s.modCore c fun k => k.dropRec e.st).joinViews (agThread c t) 5 e.views
    .done (s1.storeEff c t e none)
  | 0x73 =>
    if s.drainedTo c t e.seq then .done (s.enqueue e.ans.toNat [s.viewFrom (agThread c t) 4]) else .stall s 0x0F
  | 0x75 => s.baraEff c t e
  | 0x78 => .done (s.modCore c fun k => { k with shadow := k.shadow.set (e.va.toNat % 32) (e.vb.setWidth 16) })
  | 0x7B => .done (s.modThr c t fun y => { y with
      cq := y.cq ++ [{ kind := .cbarr, seq := e.seq, locs := e.locs, err := e.n, code := e.vb.toNat % 256, hnd := e.hnds.headD 0, ctx := e.ctx, lid := y.lid }] })
  | 0x8B =>
    if e.st = 0 then .stall (s.modHead c t fun w => { w with st := 1 }) 0x0F
    else .done (s.modCore c fun k => { k with dtab := tableOf e.data })
  | 0xB1 => .done (s.modCore c fun k => { k with grant := 0 })
  | 0xC4 => s.tileEff c e.va.toNat x fun st => .done (st.relTile (clusterOf c) e.va.toNat)
  | 0xC5 => s.tileEff c e.va.toNat x fun st => st.giveEff c t e x
  | 0xC6 => s.tileEff c e.va.toNat x fun st =>
      .done (st.modClu (clusterOf c) fun k => k.setTile e.va.toNat { k.tile e.va.toNat with tag := e.vb.toNat })
  | 0xE2 => .done (s.ladleCancel c (e.va.toNat % 128))
  | _ => s.unitEff c t e

/-- An effect after the check that a saved one takes again. -/
def State.effectChecked (s : State) (c t : Nat) (e : Eff) : Disp :=
  match s.recheck c e with
  | some (cause, sub, info) => .refuse s cause sub info
  | none => s.effect c t (s.relocate c e)

/-! ### Step 5 (R55, R157) -/

/-- The effect at the head of step 5 is done with. -/
def Thread.popEff (x : Thread) : Thread := { x with s5 := x.s5.tail }

/-- The thread waits in step 5, the first reason standing until it is ready; without a park reason it migrates (R29,
R30). -/
def Thread.stallIn (x : Thread) (prsn : Nat) : Thread :=
  if prsn = 0 then { x with st := 6, prsn := 0 } else if x.st = 2 then x else { x with st := 2, prsn := prsn }

/-- A refusal of an effect is kept; a name refusal resumes at its instruction, which issues again, also where an earlier
effect of the group was refused and its message is the one delivered (R157, R245, R285; DEDUCED, log entry 112). -/
def Thread.refuse (x : Thread) (e : Eff) (cause sub : Nat) (info : Word) : Thread :=
  let name := 0xF0 ≤ e.op && e.op ≤ 0xF2
  { x with late := x.late ++ [{ cause := cause, sub := sub, info := info }], nextPc := if name then e.pc else x.nextPc }

/-- Step 5 goes on until an effect waits or all have been dispatched; then step 6. -/
def State.runS5 (c t : Nat) : Nat → State → State
  | 0, s => s
  | f + 1, s =>
    match (s.thr c t).s5 with
    | [] => s.finish c t
    | e :: _ =>
      match s.effectChecked c t e with
      | .done s1 => State.runS5 c t f (s1.modThr c t (·.popEff))
      | .stall s1 prsn => s1.modThr c t fun x => x.stallIn prsn
      | .refuse s1 cause sub info => State.runS5 c t f (s1.modThr c t fun x => (x.refuse e cause sub info).popEff)

/-- Step 5 from where it stands. -/
def State.step5 (s : State) (c t : Nat) : State := State.runS5 c t ((s.thr c t).s5.length + 1) s

/-- COMMIT_STEP5_RESUME (R55): a step 5 that waited goes on. -/
def execCommitStep5Resume (c t : Nat) (s : State) : Host.Outcome State Fault Refusal :=
  if (s.thr c t).phase ≠ .step5 || (s.core c).stopped then .next s else .next (s.step5 c t)

/-! ### Steps 1 to 4 -/

/-- A later instruction of the group has written the register by a single-cycle result. -/
def Group.overwritten (g : Group) (pos reg : Nat) : Bool := g.w1.any fun w => w.2 == reg && pos < w.1

/-- A buffered result is written (R55). -/
def State.writeRes (s : State) (c t : Nat) (g : Group) (r : LRes) : State :=
  match r.dest, r.val with
  | .g n, .val v => if g.overwritten r.pos n then s else s.modThr c t fun x => x.setG n v
  | .p n, .val v => if g.overwritten r.pos (16 + n % 8) then s else s.modThr c t fun x => x.setP n (v != 0)
  | .sh n, .shape v => s.modCore c fun k => { k with
      shp := SMap.set 0 n v k.shp, hold := SMap.set 0 n (if v.toNat % 16 = 0 then 0 else t + 1) k.hold }
  | .sh n, .field lo w v => s.modCore c fun k =>
      let u := shPut (k.shape n) lo w v
      { k with shp := SMap.set 0 n u k.shp, hold := SMap.set 0 n (if u.toNat % 16 = 0 then 0 else t + 1) k.hold }
  | _, _ => s

/-- The completion that a QPOP of the group took leaves its register. -/
def State.popComp (s : State) (c t : Nat) (r : LRes) : State :=
  if r.op = 0xCA then s.modCore c fun k => { k with 
      comps := SMap.set [] r.ptr.toNat ((SMap.get [] r.ptr.toNat k.comps).filter fun w => !(w.thr == t && w.seq == r.seq)) k.comps }
  else s

/-- Step 3 for one position: its emptyings, then its results. -/
def State.commitAt (c t : Nat) (g : Group) (s : State) (pos : Nat) : State :=
  let s1 := (g.marks.filter fun m => m.1 == pos).foldl (fun st m => st.modThr c t fun x => x.emptyG m.2) s
  (g.res.filter fun r => r.pos == pos).foldl (fun st r => (st.writeRes c t g r).popComp c t r) s1

/-- The group up to a position. -/
def Group.prefix_ (g : Group) (p : Nat) : Group :=
  { g with
    n := p
    res := g.res.filter fun r => r.pos < p
    defs := g.defs.filter fun e => e.pos < p
    marks := g.marks.filter fun m => m.1 < p
    w1 := g.w1.filter fun w => w.1 < p
    fx := g.fx.filter fun w => w.1 < p
    vx := g.vx.filter fun w => w.1 < p
    fences := g.fences.filter fun f => f.pos < p
    undo := g.undo.filter fun u => u.1 < p }

/-- The flags of a group. -/
def flAll (l : List (Nat × Nat)) : Nat := l.foldl (fun a w => a ||| w.2) 0

/-- The lanes of the group's last VCLAIM. -/
def Group.lastGrant (g : Group) : Option Nat :=
  g.undo.foldl (fun a u => match u.2 with | .grant n => some n | _ => a) none

/-- The deferred effects of a group with who issued them, numbered in the thread's order. -/
def Thread.effects (x : Thread) (c t : Nat) (g : Group) : List Eff :=
  ((List.range g.defs.length).zip g.defs).map fun (i, e) =>
    { e with core := c, thr := t, ctx := x.ctx, lid := x.lid, head := g.head, seq := x.seq + 1 + i }

/-- Steps 3 to 6 for a group that commits (R55, R68). -/
def State.commitGroup (s : State) (c t : Nat) (g : Group) (post : Post) : State :=
  let s1 := s.joinFences c t g.n
  let s2 := s1.modThr c t fun x =>
    { x with
      phase := .step5, st := 1, prsn := 0, s5 := x.effects c t g, seq := x.seq + g.defs.length, post := post
      grp := { ifence := g.ifence }, answers := [], rinds := 0 }
  let s3 := (List.range g.n).foldl (State.commitAt c t g) s2
  let s4 := s3.modCore c fun k =>
    { k with
      fxf := flInto k.fxf (flAll g.fx), vxf := flInto k.vxf (flAll g.vx)
      grant := g.lastGrant.getD k.grant }
  (s4.settleMbx c t).step5 c t

/-- The group is cut at a position (R54): what issued before it commits, the rest gives its claims back, and the
thread's next head is the faulting one. -/
def State.commitCut (s : State) (c t p : Nat) (pc : Word) (post : Post) : State :=
  let g := (s.thr c t).grp
  let s1 := (g.undo.filter fun u => p ≤ u.1).foldl (fun st u => st.giveBack c u.2) s
  (s1.modThr c t fun x => { x with nextPc := pc }).commitGroup c t (g.prefix_ p) post

/-- The refusals of a migration at step 1 (R159). -/
def State.migBad (s : State) (c t : Nat) (e : Eff) : Option Nat :=
  let k := s.core c
  if k.hold.any (fun r => r.2 == t + 1) || k.q.any (fun r => r.2.any fun w => w.thr == t && !w.loose)
      || k.comps.any (fun r => r.2.any fun w => w.thr == t) then some 1
  else if t = 7 then some 2
  else if e.op = 0x63 ∧ isCC e.va.toNat then some 5
  else none

/-- Step 1 of the commit of a group that ends in a migration. The g3 of a MIGH refused here, before a core is chosen, is
its address operand (DESIGN CHOICE, log entry 64). -/
def State.checkMig (s : State) (c t : Nat) (g : Group) : Group :=
  match g.defs.find? fun e => e.op == 0x63 || e.op == 0x64 with
  | none => g
  | some e => match s.migBad c t e with
    | none => g
    | some sub => g.addTrap { pos := e.pos, pc := e.pc, cause := 0x44, sub := sub, info := e.va }

/-- A divergence in a group (R54, R386): the first discards and replays it, or cuts a self-updating one at the
diverging head; the second kills the core. -/
def State.rindGroup (s : State) (c t : Nat) (g : Group) (pos : Nat) (pc : Word) : State :=
  let u := unitCore c
  let s1 := s.rindEvent u (s.ctxOf c t) g.rindBits
  if (s.thr c t).rinds ≠ 0 then (s1.killCore c).bump u 48 1
  else if g.self.isSome then ((s1.commitCut c t pos pc .none).modThr c t fun x => { x with rinds := 1 }).bump u 16 1
  else ((s1.discard c t).modThr c t fun x => { x with st := 1, prsn := 0, phase := .issue, pc := g.head, rinds := 1 }).bump u 16 1

/-- Step 2 for a group without a self-updating instruction: a trap is taken, and not-present conditions are dropped; one
of those without a trap drops the thread; a divergence replays the group (R55, R386). -/
def State.discardGroup (s : State) (c t : Nat) (g : Group) : State :=
  match g.trap, g.np.filter fun n => !n.touch, g.rind with
  | some tr, _, _ => (s.discardOnly c t).takeTrap c t tr.pos tr.cause tr.sub g.head tr.info g.head
  | none, n :: _, _ => ((s.discard c t).modThr c t fun y => { y with phase := .issue }).dropThread c t n g.head
  | none, [], some (pos, pc) => s.rindGroup c t g pos pc
  | none, [], none => s

/-- Step 2 for a self-updating group with its earliest fault at a position (R54). -/
def State.cutGroup (s : State) (c t : Nat) (g : Group) (p : Nat) : State :=
  match g.trap.filter fun tr => tr.pos == p, g.np.find? fun n => !n.touch && n.pos == p, g.rind with
  | some tr, _, _ => s.commitCut c t p tr.pc (.msg tr.cause tr.sub tr.info)
  | none, some n, _ => s.commitCut c t p n.pc (.drop n)
  | none, none, some (pos, pc) => s.rindGroup c t g pos pc
  | none, none, none => s

/-- Steps 2 to 6 of a commit (R55). -/
def State.commit (s : State) (c t : Nat) : State :=
  let x := s.thr c t
  let g := s.checkMig c t x.grp
  let s0 := g.np.foldl (fun st n => if (st.extent n.oid n.ext).present then st else st.report n.oid n.ext (dieOf c + 1)) s
  match g.cutAt with
  | some p => s0.cutGroup c t g p
  | none => if g.blocked then s0.discardGroup c t g else s0.commitGroup c t g x.post

/-- GROUP_COMMIT (R55): the group at its marker, everything returned, commits. Where a result has not returned yet, it
returns first with what its rind formed, at the marker or before it (step 1; R90). -/
def execGroupCommit (c t : Nat) (rind : Option (Nat × Word)) (s : State) : Host.Outcome State Fault Refusal :=
  let s0 := match rind with | none => s | some (k, w) => s.rindReturn c t k w
  let x := s0.thr c t
  if x.phase ≠ .marker || (x.st ≠ 1 && x.st ≠ 2) || (s0.core c).stopped || !x.grp.returned then .next s0
  else .next (s0.commit c t)

end Sys2Proof.Machine
end

