-- ==== Sys2Proof/Machine/Saves.lean ====
section
/-! DEFINITION. The save object in bytes: the header and directory (R374), the core section (R31, R375, R377), the
cluster section (R376), and CRC-64. -/

namespace Sys2Proof.Machine

/-! ### CRC-64 (R374) -/

/-- One bit of the CRC. -/
def crcBit (c : Word) : Word := if c.getLsbD 63 then (c <<< 1) ^^^ 0x42F0E1EBA9EA3693#64 else c <<< 1

/-- One byte of the CRC: polynomial 0x42F0_E1EB_A9EA_3693, no reflection. -/
def crcByte (c : Word) (b : Byte) : Word :=
  (List.range 8).foldl (fun v _ => crcBit v) (c ^^^ BitVec.ofNat 64 (b.toNat * 2 ^ 56))

/-- CRC-64 with initial value 0 and no final XOR (R374). -/
def crc64 (l : List Byte) : Word := l.foldl crcByte 0

/-! ### Fields at their offsets -/

/-- Fields with rising offsets, zeros between and after them, up to a length. -/
def layout (n : Nat) (fs : List (Nat × List Byte)) : List Byte :=
  let r := fs.foldl (fun (a : List (List Byte) × Nat) f =>
    (f.2 :: List.replicate (f.1 - a.2) 0#8 :: a.1, max a.2 f.1 + f.2.length)) ([], 0)
  (List.replicate (n - r.2) 0#8 :: r.1).reverse.flatten

/-- Equal-sized records one after another. -/
def records {α : Type} (l : List α) (f : α → List Byte) : List Byte := l.flatMap f

/-! ### Thread images (R31) -/

/-- The 160-byte image of a thread that a stop has captured: STATE 5 where it was ready or parked (R29, log entry 80); a trapped
one carries its resume point (R284). -/
def Thread.imageBytes (x : Thread) : List Byte :=
  let pc := if x.st = 4 then x.resume else if x.phase = .step5 then x.nextPc else x.pc
  let st := x.lcause % 256 * 2 ^ 24 + (if x.duo then 8 else 0) + if x.st = 1 ∨ x.st = 2 then 5 else x.st
  layout 160 [(0, lowBytes pc 8), (8, (List.range 15).flatMap fun i => lowBytes (x.gv (i + 1)) 8), (0x80, lowBytes x.wid 8),
    (0x88, leBytes 4 st), (0x8C, leBytes 2 (x.full.toNat / 2 * 2)), (0x8E, leBytes 1 (x.pr.toNat / 2 * 2)),
    (0x90, leBytes 2 (x.poison.toNat / 2 * 2))]

/-! ### Commands and step-5 records (R206, R377) -/

/-- CTL and the operand values of a command, with its thread in bits 63:61 (R206, R375). -/
def Eff.ctlBytes (e : Eff) : List Byte :=
  leBytes 8 (e.op % 256 + e.m % 2 ^ 13 * 2 ^ 8 + e.sreg % 16 * 2 ^ 21 + e.thr % 8 * 2 ^ 61)
    ++ lowBytes e.vd 8 ++ lowBytes e.va 8 ++ lowBytes e.vb 8 ++ lowBytes e.vc 8

/-- A 64-byte command. -/
def Eff.cmdBytes (e : Eff) : List Byte := layout 64 [(0, e.ctlBytes)]

/-- The 64 bytes of a shape register. -/
def shapeBytes (v : BitVec 512) : List Byte := leBytes 64 v.toNat

/-- A 128-byte step-5 record. -/
def Eff.stepBytes (e : Eff) : List Byte :=
  let st := if e.again then 0 else if e.st ≤ 1 then e.st else 2
  let e0 : Eff := { e with thr := 0 }
  layout 128 [(0, e0.ctlBytes), (0x28, leBytes 8 (st + e.pos % 16 * 16)), (0x30, if st = 2 then lowBytes e.ans 8 else leBytes 8 0),
    (0x40, shapeBytes e.sh)]

/-! ### The core section (R375) -/

/-- A message of a handler's queue. -/
def HMsg.bytes (m : HMsg) : List Byte := lowBytes m.g1 8 ++ lowBytes m.g2 8 ++ lowBytes m.g3 8

/-- A thread's barrier bytes; `waits lvl` says that it has arrived in an incomplete phase. -/
def Thread.barBytes (x : Thread) (arrived : Nat → Bool) : List Byte :=
  (List.range 7).flatMap fun lvl =>
    [BitVec.ofNat 8 (x.bar lvl).count,
     BitVec.ofNat 8 ((if arrived lvl then 1 else 0) + (if x.phase = .barrier lvl then 2 else 0))]

/-- A mailbox entry. -/
def Mbx.bytes (m : Mbx) : List Byte := layout 16 [(0, lowBytes m.val 8), (8, leBytes 1 m.reg), (9, [1#8])]

/-- A task record on the deque; the top one is marked. -/
def dequeBytes (l : List DqRec) : List Byte :=
  ((List.range l.length).zip l).flatMap fun (i, r) =>
    let top := if i + 1 = l.length then 2 ^ 63 else 0
    TaskRec.bytes { r.task with entry := r.task.entry ||| BitVec.ofNat 64 top }

/-- Some equal-sized records cut or filled up to a number of bytes. -/
def fit (n : Nat) (l : List Byte) : List Byte := l.take n ++ List.replicate (n - l.length) 0#8

/-- The core section: what the core holds, which threads have arrived in an incomplete phase of a level, and the bytes
of its banks by offset. -/
def Core.section_ (k : Core) (arrived : Nat → Nat → Bool) (bank : Nat → Byte) : List Byte :=
  let ts := (List.range 8).map k.thread
  let comps := [5, 6, 7].flatMap fun q => fitComps (SMap.get [] q k.comps)
  layout 0x38000 [
    (0x0000, ts.flatMap Thread.imageBytes),
    (0x0500, (List.range 8).flatMap fun t => fit 96 (records (k.tq.filter fun m => m.g1.toNat / 2 ^ 24 % 8 == t) HMsg.bytes)),
    (0x0800, fit 384 (records (k.nq.flatMap (·.2)) HMsg.bytes)),
    (0x0980, leBytes 8 k.tqDrop ++ leBytes 8 (k.nqDrop.foldl (fun a r => a + r.2) 0)),
    (0x0990, (List.range 8).flatMap fun t => (k.thread t).barBytes (arrived t)),
    (0x0A00, ts.flatMap fun x => fit 256 (records x.mbx Mbx.bytes)),
    (0x1200, (k.active ++ k.shadow).flatMap fun v => leBytes 2 v.toNat),
    (0x1280, lowBytes k.frm 8 ++ lowBytes k.fxf 8 ++ lowBytes k.vxf 8 ++ lowBytes k.vxe 8 ++ leBytes 8 (k.grant % 128)),
    (0x1300, (List.range 16).flatMap fun i => shapeBytes (SMap.get 0 i k.shp)),
    (0x1700, (List.range 16).map fun i => let h := SMap.get 0 i k.hold; if h = 0 then 0#8 else BitVec.ofNat 8 (h - 1 + 128)),
    (0x1800, (List.range 5).flatMap fun q => fit 1024 (records (SMap.get [] q k.q) Eff.cmdBytes)),
    (0x2C00, comps.flatMap fun w => lowBytes ((w.bind (·.word)).getD 0) 8),
    (0x2F00, comps.map fun w => match w with
      | none => 0#8
      | some v => BitVec.ofNat 8 (v.thr % 8 + if v.word.isNone then 128 else 0)),
    (0x3000, fit 2048 (dequeBytes k.deque)),
    (0x3800, (List.range 256).flatMap fun i => leBytes 4 (SMap.get 0 i k.dtab).toNat),
    (0x3C00, ts.flatMap fun x => (List.range 15).flatMap fun i =>
      let e := SMap.get 0 (i + 1) x.exs
      let n := if e ≠ 0 then e else SMap.get 0 (i + 1) x.lastSrc
      leBytes 2 (if n = 0 then 0 else (n - 1) % 2 ^ 14 + 2 ^ 15)),
    (0x4000, (List.range 0x30000).map bank),
    (0x34000, ts.flatMap fun x => fit 2048 (records x.s5 Eff.stepBytes))]
where
  /-- The 32 places of a completion register. -/
  fitComps (l : List Comp) : List (Option Comp) := (List.range 32).map fun i => l[i]?

/-! ### The cluster section (R376) -/

/-- OWN of a tile as TQRY gives it (R214). -/
def ownCode : Owner → Nat
  | .free => 0
  | .ctx _ => 1
  | .eng _ => 2

/-- A held tile task's record, with the predecessors that have completed (R376; log entry 44). -/
def TTask.saveBytes (k : TTask) : List Byte :=
  let done := (List.range 4).flatMap fun i =>
    let p := k.at_ (0x14 + 2 * i) 2
    leBytes 2 (if p != 0 && !k.waits.contains p then p else 0)
  k.bytes.take 0x28 ++ done ++ k.bytes.drop 0x30

/-- The tiles that a context owns on a cluster, directly or through engines. -/
def Cluster.tilesOf (q : Cluster) (x : Nat) : List Nat :=
  (List.range 64).filter fun n => (q.tile n).own == .ctx x || (q.tile n).own == .eng x

/-- The cluster section for a context: its part of the cluster, and the bytes of its tiles by offset. -/
def Cluster.section_ (q : Cluster) (x : Nat) (tile : Nat → Byte) : List Byte :=
  let own := q.tilesOf x
  let g := q.trel.image x
  layout (0x14000 + 0x10000 * own.length) ([
    (0x0000, leBytes 8 (own.foldl (fun a n => a + 2 ^ n) 0)),
    (0x0008, (List.range 64).map fun n =>
      if own.contains n then BitVec.ofNat 8 (ownCode (q.tile n).own + (q.tile n).tag % 16 * 16) else 0#8),
    (0x0048, (List.range 8).flatMap fun i => leBytes 2 (SMap.get 0 i q.roles).toNat),
    (0x0058, (List.range 4).flatMap fun i => lowBytes (SMap.get 0 i q.vec) 8),
    (0x0100, fit 8192 (records q.sched TTask.saveBytes)),
    (0x2100, fit 1024 (records q.ladle fun r => layout 64 [(0, r.e.ctlBytes), (0x28, leBytes 8 r.prog)])),
    (0x2500, fit 2048 (records q.trel.win fun w => w.e.cmdBytes)),
    (0x2D00, (List.range 1024).map fun i =>
      BitVec.ofNat 8 ((List.range 8).foldl (fun a b => if SMap.get false (8 * i + b) g.full then a + 2 ^ b else a) 0)),
    (0x4000, (List.range 8192).flatMap fun i => leBytes 4 (SMap.get 0 i g.val).toNat),
    (0xC000, (List.range 8192).flatMap fun i => leBytes 4 (SMap.get 0 i g.grad).toNat)]
    ++ ((List.range own.length).zip own).map fun (i, n) =>
      (0x14000 + 0x10000 * i, (List.range 0x10000).map fun o => tile (0x10000 * n + o)))

/-! ### The die section -/

/-- The die section, whose layout the spec leaves open: 64 bytes for each thing it holds, of free values. -/
def dieSection (v : SecDie) (packets : Nat) : List Byte :=
  (List.range (64 * (v.body.press.length + v.body.net.length + packets))).map (Config.fileByte 100 v.die)

/-! ### The whole object (R374) -/

/-- A directory entry. -/
structure DirEnt where
  kind : Nat
  status : Nat
  name : Nat
  body : List Byte
  deriving DecidableEq, Repr

/-- The bytes of one directory entry whose section starts at an offset. -/
def DirEnt.bytes (d : DirEnt) (off : Nat) : List Byte :=
  layout 32 [(0, [BitVec.ofNat 8 d.kind, BitVec.ofNat 8 d.status]), (2, leBytes 2 d.name), (8, leBytes 8 (if d.body.isEmpty then 0 else off)),
    (16, leBytes 8 d.body.length), (24, lowBytes (crc64 d.body) 8)]

/-- The directory and the sections after it. -/
def dirBytes (ds : List DirEnt) : List Byte × List Byte :=
  let r := ds.foldl (fun (a : List Byte × List Byte × Nat) d =>
    (a.1 ++ d.bytes a.2.2, a.2.1 ++ d.body, a.2.2 + d.body.length)) ([], [], 64 + 32 * ds.length)
  (r.1, r.2.1)

/-- The directory entries of a save: cores, clusters, dies; a killed core has no section (R373). -/
def Save.entries (v : Save) (arrived : Nat → Nat → Nat → Bool) : List DirEnt :=
  let byte (l : Nat) : Byte := SMap.get 0#8 l v.bytes
  v.cores.map (fun c => { kind := 1, status := c.status, name := c.name, body := if c.status = 2 then [] else c.body.section_ (arrived c.phys) fun o => byte (locBank c.phys o) })
    ++ v.clus.map (fun q => { kind := 2, status := q.status, name := q.clu * 16, body := q.body.section_ v.ctx fun o => byte (locTile q.clu o) })
    ++ v.dies.map fun d => { kind := 3, status := d.status, name := d.die * 2048, body := dieSection d (v.msgs.filter fun m => dieOf m.dst == d.die).length }

/-- The header and the directory, and what follows (R374). -/
def Save.image (v : Save) (tag : Nat) (arrived : Nat → Nat → Nat → Bool) : List Byte × List Byte :=
  let ds := v.entries arrived
  let (dir, body) := dirBytes ds
  let flags := (if ds.any (fun d => d.status == 1) then 1 else 0) + (if v.pool then 2 else 0) + (if v.converted then 4 else 0)
  let head := layout 64 [(0, leBytes 2 v.ver), (2, leBytes 2 (v.ctx % 4096)), (4, [BitVec.ofNat 8 tag, BitVec.ofNat 8 flags]),
    (6, leBytes 2 v.cores.length), (8, leBytes 8 v.stop), (0x10, leBytes 4 v.pmv), (0x14, leBytes 4 ds.length),
    (0x18, leBytes 8 (64 + dir.length + body.length))]
  (head.take 56 ++ lowBytes (crc64 (head ++ dir)) 8 ++ dir, body)

end Sys2Proof.Machine
end

