-- ==== Sys2Proof/Machine/Partitions.lean ====
section
/-! DEFINITION. Partitions (R366 to R369), the synchronised stop (R58, R370 to R373), the save and the restore
(R374, R377 to R380), and firmware activation (R381). -/

namespace Sys2Proof

/-! ### Supervisor requests (R367) -/

/-- The fields of a supervisor request, byte by byte (R367): its operation. -/
def SupReq.op (r : SupReq) : Nat := leAt r.unit 0 1
def SupReq.tag (r : SupReq) : Nat := leAt r.unit 2 1
def SupReq.flags (r : SupReq) : Nat := leAt r.unit 3 1
def SupReq.ctx (r : SupReq) : Nat := leAt r.unit 4 2
def SupReq.vats (r : SupReq) : Nat := leAt r.unit 6 1
def SupReq.trees (r : SupReq) : Nat := leAt r.unit 7 1
def SupReq.cores (r : SupReq) : Word := Machine.wordAt r.unit 8
def SupReq.slice (r : SupReq) : Nat := leAt r.unit 0x10 4
def SupReq.save (r : SupReq) : Word := Machine.wordAt r.unit 0x18

/-- A request that is no 64-byte unit, or holds a non-zero reserved byte. -/
def SupReq.reserved (r : SupReq) : Bool := r.unit.length != 64 || leAt r.unit 0x14 4 != 0 || leAt r.unit 0x20 32 != 0

end Sys2Proof

namespace Sys2Proof.Machine

/-- The supervisor's answer: STATUS in the request's unit of the supervisor ring. -/
def State.answerSup (s : State) (r : SupReq) (status : Nat) : State :=
  { s with supRing := s.supRing ++ [r.unit.set 1 (BitVec.ofNat 8 status)] }

/-- A logical name that a bitmap may hold (R155, R367). -/
def bitmapName (n : Nat) : Bool := n < 2 ^ 14 && !isCC n && n / 16 % 128 < 80

/-- A request that R367 does not allow. -/
def supBad (r : SupReq) : Bool :=
  r.reserved || match r.op with
    | 1 => r.tag == 0 || 64 ≤ r.tag || r.flags == 0 || 16 ≤ r.flags || 2 ^ 12 ≤ r.ctx || r.vats == 0 || 3 ≤ r.vats
        || r.trees == 0 || 5 ≤ r.trees || (r.slice != 0 && (r.slice < 100 || 20000 < r.slice))
        || (r.slice == 0) != (r.save == 0#64)
    | 2 => r.tag == 0 || 64 ≤ r.tag || r.flags != 0
    | 3 => 2 ≤ r.flags
    | _ => true

/-- The logical names of a bitmap, bit n for name n. -/
def bitmapNames (bs : List Byte) : List Nat :=
  ((List.range bs.length).zip bs).flatMap fun (i, b) => ((List.range 8).filter fun j => b.getLsbD j).map (8 * i + ·)

/-- What the supervisor finds where CORES points: the names, a wait for an extent, or nothing that it can use. -/
inductive Bitmap where
  | names (s : State) (l : List Nat)
  | wait (s : State)
  | bad

/-- The supervisor reads the bitmap of 2 KiB in the host's context (R367; log entry 132). -/
def State.readBitmap (s : State) (p : Word) : Bitmap :=
  if fpHnd p = 0 then .bad
  else match s.chkRange 0 1 p 0 2048 false with
    | .fault _ _ => .bad
    | .absent oid x _ => .wait (s.report oid x)
    | .hold => .wait s
    | .ok ls =>
      match s.readAll (agHub 1) ls with
      | none => .bad
      | some (s1, bs) => let l := bitmapNames bs; if l.all bitmapName then .names s1 l else .bad

/-- A context that the host created, or its own. -/
def State.hostCtx (s : State) (x : Nat) : Bool := x == 1 || ((s.ctx x).alive && (s.ctx x).owner == 1)

/-! ### Mapping (R368, R369) -/

/-- A physical core that no partition maps and that is in service, neither a spare nor withdrawn. -/
def State.unmapped (s : State) (c : Nat) : Bool :=
  (s.core c).ptag == 0 && !(s.core c).isSealed && (s.unit (unitCore c)).state == 0
    && !s.stops.any fun k => k.core && k.target == c

/-- The compute cores of a die. -/
def dieCores (d : Nat) : List Nat := (List.range 80).flatMap fun q => coresOf (d * 128 + q)

/-- A cluster has room for a partition's engine shares beside those of the partitions that `keep` tells (R368, R369). -/
def State.shareRoom (s : State) (keep : Nat → Part_ → Bool) (vats trees cl : Nat) : Bool :=
  let on := s.parts.filter fun r => r.2.alive && keep r.1 r.2 && (s.partClusters r.1).contains cl
  decide (on.foldl (fun a r => a + r.2.vats) vats ≤ 2) && decide (on.foldl (fun a r => a + r.2.trees) trees ≤ 4)

/-- A core that a partition can be given now; one with a slice shares engines too (R368, R369). -/
def State.usableFor (s : State) (tag : Nat) (p : Part_) (c : Nat) : Bool :=
  s.unmapped c && (p.slice == 0 || s.shareRoom (fun t q => t != tag && q.running) p.vats p.trees (clusterOf c))

/-- The physical core for a logical name: of its own cluster where one is free, else of its die. -/
def pickCore (free : Nat → Bool) (used : List Nat) (n : Nat) : Option Nat :=
  let ok (c : Nat) : Bool := free c && !used.contains c
  match (coresOf (clusterOf n)).find? ok with
  | some c => some c
  | none => (dieCores (dieOf n)).find? ok

/-- Physical cores for some logical names, each its namesake where that is free; none if they are too few (R368). -/
def mapNames (free : Nat → Bool) (names : List Nat) : Option (List (Nat × Nat)) :=
  let own := names.filter free
  let rest := names.filter fun n => !own.contains n
  (rest.foldl (fun (a : Option (List (Nat × Nat))) n =>
    a.bind fun l => (pickCore free (own ++ l.map (·.2)) n).map fun c => l ++ [(n, c)]) (some [])).map fun l =>
      own.map (fun n => (n, n)) ++ l

/-- Cores of some kind suffice, die by die, for some names. -/
def holds (free : Nat → Bool) (names : List Nat) : Bool :=
  (List.range 8).all fun d => (names.filter fun n => dieOf n == d).length ≤ ((dieCores d).filter free).length

/-- A core on which a partition can run beside the resident ones, and beside the one with the tag `also`, the other partitions
with a slice stopped (R369). -/
def State.shareable (s : State) (also : Nat) (p : Part_) (c : Nat) : Bool :=
  let t := (s.core c).ptag
  (s.unmapped c || (t != 0 && t != also && (s.part t).slice != 0))
    && s.shareRoom (fun u q => q.running && (q.slice == 0 || u == also)) p.vats p.trees (clusterOf c)

/-- The launches of a partition that have not ended. -/
def State.busyPart (s : State) (tag : Nat) : Bool :=
  s.launches.any fun r => !r.2.hdr.isEmpty && r.2.ctx == (s.part tag).ctx && !r.2.ended

/-- Entries of a partition's table written (R258, R368). -/
def State.mapAll (s : State) (tag : Nat) (l : List (Nat × Nat)) : State := l.foldl (fun st p => st.partw tag p.1 p.2 true) s

/-- A core leaves its partition empty. -/
def State.unmapCore (s : State) (tag n : Nat) : State :=
  match s.phys tag n with
  | none => s
  | some c => (s.partw tag n 0 false).setCore c {}

/-- The last place in the order in which partitions with a slice run (R369). -/
def State.lastTurn (s : State) : Nat := s.parts.foldl (fun a r => max a r.2.turn) 0

/-- What OP 1 sets, but for the mapping; a new partition takes the last place in the order of requests (R369). -/
def State.setShares (s : State) (r : SupReq) (names : List Nat) : State :=
  let s1 := s.modPart r.tag fun p => { p with
    alive := true, ctx := r.ctx, weight := r.flags, vats := r.vats, trees := r.trees, slice := r.slice, save := r.save
    names := names, pending := none, want := [], turn := if p.alive then p.turn else s.lastTurn + 1 }
  s1.modCtx r.ctx fun k => { k with tag := r.tag }

/-- A partition is removed: its cores are unmapped, its save is freed and the tag is free (R368). -/
def State.dropPart (s : State) (tag : Nat) : State :=
  let p := s.part tag
  let s1 := if p.saved then s else p.map.foldl (fun st r => st.unmapCore tag r.1) s
  let s2 : State := { s1 with
    parts := SMap.set {} tag {} s1.parts
    saves := SMap.set {} tag {} s1.saves
    stops := s1.stops.filter fun k => k.core || k.target != tag }
  s2.modCtx p.ctx fun k => { k with tag := ((s2.partsOf p.ctx).head?).getD 0 }

/-- The launches that have a thread, or a record, on a core. -/
def Core.lids (k : Core) : List Nat :=
  ((k.th.filter fun t => t.2.st ≠ 0).map (·.2.lid) ++ if k.deque.isEmpty && k.due7.isNone then [] else [k.lid]).filter (· != 0)

/-- What is pending for a partition takes effect if it may (R368): a removal, and any change of a partition that is
never stopped for a slice, once the launches of the context have ended; a change of cores once those that join can be mapped.
What still stands on a core that leaves at a resume ends with it, as on a core that is lost (DESIGN CHOICE, log entry 144). -/
def State.settlePending (s : State) (tag : Nat) : State :=
  let p := s.part tag
  match p.pending with
  | none => s
  | some r =>
    if (r.op = 2 ∨ p.slice = 0) ∧ s.busyPart tag then s
    else if r.op = 2 then s.dropPart tag
    else
      let names := p.want
      let gone := p.names.filter fun n => !names.contains n
      let left := gone.filterMap (s.phys tag)
      let lost := (left.flatMap fun c => (s.core c).lids).dedup
      let s1 := gone.foldl (fun st n => st.unmapCore tag n) s
      let q : Part_ := { p with slice := r.slice, vats := r.vats, trees := r.trees }
      match mapNames (s1.usableFor tag q) (names.filter fun n => !p.names.contains n) with
      | none => s
      | some l =>
        let s2 : State := { s1 with launches := s1.launches.map fun w => (w.1, { w.2 with cores := w.2.cores.filter fun c => !left.contains c }) }
        lost.foldl (fun st w => st.endLaunch w 0xA0 0xA0) ((s2.mapAll tag l).setShares r names)

/-- SET_PARTITION (R368, R369): OP 1. -/
def execSetPartition (r : SupReq) (s : State) : Host.Outcome State Fault Refusal :=
  if r.op = 2 ∨ r.op = 3 then .next s
  else if supBad r then .next (s.answerSup r 0x80)
  else if !s.hostCtx r.ctx then .next (s.answerSup r 0x06)
  else match s.readBitmap r.cores with
    | .wait s0 => .next s0
    | .bad => .next (s.answerSup r 0x80)
    | .names s0 names =>
      if (s0.part r.tag).alive then
        let s1 := (s0.modPart r.tag fun p => { p with pending := some r, want := names }).answerSup r 0
        .next (if (s0.part r.tag).slice = 0 then s1.settlePending r.tag else s1)
      else
        let p : Part_ := { slice := r.slice, vats := r.vats, trees := r.trees }
        match mapNames (s0.usableFor r.tag p) names with
        | some l => .next ((((s0.mapAll r.tag l).setShares r names).modPart r.tag fun p => { p with running := true, since := s.dtime }).answerSup r 0)
        | none =>
          if r.slice = 0 || !holds (s0.shareable 0 p) names then .next (s0.answerSup r 0xB3)
          else .next (((s0.setShares r names).modPart r.tag fun p => { p with running := false }).answerSup r 0)

/-- REMOVE_PARTITION (R368): OP 2 waits as OP 1 does, then frees the tag. -/
def execRemovePartition (r : SupReq) (s : State) : Host.Outcome State Fault Refusal :=
  if r.op ≠ 2 then .next s
  else if supBad r then .next (s.answerSup r 0x80)
  else if !(s.part r.tag).alive then .next (s.answerSup r 0)
  else
    let s1 := (s.modPart r.tag fun p => { p with pending := some r }).answerSup r 0
    .next (if (s.part r.tag).slice = 0 then s1.settlePending r.tag else s1)

/-! ### Slices and announcements (R369, R370) -/

/-- A partition with a slice that waits for its cores. -/
def Part_.waits (p : Part_) : Bool := p.alive && !p.running && p.slice != 0 && (p.map.isEmpty || p.saved)

/-- SLICE_EXPIRY (R369): a partition that has run for its SLICE is to stop, 34,000 A-cycles ahead, if another one waits beside
which it does not fit, or if something is pending for it. -/
def execSliceExpiry (tag : Nat) (s : State) : Host.Outcome State Fault Refusal :=
  let p := s.part tag
  let waits := s.parts.any fun r => r.1 != tag && r.2.waits && !holds (s.shareable tag r.2) r.2.names
  if !p.alive || !p.running || p.slice = 0 || s.dtime < p.since + p.slice * 850 || !(waits || p.pending.isSome)
      || s.stops.any (fun k => !k.core && k.target == tag) then .next s
  else .next { s with stops := s.stops ++ [{ core := false, target := tag, time := s.dtime + 34000 }] }

/-- A stop replaced. -/
def State.setStop (s : State) (k : Nat) (q : Stop) : State := { s with stops := s.stops.set k q }

/-- STOP_ANNOUNCEMENT (R370): the announcement has reached every core, every engine and the placer. -/
def execStopAnnouncement (k : Nat) (s : State) : Host.Outcome State Fault Refusal :=
  match s.stops[k]? with
  | none => .next s
  | some q => if q.announced then .next s else .next (s.setStop k { q with announced := true })

/-! ### The stop (R58, R370) -/

/-- The physical cores that a stop stops. -/
def State.stopCores (s : State) (q : Stop) : List Nat := if q.core then [q.target] else (s.part q.target).cores

/-- Effects that step 5 has not dispatched are to be checked again (R377). -/
def Thread.keepS5 (x : Thread) : Thread :=
  { x with s5 := x.s5.map fun e => if e.st = 0 ∨ e.op = 0x71 then { e with again := true } else e }

/-- The capture of a thread by the first case of R58 that applies (a trap or a not-present condition that a group has met
and not yet reported is raised again by its replay, or reported now where the group updates itself); none while the stop waits for what a self-updating
group, or one whose last access has performed, is still owed. -/
def State.capture (s : State) (c t : Nat) : Option State :=
  let x := s.thr c t
  let g := x.grp
  let keep (st : State) : State := st.modThr c t (·.keepS5)
  match x.phase with
  | .step5 => some (keep s)
  | .barrier _ => some s
  | _ =>
    if x.st = 0 ∨ x.st = 3 ∨ x.st = 4 then some s
    else if g.res.any fun r => r.isLast && r.done then
      (if g.returned then some (keep (s.commit c t)) else none)
    else if g.self.isSome then
      if !g.returned then none
      else if x.phase = .marker ∨ g.trap.isSome ∨ !g.np.isEmpty then some (keep (s.commit c t))
      else some (keep (s.commitCut c t g.n x.pc .none))
    else if !(g.res.isEmpty && g.defs.isEmpty && g.marks.isEmpty && g.trap.isNone && g.np.isEmpty) then
      some ((s.discard c t).modThr c t fun y => { y with st := 1, prsn := 0, phase := .issue, pc := g.head })
    else if x.phase = .marker then some (keep (s.commit c t))
    else if g.n = 0 then some s
    else
      let more := (x.answers.filter fun a => g.n ≤ a.1).map fun a => (a.1 - g.n, a.2)
      some ((s.commitCut c t g.n x.pc .none).modThr c t fun y =>
        { y with st := x.st, prsn := x.prsn, parkReg := x.parkReg, answers := more })

/-- Every thread of some cores is captured. -/
def State.captureAll (s : State) (cs : List Nat) : Option State :=
  (cs.flatMap fun c => (List.range 8).map fun t => (c, t)).foldl
    (fun (a : Option State) p => a.bind fun st => st.capture p.1 p.2) (some s)

/-- SYNC_STOP (R58, R370): at the stop time every core stops issuing and its threads are captured. -/
def execSyncStop (k : Nat) (s : State) : Host.Outcome State Fault Refusal :=
  match s.stops[k]? with
  | none => .next s
  | some q =>
    let cs := s.stopCores q
    if !q.announced || q.stopped || s.dtime < q.time then .next s
    else match s.captureAll cs with
      | none => .next s
      | some s1 => .next ((cs.foldl (fun st c => st.modCore c fun w => { w with stopped := true }) s1).setStop k { q with stopped := true })

/-! ### The flush (R372, R373) -/

/-- A packet is one of a stop's: from its partition, for one of its cores or for a control core; or for the stop's core. -/
def State.flushes (s : State) (q : Stop) (d dst stamp : Nat) : Bool :=
  dieOf dst == d && if q.core then dst == q.target else stamp == q.target && (isCC dst || (s.stopCores q).contains dst)

/-- FLUSH_TOKEN (R372): the token has swept the channels of a die: the packets ahead of it are in the save buffers. A
SEND held at a full mailbox goes back to its thread's record undispatched (R377). -/
def execFlushToken (k d : Nat) (s : State) : Host.Outcome State Fault Refusal :=
  match s.stops[k]? with
  | none => .next s
  | some q =>
    if !q.stopped || q.flushed.contains d || !((s.stopCores q).map dieOf).contains d then .next s
    else
      let mine (m : Msg) : Bool := !m.fw && s.flushes q d m.dst m.stamp
      let full (m : Msg) : Bool := decide (16 ≤ (s.thr m.dst m.thr).mbx.length) && !q.core
      let back := s.msgs.filter fun m => mine m && full m
      let s1 := back.foldl (fun (st : State) m => st.modThr m.e.core m.e.thr fun x => { x with
        s5 := x.s5.map fun e => if e.seq = m.e.seq ∧ e.st = 1 then { e with st := 0, again := true } else e }) s
      let gone (m : Mig) : Bool := s.flushes q d m.dst m.stamp
      let hm (h : HTrans) : Bool := dieOf h.dst == d && (s.stopCores q).contains h.dst
      .next (({ s1 with
          msgs := s.msgs.filter fun m => !mine m
          migs := s.migs.filter fun m => !gone m
          hmsgs := s.hmsgs.filter fun h => !hm h } : State).setStop k { q with
        flushed := d :: q.flushed
        msgs := q.msgs ++ s.msgs.filter fun m => mine m && !full m
        migs := q.migs ++ s.migs.filter gone
        held := q.held ++ s.hmsgs.filter hm })

/-! ### The save (R373 to R378) -/

/-- Every write to a place kept in a save has been applied at its home. -/
def State.placesSettled (s : State) (mine : Nat → Bool) : Bool :=
  s.oom.ws.all fun w => !mine w.loc || s.oom.settledAtHome w

/-- What a save waits for (R370, R371, R377): the flush, the commit queues and vector operations of the cores, their range
scoreboards but for the commands that are saved, started work of their engines, and answers outstanding. -/
def State.saveReady (s : State) (q : Stop) (mine : Nat → Bool) : Bool :=
  let cs := s.stopCores q
  q.stopped && (cs.map dieOf).all q.flushed.contains
    && (cs.all fun c => (s.core c).vq.isEmpty && (s.core c).th.all fun r => r.2.cq.isEmpty)
    && (cs.all fun c => (s.core c).scb.all fun e => (s.coreCommands c).any fun k => k.thr == e.thr && k.seq == e.seq)
    && !(s.hub.any fun r => r.frame.isNone && cs.contains r.e.core)
    && !(s.owed.any fun o => o.queue.isNone && cs.contains o.core)
    && !(s.clus.any fun r => r.2.sched.any fun k => k.vat != 0 && cs.contains k.e.core)
    && !(s.clus.any fun r => r.2.trel.win.any fun w => w.started && cs.contains w.e.core)
    && s.placesSettled mine

/-- The bytes that the homes of some places hold, zeros left out. -/
def State.bytesAt (s : State) (mine : Nat → Bool) : List Host.Cell :=
  let ls := ((s.mem.filter fun r => mine r.1).map (·.1) ++ (s.oom.hl.filter fun r => mine r.1).map (·.1)).dedup
  ls.foldl (fun m l => SMap.set 0#8 l ((s.homeBytes [l]).headD 0#8) m) []

/-- A place of a core's banks, or of a tile that the context owns on one of the clusters. -/
def State.savedPlace (s : State) (cs cls : List Nat) (x l : Nat) : Bool :=
  if locKind l = 0 then cs.contains (locId l)
  else locKind l == 1 && cls.contains (locId l) && ((s.clu (locId l)).tilesOf x).contains (locOff l / 65536)

/-- A cluster's part that belongs to a context and to some cores. -/
def Cluster.partOf (q : Cluster) (x : Nat) (cs : List Nat) : Cluster :=
  { tiles := q.tiles.filter fun r => (q.tilesOf x).contains r.1
    roles := q.roles, vec := q.vec
    sched := q.sched.filter fun k => cs.contains k.e.core
    trel := { win := q.trel.win.filter (fun w => cs.contains w.e.core), img := SMap.set {} x (q.trel.image x) [] }
    ladle := q.ladle.filter fun r => cs.contains r.e.core }

/-- The cluster without that part; the tiles are given back and zero-filled. -/
def Cluster.without (q : Cluster) (x : Nat) (cs : List Nat) : Cluster :=
  { q with
    tiles := q.tiles.map fun r => if (q.tilesOf x).contains r.1 then (r.1, { own := .free, filling := true }) else r
    sched := q.sched.filter fun k => !cs.contains k.e.core
    trel := { q.trel with win := q.trel.win.filter (fun w => !cs.contains w.e.core), img := SMap.set {} x {} q.trel.img }
    ladle := q.ladle.filter fun r => !cs.contains r.e.core }

/-- A request of one of some cores: what a port has recorded of messages without a post is none (R371, R376). -/
def NReq.ofCores (r : NReq) (cs : List Nat) : Bool := r.op < 12 && cs.contains r.e.core

/-- A die's part that belongs to some cores, or the rest. -/
def Die.partOf (q : Die) (cs : List Nat) : Die :=
  { press := q.press.filter (fun m => cs.contains m.e.core), net := q.net.filter fun r => r.ofCores cs }
/-- The die without that part. -/
def Die.without (q : Die) (cs : List Nat) : Die :=
  { q with press := q.press.filter (fun m => !cs.contains m.e.core), net := q.net.filter fun r => !r.ofCores cs }

/-- The save object of a save pointer of the host, whose pins hold: every extent that a save needs is there (R374, R378). -/
def State.saveObj (s : State) (p : Word) (n : Nat) : Option Nat :=
  let d := s.desc 1 (fpHnd p)
  let o := s.obj d.oid
  let held (x : Nat) : Bool := let e := s.extent d.oid x; e.present && e.pin
  if d.st ≠ .valid || o.kind ≠ .save || o.size < n || !(List.range ((n + 2 ^ 18 - 1) / 2 ^ 18)).all held then none
  else some d.oid

/-- The state in a core's barrier bytes: it has arrived in a phase that is not complete (R375). -/
def State.arrivedIn (s : State) (c t lvl : Nat) : Bool :=
  let n := ((s.thr c t).bar lvl).count
  n != 0 && !s.phaseDone c t lvl n

/-- STATUS of a section: killed before the save, or met by an uncorrectable error in it (R373, R378). -/
def secStatus (killed : Bool) (bad : List Nat) (i : Nat) : Nat := if killed then 2 else if bad.contains i then 1 else 0

/-- The save of a stop, its sections in the order of the directory, a killed core that has no place any longer among them
(R373); `bad` lists the entries in whose sections an uncorrectable error was met. -/
def State.makeSave (s : State) (q : Stop) (bad : List Nat) (mine : Nat → Bool) (cls ds : List Nat) : Save :=
  let x := if q.core then (s.part (s.core q.target).ptag).ctx else (s.part q.target).ctx
  let mapped := ((s.part q.target).map.filter fun r => r.2 != 0).map fun r => (r.1, r.2 - 1)
  let rows := if q.core then [(s.logical q.target, q.target)] else mapped
  let cs := rows.map (·.2)
  let gone := if q.core then [] else (q.killed.filter fun n => !(mapped.any fun r => r.1 == n)).dedup
  let nc := rows.length + gone.length
  { ctx := x
    cores := (((List.range nc).zip rows).map fun (i, n, c) =>
      { name := n, phys := c, status := secStatus (q.killed.contains n) bad i, body := s.core c })
        ++ gone.map fun n => { name := n, phys := n, status := 2, body := {} }
    clus := ((List.range cls.length).zip cls).map fun (i, cl) =>
      { clu := cl, status := secStatus false bad (nc + i), body := (s.clu cl).partOf x cs }
    dies := ((List.range ds.length).zip ds).map fun (i, d) =>
      { die := d, status := secStatus false bad (nc + cls.length + i), body := (s.die d).partOf cs }
    bytes := s.bytesAt mine
    msgs := q.msgs, migs := q.migs, held := q.held, stop := q.time, pmv := s.pmVer, seen := s.oom.nextId }

/-- The key of a stop's save: a partition's tag, or 64 and more for a core. -/
def Stop.key (q : Stop) : Nat := if q.core then 64 + q.target else q.target

/-- The save written into its object, or into the hub's pool with a record at /sys/time (R378). -/
def State.writeSave (s : State) (v : Save) (tag : Nat) (p : Word) : State × Save :=
  let arrived (c t lvl : Nat) : Bool := s.arrivedIn c t lvl
  let (h, b) := v.image tag arrived
  match s.saveObj p (h.length + b.length) with
  | some oid => ((s.blit (locObj oid 0) (h ++ b)), { v with oid := oid })
  | none => if p = 0 then (s, { v with pool := true }) else ({ s with times := s.times ++ [{ reason := 0x91, start := s.dtime, stop := v.stop, val := tag }] }, { v with pool := true })

/-- A section that has met an uncorrectable error: the record of it at /sys/time (R286, R378). -/
def State.damaged (s : State) (v : Save) (tag : Nat) : State :=
  { s with times := s.times ++ [{ reason := 0x92, start := s.dtime, stop := v.stop, val := tag }] }

/-- The cores of a save taken out of the machine. -/
def State.freeCores_ (s : State) (cs : List Nat) : State :=
  let s1 := cs.foldl (fun st c => (st.dropLogs c).setCore c {}) s
  { s1 with oom := { s1.oom with fr := s1.oom.fr.filter fun r => !cs.contains (r.1 / 8) || decide (2 ^ 17 ≤ r.1) } }

/-- The entries of a save's directory in whose sections a byte is uncorrectable (R378): cores, then clusters. -/
def State.badEntries (s : State) (cs cls : List Nat) : List Nat :=
  ((List.range cs.length).zip cs).filterMap (fun (i, c) => if s.bad.any fun l => locKind l == 0 && locId l == c then some i else none)
    ++ ((List.range cls.length).zip cls).filterMap fun (i, q) =>
      if s.bad.any fun l => locKind l == 1 && locId l == q then some (cs.length + i) else none

/-- PARTITION_SAVE (R370, R374, R378): firmware writes the save and the cores take PTAG 0. A single core's stop saves
its section alone (R373). -/
def execPartitionSave (k : Nat) (bad : List Nat) (s : State) : Host.Outcome State Fault Refusal :=
  match s.stops[k]? with
  | none => .next s
  | some q =>
    let cs := s.stopCores q
    let cls := if q.core then [] else (cs.map clusterOf).dedup
    let ds := if q.core then [] else (cs.map dieOf).dedup
    let x := (s.part q.target).ctx
    let mine := s.savedPlace cs cls x
    if !s.saveReady q mine then .next s
    else
      let v := s.makeSave q (bad ++ s.badEntries cs cls) mine cls ds
      if q.core then
        .next ((({ s with saves := SMap.set {} q.key { v with pool := true } s.saves } : State).freeCores_ cs).setStop k { q with msgs := [], migs := [], held := [] })
      else
        let (s0, v1) := s.writeSave v q.target (s.part q.target).save
        let s1 := if v.cores.any (·.status == 1) || v.clus.any (·.status == 1) || v.dies.any (·.status == 1) then s0.damaged v q.target else s0
        let s2 : State := { s1 with
          saves := SMap.set {} q.key v1 s1.saves
          clus := s1.clus.map fun r => if cls.contains r.1 then (r.1, r.2.without x cs) else r
          dies := s1.dies.map fun r => if ds.contains r.1 then (r.1, r.2.without cs) else r
          stops := s1.stops.eraseIdx k }
        .next ((s2.freeCores_ cs).modPart q.target fun p => { p with
          running := false, saved := true, since := q.time, turn := if p.slice = 0 then p.turn else s.lastTurn + 1 })

/-! ### The restore (R379, R380) -/

/-- Where saved state goes: the physical core of each core saved. -/
abbrev Relo := List (Nat × Nat)

/-- The new place of a core. -/
def Relo.core (m : Relo) (c : Nat) : Nat := match m.find? fun p => p.1 == c with | some p => p.2 | none => c
/-- The new place of a cluster. -/
def Relo.clu (m : Relo) (q : Nat) : Nat := match m.find? fun p => clusterOf p.1 == q with | some p => clusterOf p.2 | none => q
/-- The new place of a location. -/
def Relo.loc (m : Relo) (l : Nat) : Nat :=
  match locKind l with
  | 0 => locBank (m.core (locId l)) (locOff l)
  | 1 => locTile (m.clu (locId l)) (locOff l)
  | _ => l
/-- An effect or command at its new place. -/
def Relo.eff (m : Relo) (e : Eff) : Eff := { e with core := m.core e.core, locs := e.locs.map m.loc }
/-- A thread at its new place. -/
def Relo.thread (m : Relo) (x : Thread) : Thread := { x with s5 := x.s5.map m.eff }
/-- A core or a control core at its new place. -/
def Relo.node (m : Relo) (d : Nat) : Nat := if isCC d then ccOf (m.clu (clusterOf d) * 16) else m.core d
/-- A packet at its new place; one for a control core goes to that of the new cluster. -/
def Relo.msg (m : Relo) (w : Msg) : Msg := { w with dst := m.node w.dst, e := m.eff w.e }
/-- A migration image at its new place. -/
def Relo.mig (m : Relo) (w : Mig) : Mig := { w with src := m.core w.src, dst := m.core w.dst, image := m.thread w.image }
/-- A message for a handler at its new place; one for a control core goes to that of the new cluster. -/
def Relo.held (m : Relo) (h : HTrans) : HTrans :=
  { h with dst := m.node h.dst }
/-- A launch at its new place. -/
def Relo.launch (m : Relo) (l : Launch) : Launch :=
  { l with cores := l.cores.map m.core, copies := l.copies.map fun p => (m.core p.1, m.core p.2), core := m.core l.core }

/-- The cores may be mapped so (R155, R368, R380): each name once, to a free core of its die, and the cores saved from
one cluster to one cluster. -/
def mayRestore (free : Nat → Bool) (names : List Nat) (old : List (Nat × Nat)) (new : List (Nat × Nat)) : Bool :=
  let m : Relo := new.filterMap fun p => (old.find? fun o => o.1 == p.1).map fun o => (o.2, p.2)
  names.all (fun n => (new.filter fun p => p.1 == n).length == 1)
    && new.all (fun p => names.contains p.1 && dieOf p.1 == dieOf p.2 && bitmapName p.2 && free p.2
        && (new.filter fun o => o.2 == p.2).length == 1)
    && m.all fun a => m.all fun b => (clusterOf a.1 == clusterOf b.1) == (clusterOf a.2 == clusterOf b.2)

/-- The restore may not use what is read: an uncorrectable byte, or a CRC that does not match (R378, R379). -/
def State.crcBad (s : State) (oid off len : Nat) (crc : Word) : Bool :=
  let ls := locs (locObj oid off) len
  ls.any s.bad.contains || crc64 (s.homeBytes ls) != crc

/-- The check of a save's header and directory (R374, R380). -/
def State.headBad (s : State) (v : Save) : Bool :=
  if v.pool then false
  else
    let n := 64 + 32 * (v.cores.length + v.clus.length + v.dies.length)
    let ls := locs (locObj v.oid 0) n
    let bs := s.homeBytes ls
    ls.any s.bad.contains || crc64 (bs.take 56 ++ List.replicate 8 0#8 ++ bs.drop 64) != wordAt bs 56

/-- A section of STATUS 0 that does not match its SCRC (R379). -/
def State.sectionBad (s : State) (v : Save) (i : Nat) : Bool :=
  if v.pool then false
  else
    let e := s.homeBytes (locs (locObj v.oid (64 + 32 * i)) 32)
    s.crcBad v.oid (leAt e 8 8) (leAt e 16 8) (wordAt e 24)

/-- A section that meets an uncorrectable error as it is read back (R378). -/
def State.sectionLost (s : State) (v : Save) (i : Nat) : Bool :=
  let e := s.homeBytes (locs (locObj v.oid (64 + 32 * i)) 32)
  !v.pool && (locs (locObj v.oid (leAt e 8 8)) (leAt e 16 8)).any s.bad.contains

/-- The sections of a save, in the order of its directory, that are lost so are marked STATUS 1, and the save DAMAGED, in the
object too (R378). -/
def State.markLost (s : State) (tag : Nat) (v : Save) : State × Save :=
  let nc := v.cores.length
  let nq := v.clus.length
  let n := nc + nq + v.dies.length
  let lost := (List.range n).filter (s.sectionLost v)
  if lost.isEmpty then (s, v)
  else
    let at_ (b i st : Nat) : Nat := if st = 0 ∧ lost.contains (b + i) then 1 else st
    let v1 := { v with
      cores := ((List.range nc).zip v.cores).map fun (i, c) => { c with status := at_ 0 i c.status }
      clus := ((List.range nq).zip v.clus).map fun (i, c) => { c with status := at_ nc i c.status }
      dies := ((List.range v.dies.length).zip v.dies).map fun (i, c) => { c with status := at_ (nc + nq) i c.status } }
    let bs := s.homeBytes (locs (locObj v.oid 0) (64 + 32 * n))
    let b1 := lost.foldl (fun l i => if l.getD (64 + 32 * i + 1) 0#8 = 0#8 then l.set (64 + 32 * i + 1) 1#8 else l) (bs.set 5 (bs.getD 5 0#8 ||| 1#8))
    let crc := crc64 (b1.take 56 ++ List.replicate 8 0#8 ++ b1.drop 64)
    ((s.blit (locObj v.oid 0) (b1.take 56 ++ lowBytes crc 8 ++ b1.drop 64)).damaged v tag, v1)

/-- A core's body put back: as it was saved, or empty with its tasks begun anew (R379, R388). -/
def State.putCore (s : State) (m : Relo) (tag : Nat) (v : SecCore) (good : Bool) : State :=
  let r := m.core v.phys
  if good then
    let k := v.body.mapEffs m.eff
    (s.setCore r { k with ptag := tag, stopped := true }).takeLogs r
  else
    let k := v.body
    let s1 := s.setCore r { ({} : Core) with
      ptag := tag, stopped := true, lid := k.lid, tpc := k.tpc, tpg := k.tpg, pin := k.pin, hint := k.hint, queue := k.queue
      wid0 := k.wid0, active := k.active, shadow := k.shadow, owned := k.owned, credit := k.credit
      deque := k.deque.map (fun d => { d with res := 0 }), dqNext := k.dqNext, due7 := k.due7 }
    let running := k.th.filter fun t => t.2.st ≠ 0 && t.2.lid ≠ 0
    let again := running.filter fun t => !bit t.2.task.entry.toNat 62
    let s2 := again.foldl (fun st t => st.restart r t.1 t.2) s1
    ((running.filter fun t => bit t.2.task.entry.toNat 62).map (·.2.lid)).dedup.foldl (fun st l => st.endLaunch l 0xA0 0xA0) s2

/-- A duo task's copies begin anew where one of them stood on a core whose section is lost (R379, R395). -/
def State.againDuos (s : State) (m : Relo) (v : SecCore) : State :=
  let r := m.core v.phys
  let duos := v.body.th.filter fun t => t.2.st ≠ 0 && t.2.lid ≠ 0 && t.2.duo && !bit t.2.task.entry.toNat 62
  duos.foldl (fun st t => match s.duoMate r t.1 with
    | some d => st.restartMate d t.1 t.2
    | none => st.thirdBegins t.2.lid r) s

/-- A cluster's part put back; its Ladle requests take numbers of the new cluster. -/
def Cluster.join (q v : Cluster) (m : Relo) (x : Nat) : Cluster :=
  let n := v.ladle.length
  { q with
    tiles := v.tiles.foldl (fun a r => SMap.set {} r.1 r.2 a) q.tiles
    roles := v.roles, vec := v.vec
    sched := q.sched ++ v.sched.map fun k => { k with e := m.eff k.e }
    trel := { q.trel with
      win := q.trel.win ++ v.trel.win.map (fun w => { w with e := m.eff w.e })
      img := SMap.set {} x (v.trel.image x) q.trel.img }
    ladle := q.ladle ++ ((List.range n).zip v.ladle).map fun (i, r) => { r with e := m.eff r.e, id := q.ladleNext + i }
    ladleNext := q.ladleNext + n }

/-- A die's part put back. -/
def Die.join (q v : Die) (m : Relo) : Die :=
  { q with
    press := q.press ++ v.press.map fun p => { p with e := m.eff p.e }
    net := q.net ++ v.net.map fun r => { r with e := m.eff r.e } }

/-- The tiles that a saved cluster needs are free at its new place. -/
def State.tilesFree (s : State) (m : Relo) (v : Save) : Bool :=
  v.clus.all fun q => q.body.tiles.all fun t =>
    let w := (s.clu (m.clu q.clu)).tile t.1
    w.own == .free && !w.filling

/-- Every launch of a context that has not ended, or every one of them that runs, ends with a cause. -/
def State.endLaunches (s : State) (x cause : Nat) (all : Bool := false) : State :=
  (s.launches.filter fun r => !r.2.hdr.isEmpty && r.2.ctx == x && !r.2.ended && (all || r.2.placed != 0)).foldl (fun st r => st.endLaunch r.1 cause cause) s

/-- The bytes of the banks and tiles put back for every agent. -/
def State.putBytes (s : State) (m : Relo) (v : Save) (good : Nat → Bool) : State :=
  let s1 := v.cores.foldl (fun st q => if good (locBank q.phys 0) then st.zeroRange (locBank (m.core q.phys) 0) 0x30000 else st) s
  let s2 := v.clus.foldl (fun st q => if good (locTile q.clu 0) then
    q.body.tiles.foldl (fun st2 t => st2.zeroRange (locTile (m.clu q.clu) (t.1 * 65536)) 65536) st else st) s1
  { s2 with mem := (v.bytes.filter fun r => good r.1).foldl (fun a r => SMap.set 0#8 (m.loc r.1) r.2 a) s2.mem }

/-- An agent at its new place: a thread of a core that has moved. -/
def Relo.agent (m : Relo) (a : Nat) : Nat := if a < 2 ^ 17 then agThread (m.core (a / 8)) (a % 8) else a

/-- The views, and the write events from before the save, of threads that now run on other cores are those cores' (R94,
R99). -/
def State.moveViews (s : State) (m : Relo) (seen : Nat) : State :=
  let mine := m.map (·.2)
  let late (e : Nat) : Bool := s.oom.ws.any fun w => w.ev == e && decide (seen ≤ w.id)
  { s with
    oom := { s.oom with evs := s.oom.evs.map fun r => if late r.1 then r else (r.1, { r.2 with agent := m.agent r.2.agent }) }
    cores := s.cores.map fun r => if !mine.contains r.1 then r else
      (r.1, { r.2 with th := r.2.th.map fun t => (t.1, { t.2 with rel := t.2.rel.map fun v => { v with pos := m.agent v.pos } }) }) }

/-- A cluster's Ladle that has taken over requests sees what was performed before the save (R100, R107). -/
def State.joinLadles (s : State) (m : Relo) (v : Save) : State :=
  let seen := (s.oom.ws.filter fun w => w.id < v.seen).map (·.id)
  (v.clus.filter fun q => !q.body.ladle.isEmpty).foldl (fun st q =>
    { st with oom := st.oom.see (agLadle (m.clu q.clu)) seen }) s

/-- What step 3 of a restore writes back (R379, R380): every good section, then the packets in their order; what a
damaged one held starts anew or ends. -/
def State.putBack (s : State) (m : Relo) (tag : Nat) (v : Save) : State :=
  let nc := v.cores.length
  let okCore (i : Nat) (c : SecCore) : Bool := c.status == 0 && !s.sectionBad v i
  let okClu (i : Nat) (c : SecClu) : Bool := c.status == 0 && !s.sectionBad v (nc + i)
  let okDie (i : Nat) (c : SecDie) : Bool := c.status == 0 && !s.sectionBad v (nc + v.clus.length + i)
  let cores := ((List.range nc).zip v.cores).map fun (i, c) => (c, okCore i c)
  let clus := ((List.range v.clus.length).zip v.clus).map fun (i, c) => (c, okClu i c)
  let dies := ((List.range v.dies.length).zip v.dies).map fun (i, c) => (c, okDie i c)
  let good (l : Nat) : Bool :=
    if locKind l = 0 then cores.any fun c => c.2 && c.1.phys == locId l else clus.any fun c => c.2 && c.1.clu == locId l
  let s1 := s.putBytes m v good
  let s2 : State := { s1 with launches := s1.launches.map fun r => if r.2.ctx = v.ctx then (r.1, m.launch r.2) else r }
  let s3 := clus.foldl (fun st c => if c.2 then st.modClu (m.clu c.1.clu) fun q => q.join c.1.body m v.ctx else st) s2
  let s3a := cores.foldl (fun st c => st.putCore m tag c.1 c.2) s3
  let s4 := (cores.filter fun c => !c.2).foldl (fun st c => st.againDuos m c.1) s3a
  let s5 := dies.foldl (fun st c => if c.2 then st.modDie c.1.die fun q => q.join c.1.body m else st) s4
  let okAt (d : Nat) : Bool := v.dies.isEmpty || dies.any fun c => c.2 && c.1.die == d
  let s6 : State := { s5 with
    msgs := s5.msgs ++ (v.msgs.filter fun w => okAt (dieOf w.dst)).map m.msg
    migs := s5.migs ++ v.migs.map m.mig
    hmsgs := s5.hmsgs ++ v.held.map m.held }
  let lost := clus.filter fun c => !c.2
  let hit := (s6.launches.filter fun r => r.2.ctx == v.ctx && !r.2.ended && r.2.cores.any fun c => lost.any fun q => m.clu q.1.clu == clusterOf c).map (·.1)
  let s7 := hit.foldl (fun st l => st.endLaunch l 0x92 0x92) s6
  let s8 := if dies.any fun c => !c.2 then s7.endLaunches v.ctx 0x92 else s7
  let s9 := (s8.launches.filter fun r => r.2.ctx == v.ctx && !r.2.ended && r.2.cause != 0).foldl (fun st r => st.endLaunch r.1 r.2.cause r.2.last) s8
  let seen := (s9.oom.ws.filter fun w => w.id < v.seen).map (·.id)
  let ags := v.cores.flatMap fun c => (List.range 8).map fun t => agThread (m.core c.phys) t
  (({ s9 with oom := { s9.oom with fr := ags.foldl (fun a g => SMap.set [] g seen a) s9.oom.fr } } : State).moveViews m v.seen).joinLadles m v

/-- The held notifications of a context are delivered (R373, R380). -/
def State.releaseHeld (s : State) (m : Relo) (x : Nat) : State :=
  { s with
    hmsgs := s.hmsgs ++ (s.heldMsgs.filter fun h => h.msg.ctx == x).map m.held
    heldMsgs := s.heldMsgs.filter fun h => h.msg.ctx != x }

/-- A stop of a single core is over: its packets, and those that have come for it since, are on their way again to the core that
now has its name (R373). -/
def State.endCoreStop (s : State) (c r : Nat) (v : Save) : State :=
  let m : Relo := [(c, r)]
  { s with
    msgs := (v.msgs ++ s.msgs).map fun w => { m.msg w with e := if w.dst = c then m.eff w.e else w.e }
    migs := (v.migs ++ s.migs).map fun w => if w.dst = c then { w with dst := r } else w
    hmsgs := (v.held ++ s.hmsgs).map m.held
    stops := s.stops.filter fun k => !(k.core && k.target == c) }

/-- The restore of a single core that was stopped (R373, R379): its state goes to the core that PARTW maps its name to,
or, where its section is damaged, its tasks begin anew there. -/
def State.restoreCore (s : State) (key : Nat) (v : Save) (cores : List (Nat × Nat)) : State :=
  match v.cores, cores with
  | [c], [(_, r)] =>
    let tag := c.body.ptag
    let m : Relo := [(c.phys, r)]
    let seen := (s.oom.ws.filter fun w => w.id < v.seen).map (·.id)
    let s0 := s.setCore c.phys { c.body with stopped := true }
    let s1 := s0.moveCore c.phys r
    let s2 := if c.status = 0 then (s1.putBytes m v fun _ => true).takeLogs r else (s1.putCore m tag c false).againDuos m c
    let s3 : State := { s2 with
      saves := SMap.set {} key {} s2.saves
      oom := { s2.oom with fr := (List.range 8).foldl (fun a t => SMap.set [] (agThread r t) seen a) s2.oom.fr } }
    s3.endCoreStop c.phys r v
  | _, _ => s

/-- No partition with a slice is before this one in the order and could be given its cores now (R369). -/
def State.inTurn (s : State) (tag : Nat) : Bool :=
  (s.part tag).slice == 0 || s.parts.all fun r =>
    !(r.2.waits && decide (r.2.turn < (s.part tag).turn) && (mapNames (s.usableFor r.1 r.2) r.2.names).isSome
      && (!r.2.saved || s.restorable.contains (SMap.get {} r.1 s.saves).ver))

/-- PARTITION_RESTORE (R369, R380): the supervisor checks a save, maps the logical cores as `cores` tells, and writes the
save back; `tag` from 64 on names the save of a single core. A save of a version that this firmware does not restore
is left (R381). -/
def execPartitionRestore (tag : Nat) (cores : List (Nat × Nat)) (s : State) : Host.Outcome State Fault Refusal :=
  let v := SMap.get {} tag s.saves
  let old := v.cores.map fun c => (c.name, c.phys)
  if 64 ≤ tag then
    if v.cores.isEmpty || !mayRestore s.unmapped (old.map (·.1)) old cores then .next s else .next (s.restoreCore tag v cores)
  else
    let p := s.part tag
    let m : Relo := cores.filterMap fun q => (old.find? fun o => o.1 == q.1).map fun o => (o.2, q.2)
    if !p.alive || p.running || (!p.map.isEmpty && !p.saved) || !mayRestore (s.usableFor tag p) p.names old cores || !s.inTurn tag then .next s
    else if p.saved && (!s.restorable.contains v.ver || !s.tilesFree m v) then .next s
    else
      let s0 := p.map.foldl (fun (st : State) r => st.modPart tag fun w => { w with map := SMap.set 0 r.1 0 w.map }) s
      let s1 := s0.mapAll tag cores
      let s2 := if !p.saved then s1
        else if s.headBad v then s1.endLaunches v.ctx 0x92 true
        else let (u, w) := s1.markLost tag v; u.putBack m tag w
      let s3 := (s2.releaseHeld m p.ctx).modPart tag fun w => { w with saved := false }
      .next (cores.foldl (fun (st : State) q => st.modCore q.2 fun w => { w with stopped := true })
        { s3 with saves := SMap.set {} tag {} s3.saves })

/-- At a resume the 1 ms of R256 goes on, the time since the stop left out, and a context that was suspended for an overdue
version is told it (R373, R397). -/
def State.renewDue (s : State) (x stop : Nat) : State :=
  let k := s.ctx x
  if k.overdue = 0 then s.modCtx x fun q => { q with due := q.due.map fun d => (d.1, s.dtime - (stop - d.2)) }
  else
    ((s.recompute x).notifyCtx x 0xA2 0 (BitVec.ofNat 64 k.overdue)).modCtx x fun q =>
      { q with overdue := 0, due := [(s.pmVer, s.dtime)] }

/-- PARTITION_RESUME (R368, R380): every core of the partition begins issuing, and what is pending for it takes effect;
`tag` from 64 on names a single core by its physical name. -/
def execPartitionResume (tag : Nat) (s : State) : Host.Outcome State Fault Refusal :=
  if 64 ≤ tag then
    let c := tag - 64
    if s.stops.any (fun k => (k.core && k.target == c) || (!k.core && k.stopped && k.target == (s.core c).ptag))
        || !(s.part (s.core c).ptag).running then .next s
    else .next (s.modCore c fun w => { w with stopped := false })
  else
    let p := s.part tag
    if !p.alive || p.saved || p.map.isEmpty then .next s
    else if p.running then .next (if p.slice = 0 then s.settlePending tag else s)
    else
      let s1 := p.cores.foldl (fun st c => st.modCore c fun w => { w with stopped := false }) s
      .next ((((s1.modPart tag fun w => { w with running := true, since := s.dtime }).settlePending tag).renewDue p.ctx p.since))

/-! ### Firmware activation (R381) -/

/-- A save of a version outside a list: it is never restored, its launches end with 0x90, and its object goes, by its name and
every extent, to the scrubber. The context and its queues remain. -/
def State.dropSave (s : State) (tag : Nat) (v : Save) : State :=
  let s1 := s.endLaunches v.ctx 0x90
  let s2 : State := { s1 with
    times := s1.times ++ [{ reason := 0x90, start := s1.dtime, stop := v.stop, val := tag }]
    saves := SMap.set {} tag {} s1.saves }
  let s3 := s2.modPart tag fun p => { p with saved := false, map := [] }
  if v.oid = 0 then s3 else s3.freeObj v.oid

/-- The saves that firmware of some versions does not restore. -/
def State.unsupported (s : State) (vers : List Nat) : List (Nat × Save) :=
  s.saves.filter fun r => !r.2.cores.isEmpty && !vers.contains r.2.ver

/-- A save converted to a version: VER and FLAGS in its object, and the CRC over them (R381). -/
def State.convert (s : State) (tag ver : Nat) (v : Save) : State :=
  let v1 := { v with ver := ver, converted := true }
  let s1 : State := { s with saves := SMap.set {} tag v1 s.saves }
  if v.pool then s1
  else
    let n := 64 + 32 * (v.cores.length + v.clus.length + v.dies.length)
    let bs := s.homeBytes (locs (locObj v.oid 0) n)
    let flags := (bs.getD 5 0#8) ||| 4#8
    let head := leBytes 2 ver ++ (bs.drop 2).take 3 ++ [flags] ++ (bs.drop 6).take 50
    let crc := crc64 (head ++ List.replicate 8 0#8 ++ bs.drop 64)
    s1.blit (locObj v.oid 0) (head ++ lowBytes crc 8)

end Sys2Proof.Machine
end

