-- ==== Sys2Proof/Machine/Reliability.lean ====
section
/-! DEFINITION. The Grader (R389), fallow leases (R390, R391), scores (R392), the acknowledgement of degradations
(R397), and the vote of duo tasks (R395). -/

namespace Sys2Proof.Machine

/-! ### The Grader (R389) -/

/-- A corrected-error signature: bank, row and column. -/
abbrev Sig := Nat × Nat × Nat

/-- The class of the latest signature of a ring, and which signatures it takes out of the ring. -/
def gradeOf (ring : List Sig) (b r c : Nat) : Option (Nat × (Sig → Bool)) :=
  let inBank (q : Sig) : Bool := q.1 == b
  let inRow (q : Sig) : Bool := q.1 == b && q.2.1 == r
  let inCol (q : Sig) : Bool := q.1 == b && q.2.2 == c
  let cell (q : Sig) : Bool := q == (b, r, c)
  let rows (f : Sig → Bool) : Nat := (((ring.filter f).map (·.2.1)).dedup).length
  let cols (f : Sig → Bool) : Nat := (((ring.filter f).map (·.2.2)).dedup).length
  if 16 ≤ rows inBank ∧ 16 ≤ cols inBank then some (1, inBank)
  else if 4 ≤ cols inRow then some (2, inRow)
  else if 4 ≤ rows inCol then some (3, inCol)
  else if 2 ≤ (ring.filter cell).length then some (4, cell)
  else none

/-- Some places of a channel are retired: its advertised capacity falls by those that it had (R389). -/
def State.wearOut (s : State) (ch : Nat) (p : Nat → Bool) : State :=
  let u := unitCh (ch / 32) (ch % 32)
  let new := (List.range (min 32768 (Config.channelCap (ch / 32) (ch % 32)))).filter fun k => p k && !s.isWorn (ch / 32) (ch % 32) k
  { s.modUnit u fun v => { v with cap := v.cap - new.length } with worn := SMap.set [] ch (SMap.get [] ch s.worn ++ new) s.worn }

/-- The version rises where the reserve cannot restore a channel's capacity (R389). -/
def State.loseCap (s : State) (u : Nat) : State :=
  if s.reserveGone.contains (unitDie u) then s.raiseVer.degrade u else s

/-- GRADER_SIGNATURE (R389): the signature of a corrected error on channel `ch` (32 × die + channel) is classified;
a class adds 4 to the channel's score and has its repair. -/
def execGraderSignature (ch bank row col : Nat) (s : State) : Host.Outcome State Fault Refusal :=
  let u := unitCh (ch / 32) (ch % 32)
  let all := SMap.get [] ch s.grader ++ [(bank, row, col)]
  let ring := all.drop (all.length - 64)
  match gradeOf ring bank row col with
  | none => .next { s with grader := SMap.set [] ch ring s.grader }
  | some (cls, out) =>
    let s1 : State := { s with grader := SMap.set [] ch (ring.filter fun q => !out q) s.grader }
    let s2 := match cls with
      | 1 => (s1.wearOut ch (Config.inBank ch bank)).raiseVer.degrade u
      | 3 => (s1.wearOut ch (Config.onColumn ch bank col)).loseCap u
      | 4 => (s1.wearOut ch (· == Config.cellSlot ch bank row col % 32768)).loseCap u
      | _ => s1
    .next (s2.bump u 4 (if cls = 1 then 5 else 6))

/-! ### Fallow leases (R390, R391) -/

/-- Two leases that may not run at one moment: the limits of R390. -/
def leaseClash (u v : Nat) : Bool :=
  unitKind u == unitKind v && match unitKind u with
    | 2 | 3 => unitDie u == unitDie v && unitClu u % 128 / 10 == unitClu v % 128 / 10
    | 6 => unitClu u == unitClu v
    | _ => unitDie u == unitDie v && unitHub u == unitHub v

/-- A lease's length in A-cycles. -/
def leaseLen (u : Nat) : Nat :=
  match unitKind u with
  | 1 => 1700000
  | 4 => 4250000
  | 5 => 170000000
  | _ => 850000

/-- A Vat or a tree that takes no work, out for a lease or since a test that it failed, but not retired. -/
def State.withdrawn (s : State) (v : Nat) : Bool :=
  (s.unit v).state != 3 && match unitKind v with
    | 2 => (s.clu (unitClu v)).vatsOff.contains (unitIx v)
    | 3 => (s.clu (unitClu v)).treesOff.contains (unitIx v)
    | _ => false

/-- The Vats, or the trees, of a unit's mesh row (R15). -/
def rowOf (u : Nat) : List Nat :=
  if unitKind u = 2 ∨ unitKind u = 3 then
    (List.range 10).flatMap fun k => (List.range 4).map fun i =>
      unitIn (unitKind u) (unitDie u * 128 + unitClu u % 128 / 10 * 10 + k) i
  else []

/-- A lease of the unit may begin as far as the limits go: none that clashes runs, no other Vat or tree of its row is
withdrawn (R15), and no lease for a score waits before a planned one. -/
def State.leaseOpen (s : State) (u : Nat) : Bool :=
  !(s.leases.any fun l => l.state == 1 && leaseClash l.unit u)
    && (rowOf u).all (fun v => v == u || !s.withdrawn v)
    && ((s.unit u).due || !(s.units.any fun r => r.2.due && r.2.state != 3 && r.1 != u && leaseClash r.1 u))

/-- The contexts with a partition core on a unit's die. -/
def State.ctxsOn (s : State) (u : Nat) : List Nat :=
  if unitHub u then []
  else ((s.parts.filter fun r => r.2.alive && r.2.cores.any fun c => dieOf c == unitDie u).map (·.2.ctx)).dedup

/-- A lease begins: it takes the place of its planned entry in the schedule, if it has one, and 0xA4 goes to the contexts
on the die (R390, R391). -/
def State.beginLease (s : State) (u : Nat) (moved : List (Nat × Nat × Nat × Nat × Nat)) : State :=
  let l : Lease := { unit := u, state := 1, start := s.dtime, stop := 0, sig := 0, moved := moved }
  let planned := s.leases.any fun q => q.unit == u && q.state == 0
  let s1 : State := { s with
    leases := if planned then s.leases.map fun q => if q.unit = u ∧ q.state = 0 then l else q else s.leases ++ [l] }
  let s2 := s1.modUnit u fun v => { v with state := 2, due := false }
  (s2.ctxsOn u).foldl (fun st x => st.notifyCtx x 0xA4 (unitKind u) (BitVec.ofNat 64 u)) s2

/-- What the latest lease of a unit that is out moved, and has still to move back. -/
def State.lastMoved (s : State) (u : Nat) : List (Nat × Nat × Nat × Nat × Nat) :=
  match (s.leases.filter fun l => l.unit == u && l.state != 0).getLast? with
  | some l => l.moved
  | none => []

/-- The STATE that a unit has once it has passed its test: a core is a spare, the reserve channel is that while it lasts, and
any other unit is in service (R10, R11, R391). -/
def State.backAs (s : State) (u : Nat) : Nat :=
  match unitKind u with
  | 1 => 1
  | 5 => if unitIx u = reserveCh (unitDie u) ∧ !s.reserveGone.contains (unitDie u) then 4 else 0
  | _ => 0

/-- The interval within which a unit is tested, in A-cycles (R390). -/
def testInterval (u : Nat) : Nat := (if unitKind u = 5 then 30 else 1) * 86400 * 1000000 * 850

/-- The next test of a unit is planned at the end of its interval (R390; log entry 135). -/
def State.planLease (s : State) (u : Nat) : State :=
  if (s.unit u).state = 3 ∨ s.leases.any (fun l => l.unit == u && l.state == 0) then s
  else { s with leases := s.leases ++ [{ unit := u, state := 0, start := s.dtime + testInterval u, stop := 0, sig := 0 }] }

/-- The withdrawal of a core (R373, R391): it stops with SCOPE 1; once its stop has drained, its state moves to a free
spare of the die, which goes on in its place. -/
def State.withdrawCore (s : State) (u c : Nat) : State :=
  match s.spares (dieOf c) with
  | [] => s
  | r :: _ =>
    match (List.range s.stops.length).find? fun i => (s.stops[i]?).any fun q => q.core && q.target == c with
    | none =>
      if s.stops.any fun q => !q.core && q.target == (s.core c).ptag then s
      else { s with stops := s.stops ++ [{ core := true, target := c, time := s.dtime + 34000 }] }
    | some i =>
      match s.stops[i]? with
      | none => s
      | some q =>
        if !s.saveReady q (s.savedPlace [c] [] 0) then s
        else
          let v : Save := { msgs := q.msgs, migs := q.migs, held := q.held }
          let s1 := ((((s.dropLogs c).moveCore c r).takeLogs r).endCoreStop c r v).modUnit (unitCore r) fun w => { w with state := 0 }
          (s1.modCore r fun k => { k with stopped := false }).beginLease u []

/-- A withdrawal that has taken its unit out of use before: a failed test, or a kill. -/
def State.isOut (s : State) (u : Nat) : Bool := (s.unit u).state == 2

/-- FALLOW_LEASE_START (R390, R391): a unit is withdrawn for its test as its kind asks, and the lease begins; a unit
that is still in use goes out of use first. -/
def execFallowLeaseStart (u : Nat) (s : State) : Host.Outcome State Fault Refusal :=
  let v := s.unit u
  let cl := unitClu u
  let ix := unitIx u
  let q := s.clu cl
  if v.state = 3 || v.state = 5 || !s.leaseOpen u then .next s
  else if s.isOut u then .next (s.beginLease u (s.lastMoved u))
  else match unitKind u with
    | 1 =>
      let c := unitCoreName u
      if 8 ≤ ix then .next s
      else if (s.core c).ptag = 0 then
        let s1 := (s.modCore c fun k => { k with isSealed := true }).beginLease u []
        match v.state, s.spares (unitDie u) with
        | 0, r :: _ => .next (s1.modUnit (unitCore r) fun w => { w with state := 0 })
        | 0, [] => .next s
        | _, _ => .next s1
      else .next (s.withdrawCore u c)
    | 2 =>
      let s1 := s.modClu cl fun k => { k with vatsOff := (ix :: k.vatsOff).dedup }
      .next (if q.sched.any fun k => k.vat == ix + 1 then s1 else s1.beginLease u [])
    | 3 =>
      let s1 := s.modClu cl fun k => { k with treesOff := (ix :: k.treesOff).dedup }
      .next (if q.trel.win.any fun k => k.tree == ix + 1 then s1 else s1.beginLease u [])
    | 6 =>
      let used := (coresOf cl).foldl (fun a d => a + (s.core d).lanes) 0
      if 64 < used + q.lanesOff + 8 then .next s
      else .next ((s.modClu cl fun k => { k with lanesOff := k.lanesOff + 8 }).beginLease u [])
    | 5 => match s.clearChannel (unitDie u) ix with
      | none => .next s
      | some (s1, moved) => .next (s1.beginLease u moved)
    | 4 => .next (s.beginLease u [])
    | _ => .next s

/-- A unit that has passed its test is in service again; a core becomes a spare, and a channel's extents move back
(R10, R391). -/
def State.returnUnit (s : State) (u : Nat) (l : Lease) : State :=
  let cl := unitClu u
  let s1 := s.modUnit u fun v => { v with state := s.backAs u, lost := false }
  match unitKind u with
  | 1 => s1.modCore (unitCoreName u) fun _ => {}
  | 2 => s1.modClu cl fun k => { k with vatsOff := k.vatsOff.filter (· != unitIx u) }
  | 3 => s1.modClu cl fun k => { k with treesOff := k.treesOff.filter (· != unitIx u) }
  | 6 => s1.modClu cl fun k => { k with lanesOff := k.lanesOff - 8 }
  | 5 => l.moved.foldl (fun st (o, x, d, c, slot) =>
      let e := st.extent o x
      if e.present && !e.ws && (st.obj o).size != 0 then
        st.setExtent o x { e with die := d, ch := c, slot := slot, rheat := 0, wheat := 0, cached := false }
      else st) s1
  | _ => s1

/-- FALLOW_LEASE_END (R390 to R392): the test is over. A pass returns the unit to service; a fail adds 128 to its
score, and the unit stays out. The signature of a failed test is a free value. A channel returns once the extents that
it takes back may move (R316). -/
def execFallowLeaseEnd (u : Nat) (pass : Bool) (s : State) : Host.Outcome State Fault Refusal :=
  match s.leases.find? fun l => l.unit == u && l.state == 1 with
  | none => .next s
  | some l =>
    if s.dtime < l.start + leaseLen u then .next s
    else if pass && l.moved.any fun p => (s.obj p.1).size != 0 && !s.mayLeave false p.1 p.2.1 then .next s
    else
      let (s1, f) := if pass then (s, 0) else s.takeFree
      let w : Lease := { l with
        state := if pass then 2 else 3, stop := s.dtime
        sig := if pass then Config.testSignature u else Config.free f }
      let s2 : State := { s1 with leases := s1.leases.map fun q => if q = l then w else q }
      .next ((if pass then s2.returnUnit u l else s2.bump u 128 2).planLease u)

/-- A day, in A-cycles. -/
def dayCycles : Nat := 86400 * 1000000 * 850

/-- A lease of the unit is due: for its score, or because its planned start has come (R390, R392). -/
def State.leaseDue (s : State) (u : Nat) : Bool :=
  (s.unit u).due || s.leases.any fun l => l.unit == u && l.state == 0 && decide (l.start ≤ s.dtime)

/-- CHANNEL_LEASE_WAIT_RECORD (R391): a channel lease that is due and that no channel has room for is recorded each day. -/
def execChannelLeaseWaitRecord (u : Nat) (s : State) : Host.Outcome State Fault Refusal :=
  if unitKind u ≠ 5 || !s.leaseDue u || (s.unit u).state = 2 || (s.unit u).state = 3 || (s.clearChannel (unitDie u) (unitIx u)).isSome
      || (s.times.any fun r => r.reason == 2 && r.val == u && s.dtime < r.start + dayCycles) then .next s
  else .next { s with times := s.times ++ [{ reason := 2, start := s.dtime, stop := 0, val := u }] }

/-- SCORE_DECAY (R392): a full hour without an increment lowers a score by one. -/
def execScoreDecay (u : Nat) (s : State) : Host.Outcome State Fault Refusal :=
  let v := s.unit u
  let hour := 3600 * 1000000 * 850
  if v.score = 0 || s.dtime < v.last + hour then .next s
  else .next (s.modUnit u fun w => { w with score := w.score - 1, last := w.last + hour })

/-! ### Acknowledgement of a degradation (R256, R397) -/

/-- PMACK_DEADLINE_EXPIRY (R397): a context that has not acknowledged within 1 ms, while it runs, is suspended: its
partitions are stopped as a sliced stop is, and 0xA2 follows at their resume. -/
def execPmackDeadlineExpiry (x : Nat) (s : State) : Host.Outcome State Fault Refusal :=
  let k := s.ctx x
  match k.due.find? fun d => decide (d.2 + 850000 ≤ s.dtime) with
  | none => .next s
  | some (v, _) =>
    let ts := (s.partsOf x).filter fun t => (s.part t).running
    if k.overdue ≠ 0 || ts.isEmpty then .next s
    else
      let stops := (ts.filter fun t => !(s.stops.any fun q => !q.core && q.target == t)).map fun t =>
        ({ core := false, target := t, time := s.dtime + 34000 } : Stop)
      .next (({ s with stops := s.stops ++ stops } : State).suspend (fun q => q.alive && q.ctx == x && q.cls != 0) |>.modCtx x fun q => { q with overdue := v })

/-! ### The vote of a duo task (R394, R395) -/

/-- The digest of a copy's log: the CRC-64 over its entries in log order. -/
def Thread.digest (x : Thread) : Word := crc64 (x.log.flatMap fun e => lowBytes e.1 8 ++ lowBytes e.2 8)

/-- A copy waits at its TEND. -/
def Thread.atTend (x : Thread) : Bool := x.post == .tend

/-- The pair `g / 8` of a launch, thread `g % 8`: the cores of its copies. -/
def Launch.pair (k : Launch) (g : Nat) : Option (Nat × Nat) := k.copies[g / 8]?

/-- The copies agree: one at TEND facing a full log does not (R395). -/
def votesEqual (x y : Thread) : Bool := x.digest == y.digest && x.atTend == y.atTend

/-- The entries of a log can be written now: their extents are present and clear. -/
def State.logMay (s : State) (c t : Nat) : Bool :=
  let x := s.thr c t
  x.log.all fun e => (s.logEntry c x.ctx e).1.all fun l => !s.goneLoc l && !s.zLoc l

/-- A copy's core writes its log as plain stores in log order (R395). -/
def State.commitLog (s : State) (c t : Nat) : State :=
  let x := s.thr c t
  x.log.foldl (fun st e =>
    let (ls, bs) := s.logEntry c x.ctx e
    (st.put (agThread c t) ls bs x.rel none).heat (agThread c t) (ls.headD 0) true) s

/-- A copy goes on after a vote: with an empty log, at the barrier at which its log was full, or to the end of its task. -/
def State.passOn (s : State) (c t : Nat) : State :=
  let s1 := s.modThr c t fun y => { y with log := [], voteWait := false, post := .none }
  let on := s1.modThr c t fun y => { y with st := 1, prsn := 0 }
  match (s.thr c t).post with
  | .tend => (((s1.modThr c t fun y => { y with duo := false }).dropLog c t).endTask c t).endLates c t
  | .bar l => on.awaitBar c t l
  | _ => on

/-- No write of a copy is still on its way to its log: its vector operations have retired (R394). -/
def State.logSettled (s : State) (c t : Nat) : Bool := (s.core c).vq.all fun o => o.e.thr != t

/-- A vote of pair `g` of launch `l` passes: the winner's log is committed, unless the same vote has committed it before
the pair began again, what the other copy sees includes it, and both pass on (R395; log entry 133). -/
def State.votePass (s : State) (l g win a b t : Nat) : State :=
  let k := s.launch l
  let n := SMap.get 0 g k.passed
  let s1 := if n < SMap.get 0 g k.kept then s else s.commitLog win t
  let v := s1.viewFrom (agThread win t) 4
  let last := (s.thr win t).atTend
  let s2 := s1.modLaunch l fun w => { w with
    passed := SMap.set 0 g (if last then 0 else n + 1) w.passed
    kept := SMap.set 0 g (if last then 0 else max (SMap.get 0 g w.kept) (n + 1)) w.kept }
  (((s2.joinViews (agThread a t) 4 [v]).joinViews (agThread b t) 4 [v]).passOn a t).passOn b t

/-- A free core of the launch's partition on a third cluster (R395). -/
def State.thirdCore (s : State) (k : Launch) (a b : Nat) : Option Nat :=
  ((s.part k.tag).cores.find? fun c =>
    clusterOf c != clusterOf a && clusterOf c != clusterOf b && (s.core c).lid == 0 && s.coreFree k.tag c)

/-- DUO_VOTE (R395): both copies have arrived. Equal digests commit the first copy's log; on a mismatch a third copy
starts, once a core of a third cluster is free. -/
def execDuoVote (l g : Nat) (s : State) : Host.Outcome State Fault Refusal :=
  let k := s.launch l
  let t := g % 8
  match k.pair g with
  | none => .next s
  | some (a, b) =>
    let x := s.thr a t
    let y := s.thr b t
    if !x.voteWait || !y.voteWait || SMap.get 0 g k.thirds ≠ 0 || (s.core a).stopped || (s.core b).stopped
        || !s.logSettled a t || !s.logSettled b t then .next s
    else if votesEqual x y then (if s.logMay a t then .next (s.votePass l g a a b t) else .next s)
    else match s.thirdCore k a b with
      | none => .next s
      | some c =>
        let s1 := (s.modCore c fun q => { q with
          lid := l, tpc := (s.core a).tpc, tpg := (s.core a).tpg, pin := (s.core a).pin, hint := (s.core a).hint
          queue := (s.core a).queue, wid0 := (s.core a).wid0, dtab := [] }).modLaunch l fun w => { w with thirds := SMap.set 0 g (c + 1) w.thirds }
        .next (s1.launchThread c t l x.wid true)

/-- DUO_THIRD_COPY (R395): the third copy has arrived. Over the votes that the pair has passed it goes on with an empty log;
at the pair's own vote the copy that it matches wins; matched by neither, the task is over, 0xA1 is told, and the three
cores are suspect. -/
def execDuoThirdCopy (l g : Nat) (s : State) : Host.Outcome State Fault Refusal :=
  let k := s.launch l
  let t := g % 8
  match k.pair g, SMap.get 0 g k.thirds with
  | some (a, b), c1 + 1 =>
    let x := s.thr a t
    let y := s.thr b t
    let z := s.thr c1 t
    let n3 := SMap.get 0 g k.passed3
    if !z.voteWait || !x.voteWait || !y.voteWait || (s.core c1).stopped || !s.logSettled c1 t then .next s
    else if n3 < SMap.get 0 g k.passed && !z.atTend then
      .next ((s.passOn c1 t).modLaunch l fun w => { w with passed3 := SMap.set 0 g (n3 + 1) w.passed3 })
    else
      let lose (st : State) (c : Nat) : State := st.bump (unitCore c) 32 3
      if votesEqual z x then
        (if s.logMay a t then .next (lose ((s.dropThird l g c1 t).votePass l g a a b t) b) else .next s)
      else if votesEqual z y then
        (if s.logMay b t then .next (lose ((s.dropThird l g c1 t).votePass l g b a b t) a) else .next s)
      else
        let ds := [x.digest, y.digest, z.digest]
        let s1 := (s.dropThird l g c1 t).notify (ccOf a) 3 0xA1 0 0 0 x.digest x.ctx
        let s2 : State := { s1 with events := s1.events ++ [{ unit := unitCore a, time := s.dtime, ctx := x.ctx, data := ds }] }
        let ends (st : State) (c : Nat) : State :=
          (((st.modThr c t fun q => { q with log := [], voteWait := false, post := .none, duo := false }).dropLog c t).endTask c t).endLates c t
        let s3 := (ends (ends s2 a) b).modLaunch l fun w => { w with passed := SMap.set 0 g 0 w.passed, kept := SMap.set 0 g 0 w.kept }
        .next ([a, b, c1].foldl (fun st c =>
          (st.modUnit (unitCore c) fun v => { v with due := true }).bump (unitCore c) 64 3) s3)
  | _, _ => .next s

end Sys2Proof.Machine
end

