-- ==== Sys2Proof/Machine/Boot.lean ====
section
/-! DEFINITION. Measured boot (R401 to R404), firmware activation (R381, R401), quotes (R406), the management controller
(R407), temperature and the loss of power (R404, R408). -/

namespace Sys2Proof.Machine

/-! ### Measurement (R401) -/

/-- A byte string measured into a slot. -/
def State.measure (s : State) (i : Nat) (x : List Byte) : State :=
  { s with slots := SMap.set 0 i (BitVec.ofNat 384 (leNat (sha384 (s.slotBytes i ++ sha384 x)))) s.slots }

/-- The attestation key is derived from the identity seed and slots 0 to 3: the number of its free values (R403). -/
def State.deriveKey (s : State) : State := { s with attKey := leNat ((List.range 4).flatMap s.slotBytes) }

/-! ### Images (R402, R405) -/

/-- The signature block at an image's end. -/
def imageBlock (x : List Byte) : List Byte := x.drop (x.length - 3392)

/-- The security version in an image's signature block. -/
def imageVer (x : List Byte) : Nat := leAt (imageBlock x) 8 8

/-- An image that may be loaded for a slot, as far as its bytes tell: a block that covers what is before it, and a
security version not below the recorded one. Whether its signatures verify is told by the event: one whose signatures do not
comes as an empty byte string (log entry 93). -/
def State.imageOk (s : State) (slot : Nat) (x : List Byte) : Bool :=
  3392 ≤ x.length && leAt (imageBlock x) 0 8 == x.length - 3392 && (SMap.get 0 slot s.secVer) ≤ imageVer x

/-- An image is measured and activated: the recorded version rises to its own. -/
def State.loadImage (s : State) (slot : Nat) (x : List Byte) : State :=
  let s1 := s.measure slot x
  { s1 with secVer := SMap.set 0 slot (imageVer x) s1.secVer }

/-! ### The plot-map record (R404) -/

/-- The record that the root of trust takes: the highest counter of those that verify, where it is C or C + 1. -/
def State.chooseFlash (s : State) : Option Flash :=
  let ok := s.flash.filter (·.good)
  let best := ok.foldl (fun (a : Option Flash) f => match a with
    | none => some f
    | some g => if g.ctr < f.ctr then some f else some g) none
  best.bind fun f => if f.ctr = s.flashCtr ∨ f.ctr = s.flashCtr + 1 then some f else none

/-- The state of a unit as a part enters service (R10, R11, R396). -/
def unitFirst (u : Nat) : Unit_ :=
  match unitKind u with
  | 1 =>
    let p := spareCores (unitDie u)
    let n := unitClu u % 128 * 8 + unitIx u
    if unitIx u < 8 && (n == p.1 || n == p.2) then { state := 1 } else {}
  | 4 => { cap := if unitHub u then 20 else 200 }
  | 5 => { state := if unitIx u = reserveCh (unitDie u) then 4 else 0, cap := min 32768 (Config.channelCap (unitDie u) (unitIx u)) }
  | _ => {}

/-- The inventory as a part enters service. -/
def unitsFirst : SMap Unit_ := allUnits.foldl (fun m u => SMap.set {} u (unitFirst u) m) []

/-- A record as it is read: one without units is the inventory as the part enters service (log entry 6). -/
def Flash.full (f : Flash) : Flash := if f.units.isEmpty then { f with units := unitsFirst } else f

/-- A record is in force: what is retired or withdrawn takes no work (R404), the contexts there are start at its version
(R253), an hour without an increment begins for every unit (R392), and the tests are planned (R390; log entry 135). -/
def State.installUnits (s : State) (f : Flash) : State :=
  let us : SMap Unit_ := f.units.map fun r => (r.1, { r.2 with last := s.dtime })
  let gone := (List.range 8).filter fun d => (let st := (SMap.get {} (unitCh d (reserveCh d)) us).state; st != 4 && st != 2)
  let s1 : State := { s with
    units := us, pmVer := f.ver, pmTime := f.time, worn := f.worn, reserveGone := gone
    leases := (us.filter fun r => r.2.state != 3).map fun r =>
      { unit := r.1, state := 0, start := s.dtime + testInterval r.1, stop := 0, sig := 0 }
    ctxs := s.ctxs.map fun r => (r.1, { r.2 with pmver := f.ver }) }
  (us.filter fun r => r.2.state == 2 || r.2.state == 3).foldl (fun st r =>
    let u := r.1
    match unitKind u with
    | 1 => st.modCore (unitCoreName u) fun k => { k with isSealed := true }
    | 2 => st.modClu (unitClu u) fun k => { k with vatsOff := (unitIx u :: k.vatsOff).dedup }
    | 3 => st.modClu (unitClu u) fun k => { k with treesOff := (unitIx u :: k.treesOff).dedup }
    | 6 => st.modClu (unitClu u) fun k => { k with lanesOff := min 64 (k.lanesOff + 8) }
    | _ => st) s1

/-! ### Reset and boot (R401, R404, R407) -/

/-- What a reset leaves: everything at its reset value but what module flash and its replay-protected block keep, and
what lies outside the package. -/
def State.cold (s : State) : State :=
  { State.reset with
    pkg := Config.package % 64, agenda := s.agenda, free := s.free, flash := s.flash, flashCtr := s.flashCtr, bootCount := s.bootCount
    secVer := s.secVer, retired := s.retired, replies := s.replies }

/-- The names of the firmware's tree and of the host's, with queue 0 of each (R18, R341). -/
def State.plantHost (s : State) : State :=
  let dir : Node := { type := 1, ctx := 1 }
  let root := (s.ctx 1).root
  let s1 := (((s.plant 0 (s.ctx 0).root).withQueue 0).plant 1 root).withQueue 4096
  let (s2, t) := s1.grow root (nameOf ['t', 'e', 'n', 'a', 'n', 't']) dir
  let (s3, _) := s2.grow t (nameOf ['c', 't', 'x']) dir
  let (s4, e) := s3.grow root (nameOf ['e', 'x', 'p', 'o', 'r', 't']) dir
  let (s5, p) := s4.grow e (nameOf ['p', 'k', 'g']) dir
  (List.range 64).foldl (fun st n => (st.grow p (decName n) dir).1) s5

/-- A stage of the boot: the boot stops at a slot, or goes on. -/
inductive Stage where
  | stop (s : State) (slot : Nat)
  | on (s : State)

/-- The slot of each image in the order of R401. -/
def imageSlots : List Nat := [0, 1, 2, 4, 5, 6]

/-- The plot-map record is chosen, measured and in force; a choice of C + 1 raises C first (R404). -/
def State.bootMap (s : State) : Stage :=
  match s.chooseFlash with
  | none => .stop s 3
  | some f =>
    let s1 := ({ s with flashCtr := f.ctr } : State).installUnits f.full
    .on (s1.measure 3 f.full.file)

/-- The stages from a place of R401's order on: of a stage's two copies the first that may be loaded is. -/
def bootFrom (good : Bool) : List Nat → List (List Byte) → State → Stage
  | [], _, s => .on s
  | slot :: rest, a :: b :: xs, s =>
    match (if s.imageOk slot a then some a else if s.imageOk slot b && (good || !xs.isEmpty) then some b else none) with
    | none => .stop s slot
    | some x =>
      let s1 := s.loadImage slot x
      match (if slot = 2 then s1.bootMap else .on s1) with
      | .stop s2 n => .stop s2 n
      | .on s2 => bootFrom good rest xs s2
  | slot :: _, _, s => .stop s slot

/-- POWER_ON_BOOT (R401, R402): from reset, each stage is loaded, checked, measured and runs. `img` holds the two copies of
each image, in the order of the stages, a copy whose signatures do not verify as an empty byte string; `good` tells whether
those of the very last one do, and a stage without its copies fails (log entry 93). -/
def execPowerOnBoot (img : List (List Byte)) (good : Bool) (s : State) : Host.Outcome State Fault Refusal :=
  if !s.off && (s.slotsClosed || s.bootStage ≠ 0) then .next s
  else
    let s0 : State := { s.cold with bootCount := s.bootCount + 1 }
    match bootFrom good imageSlots img s0 with
    | .stop s1 n => .next { s1 with bootStage := n + 1 }
    | .on s1 => .next ({ (s1.deriveKey).plantHost with slotsClosed := true, bootStage := 8 })

/-- PACKAGE_RESET (R407): the management controller resets the package. -/
def execPackageReset (s : State) : Host.Outcome State Fault Refusal := .next s.cold

/-- POWER_LOSS (R404): the supply is lost; `between` tells that a record's slot had been written and C not yet
raised. -/
def execPowerLoss (between : Bool) (s : State) : Host.Outcome State Fault Refusal :=
  let back := between && s.flashCtr != 0 && s.flash.any fun f => f.ctr == s.flashCtr
  .next { s.cold with off := true, flashCtr := if back then s.flashCtr - 1 else s.flashCtr }

/-! ### Firmware activation (R381, R401) -/

/-- The plot-map record that the flash holds now (R404): the one whose counter is C, or, in a state that holds none, what a
record would hold. -/
def State.currentRecord (s : State) : Flash :=
  match s.flash.find? fun f => f.good && f.ctr == s.flashCtr with
  | some f => f.full
  | none => { ctr := s.flashCtr, ver := s.pmVer, time := s.pmTime, units := s.units, holes := s.holes, worn := s.worn }

/-- The hub's firmware complex is reset alone: slots 1 to 4 hold the new images and the current record, the key is
derived anew, and the new list of versions holds. -/
def State.newFirmware (s : State) (vers : List Nat) (img : List (List Byte)) : State :=
  let s0 : State := { s with slots := s.slots.filter fun r => !(1 ≤ r.1 && r.1 ≤ 4) }
  let s1 := (s0.loadImage 1 (img.getD 0 [])).loadImage 2 (img.getD 1 [])
  let s2 := (s1.measure 3 s1.currentRecord.file).loadImage 4 (img.getD 2 [])
  { s2.deriveKey with restorable := vers, deferred := none }

/-- ACTIVATE_FIRMWARE (R381): OP 3 for firmware that restores some layout versions, with its images for slots 1, 2 and
4. Without FORCE it is deferred while a save has another version; asked for again, the outgoing firmware converts the
saves that are left and activates. An image whose signatures do not verify comes as an empty byte string, and the request is
refused (R402). -/
def execActivateFirmware (r : SupReq) (vers : List Nat) (img : List (List Byte)) (s : State) :
    Host.Outcome State Fault Refusal :=
  if r.op ≠ 3 then .next s
  else if supBad r || img.length ≠ 3 || vers.isEmpty || !(([1, 2, 4].zip img).all fun p => s.imageOk p.1 p.2) then
    .next (s.answerSup r 0x80)
  else
    let bad := s.unsupported vers
    if bit r.flags 0 then
      .next (((bad.foldl (fun st q => st.dropSave q.1 q.2) s).newFirmware vers img).answerSup r 0)
    else if bad.isEmpty then .next ((s.newFirmware vers img).answerSup r 0)
    else if s.deferred = some vers then
      .next (((bad.foldl (fun st q => st.convert q.1 (vers.headD 4) q.2) s).newFirmware vers img).answerSup r 0)
    else .next (({ s with deferred := some vers } : State).answerSup r 0x90)

/-! ### Quotes (R260, R406) -/

/-- A quote: what is signed, and the signatures of the key in force, which are free values. -/
def State.quoteBytes (s : State) (q : QuoteReq) : List Byte :=
  let signed := layout 512 [(0, q.nonce.take 32), (0x20, leBytes 2 0x0B01), (0x24, leBytes 4 s.pmVer), (0x28, leBytes 8 s.dtime),
    (0x30, leBytes 2 (q.ctx % 4096)), (0x40, (List.range 8).flatMap s.slotBytes)]
  let n := s.attKey * 2 ^ 4096 + leNat signed
  layout 4096 [(0, signed), (0x200, (List.range 64).map (Config.sigByte n)), (0x240, (List.range 3309).map fun i => Config.sigByte n (64 + i))]

/-- QUOTE_SIGN (R406): the request at the head of the queue is signed; the quote's writes and the copy at /sys/attest
perform before the counter step. -/
def execQuoteSign (s : State) : Host.Outcome State Fault Refusal :=
  match s.quotes with
  | [] => .next s
  | q :: rest =>
    let bs := s.quoteBytes q
    let e : Eff := { core := q.core, thr := q.thr, ctx := q.ctx, head := q.head }
    let done (st : State) (cause : Nat) : State := ({ st with quotes := rest, quote := bs } : State).oweCounter (agHub 3) e q.cc cause
    match s.chkRange q.core q.ctx q.ptr 0 4096 true with
    | .hold => .next s
    | .absent oid x _ => .next (s.report oid x)
    | .fault cause _ => .next (done s cause)
    | .ok ls => .next (done (s.writeAll (agHub 3) ls bs) 0)

/-! ### The management controller (R407) -/

/-- What the management controller may read: 0 the plot map, 1 the lease schedule, 2 the attestation file, 3 the
sensors, whose readings are free values, and 4 the boot stage. -/
def State.mgmtBytes (s : State) (what : Nat) : List Byte :=
  match what with
  | 0 => s.plotFile
  | 1 => s.fallowFile
  | 2 => s.attestFile
  | 3 => (List.range 24).map (Config.fileByte 101 s.free)
  | 4 => leBytes 1 (s.bootStage - 1)
  | _ => []

/-- MGMT_READ (R407): a read over MCTP; it cannot write. -/
def execMgmtRead (what off len : Nat) (s : State) : Host.Outcome State Fault Refusal :=
  let bs := ((s.mgmtBytes what).drop off).take len
  .next { s with
    free := if what = 3 then s.free + 1 else s.free
    replies := s.replies ++ [{ seq := what, status := 0, sub := 0, token := 0, arg := BitVec.ofNat 64 off, data := bs }] }

/-! ### Temperature (R408) -/

/-- THERMAL_HOLD_ENTER (R408): at 105 °C new promised launches are refused, and the hold is recorded. -/
def execThermalHoldEnter (s : State) : Host.Outcome State Fault Refusal :=
  if s.hold then .next s
  else .next { s with hold := true, times := s.times ++ [{ reason := 5, start := s.dtime, stop := 0, val := 0 }] }

/-- THERMAL_HOLD_EXIT (R408): below 100 °C the hold ends, and so does its record. -/
def execThermalHoldExit (s : State) : Host.Outcome State Fault Refusal :=
  .next { s with
    hold := false
    times := s.times.map fun r => if r.reason = 5 ∧ r.stop = 0 then { r with stop := s.dtime } else r }

/-- THERMAL_SHUTDOWN (R408): at 115 °C the compute dies lose power, with all that their cores and engines hold and what is on
its way between them; the hub goes on, and every launch ends with 0xA0, whose counter step LAUNCH_END owes (R296). -/
def execThermalShutdown (s : State) : Host.Outcome State Fault Refusal :=
  if s.off || s.cut then .next s
  else .next { s with
    cut := true, cores := [], clus := [], dies := [], msgs := [], migs := [], hmsgs := [], heldMsgs := [], pkts := [], acks := []
    stops := [], saves := []
    parts := s.parts.map fun r => (r.1, { r.2 with running := false, saved := false })
    launches := s.launches.map fun r =>
      if r.2.hdr.isEmpty || r.2.ended then r else (r.1, { r.2 with cause := 0xA0, last := 0xA0, waiting := false }) }

end Sys2Proof.Machine
end

