-- ==== Sys2Proof/Machine/Fetch.lean ====
section
/-! DEFINITION. Line fetch and the check of branch targets (R41, R42, R47, R106, R112). -/

namespace Sys2Proof.Machine

/-- The answer of a line fetch. -/
inductive Fetched where
  | line (s : State) (l : List Byte)
  | absent (oid x : Nat)
  | bad (cause sub : Nat)
  | later

/-- The fetch of the line a code address lies in (R47, R106): from the fetch buffer, or by one read step over
its 64 bytes, after which the buffer holds the thread's two latest lines. The read waits while a store, vector operation
or chunk that wrote the whole line would be returned in part (R106); it passes a station as any read does (R315). -/
def State.fetch (s : State) (c t : Nat) (pc : Word) : Fetched :=
  let x := s.thr c t
  match x.line pc with
  | some l => .line s l
  | none =>
    let base := fpWith pc (fpOff pc / 64 * 64)
    match s.translate c x.ctx [] base 64 64 rExec with
    | .error (cause, sub) => .bad cause sub
    | .ok k =>
      match k.np with
      | some (oid, e) => .absent oid e
      | none =>
        match s.lineEv s.piecesWait (agThread c t) (locs k.loc 64) with
        | none => .later
        | some (s1, l) => .line ((s1.heat (agThread c t) k.loc false).modThr c t fun y => { y with fb := (y.fb ++ [(base, l)]).drop ((y.fb.length + 1) - 2) }) l

/-- A code address names a valid head of a fetched line (R47). -/
def headOk (pc : Word) (l : List Byte) : Bool := fpOff pc % 2 == 0 && (headAt l (fpOff pc % 64 / 2)).isSome

/-- A jump to a code address, checked by R47 when its line is fetched; a fault belongs to the branch (R112), and
where the line is absent nothing is written (R113). -/
def Iss.jump (i : Iss) (target : Word) (r : Out) : Try Out :=
  if fpOff target % 2 = 1 then trap 0x03 0 target
  else match i.s.fetch i.c i.t target with
    | .bad cause sub => trap cause sub (faultPtr cause target)
    | .later => .error .hold
    | .absent oid e => .ok { r with g := [], np := some (oid, e, target), jump := some target }
    | .line s1 l => if headOk target l then .ok { r with jump := some target, st := some s1 } else trap 0x03 0 target

/-- The target of a direct branch (R112). -/
def Iss.disp (i : Iss) : Try Word :=
  match fpMove i.pc (2 * sx 16 i.o.i) with
  | none => trap 0x17 0 i.pc
  | some p => .ok p

/-- The head after this one in fetch order (R113). -/
def Iss.next (i : Iss) : Word := i.x.following i.pc

end Sys2Proof.Machine
end

