-- ==== Sys2Proof/Machine/Control.lean ====
section
/-! DEFINITION. Row 0: control (R110 to R121). -/

namespace Sys2Proof.Machine

/-- NOP has no effect (R111). -/
def opNop (_ : Iss) : Try Out := .ok {}

/-- A branch that is always taken (R112). -/
def opJmp (i : Iss) : Try Out := do
  let p ← i.disp
  i.jump p {}

/-- A branch taken when a predicate has a value (R112). -/
def branchIf (want : Bool) (i : Iss) : Try Out := do
  let p ← i.disp
  if i.x.readP i.o.d == want then i.jump p { rd := [16 + i.o.d] } else pure { rd := [16 + i.o.d] }

/-- CALL: the link is a single-cycle write of g14, and nothing is written when the target fails its check (R113). -/
def opCall (i : Iss) : Try Out := do
  let p ← if i.fm == .t4b then i.disp else pure (fpCode i.va)
  i.jump p { g := [(14, i.next)] }

/-- RET reads g14 as an ordinary source (R114). -/
def opRet (i : Iss) : Try Out := do
  let p ← i.x.readG 14
  i.jump (fpCode p) { rd := [14] }

/-- JR (R114). -/
def opJr (i : Iss) : Try Out := i.jump (fpCode i.va) {}

/-- LOOP: the counter is a buffered result (R115). -/
def opLoop (i : Iss) : Try Out := do
  let v ← i.x.readG i.o.d
  let n := v - 1
  let r : Out := { res := valRes i.o.d n, rd := [i.o.d] }
  if n = 0 then pure r
  else
    let p ← i.disp
    i.jump p r

/-- YIELD (R116). -/
def opYield (_ : Iss) : Try Out := .ok { post := some .yield }

/-- TEND (R117). -/
def opTend (_ : Iss) : Try Out := .ok { post := some .tend }

/-- TRAP: the message follows the group's commit (R118). -/
def opTrap (i : Iss) : Try Out :=
  if i.fm == .t0 then .ok { post := some (.msg 0x08 i.o.d 0) } else .ok { post := some (.msg 0x08 (i.o.m % 256) i.va) }

/-- SYSC (R118). -/
def opSysc (i : Iss) : Try Out := .ok { post := some (.msg 0x09 (i.o.m % 256) i.va) }

/-- IFENCE acts at step 6 of its commit (R120). -/
def opIfence (_ : Iss) : Try Out := .ok { ifence := true }

/-- WAITF parks until a register is full, and neither reads nor empties it (R39, R40, R121). -/
def opWaitf (i : Iss) : Try Out :=
  if i.x.isFull i.o.d then .ok {}
  else if i.x.isDue i.o.d then trap 0x46 0 (BitVec.ofNat 64 i.o.d)
  else .error (.park (0x0B + 256 * i.o.d))

/-- BRK is a fault and does not end its group (R119). -/
def opBrk (i : Iss) : Try Out := trap 0x0A i.o.d 0

/-- NOP (R111). -/
def execNop (f : F0) (s : State) : Host.Outcome State Fault Refusal :=
  issue 0x00 .t0 f.opnd opNop s

/-- JMP (R112). -/
def execJmp (f : F4b) (s : State) : Host.Outcome State Fault Refusal :=
  issue 0x01 .t4b f.opnd opJmp s

/-- JP (R112). -/
def execJp (f : F4b) (s : State) : Host.Outcome State Fault Refusal :=
  issue 0x02 .t4b f.opnd (branchIf true) s

/-- JNP (R112). -/
def execJnp (f : F4b) (s : State) : Host.Outcome State Fault Refusal :=
  issue 0x03 .t4b f.opnd (branchIf false) s

/-- CALL_T2 (R113). -/
def execCallT2 (f : F2) (s : State) : Host.Outcome State Fault Refusal :=
  issue 0x04 .t2 f.opnd opCall s

/-- CALL_T4B (R113). -/
def execCallT4b (f : F4b) (s : State) : Host.Outcome State Fault Refusal :=
  issue 0x04 .t4b f.opnd opCall s

/-- RET_T0 (R114). -/
def execRetT0 (f : F0) (s : State) : Host.Outcome State Fault Refusal :=
  issue 0x05 .t0 f.opnd opRet s

/-- RET_T4 (R114). -/
def execRetT4 (f : F4) (s : State) : Host.Outcome State Fault Refusal :=
  issue 0x05 .t4 f.opnd opRet s

/-- JR_T2 (R114). -/
def execJrT2 (f : F2) (s : State) : Host.Outcome State Fault Refusal :=
  issue 0x06 .t2 f.opnd opJr s

/-- JR_T4 (R114). -/
def execJrT4 (f : F4) (s : State) : Host.Outcome State Fault Refusal :=
  issue 0x06 .t4 f.opnd opJr s

/-- LOOP (R115). -/
def execLoop (f : F4b) (s : State) : Host.Outcome State Fault Refusal :=
  issue 0x07 .t4b f.opnd opLoop s

/-- YIELD_T0 (R116). -/
def execYieldT0 (f : F0) (s : State) : Host.Outcome State Fault Refusal :=
  issue 0x08 .t0 f.opnd opYield s

/-- YIELD_T4 (R116). -/
def execYieldT4 (f : F4) (s : State) : Host.Outcome State Fault Refusal :=
  issue 0x08 .t4 f.opnd opYield s

/-- TEND_T0 (R117). -/
def execTendT0 (f : F0) (s : State) : Host.Outcome State Fault Refusal :=
  issue 0x09 .t0 f.opnd opTend s

/-- TEND_T4 (R117). -/
def execTendT4 (f : F4) (s : State) : Host.Outcome State Fault Refusal :=
  issue 0x09 .t4 f.opnd opTend s

/-- TRAP_T0 (R118). -/
def execTrapT0 (f : F0) (s : State) : Host.Outcome State Fault Refusal :=
  issue 0x0A .t0 f.opnd opTrap s

/-- TRAP_T4 (R118). -/
def execTrapT4 (f : F4) (s : State) : Host.Outcome State Fault Refusal :=
  issue 0x0A .t4 f.opnd opTrap s

/-- SYSC (R118). -/
def execSysc (f : F4) (s : State) : Host.Outcome State Fault Refusal :=
  issue 0x0B .t4 f.opnd opSysc s

/-- IFENCE_T0 (R120). -/
def execIfenceT0 (f : F0) (s : State) : Host.Outcome State Fault Refusal :=
  issue 0x0C .t0 f.opnd opIfence s

/-- IFENCE_T4 (R120). -/
def execIfenceT4 (f : F4) (s : State) : Host.Outcome State Fault Refusal :=
  issue 0x0C .t4 f.opnd opIfence s

/-- WAITF_T0 (R121). -/
def execWaitfT0 (f : F0) (s : State) : Host.Outcome State Fault Refusal :=
  issue 0x0D .t0 f.opnd opWaitf s

/-- WAITF_T4 (R121). -/
def execWaitfT4 (f : F4) (s : State) : Host.Outcome State Fault Refusal :=
  issue 0x0D .t4 f.opnd opWaitf s

/-- BRK (R119). -/
def execBrk (f : F0) (s : State) : Host.Outcome State Fault Refusal :=
  issue 0x0E .t0 f.opnd opBrk s


end Sys2Proof.Machine
end

