-- ==== Sys2Proof/Machine/Delivery.lean ====
section
/-! DEFINITION. What the ordering machine and the mesh do between instructions: writes perform and reach their homes
(R95, R97, R333), messages, migrations and handler messages arrive (R38, R156 to R159, R259, R281 to R283, R366). -/

namespace Sys2Proof.Machine

/-! ### The commit queue (R95, R97, R99, R333) -/

/-- Entry `k` leaves a thread's commit queue. -/
def State.dropCq (s : State) (c t k : Nat) : State := s.modThr c t fun x => { x with cq := x.cq.eraseIdx k }

/-- A write to a tile that is free, or that another context owns, has nowhere to go: the tile's contents are its new
owner's (R213). -/
def State.tileLost (s : State) (e : CqE) : Bool :=
  match e.locs with
  | [] => false
  | l :: _ => locKind l == 1 &&
    (match ((s.clu (locId l)).tile (locOff l / 65536)).own with
    | .free => true
    | .ctx x => x != e.ctx
    | .eng x => x != e.ctx)

/-- A barrier arrival that a core of another tag turns away (R366): it is dropped, and is a late refusal (R157) naming that
core; a thread that waits at the level stops for it. -/
def State.barLate (s : State) (c t lvl d : Nat) : State :=
  let x := s.thr c t
  let s1 := s.lateFault c t 0x43 1 x.pc (BitVec.ofNat 64 (s.logical d))
  if x.phase = .barrier lvl then (s1.modThr c t fun y => { y with phase := .issue }).stopLate c t x.pc else s1

/-- Entry `k` of a thread's commit queue performs, if it may. -/
def State.performCq (s : State) (c t k : Nat) (e : CqE) : State :=
  let a := agThread c t
  let x := s.thr c t
  match e.kind with
  | .write =>
    if s.tileLost e then s.dropCq c t k
    else if !s.writeMay c t e.seq e.locs e.rel.isSome then s
    else match e.locs.find? s.goneLoc with
      | some l => s.report (locId l) (locOff l / 2 ^ 18)
      | none => ((((s.putMem a e.locs e.data x.rel e.rel).asPiece e.whole).heat a (e.locs.headD 0) true).dropCq c t k)
  | .fence =>
    if s.drainedTo c t e.seq then (s.modThr c t fun y => y.capture (s.viewFrom a e.code)).dropCq c t k else s
  | .cbarr =>
    if s.tileLost e then s.dropCq c t k
    else if !s.writeMay c t e.seq e.locs true || !s.atomicReady a e.locs then s
    else match e.locs.find? s.goneLoc with
      | some l => s.report (locId l) (locOff l / 2 ^ 18)
      | none =>
        let new := cbStep (s.homeBytes e.locs) (if e.err then some (e.code, 0) else none)
        ((s.atomicStep a e.locs none (some 5) x.rel (some new)).1.heat a (e.locs.headD 0) true).dropCq c t k
  | .bar =>
    if !s.drainedTo c t e.seq then s
    else match s.barBarred c t e.code with
      | some d => (s.dropCq c t k).barLate c t e.code d
      | none => (s.dropCq c t k).arriveBar c t e.code

/-- WRITE_PERFORM (R95, R99): entry `k` of a thread's commit queue performs. The commit queue of a core goes on
draining while the core is stopped (R107). -/
def execWritePerform (c t k : Nat) (s : State) : Host.Outcome State Fault Refusal :=
  match (s.thr c t).cq[k]? with
  | none => .next s
  | some e => .next (s.performCq c t k e)

/-- HOME_APPLY (R97): the home of an event's bytes applies what is not superseded there. -/
def execHomeApply (e : Nat) (s : State) : Host.Outcome State Fault Refusal :=
  if s.oom.canApply e then .next { s with oom := s.oom.applyEv e } else .next s

/-- The granules of a queue's buffer that a write still told apart has reached since their read are marked (R361). -/
def State.noteHits (s : State) : State :=
  { s with queues := s.queues.map fun r =>
      let oid := (s.desc r.2.ctx (fpHnd r.2.gptr)).oid
      let new := (s.oom.ws.filter fun w => locKind w.loc == 2 && locId w.loc == oid
        && (let g := SMap.get 0 (locOff w.loc / 256) r.2.gids; g != 0 && decide (g ≤ w.id))).map fun w => locOff w.loc / 256
      if r.2.gids.isEmpty || new.isEmpty then r else (r.1, { r.2 with hits := (r.2.hits ++ new).dedup }) }

/-- FRONTIER_PROPAGATION (R333): the device adds a write to every frontier; what it has done to a watched granule is kept
(R361). -/
def execFrontierPropagation (e : Nat) (s : State) : Host.Outcome State Fault Refusal :=
  if s.oom.canPropagate e then .next (s.noteHits.propagate s.piecesWait e) else .next s

/-! ### Messages (R38, R156, R366) -/

/-- The partition with a tag holds a core of a cluster. -/
def State.inCluster (s : State) (tag cl : Nat) : Bool :=
  tag != 0 && (s.part tag).alive && (s.part tag).cores.any fun c => clusterOf c == cl

/-- A core whose single stop is not over: its packets wait (R373). -/
def State.heldCore (s : State) (d : Nat) : Bool := s.stops.any fun q => q.core && q.target == d && q.stopped

/-- The check of a packet at ejection (R366): 0x43 where it fails. -/
def State.ejects (s : State) (d t stamp : Nat) (fw : Bool) : Bool :=
  fw || (if isCC d then t == 7 && s.inCluster stamp (clusterOf d) else (s.core d).ptag == stamp)

/-- The step-5 effect of a sender that waits for its answer, changed. -/
def State.tell (s : State) (m : Eff) (f : Eff → Eff) : State :=
  s.modThr m.core m.thr fun x => { x with s5 := x.s5.map fun e => if e.seq = m.seq ∧ e.st = 1 then f e else e }

/-- MESSAGE_DELIVERY (R38, R156, R157): the message in place `k` is refused by a sealed core or at ejection, is
accepted, or waits for room. One for a stopped core waits for its resume (R372), and one for a core that is saved alone
until PARTW names the core in its place (R373). -/
def execMessageDelivery (k : Nat) (s : State) : Host.Outcome State Fault Refusal :=
  match s.msgs[k]? with
  | none => .next s
  | some m =>
    let d := m.dst
    let s0 : State := { s with msgs := s.msgs.eraseIdx k }
    let refuse (cause : Nat) : State := s0.tell m.e fun e => { e with st := 3, ans := BitVec.ofNat 64 cause }
    if (s.core d).isSealed then .next (refuse 0x41)
    else if (s.core d).stopped || s.heldCore d then .next s
    else if !s.ejects d m.thr m.stamp m.fw then .next (refuse 0x43)
    else
      let cx := if isCC d then (if m.stamp = 0 then m.e.ctx else (s.part m.stamp).ctx) else 0
      match s0.deliver d m.thr { reg := m.reg, val := m.val, src := m.src, views := m.views, poison := m.poison, ctx := cx } with
      | none => .next s
      | some s1 =>
        let s2 := s1.tell m.e fun e => { e with st := 2 }
        .next (if m.thr = 7 then s.haltWake s2 d else s2)

/-! ### Migration (R33, R107, R159) -/

/-- The state of a thread that arrives on another core's context: what is the thread's own comes with it, and what
belongs to the context stays (R28, R32, R107); `a` is its agent there, where the releases of its fences now lie (R94). -/
def Thread.arrive (y m : Thread) (a : Nat) : Thread :=
  { m with
    mbx := y.mbx, seq := max y.seq m.seq, cq := y.cq, fb := [], exs := [], lastSrc := []
    rel := m.rel.map fun v => { v with pos := a }
    st := 1, prsn := 0, phase := .step5, s5 := m.s5.tail, last := y.last, wasFree := false, recast := false }

/-- MIGRATION_ARRIVAL (R159): the thread takes the lowest free context of t0 to t6 and goes on after its marker; a
refusal is late, and the thread continues where it was. -/
def execMigrationArrival (k : Nat) (s : State) : Host.Outcome State Fault Refusal :=
  match s.migs[k]? with
  | none => .next s
  | some m =>
    let s0 : State := { s with migs := s.migs.eraseIdx k }
    let src := s.thr m.src m.thr
    let refuse (cause sub : Nat) : State :=
      s0.modThr m.src m.thr fun x => { x with s5 := match x.s5 with
        | [] => []
        | e :: l => { e with st := 3, ans := BitVec.ofNat 64 (cause * 256 + sub) } :: l }
    if (s.core m.dst).isSealed then .next (refuse 0x41 0)
    else if (s.core m.dst).stopped || s.heldCore m.dst then .next s
    else if !s.ejects m.dst 0 m.stamp (s.domOf m.src m.thr == 2) then .next (refuse 0x43 0)
    else match (s.core m.dst).freeCtx with
      | none => .next (refuse 0x44 4)
      | some u =>
        let a := agThread m.dst u
        let s1 := s0.modThr m.dst u fun y => y.arrive src a
        let s2 : State := { s1 with oom := { s1.oom with
          evs := s1.oom.evs.map fun r => (r.1, if r.2.agent = agThread m.src m.thr then { r.2 with agent := a } else r.2)
          fr := SMap.set [] (agThread m.src m.thr) [] (SMap.set [] (agThread m.dst u) (s.oom.front (agThread m.src m.thr)) s1.oom.fr) } }
        let s3 := (s2.modThr m.src m.thr fun x => { x with lid := 0 }).freeThread m.src m.thr
        let s4 := s3.modLaunch m.image.lid fun w => { w with roamed := (a :: w.roamed).dedup }
        .next ((if m.image.lid = 0 then s3 else s4).step5 m.dst u)

/-! ### Messages for handlers (R281 to R283) -/

/-- A notification takes its place in a core's queue, or is dropped and counted (R281, R283). -/
def State.queueNote (s : State) (d : Nat) (m : HMsg) : State :=
  let k := s.core d
  let held := if isCC d then (SMap.get [] m.ctx k.nq).length else k.nq.foldl (fun a r => a + r.2.length) 0
  if held ≥ 16 then s.modCore d fun q => { q with nqDrop := SMap.set 0 m.ctx (SMap.get 0 m.ctx q.nqDrop + 1) q.nqDrop }
  else s.modCore d fun q =>
    { q with nq := SMap.set [] m.ctx (SMap.get [] m.ctx q.nq ++ [{ m with since := s.dtime }]) q.nq }

/-- A trap message takes its place in a core's trap queue: only late faults and notifications are ever dropped (R281). -/
def State.queueTrap (s : State) (d : Nat) (m : HMsg) : State :=
  s.modCore d fun q => { q with tq := q.tq ++ [{ m with since := s.dtime }] }

/-- HANDLER_MESSAGE_ARRIVAL (R281, R282): the message in place `k` enters its core's queue, and moves into t7 if it
may. A killed core's messages are discarded (R285); those of a stopped core wait (R373). -/
def execHandlerMessageArrival (k : Nat) (s : State) : Host.Outcome State Fault Refusal :=
  match s.hmsgs[k]? with
  | none => .next s
  | some h =>
    let s0 : State := { s with hmsgs := s.hmsgs.eraseIdx k }
    if (s.core h.dst).isSealed then .next s0
    else if (s.core h.dst).stopped || s.heldCore h.dst then .next s
    else
      let s1 := if h.msg.g1.toNat / 2 ^ 16 % 256 = 0 then s0.queueTrap h.dst h.msg else s0.queueNote h.dst h.msg
      .next (s1.pump h.dst)

/-- HANDLER_ENTRY_TIMEOUT (R282, R283): a message of a context without a handler entry has waited 1 ms on core `c`, the
time that t7 serves another context left out: the context's kernel on the cluster ends, with the cause of its oldest
message, which LCAUSE of the thread concerned holds, where the message names one (R280). -/
def execHandlerEntryTimeout (c x : Nat) (s : State) : Host.Outcome State Fault Refusal :=
  let h := s.thr c 7
  if s.handlerEntry x ≠ 0 ∨ (h.st ≠ 0 ∧ h.ctx ≠ x) then .next s
  else match s.nextMsg c x with
    | none => .next s
    | some m =>
      if s.dtime < m.since + 850000 then .next s
      else
        let cause := m.g1.toNat % 256
        let cls := m.g1.toNat / 2 ^ 16 % 256
        let at_ := if cls = 0 ∨ cls = 2 then c + 1 else m.from_
        let s1 := if at_ = 0 then s else s.modThr (at_ - 1) (m.g1.toNat / 2 ^ 24 % 8) fun y => { y with lcause := cause }
        .next (s1.endKernelOn (clusterOf c) x cause)

end Sys2Proof.Machine
end

