-- ==== Sys2Proof/Machine/Extents.lean ====
section
/-! DEFINITION. What the firmware and the devices do to extents: allocation (R105, R314), heat and moves (R315 to
R317, R389), the refresh windows (R318) and the scrubber (R320, R351). -/

namespace Sys2Proof.Machine

/-! ### Allocation (R314) -/

/-- A thread dropped on an extent. -/
def Thread.waitsFor (x : Thread) (oid e : Nat) : Bool :=
  x.st == 3 && (match x.drop with | some n => n.oid == oid && n.ext == e | none => false)

/-- Every thread dropped on an extent, changed. -/
def State.eachDropped (s : State) (oid x : Nat) (f : State → Nat → Nat → NotPres → State) : State :=
  s.cores.foldl (fun st (c, k) => k.th.foldl (fun st2 (t, y) =>
    if y.waitsFor oid x then (match y.drop with | some n => f st2 c t n | none => st2) else st2) st) s

/-- A location lies in an extent. -/
def inExtent (oid x l : Nat) : Bool := locKind l == 2 && locId l == oid && locOff l / 2 ^ 18 == x

/-- The first element of some parts that an extent holds up. -/
def heldAt (oid x op xx which : Nat) (p : Word) (ps : List Part) : Option Nat :=
  (((List.range ps.length).zip ps).find? fun (_, q) => q.got.isNone && inExtent oid x q.loc).map fun (j, _) => elemOfPart op xx which p j

/-- A vector operation that waits for an extent that cannot be allocated ends at its element, late (R190). -/
def VOp.lose (o : VOp) (oid x : Nat) : VOp :=
  if o.read then o
  else
    let p := o.par
    let a := heldAt oid x o.e.op p.v.x 1 o.e.va o.pa
    let b := heldAt oid x o.e.op p.v.x 2 o.e.vb o.pb
    let d := heldAt oid x 0 p.v.x 0 o.e.vd o.pd
    let put (o : VOp) (el : Option Nat) (which size : Nat) (q : Word) : VOp :=
      match el with
      | none => o
      | some i => if i < o.n then { o with n := i, bad := some (0x10, elemPtr o.e.op p.v.x which q size i) } else o
    put (put (put o b 2 p.db o.e.vb) a 1 p.da o.e.va) d 0 p.dd o.e.vd

/-- The engines and the hub learn that an extent cannot be allocated (R190, R217, R232, R413). -/
def State.loseExtent (s : State) (oid x : Nat) : State :=
  let absent (c cx : Nat) (p : Word) (n : Nat) : Bool := match s.reach c cx p n with | .absent o e => o == oid && e == x | _ => false
  let s1 : State := { s with cores := s.cores.map fun r => (r.1, { r.2 with vq := r.2.vq.map fun o => o.lose oid x }) }
  let s2 : State := s1.clus.foldl (fun st (cl, k) => k.ladle.foldl (fun st2 r =>
    if r.runs && r.waiting then
      match st2.chkChunk r with
      | .absent o e p => if o = oid ∧ e = x then st2.endLadle cl r (.err 0x10) p else st2
      | _ => st2
    else st2) st) s1
  let lost := s2.owed.filter fun o => absent o.core o.ctx o.ctr 8
  let s3 := lost.foldl (fun st o => st.counterLost o 0x10)
    ({ s2 with owed := s2.owed.filter fun o => !absent o.core o.ctx o.ctr 8 } : State)
  let mark (k : TTask) : TTask := if absent k.e.core k.e.ctx k.cbar 32 then { k with noBar := true } else k
  let s4 : State := { s3 with clus := s3.clus.map fun r => (r.1, { r.2 with sched := r.2.sched.map mark }) }
  let walks := s4.hub.filter fun r => r.e.op == 0xF0 && r.frame.isNone
    && (match State.readPath r.e.core r.ctx r.e.va 1024 [] s4 with | .wait _ o e => o == oid && e == x | _ => false)
  walks.foldl (fun st r => ({ st with hub := st.hub.filter fun q => q != r } : State).answer r 0x10 1 r.e.va) s4

/-- A place that no other extent stands at, within what its channel, or its bank of the die's weight store, has (R9, R309,
R312, R396). -/
def State.placeFree (s : State) (oid x : Nat) (p : Place) : Bool :=
  let same (r : Nat × Obj) : Bool := r.2.ext.any fun e =>
    !(r.1 == oid && e.1 == x) && e.2.present && e.2.ws == p.ws && e.2.die == p.die && e.2.slot == p.slot
      && (if p.ws then e.1 % 16 == x % 16 else e.2.ch == p.ch)
  p.die < 8 && p.ch < 32 && (if p.ws then decide (p.slot < 256) else s.slotOk p.die p.ch p.slot) && !(s.objs.any same)

/-- A channel of a die that is in service and holds the fewest extents of those that have room (R314). -/
def State.leastFilled (s : State) (d ch : Nat) : Bool :=
  let n (c : Nat) : Nat := (s.extentsOn d c).length
  n ch < s.chCap d ch && (List.range 32).all fun c => n ch ≤ n c || s.chCap d c ≤ n c

/-- An allocated extent: PRESENT, also in the nodes above its entry (R312). -/
def State.allocate (s : State) (oid x : Nat) (e : Extent) : State :=
  let n := treeLevels (s.obj oid).size
  (s.setExtent oid x e).modObj oid fun o =>
    { o with inner := o.inner.filter fun r => !((List.range (n - 1)).map fun d => treeOff n d x).contains r.1 }

/-- EXTENT_ALLOCATION_WAKE (R105, R314): the firmware allocates a reported extent at a place, on the least-filled channel of
the reporting core's die where its object is lazy, or restores one that had been moved out with what it held; its threads
replay. Where it cannot, they trap 0x10. -/
def execExtentAllocationWake (oid x : Nat) (p : Place) (ok : Bool) (s : State) : Host.Outcome State Fault Refusal :=
  let e := (s.obj oid).entry oid x
  if (s.extent oid x).present || !e.reported then .next s
  else if ok then
    let new := (s.obj oid).isLazy && !e.was
    if p.ws || !s.placeFree oid x p || (new && !((e.rep == 0 || e.rep == p.die + 1) && s.leastFilled p.die p.ch)) then .next s
    else
      let s1 := if new then s.zeroRange (locObj oid (x * 2 ^ 18)) (2 ^ 18) else s
      let s2 := s1.allocate oid x
        { e with
          present := true, was := true, reported := false, rep := 0, z := s.unscrubbed p.die p.ch p.slot
          die := p.die, ch := p.ch, slot := p.slot, rheat := 0, wheat := 0, racc := 0, wacc := 0, cached := false, byDie := [] }
      .next (s2.eachDropped oid x fun st c t _ => st.modThr c t fun y => { y.wake with drop := none })
  else
    let s1 := (s.setExtent oid x { e with reported := false }).loseExtent oid x
    .next (s1.eachDropped oid x fun st c t n => st.takeTrap c t 0 0x10 1 (st.thr c t).pc n.addr (st.thr c t).pc)

/-! ### Heat and moves (R315, R316, R389) -/

/-- HEAT_SWEEP (R315): both heats of every entry are halved. -/
def execHeatSweep (s : State) : Host.Outcome State Fault Refusal :=
  .next { s with objs := s.objs.map fun r => (r.1, { r.2 with ext := r.2.ext.map fun e =>
    (e.1, { e.2 with rheat := e.2.rheat / 2, wheat := e.2.wheat / 2 }) }) }

/-- A die whose stations made most of an extent's accesses (R316). -/
def Extent.mostUsed (e : Extent) (d : Nat) : Bool := (List.range 8).all fun c => SMap.get 0 c e.byDie ≤ SMap.get 0 d e.byDie

/-- An extent's place has been retired by the Grader, or its channel has left the inventory (R389, R391): its move is a
repair. What HCH says of an extent of the weight store is ignored (R312). -/
def State.needsRepair (s : State) (e : Extent) : Bool :=
  !e.ws && (s.isWorn e.die e.ch e.slot || (s.unit (unitCh e.die e.ch)).state == 3)

/-- An extent may move to a place: for its heat toward the die that uses it most, into the weight store of its die or of
that one, or for repair, its contexts quiescent; a pinned one for repair alone, its contexts stopped (R316, R389). -/
def State.mayMoveTo (s : State) (oid x : Nat) (p : Place) : Bool :=
  let e := s.extent oid x
  let o := s.obj oid
  let worn := s.needsRepair e
  let hot := decide (e.rheat ≥ 3) || decide (e.wheat ≥ 3)
  e.present && s.placeFree oid x p && s.mayLeave worn oid x
    && (if p.ws then !e.pin && o.weight && e.rheat == 3 && e.wheat == 0 && (p.die == e.die || e.mostUsed p.die)
      else worn || (!e.pin && hot && p.die != e.die && e.mostUsed p.die))

/-- EXTENT_MOVE (R316): the extent moves with its contents, its heats are zero, and the stations are told (TSHOOT). -/
def execExtentMove (oid x : Nat) (p : Place) (s : State) : Host.Outcome State Fault Refusal :=
  if !s.mayMoveTo oid x p then .next s
  else .next (s.setExtent oid x
    { s.extent oid x with
      die := p.die, ch := p.ch, slot := p.slot, ws := p.ws, rheat := 0, wheat := 0, racc := 0, wacc := 0, cached := false, byDie := [] })

/-! ### Refresh windows (R318) -/

/-- WEIGHT_REFRESH_WINDOW (R318): the bank in its refresh window changes with domain time; the reads that waited for the
window that ended may perform, and what a thread shows it waited for stays until it is ready (R30). -/
def execWeightRefreshWindow (s : State) : Host.Outcome State Fault Refusal := .next { s with bankWin := s.bankNow }

/-! ### The scrubber (R320) -/

/-- The scrubber's next place: of the lowest channel, as channel order goes (R351). -/
def nextScrub : List (Nat × Nat × Nat) → Option (Nat × Nat × Nat)
  | [] => none
  | p :: ps => match nextScrub ps with
    | none => some p
    | some q => some (if q.1 < p.1 then q else p)

/-- A channel that comes no later in the scrubber's order than any that it has still to clear (R351). -/
def State.scrubNext (s : State) (ch : Nat) : Bool := s.scrub.all fun p => decide (ch ≤ p.1)

/-- A thread is parked for the scrub of an extent, which it writes to: the extent goes ahead of the order (R320, R351, log entry 53). -/
def State.scrubWanted (s : State) (oid x : Nat) : Bool :=
  s.cores.any fun r => r.2.th.any fun y => y.2.st == 2 && y.2.prsn == 0x08 && y.2.parkReg == zKey oid x

/-- SCRUB_EXTENT_CLEAR (R320, R351): the scrubber zeroes an extent that is next in channel order, or ahead of it one that a
thread waits for, writes its entry with Z 0, executes TSHOOT, and wakes the threads that waited. With object 0 it clears the
next place that no extent stands at. -/
def execScrubExtentClear (oid x : Nat) (s : State) : Host.Outcome State Fault Refusal :=
  let e := s.extent oid x
  if oid = 0 then
    match nextScrub s.idleScrub with
    | none => .next s
    | some p => .next (if s.scrubNext p.1 then { s with scrub := s.scrub.erase p } else s)
  else if !e.z || !(s.scrubNext (e.lane x) || s.scrubWanted oid x) then .next s
  else
    let s1 := (s.zeroRange (locObj oid (x * 2 ^ 18)) (2 ^ 18)).setExtent oid x { e with z := false, cached := false }
    let s2 : State := { s1 with scrub := s1.scrub.filter fun p => !(p.1 == e.lane x && p.2.1 == e.slot) }
    .next (s2.cores.foldl (fun st r => st.wakeOn r.1 0x08) s2)

end Sys2Proof.Machine
end

