-- ==== Sys2Proof/Machine/Packets.lean ====
section
/-! DEFINITION. The start and the completion of packets (R355, R358, R359, R360, R362), and the supervisor pair's
journal and recovery (R365). -/

namespace Sys2Proof.Machine

/-! ### The order of packets (R358) -/

/-- Packet `a` lies inside packet `b`: in its buffer or its graph body, at any depth; `f` bounds the depth. -/
def Queue.inside (k : Queue) (a b : Pkt) : Nat → Bool
  | 0 => false
  | f + 1 =>
    match a.parent with
    | none => false
    | some t => t == b.tag || match k.pkts.find? fun p => p.tag == t with
      | some p => Queue.inside k p b f
      | none => false

/-- Every earlier packet of the queue has completed, those that hold this one apart. -/
def Queue.earlierDone (k : Queue) (p : Pkt) : Bool :=
  (k.pkts.takeWhile fun w => w.tag != p.tag).all fun w => w.done || k.inside p w 3

/-- A packet may start: everything earlier has started, no earlier WAIT holds it back, and with FEN everything earlier
has completed (R354, R358). -/
def Queue.mayStart (k : Queue) (p : Pkt) : Bool :=
  !p.started && (k.pkts.takeWhile fun w => w.tag != p.tag).all (fun w => w.started && (pktType w.bytes != 3 || w.done))
    && (!pktFen p.bytes || k.earlierDone p)

/-- A packet of a queue may start now: not in the pause of the supervisor pair (R365). -/
def State.mayStart (s : State) (q : Nat) (p : Pkt) : Bool := decide (s.pause ≤ s.dtime) && (s.queue q).mayStart p

/-- A packet of a queue replaced. -/
def State.setPkt (s : State) (q : Nat) (p : Pkt) : State :=
  s.modQueue q fun k => { k with pkts := k.pkts.map fun w => if w.tag = p.tag then p else w }

/-- The start of a packet is journaled before any effect of it, and the read index that waited for it is published (R358,
R365). -/
def State.startPkt (s : State) (q : Nat) (p : Pkt) : State :=
  (({ s with journal := s.journal ++ [{ queue := q, idx := p.tag, done := false }] } : State).setPkt q { p with started := true }).publishOwed q

/-- A counter step that a packet owes (R237, R413). -/
def State.owePkt (s : State) (q agent : Nat) (cc : Word) (cause : Nat) : State :=
  if cc = 0 then s
  else { s with owed := s.owed ++ [{ ctr := cc, ctx := (s.queue q).ctx, core := 0, thr := 0, cause := cause, queue := some q, agent := agent }] }

/-- A launch packet, whose launch has not ended. -/
def Pkt.launches (p : Pkt) : Bool := pktType p.bytes == 1 || pktType p.bytes == 2

/-- A packet has completed: journaled, and gone from the records; an IB completes with the last packet that it holds, a
REPLAY, by its counter's step, once every launch of it has ended (R355, R360, R362). `f` bounds the depth. -/
def State.donePkt (s : State) (q : Nat) (p : Pkt) : Nat → State
  | 0 => s
  | f + 1 =>
    let s1 : State := { s with journal := s.journal ++ [{ queue := q, idx := p.tag, done := true }] }
    let s2 := s1.modQueue q fun k => { k with pkts := k.pkts.filter fun w => w.tag != p.tag }
    match p.parent with
    | none => s2
    | some t =>
      let k := s2.queue q
      match k.pkts.find? fun w => w.tag == t with
      | none => s2
      | some w =>
        if k.pkts.any fun v => v.parent == some t && (v.launches || pktType w.bytes ≠ 7) then s2
        else if pktType w.bytes = 7 then State.donePkt (s2.owePkt q (agHub 1) (wordAt w.bytes 0x20) w.prog) q w f
        else if w.started && w.len ≤ w.prog then State.donePkt s2 q w f
        else s2

/-- The completion of a packet. -/
def State.endPkt (s : State) (q : Nat) (p : Pkt) : State := s.donePkt q p 4

/-- The first packet of a type that a step may act on. -/
def Queue.next (k : Queue) (t : Nat) (f : Pkt → Bool) : Option Pkt := k.pkts.find? fun p => pktType p.bytes == t && f p

/-! ### LAUNCH and GLAUNCH (R290, R296, R300, R355) -/

/-- The partition in which a queue's launches are placed: the lowest of its context's. -/
def State.queueTag (s : State) (q : Nat) : Nat := ((s.partsOf (s.queue q).ctx).head?).getD 0

/-- A launch that is not admitted takes an error step in its own counter, or marks the replay it belongs to (R356). -/
def State.refuseLaunch (s : State) (q : Nat) (p : Pkt) (cause : Nat) : State :=
  let k := s.queue q
  match (p.parent.bind fun t => k.pkts.find? fun w => w.tag == t && pktType w.bytes == 7) with
  | some w => (s.setPkt q { w with prog := cause }).endPkt q p
  | none => (s.owePkt q (agHub 1) (hdrCc p.body) cause).endPkt q p

/-- The start of a launch packet: its header goes to the placer (R290, R300). -/
def State.startLaunch (s : State) (q : Nat) (p : Pkt) : State :=
  let k := s.queue q
  let s0 := s.startPkt q p
  let (s1, status, l) := s0.submit k.ctx (s.queueTag q) q p.body 0 0 false
  if status ≠ 0 then s1.refuseLaunch q { p with started := true } status
  else ((s1.modLaunch l fun w => { w with pkt := some (q, p.tag) }).enqueue l p.views).setPkt q { p with started := true, lids := [l] }

/-- A LAUNCH or GLAUNCH starts, or completes when its launch has ended. -/
def State.launchPacket (s : State) (q t : Nat) : State :=
  let k := s.queue q
  match k.next t (s.mayStart q) with
  | some p => s.startLaunch q p
  | none =>
    match k.next t fun p => p.started && p.lids.all fun l => (s.launch l).ended with
    | some p => s.endPkt q p
    | none => s

/-- PKT_LAUNCH (R355). -/
def execPktLaunch (q : Nat) (s : State) : Host.Outcome State Fault Refusal := .next (s.launchPacket q 1)

/-- PKT_GLAUNCH (R355). -/
def execPktGlaunch (q : Nat) (s : State) : Host.Outcome State Fault Refusal := .next (s.launchPacket q 2)

/-! ### WAIT, SIGNAL and COPY (R232, R237, R355) -/

/-- PKT_WAIT (R355): the packet reads its counter until COUNT + ERRS reaches the threshold, and then acquires at
`.dom`. A counter that can no longer be reached holds the queue. -/
def execPktWait (q : Nat) (s : State) : Host.Outcome State Fault Refusal :=
  let k := s.queue q
  match k.next 3 fun p => p.started || s.mayStart q p with
  | none => .next s
  | some p =>
    let s1 := if p.started then s else s.startPkt q p
    match s1.reach 0 k.ctx (wordAt p.bytes 8) 8 with
    | .no _ => .next s1
    | .absent oid x => .next (s1.report oid x)
    | .hold => .next (if leAt p.bytes 0x10 8 = 0 then s1.endPkt q { p with started := true } else s1)
    | .at_ l =>
      let (s2, b, evs) := (s1.heat (agQueue q) l false).readFwd (agQueue q) [] (locs l 8)
      if leAt p.bytes 0x10 8 ≤ leAt b 0 6 + leAt b 6 1 then
        .next ((s2.joinEvents (agQueue q) 5 evs).endPkt q { p with started := true })
      else .next s2

/-- PKT_SIGNAL (R355, R358): a packet that may start does; a started one, once every earlier packet has completed, owes one
success step, and completes when the step has been taken. -/
def execPktSignal (q : Nat) (s : State) : Host.Outcome State Fault Refusal :=
  let k := s.queue q
  match k.next 4 (s.mayStart q), k.next 4 (·.started) with
  | some p, _ => .next (s.startPkt q p)
  | none, none => .next s
  | none, some p =>
    let cc := wordAt p.bytes 8
    if p.prog = 0 then
      if k.earlierDone p then .next ((s.owePkt q (agHub 1) cc 0).setPkt q { p with prog := 1 }) else .next s
    else if s.owed.any fun o => o.queue == some q && o.ctr == cc then .next s
    else .next (s.endPkt q p)

/-- PKT_COPY (R232, R355, R358): a packet that may start does; else the first started one moves its next chunk of at most
64 KiB, checked whole before it moves, and ends at its counter. -/
def execPktCopy (q : Nat) (s : State) : Host.Outcome State Fault Refusal :=
  let k := s.queue q
  match k.next 5 (s.mayStart q), k.next 5 (·.started) with
  | some p, _ => .next (s.startPkt q p)
  | none, none => .next s
  | none, some p =>
    let b := p.bytes
    let total := leAt b 0x18 8
    let n := min 65536 (total - p.prog)
    let finish (st : State) (cause : Nat) : State :=
      ((st.takeViews (agHub 1) [st.viewFrom (agQueue q) 5]).owePkt q (agQueue q) (wordAt b 0x20) cause).endPkt q p
    match (s.chkRange 0 k.ctx (wordAt b 0x10) (p.prog : Nat) n false).then_ (s.chkRange 0 k.ctx (wordAt b 8) (p.prog : Nat) n true) with
    | .fault c _ => .next (finish s c)
    | .absent oid x _ => .next (s.report oid x)
    | .hold => .next s
    | .ok _ =>
      let ranges (c : Chk) : List (Nat × Nat) := match c with | .ok l => l | _ => []
      match s.readAll (agQueue q) (ranges (s.chkRange 0 k.ctx (wordAt b 0x10) (p.prog : Nat) n false)) with
      | none => .next (finish s 0xA0)
      | some (s1, bs) =>
        let s2 := s1.writeAll (agQueue q) (ranges (s.chkRange 0 k.ctx (wordAt b 8) (p.prog : Nat) n true)) bs
        if total ≤ p.prog + n then .next (finish s2 0) else .next (s2.setPkt q { p with prog := p.prog + n })

/-! ### IB, REPLAY, BIND and NOP (R249, R355, R360, R362) -/

/-- PKT_IB (R360): the packet starts in its turn; its buffer's packets stand behind it, and it completes with the last
of them. -/
def execPktIb (q : Nat) (s : State) : Host.Outcome State Fault Refusal :=
  let k := s.queue q
  match k.next 6 (s.mayStart q) with
  | some p => .next (s.startPkt q p)
  | none =>
    match k.next 6 fun p => p.started && decide (p.len ≤ p.prog) && k.pkts.all fun w => w.parent != some p.tag with
    | some p => .next (s.endPkt q p)
    | none => .next s

/-- The replays of a graph object that run (R362). -/
def State.running (s : State) (oid : Nat) : Nat :=
  s.queues.foldl (fun a r => a + (r.2.pkts.filter fun p => pktType p.bytes == 7 && p.started && p.graph == oid).length) 0

/-- PKT_REPLAY (R355, R362): a replay starts when fewer than SLOTS replays of its graph run; it completes, by one step of its
counter, when every launch of it has ended. -/
def execPktReplay (q : Nat) (s : State) : Host.Outcome State Fault Refusal :=
  let k := s.queue q
  match k.next 7 fun p => s.mayStart q p && decide (s.running p.graph < p.slots) with
  | some p => .next (s.startPkt q p)
  | none =>
    match k.next 7 fun p => p.started && k.pkts.all fun w => w.parent != some p.tag || !w.launches with
    | some p => .next ((s.owePkt q (agHub 1) (wordAt p.bytes 0x20) p.prog).endPkt q p)
    | none => .next s

/-- PKT_BIND (R249, R355): a bind or an unbind in the tree of the queue's owner; the packet completes when the NSE has
answered, whatever the answer. -/
def execPktBind (q : Nat) (s : State) : Host.Outcome State Fault Refusal :=
  let k := s.queue q
  match k.next 8 (s.mayStart q) with
  | none => .next s
  | some p =>
    let m := leAt p.bytes 0x18 8
    let s1 := s.startPkt q p
    match s1.bindDo k.ctx (m % 32) (bit m 7) (wordAt p.bytes 8) (wordAt p.bytes 0x10) with
    | .ok s2 _ => .next (s2.endPkt q { p with started := true })
    | .no s2 _ _ _ => .next (s2.endPkt q { p with started := true })
    | .wait s2 => .next s2

/-- PKT_NOP (R355). -/
def execPktNop (q : Nat) (s : State) : Host.Outcome State Fault Refusal :=
  let k := s.queue q
  match k.next 9 (s.mayStart q) with
  | none => .next s
  | some p => .next ((s.startPkt q p).endPkt q { p with started := true })

/-! ### The supervisor pair (R365) -/

/-- A queue after a recovery: packets journaled as started stand; those parsed and not journaled are parsed again. -/
def Queue.recover (k : Queue) : Queue :=
  let kept (p : Pkt) : Bool := p.started || (match p.parent with
    | some t => match k.pkts.find? fun w => w.tag == t with
      | some w => pktType w.bytes == 7 && w.started
      | none => true
    | none => false)
  let lost := k.pkts.filter fun p => !kept p
  let back (p : Pkt) : Pkt :=
    match (lost.find? fun w => w.parent == some p.tag).bind (·.ib) with
    | some (_, o) => if pktType p.bytes = 6 then { p with prog := o } else p
    | none => p
  let c := match lost.find? fun p => p.parent.isNone with | some p => p.idx | none => k.c
  { k.unwatch with
    pkts := (k.pkts.filter kept).map back
    c := c, pubOwed := k.pubOwed.filter fun i => decide (i ≤ c), valid := false }

/-- SUPERVISOR_MISMATCH (R365): both halves stop, restart from the checkpoint and replay the journal; the pause, at most
5 ms long, in which queues, placement, admission and the supervisor's counter steps wait, is recorded at /sys/time with reason 1, and as a suspension of every promised queue (R300; log entry 14). -/
def execSupervisorMismatch (s : State) : Host.Outcome State Fault Refusal :=
  let (s1, f) := s.takeFree
  let pause := (Config.free f).toNat % (4250000 + 1)
  let held := s1.queues.filter fun r => r.2.alive && r.2.cls != 0
  .next { s1 with
    pause := s.dtime + pause
    queues := s1.queues.map fun r => (r.1, r.2.recover)
    times := s1.times ++ { reason := 1, start := s.dtime, stop := s.dtime + pause, val := 0 }
      :: held.map fun r => { reason := 6, start := s.dtime, stop := s.dtime + pause, val := r.1 } }

/-- SUPERVISOR_CHECKPOINT (R365): the pair's state is its journal. -/
def execSupervisorCheckpoint (s : State) : Host.Outcome State Fault Refusal :=
  .next { s with ckpt := s.journal }

end Sys2Proof.Machine
end

