-- ==== Sys2Proof/Machine/Frames.lean ====
section
/-! DEFINITION. Transaction frames of the host and of peer packages (R341, R343, R344, R382), and the creation and the
end of tenant contexts (R345). -/

namespace Sys2Proof.Machine

/-! ### Frames (R343, R344) -/

/-- A frame that R343 does not allow: reserved bits, a reserved TYPE or a LEN that breaks the table. -/
def frameBad (f : Frame) : Bool :=
  let fl := f.flags.toNat
  let n := f.len.toNat
  let has (lo hi : Nat) : Bool := lo ≤ n && n ≤ hi && f.payload.length == n
  let none_ : Bool := n == 0 && f.payload.isEmpty
  f.rest != 0 || bits f.ctx.toNat 12 4 != 0
    || !(match f.type.toNat with
      | 1 => fl / 2 == 0 && has 1 1024
      | 2 => none_ || has 1 1024
      | 3 => fl == 0 && 1 ≤ n && n ≤ 4096 && f.payload.isEmpty
      | 4 => fl == 0 && has 1 4096
      | 5 => fl / 4 == 0 && fl != 2 && none_
      | 6 => bits fl 5 2 == 0 && none_ && (bit fl 0 || bits fl 1 4 == 0)
      | _ => false)

/-- The context in which the frames of a peer package act: its export context (R344; log entry 43). -/
def peerCtx (p : Nat) : Nat := 0xF80 + p

/-- The place that a package's frames are resolved beneath: /export/pkg/p/ (R341). -/
def State.exportDir (s : State) (p : Nat) : Option Nat :=
  s.under (s.ctx 1).root [nameOf ['e', 'x', 'p', 'o', 'r', 't'], nameOf ['p', 'k', 'g'], decName p]

/-- The context in which a frame acts, or the cause and sub-code of its refusal (R341, R344). -/
def State.frameCtx (s : State) (f : Frame) : Except (Nat × Nat) (State × Nat) :=
  match f.peer with
  | none =>
    let x := f.ctx.toNat
    if x = 1 ∨ ((s.ctx x).alive ∧ (s.ctx x).dom = 0 ∧ (s.ctx x).owner = 1) then .ok (s, x) else .error (0x06, 1)
  | some p =>
    if 64 ≤ p then .error (0xB0, 0)
    else match s.exportDir p with
      | none => .error (0xB0, 0)
      | some n =>
        if f.ctx.toNat ≠ peerCtx p then .error (0x06, 1)
        else .ok (s.modCtx (peerCtx p) fun k => { k with alive := true, owner := 2, root := n }, peerCtx p)

/-- A frame of a type is served in its context; a malformed one and one without a context are refused (R344). -/
def State.serve (s : State) (type : Nat) (f : Frame) (body : State → Nat → State) : Host.Outcome State Fault Refusal :=
  if frameBad f then .next (s.reply f 0x80 0 0 0 [])
  else if f.type.toNat ≠ type then .next s
  else match s.frameCtx f with
    | .error (c, sub) => .next (s.reply f c sub 0 0 [])
    | .ok (s1, x) => .next (body s1 x)

/-- A frame's request to the NSE, served at once as its instruction form is (R344). -/
def State.askFrame (s : State) (f : Frame) (x : Nat) (e : Eff) : State :=
  let r : HubReq := { e := e, seq := s.hubNext, frame := some f, ctx := x }
  let s1 : State := { s with hub := s.hub ++ [r], hubNext := s.hubNext + 1 }
  s1.hubServe s.hub.length r

/-- The agent of a frame's requester. -/
def frameAgent (f : Frame) : Nat := match f.peer with | some p => agPeer p | none => agHub 2

/-- A path in a frame: its zero byte is its last (R244). -/
def framePath (p : List Byte) : Option (List Byte) :=
  match p.getLast? with
  | some b => if b = 0#8 ∧ !p.dropLast.contains 0#8 then some p.dropLast else none
  | none => none

/-- FRAME_WALK (R246, R344). -/
def execFrameWalk (f : Frame) (s : State) : Host.Outcome State Fault Refusal :=
  s.serve 1 f fun s1 x =>
    match framePath f.payload with
    | none => s1.reply f 0xB2 0 0 0 []
    | some _ => s1.askFrame f x { op := 0xF0, n := bit f.flags.toNat 0, vb := f.token }

/-- An open frame that creates a tenant context (R345). -/
def State.isCreate (s : State) (f : Frame) : Bool :=
  f.peer.isNone && f.type.toNat == 2 && f.ctx.toNat == 1 && f.flags.toNat == 0x40
    && (match s.useToken 1 f.token with | .ok n => s.tenantDir == some n | .error _ => false)

/-- FRAME_OPEN (R247, R344). A path is resolved from the token first. -/
def execFrameOpen (f : Frame) (s : State) : Host.Outcome State Fault Refusal :=
  if !frameBad f && s.isCreate f then .next s
  else s.serve 2 f fun s1 x =>
    let ask (st : State) (tok : Word) : State := st.askFrame f x { op := 0xF1, va := tok, vb := f.arg, m := f.flags.toNat }
    if f.payload.isEmpty then ask s1 f.token
    else match framePath f.payload with
      | none => s1.reply f 0xB2 0 0 0 []
      | some p => match s1.resolve x (some f.token) p with
        | .ok s2 tok => ask s2 tok
        | .no s2 c sub _ => s2.reply f c sub 0 0 []
        | .wait s2 => s2

/-- The aligned 64-byte pieces of a range (R107, R344); the fuel bounds their number. -/
def lines64 : Nat → Nat → Nat → List (Nat × Nat)
  | 0, _, _ => []
  | k + 1, l, n =>
    if n = 0 then []
    else
      let m := min n (64 - l % 64)
      (l, m) :: lines64 k (l + m) (n - m)

/-- The check of a read or write frame over its whole span (R140, R344). What a frame may write of a control block is for each
of its fields to say (R353). -/
def State.frameSpan (s : State) (x : Nat) (f : Frame) (right : Nat) : Except (Nat × Nat) Ok :=
  let d := s.handleAt x f.token
  match (s.obj d.oid).kind with
  | .ctl _ =>
    if d.st = .valid && !bit d.rights right then .error (0x12, 0) else s.checkHandle x f.token f.len.toNat 1 6
  | _ => s.checkHandle x f.token f.len.toNat 1 right

/-- The object that a frame's pointer reaches. -/
def State.frameObj (s : State) (x : Nat) (f : Frame) : Nat := (s.desc x (fpHnd f.token)).oid

/-- A make handle (R382). -/
def State.makeOf (s : State) (x : Nat) (f : Frame) : Option Nat :=
  if (s.desc x (fpHnd f.token)).st = .valid then
    match (s.obj (s.frameObj x f)).kind with | .make n => some n | _ => none
  else none

/-- FRAME_READ (R344): checked once, then read piece by piece as an acquire at `.dom`. -/
def execFrameRead (f : Frame) (s : State) : Host.Outcome State Fault Refusal :=
  s.serve 3 f fun s1 x =>
    let n := f.len.toNat
    if (s1.makeOf x f).isSome then s1.reply f 0x12 0 0 0 []
    else match s1.frameSpan x f rRead with
      | .error (c, sub) => s1.reply f c sub 0 0 []
      | .ok k =>
        match k.np with
        | some (oid, e) => s1.report oid e
        | none =>
          let ps := lines64 (n / 64 + 2) k.loc n
          if ps.any fun p => s1.inWindow p.1 then s
          else if (locs k.loc n).any s1.bad.contains then s1.reply f 0xA0 0 0 0 []
          else
            let a := frameAgent f
            let (s2, bs, evs) := ps.foldl (fun (acc : State × List Byte × List Nat) p =>
              let (st, b, ev) := acc.1.readFwd a [] (locs p.1 p.2)
              (st.heat a p.1 false, acc.2.1 ++ b, acc.2.2 ++ ev)) (s1, [], [])
            (s2.joinEvents a 5 evs).reply f 0 0 0 0 bs

/-- A write to a device register behind an object: a control block (R353), by the host or a peer (`dev`), or a system file
(R340, R341); the cause it is refused with, or zero. -/
def State.writeReg (s : State) (oid o : Nat) (bs : List Byte) (fw dev : Bool) : State × Nat :=
  match (s.obj oid).kind with
  | .ctl q =>
    if o % 8 ≠ 0 ∨ bs.length % 8 ≠ 0 then (s, 0x12)
    else (List.range (bs.length / 8)).foldl (fun (acc : State × Nat) i =>
      if acc.2 ≠ 0 then acc else acc.1.ctlWrite q (o + 8 * i) (wordAt bs (8 * i)) dev) (s, 0)
  | .file 0 _ => if (o < 8 ∨ 16 < o + bs.length) ∧ !fw then (s, 0x12) else (s.storeFile oid o bs, 0)
  | .file _ _ => (s.storeFile oid o bs, 0)
  | _ => (s, if fw then 0 else 0x12)

/-- A memory object, or a ring, whose bytes are memory. -/
def ObjKind.isMem : ObjKind → Bool
  | .memory | .ring _ | .save => true
  | _ => false

/-- FRAME_WRITE (R317, R344): checked once, then written piece by piece as a release at `.dom`; to the weight store only
while no kernel of a context that holds the object runs. To a granule read of 256 bytes it is one write (R360). -/
def execFrameWrite (f : Frame) (s : State) : Host.Outcome State Fault Refusal :=
  if !frameBad f && (match s.frameCtx f with | .ok (s1, x) => f.type.toNat == 4 && (s1.makeOf x f).isSome | .error _ => false) then
    .next s
  else s.serve 4 f fun s1 x =>
    match s1.frameSpan x f rWrite with
    | .error (c, sub) => s1.reply f c sub 0 0 []
    | .ok k =>
      if !(s1.obj (locId k.loc)).kind.isMem then
        let (s2, c) := s1.writeReg (locId k.loc) (locOff k.loc) f.payload ((s1.ctx x).dom == 2) f.peer.isSome
        if c = 0 then s2.reply f 0 0 0 0 [] else s1.reply f c 0 0 0 []
      else match k.np with
      | some (oid, e) => s1.report oid e
      | none =>
        let ps := lines64 (f.len.toNat / 64 + 2) k.loc f.len.toNat
        if k.ws.isSome && !(s1.holdersOf (locId k.loc)).all s1.quiescent then s1.reply f 0x22 0 0 0 []
        else if ps.any fun p => s1.zLoc p.1 then s
        else
          let a := frameAgent f
          let s2 := ps.foldl (fun st p =>
            (st.put a (locs p.1 p.2) ((f.payload.drop (p.1 - k.loc)).take p.2) [] (some 5)).heat a p.1 true) s1
          let s3 := s2.asWhole (chunkWhole s1.oom.nextEv) s1.oom.nextEv
          s3.reply f 0 0 0 0 []

/-- FRAME_MAKE (R382): a write at offset 0 of a make handle makes the missing directories of its path. -/
def execFrameMake (f : Frame) (s : State) : Host.Outcome State Fault Refusal :=
  s.serve 4 f fun s1 x =>
    match s1.makeOf x f with
    | none => s
    | some n =>
      if fpOff f.token ≠ 0 ∨ !bit (s1.desc x (fpHnd f.token)).rights rWrite then s1.reply f 0x12 0 0 0 []
      else if 1023 < f.payload.length ∨ f.payload.contains 0#8 then s1.reply f 0xB2 0 0 0 []
      else
        let (s2, c, sub) := s1.makePath x n f.payload
        s2.reply f c sub 0 0 []

/-- FRAME_CLOSE (R248, R344). -/
def execFrameClose (f : Frame) (s : State) : Host.Outcome State Fault Refusal :=
  if !frameBad f && f.type.toNat == 5 && bit f.flags.toNat 0 then .next s
  else s.serve 5 f fun s1 x => s1.askFrame f x { op := 0xF2, va := f.token }

/-- The directory that a handle of a context lists, or in which it makes names. -/
def State.dirOf (s : State) (d : Desc) : Option Nat :=
  if d.st != .valid then none
  else match (s.obj d.oid).kind with
    | .listing n | .make n => some n
    | _ => none

/-- The tenant context that a close frame with REVOKE on /tenant/ctx/ccc/ ends: through the fat pointer of a handle to that
directory (R343, R345). -/
def State.ends (s : State) (f : Frame) : Option Nat :=
  if f.peer.isNone && f.type.toNat == 5 && f.flags.toNat == 1 && f.ctx.toNat == 1 then
    match s.dirOf (s.desc 1 (fpHnd f.token)), s.tenantDir with
    | some n, some d =>
      (((s.node d).kids.find? fun r => r.2 == n).bind fun r =>
        ((List.range 4096).find? fun c => hexName 3 c == r.1))
    | _, _ => none
  else none

/-- FRAME_REVOKE (R250, R344): the handle of the frame's context, or with CTX of a context the host created. -/
def execFrameRevoke (f : Frame) (s : State) : Host.Outcome State Fault Refusal :=
  if !frameBad f && ((f.type.toNat == 5 && !bit f.flags.toNat 0) || (s.ends f).isSome) then .next s
  else s.serve 5 f fun s1 x =>
    let ctx := bit f.flags.toNat 1
    let y := if ctx then f.arg.toNat else x
    let h := fpHnd f.token
    if ctx ∧ 2 ^ 12 ≤ y then s1.reply f 0x07 0 0 0 []
    else if h = 0 then s1.reply f 0x13 2 0 0 []
    else if ctx ∧ ¬ (x = 1 ∧ (s1.ctx y).alive ∧ (s1.ctx y).dom = 0 ∧ (s1.ctx y).owner = 1) then s1.reply f 0x06 1 0 0 []
    else if (s1.desc y h).st = .invalid then s1.reply f 0x13 0 0 0 []
    else s1.askFrame f x { op := 0xF5, va := f.token, vb := BitVec.ofNat 64 h, vc := BitVec.ofNat 64 y }

/-- FRAME_BIND (R249, R344, R346). -/
def execFrameBind (f : Frame) (s : State) : Host.Outcome State Fault Refusal :=
  if !frameBad f && f.type.toNat == 6 && bit f.flags.toNat 7 then .next s
  else s.serve 6 f fun s1 x => s1.askFrame f x { op := 0xF3, m := f.flags.toNat % 32, va := f.token, vb := f.arg }

/-- FRAME_UNBIND (R249, R344, R346). -/
def execFrameUnbind (f : Frame) (s : State) : Host.Outcome State Fault Refusal :=
  if !frameBad f && f.type.toNat == 6 && !bit f.flags.toNat 7 then .next s
  else s.serve 6 f fun s1 x => s1.askFrame f x { op := 0xF4, va := f.token, vb := f.arg }

/-! ### Tenant contexts (R345) -/

/-- An identifier is free: never used, or its context has ended and the scrubber has cleared the last of its extents. -/
def State.idFree (s : State) (id : Nat) : Bool :=
  let k := s.ctx id
  2 ≤ id && id < 0xF80 && !k.alive && (k.ending == 0 || (k.ending == 4 && !s.scrub.any fun p => p.2.2 == id))

/-- The bind log of a context begins anew: the records of one that had its identifier are the firmware's alone (R346). -/
def State.freshLog (s : State) (x : Nat) : State :=
  { s with bindLog := s.bindLog.map fun r => if r.tree = x then { r with live := false } else r }

/-- CONTEXT_CREATE (R18, R345): the NSE gives a free identifier, the context's tree grows with queue 0 in it, and
/tenant/ctx/ccc/ appears. -/
def execContextCreate (f : Frame) (id : Nat) (s : State) : Host.Outcome State Fault Refusal :=
  if frameBad f || !s.isCreate f then .next s
  else if !(List.range 4096).any s.idFree then .next (s.reply f 0xB3 1 0 0 [])
  else if !s.idFree id then .next s
  else match s.tenantDir with
    | none => .next s
    | some d =>
      let (s1, root) := (s.freshLog id).newNode { type := 1, ctx := id }
      let s2 := ((s1.modCtx id fun _ => { alive := true, dom := 0, owner := 1, root := root, pmver := s.pmVer }).plant id root).withQueue
        (id * 4096)
      let (s3, n) := s2.grow d (hexName 3 id) { type := 1, ctx := 1 }
      let s4 := s3.addKid n (nameOf ['r', 'o', 'o', 't']) root
      let (s5, _) := s4.growObj n (nameOf ['b', 'i', 'n', 'd', 's']) { type := 5, ctx := 1, prot := true } { kind := .file 5 id }
      .next (s5.reply f 0 0 0 (BitVec.ofNat 64 id) [])

/-- The end of a context begins: its queues accept no more packets, nothing of it is placed any longer, and its partitions
stop as a synchronised stop has it (R345, R370). -/
def State.beginEnd (s : State) (x : Nat) : State :=
  let ts := (s.partsOf x).filter fun t => (s.part t).running && !s.stops.any fun q => !q.core && q.target == t
  let s1 : State := { s with
    launches := s.launches.map fun r => if r.2.ctx = x then (r.1, { r.2 with waiting := false }) else r
    queues := s.queues.map fun r => if r.2.ctx = x then (r.1, { r.2 with state := 2, valid := false }) else r
    stops := s.stops ++ ts.map fun t => { core := false, target := t, time := s.dtime + 34000 } }
  s1.modCtx x fun k => { k with ending := 1 }

/-- The kernels of a context stand: its cores have stopped, their commit queues and vector operations have drained, and
its started engine work has ended (R370, R371). -/
def State.stands (s : State) (x : Nat) : Bool :=
  (s.partsOf x).all (fun t => !(s.part t).running || s.stops.any fun q => !q.core && q.target == t && q.stopped)
    && s.cores.all (fun r => r.2.vq.all (fun o => o.e.ctx != x) && r.2.th.all fun y => y.2.ctx != x || y.2.cq.isEmpty)
    && s.clus.all (fun r => r.2.sched.all (fun k => k.vat == 0 || k.e.ctx != x) && r.2.trel.win.all fun w => !w.started || w.e.ctx != x)
    && s.owed.all fun o => o.queue.isSome || o.ctx != x

/-- What a context's kernels still hold once they stand is not kept (R345): their threads, records, messages, requests
and launches; its cores are free to run again. -/
def State.stopContext (s : State) (x : Nat) : State :=
  let mine (e : Eff) : Bool := e.ctx == x
  let s1 : State := { s with
    launches := s.launches.map fun r => if r.2.ctx = x then (r.1, { r.2 with ended := true, waiting := false }) else r
    queues := s.queues.map fun r => if r.2.ctx = x then (r.1, { r.2 with state := 2, valid := false, pkts := [] }) else r
    msgs := s.msgs.filter fun m => !mine m.e
    migs := s.migs.filter fun m => m.image.ctx != x
    hmsgs := s.hmsgs.filter fun m => m.msg.ctx != x
    heldMsgs := s.heldMsgs.filter fun m => m.msg.ctx != x
    saves := s.saves.filter fun r => r.2.ctx != x
    hub := s.hub.filter fun r => r.ctx != x || r.frame.isSome
    owed := s.owed.filter fun o => o.ctx != x
    stops := s.stops.filter fun q => q.core || !(s.partsOf x).contains q.target
    quotes := s.quotes.filter fun r => r.ctx != x
    clus := s.clus.map fun r => (r.1, { r.2 with
      sched := r.2.sched.filter fun k => !mine k.e
      trel := { r.2.trel with win := r.2.trel.win.filter (fun k => !mine k.e), img := SMap.set {} x {} r.2.trel.img }
      ladle := r.2.ladle.filter fun k => !mine k.e })
    dies := s.dies.map fun r => (r.1, { r.2 with
      press := r.2.press.filter fun k => !mine k.e
      net := r.2.net.filter fun k => !mine k.e }) }
  let mineCores := (s.partsOf x).flatMap fun t => (s.part t).cores
  s1.cores.foldl (fun st (c, k) =>
    let owns : Bool := (s.launch k.lid).ctx == x && k.lid != 0
    let st1 := st.modCore c fun q => { q with
      deque := if owns then [] else q.deque
      dqSlots := if owns then 0 else q.dqSlots
      due7 := if owns then none else q.due7
      lid := if owns then 0 else q.lid
      stopped := if mineCores.contains c then false else q.stopped
      vq := q.vq.filter fun v => !mine v.e
      q := q.q.map fun r => (r.1, r.2.filter fun e => !mine e)
      tq := q.tq.filter fun m => m.ctx != x
      nq := SMap.set [] x [] q.nq }
    k.th.foldl (fun st2 (t, y) =>
      if y.ctx = x && y.st ≠ 0 then
        ((st2.discard c t).modThr c t fun z => { z with mbx := [], cq := [], log := [] }).freeThread c t
      else st2) st1) s1

/-- Every open handle of a context is revoked (R345, R349). -/
def State.revokeAll (s : State) (x : Nat) : State :=
  (s.ctx x).hnd.foldl (fun st r =>
    if r.2.st = .valid then (st.setDesc x r.1 { r.2 with st := .revoking }).shoot x r.1 false else st) s

/-- An object goes with its context (R345): its extents are freed to the scrubber and its name is gone. What another context
that holds a handle to it touches from then on is allocated again, for that context (log entry 146). -/
def State.freeWith (s : State) (oid : Nat) : State :=
  match s.ctxs.find? fun r => r.2.hnd.any fun h => h.2.oid == oid && h.2.st != .invalid with
  | none => s.freeObj oid
  | some (y, _) =>
    let s1 := (s.nodes.filter fun r => r.2.type == 2 && r.2.oid == oid).foldl (fun st r => (st.dropFmt r.1).dropNode r.1) s
    (s1.emptyObj oid).modObj oid fun o => { o with owner := y }

/-- Every handle is closed and what it held is freed; the context's tiles are freed and zero-filled on every cluster,
and its names and its queues are gone (R213, R345). -/
def State.clearContext (s : State) (x : Nat) : State :=
  let s1 := (s.ctx x).hnd.foldl (fun st r => if r.2.st = .invalid then st else st.dropHandle x r.1) s
  let mine := s1.objs.filter fun r => r.2.owner == x && x != 0
  let s2 := (mine.filter fun r => r.2.kind == .memory).foldl (fun st r => st.freeWith r.1)
    ((mine.filter fun r => r.2.kind != .memory).foldl (fun st r =>
      { st.zeroRange (locObj r.1 0) (2 ^ 44) with objs := SMap.set {} r.1 {} st.objs }) s1)
  let s3 := (s2.nodes.filter fun r => r.2.ctx == x && r.2.type != 0).foldl (fun st r => st.dropNode r.1) s2
  let s4 : State := { s3 with
    queues := s3.queues.filter fun r => r.2.ctx != x
    clus := s3.clus.map fun r => (r.1, { r.2 with
      tiles := r.2.tiles.map fun t => if t.2.own = .ctx x ∨ t.2.own = .eng x then (t.1, { t.2 with own := .free, filling := true }) else t }) }
  s4.modCtx x fun _ => { ending := 3 }

/-- /tenant/ctx/ccc/ goes, and the context has ended. -/
def State.finishContext (s : State) (x : Nat) : State :=
  let s1 : State := match (s.tenantDir).bind fun d => (s.node d).kid (hexName 3 x) with
    | some n => ((s.node n).kids.foldl (fun (st : State) r => st.dropNode r.2) s).dropNode n
    | none => s
  s1.modCtx x fun k => { k with ending := 4 }

/-- CONTEXT_END (R345): the queues and the kernels stop; then every handle is revoked; once every revocation has ended, the
handles close and what the context held is freed; the reply leaves once the freed tiles have been zero-filled. -/
def execContextEnd (f : Frame) (s : State) : Host.Outcome State Fault Refusal :=
  if frameBad f then .next s
  else match s.ends f with
    | some x =>
      match (s.ctx x).ending with
      | 0 => .next (s.beginEnd x)
      | 1 => .next (if s.stands x then ((s.stopContext x).revokeAll x).modCtx x fun k => { k with ending := 2 } else s)
      | 2 => .next (if s.shoots.any fun k => !k.entry && k.ctx == x then s else s.clearContext x)
      | _ =>
        if s.clus.any fun r => r.2.tiles.any fun t => t.2.filling then .next s
        else .next ((s.finishContext x).reply f 0 0 0 0 [])
    | none => .next s

end Sys2Proof.Machine
end

