-- ==== Sys2Proof/Machine/Integer.lean ====
section
/-! DEFINITION. Rows 1 and 2: integer operations, immediates, moves and bit fields (R122 to R128). -/

namespace Sys2Proof.Machine

/-- A single-cycle function of gA and gB. -/
def bin (f : Word → Word → Word) (i : Iss) : Try Out := oneG i (f i.va i.vb)

/-- A single-cycle function of gA and the immediate, sign-extended. -/
def binImm (f : Word → Word → Word) (i : Iss) : Try Out := oneG i (f i.va (wordOf (immOf i.fm i.o)))

/-- A single-cycle function of gA. -/
def un (f : Word → Word) (i : Iss) : Try Out := oneG i (f i.va)

/-- The high half of the signed product (R123). -/
def mulhS (a b : Word) : Word := wordOf (a.toInt * b.toInt / 2 ^ 64)
/-- The high half of the unsigned product (R123). -/
def mulhU (a b : Word) : Word := BitVec.ofNat 64 (a.toNat * b.toNat / 2 ^ 64)
/-- Shift left by bits 5:0 of b (R123). -/
def shl (a b : Word) : Word := a <<< (b.toNat % 64)
/-- Logical shift right (R123). -/
def shr (a b : Word) : Word := a >>> (b.toNat % 64)
/-- Arithmetic shift right (R123). -/
def sar (a b : Word) : Word := a.sshiftRight (b.toNat % 64)
/-- Rotation left (R123). -/
def rot (a b : Word) : Word := (a <<< (b.toNat % 64)) ||| (a >>> (64 - b.toNat % 64))

def opAdd (i : Iss) : Try Out := bin (· + ·) i
def opSub (i : Iss) : Try Out := bin (· - ·) i
def opMul (i : Iss) : Try Out := bin (· * ·) i
def opMulh (i : Iss) : Try Out := bin mulhS i
def opMulhn (i : Iss) : Try Out := bin mulhU i
def opAnd (i : Iss) : Try Out := bin (· &&& ·) i
def opOr (i : Iss) : Try Out := bin (· ||| ·) i
def opXor (i : Iss) : Try Out := bin (· ^^^ ·) i
def opShl (i : Iss) : Try Out := bin shl i
def opShr (i : Iss) : Try Out := bin shr i
def opSar (i : Iss) : Try Out := bin sar i
def opRot (i : Iss) : Try Out := bin rot i

/-- The division family: a zero divisor traps 0x34; results are long-latency (R124). -/
def divide (f : Word → Word → Word) (i : Iss) : Try Out :=
  if i.vb = 0 then trap 0x34 0 0 else longG i (f i.va i.vb)

/-- Signed truncating quotient (R124). -/
def divS (a b : Word) : Word := wordOf (a.toInt.tdiv b.toInt)
/-- Remainder with the sign of the dividend (R124). -/
def remS (a b : Word) : Word := wordOf (a.toInt - b.toInt * a.toInt.tdiv b.toInt)
/-- Unsigned quotient (R124). -/
def divU (a b : Word) : Word := BitVec.ofNat 64 (a.toNat / b.toNat)
/-- Unsigned remainder (R124). -/
def remU (a b : Word) : Word := BitVec.ofNat 64 (a.toNat % b.toNat)

def opDiv (i : Iss) : Try Out := divide divS i
def opDivn (i : Iss) : Try Out := divide divU i
def opRem (i : Iss) : Try Out := divide remS i
def opRemn (i : Iss) : Try Out := divide remU i

def opAddi (i : Iss) : Try Out := binImm (· + ·) i
def opAndi (i : Iss) : Try Out := binImm (· &&& ·) i
def opOri (i : Iss) : Try Out := binImm (· ||| ·) i
def opXori (i : Iss) : Try Out := binImm (· ^^^ ·) i

/-- A shift of gA by an unsigned amount in bits 5:0 of the modifier (R125, R126). -/
def shiftImm (f : Word → Word → Word) (i : Iss) : Try Out := oneG i (f i.va (BitVec.ofNat 64 (i.o.m % 64)))
def opShli (i : Iss) : Try Out := shiftImm shl i
def opShri (i : Iss) : Try Out := shiftImm shr i
def opSari (i : Iss) : Try Out := shiftImm sar i

/-- LI: i48 sign-extended (R126). -/
def opLi (i : Iss) : Try Out := oneG i (wordOf (sx 48 i.o.i))
/-- LIH: i48[15:0] above gA[47:0] (R126). -/
def opLih (i : Iss) : Try Out := oneG i (BitVec.ofNat 64 (i.o.i % 2 ^ 16 * 2 ^ 48 + i.va.toNat % 2 ^ 48))
/-- MOV (R126). -/
def opMov (i : Iss) : Try Out := un id i
/-- SEL: gA when the named predicate, negated if bit 3 is set, is true (R126). -/
def opSel (i : Iss) : Try Out :=
  .ok { g := if i.o.d = 0 then [] else [(i.o.d, if i.x.readP (i.o.m % 8) != bit i.o.m 3 then i.va else i.vb)]
        rd := [16 + i.o.m % 8] }

/-- Leading zero bits among the low `n` (R127). -/
def clzGo (v : Nat) : Nat → Nat
  | 0 => 0
  | n + 1 => if bit v n then 0 else clzGo v n + 1
/-- One bits among the low `n` (R127). -/
def popGo (v : Nat) : Nat → Nat
  | 0 => 0
  | n + 1 => popGo v n + (if bit v n then 1 else 0)
def clz (a : Word) : Word := BitVec.ofNat 64 (clzGo a.toNat 64)
def popc (a : Word) : Word := BitVec.ofNat 64 (popGo a.toNat 64)
/-- The eight bytes in reverse order (R127). -/
def bswap (a : Word) : Word := BitVec.ofNat 64 (leNat (leBytes 8 a.toNat).reverse)
def opClz (i : Iss) : Try Out := un clz i
def opPopc (i : Iss) : Try Out := un popc i
def opBswap (i : Iss) : Try Out := un bswap i

/-- BFX (R128); a field beyond bit 63 is a reserved form. -/
def opBfx (i : Iss) : Try Out :=
  let len := bits i.o.m 6 6 + 1
  let f := bits i.va.toNat (i.o.m % 64) len
  oneG i (if bit i.o.m 12 then wordOf (sx len f) else BitVec.ofNat 64 f)
/-- BFI (R128). -/
def opBfi (i : Iss) : Try Out :=
  let pos := i.o.m % 64
  let mask : Word := BitVec.ofNat 64 ((2 ^ (bits i.o.m 6 6 + 1) - 1) * 2 ^ pos)
  oneG i ((i.vb &&& ~~~ mask) ||| ((i.va <<< pos) &&& mask))

/-- ADD_T2 (R123). -/
def execAddT2 (f : F2) (s : State) : Host.Outcome State Fault Refusal :=
  issue 0x10 .t2 f.opnd opAdd s

/-- ADD_T4 (R123). -/
def execAddT4 (f : F4) (s : State) : Host.Outcome State Fault Refusal :=
  issue 0x10 .t4 f.opnd opAdd s

/-- SUB_T2 (R123). -/
def execSubT2 (f : F2) (s : State) : Host.Outcome State Fault Refusal :=
  issue 0x11 .t2 f.opnd opSub s

/-- SUB_T4 (R123). -/
def execSubT4 (f : F4) (s : State) : Host.Outcome State Fault Refusal :=
  issue 0x11 .t4 f.opnd opSub s

/-- MUL_T2 (R123). -/
def execMulT2 (f : F2) (s : State) : Host.Outcome State Fault Refusal :=
  issue 0x12 .t2 f.opnd opMul s

/-- MUL_T4 (R123). -/
def execMulT4 (f : F4) (s : State) : Host.Outcome State Fault Refusal :=
  issue 0x12 .t4 f.opnd opMul s

/-- MULH_T2 (R123). -/
def execMulhT2 (f : F2) (s : State) : Host.Outcome State Fault Refusal :=
  issue 0x13 .t2 f.opnd opMulh s

/-- MULH_T4 (R123). -/
def execMulhT4 (f : F4) (s : State) : Host.Outcome State Fault Refusal :=
  issue 0x13 .t4 f.opnd opMulh s

/-- MULHN_T2 (R123). -/
def execMulhnT2 (f : F2) (s : State) : Host.Outcome State Fault Refusal :=
  issue 0x14 .t2 f.opnd opMulhn s

/-- MULHN_T4 (R123). -/
def execMulhnT4 (f : F4) (s : State) : Host.Outcome State Fault Refusal :=
  issue 0x14 .t4 f.opnd opMulhn s

/-- DIV_T2 (R124). -/
def execDivT2 (f : F2) (s : State) : Host.Outcome State Fault Refusal :=
  issue 0x15 .t2 f.opnd opDiv s

/-- DIV_T4 (R124). -/
def execDivT4 (f : F4) (s : State) : Host.Outcome State Fault Refusal :=
  issue 0x15 .t4 f.opnd opDiv s

/-- DIVN_T2 (R124). -/
def execDivnT2 (f : F2) (s : State) : Host.Outcome State Fault Refusal :=
  issue 0x16 .t2 f.opnd opDivn s

/-- DIVN_T4 (R124). -/
def execDivnT4 (f : F4) (s : State) : Host.Outcome State Fault Refusal :=
  issue 0x16 .t4 f.opnd opDivn s

/-- REM_T2 (R124). -/
def execRemT2 (f : F2) (s : State) : Host.Outcome State Fault Refusal :=
  issue 0x17 .t2 f.opnd opRem s

/-- REM_T4 (R124). -/
def execRemT4 (f : F4) (s : State) : Host.Outcome State Fault Refusal :=
  issue 0x17 .t4 f.opnd opRem s

/-- REMN_T2 (R124). -/
def execRemnT2 (f : F2) (s : State) : Host.Outcome State Fault Refusal :=
  issue 0x18 .t2 f.opnd opRemn s

/-- REMN_T4 (R124). -/
def execRemnT4 (f : F4) (s : State) : Host.Outcome State Fault Refusal :=
  issue 0x18 .t4 f.opnd opRemn s

/-- AND_T2 (R123). -/
def execAndT2 (f : F2) (s : State) : Host.Outcome State Fault Refusal :=
  issue 0x19 .t2 f.opnd opAnd s

/-- AND_T4 (R123). -/
def execAndT4 (f : F4) (s : State) : Host.Outcome State Fault Refusal :=
  issue 0x19 .t4 f.opnd opAnd s

/-- OR_T2 (R123). -/
def execOrT2 (f : F2) (s : State) : Host.Outcome State Fault Refusal :=
  issue 0x1A .t2 f.opnd opOr s

/-- OR_T4 (R123). -/
def execOrT4 (f : F4) (s : State) : Host.Outcome State Fault Refusal :=
  issue 0x1A .t4 f.opnd opOr s

/-- XOR_T2 (R123). -/
def execXorT2 (f : F2) (s : State) : Host.Outcome State Fault Refusal :=
  issue 0x1B .t2 f.opnd opXor s

/-- XOR_T4 (R123). -/
def execXorT4 (f : F4) (s : State) : Host.Outcome State Fault Refusal :=
  issue 0x1B .t4 f.opnd opXor s

/-- SHL_T2 (R123). -/
def execShlT2 (f : F2) (s : State) : Host.Outcome State Fault Refusal :=
  issue 0x1C .t2 f.opnd opShl s

/-- SHL_T4 (R123). -/
def execShlT4 (f : F4) (s : State) : Host.Outcome State Fault Refusal :=
  issue 0x1C .t4 f.opnd opShl s

/-- SHR_T2 (R123). -/
def execShrT2 (f : F2) (s : State) : Host.Outcome State Fault Refusal :=
  issue 0x1D .t2 f.opnd opShr s

/-- SHR_T4 (R123). -/
def execShrT4 (f : F4) (s : State) : Host.Outcome State Fault Refusal :=
  issue 0x1D .t4 f.opnd opShr s

/-- SAR_T2 (R123). -/
def execSarT2 (f : F2) (s : State) : Host.Outcome State Fault Refusal :=
  issue 0x1E .t2 f.opnd opSar s

/-- SAR_T4 (R123). -/
def execSarT4 (f : F4) (s : State) : Host.Outcome State Fault Refusal :=
  issue 0x1E .t4 f.opnd opSar s

/-- ROT_T2 (R123). -/
def execRotT2 (f : F2) (s : State) : Host.Outcome State Fault Refusal :=
  issue 0x1F .t2 f.opnd opRot s

/-- ROT_T4 (R123). -/
def execRotT4 (f : F4) (s : State) : Host.Outcome State Fault Refusal :=
  issue 0x1F .t4 f.opnd opRot s

/-- ADDI_T2 (R126). -/
def execAddiT2 (f : F2) (s : State) : Host.Outcome State Fault Refusal :=
  issue 0x20 .t2 f.opnd opAddi s

/-- ADDI_T4 (R126). -/
def execAddiT4 (f : F4) (s : State) : Host.Outcome State Fault Refusal :=
  issue 0x20 .t4 f.opnd opAddi s

/-- ADDI_T8 (R126). -/
def execAddiT8 (f : F8) (s : State) : Host.Outcome State Fault Refusal :=
  issue 0x20 .t8 f.opnd opAddi s

/-- ANDI_T2 (R126). -/
def execAndiT2 (f : F2) (s : State) : Host.Outcome State Fault Refusal :=
  issue 0x21 .t2 f.opnd opAndi s

/-- ANDI_T4 (R126). -/
def execAndiT4 (f : F4) (s : State) : Host.Outcome State Fault Refusal :=
  issue 0x21 .t4 f.opnd opAndi s

/-- ANDI_T8 (R126). -/
def execAndiT8 (f : F8) (s : State) : Host.Outcome State Fault Refusal :=
  issue 0x21 .t8 f.opnd opAndi s

/-- ORI_T2 (R126). -/
def execOriT2 (f : F2) (s : State) : Host.Outcome State Fault Refusal :=
  issue 0x22 .t2 f.opnd opOri s

/-- ORI_T4 (R126). -/
def execOriT4 (f : F4) (s : State) : Host.Outcome State Fault Refusal :=
  issue 0x22 .t4 f.opnd opOri s

/-- ORI_T8 (R126). -/
def execOriT8 (f : F8) (s : State) : Host.Outcome State Fault Refusal :=
  issue 0x22 .t8 f.opnd opOri s

/-- XORI_T2 (R126). -/
def execXoriT2 (f : F2) (s : State) : Host.Outcome State Fault Refusal :=
  issue 0x23 .t2 f.opnd opXori s

/-- XORI_T4 (R126). -/
def execXoriT4 (f : F4) (s : State) : Host.Outcome State Fault Refusal :=
  issue 0x23 .t4 f.opnd opXori s

/-- XORI_T8 (R126). -/
def execXoriT8 (f : F8) (s : State) : Host.Outcome State Fault Refusal :=
  issue 0x23 .t8 f.opnd opXori s

/-- SHLI_T2 (R126). -/
def execShliT2 (f : F2) (s : State) : Host.Outcome State Fault Refusal :=
  issue 0x24 .t2 f.opnd opShli s

/-- SHLI_T4 (R126). -/
def execShliT4 (f : F4) (s : State) : Host.Outcome State Fault Refusal :=
  issue 0x24 .t4 f.opnd opShli s

/-- SHRI_T2 (R126). -/
def execShriT2 (f : F2) (s : State) : Host.Outcome State Fault Refusal :=
  issue 0x25 .t2 f.opnd opShri s

/-- SHRI_T4 (R126). -/
def execShriT4 (f : F4) (s : State) : Host.Outcome State Fault Refusal :=
  issue 0x25 .t4 f.opnd opShri s

/-- SARI_T2 (R126). -/
def execSariT2 (f : F2) (s : State) : Host.Outcome State Fault Refusal :=
  issue 0x26 .t2 f.opnd opSari s

/-- SARI_T4 (R126). -/
def execSariT4 (f : F4) (s : State) : Host.Outcome State Fault Refusal :=
  issue 0x26 .t4 f.opnd opSari s

/-- LI (R126). -/
def execLi (f : F8) (s : State) : Host.Outcome State Fault Refusal :=
  issue 0x27 .t8 f.opnd opLi s

/-- LIH (R126). -/
def execLih (f : F8) (s : State) : Host.Outcome State Fault Refusal :=
  issue 0x28 .t8 f.opnd opLih s

/-- MOV_T2 (R126). -/
def execMovT2 (f : F2) (s : State) : Host.Outcome State Fault Refusal :=
  issue 0x29 .t2 f.opnd opMov s

/-- MOV_T4 (R126). -/
def execMovT4 (f : F4) (s : State) : Host.Outcome State Fault Refusal :=
  issue 0x29 .t4 f.opnd opMov s

/-- SEL_T2 (R126). -/
def execSelT2 (f : F2) (s : State) : Host.Outcome State Fault Refusal :=
  issue 0x2A .t2 f.opnd opSel s

/-- SEL_T4 (R126). -/
def execSelT4 (f : F4) (s : State) : Host.Outcome State Fault Refusal :=
  issue 0x2A .t4 f.opnd opSel s

/-- CLZ_T2 (R127). -/
def execClzT2 (f : F2) (s : State) : Host.Outcome State Fault Refusal :=
  issue 0x2B .t2 f.opnd opClz s

/-- CLZ_T4 (R127). -/
def execClzT4 (f : F4) (s : State) : Host.Outcome State Fault Refusal :=
  issue 0x2B .t4 f.opnd opClz s

/-- POPC_T2 (R127). -/
def execPopcT2 (f : F2) (s : State) : Host.Outcome State Fault Refusal :=
  issue 0x2C .t2 f.opnd opPopc s

/-- POPC_T4 (R127). -/
def execPopcT4 (f : F4) (s : State) : Host.Outcome State Fault Refusal :=
  issue 0x2C .t4 f.opnd opPopc s

/-- BSWAP_T2 (R127). -/
def execBswapT2 (f : F2) (s : State) : Host.Outcome State Fault Refusal :=
  issue 0x2D .t2 f.opnd opBswap s

/-- BSWAP_T4 (R127). -/
def execBswapT4 (f : F4) (s : State) : Host.Outcome State Fault Refusal :=
  issue 0x2D .t4 f.opnd opBswap s

/-- BFX (R128). -/
def execBfx (f : F4) (s : State) : Host.Outcome State Fault Refusal :=
  issue 0x2E .t4 f.opnd opBfx s

/-- BFI (R128). -/
def execBfi (f : F4) (s : State) : Host.Outcome State Fault Refusal :=
  issue 0x2F .t4 f.opnd opBfi s


end Sys2Proof.Machine
end

