-- ==== Sys2Proof/Machine/Pointer.lean ====
section
/-! DEFINITION. Row 3: compares, predicates and fat pointers (R129 to R137). -/

namespace Sys2Proof.Machine

/-- The condition codes of CMP and CMPI (R130). -/
def cond (cc : Nat) (a b : Word) : Bool :=
  match cc with
  | 0 => a == b
  | 1 => a != b
  | 2 => a.slt b
  | 3 => !a.slt b
  | 4 => !b.slt a
  | 5 => b.slt a
  | 6 => a.ult b
  | 7 => !a.ult b
  | 8 => !b.ult a
  | 9 => b.ult a
  | 10 => a &&& b != 0
  | _ => a &&& b == 0

/-- A compare combined with pD (R130). -/
def compare (i : Iss) (b : Word) (m : Nat) : Try Out :=
  let c := cond (bits m 0 4) i.va b
  let old := i.x.readP i.o.d
  match bits m 4 2 with
  | 0 => oneP i c []
  | 1 => oneP i (old && c) [16 + i.o.d]
  | _ => oneP i (old || c) [16 + i.o.d]

def opCmp (i : Iss) : Try Out := compare i i.vb i.o.m
/-- CMPI: the immediate is m13[12:6] or i48, sign-extended (R129). -/
def opCmpi (i : Iss) : Try Out :=
  compare i (wordOf (if i.fm == .t8 then sx 48 i.o.i else sx 7 (bits i.o.m 6 7))) i.o.m

/-- Predicate logic, each source negated by its modifier bit (R131). -/
def plogic (f : Bool → Bool → Bool) (i : Iss) : Try Out :=
  oneP i (f (i.x.readP i.o.a != bit i.o.m 0) (i.x.readP i.o.b != bit i.o.m 1)) [16 + i.o.a, 16 + i.o.b]
def opPand (i : Iss) : Try Out := plogic (· && ·) i
def opPor (i : Iss) : Try Out := plogic (· || ·) i
def opPxor (i : Iss) : Try Out := plogic (· != ·) i
def opPnot (i : Iss) : Try Out := oneP i (!i.x.readP i.o.a) [16 + i.o.a]

/-- PTOG: bit n holds pn (R132). -/
def opPtog (i : Iss) : Try Out :=
  let v := (List.range 8).foldl (fun a n => a + if i.x.readP n then 2 ^ n else 0) 0
  .ok { g := if i.o.d = 0 then [] else [(i.o.d, BitVec.ofNat 64 v)], rd := (List.range 8).map (16 + ·) }
/-- GTOP: the predicates that its form names (R132). -/
def opGtop (i : Iss) : Try Out :=
  .ok { p := ((List.range 8).filter fun n => n != 0 && (i.fm == .t2 || bit i.o.m n)).map fun n => (n, i.va.getLsbD n) }

/-- PMK (R134). -/
def opPmk (i : Iss) : Try Out :=
  if i.va.toNat > 8191 then trap 0x13 1 i.va
  else if i.vb.toNat ≥ 2 ^ 42 then trap 0x17 0 i.vb
  else
    let m := if i.fm == .t4 then i.o.m else 0
    oneG i (BitVec.ofNat 64 (bits m 0 6 * 2 ^ 58 + bits m 6 3 * 2 ^ 55 + i.va.toNat * 2 ^ 42 + i.vb.toNat))

/-- A pointer moved by a distance (R135). -/
def pmove (i : Iss) (d : Int) : Try Out :=
  match fpMove i.va d with
  | none => trap 0x17 0 i.va
  | some p => oneG i p
def opPadd (i : Iss) : Try Out := pmove i (i.vb.toInt * 2 ^ bits i.o.m 0 3)
def opPaddi (i : Iss) : Try Out := pmove i (immOf i.fm i.o)

/-- PSETF (R136). -/
def opPsetf (i : Iss) : Try Out := oneG i (BitVec.ofNat 64 (i.o.m % 64 * 2 ^ 58 + i.va.toNat % 2 ^ 58))
/-- PSETB (R136). -/
def opPsetb (i : Iss) : Try Out :=
  oneG i (BitVec.ofNat 64 (i.va.toNat / 2 ^ 58 * 2 ^ 58 + i.o.m % 8 * 2 ^ 55 + i.va.toNat % 2 ^ 55))
/-- PHND (R136). -/
def opPhnd (i : Iss) : Try Out := oneG i (BitVec.ofNat 64 (fpHnd i.va))
/-- POFF (R136). -/
def opPoff (i : Iss) : Try Out := oneG i (BitVec.ofNat 64 (fpOff i.va))

/-- The answer of PCHK: the first check of Translate that fails, presence and alignment apart (R137). DESIGN CHOICE (log
entry 124): an empty range of handle 0 lies in the region of its address. -/
def State.probe (s : State) (x : Nat) (p : Word) (n mask : Nat) : Nat :=
  let o := fpOff p
  if fpHnd p = 0 then
    let r := region o
    if isMapped r && (n = 0 || region (o + n - 1) == r) then 0 else 0x23
  else
    let d := s.handleAt x p
    match d.st with
    | .invalid => 0x13
    | .revoking => 0x14
    | .revoked => 0x14
    | .valid => if mask &&& d.rights != mask then 0x12 else if o + n > d.size then 0x11 else 0
def opPchk (i : Iss) : Try Out := longG i (BitVec.ofNat 64 (i.s.probe i.x.ctx i.va i.vb.toNat (i.o.m % 64)))

/-- CMP_T2 (R130). -/
def execCmpT2 (f : F2) (s : State) : Host.Outcome State Fault Refusal :=
  issue 0x30 .t2 f.opnd opCmp s

/-- CMP_T4 (R130). -/
def execCmpT4 (f : F4) (s : State) : Host.Outcome State Fault Refusal :=
  issue 0x30 .t4 f.opnd opCmp s

/-- CMPI_T4 (R130). -/
def execCmpiT4 (f : F4) (s : State) : Host.Outcome State Fault Refusal :=
  issue 0x31 .t4 f.opnd opCmpi s

/-- CMPI_T8 (R130). -/
def execCmpiT8 (f : F8) (s : State) : Host.Outcome State Fault Refusal :=
  issue 0x31 .t8 f.opnd opCmpi s

/-- PAND_T2 (R131). -/
def execPandT2 (f : F2) (s : State) : Host.Outcome State Fault Refusal :=
  issue 0x32 .t2 f.opnd opPand s

/-- PAND_T4 (R131). -/
def execPandT4 (f : F4) (s : State) : Host.Outcome State Fault Refusal :=
  issue 0x32 .t4 f.opnd opPand s

/-- POR_T2 (R131). -/
def execPorT2 (f : F2) (s : State) : Host.Outcome State Fault Refusal :=
  issue 0x33 .t2 f.opnd opPor s

/-- POR_T4 (R131). -/
def execPorT4 (f : F4) (s : State) : Host.Outcome State Fault Refusal :=
  issue 0x33 .t4 f.opnd opPor s

/-- PXOR_T2 (R131). -/
def execPxorT2 (f : F2) (s : State) : Host.Outcome State Fault Refusal :=
  issue 0x34 .t2 f.opnd opPxor s

/-- PXOR_T4 (R131). -/
def execPxorT4 (f : F4) (s : State) : Host.Outcome State Fault Refusal :=
  issue 0x34 .t4 f.opnd opPxor s

/-- PNOT_T2 (R131). -/
def execPnotT2 (f : F2) (s : State) : Host.Outcome State Fault Refusal :=
  issue 0x35 .t2 f.opnd opPnot s

/-- PNOT_T4 (R131). -/
def execPnotT4 (f : F4) (s : State) : Host.Outcome State Fault Refusal :=
  issue 0x35 .t4 f.opnd opPnot s

/-- PTOG_T0 (R132). -/
def execPtogT0 (f : F0) (s : State) : Host.Outcome State Fault Refusal :=
  issue 0x36 .t0 f.opnd opPtog s

/-- PTOG_T4 (R132). -/
def execPtogT4 (f : F4) (s : State) : Host.Outcome State Fault Refusal :=
  issue 0x36 .t4 f.opnd opPtog s

/-- GTOP_T2 (R132). -/
def execGtopT2 (f : F2) (s : State) : Host.Outcome State Fault Refusal :=
  issue 0x37 .t2 f.opnd opGtop s

/-- GTOP_T4 (R132). -/
def execGtopT4 (f : F4) (s : State) : Host.Outcome State Fault Refusal :=
  issue 0x37 .t4 f.opnd opGtop s

/-- PMK_T2 (R134). -/
def execPmkT2 (f : F2) (s : State) : Host.Outcome State Fault Refusal :=
  issue 0x38 .t2 f.opnd opPmk s

/-- PMK_T4 (R134). -/
def execPmkT4 (f : F4) (s : State) : Host.Outcome State Fault Refusal :=
  issue 0x38 .t4 f.opnd opPmk s

/-- PADD_T2 (R135). -/
def execPaddT2 (f : F2) (s : State) : Host.Outcome State Fault Refusal :=
  issue 0x39 .t2 f.opnd opPadd s

/-- PADD_T4 (R135). -/
def execPaddT4 (f : F4) (s : State) : Host.Outcome State Fault Refusal :=
  issue 0x39 .t4 f.opnd opPadd s

/-- PADDI_T2 (R135). -/
def execPaddiT2 (f : F2) (s : State) : Host.Outcome State Fault Refusal :=
  issue 0x3A .t2 f.opnd opPaddi s

/-- PADDI_T4 (R135). -/
def execPaddiT4 (f : F4) (s : State) : Host.Outcome State Fault Refusal :=
  issue 0x3A .t4 f.opnd opPaddi s

/-- PADDI_T8 (R135). -/
def execPaddiT8 (f : F8) (s : State) : Host.Outcome State Fault Refusal :=
  issue 0x3A .t8 f.opnd opPaddi s

/-- PSETF_T2 (R136). -/
def execPsetfT2 (f : F2) (s : State) : Host.Outcome State Fault Refusal :=
  issue 0x3B .t2 f.opnd opPsetf s

/-- PSETF_T4 (R136). -/
def execPsetfT4 (f : F4) (s : State) : Host.Outcome State Fault Refusal :=
  issue 0x3B .t4 f.opnd opPsetf s

/-- PSETB_T2 (R136). -/
def execPsetbT2 (f : F2) (s : State) : Host.Outcome State Fault Refusal :=
  issue 0x3C .t2 f.opnd opPsetb s

/-- PSETB_T4 (R136). -/
def execPsetbT4 (f : F4) (s : State) : Host.Outcome State Fault Refusal :=
  issue 0x3C .t4 f.opnd opPsetb s

/-- PHND_T2 (R136). -/
def execPhndT2 (f : F2) (s : State) : Host.Outcome State Fault Refusal :=
  issue 0x3D .t2 f.opnd opPhnd s

/-- PHND_T4 (R136). -/
def execPhndT4 (f : F4) (s : State) : Host.Outcome State Fault Refusal :=
  issue 0x3D .t4 f.opnd opPhnd s

/-- POFF_T2 (R136). -/
def execPoffT2 (f : F2) (s : State) : Host.Outcome State Fault Refusal :=
  issue 0x3E .t2 f.opnd opPoff s

/-- POFF_T4 (R136). -/
def execPoffT4 (f : F4) (s : State) : Host.Outcome State Fault Refusal :=
  issue 0x3E .t4 f.opnd opPoff s

/-- PCHK (R137). -/
def execPchk (f : F4) (s : State) : Host.Outcome State Fault Refusal :=
  issue 0x3F .t4 f.opnd opPchk s


end Sys2Proof.Machine
end

