-- ==== Sys2Proof/Machine/Turn.lean ====
section
/-! DEFINITION. A core's issue turn (R34 to R37): the entry whose turn it is, the thread it names, the line the thread
issues from, fillers (R42), pairs (R48, R49), and the channel-dry event (R163). What an instruction does is given to
these definitions by the step. -/

namespace Sys2Proof.Machine

/-- What runs one instruction. -/
abbrev Exec := Instr → State → Host.Outcome State Fault Refusal

/-! ### Finding the head (R41, R42, R47) -/

/-- Where a thread's next head stands. -/
inductive Seek where
  | found (s : State) (line : List Byte) (k : Nat)
  | absent (s : State) (oid x : Nat)
  | bad (s : State) (cause sub : Nat) (info : Word)

/-- The next head that is not a filler, from the thread's pc on; `fuel` bounds the lines passed over in one turn. -/
def State.seek (s : State) (c t : Nat) : Nat → Seek
  | 0 => .absent s 0 0
  | fuel + 1 =>
    let pc := (s.thr c t).pc
    if fpOff pc % 2 = 1 then .bad s 0x03 0 pc
    else match s.fetch c t pc with
      | .bad cause sub => .bad s cause sub (faultPtr cause pc)
      | .absent oid x => .absent s oid x
      | .later => .absent s 0 0
      | .line s1 l =>
        let k := fpOff pc % 64 / 2
        match headAt l k, skipFillers l 32 k with
        | none, _ => .bad s1 0x03 0 pc
        | _, some j => .found (s1.modThr c t fun x => { x with pc := fpWith pc (fpOff pc / 64 * 64 + 2 * j) }) l j
        | _, none => State.seek (s1.modThr c t fun x => { x with pc := fpWith pc (fpOff pc / 64 * 64 + 64) }) c t fuel

/-! ### Pairs (R48, R49) -/

/-- The class of an opcode for pairing: 1 integer and memory, 2 vector, 0 unpairable (R48). -/
def pairClass (op : Nat) : Nat :=
  let row := op / 16
  if 1 ≤ row ∧ row ≤ 4 then 1 else if 9 ≤ row ∧ row ≤ 11 then 2 else 0

/-- The opcode of a head. -/
def headOp (h : Nat) : Nat := h / 16 % 256

/-- The guard field of a head with its tail: zero for a form without one (R44, R45). -/
def guardOf (e : Enc) : Nat :=
  let op := headOp e.head
  match e.head / 4096 % 4 with
  | 2 => if op = 1 ∨ op = 2 ∨ op = 3 ∨ op = 4 ∨ op = 7 then e.tail / 2 ^ 12 % 16 else e.tail / 2 ^ 16 % 16
  | 3 => e.tail / 2 ^ 56 % 16
  | _ => 0

/-- The second head of a pair, if the rules of R49 let the first pair with it. -/
def mateOf (line : List Byte) (k : Nat) (e : Enc) : Option Nat :=
  match skipFillers line 32 (k + 1) with
  | none => none
  | some j =>
    match headAt line j with
    | none => none
    | some (h, _) =>
      let a := pairClass (headOp e.head)
      let b := pairClass (headOp h)
      if nb e.head 15 || nb h 14 || a = 0 || b = 0 || a = b then none else some j

/-- The registers as a pair reads them (R49). -/
def Thread.snapshot (x : Thread) : Snap := { g := x.grp.old.foldl (fun a r => SMap.set 0#64 r.1 (x.inGroup r.1) a) x.g, full := x.full, poison := x.poison, pr := x.pr }

/-! ### One head -/

/-- The head of a thread that issues alone, or as one half of a pair. -/
noncomputable def State.runHead (ex : Exec) (s : State) (c t : Nat) (e : Enc) : Host.Outcome State Fault Refusal :=
  match decode e.head e.tail with
  | .ok i => ex i { s with curCore := c, curThr := t }
  | .error _ =>
    .next (s.modThr c t fun x => x.open_.groupTrap 0x07 0 (lineOff x.pc) (nb e.head 15) false)

/-- The thread did not issue: it has parked, or it waits for its turn. -/
def sameIssue (x y : Thread) : Bool :=
  y.phase == .issue && y.grp.n == x.grp.n && (y.st == 2 || y.pc == x.pc) && y.grp.trap == x.grp.trap

/-- Both halves of a pair (R49): they read the registers as they stood, and the pair parks as a whole. DESIGN CHOICE (log
entry 122): where the first half sends for a long-latency result into an empty register that the second half reads, the
pair traps 0x46 and does not park for its own result. -/
noncomputable def State.runPair (ex : Exec) (s : State) (c t : Nat) (e e2 : Enc) : Host.Outcome State Fault Refusal :=
  let x := s.thr c t
  let clear (st : State) : State := st.modThr c t fun y => { y with snap := none }
  let back (y : Thread) : Host.Outcome State Fault Refusal :=
    .next (if y.st = 2 then s.setThr c t (x.park (y.prsn + 256 * y.parkReg)) else s)
  match (s.modThr c t fun y => { y with snap := some y.snapshot }).runHead ex c t e with
  | .next s1 =>
    let y := s1.thr c t
    if sameIssue x y then back y
    else if y.phase != .issue then .next (clear s1)
    else
      match s1.runHead ex c t e2 with
      | .next s2 =>
        let z := s2.thr c t
        if sameIssue y z then back z else .next (clear s2)
      | r => r
  | r => r

/-- The heads that issue in one turn: one, or a pair. A head that breaks the pair rules traps 0x02, after checks 1 to
3 of R61. -/
noncomputable def State.runAt (ex : Exec) (s : State) (c t : Nat) (line : List Byte) (k : Nat) :
    Host.Outcome State Fault Refusal :=
  match encAt line k with
  | none => .next s
  | some e =>
    let early := guardOf e == 8 || reservedOp (headOp e.head) || headOp e.head == 0xFF || (decode e.head e.tail).toOption.isNone
    if !nb e.head 14 || early then s.runHead ex c t e
    else match mateOf line k e with
      | none => .next (s.modThr c t fun x => x.open_.groupTrap 0x02 0 (lineOff x.pc) (nb e.head 15) false)
      | some j =>
        match encAt line j with
        | none => .next s
        | some e2 => s.runPair ex c t e e2

/-- A not-present line ends the group at this head (R54, R55, R314). -/
def Thread.lineAbsent (x : Thread) (oid e : Nat) : Thread :=
  let y := x.open_.groupAbsent x.grp.n (oid, e, x.pc) false
  { y with nextPc := x.pc, grp := { y.grp with cut := if y.grp.self.isSome then some x.pc else y.grp.cut } }.close

/-- A thread takes its turn. -/
noncomputable def State.issueThread (ex : Exec) (s : State) (c t : Nat) : Host.Outcome State Fault Refusal :=
  match s.seek c t 64 with
  | .found s1 line k => s1.runAt ex c t line k
  | .bad s1 cause sub info => .next (s1.modThr c t fun x => x.open_.groupTrap cause sub info false true)
  | .absent s1 oid e => .next (if oid = 0 then s1 else s1.modThr c t fun x => x.lineAbsent oid e)

/-! ### The turn (R34 to R37, R71, R116) -/

/-- A thread may issue. -/
def Thread.canIssue (x : Thread) : Bool := x.st == 1 && x.phase == .issue && !x.yielded

/-- The threads that pooled entries pass over at a position: those that issued in one of the 7 preceding turns, and
those pinned in one of the 7 following positions (R37). -/
def Core.skips (k : Core) : List Nat :=
  let pins := ((List.range 7).map fun i => k.active.getD ((k.pos + 1 + i) % 32) 0).filter fun e => pinned e
  (k.hist.filter (· != 0)).map (· - 1) ++ pins.map fun e => e.toNat % 8

/-- The thread that has waited longest, the lowest number first among equals (log entry 2). -/
def longest (k : Core) : List Nat → Option Nat
  | [] => none
  | t :: l =>
    match longest k l with
    | none => some t
    | some u => if (k.thread u).last < (k.thread t).last then some u else some t

/-- The thread that the entry of the turn names, and the core with a lost turn counted off. -/
def State.turnOf (s : State) (c : Nat) : Core × Option Nat :=
  let k := s.core c
  let e := k.active.getD k.pos 0
  if pinned e then
    let t := e.toNat % 8
    let x := k.thread t
    if x.lost > 0 then (k.setThread t { x with lost := x.lost - 1 }, none)
    else if x.canIssue && !k.hist.contains (t + 1) then (k, some t)
    else (k, none)
  else
    let skip := k.skips
    (k, longest k ((List.range 8).filter fun t =>
      let x := k.thread t
      x.canIssue && x.lost == 0 && decide (x.ready ≤ s.cyc) && !skip.contains t && (s.queue x.queue).num % 256 == e.toNat % 256))

/-- The waiting time of every thread that is not ready starts now; the turn is counted. -/
def Core.passTurn (k : Core) (cyc : Nat) (who : Option Nat) : Core :=
  let mark (r : Nat × Thread) : Nat × Thread :=
    if r.2.canIssue && who != some r.1 then r else (r.1, { r.2 with last := cyc })
  { k with
    th := k.th.map mark
    hist := (k.hist ++ [match who with | some t => t + 1 | none => 0]).drop ((k.hist.length + 1) - 7)
    pos := k.pos + 1 }

/-- The time at which a thread parked on its empty channel (R163). -/
def State.markDry (s : State) (c t : Nat) : State :=
  let x := s.thr c t
  if x.st = 2 ∧ x.prsn = 0x01 then s.modThr c t fun y => { y with dry := s.cyc, dryTold := false } else s

/-- A core's turn (R34): the thread of its entry issues, or the turn is lost. -/
noncomputable def State.turn (ex : Exec) (c : Nat) (s : State) : Host.Outcome State Fault Refusal :=
  let k0 := s.core c
  if s.stopReached c || k0.isSealed || k0.halted then .next s
  else
    let s1 := if k0.pos ≥ 32 then s.rotate c else s
    let (k, who) := s1.turnOf c
    let s2 := s1.setCore c (k.passTurn s.cyc who)
    match who with
    | none => .next s2
    | some t =>
      match s2.issueThread ex c t with
      | .next s3 => .next (s3.markDry c t)
      | r => r

/-! ### Events of the threads -/

/-- LINE_FETCH (R41, R42, R47, R106): the line of the thread's next head is fetched whole into its buffer. -/
def execLineFetch (c t : Nat) (s : State) : Host.Outcome State Fault Refusal :=
  let x := s.thr c t
  if x.st ≠ 1 || x.phase ≠ .issue || (s.core c).stopped then .next s
  else match s.fetch c t x.pc with
    | .line s1 _ => .next s1
    | _ => .next s

/-- INREG of a role entry (R161). -/
def roleInreg (r : BitVec 16) : Nat := bits r.toNat 4 4

/-- CHANNEL_DRY (R163): a thread of a role-2 core that stays parked on its channel longer than RCTMO A-cycles. -/
def execChannelDry (c t : Nat) (s : State) : Host.Outcome State Fault Refusal :=
  let x := s.thr c t
  let lim := (s.clu (clusterOf c)).rctmo.toNat
  let r := s.roleOf c
  let reg := roleInreg r
  if isCC c || x.st ≠ 2 || x.prsn ≠ 0x01 || x.dryTold || lim = 0 || bits r.toNat 14 2 ≠ 2 || reg = 0 || x.parkReg ≠ reg
      || s.cyc ≤ x.dry + 2 * lim then .next s
  else
    .next ((s.notify (ccOf c) 1 0x45 0 t 0 (BitVec.ofNat 64 (coreIx c + t * 256)) x.ctx (c + 1)).modThr c t fun y => { y with dryTold := true })

end Sys2Proof.Machine
end

