-- ==== Sys2Proof/Machine/Dispatch.lean ====
section
/-! DEFINITION. One arm per constructor of `Instr`: each calls its own meaning. -/

namespace Sys2Proof.Machine

/-- What an instruction or a step of the table does to the state. -/
def exec (i : Instr) (s : State) : Host.Outcome State Fault Refusal :=
  match i with
  | .nop f => Sys2Proof.Machine.execNop f s
  | .jmp f => Sys2Proof.Machine.execJmp f s
  | .jp f => Sys2Proof.Machine.execJp f s
  | .jnp f => Sys2Proof.Machine.execJnp f s
  | .callT2 f => Sys2Proof.Machine.execCallT2 f s
  | .callT4b f => Sys2Proof.Machine.execCallT4b f s
  | .retT0 f => Sys2Proof.Machine.execRetT0 f s
  | .retT4 f => Sys2Proof.Machine.execRetT4 f s
  | .jrT2 f => Sys2Proof.Machine.execJrT2 f s
  | .jrT4 f => Sys2Proof.Machine.execJrT4 f s
  | .loop f => Sys2Proof.Machine.execLoop f s
  | .yieldT0 f => Sys2Proof.Machine.execYieldT0 f s
  | .yieldT4 f => Sys2Proof.Machine.execYieldT4 f s
  | .tendT0 f => Sys2Proof.Machine.execTendT0 f s
  | .tendT4 f => Sys2Proof.Machine.execTendT4 f s
  | .trapT0 f => Sys2Proof.Machine.execTrapT0 f s
  | .trapT4 f => Sys2Proof.Machine.execTrapT4 f s
  | .sysc f => Sys2Proof.Machine.execSysc f s
  | .ifenceT0 f => Sys2Proof.Machine.execIfenceT0 f s
  | .ifenceT4 f => Sys2Proof.Machine.execIfenceT4 f s
  | .waitfT0 f => Sys2Proof.Machine.execWaitfT0 f s
  | .waitfT4 f => Sys2Proof.Machine.execWaitfT4 f s
  | .brk f => Sys2Proof.Machine.execBrk f s
  | .addT2 f => Sys2Proof.Machine.execAddT2 f s
  | .addT4 f => Sys2Proof.Machine.execAddT4 f s
  | .subT2 f => Sys2Proof.Machine.execSubT2 f s
  | .subT4 f => Sys2Proof.Machine.execSubT4 f s
  | .mulT2 f => Sys2Proof.Machine.execMulT2 f s
  | .mulT4 f => Sys2Proof.Machine.execMulT4 f s
  | .mulhT2 f => Sys2Proof.Machine.execMulhT2 f s
  | .mulhT4 f => Sys2Proof.Machine.execMulhT4 f s
  | .mulhnT2 f => Sys2Proof.Machine.execMulhnT2 f s
  | .mulhnT4 f => Sys2Proof.Machine.execMulhnT4 f s
  | .divT2 f => Sys2Proof.Machine.execDivT2 f s
  | .divT4 f => Sys2Proof.Machine.execDivT4 f s
  | .divnT2 f => Sys2Proof.Machine.execDivnT2 f s
  | .divnT4 f => Sys2Proof.Machine.execDivnT4 f s
  | .remT2 f => Sys2Proof.Machine.execRemT2 f s
  | .remT4 f => Sys2Proof.Machine.execRemT4 f s
  | .remnT2 f => Sys2Proof.Machine.execRemnT2 f s
  | .remnT4 f => Sys2Proof.Machine.execRemnT4 f s
  | .andT2 f => Sys2Proof.Machine.execAndT2 f s
  | .andT4 f => Sys2Proof.Machine.execAndT4 f s
  | .orT2 f => Sys2Proof.Machine.execOrT2 f s
  | .orT4 f => Sys2Proof.Machine.execOrT4 f s
  | .xorT2 f => Sys2Proof.Machine.execXorT2 f s
  | .xorT4 f => Sys2Proof.Machine.execXorT4 f s
  | .shlT2 f => Sys2Proof.Machine.execShlT2 f s
  | .shlT4 f => Sys2Proof.Machine.execShlT4 f s
  | .shrT2 f => Sys2Proof.Machine.execShrT2 f s
  | .shrT4 f => Sys2Proof.Machine.execShrT4 f s
  | .sarT2 f => Sys2Proof.Machine.execSarT2 f s
  | .sarT4 f => Sys2Proof.Machine.execSarT4 f s
  | .rotT2 f => Sys2Proof.Machine.execRotT2 f s
  | .rotT4 f => Sys2Proof.Machine.execRotT4 f s
  | .addiT2 f => Sys2Proof.Machine.execAddiT2 f s
  | .addiT4 f => Sys2Proof.Machine.execAddiT4 f s
  | .addiT8 f => Sys2Proof.Machine.execAddiT8 f s
  | .andiT2 f => Sys2Proof.Machine.execAndiT2 f s
  | .andiT4 f => Sys2Proof.Machine.execAndiT4 f s
  | .andiT8 f => Sys2Proof.Machine.execAndiT8 f s
  | .oriT2 f => Sys2Proof.Machine.execOriT2 f s
  | .oriT4 f => Sys2Proof.Machine.execOriT4 f s
  | .oriT8 f => Sys2Proof.Machine.execOriT8 f s
  | .xoriT2 f => Sys2Proof.Machine.execXoriT2 f s
  | .xoriT4 f => Sys2Proof.Machine.execXoriT4 f s
  | .xoriT8 f => Sys2Proof.Machine.execXoriT8 f s
  | .shliT2 f => Sys2Proof.Machine.execShliT2 f s
  | .shliT4 f => Sys2Proof.Machine.execShliT4 f s
  | .shriT2 f => Sys2Proof.Machine.execShriT2 f s
  | .shriT4 f => Sys2Proof.Machine.execShriT4 f s
  | .sariT2 f => Sys2Proof.Machine.execSariT2 f s
  | .sariT4 f => Sys2Proof.Machine.execSariT4 f s
  | .li f => Sys2Proof.Machine.execLi f s
  | .lih f => Sys2Proof.Machine.execLih f s
  | .movT2 f => Sys2Proof.Machine.execMovT2 f s
  | .movT4 f => Sys2Proof.Machine.execMovT4 f s
  | .selT2 f => Sys2Proof.Machine.execSelT2 f s
  | .selT4 f => Sys2Proof.Machine.execSelT4 f s
  | .clzT2 f => Sys2Proof.Machine.execClzT2 f s
  | .clzT4 f => Sys2Proof.Machine.execClzT4 f s
  | .popcT2 f => Sys2Proof.Machine.execPopcT2 f s
  | .popcT4 f => Sys2Proof.Machine.execPopcT4 f s
  | .bswapT2 f => Sys2Proof.Machine.execBswapT2 f s
  | .bswapT4 f => Sys2Proof.Machine.execBswapT4 f s
  | .bfx f => Sys2Proof.Machine.execBfx f s
  | .bfi f => Sys2Proof.Machine.execBfi f s
  | .cmpT2 f => Sys2Proof.Machine.execCmpT2 f s
  | .cmpT4 f => Sys2Proof.Machine.execCmpT4 f s
  | .cmpiT4 f => Sys2Proof.Machine.execCmpiT4 f s
  | .cmpiT8 f => Sys2Proof.Machine.execCmpiT8 f s
  | .pandT2 f => Sys2Proof.Machine.execPandT2 f s
  | .pandT4 f => Sys2Proof.Machine.execPandT4 f s
  | .porT2 f => Sys2Proof.Machine.execPorT2 f s
  | .porT4 f => Sys2Proof.Machine.execPorT4 f s
  | .pxorT2 f => Sys2Proof.Machine.execPxorT2 f s
  | .pxorT4 f => Sys2Proof.Machine.execPxorT4 f s
  | .pnotT2 f => Sys2Proof.Machine.execPnotT2 f s
  | .pnotT4 f => Sys2Proof.Machine.execPnotT4 f s
  | .ptogT0 f => Sys2Proof.Machine.execPtogT0 f s
  | .ptogT4 f => Sys2Proof.Machine.execPtogT4 f s
  | .gtopT2 f => Sys2Proof.Machine.execGtopT2 f s
  | .gtopT4 f => Sys2Proof.Machine.execGtopT4 f s
  | .pmkT2 f => Sys2Proof.Machine.execPmkT2 f s
  | .pmkT4 f => Sys2Proof.Machine.execPmkT4 f s
  | .paddT2 f => Sys2Proof.Machine.execPaddT2 f s
  | .paddT4 f => Sys2Proof.Machine.execPaddT4 f s
  | .paddiT2 f => Sys2Proof.Machine.execPaddiT2 f s
  | .paddiT4 f => Sys2Proof.Machine.execPaddiT4 f s
  | .paddiT8 f => Sys2Proof.Machine.execPaddiT8 f s
  | .psetfT2 f => Sys2Proof.Machine.execPsetfT2 f s
  | .psetfT4 f => Sys2Proof.Machine.execPsetfT4 f s
  | .psetbT2 f => Sys2Proof.Machine.execPsetbT2 f s
  | .psetbT4 f => Sys2Proof.Machine.execPsetbT4 f s
  | .phndT2 f => Sys2Proof.Machine.execPhndT2 f s
  | .phndT4 f => Sys2Proof.Machine.execPhndT4 f s
  | .poffT2 f => Sys2Proof.Machine.execPoffT2 f s
  | .poffT4 f => Sys2Proof.Machine.execPoffT4 f s
  | .pchk f => Sys2Proof.Machine.execPchk f s
  | .ld f => Sys2Proof.Machine.execLd f s
  | .lds f => Sys2Proof.Machine.execLds f s
  | .st f => Sys2Proof.Machine.execSt f s
  | .lda f => Sys2Proof.Machine.execLda f s
  | .stl f => Sys2Proof.Machine.execStl f s
  | .ldt f => Sys2Proof.Machine.execLdt f s
  | .stt f => Sys2Proof.Machine.execStt f s
  | .ldp f => Sys2Proof.Machine.execLdp f s
  | .stp f => Sys2Proof.Machine.execStp f s
  | .ldx f => Sys2Proof.Machine.execLdx f s
  | .stx f => Sys2Proof.Machine.execStx f s
  | .cas f => Sys2Proof.Machine.execCas f s
  | .swp f => Sys2Proof.Machine.execSwp f s
  | .aadd f => Sys2Proof.Machine.execAadd f s
  | .aand f => Sys2Proof.Machine.execAand f s
  | .aor f => Sys2Proof.Machine.execAor f s
  | .axor f => Sys2Proof.Machine.execAxor f s
  | .amin f => Sys2Proof.Machine.execAmin f s
  | .amax f => Sys2Proof.Machine.execAmax f s
  | .afadd f => Sys2Proof.Machine.execAfadd f s
  | .fenceT2 f => Sys2Proof.Machine.execFenceT2 f s
  | .fenceT4 f => Sys2Proof.Machine.execFenceT4 f s
  | .tfenceT2 f => Sys2Proof.Machine.execTfenceT2 f s
  | .tfenceT4 f => Sys2Proof.Machine.execTfenceT4 f s
  | .sbwaitT0 f => Sys2Proof.Machine.execSbwaitT0 f s
  | .sbwaitT4 f => Sys2Proof.Machine.execSbwaitT4 f s
  | .send f => Sys2Proof.Machine.execSend f s
  | .sendi f => Sys2Proof.Machine.execSendi f s
  | .emptyT0 f => Sys2Proof.Machine.execEmptyT0 f s
  | .emptyT4 f => Sys2Proof.Machine.execEmptyT4 f s
  | .migrT2 f => Sys2Proof.Machine.execMigrT2 f s
  | .migrT4 f => Sys2Proof.Machine.execMigrT4 f s
  | .mighT2 f => Sys2Proof.Machine.execMighT2 f s
  | .mighT4 f => Sys2Proof.Machine.execMighT4 f s
  | .roleT0 f => Sys2Proof.Machine.execRoleT0 f s
  | .roleT4 f => Sys2Proof.Machine.execRoleT4 f s
  | .rcastT2 f => Sys2Proof.Machine.execRcastT2 f s
  | .rcastT4 f => Sys2Proof.Machine.execRcastT4 f s
  | .chmapT2 f => Sys2Proof.Machine.execChmapT2 f s
  | .chmapT4 f => Sys2Proof.Machine.execChmapT4 f s
  | .mboxqT0 f => Sys2Proof.Machine.execMboxqT0 f s
  | .mboxqT4 f => Sys2Proof.Machine.execMboxqT4 f s
  | .poisqT0 f => Sys2Proof.Machine.execPoisqT0 f s
  | .poisqT4 f => Sys2Proof.Machine.execPoisqT4 f s
  | .dqpushT2 f => Sys2Proof.Machine.execDqpushT2 f s
  | .dqpushT4 f => Sys2Proof.Machine.execDqpushT4 f s
  | .dqpopT2 f => Sys2Proof.Machine.execDqpopT2 f s
  | .dqpopT4 f => Sys2Proof.Machine.execDqpopT4 f s
  | .spawnT2 f => Sys2Proof.Machine.execSpawnT2 f s
  | .spawnT4 f => Sys2Proof.Machine.execSpawnT4 f s
  | .glnchT2 f => Sys2Proof.Machine.execGlnchT2 f s
  | .glnchT4 f => Sys2Proof.Machine.execGlnchT4 f s
  | .widf f => Sys2Proof.Machine.execWidf f s
  | .baraT0 f => Sys2Proof.Machine.execBaraT0 f s
  | .baraT4 f => Sys2Proof.Machine.execBaraT4 f s
  | .barwT0 f => Sys2Proof.Machine.execBarwT0 f s
  | .barwT4 f => Sys2Proof.Machine.execBarwT4 f s
  | .barT0 f => Sys2Proof.Machine.execBarT0 f s
  | .barT4 f => Sys2Proof.Machine.execBarT4 f s
  | .sltwT2 f => Sys2Proof.Machine.execSltwT2 f s
  | .sltwT4 f => Sys2Proof.Machine.execSltwT4 f s
  | .sltrT2 f => Sys2Proof.Machine.execSltrT2 f s
  | .sltrT4 f => Sys2Proof.Machine.execSltrT4 f s
  | .cbinitT2 f => Sys2Proof.Machine.execCbinitT2 f s
  | .cbinitT4 f => Sys2Proof.Machine.execCbinitT4 f s
  | .cbarrT2 f => Sys2Proof.Machine.execCbarrT2 f s
  | .cbarrT4 f => Sys2Proof.Machine.execCbarrT4 f s
  | .cbwaitT2 f => Sys2Proof.Machine.execCbwaitT2 f s
  | .cbwaitT4 f => Sys2Proof.Machine.execCbwaitT4 f s
  | .cbphT2 f => Sys2Proof.Machine.execCbphT2 f s
  | .cbphT4 f => Sys2Proof.Machine.execCbphT4 f s
  | .faddT2 f => Sys2Proof.Machine.execFaddT2 f s
  | .faddT4 f => Sys2Proof.Machine.execFaddT4 f s
  | .fsubT2 f => Sys2Proof.Machine.execFsubT2 f s
  | .fsubT4 f => Sys2Proof.Machine.execFsubT4 f s
  | .fmulT2 f => Sys2Proof.Machine.execFmulT2 f s
  | .fmulT4 f => Sys2Proof.Machine.execFmulT4 f s
  | .ffma f => Sys2Proof.Machine.execFfma f s
  | .fdivT2 f => Sys2Proof.Machine.execFdivT2 f s
  | .fdivT4 f => Sys2Proof.Machine.execFdivT4 f s
  | .fsqrtT2 f => Sys2Proof.Machine.execFsqrtT2 f s
  | .fsqrtT4 f => Sys2Proof.Machine.execFsqrtT4 f s
  | .fminT2 f => Sys2Proof.Machine.execFminT2 f s
  | .fminT4 f => Sys2Proof.Machine.execFminT4 f s
  | .fmaxT2 f => Sys2Proof.Machine.execFmaxT2 f s
  | .fmaxT4 f => Sys2Proof.Machine.execFmaxT4 f s
  | .fcmpT2 f => Sys2Proof.Machine.execFcmpT2 f s
  | .fcmpT4 f => Sys2Proof.Machine.execFcmpT4 f s
  | .fcvt f => Sys2Proof.Machine.execFcvt f s
  | .fclsT2 f => Sys2Proof.Machine.execFclsT2 f s
  | .fclsT4 f => Sys2Proof.Machine.execFclsT4 f s
  | .ftldT2 f => Sys2Proof.Machine.execFtldT2 f s
  | .ftldT4 f => Sys2Proof.Machine.execFtldT4 f s
  | .enc8T2 f => Sys2Proof.Machine.execEnc8T2 f s
  | .enc8T4 f => Sys2Proof.Machine.execEnc8T4 f s
  | .dec8T2 f => Sys2Proof.Machine.execDec8T2 f s
  | .dec8T4 f => Sys2Proof.Machine.execDec8T4 f s
  | .vadd f => Sys2Proof.Machine.execVadd f s
  | .vsub f => Sys2Proof.Machine.execVsub f s
  | .vmul f => Sys2Proof.Machine.execVmul f s
  | .vfma f => Sys2Proof.Machine.execVfma f s
  | .vmin f => Sys2Proof.Machine.execVmin f s
  | .vmax f => Sys2Proof.Machine.execVmax f s
  | .vdiv f => Sys2Proof.Machine.execVdiv f s
  | .vsqrt f => Sys2Proof.Machine.execVsqrt f s
  | .vexp f => Sys2Proof.Machine.execVexp f s
  | .vlog f => Sys2Proof.Machine.execVlog f s
  | .vrcp f => Sys2Proof.Machine.execVrcp f s
  | .vrsq f => Sys2Proof.Machine.execVrsq f s
  | .vcvt f => Sys2Proof.Machine.execVcvt f s
  | .vscl f => Sys2Proof.Machine.execVscl f s
  | .vabs f => Sys2Proof.Machine.execVabs f s
  | .vneg f => Sys2Proof.Machine.execVneg f s
  | .viadd f => Sys2Proof.Machine.execViadd f s
  | .visub f => Sys2Proof.Machine.execVisub f s
  | .vimul f => Sys2Proof.Machine.execVimul f s
  | .vdot4 f => Sys2Proof.Machine.execVdot4 f s
  | .vand f => Sys2Proof.Machine.execVand f s
  | .vor f => Sys2Proof.Machine.execVor f s
  | .vxor f => Sys2Proof.Machine.execVxor f s
  | .vshl f => Sys2Proof.Machine.execVshl f s
  | .vshr f => Sys2Proof.Machine.execVshr f s
  | .unpk3 f => Sys2Proof.Machine.execUnpk3 f s
  | .vtas f => Sys2Proof.Machine.execVtas f s
  | .vsel f => Sys2Proof.Machine.execVsel f s
  | .vperm f => Sys2Proof.Machine.execVperm f s
  | .vcmp f => Sys2Proof.Machine.execVcmp f s
  | .vsat f => Sys2Proof.Machine.execVsat f s
  | .vclz f => Sys2Proof.Machine.execVclz f s
  | .vclaimT2 f => Sys2Proof.Machine.execVclaimT2 f s
  | .vclaimT4 f => Sys2Proof.Machine.execVclaimT4 f s
  | .vrelT0 f => Sys2Proof.Machine.execVrelT0 f s
  | .vrelT4 f => Sys2Proof.Machine.execVrelT4 f s
  | .vradd f => Sys2Proof.Machine.execVradd f s
  | .vrmax f => Sys2Proof.Machine.execVrmax f s
  | .vrmin f => Sys2Proof.Machine.execVrmin f s
  | .vscan f => Sys2Proof.Machine.execVscan f s
  | .vgath f => Sys2Proof.Machine.execVgath f s
  | .vscat f => Sys2Proof.Machine.execVscat f s
  | .vmov f => Sys2Proof.Machine.execVmov f s
  | .vfill f => Sys2Proof.Machine.execVfill f s
  | .vmask f => Sys2Proof.Machine.execVmask f s
  | .viota f => Sys2Proof.Machine.execViota f s
  | .shldT2 f => Sys2Proof.Machine.execShldT2 f s
  | .shldT4 f => Sys2Proof.Machine.execShldT4 f s
  | .shstT2 f => Sys2Proof.Machine.execShstT2 f s
  | .shstT4 f => Sys2Proof.Machine.execShstT4 f s
  | .shset f => Sys2Proof.Machine.execShset f s
  | .shget f => Sys2Proof.Machine.execShget f s
  | .townT2 f => Sys2Proof.Machine.execTownT2 f s
  | .townT4 f => Sys2Proof.Machine.execTownT4 f s
  | .tgiveT2 f => Sys2Proof.Machine.execTgiveT2 f s
  | .tgiveT4 f => Sys2Proof.Machine.execTgiveT4 f s
  | .ttag f => Sys2Proof.Machine.execTtag f s
  | .ttaskT2 f => Sys2Proof.Machine.execTtaskT2 f s
  | .ttaskT4 f => Sys2Proof.Machine.execTtaskT4 f s
  | .tqryT2 f => Sys2Proof.Machine.execTqryT2 f s
  | .tqryT4 f => Sys2Proof.Machine.execTqryT4 f s
  | .qpushT2 f => Sys2Proof.Machine.execQpushT2 f s
  | .qpushT4 f => Sys2Proof.Machine.execQpushT4 f s
  | .qpopT2 f => Sys2Proof.Machine.execQpopT2 f s
  | .qpopT4 f => Sys2Proof.Machine.execQpopT4 f s
  | .qstatT2 f => Sys2Proof.Machine.execQstatT2 f s
  | .qstatT4 f => Sys2Proof.Machine.execQstatT4 f s
  | .spld f => Sys2Proof.Machine.execSpld f s
  | .spst f => Sys2Proof.Machine.execSpst f s
  | .spupT0 f => Sys2Proof.Machine.execSpupT0 f s
  | .spupT4 f => Sys2Proof.Machine.execSpupT4 f s
  | .spdnT0 f => Sys2Proof.Machine.execSpdnT0 f s
  | .spdnT4 f => Sys2Proof.Machine.execSpdnT4 f s
  | .spmaxT0 f => Sys2Proof.Machine.execSpmaxT0 f s
  | .spmaxT4 f => Sys2Proof.Machine.execSpmaxT4 f s
  | .spcvt f => Sys2Proof.Machine.execSpcvt f s
  | .spclr f => Sys2Proof.Machine.execSpclr f s
  | .spwld f => Sys2Proof.Machine.execSpwld f s
  | .spgst f => Sys2Proof.Machine.execSpgst f s
  | .spstatT2 f => Sys2Proof.Machine.execSpstatT2 f s
  | .spstatT4 f => Sys2Proof.Machine.execSpstatT4 f s
  | .lcopy f => Sys2Proof.Machine.execLcopy f s
  | .lfill f => Sys2Proof.Machine.execLfill f s
  | .lcancelT2 f => Sys2Proof.Machine.execLcancelT2 f s
  | .lcancelT4 f => Sys2Proof.Machine.execLcancelT4 f s
  | .lstatT2 f => Sys2Proof.Machine.execLstatT2 f s
  | .lstatT4 f => Sys2Proof.Machine.execLstatT4 f s
  | .prred f => Sys2Proof.Machine.execPrred f s
  | .prbc f => Sys2Proof.Machine.execPrbc f s
  | .prar f => Sys2Proof.Machine.execPrar f s
  | .prag f => Sys2Proof.Machine.execPrag f s
  | .nsendT2 f => Sys2Proof.Machine.execNsendT2 f s
  | .nsendT4 f => Sys2Proof.Machine.execNsendT4 f s
  | .npostT2 f => Sys2Proof.Machine.execNpostT2 f s
  | .npostT4 f => Sys2Proof.Machine.execNpostT4 f s
  | .rwriteT2 f => Sys2Proof.Machine.execRwriteT2 f s
  | .rwriteT4 f => Sys2Proof.Machine.execRwriteT4 f s
  | .rreadT2 f => Sys2Proof.Machine.execRreadT2 f s
  | .rreadT4 f => Sys2Proof.Machine.execRreadT4 f s
  | .ccwaitT2 f => Sys2Proof.Machine.execCcwaitT2 f s
  | .ccwaitT4 f => Sys2Proof.Machine.execCcwaitT4 f s
  | .ccrdT2 f => Sys2Proof.Machine.execCcrdT2 f s
  | .ccrdT4 f => Sys2Proof.Machine.execCcrdT4 f s
  | .ccsetT2 f => Sys2Proof.Machine.execCcsetT2 f s
  | .ccsetT4 f => Sys2Proof.Machine.execCcsetT4 f s
  | .nstatT0 f => Sys2Proof.Machine.execNstatT0 f s
  | .nstatT4 f => Sys2Proof.Machine.execNstatT4 f s
  | .walkT2 f => Sys2Proof.Machine.execWalkT2 f s
  | .walkT4 f => Sys2Proof.Machine.execWalkT4 f s
  | .openT2 f => Sys2Proof.Machine.execOpenT2 f s
  | .openT4 f => Sys2Proof.Machine.execOpenT4 f s
  | .closeT2 f => Sys2Proof.Machine.execCloseT2 f s
  | .closeT4 f => Sys2Proof.Machine.execCloseT4 f s
  | .bind f => Sys2Proof.Machine.execBind f s
  | .unbindT2 f => Sys2Proof.Machine.execUnbindT2 f s
  | .unbindT4 f => Sys2Proof.Machine.execUnbindT4 f s
  | .revokeT2 f => Sys2Proof.Machine.execRevokeT2 f s
  | .revokeT4 f => Sys2Proof.Machine.execRevokeT4 f s
  | .csrrT2 f => Sys2Proof.Machine.execCsrrT2 f s
  | .csrrT4 f => Sys2Proof.Machine.execCsrrT4 f s
  | .csrwT2 f => Sys2Proof.Machine.execCsrwT2 f s
  | .csrwT4 f => Sys2Proof.Machine.execCsrwT4 f s
  | .tretT2 f => Sys2Proof.Machine.execTretT2 f s
  | .tretT4 f => Sys2Proof.Machine.execTretT4 f s
  | .pmackT2 f => Sys2Proof.Machine.execPmackT2 f s
  | .pmackT4 f => Sys2Proof.Machine.execPmackT4 f s
  | .tshootT2 f => Sys2Proof.Machine.execTshootT2 f s
  | .tshootT4 f => Sys2Proof.Machine.execTshootT4 f s
  | .sstop f => Sys2Proof.Machine.execSstop f s
  | .partwT2 f => Sys2Proof.Machine.execPartwT2 f s
  | .partwT4 f => Sys2Proof.Machine.execPartwT4 f s
  | .haltT0 f => Sys2Proof.Machine.execHaltT0 f s
  | .haltT4 f => Sys2Proof.Machine.execHaltT4 f s
  | .attqT2 f => Sys2Proof.Machine.execAttqT2 f s
  | .attqT4 f => Sys2Proof.Machine.execAttqT4 f s
  | .reservedOpcode f => Sys2Proof.Machine.execReservedOpcode f s
  | .illegalOpcodeFf f => Sys2Proof.Machine.execIllegalOpcodeFf f s
  | .groupCommit c t rind => Sys2Proof.Machine.execGroupCommit c t rind s
  | .commitStep5Resume c t => Sys2Proof.Machine.execCommitStep5Resume c t s
  | .resultReturn c t k => Sys2Proof.Machine.execResultReturn c t k s
  | .lineFetch c t => Sys2Proof.Machine.execLineFetch c t s
  | .messageDelivery k => Sys2Proof.Machine.execMessageDelivery k s
  | .handlerMessageArrival k => Sys2Proof.Machine.execHandlerMessageArrival k s
  | .handlerEntryTimeout c x => Sys2Proof.Machine.execHandlerEntryTimeout c x s
  | .slotRotationStart c => Sys2Proof.Machine.execSlotRotationStart c s
  | .channelDry c t => Sys2Proof.Machine.execChannelDry c t s
  | .loadReadStep c t k => Sys2Proof.Machine.execLoadReadStep c t k s
  | .writePerform c t k => Sys2Proof.Machine.execWritePerform c t k s
  | .homeApply e => Sys2Proof.Machine.execHomeApply e s
  | .atomicStep c t k => Sys2Proof.Machine.execAtomicStep c t k s
  | .frontierPropagation e => Sys2Proof.Machine.execFrontierPropagation e s
  | .extentAllocationWake oid x p ok => Sys2Proof.Machine.execExtentAllocationWake oid x p ok s
  | .heatSweep => Sys2Proof.Machine.execHeatSweep s
  | .extentMove oid x p => Sys2Proof.Machine.execExtentMove oid x p s
  | .weightRefreshWindow => Sys2Proof.Machine.execWeightRefreshWindow s
  | .scrubExtentClear oid x => Sys2Proof.Machine.execScrubExtentClear oid x s
  | .vectorOpStart c k => Sys2Proof.Machine.execVectorOpStart c k s
  | .vectorOpRetire c rind => Sys2Proof.Machine.execVectorOpRetire c rind s
  | .tileZeroFillEnd cl tile => Sys2Proof.Machine.execTileZeroFillEnd cl tile s
  | .tileTaskAccept c => Sys2Proof.Machine.execTileTaskAccept c s
  | .tileTaskStart cl k vat => Sys2Proof.Machine.execTileTaskStart cl k vat s
  | .tileTaskComplete cl k rind => Sys2Proof.Machine.execTileTaskComplete cl k rind s
  | .trellisAccept c => Sys2Proof.Machine.execTrellisAccept c s
  | .trellisCommandStart cl k tree => Sys2Proof.Machine.execTrellisCommandStart cl k tree s
  | .trellisCommandRetire cl k rind => Sys2Proof.Machine.execTrellisCommandRetire cl k rind s
  | .trellisImageSwap cl x => Sys2Proof.Machine.execTrellisImageSwap cl x s
  | .ladleChunk cl k => Sys2Proof.Machine.execLadleChunk cl k s
  | .pressChunk d k => Sys2Proof.Machine.execPressChunk d k s
  | .netPacketSend d k x lost => Sys2Proof.Machine.execNetPacketSend d k x lost s
  | .netPacketArrival d a => Sys2Proof.Machine.execNetPacketArrival d a s
  | .netAckArrival d a => Sys2Proof.Machine.execNetAckArrival d a s
  | .netResendTimeout d k x lost => Sys2Proof.Machine.execNetResendTimeout d k x lost s
  | .netUnmatchedRetry d k lost => Sys2Proof.Machine.execNetUnmatchedRetry d k lost s
  | .completionCounterStep k => Sys2Proof.Machine.execCompletionCounterStep k s
  | .placerPass tag => Sys2Proof.Machine.execPlacerPass tag s
  | .launchEnd l => Sys2Proof.Machine.execLaunchEnd l s
  | .stealRequest c => Sys2Proof.Machine.execStealRequest c s
  | .stealAnswer c => Sys2Proof.Machine.execStealAnswer c s
  | .stealBackoffExpiry c => Sys2Proof.Machine.execStealBackoffExpiry c s
  | .migrationArrival k => Sys2Proof.Machine.execMigrationArrival k s
  | .nseAnswer k => Sys2Proof.Machine.execNseAnswer k s
  | .shootdownReceipt k st => Sys2Proof.Machine.execShootdownReceipt k st s
  | .shootdownAck k st => Sys2Proof.Machine.execShootdownAck k st s
  | .frameWalk f => Sys2Proof.Machine.execFrameWalk f s
  | .frameOpen f => Sys2Proof.Machine.execFrameOpen f s
  | .frameRead f => Sys2Proof.Machine.execFrameRead f s
  | .frameWrite f => Sys2Proof.Machine.execFrameWrite f s
  | .frameMake f => Sys2Proof.Machine.execFrameMake f s
  | .frameClose f => Sys2Proof.Machine.execFrameClose f s
  | .frameRevoke f => Sys2Proof.Machine.execFrameRevoke f s
  | .frameBind f => Sys2Proof.Machine.execFrameBind f s
  | .frameUnbind f => Sys2Proof.Machine.execFrameUnbind f s
  | .contextCreate f id => Sys2Proof.Machine.execContextCreate f id s
  | .contextEnd f => Sys2Proof.Machine.execContextEnd f s
  | .queueGo q rst => Sys2Proof.Machine.execQueueGo q rst s
  | .queueCtlWrite q off v dev => Sys2Proof.Machine.execQueueCtlWrite q off v dev s
  | .queueHeaderRead q => Sys2Proof.Machine.execQueueHeaderRead q s
  | .packetParse q => Sys2Proof.Machine.execPacketParse q s
  | .pktLaunch q => Sys2Proof.Machine.execPktLaunch q s
  | .pktGlaunch q => Sys2Proof.Machine.execPktGlaunch q s
  | .pktWait q => Sys2Proof.Machine.execPktWait q s
  | .pktSignal q => Sys2Proof.Machine.execPktSignal q s
  | .pktCopy q => Sys2Proof.Machine.execPktCopy q s
  | .pktIb q => Sys2Proof.Machine.execPktIb q s
  | .pktReplay q => Sys2Proof.Machine.execPktReplay q s
  | .pktBind q => Sys2Proof.Machine.execPktBind q s
  | .pktNop q => Sys2Proof.Machine.execPktNop q s
  | .ibGranuleFetch q => Sys2Proof.Machine.execIbGranuleFetch q s
  | .parserCoreFault q => Sys2Proof.Machine.execParserCoreFault q s
  | .supervisorMismatch => Sys2Proof.Machine.execSupervisorMismatch s
  | .supervisorCheckpoint => Sys2Proof.Machine.execSupervisorCheckpoint s
  | .setPartition r => Sys2Proof.Machine.execSetPartition r s
  | .removePartition r => Sys2Proof.Machine.execRemovePartition r s
  | .activateFirmware r vers img => Sys2Proof.Machine.execActivateFirmware r vers img s
  | .sliceExpiry tag => Sys2Proof.Machine.execSliceExpiry tag s
  | .stopAnnouncement k => Sys2Proof.Machine.execStopAnnouncement k s
  | .syncStop k => Sys2Proof.Machine.execSyncStop k s
  | .flushToken k d => Sys2Proof.Machine.execFlushToken k d s
  | .partitionSave k bad => Sys2Proof.Machine.execPartitionSave k bad s
  | .partitionRestore tag cores => Sys2Proof.Machine.execPartitionRestore tag cores s
  | .partitionResume tag => Sys2Proof.Machine.execPartitionResume tag s
  | .graderSignature ch bank row col => Sys2Proof.Machine.execGraderSignature ch bank row col s
  | .fallowLeaseStart u => Sys2Proof.Machine.execFallowLeaseStart u s
  | .fallowLeaseEnd u pass => Sys2Proof.Machine.execFallowLeaseEnd u pass s
  | .channelLeaseWaitRecord u => Sys2Proof.Machine.execChannelLeaseWaitRecord u s
  | .scoreDecay u => Sys2Proof.Machine.execScoreDecay u s
  | .pmackDeadlineExpiry x => Sys2Proof.Machine.execPmackDeadlineExpiry x s
  | .duoVote l g => Sys2Proof.Machine.execDuoVote l g s
  | .duoThirdCopy l g => Sys2Proof.Machine.execDuoThirdCopy l g s
  | .quoteSign => Sys2Proof.Machine.execQuoteSign s
  | .powerOnBoot img good => Sys2Proof.Machine.execPowerOnBoot img good s
  | .mgmtRead what off len => Sys2Proof.Machine.execMgmtRead what off len s
  | .packageReset => Sys2Proof.Machine.execPackageReset s
  | .thermalHoldEnter => Sys2Proof.Machine.execThermalHoldEnter s
  | .thermalHoldExit => Sys2Proof.Machine.execThermalHoldExit s
  | .thermalShutdown => Sys2Proof.Machine.execThermalShutdown s
  | .ladleRequestAccept c => Sys2Proof.Machine.execLadleRequestAccept c s
  | .pressCommandAccept c => Sys2Proof.Machine.execPressCommandAccept c s
  | .netRequestAccept c => Sys2Proof.Machine.execNetRequestAccept c s
  | .powerLoss between => Sys2Proof.Machine.execPowerLoss between s

end Sys2Proof.Machine
end

