-- ==== Sys2Proof/Machine/Sched.lean ====
section
/-! DEFINITION. What moves next: an entry of the schedule, or, where the schedule is empty, the first event that
changes something, else the issue turn of the next core (log entries 1 and 2). -/

namespace Sys2Proof.Machine

/-- What an event does to the state. -/
abbrev Event := State → Host.Outcome State Fault Refusal

/-! ### The events that may be due (log entry 1) -/

/-- The events of a thread. -/
def threadEvents (c t : Nat) (x : Thread) : List Event :=
  let each (n : Nat) (f : Nat → Event) : List Event := (List.range n).map f
  let g := x.grp
  let reads : List Event := ((List.range g.res.length).zip g.res).flatMap fun (k, r) =>
    each r.parts.length fun p => execLoadReadStep c t (p * 32 + k)
  (if x.phase = .marker then [execGroupCommit c t none] else [])
    ++ (if x.phase = .step5 then [execCommitStep5Resume c t] else [])
    ++ reads ++ each g.res.length (execAtomicStep c t) ++ each g.res.length (execResultReturn c t)
    ++ each x.cq.length (execWritePerform c t)

/-- The events of a core: its threads, its vector queue and its engine queues. -/
def coreEvents (c : Nat) (k : Core) : List Event :=
  k.th.flatMap (fun r => threadEvents c r.1 r.2)
    ++ (List.range k.vq.length).map (execVectorOpStart c)
    ++ (if k.vq.isEmpty then [] else [execVectorOpRetire c none])
    ++ (if k.q.isEmpty then [] else
      [execTileTaskAccept c, execTrellisAccept c, execLadleRequestAccept c, execPressCommandAccept c, execNetRequestAccept c])
    ++ [execStealRequest c, execStealAnswer c]

/-- The events of a cluster's tiles and engines. -/
def clusterEvents (cl : Nat) (q : Cluster) : List Event :=
  ((q.tiles.filter fun r => r.2.filling).map fun r => execTileZeroFillEnd cl r.1)
    ++ (List.range q.sched.length).flatMap (fun k => [execTileTaskStart cl k 0, execTileTaskStart cl k 1, execTileTaskComplete cl k none])
    ++ (q.trel.win.map fun w => execTrellisImageSwap cl w.e.ctx)
    ++ (List.range q.trel.win.length).flatMap (fun k =>
      (List.range 4).map (execTrellisCommandStart cl k) ++ [execTrellisCommandRetire cl k none])
    ++ (List.range q.ladle.length).map (execLadleChunk cl)

/-- The events of a die's Press and Network Engine. -/
def dieEvents (d : Nat) (q : Die) (pkts acks : Nat) : List Event :=
  (List.range q.press.length).map (execPressChunk d)
    ++ (List.range pkts).map (fun k => execNetPacketArrival d (.flight k))
    ++ (List.range acks).map (fun k => execNetAckArrival d (.flight k))
    ++ ((List.range q.net.length).zip q.net).flatMap fun (k, r) =>
      (List.range r.total).map (fun i => execNetPacketSend d k i false) ++ [execNetUnmatchedRetry d k false]
        ++ (List.range r.total).map fun i => execNetResendTimeout d k i false

/-- The events of a command queue. -/
def queueEvents (q : Nat) : List Event :=
  [execQueueHeaderRead q, execIbGranuleFetch q, execPacketParse q, execPktLaunch q, execPktGlaunch q, execPktWait q,
    execPktSignal q, execPktCopy q, execPktIb q, execPktReplay q, execPktBind q, execPktNop q]

/-- The events of a synchronised stop. -/
def stopEvents (k : Nat) : List Event :=
  [execStopAnnouncement k, execSyncStop k] ++ (List.range 8).map (execFlushToken k) ++ [execPartitionSave k []]

/-- The write events that are still told apart, each once. -/
def Oom.writeEvents (o : Oom) : List Nat := (o.ws.map (·.ev)).dedup

/-- The events of the hub, the messages in transit and the ordering machine. -/
def State.hubEvents (s : State) : List Event :=
  (List.range s.msgs.length).map execMessageDelivery ++ (List.range s.migs.length).map execMigrationArrival
    ++ (List.range s.hmsgs.length).map execHandlerMessageArrival
    ++ (s.oom.writeEvents.map execHomeApply)
    ++ (List.range s.hub.length).map execNseAnswer
    ++ ((List.range s.shoots.length).zip s.shoots).flatMap (fun (k, q) =>
      q.toReach.map (execShootdownReceipt k) ++ q.toAck.map (execShootdownAck k))
    ++ (List.range s.owed.length).map execCompletionCounterStep
    ++ (s.launches.map fun r => execLaunchEnd r.1)
    ++ (s.queues.flatMap fun r => queueEvents r.1)
    ++ (List.range s.stops.length).flatMap stopEvents
    ++ (s.parts.filter fun r => r.2.alive && !r.2.running && !r.2.saved).map (fun r => execPartitionResume r.1)
    ++ (s.launches.flatMap fun r => (List.range (8 * r.2.copies.length)).flatMap fun g => [execDuoVote r.1 g, execDuoThirdCopy r.1 g])
    ++ (if s.quotes.isEmpty then [] else [execQuoteSign])
    ++ (s.oom.writeEvents.map execFrontierPropagation)

/-- The events of the hub while the compute dies have no power (R408; log entry 128). -/
def State.cutEvents (s : State) : List Event :=
  (s.oom.writeEvents.map execHomeApply) ++ (List.range s.owed.length).map execCompletionCounterStep
    ++ (s.launches.map fun r => execLaunchEnd r.1) ++ (s.oom.writeEvents.map execFrontierPropagation)

/-- Every event that the state itself makes due, in a fixed order. -/
def State.dueEvents (s : State) : List Event :=
  if s.cut then s.cutEvents
  else s.cores.flatMap (fun r => coreEvents r.1 r.2) ++ s.clus.flatMap (fun r => clusterEvents r.1 r.2)
    ++ s.dies.flatMap (fun r => dieEvents r.1 r.2 s.pkts.length s.acks.length) ++ s.hubEvents

/-- The first event that changes something. -/
def firstChange (s : State) : List Event → Option (Host.Outcome State Fault Refusal)
  | [] => none
  | f :: fs =>
    match f s with
    | .next t => if t = s then firstChange s fs else some (.next t)
    | r => some r

/-- The placer's tick: one pass for each partition (R291). -/
def State.tick (s : State) : State :=
  s.parts.foldl (fun st r => match execPlacerPass r.1 st with | .next t => t | _ => st) { s with ticks := s.dtime / 8500 }

/-- The next core in turn, and whether a new C-cycle begins with it. -/
def State.nextCore (s : State) : Option (Nat × Bool) :=
  match (s.cores.map (·.1)).find? fun c => s.curCore < c with
  | some c => some (c, false)
  | none => (s.cores.head?).map fun r => (r.1, true)

/-- The placer's tick is over-due, or it is due and its A-cycle has nothing else left (R400). -/
def State.tickNow (s : State) : Bool :=
  decide (s.ticks < s.dtime / 8500) && !(s.dtime % 8500 == 0 && s.cyc % 2 == 0)

/-- What moves where the schedule is empty: an event that is due, else the issue turn of the next core; before the next
C-cycle begins, the tick of the A-cycle that ends. -/
noncomputable def State.auto (ex : Exec) (s0 : State) : Host.Outcome State Fault Refusal :=
  let s : State := { s0 with pref := [] }
  match firstChange s s.dueEvents with
  | some r => r
  | none => match s.nextCore with
    | none => .next (if s.tickNow then s.tick else { s with cyc := s.cyc + 1 })
    | some (c, fresh) =>
      if fresh && s.tickNow then .next s.tick
      else ({ s with curCore := c, cyc := if fresh then s.cyc + 1 else s.cyc } : State).turn ex c

/-- What may happen while the power is off: a boot or a reset (R401, R407). -/
def isBoot : Act → Bool
  | .ev (.powerOnBoot _ _) => true
  | .ev .packageReset => true
  | _ => false

/-- What may happen while the compute dies have no power (R407, R408): the hub, its management path, the host's frames and
what its counter steps write (log entry 128). -/
def isHub : Act → Bool
  | .ev (.mgmtRead _ _ _) | .ev .packageReset | .ev (.powerLoss _) | .ev (.launchEnd _) | .ev (.completionCounterStep _)
  | .ev (.homeApply _) | .ev (.frontierPropagation _) | .ev (.frameWalk _) | .ev (.frameOpen _) | .ev (.frameRead _)
  | .ev (.frameWrite _) | .ev (.frameMake _) | .ev (.frameClose _) | .ev (.frameRevoke _) | .ev (.frameBind _)
  | .ev (.frameUnbind _) | .ev .quoteSign | .ev .thermalHoldEnter | .ev .thermalHoldExit | .ev (.scoreDecay _) => true
  | _ => false

/-- One step of the package: the next entry of the schedule, or what moves without one. DESIGN CHOICE (log entry 128): a
package without power takes no step but a boot or a reset, and time passes; one whose compute dies have none goes on in its
hub alone. -/
noncomputable def State.move (ex : Exec) (s : State) : Host.Outcome State Fault Refusal :=
  match s.agenda with
  | [] => if s.off then .next { s with cyc := s.cyc + 1 } else s.auto ex
  | a :: rest =>
    let s1 := ({ s with agenda := rest } : State).begins a
    if (s.off && !isBoot a.act) || (s.cut && !isHub a.act) then .next s1
    else match a.act with
      | .turn c => s1.turn ex c
      | .ev i => ex i s1

/-! ### A program's first instruction -/

/-- The context, handle and pc of the code that `State.placeCode` places. -/
def codeCtx : Nat := 1
def codePc : Word := fpMk 1 0

/-- A line of code in memory behind a handle of the host's context with the right to execute, and thread 0 of core 0
about to issue its head 0, with core 0's turn at the head of the schedule. -/
def State.placeCode (s : State) (line : List Byte) : State :=
  let oid := s.oidNext
  let s1 := (s.blit (locObj oid 0) line)
  let s2 : State := { s1 with
    oidNext := oid + 1
    objs := SMap.set {} oid { size := 64, owner := codeCtx } s1.objs
    off := false
    stops := s1.stops.filter fun k => !s1.covers k 0
    agenda := [{ act := .turn 0 }] ++ s1.agenda }
  let s3 := (s2.modCtx codeCtx fun k => { k with alive := true }).setDesc codeCtx 1 { oid := oid, size := 64, st := .valid, rights := 4 }
  s3.modCore 0 fun k =>
    { k with
      stopped := false, halted := false, isSealed := false, active := slotsReset, pos := 0, hist := []
      th := SMap.set {} 0 { k.thread 0 with st := 1, prsn := 0, ctx := codeCtx, pc := codePc, grp := {}, phase := .issue, fb := [], yielded := false, lost := 0, snap := none } k.th }

end Sys2Proof.Machine
end

