-- ==== Sys2Proof/Machine/Step.lean ====
section
/-! DEFINITION. One step of the package, and the placing of an instruction where the next step fetches it. -/

namespace Sys2Proof.Machine

/-- One step: what the schedule holds next, or what moves without one. Every instruction runs by `exec`. -/
noncomputable def step (s : State) : Host.Outcome State Fault Refusal := s.move exec

/-- The state with the instruction of a table word placed as the first that the next step runs: its line in memory
behind a handle, thread 0 of core 0 at its head, and core 0's turn at the head of the schedule. -/
def State.withFetchWord (s : State) (nbits w : Nat) : State :=
  s.placeCode (if nbits ≤ 16 then lineOf (w % 2 ^ 16) 0 else lineOf (w / 2 ^ (nbits - 16) % 2 ^ 16) (w % 2 ^ (nbits - 16)))

end Sys2Proof.Machine
end

