-- ==== Sys2Proof/Safety.lean ====
section
/-! DEFINITION. What the model's claims call a well-kept state and a run without a stop. -/

namespace Sys2Proof.Machine

/-- The canonical form of memory: addresses strictly rising, no listed byte equal to the zero that an unlisted
address reads as (log entry 4). -/
abbrev Memory.wf (m : List Host.Cell) : Bool := SMap.wf 0#8 m

/-- A state whose memory is in its canonical form. -/
abbrev State.memWf (s : State) : Prop := Memory.wf s.mem = true

/-- A step that neither stops in a fault nor is refused. -/
def State.stepsOn (s : State) : Prop := ∃ t, step s = .next t

/-- Every one of the next `n` steps goes on. -/
def State.runsOn : Nat → State → Prop
  | 0, _ => True
  | n + 1, s => ∃ t, step s = .next t ∧ State.runsOn n t

/-! ### The issue of an instruction, as claims speak of it -/

/-- The thread whose turn it is, the group of its next instruction open. -/
def State.me (s : State) : Thread := (s.thr s.curCore s.curThr).open_

/-- The state as the instruction of that thread finds it. -/
def State.opened (s : State) : State := s.setThr s.curCore s.curThr s.me

/-- The instruction of that thread as it issues: its opcode, its form, its fields, and the values `va`, `vb` and `vc`
of its g sources. -/
def State.iss (s : State) (op : Nat) (fm : Form) (o : Opnd) (va vb vc : Word) : Iss :=
  { s := s.opened, c := s.curCore, t := s.curThr, x := s.me, op := op, fm := fm, o := o
    pos := s.me.grp.n, pc := s.me.pc, va := va, vb := vb, vc := vc }

/-- An instruction may overwrite at once a register that it reads (R54): one of its g sources, or a predicate. -/
def mayUpdate (op : Nat) (fm : Form) (o : Opnd) : Bool :=
  (singleWrites op fm o).any fun n => decide (16 ≤ n) || (srcRegs op fm o).contains n

/-- An instruction executes normally (R61, R50 to R53, R39): its guard is true, its form and its privilege are in order,
its group has room for it, its g sources are full and hold `va`, `vb` and `vc`, where it or its group may overwrite a
register that it reads no earlier instruction of its group still owes a fault report, and where it may itself no fault of
its group stands (R54). -/
structure State.Ready (s : State) (op : Nat) (fm : Form) (o : Opnd) (va vb vc : Word) : Prop where
  gate : s.opened.gate s.curCore s.curThr op fm o = .go
  rules : s.me.groupRules op fm o = none
  duo : (s.me.duo && duoBarred op) = false
  sources : s.me.readSrcs op fm o = .ok (va, vb, vc)
  settled : s.me.grp.holdsSelf (mayUpdate op fm o) = false
  unblocked : (mayUpdate op fm o && s.me.grp.blocked) = false

/-- Nothing differs between two states but thread `k` of core `c`. -/
structure State.OnlyThread (s t : State) (c k : Nat) : Prop where
  rest : { t with cores := s.cores } = s
  cores : ∀ d, d ≠ c → t.core d = s.core d
  core : { t.core c with th := (s.core c).th } = s.core c
  threads : ∀ j, j ≠ k → t.thr c j = s.thr c j

/-- The last value that a list of writes gives to a place. -/
def lastWrite {α : Type} (l : List (Nat × α)) (n : Nat) (old : α) : α := l.foldl (fun a w => if w.1 = n then w.2 else a) old

/-- What the thread keeps and what changes when an instruction has issued with the answer `r` (R50 to R55): its
single-cycle writes have taken effect, its buffered results and deferred effects have joined its group, and it goes on
at the next head, or at its marker where its group ends. -/
structure Thread.Does (x y : Thread) (op : Nat) (fm : Form) (o : Opnd) (r : Out) : Prop where
  g : ∀ n, y.gv n = if n = 0 then 0#64 else lastWrite r.g n (x.gv n)
  full : ∀ n, n < 16 → y.isFull n = (x.isFull n || r.g.any fun w => w.1 == n)
  p : ∀ n, n < 8 → y.pv n = (n == 0 || lastWrite (r.p.map fun w => (w.1 % 8, w.2)) n (x.pv n))
  results : y.grp.res = x.grp.res ++ r.res.map fun e => { e with pos := x.grp.n, pc := x.pc, op := op }
  effects : y.grp.defs = x.grp.defs ++ r.defs.map fun e => { e with pos := x.grp.n, pc := x.pc }
  marks : y.grp.marks = x.grp.marks ++ (marksOf o).map fun n => (x.grp.n, n)
  count : y.grp.n = x.grp.n + 1
  claims : y.grp.undo = x.grp.undo ++ r.undo.map fun u => (x.grp.n, u)
  given : y.grp.given = x.grp.given ++ r.given.map (64 * x.grp.n + ·)
  fences : y.grp.fences.map (fun f => (f.pos, f.scope))
    = x.grp.fences.map (fun f => (f.pos, f.scope)) ++ r.fence.toList.map fun sc => (x.grp.n, sc)
  refetch : y.grp.ifence = (x.grp.ifence || r.ifence)
  flags : y.grp.fx = flAdd x.grp.fx x.grp.n r.fx
  trap : y.grp.trap = x.grp.trap
  absent : y.grp.np = x.grp.np
  pc : y.pc = r.jump.getD (x.following x.pc)
  ends : y.phase = if o.s then .marker else x.phase
  post : y.post = r.post.getD x.post
  rest : { y with
    g := x.g, full := x.full, poison := x.poison, pr := x.pr, rviews := x.rviews, exs := x.exs, lastSrc := x.lastSrc
    msgViews := x.msgViews, grp := x.grp, pc := x.pc, nextPc := x.nextPc, phase := x.phase, post := x.post
    st := x.st, prsn := x.prsn, lost := x.lost, ready := x.ready } = x

/-- The instruction has issued with the answer `r`: only the issuing thread has changed, beside what the instruction
claimed at issue. -/
structure State.Does (s t : State) (op : Nat) (fm : Form) (o : Opnd) (r : Out) : Prop where
  frame : (r.st.getD s).OnlyThread t s.curCore s.curThr
  thread : ((r.st.getD s.opened).thr s.curCore s.curThr).Does (t.thr s.curCore s.curThr) op fm o r

/-- The issuing thread's instruction joins its group with a trap of a cause, a sub-code and an information value, and
changes nothing else outside the thread (R55, R61). -/
structure State.Traps (s t : State) (cause sub : Nat) (info : Word) : Prop where
  frame : s.OnlyThread t s.curCore s.curThr
  trap : (t.thr s.curCore s.curThr).grp.trap =
    some (s.me.grp.trap.getD { pos := s.me.grp.n, pc := s.me.pc, cause := cause, sub := sub, info := info })
  regs : ∀ n, (t.thr s.curCore s.curThr).gv n = s.me.gv n
  preds : ∀ n, (t.thr s.curCore s.curThr).pv n = s.me.pv n

/-- A single-cycle result in gD; g0 discards it (R28). -/
def gResult (d : Nat) (v : Word) : Out := { g := if d = 0 then [] else [(d, v)] }

/-- A long-latency result in gD. -/
def gLong (d : Nat) (v : Word) : Out := { res := valRes d v }

end Sys2Proof.Machine
end

