-- ==== Sys2Proof/Certificates/Slice0/Obligations.lean ====
section
/-! DEFINITION. The statements for the provers, and the words of the spec that they are stated in. -/

open Sys2Proof Sys2Proof.Machine

namespace Sys2Proof.Spec

/-! ### Words of the statements -/

/-- `exec i` answers a next state, in which the issuing thread holds exactly what an instruction that answers `r`
leaves, and nothing else has changed. -/
def Issues (i : Instr) (s : State) (op : Nat) (fm : Form) (o : Opnd) (r : Out) : Prop :=
  ∃ t, exec i s = .next t ∧ s.Does t op fm o r

/-- `exec i` answers a next state in which the instruction's group holds a trap, and nothing else has changed. -/
def Trapped (i : Instr) (s : State) (cause sub : Nat) (info : Word) : Prop :=
  ∃ t, exec i s = .next t ∧ s.Traps t cause sub info

/-- The signed immediate: m6 in a 2-byte tail, m13 in a 4-byte tail, i48 in an 8-byte tail (R108, R125). -/
def immediate (fm : Form) (o : Opnd) : Int :=
  match fm with
  | .t2 => (BitVec.ofNat 6 o.m).toInt
  | .t8 => (BitVec.ofNat 48 o.i).toInt
  | _ => (BitVec.ofNat 13 o.m).toInt

/-- Bit `n` of a modifier. -/
def mbit (o : Opnd) (n : Nat) : Bool := o.m.testBit n

/-- A single-cycle result in pD (R28: p0 discards it). -/
def pResult (d : Nat) (v : Bool) : Out := { p := [(d, v)] }

/-- Rows 1's table of R123: `v` is the result of opcode `op` on `a` and `b`. -/
def IntIs (op : Nat) (a b v : Word) : Prop :=
  let n := b.toNat % 64
  match op with
  | 0x10 => v.toNat = (a.toNat + b.toNat) % 2 ^ 64
  | 0x11 => (v.toNat : Int) = ((a.toNat : Int) - b.toNat) % 2 ^ 64
  | 0x12 => v.toNat = a.toNat * b.toNat % 2 ^ 64
  | 0x13 => v.toInt = a.toInt * b.toInt / 2 ^ 64
  | 0x14 => v.toNat = a.toNat * b.toNat / 2 ^ 64
  | 0x19 => ∀ k, v.getLsbD k = (a.getLsbD k && b.getLsbD k)
  | 0x1A => ∀ k, v.getLsbD k = (a.getLsbD k || b.getLsbD k)
  | 0x1B => ∀ k, v.getLsbD k = (a.getLsbD k ^^ b.getLsbD k)
  | 0x1C => v.toNat = a.toNat * 2 ^ n % 2 ^ 64
  | 0x1D => v.toNat = a.toNat / 2 ^ n
  | 0x1E => v.toInt = a.toInt / 2 ^ n
  | 0x1F => ∀ k, k < 64 → v.getLsbD ((k + n) % 64) = a.getLsbD k
  | _ => False

/-- The tables of R126 to R128: `v` is the result of opcode `op` of row 2 on `a` and `b`, where `p` is the value
of the predicate that SEL names. -/
def Row2Is (op : Nat) (fm : Form) (o : Opnd) (p : Bool) (a b v : Word) : Prop :=
  let imm := immediate fm o
  let n := o.m % 64
  let len := o.m / 64 % 64 + 1
  match op with
  | 0x20 => (v.toNat : Int) = ((a.toNat : Int) + imm) % 2 ^ 64
  | 0x21 => ∀ k, v.getLsbD k = (a.getLsbD k && (BitVec.ofInt 64 imm).getLsbD k)
  | 0x22 => ∀ k, v.getLsbD k = (a.getLsbD k || (BitVec.ofInt 64 imm).getLsbD k)
  | 0x23 => ∀ k, v.getLsbD k = (a.getLsbD k ^^ (BitVec.ofInt 64 imm).getLsbD k)
  | 0x24 => v.toNat = a.toNat * 2 ^ n % 2 ^ 64
  | 0x25 => v.toNat = a.toNat / 2 ^ n
  | 0x26 => v.toInt = a.toInt / 2 ^ n
  | 0x27 => v.toInt = (BitVec.ofNat 48 o.i).toInt
  | 0x28 => v.toNat = o.i % 2 ^ 16 * 2 ^ 48 + a.toNat % 2 ^ 48
  | 0x29 => v = a
  | 0x2A => v = if (!mbit o 3) == p then a else b
  | 0x2B => v.toNat ≤ 64 ∧ a.toNat < 2 ^ (64 - v.toNat) ∧ (a ≠ 0 → 2 ^ (63 - v.toNat) ≤ a.toNat ∧ v.toNat < 64)
      ∧ (a = 0 → v.toNat = 64)
  | 0x2C => v.toNat = ((List.range 64).filter fun k => a.getLsbD k).length
  | 0x2D => ∀ k j, k < 8 → j < 8 → v.getLsbD (8 * k + j) = a.getLsbD (8 * (7 - k) + j)
  | 0x2E => if mbit o 12 then v.toInt = (BitVec.ofNat len (a.toNat / 2 ^ n)).toInt else v.toNat = a.toNat / 2 ^ n % 2 ^ len
  | 0x2F => ∀ k, k < 64 → v.getLsbD k = if n ≤ k ∧ k < n + len then a.getLsbD (k - n) else b.getLsbD k
  | _ => False

/-- The condition codes of R130. -/
def CondIs (cc : Nat) (a b : Word) : Prop :=
  match cc with
  | 0 => a = b
  | 1 => a ≠ b
  | 2 => a.toInt < b.toInt
  | 3 => a.toInt ≥ b.toInt
  | 4 => a.toInt ≤ b.toInt
  | 5 => a.toInt > b.toInt
  | 6 => a.toNat < b.toNat
  | 7 => a.toNat ≥ b.toNat
  | 8 => a.toNat ≤ b.toNat
  | 9 => a.toNat > b.toNat
  | 10 => ∃ k, a.getLsbD k = true ∧ b.getLsbD k = true
  | 11 => ∀ k, ¬(a.getLsbD k = true ∧ b.getLsbD k = true)
  | _ => False

/-- What a compare writes: `c` combined with the old value of pD (R130). -/
def combined (o : Opnd) (old c : Bool) : Bool :=
  match o.m / 16 % 4 with
  | 0 => c
  | 1 => old && c
  | _ => old || c

/-- Predicate logic on two sources, each negated by its modifier bit (R131). -/
def plogicIs (op : Nat) (x y : Bool) : Bool :=
  match op with
  | 0x32 => x && y
  | 0x33 => x || y
  | _ => x != y

/-- The code line of a target is in the thread's fetch buffer, or is read now, and the target is a valid head of it;
`s1` is the state once it is fetched (R47, R106, R112). -/
def CodeAt (s : State) (p : Word) (s1 : State) : Prop :=
  fpOff p % 2 = 0 ∧ ∃ l, s.opened.fetch s.curCore s.curThr p = .line s1 l ∧ headAt l (fpOff p % 64 / 2) ≠ none

/-- The head after this one in fetch order (R42, R113). -/
def after (s : State) : Word := s.me.following s.me.pc

/-- An access of the issuing thread passes Translate and meets no entry of the range scoreboard (R8, R140, R319). -/
def Passes (s : State) (p : Word) (n align right : Nat) (k : Ok) : Prop :=
  s.opened.translate s.curCore s.me.ctx (s.me.grp.givenBefore s.me.grp.n) p n align right = .ok k ∧ k.np = none
    ∧ (s.opened.core s.curCore).scbHit k.loc n = false

/-- A store or an atomic passes: its extent is neither weight-resident nor scrub-pending (R148, R320). -/
def PassesW (s : State) (p : Word) (n align right : Nat) (k : Ok) : Prop :=
  Passes s p n align right k ∧ k.ws = none ∧ k.z = 0

/-- A register that an instruction reads beside its sources is full, not poisoned, and holds `v` (R39, R40). -/
def Holds (s : State) (n : Nat) (v : Word) : Prop := s.me.readG n = .ok v

/-- The address of a plain access: the base itself with a post-increment, else the base moved by the signed
displacement, in units of the access size (R139, R141). -/
def plainAddr (o : Opnd) (base : Word) (size : Nat) : Option Word :=
  if mbit o 2 then some base else fpMove base ((BitVec.ofNat 10 (o.m / 8)).toInt * size)

/-- The access size that SZ names. -/
def accessSize (o : Opnd) : Nat := 2 ^ (o.m % 4)

/-- A result due from memory: its destination, what becomes of the bytes, its scope where it acquires, and the events
that read them. -/
def dueLoad (dest : Dest) (cv : Conv) (acq : Option Nat) (k : Ok) (p : Word) (parts : List Part) : LRes :=
  { pos := 0, dest := dest, val := .load cv acq k.side, parts := parts, hnd := k.hnd, ptr := p }

/-- A store that the group defers: its bytes, where they go, and the check that it has passed and passes again should a
stop save it before it is dispatched (R140). -/
def dueStore (op : Nat) (k : Ok) (p : Word) (bytes : List Byte) : Eff :=
  { op := op, locs := locs k.loc bytes.length, data := bytes, hnds := [k.hnd], va := p
    chk := [(p, bytes.length, bytes.length, if op = 0x7B ∨ op = 0xEE then 3 else 1)] }

/-- The group gains one deferred effect and nothing else. -/
def defers (e : Eff) : Out := { defs := [e] }

/-- A handle may be used with a right: handle 0, or a valid one that grants it (R8, R231). -/
def HandleOk (s : State) (p : Word) (right : Nat) : Prop :=
  fpHnd p = 0 ∨
    (let d := s.handleAt s.me.ctx p
     d.st = .valid ∧ bit d.rights right = true)

/-- The whole of a vector operand passes its check at issue; an operand that holds no pointer to a span has none
(R187). -/
def SpanOk (i : Iss) (k : VRole) (which : Nat) (p : Word) (size : Nat) (rd wr : Bool) (ok : Ok) : Prop :=
  if k.isPtr && k != .base then
    vecSpan i.op (vecX i.op i.o.m) which p i.vc.toNat size ≤ 65536
      ∧ i.span p (vecSpan i.op (vecX i.op i.o.m) which p i.vc.toNat size) size rd wr = .ok ok ∧ ok.np = none
  else ok = { loc := 0 }

/-- The post-increment of a vector operand is due where its modifier bit is set (R24, R186). -/
def BumpOk (i : Iss) (on : Bool) (reg which : Nat) (p : Word) (size : Nat) (due : List LRes) : Prop :=
  if on then ∃ q, fpMove p (vecNext i.op (vecX i.op i.o.m) which p i.vc.toNat size) = some q ∧ due = valRes reg q else due = []

/-- The exact result that row 8's arithmetic rounds, with the flags it sets before rounding (R180). -/
def exactOf (op : Nat) (rm : RM) (a b c : Machine.Num) : Machine.Num × Nat :=
  match op with
  | 0x80 => Machine.Num.add rm a b
  | 0x81 => Machine.Num.add rm a b.neg
  | 0x82 => Machine.Num.mul a b
  | 0x83 =>
    let p := Machine.Num.mul a b
    let r := Machine.Num.add rm p.1 c
    (r.1, p.2 ||| r.2)
  | 0x84 => Machine.Num.div a b
  | 0x85 => Machine.Num.sqrt a
  | 0x86 => Machine.Num.pick false a b
  | _ => Machine.Num.pick true a b

/-- F32 or F64, as bit 0 of the modifier says (R178). -/
def fmtOf8 (o : Opnd) : Fmt := if mbit o 0 then fmtF64 else fmtF32

/-- The value of a floating operand in a register (R179). -/
def fval (f : Fmt) (w : Word) : Machine.Num := f.decode (w.toNat % 2 ^ f.width)

/-- The conditions of FCMP (R181). -/
def fcmpIs (cond : Nat) (x y : Machine.Num) : Bool :=
  let un := x.isNaN || y.isNaN
  match cond with
  | 0 => !un && decide (x.cmp y = 0)
  | 1 => un || decide (x.cmp y ≠ 0)
  | 2 => !un && decide (x.cmp y < 0)
  | 3 => !un && decide (x.cmp y ≤ 0)
  | _ => un

/-- What sets NV in a compare: any NaN where an order is asked for, else a signalling one (R181). -/
def fcmpInvalid (cond : Nat) (x y : Machine.Num) : Bool :=
  if cond = 2 ∨ cond = 3 then x.isNaN || y.isNaN else x.isSNaN || y.isSNaN

end Sys2Proof.Spec

open Sys2Proof.Spec

/-! ### Encoding -/

/-- Tier 3. For every well-formed instruction, decoding its encoding gives it back, with every operand at every value
that the encoding admits (R41, R43, R44, R59). -/
def Obligations.DecodeOfEncode : Prop :=
  ∀ (i : Instr) (e : Enc), i.wf = true → encode i = some e → decode e.head e.tail = .ok i

/-- Tier 2. The other direction: whatever word the decoder accepts, the encoder writes back bit for bit, so no bit of a
head or tail is dropped and each word has one meaning. -/
def Obligations.EncodeOfDecode : Prop :=
  ∀ (h t : Nat) (i : Instr), h < 2 ^ 16 → t < 256 ^ tlBytes h → decode h t = .ok i → encode i = some ⟨h, t⟩

/-- Tier 1. Words written out from the spec's encodings (R43, R44, R109) decode to the instructions that they stand for. -/
def Obligations.DecodedWords : Prop :=
  decode 0x8000 0 = .ok (.nop { s := true, p := false, d := 0 })
  ∧ decode 0x1302 0x5626 = .ok (.cmpT2 { s := false, p := false, d := 2, a := 5, b := 6, la := false, lb := false, m := 38 })
  ∧ decode 0x23A7 0x80021FF8 = .ok (.paddiT4 { s := false, p := false, d := 7, a := 8, b := 0, c := 0, pg := 2, la := false, lb := false, lc := false, m := 0x1FF8 })
  ∧ decode 0x22E9 0xA00012C8 = .ok (.bfx { s := false, p := false, d := 9, a := 10, b := 0, c := 0, pg := 0, la := false, lb := false, lc := false, m := 0x12C8 })
  ∧ decode 0x2032 0xFFFA0000 = .ok (.jnp { s := false, p := false, d := 2, disp := 0xFFFA, pg := 0, m := 0 })
  ∧ decode 0x9040 0xB000 = .ok (.callT2 { s := true, p := false, d := 0, a := 11, b := 0, la := false, lb := false, m := 0 })

/-! ### Row 0: control -/

/-- R111, whole. A NOP has no effect: its group gains one instruction and nothing else. The head 0x0000 is passed over
and never issues; 0x8000 is a NOP that ends its group; a NOP with a tail or with a D field traps 0x07. -/
def Obligations.NopHasNoEffect : Prop :=
  (∀ f s a b c, s.Ready 0x00 .t0 f.opnd a b c → Issues (.nop f) s 0x00 .t0 f.opnd {})
  ∧ (∀ line n k, headAt line k = some (0, n) → ∀ fuel, skipFillers line (fuel + 1) k = skipFillers line fuel (k + 1))
  ∧ decode 0x8000 0 = .ok (.nop { s := true, p := false, d := 0 })
  ∧ (∀ (f : F0) (s : State), f.d ≠ 0 → Trapped (.nop f) s 0x07 0 (lineOff s.me.pc))
  ∧ (∀ ex s c t h tl, h / 16 % 256 = 0x00 → h / 4096 % 4 ≠ 0 →
      ∃ u, State.runHead ex s c t ⟨h, tl⟩ = .next u ∧ s.OnlyThread u c t
        ∧ (u.thr c t).grp.trap = some ((s.thr c t).grp.trap.getD
            { pos := (s.thr c t).grp.n, pc := (s.thr c t).pc, cause := 0x07, sub := 0, info := lineOff (s.thr c t).pc }))

/-- Tier 2. Direct and indirect transfers (R112 to R114): JMP, JP, JNP, CALL, RET and JR go on at their target, whose
line is fetched; an untaken JP or JNP goes on at the next head; CALL writes the next head into g14. -/
def Obligations.TransfersJump : Prop :=
  ∀ (i : Instr) (s : State) (op : Nat) (fm : Form) (o : Opnd) (a b c : Word), i.view = some (op, fm, o) →
    s.Ready op fm o a b c →
    (∀ p, fpMove s.me.pc (2 * (BitVec.ofNat 16 o.i).toInt) = some p →
      (op = 0x01 → ∀ s1, CodeAt s p s1 → Issues i s op fm o { jump := some p, st := some s1 })
      ∧ (op = 0x02 → (s.me.readP o.d = true → ∀ s1, CodeAt s p s1 → Issues i s op fm o { jump := some p, st := some s1 })
          ∧ (s.me.readP o.d = false → Issues i s op fm o {}))
      ∧ (op = 0x03 → (s.me.readP o.d = false → ∀ s1, CodeAt s p s1 → Issues i s op fm o { jump := some p, st := some s1 })
          ∧ (s.me.readP o.d = true → Issues i s op fm o {}))
      ∧ (op = 0x04 → fm = .t4b → ∀ s1, CodeAt s p s1 →
          Issues i s op fm o { g := [(14, after s)], jump := some p, st := some s1 }))
    ∧ (op = 0x04 → fm = .t2 → ∀ s1, CodeAt s (fpCode a) s1 →
        Issues i s op fm o { g := [(14, after s)], jump := some (fpCode a), st := some s1 })
    ∧ (op = 0x05 → ∀ v, Holds s 14 v → ∀ s1, CodeAt s (fpCode v) s1 → Issues i s op fm o { jump := some (fpCode v), st := some s1 })
    ∧ (op = 0x06 → ∀ s1, CodeAt s (fpCode a) s1 → Issues i s op fm o { jump := some (fpCode a), st := some s1 })

/-- Tier 2. LOOP (R115): gD − 1 is a buffered result; while it is not zero the thread goes on at the target. A counter
of zero wraps and keeps the loop going. -/
def Obligations.LoopCounts : Prop :=
  ∀ (f : F4b) (s : State) (a b c v : Word), s.Ready 0x07 .t4b f.opnd a b c → Holds s f.opnd.d v →
    (v = 1 → Issues (.loop f) s 0x07 .t4b f.opnd (gLong f.opnd.d 0))
    ∧ (v ≠ 1 → ∀ p, fpMove s.me.pc (2 * (BitVec.ofNat 16 f.opnd.i).toInt) = some p → ∀ s1, CodeAt s p s1 →
        Issues (.loop f) s 0x07 .t4b f.opnd { gLong f.opnd.d (v - 1) with jump := some p, st := some s1 })

/-- Tier 2. Branches that fail (R47, R112 to R114): a displacement that leaves 42 bits traps 0x17 with the PC, an odd
target or one that is no valid head traps 0x03 with the target, and nothing is written. -/
def Obligations.BadTargetsTrap : Prop :=
  ∀ (i : Instr) (s : State) (op : Nat) (fm : Form) (o : Opnd) (a b c : Word), i.view = some (op, fm, o) →
    s.Ready op fm o a b c →
    ((op = 0x01 ∨ op = 0x02 ∨ op = 0x03 ∨ (op = 0x04 ∧ fm = .t4b)) →
      fpMove s.me.pc (2 * (BitVec.ofNat 16 o.i).toInt) = none → Trapped i s 0x17 0 s.me.pc)
    ∧ (∀ p, ((op = 0x06 ∨ (op = 0x04 ∧ fm = .t2)) ∧ p = fpCode a) ∨ (op = 0x05 ∧ ∃ v, Holds s 14 v ∧ p = fpCode v) →
      (fpOff p % 2 = 1 → Trapped i s 0x03 0 p)
      ∧ (∀ cause sub, fpOff p % 2 = 0 → s.opened.fetch s.curCore s.curThr p = .bad cause sub →
          Trapped i s cause sub (faultPtr cause p))
      ∧ (∀ s1 l, fpOff p % 2 = 0 → s.opened.fetch s.curCore s.curThr p = .line s1 l → headAt l (fpOff p % 64 / 2) = none →
          Trapped i s 0x03 0 p))

/-- Tier 2. What follows a group's commit (R116 to R118, R120, R121): YIELD, TEND, TRAP and SYSC leave their sequel to
the end of the group, IFENCE its refetch, and WAITF completes at once on a full register, g0 included. -/
def Obligations.GroupSequels : Prop :=
  ∀ (i : Instr) (s : State) (op : Nat) (fm : Form) (o : Opnd) (a b c : Word), i.view = some (op, fm, o) →
    s.Ready op fm o a b c →
    (op = 0x08 → Issues i s op fm o { post := some .yield })
    ∧ (op = 0x09 → Issues i s op fm o { post := some .tend })
    ∧ (op = 0x0A → fm = .t0 → Issues i s op fm o { post := some (.msg 0x08 o.d 0) })
    ∧ (op = 0x0A → fm ≠ .t0 → Issues i s op fm o { post := some (.msg 0x08 (o.m % 256) a) })
    ∧ (op = 0x0B → Issues i s op fm o { post := some (.msg 0x09 (o.m % 256) a) })
    ∧ (op = 0x0C → Issues i s op fm o { ifence := true })
    ∧ (op = 0x0D → s.me.isFull o.d = true → Issues i s op fm o {})

/-- Tier 2. WAITF on an empty register (R39, R121): it parks with reason 0x0B and the register's number, and where the
group's own commit alone could fill the register it traps 0x46. -/
def Obligations.WaitfParks : Prop :=
  ∀ (i : Instr) (s : State) (fm : Form) (o : Opnd) (a b c : Word), i.view = some (0x0D, fm, o) →
    s.Ready 0x0D fm o a b c → s.me.st ≠ 2 → s.me.isFull o.d = false →
    (s.me.isDue o.d = true → Trapped i s 0x46 0 (BitVec.ofNat 64 o.d))
    ∧ (s.me.isDue o.d = false → ∃ t, exec i s = .next t ∧ s.OnlyThread t s.curCore s.curThr
        ∧ (t.thr s.curCore s.curThr).st = 2 ∧ (t.thr s.curCore s.curThr).prsn = 0x0B ∧ (t.thr s.curCore s.curThr).parkReg = o.d
        ∧ (t.thr s.curCore s.curThr).pc = s.me.pc ∧ (t.thr s.curCore s.curThr).grp = s.me.grp)

/-- Tier 2. Faults that are an instruction's whole effect: BRK traps 0x0A with its tag (R119). Every head whose opcode
R59 leaves reserved, and every head with 0xFF, decodes to a position that traps 0x01, with sub-code 0 and 1, at issue
and whatever the guard (R60, R61); the decoder refuses by name exactly the tails that an opcode does not accept. -/
def Obligations.TrappingHeads : Prop :=
  (∀ (f : F0) (s : State) (a b c : Word), s.Ready 0x0E .t0 f.opnd a b c → Trapped (.brk f) s 0x0A f.opnd.d 0)
  ∧ (∀ (f : FRaw) (s : State), Trapped (.reservedOpcode f) s 0x01 0 (lineOff s.me.pc))
  ∧ (∀ (f : FRaw) (s : State), Trapped (.illegalOpcodeFf f) s 0x01 1 (lineOff s.me.pc))
  ∧ (∀ h t, reservedOp (h / 16 % 256) = true → ∃ f, decode h t = .ok (.reservedOpcode f))
  ∧ (∀ h t, h / 16 % 256 = 0xFF → ∃ f, decode h t = .ok (.illegalOpcodeFf f))
  ∧ (∀ h t, decode h t = .error (.tailNotAccepted (h / 16 % 256) (h / 4096 % 4)) ↔
      (reservedOp (h / 16 % 256) = false ∧ h / 16 % 256 ≠ 0xFF
        ∧ (decFind (h / 16 % 256 * 4 + h / 4096 % 4) (decRow (h / 16 % 256 / 16))).isNone = true))
  ∧ ((List.range 256).filter reservedOp).length = 34

/-! ### Rows 1 to 3 -/

/-- R123, whole: ADD, SUB, MUL, MULH, MULHN, AND, OR, XOR, SHL, SHR, SAR and ROT write their result to gD, at every
operand, and change nothing else. -/
def Obligations.IntegerResults : Prop :=
  ∀ (i : Instr) (s : State) (op : Nat) (fm : Form) (o : Opnd) (a b c : Word), i.view = some (op, fm, o) →
    s.Ready op fm o a b c → ((0x10 ≤ op ∧ op ≤ 0x14) ∨ (0x19 ≤ op ∧ op ≤ 0x1F)) →
    ∃ v, IntIs op a b v ∧ Issues i s op fm o (gResult o.d v)

/-- R124: DIV, DIVN, REM and REMN. A zero divisor traps 0x34. Otherwise the quotient truncates toward zero, the
remainder takes the sign of the dividend, and −2^63 by −1 gives −2^63 and 0 with no fault; the result is long-latency. -/
def Obligations.DivisionResults : Prop :=
  ∀ (i : Instr) (s : State) (op : Nat) (fm : Form) (o : Opnd) (a b c : Word), i.view = some (op, fm, o) →
    s.Ready op fm o a b c → (0x15 ≤ op ∧ op ≤ 0x18) →
    (b = 0 → Trapped i s 0x34 0 0)
    ∧ (b ≠ 0 → ∃ v, Issues i s op fm o (gLong o.d v)
        ∧ (op = 0x15 → v = BitVec.sdiv a b) ∧ (op = 0x16 → v.toNat = a.toNat / b.toNat)
        ∧ (op = 0x17 → v = BitVec.srem a b) ∧ (op = 0x18 → v.toNat = a.toNat % b.toNat))

/-- R126 and R127, whole, and the results of R128: row 2 in every form. LI, MOV, SEL and the bit-field operations
included, each writes its result to gD and changes nothing else. -/
def Obligations.ImmediateResults : Prop :=
  ∀ (i : Instr) (s : State) (op : Nat) (fm : Form) (o : Opnd) (a b c : Word), i.view = some (op, fm, o) →
    s.Ready op fm o a b c → (0x20 ≤ op ∧ op ≤ 0x2F) →
    ∃ v, Row2Is op fm o (s.me.readP (o.m % 8)) a b v ∧ Issues i s op fm o (gResult o.d v)

/-- R131, whole, and the tests of R130: CMP and CMPI write pD with the condition, combined with pD where the modifier says so; PAND,
POR, PXOR and PNOT write pD; p0 discards a write. -/
def Obligations.PredicateResults : Prop :=
  ∀ (i : Instr) (s : State) (op : Nat) (fm : Form) (o : Opnd) (a b c : Word), i.view = some (op, fm, o) →
    s.Ready op fm o a b c →
    (op = 0x30 → ∃ v : Bool, (v = true ↔ CondIs (o.m % 16) a b) ∧ Issues i s op fm o (pResult o.d (combined o (s.me.readP o.d) v)))
    ∧ (op = 0x31 → ∃ v : Bool,
        (v = true ↔ CondIs (o.m % 16) a
          (if fm = .t8 then (BitVec.ofNat 48 o.i).signExtend 64 else (BitVec.ofNat 7 (o.m / 64)).signExtend 64))
        ∧ Issues i s op fm o (pResult o.d (combined o (s.me.readP o.d) v)))
    ∧ ((0x32 ≤ op ∧ op ≤ 0x34) →
        Issues i s op fm o (pResult o.d (plogicIs op (s.me.readP o.a ^^ mbit o 0) (s.me.readP o.b ^^ mbit o 1))))
    ∧ (op = 0x35 → Issues i s op fm o (pResult o.d (!s.me.readP o.a)))

/-- R132: PTOG writes bit n of gD with pn and zero above bit 7; GTOP writes each predicate that its form names with
that bit of gA. -/
def Obligations.PredicateMoves : Prop :=
  ∀ (i : Instr) (s : State) (op : Nat) (fm : Form) (o : Opnd) (a b c : Word), i.view = some (op, fm, o) →
    s.Ready op fm o a b c →
    (op = 0x36 → ∃ v : Word, (∀ k, v.getLsbD k = (decide (k < 8) && s.me.readP k)) ∧ Issues i s op fm o (gResult o.d v))
    ∧ (op = 0x37 → ∃ r : Out, Issues i s op fm o r ∧ r.g = [] ∧ r.res = [] ∧ r.defs = []
        ∧ ∀ k v, (k, v) ∈ r.p ↔ (1 ≤ k ∧ k < 8 ∧ (fm = .t2 ∨ mbit o k = true) ∧ v = a.getLsbD k))

/-- R134, R135 and R136: PMK, PADD, PADDI, PSETF, PSETB, PHND and POFF, with the faults 0x13 and 0x17 of values that no
pointer field holds. -/
def Obligations.PointerResults : Prop :=
  ∀ (i : Instr) (s : State) (op : Nat) (fm : Form) (o : Opnd) (a b c : Word), i.view = some (op, fm, o) →
    s.Ready op fm o a b c →
    (op = 0x38 →
      (a.toNat > 8191 → Trapped i s 0x13 1 a)
      ∧ (a.toNat ≤ 8191 → b.toNat ≥ 2 ^ 42 → Trapped i s 0x17 0 b)
      ∧ (a.toNat ≤ 8191 → b.toNat < 2 ^ 42 → ∃ v : Word, Issues i s op fm o (gResult o.d v)
          ∧ v.toNat % 2 ^ 42 = b.toNat ∧ v.toNat / 2 ^ 42 % 2 ^ 13 = a.toNat
          ∧ v.toNat / 2 ^ 55 = if fm = .t4 then o.m / 64 % 8 + o.m % 64 * 8 else 0))
    ∧ ((op = 0x39 ∨ op = 0x3A) →
      let dest : Int := (a.toNat % 2 ^ 42 : Nat) + (if op = 0x39 then b.toInt * 2 ^ (o.m % 8) else immediate fm o)
      ((dest < 0 ∨ 2 ^ 42 ≤ dest) → Trapped i s 0x17 0 a)
      ∧ (0 ≤ dest → dest < 2 ^ 42 → ∃ v : Word, Issues i s op fm o (gResult o.d v)
          ∧ ((v.toNat % 2 ^ 42 : Nat) : Int) = dest ∧ v.toNat / 2 ^ 42 = a.toNat / 2 ^ 42))
    ∧ (op = 0x3B → ∃ v : Word, Issues i s op fm o (gResult o.d v) ∧ v.toNat % 2 ^ 58 = a.toNat % 2 ^ 58 ∧ v.toNat / 2 ^ 58 = o.m % 64)
    ∧ (op = 0x3C → ∃ v : Word, Issues i s op fm o (gResult o.d v) ∧ v.toNat % 2 ^ 55 = a.toNat % 2 ^ 55
        ∧ v.toNat / 2 ^ 55 % 8 = o.m % 8 ∧ v.toNat / 2 ^ 58 = a.toNat / 2 ^ 58)
    ∧ (op = 0x3D → ∃ v : Word, Issues i s op fm o (gResult o.d v) ∧ v.toNat = a.toNat / 2 ^ 42 % 2 ^ 13)
    ∧ (op = 0x3E → ∃ v : Word, Issues i s op fm o (gResult o.d v) ∧ v.toNat = a.toNat % 2 ^ 42)

/-- R137: PCHK answers what an access would meet first, without presence and alignment, as a long-latency result, and
never traps on the answer. For handle 0 it is 0 where the range lies in one mapped region and 0x23 elsewhere, and an
empty range is held to the region of its address (the model's choice, log entry 124); for another handle it is the first
of an invalid descriptor, a revoking or revoked one, a right not granted, and a range beyond the object, as the station's
check sees the descriptor. -/
def Obligations.PchkAnswers : Prop :=
  ∀ (f : F4) (s : State) (a b c : Word), s.Ready 0x3F .t4 f.opnd a b c →
    let x := s.me.ctx
    let h := a.toNat / 2 ^ 42 % 2 ^ 13
    let off := a.toNat % 2 ^ 42
    let d := s.handleAt x a
    let mask := f.opnd.m % 64
    let answer : Nat :=
      if h = 0 then
        if isMapped (region off) = true ∧ (b.toNat = 0 ∨ region (off + b.toNat - 1) = region off) then 0 else 0x23
      else match d.st with
        | .invalid => 0x13
        | .revoking | .revoked => 0x14
        | .valid => if mask &&& d.rights ≠ mask then 0x12 else if d.size < off + b.toNat then 0x11 else 0
    Issues (.pchk f) s 0x3F .t4 f.opnd (gLong f.opnd.d (BitVec.ofNat 64 answer))

/-! ### Rows 4 and 5 -/

/-- Tier 2. Loads (R141 to R145, R174, R175, R211, R238): LD, LDS, LDA, LDX, LDP, CBPH, CCRD and SHLD, in every form,
leave the results due that read the bytes at the address the rules give; a post-increment is due beside them. Register
0 takes no result, so a load into it is a touch. -/
def Obligations.LoadsIssue : Prop :=
  ∀ (i : Instr) (s : State) (op : Nat) (fm : Form) (o : Opnd) (a b c : Word), i.view = some (op, fm, o) →
    s.Ready op fm o a b c →
    let n := accessSize o
    let cv : Conv := if op = 0x41 ∨ (op = 0x49 ∧ mbit o 2 = true) then .sign else .zero
    (op = 0x40 ∨ op = 0x41 → ∀ p k, plainAddr o a n = some p → Passes s p n n 0 k →
      (mbit o 2 = false → Issues i s op fm o { res := [dueLoad (gDest o.d) cv none k p [{ loc := k.loc, size := n }]] })
      ∧ (mbit o 2 = true → ∀ q, fpMove a n = some q →
          Issues i s op fm o { res := valRes o.a q ++ [dueLoad (gDest o.d) cv none k p [{ loc := k.loc, size := n }]] }))
    ∧ (op = 0x43 → ∀ k, Passes s a n n 0 k →
        Issues i s op fm o { res := [dueLoad (gDest o.d) .zero (some (o.m / 8 % 8)) k a [{ loc := k.loc, size := n }]] })
    ∧ (op = 0x47 → ∀ p k, plainAddr o a 16 = some p → Passes s p 16 16 0 k →
      let two := [dueLoad (gDest o.d) .zero none k p [{ loc := k.loc, size := 8 }],
        dueLoad (gDest (o.d + 1)) .zero none k p [{ loc := k.loc + 8, size := 8 }]]
      (mbit o 2 = false → Issues i s op fm o { res := two })
      ∧ (mbit o 2 = true → ∀ q, fpMove a 16 = some q → Issues i s op fm o { res := valRes o.a q ++ two }))
    ∧ (op = 0x49 → ∀ p k, fpMove a (b.toInt * n) = some p → Passes s p n n 0 k →
        Issues i s op fm o { res := [dueLoad (gDest o.d) cv none k p [{ loc := k.loc, size := n }]] })
    ∧ (op = 0x7D → ∀ k, Passes s a 16 16 0 k →
        Issues i s op fm o { res := [dueLoad (gDest o.d) .cbph none k a [{ loc := k.loc, size := 8 }, { loc := k.loc + 8, size := 8 }]] })
    ∧ (op = 0xED → ∀ k, Passes s a 8 8 3 k →
        Issues i s op fm o { res := [dueLoad (gDest o.d) .zero none k a [{ loc := k.loc, size := 8 }]] })
    ∧ (op = 0xC0 → ∀ k, Passes s a 64 64 0 k →
        Issues i s op fm o { res := [dueLoad (.sh o.d) .shape none k a ((List.range 8).map fun j => { loc := k.loc + 8 * j, size := 8 })] })

/-- Tier 2. Stores (R141, R143 to R145, R174, R211, R238): ST, STL, STX, STP, CBINIT, CCSET and SHST read their data at
issue and defer the bytes that go to the address the rules give, and to no other. -/
def Obligations.StoresIssue : Prop :=
  ∀ (i : Instr) (s : State) (op : Nat) (fm : Form) (o : Opnd) (a b c v w : Word), i.view = some (op, fm, o) →
    s.Ready op fm o a b c →
    let n := accessSize o
    (op = 0x42 → Holds s o.d v → ∀ p k, plainAddr o a n = some p → PassesW s p n n 1 k →
      (mbit o 2 = false → Issues i s op fm o (defers (dueStore op k p (leBytes n v.toNat))))
      ∧ (mbit o 2 = true → ∀ q, fpMove a n = some q →
          Issues i s op fm o { defers (dueStore op k p (leBytes n v.toNat)) with res := valRes o.a q }))
    ∧ (op = 0x44 → Holds s o.d v → ∀ k, PassesW s a n n 1 k →
        Issues i s op fm o (defers { dueStore op k a (leBytes n v.toNat) with sreg := o.m / 8 % 8 + 1 }))
    ∧ (op = 0x48 → Holds s o.d v → (if o.d = 0 then w = 0 else Holds s (o.d + 1) w) →
      ∀ p k, plainAddr o a 16 = some p → PassesW s p 16 16 1 k →
      (mbit o 2 = false → Issues i s op fm o (defers (dueStore op k p (leBytes 8 v.toNat ++ leBytes 8 w.toNat))))
      ∧ (mbit o 2 = true → ∀ q, fpMove a 16 = some q →
          Issues i s op fm o { defers (dueStore op k p (leBytes 8 v.toNat ++ leBytes 8 w.toNat)) with res := valRes o.a q }))
    ∧ (op = 0x4A → Holds s o.d v → ∀ p k, fpMove a (b.toInt * n) = some p → PassesW s p n n 1 k →
        Issues i s op fm o (defers (dueStore op k p (leBytes n v.toNat))))
    ∧ (op = 0x7A → ∀ k, PassesW s a 32 32 1 k →
        Issues i s op fm o (defers (dueStore op k a (leBytes 4 b.toNat ++ List.replicate 28 0#8))))
    ∧ (op = 0xEE → ∀ k, PassesW s a 8 8 3 k → Issues i s op fm o (defers (dueStore op k a (leBytes 8 b.toNat))))
    ∧ (op = 0xC1 → ∀ k, PassesW s a 64 64 1 k →
        Issues i s op fm o (defers (dueStore op k a (leBytes 64 ((s.core s.curCore).shape o.d).toNat))))

/-- Tier 2. Typed accesses (R79, R146, R147): LDT and STT resolve one format, read or write one element of its size at
the base, and advance the base by one element, past a scale byte where one follows. A block-scaled access reads its
block's scale byte too, which passes its own check and on handle 0 lies in the element's region, else it traps 0x23 with
sub-code 1 (R310); one that names the scale byte itself traps 0x16. STT traps 0x32 with sub-code 1 on a value that is no
trit. -/
def Obligations.TypedAccessesIssue : Prop :=
  ∀ (i : Instr) (s : State) (op : Nat) (fm : Form) (o : Opnd) (a b c v : Word) (f : Nat) (k q : Ok), i.view = some (op, fm, o) →
    s.Ready op fm o a b c → resolveFmt a (o.m % 64) = .ok f → (f = 14 ∨ o.m / 128 % 8 = 0) →
    let n := fmtSize f
    let rm := (s.core s.curCore).frm.toNat % 4
    let tab := if f = 16 then (s.core s.curCore).dtab else []
    let len := 2 ^ (a.toNat / 2 ^ 55 % 8 + 2)
    let at_ := fpOff a % (len + 1)
    let scaled := a.toNat / 2 ^ 55 % 8 ≠ 0
    let step := if scaled then (if at_ = len then 2 else 1) else n
    let bump (r : Out) : Prop := (mbit o 6 = false → Issues i s op fm o r)
      ∧ (mbit o 6 = true → ∀ q, fpMove a step = some q → Issues i s op fm o { r with res := valRes o.a q ++ r.res })
    let el : Part := { loc := k.loc, size := n }
    let sc : Part := { loc := q.loc, size := 1 }
    let apart := fpHnd a = 0 ∧ region (fpOff a - at_) ≠ region (fpOff a)
    (op = 0x45 → Passes s a n n 0 k →
      (scaled → at_ = 0 → Trapped i s 0x16 0 a)
      ∧ (¬ scaled → bump { res := [dueLoad (gDest o.d) (.fmt f false (o.m / 128 % 8) rm tab) none k a [el]] })
      ∧ (scaled → at_ ≠ 0 → apart → Trapped i s 0x23 1 a)
      ∧ (scaled → at_ ≠ 0 → ¬ apart → Passes s (fpWith a (fpOff a - at_)) 1 1 0 q →
          bump { res := [dueLoad (gDest o.d) (.fmt f true (o.m / 128 % 8) rm tab) none k a [el, sc]] }))
    ∧ (op = 0x46 → Holds s o.d v → PassesW s a n n 1 k →
      (scaled → at_ = 0 → Trapped i s 0x16 0 a)
      ∧ (f = 14 → (v.toInt < -1 ∨ 1 < v.toInt) → Trapped i s 0x32 1 a)
      ∧ (f = 14 → -1 ≤ v.toInt → v.toInt ≤ 1 → bump (defers (dueStore op k a (leBytes n (ternByte (o.m / 128 % 8) v.toInt)))))
      ∧ (f ≠ 14 → ¬ scaled → let (w, fl) := ofReg tab f (RM.of rm) v.toNat
          bump { defers (dueStore op k a (leBytes n w)) with fx := fl })
      ∧ (f ≠ 14 → scaled → at_ ≠ 0 → apart → Trapped i s 0x23 1 a)
      ∧ (f ≠ 14 → scaled → at_ ≠ 0 → ¬ apart → Passes s (fpWith a (fpOff a - at_)) 1 1 1 q → bump
          { defers { dueStore op k a [0#8] with data := [] } with
            res := [dueLoad .none (.stt f rm tab v) none { k with side := false } a [sc]] }))

/-- Tier 2. The formats of typed accesses (R63): a pointer and a modifier that name different formats trap 0x15 with
sub-code 1, no format sub-code 2, a reserved one sub-code 0, a block scale on a format without one sub-code 3. -/
def Obligations.TypedFormatsTrap : Prop :=
  ∀ (i : Instr) (s : State) (op : Nat) (fm : Form) (o : Opnd) (a b c : Word), i.view = some (op, fm, o) →
    s.Ready op fm o a b c → (op = 0x45 ∨ (op = 0x46 ∧ ∃ v, Holds s o.d v)) →
    let pf := a.toNat / 2 ^ 58
    let mf := o.m % 64
    (pf ≠ 0 → mf ≠ 0 → pf ≠ mf → Trapped i s 0x15 1 a)
    ∧ (pf = 0 → mf = 0 → Trapped i s 0x15 2 a)
    ∧ (∀ f, (f = pf ∨ f = mf) → f ≠ 0 → (pf = 0 ∨ mf = 0 ∨ pf = mf) →
        (fmtReserved f = true → Trapped i s 0x15 0 a)
        ∧ (fmtReserved f = false → a.toNat / 2 ^ 55 % 8 ≠ 0 → f ≠ 1 → f ≠ 2 → f ≠ 16 → Trapped i s 0x15 3 a))

/-- Tier 2. Atomics (R149, R150, R174): CAS, SWP, AADD, AAND, AOR, AXOR, AMIN, AMAX and AFADD check the atomic right and
leave one atomic step due, whose old value goes to gD; CBARR defers its arrival. -/
def Obligations.AtomicsIssue : Prop :=
  ∀ (i : Instr) (s : State) (op : Nat) (fm : Form) (o : Opnd) (a b c : Word), i.view = some (op, fm, o) →
    s.Ready op fm o a b c →
    let n := accessSize o
    ((0x50 ≤ op ∧ op ≤ 0x58) → ∀ k, PassesW s a n n 3 k →
      Issues i s op fm o
        { res := [{ pos := 0, dest := gDest o.d
                    val := .atom op n (o.m / 4 % 4) (o.m / 16 % 8) (mbit o 7) b c
                    parts := [{ loc := k.loc, size := n }], hnd := k.hnd, ptr := a }] })
    ∧ (op = 0x7B → ∀ k, PassesW s a 32 32 3 k →
        Issues i s op fm o
          (defers { op := 0x7B, locs := locs k.loc 32, vb := b, n := mbit o 0, hnds := [k.hnd], va := a, chk := [(a, 32, 32, 3)] }))

/-- Tier 2. What an atomic step writes (R150): the table's new value on the old one, at 4 and 8 bytes; a CAS whose
compare fails writes nothing. -/
def Obligations.AtomicNewValues : Prop :=
  ∀ (w : Nat) (uns : Bool) (old b c : Nat), (w = 4 ∨ w = 8) → old < 256 ^ w →
    let m := 256 ^ w
    let le : Prop := if uns then old ≤ b % m else (BitVec.ofNat (8 * w) old).toInt ≤ (BitVec.ofNat (8 * w) b).toInt
    (atomicNew 0x50 w uns old b c = if old = b % m then some (c % m) else none)
    ∧ atomicNew 0x51 w uns old b c = some (b % m)
    ∧ atomicNew 0x52 w uns old b c = some ((old + b) % m)
    ∧ atomicNew 0x53 w uns old b c = some (old &&& b % m)
    ∧ atomicNew 0x54 w uns old b c = some (old ||| b % m)
    ∧ atomicNew 0x55 w uns old b c = some (old ^^^ b % m)
    ∧ (le → atomicNew 0x56 w uns old b c = some old ∧ atomicNew 0x57 w uns old b c = some (b % m))
    ∧ (¬ le → atomicNew 0x56 w uns old b c = some (b % m) ∧ atomicNew 0x57 w uns old b c = some old)

/-- Tier 2. FENCE, TFENCE and SBWAIT (R99, R151 to R153): the fences are deferred effects, an acquiring one with its
join; SBWAIT goes through once no command of the thread has a write to come, the thread then having seen what its Ladle
commands wrote, and parks with reason 0x07 before. -/
def Obligations.FencesIssue : Prop :=
  ∀ (i : Instr) (s : State) (op : Nat) (fm : Form) (o : Opnd) (a b c : Word), i.view = some (op, fm, o) →
    s.Ready op fm o a b c →
    (op = 0x59 → Issues i s op fm o
        { defers { op := 0x59, m := o.m } with fence := if o.m % 4 = 0 then none else some (o.m / 4 % 8) })
    ∧ (op = 0x5A → Issues i s op fm o (defers { op := 0x5A, m := o.m }))
    ∧ (op = 0x5B → ((s.opened.pendingOf s.curCore s.curThr).any fun e => writesLater e.op) = false →
        let seen := s.me.ladleIds.filter fun w => s.oom.ws.any fun v => v.id == w
        Issues i s op fm o
          { st := some (({ s.opened with oom := s.oom.see (agThread s.curCore s.curThr) seen } : State).modThr
              s.curCore s.curThr fun x => { x with ladleIds := [] }) })
    ∧ (op = 0x5B → ((s.opened.pendingOf s.curCore s.curThr).any fun e => writesLater e.op) = true → s.me.st ≠ 2 →
        ∃ t, exec i s = .next t ∧ s.OnlyThread t s.curCore s.curThr ∧ (t.thr s.curCore s.curThr).st = 2
          ∧ (t.thr s.curCore s.curThr).prsn = 0x07 ∧ (t.thr s.curCore s.curThr).pc = s.me.pc)

/-! ### Rows 6 and 7 -/

/-- Tier 2. Messages, migration and the cluster's roles (R154 to R162): SEND, SENDI, EMPTY, MIGR, MIGH, RCAST and CHMAP
check their operands and defer their effect; a core name that is not in use traps 0x42. -/
def Obligations.MessagesIssue : Prop :=
  ∀ (i : Instr) (s : State) (op : Nat) (fm : Form) (o : Opnd) (a b c : Word), i.view = some (op, fm, o) →
    s.Ready op fm o a b c →
    let named := s.opened.coreNameOk (s.opened.tagOf s.curCore s.curThr) a
    ((op = 0x60 ∨ op = 0x61 ∨ op = 0x63 ∨ (op = 0x62 ∧ fm = .t4 ∧ mbit o 0 = true)) → named = false → Trapped i s 0x42 0 a)
    ∧ (op = 0x60 → named = true → Issues i s op fm o (defers { op := 0x60, m := o.m % 8, rd := o.d, va := a, vb := b }))
    ∧ (op = 0x61 → named = true → Issues i s op fm o
        (defers { op := 0x60, m := o.m % 8, rd := o.d, va := a, vb := (BitVec.ofNat 48 o.i).signExtend 64 }))
    ∧ (op = 0x62 → (fm = .t4 ∧ mbit o 0 = true → named = true) → Issues i s op fm o
        (defers { op := 0x62, rd := o.d, va := a, n := fm == .t4 && mbit o 0 }))
    ∧ (op = 0x63 → named = true → Issues i s op fm o (defers { op := 0x63, va := a }))
    ∧ (op = 0x64 → fpHnd a = 0 → Issues i s op fm o (defers { op := 0x64, va := a, n := true }))
    ∧ (op = 0x64 → fpHnd a ≠ 0 → ∀ k, Passes s a 1 1 6 k → Issues i s op fm o (defers { op := 0x64, va := a, locs := [k.loc] }))
    ∧ (op = 0x66 → a.toNat < 8 → b.toNat < 2 ^ 16 → b.toNat % 16 = 0 → Issues i s op fm o (defers { op := 0x66, va := a, vb := b }))
    ∧ (op = 0x66 → (8 ≤ a.toNat ∨ 2 ^ 16 ≤ b.toNat ∨ b.toNat % 16 ≠ 0) → Trapped i s 0x07 0 (lineOff s.me.pc))
    ∧ (op = 0x67 → a.toNat < 4 → Issues i s op fm o (defers { op := 0x67, va := a, vb := fpCode b }))
    ∧ (op = 0x67 → 4 ≤ a.toNat → Trapped i s 0x07 0 (lineOff s.me.pc))

/-- The messages that wait for the thread's running task: on a control core's t7 those of the context that it runs in
(R366). -/
def Sys2Proof.Spec.mail (s : State) : List Mbx := s.me.mbx.filter fun m => !(s.curThr == 7 && isCC s.curCore) || m.ctx == s.me.ctx

/-- Tier 2. Status reads (R161, R164, R172, R206, R211, R214, R223, R229, R233, R236): ROLE, MBOXQ, POISQ, SLTR, SHGET,
TQRY, QSTAT, SPSTAT, LSTAT and NSTAT leave one result due, every field of it as the rules name it and its other bits
zero; an entry number above 63 traps 0x50 with sub-code 3, a selector that SPSTAT does not have 0x07. -/
def Obligations.StatusReads : Prop :=
  ∀ (i : Instr) (s : State) (op : Nat) (fm : Form) (o : Opnd) (a b c : Word), i.view = some (op, fm, o) →
    s.Ready op fm o a b c →
    let k := s.core s.curCore
    let cl := s.clu (clusterOf s.curCore)
    let answers (n : Nat) : Prop := Issues i s op fm o (gLong o.d (BitVec.ofNat 64 n))
    let queued := (SMap.get [] 2 k.q).any fun e => ladleTag e == a.toNat % 128
    let held := cl.ladle.filter fun r => r.e.core == s.curCore && ladleTag r.e == a.toNat % 128
    let mine := (SMap.get [] o.a k.comps).filter fun w => w.thr == s.curThr
    let reqs := (s.die (dieOf s.curCore)).net.filter fun r => r.e.core == s.curCore && !r.ended
    let posts := (reqs.filter fun r => r.op == 2 && !r.posted).length + ((SMap.get [] 4 k.q).filter fun e => e.op == 0xE9).length
    (op = 0x65 → answers (if isCC s.curCore then 0 else (s.roleOf s.curCore).toNat))
    ∧ (op = 0x68 → ∃ v : Word, Issues i s op fm o (gLong o.d v) ∧ v.toNat % 32 = (mail s).length % 32
        ∧ (∀ n, 5 ≤ n → n < 16 → v.getLsbD n = false)
        ∧ (∀ n, n < 16 → (v.getLsbD (n + 16) = true ↔ ∃ m ∈ mail s, m.reg = n))
        ∧ ((∀ m ∈ mail s, m.reg < 16) → ∀ n, 32 ≤ n → v.getLsbD n = false))
    ∧ (op = 0x69 → ∃ v : Word, Issues i s op fm o (gLong o.d v)
        ∧ ∀ n, v.getLsbD n = (decide (1 ≤ n ∧ n < 16) && s.me.poison.getLsbD n))
    ∧ (op = 0x79 → (63 < a.toNat → Trapped i s 0x50 3 a)
        ∧ (a.toNat < 32 → answers ((k.active[a.toNat]?).getD 0#16).toNat)
        ∧ (32 ≤ a.toNat → a.toNat ≤ 63 → answers ((k.shadow[a.toNat - 32]?).getD 0#16).toNat))
    ∧ (op = 0xC3 → answers ((k.shape o.a).toNat / 2 ^ (o.m % 512) % 2 ^ ((widthCode (o.m / 512 % 16)).getD 0)))
    ∧ (op = 0xC8 → ∀ n, (s.iss op fm o a b c).tileNo = .ok n →
        let own := match (cl.tile n).own with
          | .free => 0
          | .ctx x => if x = s.me.ctx then 1 else 3
          | .eng x => if x = s.me.ctx then 2 else 3
        answers ((cl.sched.filter fun j => j.tiles.contains n).length * 2 ^ 8 + (if own = 3 then 0 else (cl.tile n).tag) * 2 ^ 4 + own))
    ∧ (op = 0xCB →
        (o.a < 5 → answers ((SMap.get [] o.a k.q).length % 32))
        ∧ (5 ≤ o.a → answers ((mine.filter fun w => w.word.isSome).length % 64 + (mine.filter fun w => w.word.isNone).length % 64 * 2 ^ 8)))
    ∧ (op = 0xD9 →
        (a = 0 → answers (((SMap.get [] 1 k.q).length + (cl.trel.win.filter fun w => w.e.core == s.curCore).length) % 32))
        ∧ (a = 1 → answers (cl.trel.win.length % 64))
        ∧ (∀ n, n < 8192 → a = BitVec.ofNat 64 (0x10000 + n) →
            answers ((SMap.get 0#32 n (cl.trel.image s.me.ctx).val).toNat * 2 ^ 32
              + if SMap.get false n (cl.trel.image s.me.ctx).full = true then 1 else 0))
        ∧ (a ≠ 0 → a ≠ 1 → (a.toNat < 0x10000 ∨ 0x12000 ≤ a.toNat) → Trapped i s 0x07 0 (lineOff s.me.pc)))
    ∧ (op = 0xE3 →
        (queued = true → answers (2 ^ 60))
        ∧ (queued = false → held = [] → answers 0)
        ∧ (queued = false → ∀ r, held.getLast? = some r → answers (r.prog % 2 ^ 41 + 2 ^ 60
            + match r.ended with | .running => 0 | .done => 2 ^ 63 | .err _ => 2 ^ 62 | .cancelled => 2 ^ 61)))
    ∧ (op = 0xEF → answers ((reqs.length + (SMap.get [] 4 k.q).length) % 256 + posts % 256 * 2 ^ 8))

/-- Tier 2. Tasks, barriers and the slot table (R166 to R175, R238): DQPUSH, SPAWN, DQPOP, GLNCH, WIDF, BARA, BARW, BAR,
SLTW, CBWAIT and CCWAIT at issue: the slot or record that a deque operation claims, the record's reads, the level's
arrival and wait; an index, an entry or a level out of range traps. -/
def Obligations.TasksIssue : Prop :=
  ∀ (i : Instr) (s : State) (op : Nat) (fm : Form) (o : Opnd) (a b c : Word), i.view = some (op, fm, o) →
    s.Ready op fm o a b c →
    let k := s.core s.curCore
    let h := (s.launch s.me.lid).hdr
    let n := o.m % 8
    ((op = 0x70 ∨ op = 0x72) →
      (64 ≤ k.deque.length + k.dqSlots → Trapped i s 0x51 0 a)
      ∧ (k.deque.length + k.dqSlots < 64 → ∀ q, Passes s a 32 8 0 q →
          Issues i s op fm o
            { res := [dueLoad .none (.record op) none { q with side := false } a ((List.range 4).map fun j => { loc := q.loc + 8 * j, size := 8 })]
              defs := [{ op := op, va := a }], undo := [.slot]
              st := some (s.opened.modCore s.curCore fun w => { w with dqSlots := w.dqSlots + 1 }) }))
    ∧ (op = 0x71 → ∀ q, PassesW s a 32 8 1 q →
      (k.topRec = none → Issues i s op fm o { res := valRes o.d 0 })
      ∧ (∀ r, k.topRec = some r → Issues i s op fm o
          { res := valRes o.d 1
            defs := [{ op := 0x71, va := a, locs := locs q.loc 32, data := r.task.bytes, hnds := [q.hnd], chk := [(a, 32, 8, 1)]
                       st := r.id, views := r.views }]
            undo := [.record r.id]
            st := some (s.opened.modCore s.curCore fun w =>
              { w with deque := w.deque.map fun y => if y.id = r.id then { y with res := s.curThr + 1 } else y }) }))
    ∧ (op = 0x73 → ∀ q, Passes s a 64 8 0 q → Issues i s op fm o
        { res := [dueLoad (gDest o.d) (.record op) none { q with side := false } a ((List.range 8).map fun j => { loc := q.loc + 8 * j, size := 8 })]
          defs := [{ op := op, va := a }], st := some s.opened })
    ∧ (op = 0x74 → mbit o 3 = false →
      (hdrLevels h ≤ n → Trapped i s 0x07 0 (lineOff s.me.pc))
      ∧ (n < hdrLevels h → ∃ v : Word, Issues i s op fm o (gResult o.d v)
          ∧ v.toNat = s.me.wid.toNat / 2 ^ hdrLo h n % 2 ^ hdrWidth h n))
    ∧ (op = 0x74 → mbit o 3 = true →
      ((n = 0 ∨ hdrLevels h < n) → Trapped i s 0x07 0 (lineOff s.me.pc))
      ∧ (n ≠ 0 → n ≤ hdrLevels h → ∃ v : Word, Issues i s op fm o (gResult o.d v) ∧ v.toNat = s.me.wid.toNat / 2 ^ hdrLo h (n - 1)))
    ∧ ((op = 0x75 ∨ op = 0x76 ∨ op = 0x77) → o.d ≠ 0 → hdrLevels h < o.d → Trapped i s 0x52 1 (BitVec.ofNat 64 o.d))
    ∧ ((op = 0x75 ∨ op = 0x76 ∨ op = 0x77) → o.d ≠ 0 → o.d ≤ hdrLevels h →
        hdrGpg h * hdrTpg h % hdrGroup h o.d ≠ 0 → hdrGroup h 0 ≠ hdrGpg h * hdrTpg h → Trapped i s 0x52 2 (BitVec.ofNat 64 o.d))
    ∧ ((op = 0x75 ∨ op = 0x76 ∨ op = 0x77) → (o.d = 0 ∨ (o.d ≤ hdrLevels h
        ∧ (hdrGpg h * hdrTpg h % hdrGroup h o.d = 0 ∨ hdrGroup h 0 = hdrGpg h * hdrTpg h))) →
        Issues i s op fm o
          { defs := if op = 0x76 then [] else [{ op := 0x75, rd := o.d }], post := if op = 0x75 then none else some (.bar o.d) })
    ∧ (op = 0x78 →
      (31 < a.toNat → Trapped i s 0x50 3 a)
      ∧ (a.toNat ≤ 31 → (2 ^ 16 ≤ b.toNat ∨ b.toNat / 256 % 128 ≠ 0 ∨ (b.toNat / 2 ^ 15 % 2 = 0 ∧ b.toNat / 8 % 32 ≠ 0)) →
          Trapped i s 0x50 4 a)
      ∧ (a.toNat ≤ 31 → b.toNat < 2 ^ 16 → b.toNat / 256 % 128 = 0 → (b.toNat / 2 ^ 15 % 2 = 1 ∨ b.toNat / 8 % 32 = 0) →
          Issues i s op fm o (defers { op := 0x78, va := a, vb := b })))
    ∧ (op = 0x7C → ∀ q, Passes s a 32 32 0 q → Issues i s op fm o
        { res := [{ pos := 0, dest := .none, val := .cbwait (mbit o 0), parts := [{ loc := q.loc, size := 32 }], hnd := q.hnd, ptr := a }] })
    ∧ (op = 0xEC → ∀ q, Passes s a 8 8 3 q → Issues i s op fm o
        { res := [{ pos := 0, dest := .none, val := .ccwait (b.toNat % 2 ^ 49), parts := [{ loc := q.loc, size := 8 }], hnd := q.hnd, ptr := a }] })

/-! ### Rows 8 to B -/

/-- A result of an adder or a multiplier is compared with its rind in F32 or F64 (R90, log entry 107). -/
def Sys2Proof.Spec.ringed (op : Nat) (o : Opnd) (l : List LRes) : List LRes :=
  if op ≤ 0x83 then l.map fun e => { e with fmt := if mbit o 0 then 12 else 11 } else l

/-- The number that a row-8 instruction delivers in F32 or F64, with its flags: the arithmetic of R180, FCLS's sign
(R183), and DEC8's element (R185). -/
def Sys2Proof.Spec.floatOf (s : State) (op : Nat) (o : Opnd) (a b c : Word) : Nat × Nat :=
  let f := fmtOf8 o
  let k := s.core s.curCore
  let top := f.width - 1
  if op = 0x8A then
    let neg := match o.m / 2 % 4 with
      | 0 => false
      | 1 => !a.getLsbD top
      | 2 => b.getLsbD top
      | _ => a.getLsbD top ^^ b.getLsbD top
    (a.toNat % 2 ^ top + (if neg = true then 2 ^ top else 0), 0)
  else if op = 0x8D then
    let w := t8Word k.dtab (a.toNat % 256)
    (if mbit o 0 = false then w
     else if (fmtF32.decode w).isNaN then w / 2 ^ 31 * 2 ^ 63 + 2047 * 2 ^ 52 + w % 2 ^ 23 * 2 ^ 29
     else (fmtF64.round .rne (fmtF32.decode w)).1, 0)
  else
    let rm := if op = 0x86 ∨ op = 0x87 then RM.rne else RM.of k.frm.toNat
    let e := exactOf op rm (fval f a) (fval f b) (fval f c)
    let r := f.round rm e.1
    (r.1, e.2 ||| r.2)

/-- Tier 2. Floating arithmetic (R179, R180): FADD, FSUB, FMUL, FFMA, FDIV, FSQRT, FMIN and FMAX leave due the exact
result rounded once into F32 or F64 under FRM, with its flags for FXF; a single result fills bits 31:0, the rest zero.
FMIN and FMAX round nothing. What an adder or a multiplier formed is marked with its format, in which its rind is
compared (R90; that these are FADD, FSUB, FMUL and FFMA is the model's reading, log entry 107). A subnormal result with
assists on is the next statement's. -/
def Obligations.FloatResults : Prop :=
  ∀ (i : Instr) (s : State) (op : Nat) (fm : Form) (o : Opnd) (a b c : Word), i.view = some (op, fm, o) →
    s.Ready op fm o a b c → (0x80 ≤ op ∧ op ≤ 0x87) →
    let f := fmtOf8 o
    let rm := if op = 0x86 ∨ op = 0x87 then RM.rne else RM.of (s.core s.curCore).frm.toNat
    let e := exactOf op rm (fval f a) (fval f b) (fval f c)
    let r := f.round rm e.1
    ((s.core s.curCore).am && f.subnormal r.1) = false →
    Issues i s op fm o { res := ringed op o (valRes o.d (BitVec.ofNat 64 r.1)), fx := e.2 ||| r.2 }

/-- Tier 2. Subnormal assists (R72, R73): with AM set, a subnormal result of row 8's arithmetic, of FCLS or of DEC8 is not
delivered. The thread's assist record is written, unless an earlier trap of the group or another assist of the thread
stands, and the group traps 0x31 with the record's address (with sub-code 1, the model's own mark, where it has to wait for
that other assist); once the handler has answered for that place in the group, the answer is the result. -/
def Obligations.SubnormalAssists : Prop :=
  ∀ (i : Instr) (s : State) (op : Nat) (fm : Form) (o : Opnd) (a b c : Word), i.view = some (op, fm, o) →
    s.Ready op fm o a b c → ((0x80 ≤ op ∧ op ≤ 0x87) ∨ op = 0x8A ∨ op = 0x8D) → (s.core s.curCore).am = true →
    let r := floatOf s op o a b c
    (fmtOf8 o).subnormal r.1 = true →
    (∀ n v, s.me.answers.find? (fun w => w.1 == s.me.grp.n) = some (n, v) →
      Issues i s op fm o { res := ringed op o (valRes o.d v), fx := r.2 })
    ∧ (s.me.answers.find? (fun w => w.1 == s.me.grp.n) = none → ∃ t rec, exec i s = .next t
        ∧ (t.thr s.curCore s.curThr).grp.trap = some (s.me.grp.trap.getD
            { pos := s.me.grp.n, pc := s.me.pc, cause := 0x31, sub := if s.me.assist.isSome = true then 1 else 0
              info := assistPtr s.curCore s.curThr })
        ∧ rec.length = 64 ∧ rec.headD 0#8 = BitVec.ofNat 8 op
        ∧ t.mem = (if s.me.grp.trap.isSome = true ∨ s.me.assist.isSome = true then s else s.poke (locObj oidAssist (assistOff s.curCore s.curThr)) rec).mem)

/-- Tier 2. The special cases of R180, at F32 and F64: division by zero, invalid operations, square roots of −0 and below
zero, and the sign of an exact zero sum. -/
def Obligations.FloatSpecialCases : Prop :=
  ∀ (f : Fmt) (rm : RM), (f = fmtF32 ∨ f = fmtF64) →
    let res (r : Machine.Num × Nat) : Nat × Nat := ((f.round rm r.1).1, r.2 ||| (f.round rm r.1).2)
    (∀ n m e k, m ≠ 0 → res (Machine.Num.div (.fin n m e false) (.zero k)) = (f.infinity (n != k), flDZ))
    ∧ (∀ n k, res (Machine.Num.div (.zero n) (.zero k)) = (f.qnan, flNV) ∧ res (Machine.Num.div (.inf n) (.inf k)) = (f.qnan, flNV))
    ∧ (∀ n, res (Machine.Num.add rm (.inf n) (.inf (!n))) = (f.qnan, flNV))
    ∧ (∀ n k, res (Machine.Num.mul (.zero n) (.inf k)) = (f.qnan, flNV) ∧ res (Machine.Num.mul (.inf k) (.zero n)) = (f.qnan, flNV))
    ∧ res (Machine.Num.sqrt (.zero true)) = (f.signBit true, 0)
    ∧ (∀ m e, m ≠ 0 → res (Machine.Num.sqrt (.fin true m e false)) = (f.qnan, flNV)) ∧ res (Machine.Num.sqrt (.inf true)) = (f.qnan, flNV)
    ∧ (∀ m e, m ≠ 0 → res (Machine.Num.add rm (.fin false m e false) (.fin true m e false)) = (f.signBit (rm == .rd), 0))
    ∧ (∀ n, res (Machine.Num.add rm (.zero n) (.zero n)) = (f.signBit n, 0))

/-- Tier 2. A value that a format holds rounds to itself, in every mode and without a flag, and a NaN to the canonical
NaN (R65, R67, R70): for F16, BF16, F32 and F64, at every word. -/
def Obligations.RoundingKeepsRepresentable : Prop :=
  ∀ (f : Fmt) (rm : RM) (w : Nat), (f = fmtF16 ∨ f = fmtBF16 ∨ f = fmtF32 ∨ f = fmtF64) → w < 2 ^ f.width →
    f.round rm (f.decode w) = if (f.decode w).isNaN then (f.qnan, 0) else (w, 0)

/-- Tier 2. The rest of row 8 (R76 to R78, R181 to R185): FCMP's predicate, FCVT, FCLS, ENC8 and DEC8, and FTLD's 256
word loads, whose table is installed at the commit. -/
def Obligations.FloatMovesAndTables : Prop :=
  ∀ (i : Instr) (s : State) (op : Nat) (fm : Form) (o : Opnd) (a b c : Word), i.view = some (op, fm, o) →
    s.Ready op fm o a b c →
    let f := fmtOf8 o
    let k := s.core s.curCore
    (op = 0x88 →
      Issues i s op fm o
        { res := if o.d % 8 = 0 then [] else
            [{ pos := 0, dest := .p o.d, val := .val (if fcmpIs (o.m / 2 % 8) (fval f a) (fval f b) then 1 else 0), done := true }]
          fx := if fcmpInvalid (o.m / 2 % 8) (fval f a) (fval f b) then flNV else 0 })
    ∧ (op = 0x89 →
      let src := o.m % 64
      let dst := o.m / 64 % 64
      let (r, fl) := fcvt src dst (RM.of k.frm.toNat) (a.toNat % 2 ^ fmtBits src)
      (flHas fl flSPOV = true → flHas k.vxe.toNat flSPOV = true → Trapped i s 0x33 0 0)
      ∧ (flHas fl flSPOV = false ∨ flHas k.vxe.toNat flSPOV = false →
          (k.am && (fmtIsFloat dst && (decide (11 ≤ dst) && (fmtOf dst).subnormal r))) = false →
          Issues i s op fm o { res := valRes o.d (BitVec.ofNat 64 (fcvtWrite dst r)), fx := fl }))
    ∧ (op = 0x8A ∨ op = 0x8D → (k.am && f.subnormal (floatOf s op o a b c).1) = false →
        Issues i s op fm o (gLong o.d (BitVec.ofNat 64 (floatOf s op o a b c).1)))
    ∧ (op = 0x8B → ∀ q, Passes s a 1024 64 0 q → Issues i s op fm o
        { res := [dueLoad .none (.record 0x8B) none { q with side := false } a ((List.range 256).map fun j => { loc := q.loc + 4 * j, size := 4 })]
          defs := [{ op := 0x8B }] })
    ∧ (op = 0x8C → Issues i s op fm o
        { res := valRes o.d (BitVec.ofNat 64 (t8Encode k.dtab (fval f a)).1), fx := (t8Encode k.dtab (fval f a)).2 })

/-- The checks that a vector operation passed, which a saved one passes again (R140, R187). -/
def Sys2Proof.Spec.vecChecks (op : Nat) (o : Opnd) (d a b : Word) (n e y z : Nat) : List (Word × Nat × Nat × Nat) :=
  let r := vecRow op (vecX op o.m)
  let size (k : VRole) : Nat := fmtSize (k.fmt e y z)
  [(r.d, 0, d, 1), (r.a, 1, a, 0), (r.b, 2, b, 0)].filterMap fun (k, w, p, right) =>
    if k.isPtr && k != .base then some (p, vecSpan op (vecX op o.m) w p n (size k), size k, right) else none

/-- Tier 2. Vector operations (R186 to R200): each of the 42 operations of rows 9 to B that read memory resolves its
formats, checks its whole operands, leaves its post-increments due, and defers one operation with the values of its
registers and the rounding mode in force; nothing is read or written at issue. -/
def Obligations.VectorOpsIssue : Prop :=
  ∀ (i : Instr) (s : State) (op : Nat) (fm : Form) (o : Opnd) (a b c d : Word) (e y z : Nat) (kd ka kb : Ok)
    (bd ba bb : List LRes), i.view = some (op, fm, o) → s.Ready op fm o a b c →
    (0x90 ≤ op ∧ op ≤ 0xBB ∧ op ≠ 0xB0 ∧ op ≠ 0xB1) → Holds s o.d d →
    let r := vecRow op (vecX op o.m)
    let j := s.iss op fm o a b c
    let size (k : VRole) : Nat := fmtSize (k.fmt e y z)
    vecFmts op o.m d a b = .ok (e, y, z) → ¬ (op = 0xAD ∧ vecX op o.m = 4 ∧ fmtIsInt e = true) →
    vecBadBlg op o.m d a b e y z = none →
    SpanOk j r.d 0 d (size r.d) r.rw true kd → SpanOk j r.a 1 a (size r.a) true false ka → SpanOk j r.b 2 b (size r.b) true false kb →
    BumpOk j (vecPI op o.m).1 o.d 0 d (size r.d) bd → BumpOk j (vecPI op o.m).2.1 o.a 1 a (size r.a) ba →
    BumpOk j (vecPI op o.m).2.2 o.b 2 b (size r.b) bb →
    Issues i s op fm o
      { res := bd ++ ba ++ bb
        defs := [{ op := op, m := o.m, rd := o.d, vd := d, va := a, vb := b, vc := c, locs := [kd.loc, ka.loc, kb.loc]
                   hnds := [kd.hnd, ka.hnd, kb.hnd], chk := vecChecks op o d a b c.toNat e y z
                   rm := (s.core s.curCore).frm.toNat % 4 }] }

/-- Tier 2. Vector operations that trap at issue (R187, R188): formats that clash, are missing, reserved or not accepted
trap 0x15, a span above 65,536 bytes traps 0x07 with sub-code 9. -/
def Obligations.VectorOpsTrap : Prop :=
  ∀ (i : Instr) (s : State) (op : Nat) (fm : Form) (o : Opnd) (a b c d : Word), i.view = some (op, fm, o) →
    s.Ready op fm o a b c → (0x90 ≤ op ∧ op ≤ 0xBB ∧ op ≠ 0xB0 ∧ op ≠ 0xB1) → Holds s o.d d →
    (∀ sub p, vecFmts op o.m d a b = .error (sub, p) → Trapped i s 0x15 sub p)
    ∧ (∀ e y z, vecFmts op o.m d a b = .ok (e, y, z) → ¬ (op = 0xAD ∧ vecX op o.m = 4 ∧ fmtIsInt e = true) →
        (∀ p, vecBadBlg op o.m d a b e y z = some p → Trapped i s 0x15 3 p)
        ∧ (vecBadBlg op o.m d a b e y z = none →
            let r := vecRow op (vecX op o.m)
            (r.d.isPtr = true ∧ r.d ≠ .base ∧ 65536 < vecSpan op (vecX op o.m) 0 d c.toNat (fmtSize (r.d.fmt e y z))) →
            Trapped i s 0x07 9 (lineOff s.me.pc)))

/-- Tier 2. The lane grant (R197): VCLAIM takes the request, rounded up to eights, as far as lanes are free, and its
grant changes at commit; VREL is a deferred effect. -/
def Obligations.LanesIssue : Prop :=
  ∀ (i : Instr) (s : State) (op : Nat) (fm : Form) (o : Opnd) (a b c : Word), i.view = some (op, fm, o) →
    s.Ready op fm o a b c →
    let want := if mbit o 4 then a.toNat else 8 * (o.m % 16)
    (op = 0xB0 → ∃ g, g = min (min 64 ((want + 7) / 8 * 8)) (s.freeLanes s.curCore)
        ∧ Issues i s op fm o { res := valRes o.d (BitVec.ofNat 64 g), undo := [.grant g] })
    ∧ (op = 0xB1 → Issues i s op fm o (defers { op := 0xB1 }))

/-! ### Rows C to F -/

/-- Tier 2. Shape registers and tiles (R207, R211, R214, R215): SHSET's buffered field, whose kind is checked at issue
unless an SHLD of the group has still to load the register; TOWN's claim at issue, whose answer waits for a tile that is
being filled, or its release at commit; TGIVE and TTAG; a tile of another context traps 0x20, and so does one handed over before in the group. -/
def Obligations.TilesIssue : Prop :=
  ∀ (i : Instr) (s : State) (op : Nat) (fm : Form) (o : Opnd) (a b c : Word) (n : Nat), i.view = some (op, fm, o) →
    s.Ready op fm o a b c →
    let j := s.iss op fm o a b c
    let cl := clusterOf s.curCore
    let t := (s.clu cl).tile n
    let mine := s.opened.ownsTile cl s.me.ctx n
    let rel := fm == .t4 && mbit o 7
    (op = 0xC2 →
      let lo := o.m % 512
      let w := (widthCode (o.m / 512 % 16)).getD 0
      let bad : Prop := lo < 4 ∧ 5 ≤ shBits (shPut (s.me.grp.shapeAfter o.d ((s.core s.curCore).shape o.d)) lo w a.toNat) 0 4
      let waits := s.me.grp.res.any fun r =>
        r.dest == .sh o.d && !r.ret && (match r.val with | .load .. => true | _ => false)
      ((¬ bad ∨ waits = true) → Issues i s op fm o { res := [{ pos := 0, dest := .sh o.d, val := .field lo w a.toNat, done := true }] })
      ∧ (bad → waits = false → Trapped i s 0x07 10 (lineOff s.me.pc)))
    ∧ ((op = 0xC4 ∨ op = 0xC5 ∨ op = 0xC6) → j.tileNo = .ok n →
      ((op ≠ 0xC4 ∨ rel = true) → mine = false → Trapped i s 0x20 0 (tilePtr n))
      ∧ (op = 0xC4 → rel = true → mine = true → Issues i s op fm o { defers { op := 0xC4, va := BitVec.ofNat 64 n } with res := valRes o.d 1 })
      ∧ (op = 0xC4 → rel = false → (t.own = .free ∨ t.own = .ctx s.me.ctx) → Issues i s op fm o
          { res := if t.filling = true then [{ pos := 0, dest := gDest o.d, val := .claim n }] else valRes o.d 1
            undo := if t.own = .free then [.tile n] else []
            st := some (s.opened.modClu cl fun k => k.setTile n { t with own := .ctx s.me.ctx }) })
      ∧ (op = 0xC4 → rel = false → t.own ≠ .free → t.own ≠ .ctx s.me.ctx → Issues i s op fm o { res := valRes o.d 0 })
      ∧ (op = 0xC5 → mine = true → n ∉ j.given →
          Issues i s op fm o { defers { op := 0xC5, va := BitVec.ofNat 64 n } with given := [n] })
      ∧ (op = 0xC5 → mine = true → n ∈ j.given → Trapped i s 0x20 0 (tilePtr n))
      ∧ (op = 0xC6 → mine = true →
          Issues i s op fm o (defers { op := 0xC6, va := BitVec.ofNat 64 n, vb := BitVec.ofNat 64 (o.m / 128 % 16) })))

/-- Tier 2. Engine commands (R204, R208, R209, R217, R225, R231, R234, R235): TTASK, SPLD, SPST, SPUP, SPDN, SPMAX,
SPCVT, SPCLR, SPWLD, SPGST, LCOPY, LFILL, PRRED, PRBC, PRAR, PRAG, NSEND, NPOST, RWRITE and RREAD make their checks at
issue and defer one command that carries the values of their registers and their shape register. -/
def Obligations.CommandsIssue : Prop :=
  ∀ (i : Instr) (s : State) (op : Nat) (fm : Form) (o : Opnd) (a b c v : Word), i.view = some (op, fm, o) →
    s.Ready op fm o a b c →
    let k := s.core s.curCore
    let j := s.iss op fm o a b c
    let cmd (v : Word) (sreg : Nat) : Cmd := { op := op, m := o.m, vd := v, va := a, vb := b, vc := c, sreg := sreg }
    let n := c.toNat
    (op = 0xC7 → ∀ q, Passes s a 128 64 0 q →
        Issues i s op fm o (defers { (cmd 0 o.d).eff with locs := [q.loc], hnds := [q.hnd], chk := [(a, 128, 64, 0)] }))
    ∧ (op = 0xD2 ∨ op = 0xD3 ∨ op = 0xD4 →
      (∀ sub, spBad (k.shape o.d) = some sub → Trapped i s 0x62 sub 0)
      ∧ (spBad (k.shape o.d) = none → Issues i s op fm o (defers { (cmd 0 o.d).eff with sh := k.shape o.d })))
    ∧ (op = 0xD0 ∨ op = 0xD1 ∨ op = 0xD5 ∨ op = 0xD6 ∨ op = 0xD7 ∨ op = 0xD8 →
      ((n = 0 ∨ 8192 < b.toNat + n) → Trapped i s 0x62 5 0)
      ∧ (0 < n → b.toNat + n ≤ 8192 →
        (op = 0xD5 ∨ op = 0xD6 → Issues i s op fm o (defers (cmd 0 o.d).eff))
        ∧ (op ≠ 0xD5 → op ≠ 0xD6 → ∀ q,
            j.span (fpCode a) (n * spElem op o.m) (spElem op o.m) (op != 0xD1 && op != 0xD8) (op == 0xD1 || op == 0xD8) = .ok q →
            q.np = none →
            Issues i s op fm o (defers { (cmd 0 o.d).eff with
              locs := [q.loc], hnds := [q.hnd]
              chk := [(fpCode a, n * spElem op o.m, spElem op o.m, if op = 0xD1 ∨ op = 0xD8 then 1 else 0)] }))))
    ∧ (op = 0xE0 ∨ op = 0xE1 → Holds s o.d v → (op = 0xE0 → HandleOk s a 0) → HandleOk s v 1 →
      let str := mbit o 4
      let sh := k.shape (o.m % 16)
      let total := if str then k4Total sh else b.toNat
      (total ≤ 2 ^ 40 → (str = true → k4Bad sh = false) → Issues i s op fm o
        (defers { (cmd v (o.m % 16)).eff with vb := BitVec.ofNat 64 total, sh := if str then sh else 0 }))
      ∧ (2 ^ 40 < total → Trapped i s 0x07 0 (lineOff s.me.pc))
      ∧ (total ≤ 2 ^ 40 → str = true → k4Bad sh = true → Trapped i s 0x65 1 0))
    ∧ (0xE4 ≤ op ∧ op ≤ 0xE7 → Holds s o.d v → ∀ q m, s.opened.checkHandle s.me.ctx c 64 64 4 = .ok q →
      (∃ w, (s.obj (locId q.loc)).kind = .press m w) → m ≠ 0 →
      let rank := fpOff c / 64
      let root := decide (b.toNat / 2 ^ 32 % 2 ^ 16 + 1 = rank)
      ((rank = 0 ∨ m < rank) → Trapped i s 0x11 0 c)
      ∧ (rank ≠ 0 → rank ≤ m → ((op ≠ 0xE5 ∨ root = true) → HandleOk s a 0) → ((op ≠ 0xE4 ∨ root = true) → HandleOk s v 1) →
          Issues i s op fm o (defers { (cmd v o.d).eff with rd := rank - 1, hnds := [q.hnd], locs := [q.loc], chk := [(c, 64, 64, 4)] })))
    ∧ (0xE8 ≤ op ∧ op ≤ 0xEB →
      (fpOff a % 64 ≠ 0 → Trapped i s 0x16 0 a)
      ∧ (fpOff a % 64 = 0 → (fpHnd a ≠ 0 ∨ 0x30000 ≤ fpOff a) → Trapped i s 0x70 0x40 a)
      ∧ (fpOff a % 64 = 0 → fpHnd a = 0 → fpOff a < 0x30000 → ∀ q, Passes s a 64 64 0 q →
          Issues i s op fm o
            { res := [dueLoad .none (.record op) none { q with side := false, hnd := 0 } a ((List.range 8).map fun x => { loc := q.loc + 8 * x, size := 8 })]
              defs := [(cmd 0 o.d).eff] }))

/-- Tier 2. The queue instructions (R206, R233): QPUSH reads its record, QPOP takes the thread's oldest completion that no
earlier QPOP of its group takes, or parks with reason 0x06, and LCANCEL is a deferred effect. -/
def Obligations.QueueOpsIssue : Prop :=
  ∀ (i : Instr) (s : State) (op : Nat) (fm : Form) (o : Opnd) (a b c : Word), i.view = some (op, fm, o) →
    s.Ready op fm o a b c →
    (op = 0xC9 → 4 < o.d → Trapped i s 0x07 11 (lineOff s.me.pc))
    ∧ (op = 0xC9 → o.d ≤ 4 → ∀ q, Passes s a 64 64 0 q → Issues i s op fm o
        { res := [dueLoad .none (.record op) none { q with side := false } a ((List.range 8).map fun x => { loc := q.loc + 8 * x, size := 8 })]
          defs := [{ op := op, rd := o.d, va := a }] })
    ∧ (op = 0xCA →
      let taken (w : Comp) : Bool := s.me.grp.res.any fun r => r.op == 0xCA && r.ptr.toNat == o.a && r.seq == w.seq
      let next := (SMap.get [] o.a (s.core s.curCore).comps).find? fun w => w.thr == s.curThr && w.word.isSome && !taken w
      (∀ w, next = some w → Issues i s op fm o
          { res := [{ pos := 0, dest := gDest o.d, val := .val (w.word.getD 0), done := true, ptr := BitVec.ofNat 64 o.a, seq := w.seq }] })
      ∧ (next = none → s.me.st ≠ 2 → ∃ t, exec i s = .next t ∧ s.OnlyThread t s.curCore s.curThr
          ∧ (t.thr s.curCore s.curThr).st = 2 ∧ (t.thr s.curCore s.curThr).prsn = 0x06
          ∧ (t.thr s.curCore s.curThr).pc = s.me.pc))
    ∧ (op = 0xE2 → Issues i s op fm o (defers { op := 0xE2, va := a }))

/-- Tier 2. Names and the system (R243 to R260): WALK, OPEN, CLOSE, BIND, UNBIND, REVOKE, TRET, PMACK, TSHOOT, SSTOP,
PARTW, HALT and ATTQ check their operands and leave their effect to the commit. -/
def Obligations.SystemIssue : Prop :=
  ∀ (i : Instr) (s : State) (op : Nat) (fm : Form) (o : Opnd) (a b c : Word), i.view = some (op, fm, o) →
    s.Ready op fm o a b c →
    (op = 0xF0 → Issues i s op fm o (defers { op := 0xF0, rd := o.d, va := a, vb := b, n := fm == .t4 && o.b != 0 }))
    ∧ (op = 0xF1 → Issues i s op fm o (defers { op := 0xF1, m := o.m % 256, rd := o.d, va := a, vb := b }))
    ∧ (op = 0xF2 → Issues i s op fm o (defers { op := 0xF2, va := a }))
    ∧ (op = 0xF3 → Issues i s op fm o (defers { op := 0xF3, m := o.m % 32, va := a, vb := b }))
    ∧ (op = 0xF4 → Issues i s op fm o (defers { op := 0xF4, va := a, vb := b }))
    ∧ (op = 0xF5 → mbit o 0 = false → fpHnd a = 0 → Trapped i s 0x13 2 a)
    ∧ (op = 0xF5 → mbit o 0 = false → fpHnd a ≠ 0 → (s.desc s.me.ctx (fpHnd a)).st ≠ .invalid →
        Issues i s op fm o (defers { op := 0xF5, va := a, vb := BitVec.ofNat 64 (fpHnd a), vc := BitVec.ofNat 64 s.me.ctx }))
    ∧ (op = 0xF5 → mbit o 0 = false → fpHnd a ≠ 0 → (s.desc s.me.ctx (fpHnd a)).st = .invalid → Trapped i s 0x13 0 a)
    ∧ (op = 0xF5 → mbit o 0 = true → (2 ^ 13 ≤ a.toNat ∨ 2 ^ 12 ≤ b.toNat) → Trapped i s 0x07 0 (lineOff s.me.pc))
    ∧ (op = 0xF5 → mbit o 0 = true → a = 0 → b.toNat < 2 ^ 12 → Trapped i s 0x13 2 a)
    ∧ (op = 0xF5 → mbit o 0 = true → a.toNat < 2 ^ 13 → b.toNat < 2 ^ 12 → a.toNat ≠ 0 →
        s.opened.domOf s.curCore s.curThr = 1 → (s.ctx b.toNat).owner ≠ s.me.ctx → Trapped i s 0x06 1 (lineOff s.me.pc))
    ∧ (op = 0xF5 → mbit o 0 = true → a.toNat < 2 ^ 13 → b.toNat < 2 ^ 12 → a.toNat ≠ 0 →
        (s.opened.domOf s.curCore s.curThr = 1 → (s.ctx b.toNat).owner = s.me.ctx) → (s.desc b.toNat a.toNat).st = .invalid →
        Trapped i s 0x13 0 a)
    ∧ (op = 0xF5 → mbit o 0 = true → a.toNat < 2 ^ 13 → b.toNat < 2 ^ 12 → a.toNat ≠ 0 →
        (s.opened.domOf s.curCore s.curThr = 1 → (s.ctx b.toNat).owner = s.me.ctx) → (s.desc b.toNat a.toNat).st ≠ .invalid →
        Issues i s op fm o (defers { op := 0xF5, va := a, vb := a, vc := b }))
    ∧ (op = 0xF8 →
      (∀ d t, tretTarget s.curCore a = some (d, t) →
        Issues i s op fm o (defers { op := 0xF8, m := o.m % 4, va := BitVec.ofNat 64 (d * 8 + t), vb := b }))
      ∧ (tretTarget s.curCore a = none → Trapped i s 0x07 0 (lineOff s.me.pc)))
    ∧ (op = 0xF9 → a.toNat < 2 ^ 32 → Issues i s op fm o (defers { op := 0xF9, va := a }))
    ∧ (op = 0xF9 → 2 ^ 32 ≤ a.toNat → Trapped i s 0x07 0 (lineOff s.me.pc))
    ∧ (op = 0xFA → let n := if mbit o 3 then 16 else 32
        ∀ q, Passes s a n n 1 q → Issues i s op fm o
          (defers { op := 0xFA, m := o.m, va := a, locs := [q.loc], hnds := [q.hnd], chk := [(a, n, n, 1)] }))
    ∧ (op = 0xFB → mbit o 0 = false → 64 ≤ a.toNat → Trapped i s 0x07 0 (lineOff s.me.pc))
    ∧ (op = 0xFB → (mbit o 0 = true ∨ a.toNat < 64) → Issues i s op fm o (defers { op := 0xFB, m := o.m % 2, va := a, vb := b }))
    ∧ (op = 0xFC → Issues i s op fm o (defers { op := 0xFC, va := a, vb := b }))
    ∧ (op = 0xFD → Issues i s op fm o (defers { op := 0xFD }))
    ∧ (op = 0xFE → ∀ q, Passes s a 64 64 0 q → Issues i s op fm o
        { res := [dueLoad .none (.record op) none { q with side := false } a ((List.range 8).map fun x => { loc := q.loc + 8 * x, size := 8 })]
          defs := [{ op := op, va := a }], st := some s.opened })

/-- Tier 2. Control and status registers (R29, R252 to R254): CSRR reads every register of the table, CSRW leaves the write
of its writable field to the commit; a number without a register traps 0x07 with sub-code 12, a register that the thread
may not write 0x06 with sub-code 4, a reserved bit 0x07. -/
def Obligations.CsrAccess : Prop :=
  ∀ (i : Instr) (s : State) (op : Nat) (fm : Form) (o : Opnd) (a b c : Word), i.view = some (op, fm, o) →
    s.Ready op fm o a b c →
    let n := o.m % 1024
    let k := s.core s.curCore
    let x := s.me
    (op = 0xF6 ∨ op = 0xF7 → 16 ≤ n → Trapped i s 0x07 12 (lineOff s.me.pc))
    ∧ (op = 0xF6 → n < 16 → ∃ v : Word, Issues i s op fm o (gLong o.d v)
        ∧ (n = 0 → v = BitVec.ofNat 64
            (x.lcause % 256 * 2 ^ 24 + (if x.st = 2 then x.prsn else 0) * 2 ^ 16 + (if x.duo = true then 8 else 0) + x.st))
        ∧ (n = 1 → v = BitVec.ofNat 64 s.dtime) ∧ (n = 2 → v = BitVec.ofNat 64 s.cyc)
        ∧ (n = 3 → v = BitVec.ofNat 64 ((s.ctx x.ctx).dom * 2 + if k.am = true then 1 else 0))
        ∧ (n = 4 → v = k.frm) ∧ (n = 5 → v = k.fxf) ∧ (n = 6 → v = k.vxf) ∧ (n = 7 → v = k.vxe)
        ∧ (n = 8 → v = BitVec.ofNat 64 (s.ctx x.ctx).pmver) ∧ (n = 9 → v = BitVec.ofNat 64 s.wswin)
        ∧ (n = 10 → v.toNat = x.ctx % 2 ^ 12) ∧ (n = 11 → v = BitVec.ofNat 64 k.ptag)
        ∧ (n = 12 → v = BitVec.ofNat 64 (s.logical s.curCore)) ∧ (n = 13 → v = BitVec.ofNat 64 (s.curCore * 2 ^ 16 + s.curThr))
        ∧ (n = 14 → v.toNat = (s.clu (clusterOf s.curCore)).rctmo.toNat) ∧ (n = 15 → v = s.gage))
    ∧ (op = 0xF7 → n < 16 →
      (s.opened.csrMask s.curCore s.curThr n = none → Trapped i s 0x06 4 (lineOff s.me.pc))
      ∧ (∀ mask, s.opened.csrMask s.curCore s.curThr n = some mask →
          ((a &&& ~~~ BitVec.ofNat 64 (csrKnown n mask)) ≠ 0 → Trapped i s 0x07 0 (lineOff s.me.pc))
          ∧ ((a &&& ~~~ BitVec.ofNat 64 (csrKnown n mask)) = 0 → Issues i s op fm o
              (defers { op := 0xF7, m := o.m, va := a &&& BitVec.ofNat 64 mask, vb := BitVec.ofNat 64 mask }))))

/-! ### Every instruction of a core: its checks, its frame and the step around it -/

/-- Tier 2. The checks of R61 that come before an instruction's own, for every CPU instruction: a guard field of 8
traps 0x07 (R45); a false guard skips the instruction, which counts for its group and does nothing else (R45, R51);
then a bad form traps 0x07, and a missing privilege 0x06 with the sub-code of R162, R202, R241, R255 or R259. Every one
carries the byte offset of the head as g3, but for a field of BFX or BFI beyond bit 63, which carries 0 (R128; log entry
15). -/
def Obligations.ChecksBeforeIssue : Prop :=
  ∀ (i : Instr) (s : State) (op : Nat) (fm : Form) (o : Opnd), i.view = some (op, fm, o) →
    (badGuard o = true → Trapped i s 0x07 0 (lineOff s.me.pc))
    ∧ (badGuard o = false → s.me.guard o.pg = false →
        ∃ t, exec i s = .next t ∧ s.OnlyThread t s.curCore s.curThr
          ∧ (∀ n, (t.thr s.curCore s.curThr).gv n = s.me.gv n) ∧ (∀ n, (t.thr s.curCore s.curThr).pv n = s.me.pv n)
          ∧ (t.thr s.curCore s.curThr).grp = { s.me.grp with n := s.me.grp.n + 1 }
          ∧ (t.thr s.curCore s.curThr).pc = after s
          ∧ (t.thr s.curCore s.curThr).phase = if o.s then .marker else s.me.phase)
    ∧ (badGuard o = false → s.me.guard o.pg = true →
        (badForm op fm o = true →
          Trapped i s 0x07 0 (if (op = 0x2E ∨ op = 0x2F) ∧ 64 < o.m % 64 + (o.m / 64 % 64 + 1) then 0 else lineOff s.me.pc))
        ∧ ((op = 0x2E ∨ op = 0x2F) → (o.m % 64 + (o.m / 64 % 64 + 1) > 64 ∨ (op = 0x2F ∧ mbit o 12 = true)) → badForm op fm o = true)
        ∧ (badForm op fm o = false →
            ((op = 0x66 ∨ op = 0x67) → isCC s.curCore = false → Trapped i s 0x06 2 (lineOff s.me.pc))
            ∧ (isCC s.curCore = true → 0x90 ≤ op → op ≤ 0xEF → op ≠ 0xEC → op ≠ 0xED → op ≠ 0xEE →
                Trapped i s 0x06 3 (lineOff s.me.pc))
            ∧ (op = 0xFA → (s.ctx s.me.ctx).dom = 0 → Trapped i s 0x06 1 (lineOff s.me.pc))
            ∧ ((op = 0xFB ∨ op = 0xFC ∨ op = 0xFD) → (s.ctx s.me.ctx).dom ≠ 2 → Trapped i s 0x06 1 (lineOff s.me.pc))
            ∧ (op = 0xF5 → mbit o 0 = true → (s.ctx s.me.ctx).dom = 0 → Trapped i s 0x06 1 (lineOff s.me.pc))
            ∧ (op = 0xF8 → s.curThr ≠ 7 → Trapped i s 0x06 5 (lineOff s.me.pc))
            ∧ (op = 0xFD → (s.ctx s.me.ctx).dom = 2 → (s.core s.curCore).ptag ≠ 0 → Trapped i s 0x06 6 (lineOff s.me.pc))))

/-- Tier 2. The limits of a group, in the order of R61's check 8, for every CPU instruction that has passed the checks
before: the 33rd instruction traps 0x0C, a 17th group-buffer entry 0x0D sub 1, a ninth result-buffer entry 0x0D sub 2
(R51), a group-ending instruction without S 0x05 (R52), and a single-cycle write to a register that an earlier
instruction of the group has read, or that it marks itself, 0x04 with that register (R53). In a duo copy a restricted
opcode then traps 0x07 sub 8. -/
def Obligations.GroupLimits : Prop :=
  ∀ (i : Instr) (s : State) (op : Nat) (fm : Form) (o : Opnd), i.view = some (op, fm, o) →
    s.opened.gate s.curCore s.curThr op fm o = .go →
    (32 ≤ s.me.grp.n → Trapped i s 0x0C 0 (lineOff s.me.pc))
    ∧ (s.me.grp.n < 32 →
        (16 < s.me.grp.nb + (costs op fm o).1 + (marksOf o).length → Trapped i s 0x0D 1 (lineOff s.me.pc))
        ∧ (s.me.grp.nb + (costs op fm o).1 + (marksOf o).length ≤ 16 →
            (8 < s.me.grp.nr + (costs op fm o).2 → Trapped i s 0x0D 2 (lineOff s.me.pc))
            ∧ (s.me.grp.nr + (costs op fm o).2 ≤ 8 →
                (mustEnd op = true → o.s = false → Trapped i s 0x05 0 (lineOff s.me.pc))
                ∧ ((mustEnd op = false ∨ o.s = true) →
                    (∀ r, singleWrites op fm o = [r] → (r ∈ s.me.grp.rd ∨ r ∈ marksOf o) →
                      Trapped i s 0x04 0 (BitVec.ofNat 64 r))
                    ∧ ((∀ r, r ∈ singleWrites op fm o → r ∉ s.me.grp.rd ∧ r ∉ marksOf o ∧ ∀ m, m ∈ s.me.grp.marks → m.2 ≠ r) →
                        s.me.duo = true → duoBarred op = true → Trapped i s 0x07 8 (lineOff s.me.pc))))))

/-- Tier 2. A g source that cannot be read (R38 to R40), for every CPU instruction whose A field is a g source: an
empty register parks the thread with reason 0x01 and changes nothing else, one that a result of the group is due to
traps 0x46, and a poisoned one traps 0x40; g3 is the register. -/
def Obligations.SourcesMustBeFull : Prop :=
  ∀ (i : Instr) (s : State) (op : Nat) (fm : Form) (o : Opnd), i.view = some (op, fm, o) →
    s.opened.gate s.curCore s.curThr op fm o = .go → s.me.groupRules op fm o = none →
    (s.me.duo && duoBarred op) = false → (opInfo op fm).any (fun k => k.a == .g) = true → o.a ≠ 0 → s.me.snap = none →
    (s.me.isFull o.a = false → s.me.isDue o.a = false → s.me.st ≠ 2 →
      exec i s = .next (s.opened.setThr s.curCore s.curThr { s.me with st := 2, prsn := 1, parkReg := o.a }))
    ∧ (s.me.isFull o.a = false → s.me.isDue o.a = true → Trapped i s 0x46 0 (BitVec.ofNat 64 o.a))
    ∧ (s.me.isFull o.a = true → s.me.isPoison o.a = true → Trapped i s 0x40 0 (BitVec.ofNat 64 o.a))

/-- The first byte of the issuing thread's assist record (log entry 11). -/
def Sys2Proof.Spec.assistLoc (s : State) : Nat := locObj oidAssist (assistOff s.curCore s.curThr)

/-- Tier 3. The frame of every CPU instruction at issue, whatever comes of it (R50, R55): in the next state every g
register and predicate but the single-cycle destinations of R50 is unchanged, and so are every other thread of the
core, its control and status registers, every other core, memory, the contexts, the handles and everything else of the
package. Beside its own thread an instruction claims at most records of its core's deque and a tile of its cluster, and
joins views, and the fetch of a branch's line counts as a read at its extent's station (R315); only a floating-point
operation writes memory, and only in its assist record (R72; the record's place is the model's choice, log entry 11). -/
def Obligations.IssueFrame : Prop :=
  ∀ (i : Instr) (s t : State) (op : Nat) (fm : Form) (o : Opnd), i.view = some (op, fm, o) → exec i s = .next t →
    (∀ n, n < 16 → n ∉ singleWrites op fm o → (t.thr s.curCore s.curThr).gv n = s.me.gv n)
    ∧ (∀ n, n < 8 → 16 + n ∉ singleWrites op fm o → (t.thr s.curCore s.curThr).pv n = s.me.pv n)
    ∧ (∀ k, k ≠ s.curThr → t.thr s.curCore k = s.thr s.curCore k)
    ∧ (∀ d, d ≠ s.curCore → t.core d = s.core d)
    ∧ { t.core s.curCore with
        th := (s.core s.curCore).th, deque := (s.core s.curCore).deque, dqSlots := (s.core s.curCore).dqSlots } = s.core s.curCore
    ∧ { t with
        cores := s.cores, clus := s.clus, mem := s.mem, objs := s.objs
        oom := { t.oom with fr := s.oom.fr, ws := s.oom.ws, hl := s.oom.hl } } = s
    ∧ (op ≠ 0xC4 → t.clus = s.clus)
    ∧ (0x10 ≤ op → t.objs = s.objs) ∧ (∀ oid, { t.obj oid with ext := (s.obj oid).ext } = s.obj oid)
    ∧ (op / 16 ≠ 8 → t.mem = s.mem ∧ t.oom.ws = s.oom.ws ∧ t.oom.hl = s.oom.hl)
    ∧ (∀ l, l < assistLoc s ∨ assistLoc s + 64 ≤ l →
        SMap.get 0#8 l t.mem = SMap.get 0#8 l s.mem ∧ t.oom.writes l = s.oom.writes l ∧ t.oom.home l = s.oom.home l)

/-- Tier 1. A step runs the instruction that it has decoded. Where the schedule holds an event, the step is that event.
Where it holds a core's turn and the turn's thread finds the line of its next head (R34, R37, R41, R42), unpaired, and
that head decodes to `i`, the step is `i` by that thread; around it the turn is counted, and a thread that parked on an
empty register takes the time (R71, R163). `State.begins` says what the entry itself carries: the time that has passed, and
the errors that reads and links meet. Before it the package and its compute dies have power (log entry 128). -/
def Obligations.StepRunsDecodedInstruction : Prop :=
  (∀ (s : State) (a : Sched) (rest : List Sched) (i : Instr), s.agenda = a :: rest → a.act = .ev i → s.off = false → s.cut = false →
      step s = exec i (({ s with agenda := rest } : State).begins a))
  ∧ (∀ (s s1 s2 : State) (a : Sched) (rest : List Sched) (c t : Nat) (k : Core) (line : List Byte) (j : Nat) (e : Enc) (i : Instr),
      s.agenda = a :: rest → a.act = .turn c → s.off = false → s.cut = false →
      s1 = ({ s with agenda := rest } : State).begins a →
      s1.stopReached c = false → (s1.core c).isSealed = false → (s1.core c).halted = false → (s1.core c).pos < 32 →
      s1.turnOf c = (k, some t) → (s1.setCore c (k.passTurn s1.cyc (some t))).seek c t 64 = .found s2 line j →
      encAt line j = some e → nb e.head 14 = false → decode e.head e.tail = .ok i →
      step s = match exec i { s2 with curCore := c, curThr := t } with
        | .next u => .next (u.markDry c t)
        | r => r)

/-! ### Reset and memory -/

/-- Tier 1. What reset leaves: every thread free, its g registers full and zero (the value is the model's choice, log
entry 3), p0 true; the slot tables of R35; FRM, FXF, VXF and VXE zero (R66, R68, R69), the role tables empty (R161),
every tile free with tag 0 (R213), GAGE 32 (R253), AM 0 (R254), no queue alive, the instruments of R401 unmeasured, the
cycle count zero and WSWIN zero (R254; DTIME begins where it is, the model's choice, log entry 3), and memory that reads zero (the model's choice, log entry 4). -/
def Obligations.ResetState : Prop :=
  (∀ c t, (State.reset.thr c t).st = 0 ∧ (∀ n, (State.reset.thr c t).gv n = 0#64) ∧ (∀ n, n < 16 → (State.reset.thr c t).isFull n = true)
      ∧ (∀ n, (State.reset.thr c t).isPoison n = false) ∧ (State.reset.thr c t).pv 0 = true ∧ (State.reset.thr c t).mbx = [])
  ∧ (∀ c, (∀ k, k < 32 → (State.reset.core c).active[k]? = some (BitVec.ofNat 16 (k % 8)))
      ∧ (State.reset.core c).shadow = (State.reset.core c).active
      ∧ (State.reset.core c).frm = 0 ∧ (State.reset.core c).fxf = 0 ∧ (State.reset.core c).vxf = 0 ∧ (State.reset.core c).vxe = 0
      ∧ (State.reset.core c).am = false ∧ (State.reset.core c).ptag = 0 ∧ (State.reset.core c).grant = 0)
  ∧ (∀ cl n, ((State.reset.clu cl).tile n).own = .free ∧ ((State.reset.clu cl).tile n).tag = 0
      ∧ SMap.get 0#16 n (State.reset.clu cl).roles = 0#16)
  ∧ State.reset.gage = 32 ∧ State.reset.cyc = 0 ∧ State.reset.wswin = 0
  ∧ (∀ q, (State.reset.queue q).alive = false) ∧ (∀ n, SMap.get 0 n State.reset.slots = 0)
  ∧ (∀ l, SMap.get 0#8 l State.reset.mem = 0#8)

/-- Tier 1. Memory is in its canonical form at reset. -/
def Obligations.ResetMemoryCanonical : Prop := State.reset.memWf

/-- Tier 3. The invariant that every step keeps: memory stays in its canonical form (addresses strictly rising, no
listed byte equal to the zero that an unlisted address reads as), from every state that has it, whatever the step
runs: an instruction, or any of the package's events. -/
def Obligations.StepKeepsMemoryCanonical : Prop := ∀ s t : State, s.memWf → step s = .next t → t.memWf

/-- Tier 2. A device write and a device read (R97, R213, R320): after `poke` each byte written reads as written at its
home, and every other byte as before; after `zeroRange` the bytes of the range read zero and every other as before;
both for memory objects, banks and tiles, and both keep the canonical form. -/
def Obligations.DeviceWritesReadBack : Prop :=
  ∀ (s : State) (l : Nat) (bs : List Byte) (n : Nat), s.memWf →
    ((s.poke l bs).memWf ∧ (s.zeroRange l n).memWf
    ∧ (∀ k, k < bs.length → SMap.get 0#8 (l + k) (s.poke l bs).mem = bs.getD k 0#8
        ∧ (s.poke l bs).oom.writes (l + k) = [] ∧ (s.poke l bs).oom.home (l + k) = 0)
    ∧ (∀ a, a < l ∨ l + bs.length ≤ a → SMap.get 0#8 a (s.poke l bs).mem = SMap.get 0#8 a s.mem
        ∧ (s.poke l bs).oom.writes a = s.oom.writes a)
    ∧ (∀ k, k < n → SMap.get 0#8 (l + k) (s.zeroRange l n).mem = 0#8 ∧ (s.zeroRange l n).oom.writes (l + k) = [])
    ∧ (∀ a, a < l ∨ l + n ≤ a → SMap.get 0#8 a (s.zeroRange l n).mem = SMap.get 0#8 a s.mem
        ∧ (s.zeroRange l n).oom.writes a = s.oom.writes a))

/-! ### The events of the package: where each has its effect, and what it leaves -/

/-- `exec i` answers a next state of which `P` holds. -/
def Sys2Proof.Spec.Goes (i : Instr) (s : State) (P : State → Prop) : Prop := ∃ t, exec i s = .next t ∧ P t

/-- A thread stands at its marker with everything of its group returned (R55), and the group neither migrates nor has met
an extent that is not present or a divergence. -/
structure Sys2Proof.Spec.AtMarker (s : State) (c t : Nat) : Prop where
  phase : (s.thr c t).phase = .marker
  waits : (s.thr c t).st = 1 ∨ (s.thr c t).st = 2
  runs : (s.core c).stopped = false
  returned : (s.thr c t).grp.returned = true
  stays : ∀ e ∈ (s.thr c t).grp.defs, e.op ≠ 0x63 ∧ e.op ≠ 0x64
  present : (s.thr c t).grp.np = []
  agrees : (s.thr c t).grp.rind = none

/-- A thread has nothing that could stop it after its commit, and no mailbox message waits for it. -/
structure Sys2Proof.Spec.Quiet (s : State) (c t : Nat) : Prop where
  low : t < 7
  assist : (s.thr c t).assist = none
  late : (s.core c).lateOf t = none
  accepted : (s.thr c t).late = []
  single : (s.thr c t).duo = false
  mail : (s.thr c t).mbx = []

/-- Tier 2. A group without a self-updating instruction and with a trap at GROUP_COMMIT (R55, R56, R72, R280, R284,
R285): it is discarded. Its buffered results and stores are gone; predicates, the commit queue and memory stand as they
were, and every full register keeps its value (an empty one may take a message that waited in the mailbox); the thread is
in STATE 4 with its resume point at the group's head, and a class-0 message with the cause, the sub-code, the head and
the information value sets out for t7 of its core. A scalar assist stops the thread with a class-4 message to the
cluster's control core; one met while an assist of a vector operation of the thread is outstanding (sub-code 1 in the
model, log entry 11) sends none, and its group is replayed after that one; a trap of t7 of a compute core goes there as class 5 and frees t7; one of t7 of a control core
ends the context's launches on the cluster with 0xB6 and the cause. -/
def Obligations.TrapIsTaken : Prop :=
  ∀ (s : State) (c t : Nat) (tr : GTrap), AtMarker s c t → (s.thr c t).grp.trap = some tr → (s.thr c t).grp.self = none →
    let x := s.thr c t
    (t < 7 → tr.cause ≠ 0x31 → x.duo = false →
      Goes (.groupCommit c t none) s fun u =>
        (u.thr c t).st = 4 ∧ (u.thr c t).resume = x.grp.head ∧ (∀ n, x.isFull n = true → (u.thr c t).gv n = x.gv n)
        ∧ (∀ n, (u.thr c t).pv n = x.pv n) ∧ (u.thr c t).cq = x.cq ∧ (u.thr c t).grp = {}
        ∧ u.mem = s.mem ∧ u.oom = s.oom
        ∧ u.hmsgs = s.hmsgs ++ [{ dst := c, msg := { g1 := msgG1 t 0 tr.sub tr.cause, g2 := x.grp.head, g3 := tr.info, ctx := x.ctx } }])
    ∧ (tr.cause = 0x31 → tr.sub ≠ 1 →
      Goes (.groupCommit c t none) s fun u =>
        (u.thr c t).st = 4 ∧ (u.thr c t).resume = x.grp.head ∧ (∀ n, x.isFull n = true → (u.thr c t).gv n = x.gv n)
        ∧ (u.thr c t).cq = x.cq ∧ u.mem = s.mem ∧ u.oom = s.oom
        ∧ u.hmsgs = s.hmsgs ++ [{ dst := ccOf c, msg := { g1 := msgG1 t 4 0 0x31, g2 := x.grp.head, g3 := assistPtr c t, from_ := c + 1 } }])
    ∧ (tr.cause = 0x31 → tr.sub = 1 →
      Goes (.groupCommit c t none) s fun u =>
        ((u.thr c t).st = if x.assist.isSome = true then 4 else 1) ∧ (u.thr c t).pc = x.grp.head ∧ (u.thr c t).resume = x.grp.head
        ∧ (∀ n, x.isFull n = true → (u.thr c t).gv n = x.gv n) ∧ u.mem = s.mem ∧ u.hmsgs = s.hmsgs)
    ∧ (t = 7 → isCC c = false → tr.cause ≠ 0x31 → x.duo = false → (s.core c).tq = [] → (s.core c).nq = [] →
      Goes (.groupCommit c t none) s fun u =>
        (u.thr c t).st = 0 ∧ u.mem = s.mem
        ∧ u.hmsgs = s.hmsgs ++ [{ dst := ccOf c, msg := { g1 := msgG1 7 5 tr.sub tr.cause, g2 := x.grp.head, g3 := tr.info, ctx := x.ctx, from_ := c + 1 } }])
    ∧ (t = 7 → isCC c = true → tr.cause ≠ 0x31 → x.duo = false → (∀ d, clusterOf d = clusterOf c → (s.core d).lateOf 7 = none) →
      Goes (.groupCommit c t none) s fun u => u.mem = s.mem ∧ u.hmsgs = s.hmsgs
        ∧ ∀ l, (s.launch l).ctx = x.ctx → (s.launch l).ended = false → (∃ d ∈ (s.launch l).cores, clusterOf d = clusterOf c) →
            (∀ v ∈ x.grp.undo, v.2 ≠ .launch l) → (u.launch l).cause = 0xB6 ∧ (u.launch l).last = tr.cause)

/-- Step 5 of a thread stands at an effect, saved undispatched by no stop, with others after it. -/
structure Sys2Proof.Spec.AtStep5 (s : State) (c t : Nat) (e : Eff) (es : List Eff) : Prop where
  phase : (s.thr c t).phase = .step5
  runs : (s.core c).stopped = false
  head : (s.thr c t).s5 = e :: es
  fresh : e.again = false

/-- The effect at the head of step 5 is dispatched, and step 5 goes on with those after it from a state of which `P`
holds. -/
def Sys2Proof.Spec.GoesOn (s : State) (c t : Nat) (es : List Eff) (P : State → Prop) : Prop :=
  ∃ w, exec (.commitStep5Resume c t) s = exec (.commitStep5Resume c t) w ∧ (w.thr c t).phase = .step5 ∧ (w.thr c t).s5 = es ∧ P w

/-- The thread waits in step 5 for a reason, with its effects as `l`; memory stands. -/
def Sys2Proof.Spec.WaitsIn (s : State) (c t prsn : Nat) (l : List Eff) (P : State → Prop) : Prop :=
  Goes (.commitStep5Resume c t) s fun u => (u.thr c t).s5 = l ∧ (u.thr c t).phase = .step5 ∧ (u.thr c t).st = 2
    ∧ ((s.thr c t).st ≠ 2 → (u.thr c t).prsn = prsn) ∧ u.mem = s.mem ∧ P u

/-- What step 3 leaves in the registers of a thread, its core's shape registers and the flag registers (R38, R50, R55,
R68). -/
def Sys2Proof.Spec.Committed (s u : State) (c t : Nat) : Prop :=
  let x := s.thr c t
  let g := x.grp
  let y := u.thr c t
  (∀ n, n < 16 → (∀ r ∈ g.res, r.dest ≠ .g n) → y.gv n = x.gv n
    ∧ ((∀ m ∈ g.marks, m.2 ≠ n) → y.isFull n = x.isFull n ∧ y.isPoison n = x.isPoison n)
    ∧ (n ≠ 0 → (∃ m ∈ g.marks, m.2 = n ∧ m.1 < g.n) → y.isFull n = false ∧ y.isPoison n = false))
  ∧ (∀ n v, 0 < n → n < 16 → (∃ r ∈ g.res, r.dest = .g n ∧ r.val = .val v) →
      (∀ r ∈ g.res, r.dest = .g n → r.val = .val v ∧ r.pos < g.n ∧ g.overwritten r.pos n = false ∧ ∀ m ∈ g.marks, m.2 = n → m.1 ≤ r.pos) →
      y.gv n = v ∧ y.isFull n = true ∧ y.isPoison n = false)
  ∧ (∀ n, n < 8 → (∀ r ∈ g.res, ∀ m, r.dest = .p m → m % 8 ≠ n) → y.pv n = x.pv n)
  ∧ (∀ n v, 0 < n → n < 8 → (∃ r ∈ g.res, r.dest = .p n ∧ r.val = .val v) →
      (∀ r ∈ g.res, ∀ m, r.dest = .p m → m % 8 = n →
        r.val = .val v ∧ r.pos < g.n ∧ g.overwritten r.pos (16 + n) = false) → y.pv n = (v != 0))
  ∧ (∀ n v, (∃ r ∈ g.res, r.dest = .sh n ∧ r.val = .shape v) →
      (∀ r ∈ g.res, r.dest = .sh n → r.val = .shape v ∧ r.pos < g.n) → (u.core c).shape n = v)
  ∧ (u.core c).fxf = (s.core c).fxf ||| BitVec.ofNat 64 (flAll g.fx) ∧ (u.core c).vxf = (s.core c).vxf ||| BitVec.ofNat 64 (flAll g.vx)

/-- What each deferred effect does when step 5 comes to it (R55, R76, R95, R99, R103, R151, R152, R156, R158, R161, R162,
R172, R204, R213, R214, R252, R394): a store enters the commit queue, that of a duo copy its log; a release fence enters
the queue, and a table fence waits for the thread's table stores; SEND's message leaves once earlier fences have captured,
and step 5 waits for its acceptance; EMPTY empties; CSRW gives its register the new value; RCAST, CHMAP and SLTW write their
tables; TOWN frees, TGIVE hands over, TTAG tags a tile that the context owns, and a tile that it does not own is refused
late with 0x20; FTLD installs its table; VREL gives the lanes back; an engine command enters its queue register, or waits
for room. -/
def Sys2Proof.Spec.EffectsDispatch : Prop :=
  ∀ (s : State) (c t : Nat) (e : Eff) (es : List Eff), AtStep5 s c t e es →
    let x := s.thr c t
    let keeps (w : State) : Prop := w.mem = s.mem ∧ w.oom = s.oom ∧ (∀ n, (w.thr c t).gv n = x.gv n) ∧ ∀ d, d ≠ c → w.core d = s.core d
    (e.op ∈ [0x42, 0x44, 0x46, 0x48, 0x4A, 0x7A, 0xC1, 0xEE] → GoesOn s c t es fun w => keeps w
        ∧ (x.duo = false → (w.thr c t).cq = x.cq ++
            (storePieces e (if e.op = 0x44 then some (e.sreg - 1) else none)).map fun p => { p with lid := x.lid })
        ∧ (x.duo = false → 0 < e.locs.length → e.locs.length ≤ 8 → e.data.length = e.locs.length →
            (w.thr c t).cq = x.cq ++ [{ seq := e.seq, locs := e.locs, data := e.data, rel := if e.op = 0x44 then some (e.sreg - 1) else none
                                        hnd := e.hnds.headD 0, ctx := e.ctx, lid := x.lid }])
        ∧ (x.duo = true → (w.thr c t).log = x.log ++ logPieces e.va e.data ∧ (w.thr c t).cq = x.cq))
    ∧ (e.op = 0x59 → (e.m % 4 = 0 ∨ e.m % 4 = 2) → GoesOn s c t es fun w => keeps w
        ∧ (w.thr c t).cq = x.cq ++ [{ kind := .fence, seq := e.seq, code := e.m / 4 % 8 }])
    ∧ (e.op = 0x5A → (s.tableBusy c t e.seq = false → GoesOn s c t es keeps)
        ∧ (s.tableBusy c t e.seq = true → WaitsIn s c t 0x0D (e :: es) keeps))
    ∧ (e.op = 0x60 →
        (e.st = 0 → x.holdsFence = true → WaitsIn s c t 0x03 (e :: es) fun u => u.msgs = s.msgs)
        ∧ (e.st = 0 → x.holdsFence = false → ∀ d, s.phys (s.tagOf c t) e.va.toNat = some d →
            WaitsIn s c t 0x03 ({ e with st := 1 } :: es) fun u => keeps u ∧ ∃ m, u.msgs = s.msgs ++ [m]
              ∧ m.dst = d ∧ m.thr = e.m % 8 ∧ m.reg = e.rd ∧ m.val = e.vb ∧ m.src = s.logical c + 1 ∧ m.stamp = s.tagOf c t)
        ∧ (e.st = 2 → GoesOn s c t es keeps))
    ∧ (e.op = 0x62 → 0 < e.rd → e.rd < 16 → t < 7 → x.mbx = [] → GoesOn s c t es fun w => keeps w
        ∧ (w.thr c t).isFull e.rd = false ∧ (w.thr c t).isPoison e.rd = false ∧ ∀ n, n < 16 → n ≠ e.rd → (w.thr c t).isFull n = x.isFull n)
    ∧ (e.op = 0xF7 →
        let new (old : Word) : Word := match e.m / 1024 % 4 with
          | 0 => (old &&& ~~~ e.vb) ||| e.va
          | 1 => old ||| e.va
          | _ => old &&& ~~~ e.va
        GoesOn s c t es fun w => keeps w
          ∧ (w.core c).frm = (if e.m % 1024 = 4 then new (s.core c).frm else (s.core c).frm)
          ∧ (w.core c).fxf = (if e.m % 1024 = 5 then new (s.core c).fxf else (s.core c).fxf)
          ∧ (w.core c).vxf = (if e.m % 1024 = 6 then new (s.core c).vxf else (s.core c).vxf)
          ∧ (w.core c).vxe = (if e.m % 1024 = 7 then new (s.core c).vxe else (s.core c).vxe)
          ∧ (w.core c).am = (if e.m % 1024 = 3 then new (if (s.core c).am = true then 1 else 0) != 0 else (s.core c).am)
          ∧ w.gage = (if e.m % 1024 = 15 then new s.gage else s.gage)
          ∧ ((w.clu (clusterOf c)).rctmo = if e.m % 1024 = 14 then (new ((s.clu (clusterOf c)).rctmo.zeroExtend 64)).setWidth 32
              else (s.clu (clusterOf c)).rctmo))
    ∧ (e.op = 0x66 → GoesOn s c t es fun w => w.mem = s.mem ∧ w.oom = s.oom
        ∧ (∀ n, SMap.get 0#16 n (w.clu (clusterOf c)).roles
            = if n = e.va.toNat % 8 then e.vb.setWidth 16 else SMap.get 0#16 n (s.clu (clusterOf c)).roles)
        ∧ ∀ k, (s.thr (clusterOf c * 16 + e.va.toNat % 8) k).st ≠ 0 → (w.thr (clusterOf c * 16 + e.va.toNat % 8) k).recast = true)
    ∧ (e.op = 0x67 → GoesOn s c t es fun w => keeps w
        ∧ ∀ n, SMap.get 0#64 n (w.clu (clusterOf c)).vec = if n = e.va.toNat % 4 then e.vb else SMap.get 0#64 n (s.clu (clusterOf c)).vec)
    ∧ (e.op = 0x78 → GoesOn s c t es fun w => keeps w ∧ (w.core c).active = (s.core c).active
        ∧ (w.core c).shadow = (s.core c).shadow.set (e.va.toNat % 32) (e.vb.setWidth 16))
    ∧ ((e.op = 0xC4 ∨ e.op = 0xC5 ∨ e.op = 0xC6) →
        let old := (s.clu (clusterOf c)).tile e.va.toNat
        (s.ownsTile (clusterOf c) e.ctx e.va.toNat = false → GoesOn s c t es fun w => keeps w ∧ w.clus = s.clus
            ∧ (w.thr c t).late = x.late ++ [{ cause := 0x20, sub := 0, info := tilePtr e.va.toNat }])
        ∧ (s.ownsTile (clusterOf c) e.ctx e.va.toNat = true →
            (e.op = 0xC4 → GoesOn s c t es fun w => keeps w
              ∧ (w.clu (clusterOf c)).tile e.va.toNat = { old with own := .free, filling := true })
            ∧ (e.op = 0xC5 → s.tileBusy c t e.seq e.va.toNat = true → WaitsIn s c t 0x0F (e :: es) keeps)
            ∧ (e.op = 0xC5 → s.tileBusy c t e.seq e.va.toNat = false → GoesOn s c t es fun w => w.mem = s.mem
              ∧ (w.clu (clusterOf c)).tile e.va.toNat = { old with own := .eng e.ctx })
            ∧ (e.op = 0xC6 → GoesOn s c t es fun w => keeps w
              ∧ (w.clu (clusterOf c)).tile e.va.toNat = { old with tag := e.vb.toNat })))
    ∧ (e.op = 0x8B →
        (e.st = 0 → WaitsIn s c t 0x0F ({ e with st := 1 } :: es) keeps)
        ∧ (e.st ≠ 0 → GoesOn s c t es fun w => keeps w
            ∧ ∀ n, n < 256 → SMap.get 0#19 n (w.core c).dtab = BitVec.ofNat 19 (leAt e.data (4 * n) 4)))
    ∧ (e.op = 0xB1 → GoesOn s c t es fun w => keeps w ∧ (w.core c).grant = 0)
    ∧ (isCommand e.op = true →
        let k := s.core c
        let q := cmdReg e.op
        let room := (SMap.get [] q k.q).length < 16 ∧ (e.n = true → (SMap.get [] (compReg q) k.comps).length < 32)
        (¬ room → WaitsIn s c t 0x0E (e :: es) fun u => keeps u ∧ (u.core c).q = k.q)
        ∧ (room → (cmdSpan e).isSome = true → 8 ≤ k.scb.length → WaitsIn s c t 0x07 (e :: es) fun u => keeps u ∧ (u.core c).q = k.q)
        ∧ (room → ((cmdSpan e).isSome = true → k.scb.length < 8) → GoesOn s c t es fun w => keeps w
            ∧ SMap.get [] q (w.core c).q = SMap.get [] q k.q ++ [{ e with arr := s.cyc }]
            ∧ (e.n = true → SMap.get [] (compReg q) (w.core c).comps
                = SMap.get [] (compReg q) k.comps ++ [{ thr := t, seq := e.seq, word := none }])))

/-- Tier 2. The commit of a clean group (R55, R116 to R118) and what comes before it. Step 3 empties the registers with a
last-read mark, writes each buffered result into its g, predicate or shape register unless a later instruction of the group
has written that register, and ORs the group's flags into FXF and VXF (`Committed`); step 5 then takes the deferred effects
in program order, each with what it does (`EffectsDispatch`);
the thread issues again at the head after its marker. A group that ended in TRAP or SYSC then takes its exception with
the next head as its resume point; one that ended in TEND frees its thread when the deque is empty. A TRET that step 5
held up makes its target ready at its resume point, or at the pc it gives, with an empty fetch buffer and its registers
kept (R255). A result returns with its value, one whose rind diverges makes its group a diverging
one at its instruction (R90), and a line fetch brings the line into the thread's buffer. -/
def Obligations.CleanCommits : Prop :=
  (∀ (s : State) (c t : Nat), AtMarker s c t → (s.thr c t).grp.trap = none → t < 7 → (s.thr c t).mbx = [] →
    ∃ w, exec (.groupCommit c t none) s = exec (.commitStep5Resume c t) w ∧ (w.thr c t).phase = .step5
      ∧ (w.thr c t).s5 = (s.thr c t).effects c t (s.thr c t).grp ∧ (w.thr c t).post = (s.thr c t).post ∧ w.mem = s.mem
      ∧ Committed s w c t)
  ∧ EffectsDispatch
  ∧ (∀ (s : State) (c t : Nat), AtMarker s c t → Quiet s c t → (s.thr c t).grp.trap = none → (s.thr c t).grp.defs = [] →
    let x := s.thr c t
    (x.post = .none →
      Goes (.groupCommit c t none) s fun u =>
        (u.thr c t).st = 1 ∧ (u.thr c t).phase = .issue ∧ (u.thr c t).pc = x.nextPc ∧ (u.thr c t).grp = {} ∧ u.mem = s.mem
        ∧ (∀ n, (∀ r ∈ x.grp.res, r.dest ≠ .g n) → (u.thr c t).gv n = x.gv n)
        ∧ (∀ n v, n ≠ 0 → (∃ r ∈ x.grp.res, r.dest = .g n ∧ r.val = .val v) →
            (∀ r ∈ x.grp.res, r.dest = .g n → r.val = .val v ∧ r.pos < x.grp.n ∧ x.grp.overwritten r.pos n = false) →
            (u.thr c t).gv n = v))
    ∧ (∀ cause sub info, (cause = 0x08 ∨ cause = 0x09) → x.post = .msg cause sub info → x.grp.res = [] → x.grp.marks = [] →
      Goes (.groupCommit c t none) s fun u =>
        (u.thr c t).st = 4 ∧ (u.thr c t).resume = x.nextPc ∧ (∀ n, (u.thr c t).gv n = x.gv n)
        ∧ u.hmsgs = s.hmsgs ++ [{ dst := c, msg := { g1 := msgG1 t 0 sub cause, g2 := x.nextPc, g3 := info, ctx := x.ctx } }])
    ∧ (x.post = .tend → x.recast = false → (s.core c).topRec = none →
      Goes (.groupCommit c t none) s fun u => (u.thr c t).st = 0 ∧ (u.thr c t).grp = {} ∧ u.mem = s.mem))
  ∧ (∀ (s : State) (c t : Nat) (e : Eff), (s.thr c t).phase = .step5 → (s.core c).stopped = false → (s.thr c t).s5 = [e] →
      (s.thr c t).late = [] → (s.thr c t).post = .none → (s.thr c t).assist = none → (s.core c).lateOf t = none →
      (s.thr c t).duo = false → e.op = 0xF8 → e.again = false → s.drainedTo c t e.seq = true →
      let d := e.va.toNat / 8
      let k := e.va.toNat % 8
      (d ≠ c ∨ k ≠ t) → (s.thr d k).st = 4 → (s.thr d k).postponed = .none → (s.thr d k).duo = false → (e.m = 0 ∨ e.m = 1) →
      Goes (.commitStep5Resume c t) s fun u =>
        (u.thr d k).st = 1 ∧ (u.thr d k).fb = [] ∧ (∀ n, (u.thr d k).gv n = (s.thr d k).gv n)
        ∧ (u.thr d k).pc = fpCode (if e.m = 0 then (s.thr d k).resume else e.vb) ∧ (u.thr c t).phase = .issue)
  ∧ (∀ (s : State) (c t k : Nat) (r : LRes), (s.thr c t).grp.res[k]? = some r → r.ret = false → s.inFlight c t = true →
      (∀ v, r.val = .val v →
        Goes (.resultReturn c t k) s fun u =>
          (u.thr c t).grp.res[k]? = some { r with parts := [], ret := true, done := true } ∧ u.mem = s.mem)
      ∧ (∀ a b, r.val = .load .zero a b → r.done = true →
        Goes (.resultReturn c t k) s fun u =>
          (u.thr c t).grp.res[k]? =
            some { r with val := .val (BitVec.ofNat 64 (leNat (gotBytes r.parts))), parts := [], ret := true, done := true })
      ∧ (∀ v w, r.val = .val v → r.fmt ≠ 0 → (s.thr c t).phase = .issue → (s.thr c t).grp.rind = none →
        (s.thr c t).grp.self = none → (if r.fmt = 12 then fmtF64 else fmtF32).diverges v.toNat w.toNat = true →
        Goes (.groupCommit c t (some (k, w))) s fun u =>
          (u.thr c t).grp.rind = some (r.pos, r.pc) ∧ u.mem = s.mem
          ∧ (u.thr c t).grp.res[k]? = some { r with parts := [], ret := true, done := true }))
  ∧ (∀ (s u : State) (c t : Nat) (l : List Byte), (s.thr c t).st = 1 → (s.thr c t).phase = .issue → (s.core c).stopped = false →
      s.fetch c t (s.thr c t).pc = .line u l →
      exec (.lineFetch c t) s = .next u ∧ (u.thr c t).line (s.thr c t).pc = some l)

/-- No performed write is still told apart at some bytes: they hold what memory lists (R97, R333). -/
def Sys2Proof.Spec.Settled (s : State) (ls : List Nat) : Prop := ∀ l ∈ ls, s.oom.writes l = []

/-- Tier 2. The steps of the ordering machine (R93, R95 to R98, R150, R333). A read event takes, where no write is told
apart, the bytes that memory holds; a store at the head of its order performs: each of its bytes is a new write of its
location, no other location gets one, and memory itself is unchanged; the home step settles an event's bytes; an atomic
step reads its home, computes, and leaves the new value there at once, after the stores of its own group that stand before it
(R95); propagation puts the applied writes of an event
into every frontier, drops the writes that they supersede, and where such a write is alone at its location and applied
last there it becomes the memory byte, told apart no longer. -/
def Obligations.MemoryEvents : Prop :=
  (∀ (s : State) (c t k : Nat) (r : LRes) (p : Part) (cv : Conv), (s.thr c t).grp.res[k % 32]? = some r →
    r.val = .load cv none false → r.parts[k / 32]? = some p → p.got = none → s.mayPerform c t (k % 32) r = true →
    s.goneLoc p.loc = false → s.inWindow p.loc = false → s.bad = [] → (s.thr c t).grp.openFences r.pos = [] →
    s.storesOf c t (s.thr c t).seq r.pos = [] → (∀ l ∈ locs p.loc p.size, s.zLoc l = false) → Settled s (locs p.loc p.size) →
    Goes (.loadReadStep c t k) s fun u =>
      u.mem = s.mem ∧ ∃ q, (u.thr c t).grp.res[k % 32]? = some q
        ∧ q.parts[k / 32]? = some { p with got := some ((locs p.loc p.size).map s.base) })
  ∧ (∀ (s : State) (c t k : Nat) (e : CqE), (s.thr c t).cq[k]? = some e → e.kind = .write → s.tileLost e = false →
    s.isSys (e.locs.headD 0) = false →
    s.writeMay c t e.seq e.locs e.rel.isSome = true → e.locs.find? s.goneLoc = none → e.locs.length = e.data.length →
    e.locs.Nodup →
    Goes (.writePerform c t k) s fun u =>
      (u.thr c t).cq = (s.thr c t).cq.eraseIdx k ∧ u.mem = s.mem
      ∧ (∀ (j l : Nat) (b : Byte), e.locs[j]? = some l → e.data[j]? = some b →
          ∃ w, u.oom.writes l = s.oom.writes l ++ [w] ∧ w.val = b ∧ w.applied = false)
      ∧ (∀ l, l ∉ e.locs → u.oom.writes l = s.oom.writes l))
  ∧ (∀ (s : State) (e : Nat), s.oom.canApply e = true →
    Goes (.homeApply e) s fun u => u.oom.canApply e = false ∧ u.mem = s.mem ∧ u.cores = s.cores
      ∧ ∀ l, (u.oom.writes l).map (fun w => (w.id, w.val)) = (s.oom.writes l).map fun w => (w.id, w.val))
  ∧ (∀ (s : State) (c t k op size ord scope : Nat) (uns : Bool) (b cv : Word) (r : LRes) (p : Part),
    (s.thr c t).grp.res[k]? = some r → r.val = .atom op size ord scope uns b cv → r.parts = [p] → r.done = false →
    s.mayPerform c t k r = true → s.writeMay c t ((s.thr c t).seq + 1) (locs p.loc size) (bit ord 1) = true →
    s.atomicReady (agThread c t) (locs p.loc size) = true → s.goneLoc p.loc = false → s.bad = [] →
    (s.thr c t).grp.openFences r.pos = [] → (∀ w ∈ s.oom.ws, w.id < s.oom.nextId) →
    (s.thr c t).grp.storesBefore r.pos (locs p.loc size) (bit ord 1) = [] →
    let old := leNat (s.homeBytes (locs p.loc size))
    Goes (.atomicStep c t k) s fun u =>
      (u.thr c t).grp.res[k]? = some { r with val := .val (BitVec.ofNat 64 old), parts := [], done := true }
      ∧ (∀ n, atomicNew op size uns old b.toNat cv.toNat = some n → u.homeBytes (locs p.loc size) = leBytes size n)
      ∧ (atomicNew op size uns old b.toNat cv.toNat = none → u.oom.ws = s.oom.ws))
  ∧ (∀ (s : State) (c t k op size ord scope : Nat) (uns : Bool) (b cv : Word) (r : LRes) (p : Part),
    (s.thr c t).grp.res[k]? = some r → r.val = .atom op size ord scope uns b cv → r.parts = [p] → r.done = false →
    s.mayPerform c t k r = true →
    let early (st : State) := (st.thr c t).grp.storesBefore r.pos (locs p.loc size) (bit ord 1)
    early s ≠ [] → s.writeMay c t ((s.thr c t).seq + 1) (locs p.loc size) true = true →
    (∀ e ∈ early s, s.writeMay c t ((s.thr c t).seq + 1) e.locs true = true) →
    Goes (.atomicStep c t k) s fun u => early u = [] ∧ (u.thr c t).grp.res = (s.thr c t).grp.res ∧ u.mem = s.mem)
  ∧ (∀ (s : State) (e : Nat), s.oom.canPropagate e = true →
    Goes (.frontierPropagation e) s fun u =>
      (∀ w ∈ u.oom.ws, w ∈ s.oom.ws)
      ∧ (∀ l, s.oom.writes l = [] → SMap.get 0#8 l u.mem = SMap.get 0#8 l s.mem)
      ∧ ∀ w ∈ s.oom.ws, w.ev = e → w.applied = true →
        (w ∈ u.oom.ws → ∀ a, u.oom.knows a w.id = true)
        ∧ (∀ v, s.oom.below v.id w.id = true → v ∉ u.oom.ws)
        ∧ (s.oom.writes w.loc = [w] → s.oom.home w.loc = w.id → (∀ v ∈ s.oom.ws, v.id = w.id ∨ s.oom.sameWhole v w = true → v = w) →
            (∀ g, s.oom.below w.id g = false) → s.viewsOf e = [] → s.piecesWait (SMap.get {} e s.oom.evs).whole = false →
            w ∉ u.oom.ws ∧ SMap.get 0#8 w.loc u.mem = w.val))

/-- Tier 2. What arrives at threads and cores (R36, R38, R117, R156 to R159, R163, R280 to R285, R303, R304). A message
fills an empty register of a thread, is refused by a sealed core with 0x41, and waits where no room is; a message for a
handler starts t7 of its core at the context's handler entry with g1 to g3, or joins its queue, and one for a killed
core is dropped; a context without an entry loses its launches on the cluster; a rotation puts back the position and
ends the yields; a dry channel is told; a thread that migrates goes on, on its new core, with its registers, after its
marker, and its old context is free; an idle core asks, takes the bottom record of its victim, and stops waiting. -/
def Obligations.ThreadEvents : Prop :=
  (∀ (s : State) (k : Nat) (m : Msg), s.msgs[k]? = some m →
    ((s.core m.dst).isSealed = true → m.e.st = 1 → m.e ∈ (s.thr m.e.core m.e.thr).s5 →
      Goes (.messageDelivery k) s fun u => u.msgs = s.msgs.eraseIdx k
        ∧ { m.e with st := 3, ans := 0x41 } ∈ (u.thr m.e.core m.e.thr).s5)
    ∧ ((s.core m.dst).isSealed = false → (s.core m.dst).stopped = false → s.heldCore m.dst = false →
        s.ejects m.dst m.thr m.stamp m.fw = true →
        isCC m.dst = false → m.reg ≠ 0 → m.reg < 16 →
      ((s.thr m.dst m.thr).isFull m.reg = false → (s.thr m.dst m.thr).isDue m.reg = false → m.thr < 7 →
          (s.thr m.dst m.thr).mbx = [] → m.poison = false →
        Goes (.messageDelivery k) s fun u => u.msgs = s.msgs.eraseIdx k ∧ (u.thr m.dst m.thr).gv m.reg = m.val
          ∧ (u.thr m.dst m.thr).isFull m.reg = true ∧ (u.thr m.dst m.thr).isPoison m.reg = false
          ∧ ∀ n, n ≠ m.reg → (u.thr m.dst m.thr).gv n = (s.thr m.dst m.thr).gv n)
      ∧ ((s.thr m.dst m.thr).isFull m.reg = true → 16 ≤ (s.thr m.dst m.thr).mbx.length → exec (.messageDelivery k) s = .next s)))
  ∧ (∀ (s : State) (k : Nat) (h : HTrans), s.hmsgs[k]? = some h →
    ((s.core h.dst).isSealed = true → exec (.handlerMessageArrival k) s = .next { s with hmsgs := s.hmsgs.eraseIdx k })
    ∧ ((s.core h.dst).isSealed = false → (s.core h.dst).stopped = false → s.heldCore h.dst = false → h.msg.g1.toNat / 2 ^ 16 % 256 = 0 → h.msg.ready = true →
        (s.core h.dst).tq = [] → (s.core h.dst).nq = [] →
      ((s.thr h.dst 7).st = 0 → s.handlerEntry h.msg.ctx ≠ 0 →
        Goes (.handlerMessageArrival k) s fun u => u.hmsgs = s.hmsgs.eraseIdx k ∧ (u.core h.dst).tq = []
          ∧ (u.thr h.dst 7).st = 1 ∧ (u.thr h.dst 7).pc = fpCode (s.handlerEntry h.msg.ctx) ∧ (u.thr h.dst 7).ctx = h.msg.ctx
          ∧ (u.thr h.dst 7).gv 1 = h.msg.g1 ∧ (u.thr h.dst 7).gv 2 = h.msg.g2 ∧ (u.thr h.dst 7).gv 3 = h.msg.g3
          ∧ (u.thr h.dst (h.msg.g1.toNat / 2 ^ 24 % 8)).lcause = h.msg.g1.toNat % 256)
      ∧ ((s.thr h.dst 7).st ≠ 0 → (s.thr h.dst 7).isFull 1 = true →
        Goes (.handlerMessageArrival k) s fun u => u.hmsgs = s.hmsgs.eraseIdx k ∧ (u.core h.dst).tq = [{ h.msg with since := s.dtime }])))
  ∧ (∀ (s : State) (c x : Nat) (m : HMsg), s.handlerEntry x = 0 → s.nextMsg c x = some m →
    ((s.thr c 7).st = 0 ∨ (s.thr c 7).ctx = x) → m.since + 850000 ≤ s.dtime →
    Goes (.handlerEntryTimeout c x) s fun u => ∀ l, (s.launch l).ctx = x → (s.launch l).ended = false →
      (∃ d ∈ (s.launch l).cores, clusterOf d = clusterOf c) → (u.launch l).cause = 0xB6 ∧ (u.launch l).last = m.g1.toNat % 256)
  ∧ (∀ (s : State) (c : Nat), 32 ≤ (s.core c).pos → (s.core c).stopped = false →
    Goes (.slotRotationStart c) s fun u => (u.core c).pos = 0 ∧ (∀ t, (u.thr c t).yielded = false) ∧ u.mem = s.mem)
  ∧ (∀ (s : State) (c t : Nat), isCC c = false → (s.thr c t).st = 2 → (s.thr c t).prsn = 0x01 → (s.thr c t).dryTold = false →
    let lim := (s.clu (clusterOf c)).rctmo.toNat
    lim ≠ 0 → (s.roleOf c).toNat / 2 ^ 14 = 2 → roleInreg (s.roleOf c) ≠ 0 → (s.thr c t).parkReg = roleInreg (s.roleOf c) →
    (s.thr c t).dry + 2 * lim < s.cyc →
    Goes (.channelDry c t) s fun u => (u.thr c t).dryTold = true
      ∧ u.hmsgs = s.hmsgs ++ [{ dst := ccOf c, msg := { g1 := msgG1 t 1 0 0x45, g2 := 0, g3 := BitVec.ofNat 64 (coreIx c + t * 256), ctx := (s.thr c t).ctx, from_ := c + 1 } }])
  ∧ (∀ (s : State) (k u : Nat) (m : Mig) (e : Eff), s.migs[k]? = some m → (s.thr m.src m.thr).s5 = [e] →
    ((s.core m.dst).isSealed = true →
      Goes (.migrationArrival k) s fun v => v.migs = s.migs.eraseIdx k
        ∧ (v.thr m.src m.thr).s5 = [{ e with st := 3, ans := 0x4100 }])
    ∧ ((s.core m.dst).isSealed = false → (s.core m.dst).stopped = false → s.heldCore m.dst = false → isCC m.dst = false → (s.core m.dst).ptag = m.stamp →
        (s.core m.dst).freeCtx = some u → m.src ≠ m.dst → Quiet s m.src m.thr →
        (s.thr m.src m.thr).post = .none → (s.core m.dst).lateOf u = none → (s.thr m.dst u).mbx = [] →
      Goes (.migrationArrival k) s fun v => v.migs = s.migs.eraseIdx k ∧ (v.thr m.dst u).st = 1 ∧ (v.thr m.dst u).phase = .issue
        ∧ (v.thr m.dst u).pc = (s.thr m.src m.thr).nextPc ∧ (∀ n, (v.thr m.dst u).gv n = (s.thr m.src m.thr).gv n)
        ∧ (∀ n, (v.thr m.dst u).pv n = (s.thr m.src m.thr).pv n) ∧ (v.thr m.src m.thr).st = 0))
  ∧ (∀ (s : State) (c : Nat), (s.core c).steal = .idle → (s.core c).idleThief = true →
    Goes (.stealRequest c) s fun u => (s.victims c = [] → (u.core c).steal = .waiting)
      ∧ (s.victims c ≠ [] → (u.core c).steal = .asking (s.victims c)))
  ∧ (∀ (s : State) (c v t : Nat) (vs : List Nat), (s.core c).steal = .asking (v :: vs) → v ≠ c →
      (s.core v).ptag = (s.core c).ptag → (s.core c).eligible.head? = some t → s.stopReached c = false → s.stopReached v = false →
    (∀ r, (s.core v).botRec = some r →
      Goes (.stealAnswer c) s fun u => (u.core c).steal = .idle ∧ (u.thr c t).st = 1 ∧ (u.thr c t).pc = fpCode r.task.entry
        ∧ (u.thr c t).gv 1 = r.task.a1 ∧ (u.thr c t).gv 3 = r.task.a3 ∧ (u.thr c t).gv 4 = r.task.a4
        ∧ ∀ q ∈ (u.core v).deque, q.id ≠ r.id)
    ∧ ((s.core v).botRec = none → vs ≠ [] → Goes (.stealAnswer c) s fun u => (u.core c).steal = .asking vs))
  ∧ (∀ (s : State) (c : Nat), (s.core c).steal = .waiting → Goes (.stealBackoffExpiry c) s fun u => (u.core c).steal = .idle)

/-- Tier 2. What the firmware and the devices do to extents and tiles (R213, R314 to R318, R320). A reported extent is
allocated at a free place, a lazy object's on the least-filled channel of the die that reported it and with zero bytes,
one that had been moved out with the bytes it held; its heats are zero, and every thread that waited for it is ready. One
that cannot be allocated traps its threads, each with its resume point at its head. A sweep halves both heats; a hot
extent moves with its bytes to the die that used it most, one marked as weights into the weight store; the refresh window
follows domain time; the scrubber's clear and the end of a tile's zero-fill leave zero bytes. -/
def Obligations.ExtentEvents : Prop :=
  (∀ (s : State) (oid x : Nat) (p : Place), (s.extent oid x).present = false →
      let e := (s.obj oid).entry oid x
      let l := locObj oid (x * 2 ^ 18)
      e.reported = true →
      (p.ws = false → s.placeFree oid x p = true →
        (((s.obj oid).isLazy = true ∧ e.was = false) → (e.rep = 0 ∨ e.rep = p.die + 1) ∧ s.leastFilled p.die p.ch = true) →
        Goes (.extentAllocationWake oid x p true) s fun u =>
          (u.extent oid x).present = true ∧ (u.extent oid x).die = p.die ∧ (u.extent oid x).ch = p.ch ∧ (u.extent oid x).slot = p.slot
          ∧ (u.extent oid x).rheat = 0 ∧ (u.extent oid x).wheat = 0 ∧ (u.extent oid x).reported = false
          ∧ (((s.obj oid).isLazy = true ∧ e.was = false) →
              ∀ j, j < 2 ^ 18 → SMap.get 0#8 (l + j) u.mem = 0#8 ∧ u.oom.writes (l + j) = [])
          ∧ (¬ ((s.obj oid).isLazy = true ∧ e.was = false) → u.mem = s.mem ∧ u.oom = s.oom)
          ∧ ∀ c t, (s.thr c t).waitsFor oid x = true → (u.thr c t).st = 1 ∧ (u.thr c t).pc = (s.thr c t).pc)
      ∧ ((∀ c t, (s.thr c t).waitsFor oid x = true → t < 7 ∧ (s.thr c t).duo = false) →
        Goes (.extentAllocationWake oid x p false) s fun u =>
          ∀ c t, (s.thr c t).waitsFor oid x = true → (u.thr c t).st = 4 ∧ (u.thr c t).resume = (s.thr c t).pc))
  ∧ (∀ s : State, Goes .heatSweep s fun u => u.mem = s.mem ∧ u.cores = s.cores
      ∧ ∀ oid x, (u.extent oid x).rheat = (s.extent oid x).rheat / 2 ∧ (u.extent oid x).wheat = (s.extent oid x).wheat / 2)
  ∧ (∀ (s : State) (oid x : Nat) (p : Place), (s.extent oid x).present = true → (s.extent oid x).pin = false →
      s.placeFree oid x p = true → (∀ y ∈ s.holdersOf oid, s.quiescent y = true) →
      ((p.ws = false ∧ (3 ≤ (s.extent oid x).rheat ∨ 3 ≤ (s.extent oid x).wheat) ∧ p.die ≠ (s.extent oid x).die
          ∧ (s.extent oid x).mostUsed p.die = true)
        ∨ (p.ws = true ∧ (p.die = (s.extent oid x).die ∨ (s.extent oid x).mostUsed p.die = true) ∧ (s.obj oid).weight = true ∧ (s.extent oid x).rheat = 3 ∧ (s.extent oid x).wheat = 0)) →
      Goes (.extentMove oid x p) s fun u => (u.extent oid x).die = p.die ∧ (u.extent oid x).ch = p.ch ∧ (u.extent oid x).slot = p.slot
        ∧ (u.extent oid x).ws = p.ws ∧ (u.extent oid x).rheat = 0 ∧ (u.extent oid x).wheat = 0 ∧ u.mem = s.mem ∧ u.oom = s.oom)
  ∧ (∀ s : State, exec .weightRefreshWindow s = .next { s with bankWin := s.dtime / 3400 % 16 })
  ∧ (∀ (s : State) (oid x : Nat), oid ≠ 0 → (s.extent oid x).z = true →
      (s.scrubNext ((s.extent oid x).lane x) = true ∨ s.scrubWanted oid x = true) →
      Goes (.scrubExtentClear oid x) s fun u => (u.extent oid x).z = false
        ∧ (∀ j, j < 2 ^ 18 → SMap.get 0#8 (locObj oid (x * 2 ^ 18) + j) u.mem = 0#8)
        ∧ ∀ c t, (s.thr c t).st = 2 → (s.thr c t).prsn = 0x08 → (s.thr c t).phase = .issue → (u.thr c t).st = 1)
  ∧ (∀ (s : State) (x : Nat) (p : Nat × Nat × Nat), nextScrub s.idleScrub = some p → s.scrubNext p.1 = true →
      exec (.scrubExtentClear 0 x) s = .next { s with scrub := s.scrub.erase p })
  ∧ (∀ (s : State) (cl tile : Nat), ((s.clu cl).tile tile).filling = true →
      Goes (.tileZeroFillEnd cl tile) s fun u => ((u.clu cl).tile tile).filling = false
        ∧ ((u.clu cl).tile tile).own = ((s.clu cl).tile tile).own
        ∧ ∀ j, j < 65536 → SMap.get 0#8 (tileLoc cl tile + j) u.mem = 0#8)

/-- Tier 2. The engines (R189, R190, R217, R218, R223, R226, R232, R234). A vector operation that has read its operands
starts behind those that have started, and at the head of its core's queue it retires: its elements are written, its
flags ORed into VXF. A tile task whose record is good is accepted, waiting for the predecessors that the scheduler holds;
one without any starts on an idle Vat where its start checks pass and else ends in their fault; it completes with its
result in C and its arrival, and no other task waits for it any longer. A Trellis command enters the window with what it
has read, starts on the held image when its entries are full, fills its entries one after another where it loads (R329), and
retires with its effect on its context's image or with
its bytes written; an idle image is exchanged. A Ladle request is accepted and moves by chunks to its end, its
cancellation or its fault; a Press command is accepted with its counter pointer, a collective of one moves its next
chunk and ends with its last, and one whose members differ ends. -/
def Obligations.EngineEvents : Prop :=
  (∀ (s : State) (c k : Nat) (o : VOp), (s.core c).vq[k]? = some o → o.read = true → o.started = false → o.subs = [] →
    (∀ v ∈ (s.core c).vq.take k, v.started = true) →
    Goes (.vectorOpStart c k) s fun u => (u.core c).vq = (s.core c).vq.set k { o with started := true } ∧ u.mem = s.mem ∧ u.oom = s.oom)
  ∧ (∀ (s : State) (c : Nat) (o : VOp) (rest : List VOp), (s.core c).vq = o :: rest → o.started = true → o.held = none → o.subs = [] →
      let ls := o.out.flatMap fun w => locs w.1 w.2.length
      s.writeMay c o.e.thr o.e.seq ls false = true → ls.find? s.goneLoc = none → o.hits = [] → o.bad = none →
      (s.thr c o.e.thr).duo = false →
      (∀ w ∈ o.out, s.barredAt (s.ctxOf c o.e.thr) (fpHnd o.e.vd) w.1 = false ∧ s.isSys w.1 = false ∧ w.2 ≠ []) → ls.Nodup →
      Goes (.vectorOpRetire c none) s fun u => (u.core c).vq = rest ∧ (u.core c).vxf = flInto (s.core c).vxf o.fl ∧ u.mem = s.mem
        ∧ (∀ l, l ∉ ls → u.oom.writes l = s.oom.writes l)
        ∧ ∀ w ∈ o.out, ∀ (j l : Nat) (b : Byte), (locs w.1 w.2.length)[j]? = some l → w.2[j]? = some b →
            ∃ v, u.oom.writes l = s.oom.writes l ++ [v] ∧ v.val = b)
  ∧ (∀ (s s1 : State) (c : Nat) (e : Eff) (rest : List Eff) (bs : List Byte), SMap.get [] 0 (s.core c).q = e :: rest →
      let cl := clusterOf c
      (s.clu cl).sched.length < 64 → s.cmdReady e = true → s.takesNext c 0 e = true → s.quiet c = false →
      s.barredAt e.ctx (e.hnds.headD 0) (e.locs.headD 0) = false →
      (s.joinCmd (agVat cl) e).engRead (agVat cl) (e.locs.headD 0) 128 = .bytes s1 bs →
      (∀ k : TTask, k.e = e → k.bytes = bs → k.good (s.clu cl).sched = true) →
      Goes (.tileTaskAccept c) s fun u => SMap.get [] 0 (u.core c).q = rest
        ∧ ∃ k : TTask, (u.clu cl).sched = (s.clu cl).sched ++ [k] ∧ k.e = e ∧ k.bytes = bs ∧ k.vat = 0 ∧ k.fault = none
            ∧ k.prog = 0 ∧ k.waits = k.predsIn (s.clu cl).sched)
  ∧ (∀ (s : State) (cl k vat : Nat) (j : TTask), (s.clu cl).sched[k]? = some j → vat < 2 → vat ∉ (s.clu cl).vatsOff →
      (∀ v ∈ (s.clu cl).sched, v.vat ≠ vat + 1) → j.vat = 0 → j.fault = none → s.quiet j.e.core = false → j.waits = [] →
      ((s.core j.e.core).ptag = 0 ∨ s.runningVats cl (s.core j.e.core).ptag < (s.part (s.core j.e.core).ptag).vats) →
      (∀ v ∈ (s.clu cl).sched.take k, v.vat ≠ 0) → s.inShare j = true → j.barredVat ≠ some vat →
      (s.promisedOf j ≠ none ∨ ∀ v ∈ (s.clu cl).sched, s.promisedOf v = none) →
      ((s.clu cl).startCheck j = none →
        Goes (.tileTaskStart cl k vat) s fun u => (u.clu cl).sched = (s.clu cl).sched.set k { j with vat := vat + 1 } ∧ u.mem = s.mem)
      ∧ (∀ f, (s.clu cl).startCheck j = some f →
        Goes (.tileTaskStart cl k vat) s fun u => (u.clu cl).sched = (s.clu cl).sched.set k { j with fault := some f } ∧ u.mem = s.mem))
  ∧ (∀ (s s1 u : State) (cl k : Nat) (j : TTask) (x y z : List Byte), (s.clu cl).sched[k]? = some j →
      let sz := fmtSize (vatPath j.path).2.2.1
      (j.fault = none → j.vat ≠ 0 → j.path ≠ 5 → (s.clu cl).rival k j = false → s.tileOperands cl j = some (s1, x, y, z) →
        (s1.writeRange (agVat cl) (tileLoc cl j.cTile + j.prog * sz)
          (((j.result x y z).drop (j.prog * sz)).take ((j.m * j.n - j.prog) * sz)) []).endTile cl k j none = some u →
        exec (.tileTaskComplete cl k none) s = .next u ∧ (u.clu cl).sched = ((s.clu cl).sched.eraseIdx k).map (·.after j.id))
      ∧ (∀ f, j.fault = some f → s.endTile cl k j (some f) = some u →
        exec (.tileTaskComplete cl k none) s = .next u ∧ (u.clu cl).sched.length + 1 = (s.clu cl).sched.length))
  ∧ (∀ (s : State) (c : Nat) (e : Eff) (rest : List Eff), SMap.get [] 1 (s.core c).q = e :: rest →
      let cl := clusterOf c
      (s.clu cl).trel.win.length < 32 → s.cmdReady e = true → s.takesNext c 1 e = true → s.quiet c = false →
      (e.op ≠ 0xD0 → e.op ≠ 0xD7 →
        Goes (.trellisAccept c) s fun u => (u.clu cl).trel.win = (s.clu cl).trel.win ++ [{ e := e }] ∧ SMap.get [] 1 (u.core c).q = rest)
      ∧ (∀ s1 bs, (e.op = 0xD0 ∨ e.op = 0xD7) → s.barredAt e.ctx (e.hnds.headD 0) (e.locs.headD 0) = false →
        (s.joinCmd (agTrellis cl) e).engRead (agTrellis cl) (e.locs.headD 0) (e.vc.toNat * spElem e.op e.m) = .bytes s1 bs →
        Goes (.trellisAccept c) s fun u => (u.clu cl).trel.win = (s.clu cl).trel.win ++ [{ e := e, mem := bs }]
          ∧ SMap.get [] 1 (u.core c).q = rest))
  ∧ (∀ (s : State) (cl k tree : Nat) (w : TCmd), (s.clu cl).trel.win[k]? = some w → w.started = false → s.quiet w.e.core = false →
      let g := (s.clu cl).trel.image w.e.ctx
      (s.clu cl).trel.held = w.e.ctx + 1 → (isGrad w.e = true → ∀ v ∈ (s.clu cl).trel.win.take k, isGrad v.e = false) →
      (∀ i ∈ needs w.e, SMap.get false i g.full = true) →
      (onTree w.e = true → tree < 4 ∧ tree ∉ (s.clu cl).treesOff ∧ (∀ v ∈ (s.clu cl).trel.win, v.tree ≠ tree + 1)
        ∧ ((s.core w.e.core).ptag = 0 ∨ s.runningTrees cl (s.core w.e.core).ptag < (s.part (s.core w.e.core).ptag).trees)) →
      Goes (.trellisCommandStart cl k tree) s fun u => ∃ v, (u.clu cl).trel.win = (s.clu cl).trel.win.set k v ∧ v.started = true ∧ v.e = w.e
        ∧ (v.tree = if onTree w.e then tree + 1 else 0) ∧ (onTree w.e = true → v.mem = g.subtree w.e.sh)
        ∧ (w.e.op = 0xD0 ∨ w.e.op = 0xD7 → v.mem = w.mem) ∧ (w.e.op = 0xD1 ∨ w.e.op = 0xD5 → v.mem = g.words (rangeOf w.e)))
  ∧ (∀ (s : State) (cl k : Nat) (w : TCmd), (s.clu cl).trel.win[k]? = some w → w.started = true →
      let e := w.e
      let g := (s.clu cl).trel.image e.ctx
      let bare (l : List TCmd) := l.map fun v => ({ v with had := [] } : TCmd)
      (onTree e = true → w.tree ≠ 0) →
      (e.op ≠ 0xD1 → e.op ≠ 0xD8 → (s.core e.core).vxe = 0 → (e.op = 0xD3 → g.subtree e.sh = w.mem ∧ w.had = []) →
        Goes (.trellisCommandRetire cl k none) s fun u => bare (u.clu cl).trel.win = bare ((s.clu cl).trel.win.eraseIdx k)
          ∧ (w.fills = false → (u.clu cl).trel.image e.ctx = (w.effect g).1)
          ∧ (w.fills = true → ∀ i,
              (SMap.get 0#32 i ((u.clu cl).trel.image e.ctx).val
                = if i ∈ (rangeOf e).drop w.prog then SMap.get 0#32 i (w.effect g).1.val else SMap.get 0#32 i g.val)
              ∧ SMap.get false i ((u.clu cl).trel.image e.ctx).full
                = (decide (i ∈ (rangeOf e).drop w.prog) || SMap.get false i g.full))
          ∧ (u.core e.core).vxf = flInto (s.core e.core).vxf (w.effect g).2.1)
      ∧ (w.fills = true → w.prog + 1 < e.vc.toNat → ∀ tree,
        Goes (.trellisCommandStart cl k tree) s fun u => ∃ v, (u.clu cl).trel.win[k]? = some v ∧ v.e = e ∧ v.prog = w.prog + 1
          ∧ ∀ i, SMap.get false i ((u.clu cl).trel.image e.ctx).full = (decide (i = e.vb.toNat + w.prog) || SMap.get false i g.full))
      ∧ ((e.op = 0xD1 ∨ e.op = 0xD8) → s.barredAt e.ctx (e.hnds.headD 0) (e.locs.headD 0) = false → s.goneLoc (e.locs.headD 0) = false →
        s.writeMay e.core e.thr e.seq (locs (e.locs.headD 0) w.mem.length) false = true →
        Goes (.trellisCommandRetire cl k none) s fun u => (u.clu cl).trel.win = (s.clu cl).trel.win.eraseIdx k
          ∧ u.oom = (s.writeAt (agThread e.core e.thr) (e.locs.headD 0) w.mem (s.thr e.core e.thr).rel).oom))
  ∧ (∀ (s : State) (cl x : Nat), (s.clu cl).trel.held ≠ x + 1 → (∀ w ∈ (s.clu cl).trel.win, w.tree = 0) →
      (∃ w ∈ (s.clu cl).trel.win, w.e.ctx = x) → Goes (.trellisImageSwap cl x) s fun u => (u.clu cl).trel.held = x + 1
        ∧ (u.clu cl).trel.win = (s.clu cl).trel.win ∧ (u.clu cl).trel.img = (s.clu cl).trel.img)
  ∧ (∀ (s : State) (c : Nat) (e : Eff) (rest : List Eff), SMap.get [] 2 (s.core c).q = e :: rest →
      let cl := clusterOf c
      ((s.clu cl).ladle.filter LReq.runs).length < 16 → s.cmdReady e = true → s.quiet c = false →
      Goes (.ladleRequestAccept c) s fun u => SMap.get [] 2 (u.core c).q = rest ∧ (u.clu cl).ladleNext = (s.clu cl).ladleNext + 1
        ∧ (u.clu cl).ladle.getLast? = some { id := (s.clu cl).ladleNext, e := e, total := e.vb.toNat, accepted := true }
        ∧ ∀ r ∈ (s.clu cl).ladle, r.runs = true → r ∈ (u.clu cl).ladle)
  ∧ (∀ (s s1 : State) (cl k : Nat) (r : LReq), (s.clu cl).ladle[k]? = some r → r.ended = .running → s.quiet r.e.core = false →
      (r.cancel = true → Goes (.ladleChunk cl k) s fun u => (u.clu cl).ladle[k]? = some { r with ended := .cancelled } ∧ u.oom = s.oom)
      ∧ (∀ cause info, r.cancel = false → r.prog < r.total → s.chkChunk r = .fault cause info →
          Goes (.ladleChunk cl k) s fun u => u.oom = s.oom ∧ (u.clu cl).ladle[k]? = some { r with ended := .err cause }
            ∧ u.hmsgs = s.hmsgs ++ [{ dst := r.e.core, msg := { g1 := msgG1 r.e.thr 2 cause 0x63, g2 := r.e.head, g3 := info, ctx := r.e.ctx } }])
      ∧ (∀ rd wr bs, r.cancel = false → r.prog < r.total → s.chkChunk r = .ok rd wr →
          s.readAll (agLadle cl) rd = some (s1, bs) →
          let out := if r.e.op = 0xE0 then bs else fillBytes r.e.va r.prog r.chunkLen
          Goes (.ladleChunk cl k) s fun u =>
            u.oom = ((s1.writeAll (agLadle cl) wr out).asWhole (chunkWhole s1.oom.nextEv) s1.oom.nextEv).oom
            ∧ (u.clu cl).ladle[k]? = some { r with
                prog := r.prog + r.chunkLen, waiting := false, ended := if r.total ≤ r.prog + r.chunkLen then .done else .running }))
  ∧ (∀ (s s1 : State) (c : Nat) (e : Eff) (rest : List Eff) (bs : List Byte), SMap.get [] 3 (s.core c).q = e :: rest →
      let d := dieOf c
      let grp := locId (e.locs.headD 0)
      s.cmdReady e = true → s.quiet c = false →
      (s.joinCmd (agPress d) e).engRead (agPress d) (e.locs.headD 0 + 8) 8 = .bytes s1 bs →
      Goes (.pressCommandAccept c) s fun u => SMap.get [] 3 (u.core c).q = rest
        ∧ (u.die d).press = (s.die d).press
            ++ [{ e := e, grp := grp, rank := e.rd, k := SMap.get 0 (grp * 2 ^ 16 + e.rd) s.pressK, cc := wordAt bs 0 }])
  ∧ (∀ (s : State) (d k : Nat) (m : PMem), (s.die d).press[k]? = some m →
      (s.pressAll m.grp m.k).length + (s.pressAway m.grp).length = s.pressMembers m.grp →
      (∀ v ∈ s.pressAll m.grp m.k, s.quiet v.e.core = false) →
      ((∃ v ∈ s.pressAll m.grp m.k, v.shape ≠ m.shape) →
        Goes (.pressChunk d k) s fun u => u.mem = s.mem ∧ ∀ v ∈ s.pressAll m.grp m.k, v ∉ (u.die (dieOf v.e.core)).press)
      ∧ (∀ s1 rd wr bs, s.pressAll m.grp m.k = [m] → s.pressAway m.grp = [] → dieOf m.e.core = d → m.e.op = 0xE4 → m.rank = 0 → m.root = 0 →
          let f := pressFmt m.e.m
          let n := min (65536 / fmtSize f) (m.count - m.prog)
          m.prog < m.count →
          s.chkRange m.e.core m.e.ctx m.e.va (m.prog * fmtSize f : Nat) (n * fmtSize f) false = .ok rd →
          s.chkRange m.e.core m.e.ctx m.e.vd (m.prog * fmtSize f : Nat) (n * fmtSize f) true = .ok wr →
          s.readAll (agPress d) rd = some (s1, bs) →
          Goes (.pressChunk d k) s fun u =>
            (m.prog + n < m.count → (u.die d).press[k]? = some { m with prog := m.prog + n })
            ∧ (m.count ≤ m.prog + n → ∀ v ∈ (u.die d).press, ¬ (v.grp = m.grp ∧ v.rank = m.rank ∧ v.k = m.k))))

/-- Tier 2. The Network Engine and the completion counters (R104, R235 to R237, R326, R335 to R338). A work request is
accepted; a packet of a SEND leaves with the bytes that its source holds, unless the network loses it; one that finds
its post is placed, completes the message and is acknowledged; an acknowledgement ends the request, and a refusal for
want of a post marks its packet; a packet unacknowledged too long is sent again until its eighth copy, which ends the
request with 0x71; a refused packet is sent again after 10 µs. A counter step counts at the counter's home. -/
def Obligations.NetworkEvents : Prop :=
  (∀ (s : State) (c : Nat) (e : Eff) (rest : List Eff), SMap.get [] 4 (s.core c).q = e :: rest → s.cmdReady e = true → s.quiet c = false →
    let d := dieOf c
    Goes (.netRequestAccept c) s fun u => SMap.get [] 4 (u.core c).q = rest ∧ (u.die d).netNext = (s.die d).netNext + 1
      ∧ (u.die d).net = (s.die d).net ++ [{
          id := (s.die d).netNext, e := e, op := e.op - 0xE7, len := nrLen e.data, lptr := nrLptr e.data, peer := nrPeer e.data
          tag := nrTag e.data, ticket := BitVec.ofNat 128 (leAt e.data 0x18 16), roff := leAt e.data 0x28 8, cc := nrCc e.data
          fence := bit (leAt e.data 1 1) 1, total := if e.op = 0xE9 then 0 else pktCount (nrLen e.data) }])
  ∧ (∀ (s s1 : State) (d k i : Nat) (lost : Bool) (r : NReq) (rd : List (Nat × Nat)) (bs : List Byte), (s.die d).net[k]? = some r →
      r.op = 1 → r.ended = false → i < r.total → (r.pkt i).sends = 0 → (r.pkt i).refused = false → (r.pkt i).done = false →
      s.netFree d r = true → s.quiet r.e.core = false →
      s.chkRange r.e.core r.e.ctx r.lptr (i * 2048 : Nat) (pktLen r.len i) false = .ok rd → s.readAll (agNet d) rd = some (s1, bs) →
      Goes (.netPacketSend d k i lost) s fun u =>
        (∃ w, (u.die d).net[k]? = some w ∧ (w.pkt i).sends = 1 ∧ (w.pkt i).last = s.cyc)
        ∧ (lost = true → u.pkts = s.pkts)
        ∧ (lost = false → ∃ x p, u.pkts = s.pkts ++ [(x, p)] ∧ p.kind = .send ∧ p.dst = r.peer ∧ p.msg = r.id ∧ p.idx = i ∧ p.data = bs))
  ∧ (∀ (s : State) (d x : Nat) (p : NetPkt) (r : NReq) (wr : List (Nat × Nat)), s.portOf p.dst = some (d, x) → pktWhole p = true →
      p.kind = .send → bit p.tag.toNat 63 = false → p.idx = 0 → p.len ≤ 2048 → p.len ≤ r.len → (s.die d).net = [r] → r.op = 2 →
      r.posted = false → r.ended = false → r.e.ctx = x → r.tag = p.tag → (r.peer = BitVec.allOnes 64 ∨ r.peer = p.src) →
      r.fence = false → s.stopReached r.e.core = false → r.pkts = [] →
      s.chkRange r.e.core r.e.ctx r.lptr (0 : Nat) p.len true = .ok wr →
      Goes (.netPacketArrival d (.outside p)) s fun u =>
        (∃ w, (u.die d).net = [w] ∧ w.ended = true ∧ w.cause = 0 ∧ w.placed = [0]) ∧ u.oom = (s.writePkt (agNet d) wr p.data).oom
        ∧ ∃ y, u.acks = s.acks ++ [(y, { dst := p.src, msg := p.msg, idx := 0, placed := [0], refused := 0 })])
  ∧ (∀ (s : State) (d : Nat) (a : NetReply) (r : NReq), (s.die d).net = [r] → r.op = 1 → r.ended = false → r.id = a.msg →
      portName d r.e.ctx = a.dst → r.total = 1 → a.idx = 0 → a.data = false →
      (a.refused = 0 → Goes (.netAckArrival d (.outside a)) s fun u => ∃ w, (u.die d).net = [w] ∧ w.ended = true ∧ w.cause = 0)
      ∧ (a.refused = 1 → (r.pkt 0).done = false →
          Goes (.netAckArrival d (.outside a)) s fun u => ∃ w, (u.die d).net = [w] ∧ w.ended = false ∧ (w.pkt 0).refused = true
            ∧ (w.pkt 0).sends = (r.pkt 0).sends - 1)
      ∧ (1 < a.refused → Goes (.netAckArrival d (.outside a)) s fun u => ∃ w, (u.die d).net = [w] ∧ w.ended = true ∧ w.cause = a.refused))
  ∧ (∀ (s s1 : State) (d k i : Nat) (lost : Bool) (r : NReq) (rd : List (Nat × Nat)) (bs : List Byte), (s.die d).net[k]? = some r →
      r.op = 1 → r.ended = false → i < r.total → (r.pkt i).refused = false → (r.pkt i).done = false → r.due i s.cyc = true →
      s.quiet r.e.core = false →
      (8 ≤ (r.pkt i).sends → Goes (.netResendTimeout d k i lost) s fun u => ∃ w, (u.die d).net[k]? = some w ∧ w.ended = true ∧ w.cause = 0x71)
      ∧ (0 < (r.pkt i).sends → (r.pkt i).sends < 8 →
          s.chkRange r.e.core r.e.ctx r.lptr (i * 2048 : Nat) (pktLen r.len i) false = .ok rd → s.readAll (agNet d) rd = some (s1, bs) →
          Goes (.netResendTimeout d k i lost) s fun u => ∃ w, (u.die d).net[k]? = some w ∧ (w.pkt i).sends = (r.pkt i).sends + 1))
  ∧ (∀ (s s1 : State) (d k : Nat) (lost : Bool) (r : NReq) (rd : List (Nat × Nat)) (bs : List Byte), (s.die d).net[k]? = some r →
      r.op = 1 → r.ended = false → r.total = 1 → (r.pkt 0).refused = true → (r.pkt 0).last + 17000 ≤ s.cyc → s.quiet r.e.core = false →
      s.chkRange r.e.core r.e.ctx r.lptr (0 : Nat) (pktLen r.len 0) false = .ok rd → s.readAll (agNet d) rd = some (s1, bs) →
      Goes (.netUnmatchedRetry d k lost) s fun u => ∃ w, (u.die d).net[k]? = some w ∧ (w.pkt 0).refused = false
        ∧ (w.pkt 0).sends = (r.pkt 0).sends + 1)
  ∧ (∀ (s : State) (k l : Nat) (o : Owed), s.owed[k]? = some o → o.after = [] → o.queue = none → (o.agent ≠ agHub 1 ∨ s.pause ≤ s.dtime) →
      s.reach o.core o.ctx o.ctr 8 = .at_ l →
      s.atomicReady o.agent (locs l 8) = true → (∀ w ∈ s.oom.ws, w.id < s.oom.nextId) →
      Goes (.completionCounterStep k) s fun u => u.owed = s.owed.eraseIdx k
        ∧ u.homeBytes (locs l 8) = ccStep (s.homeBytes (locs l 8)) o.cause)

/-- The reply to a frame: its request's TYPE, FLAGS, CTX and SEQ, to who sent it (R343; log entry 116). -/
def Sys2Proof.Spec.answerOf (f : Frame) (status sub : Nat) (token arg : Word) (data : List Byte) : Reply :=
  { type := f.type.toNat, flags := f.flags.toNat, ctx := f.ctx.toNat, peer := (match f.peer with | some p => p + 1 | none => 0)
    seq := f.seq.toNat, status := status, sub := sub, token := token, arg := arg, data := data }

/-- A frame's request goes to the NSE as `e`, in context `x` of state `w`: `i` answers the frame as the NSE does. -/
def Sys2Proof.Spec.Asks (i : Instr) (s w : State) (x : Nat) (f : Frame) (e : Eff) : Prop :=
  let r : HubReq := { e := e, seq := w.hubNext, frame := some f, ctx := x }
  let s1 : State := { w with hub := w.hub ++ [r], hubNext := w.hubNext + 1 }
  (∀ s2 v, s1.hubDo w.hub.length r = .ok s2 v → Goes i s fun u => u.hub = s2.hub.eraseIdx w.hub.length
      ∧ u.replies = s2.replies ++ [answerOf f 0 0 v 0 []])
  ∧ (∀ s2 c sub info, s1.hubDo w.hub.length r = .no s2 c sub info → c ≠ 0 → Goes i s fun u => u.hub = s2.hub.eraseIdx w.hub.length
      ∧ u.replies = s2.replies ++ [answerOf f c sub 0 0 []])

/-- A good frame of a type, which acts in context `x` of state `w` (R343, R344). -/
structure Sys2Proof.Spec.Serves (s : State) (f : Frame) (type : Nat) (w : State) (x : Nat) : Prop where
  good : frameBad f = false
  kind : f.type.toNat = type
  ctx : s.frameCtx f = .ok (w, x)

/-- The instructions that serve a frame, each with its TYPE (R344). -/
def Sys2Proof.Spec.FrameForm (f : Frame) (i : Instr) (type : Nat) : Prop :=
  (i = .frameWalk f ∧ type = 1) ∨ (i = .frameOpen f ∧ type = 2) ∨ (i = .frameRead f ∧ type = 3)
    ∨ ((i = .frameWrite f ∨ i = .frameMake f) ∧ type = 4) ∨ ((i = .frameClose f ∨ i = .frameRevoke f) ∧ type = 5)
    ∨ ((i = .frameBind f ∨ i = .frameUnbind f) ∧ type = 6)

/-- The instruction that serves a frame of its TYPE where two share one: by REVOKE, or by UNBIND (R344). -/
def Sys2Proof.Spec.OwnForm (f : Frame) (i : Instr) : Prop :=
  (i = .frameClose f → bit f.flags.toNat 0 = false) ∧ (i = .frameRevoke f → bit f.flags.toNat 0 = true)
    ∧ (i = .frameBind f → bit f.flags.toNat 7 = false) ∧ (i = .frameUnbind f → bit f.flags.toNat 7 = true)

/-- Tier 2. Names, handles and frames (R243 to R250, R256, R343 to R350, R382). The NSE takes a plot-map acknowledgement
and refuses one ahead of the version; a shoot-down reaches its stations, and the last acknowledgement of a revocation
leaves the handle REVOKED. A malformed frame is answered 0x80, one without a context with its refusal. In the context it
acts in, a walk, open, bind or unbind frame is answered as the NSE answers its request; a close frame makes its handle
INVALID and a revoking one REVOKING, each with its shoot-down; a read frame answers the bytes, a write frame writes them,
one at a make handle makes its directories. A tenant context is created with its identifier; its end stops its queues and
partitions, then revokes every handle, then frees what it held, and is answered once the freed tiles are filled. -/
def Obligations.NameEvents : Prop :=
  (∀ (s : State) (k : Nat) (r : HubReq), s.hub[k]? = some r → r.e.op = 0xF9 → r.e.st = 0 → r.frame = none →
    (r.e.va.toNat ≤ s.pmVer → (s.ctx r.ctx).pmver < r.e.va.toNat →
      Goes (.nseAnswer k) s fun u => u.hub = s.hub.eraseIdx k ∧ (u.ctx r.ctx).pmver = r.e.va.toNat)
    ∧ (s.pmVer < r.e.va.toNat → ∀ e ∈ (s.thr r.e.core r.e.thr).s5, e.seq = r.seq → e.st = 1 →
      Goes (.nseAnswer k) s fun u => u.hub = s.hub.eraseIdx k ∧ (u.ctx r.ctx).pmver = (s.ctx r.ctx).pmver
        ∧ { e with st := 3, ans := r.e.va, vb := BitVec.ofNat 64 (0xA5 * 256) } ∈ (u.thr r.e.core r.e.thr).s5))
  ∧ (∀ (s : State) (k st : Nat) (q : Shoot), s.shoots[k]? = some q →
      Goes (.shootdownReceipt k st) s fun u => u.shoots[k]? = some { q with toReach := q.toReach.filter (· != st) } ∧ u.mem = s.mem
        ∧ u.ctxs = s.ctxs ∧ (q.entry = true → ∀ w ∈ u.stale, w.loc = q.loc → st ∉ w.left))
  ∧ (∀ (s : State) (k st : Nat) (q : Shoot), s.shoots[k]? = some q → st ∉ q.toReach → st ∈ q.toAck →
      (q.entry = true ∨ s.passed q.ctx q.hnd st = false) →
      ((∃ n ∈ q.toAck, n ≠ st) →
        Goes (.shootdownAck k st) s fun u => u.shoots[k]? = some { q with toAck := q.toAck.filter (· != st) } ∧ u.ctxs = s.ctxs)
      ∧ ((∀ n ∈ q.toAck, n = st) → q.entry = false → q.close = false → (∀ r ∈ s.hub, r.waitsOn q.ctx q.hnd = false) →
        Goes (.shootdownAck k st) s fun u => u.shoots = s.shoots.eraseIdx k ∧ (u.desc q.ctx q.hnd).st = .revoked))
  ∧ (∀ (s : State) (f : Frame) (i : Instr) (type : Nat), FrameForm f i type →
      (frameBad f = true → Goes i s fun u => u = { s with replies := s.replies ++ [answerOf f 0x80 0 0 0 []] })
      ∧ (∀ c sub, frameBad f = false → f.type.toNat = type → OwnForm f i → s.frameCtx f = .error (c, sub) →
          Goes i s fun u => u = { s with replies := s.replies ++ [answerOf f c sub 0 0 []] }))
  ∧ (∀ (s w : State) (x : Nat) (f : Frame), Serves s f 1 w x →
      (∀ p, framePath f.payload = some p → Asks (.frameWalk f) s w x f { op := 0xF0, n := bit f.flags.toNat 0, vb := f.token })
      ∧ (framePath f.payload = none → Goes (.frameWalk f) s fun u => u.replies = w.replies ++ [answerOf f 0xB2 0 0 0 []]))
  ∧ (∀ (s w : State) (x : Nat) (f : Frame), Serves s f 2 w x → s.isCreate f = false →
      (f.payload = [] → Asks (.frameOpen f) s w x f { op := 0xF1, va := f.token, vb := f.arg, m := f.flags.toNat })
      ∧ (∀ p w2 tok, f.payload ≠ [] → framePath f.payload = some p → w.resolve x (some f.token) p = .ok w2 tok →
          Asks (.frameOpen f) s w2 x f { op := 0xF1, va := tok, vb := f.arg, m := f.flags.toNat }))
  ∧ (∀ (s w : State) (x : Nat) (f : Frame), Serves s f 6 w x →
      (bit f.flags.toNat 7 = false → Asks (.frameBind f) s w x f { op := 0xF3, m := f.flags.toNat % 32, va := f.token, vb := f.arg })
      ∧ (bit f.flags.toNat 7 = true → Asks (.frameUnbind f) s w x f { op := 0xF4, va := f.token, vb := f.arg }))
  ∧ (∀ (s w : State) (x : Nat) (f : Frame), Serves s f 5 w x → fpHnd f.token ≠ 0 →
      (bit f.flags.toNat 0 = false → (w.desc x (fpHnd f.token)).st = .valid →
        Goes (.frameClose f) s fun u => (u.desc x (fpHnd f.token)).st = .invalid ∧ u.mem = w.mem
          ∧ ∃ q, u.shoots = w.shoots ++ [q] ∧ q.ctx = x ∧ q.hnd = fpHnd f.token ∧ q.close = true)
      ∧ (∀ y, bit f.flags.toNat 0 = true → s.ends f = none → (w.desc y (fpHnd f.token)).st = .valid →
          ((bit f.flags.toNat 1 = false ∧ y = x) ∨ (bit f.flags.toNat 1 = true ∧ y = f.arg.toNat ∧ y < 4096 ∧ x = 1
            ∧ (w.ctx y).alive = true ∧ (w.ctx y).dom = 0 ∧ (w.ctx y).owner = 1)) →
        Goes (.frameRevoke f) s fun u => (u.desc y (fpHnd f.token)).st = .revoking ∧ u.mem = w.mem
          ∧ ∃ q, u.shoots = w.shoots ++ [q] ∧ q.ctx = y ∧ q.hnd = fpHnd f.token ∧ q.close = false))
  ∧ (∀ (s w : State) (x : Nat) (f : Frame) (k : Ok), Serves s f 3 w x → w.makeOf x f = none → w.frameSpan x f rRead = .ok k →
      k.np = none → w.bad = [] → (∀ l ∈ locs k.loc f.len.toNat, w.inWindow l = false ∧ w.zLoc l = false) →
      Settled w (locs k.loc f.len.toNat) →
      Goes (.frameRead f) s fun u => u.mem = w.mem
        ∧ u.replies = w.replies ++ [answerOf f 0 0 0 0 ((locs k.loc f.len.toNat).map w.base)])
  ∧ (∀ (s w : State) (x : Nat) (f : Frame) (k : Ok), Serves s f 4 w x → w.makeOf x f = none → w.frameSpan x f rWrite = .ok k →
      ((w.obj (locId k.loc)).kind.isMem = true → k.np = none →
        (k.ws = none ∨ ∀ y ∈ w.holdersOf (locId k.loc), w.quiescent y = true) → (∀ l ∈ locs k.loc f.len.toNat, w.zLoc l = false) →
        Goes (.frameWrite f) s fun u => u.mem = w.mem ∧ u.replies = w.replies ++ [answerOf f 0 0 0 0 []]
          ∧ ∀ (j l : Nat) (b : Byte), (locs k.loc f.len.toNat)[j]? = some l → f.payload[j]? = some b →
              ∃ n, u.oom.writes l = w.oom.writes l ++ [n] ∧ n.val = b)
      ∧ ((w.obj (locId k.loc)).kind.isMem = true → k.np = none → k.ws ≠ none → (∃ y ∈ w.holdersOf (locId k.loc), w.quiescent y = false) →
        Goes (.frameWrite f) s fun u => u = { w with replies := w.replies ++ [answerOf f 0x22 0 0 0 []] })
      ∧ (∀ s2, (w.obj (locId k.loc)).kind.isMem = false →
          w.writeReg (locId k.loc) (locOff k.loc) f.payload ((w.ctx x).dom == 2) f.peer.isSome = (s2, 0) →
        Goes (.frameWrite f) s fun u => u = { s2 with replies := s2.replies ++ [answerOf f 0 0 0 0 []] }))
  ∧ (∀ (s w s2 : State) (x : Nat) (f : Frame) (n c sub : Nat), Serves s f 4 w x → w.makeOf x f = some n → fpOff f.token = 0 →
      bit (w.desc x (fpHnd f.token)).rights rWrite = true → f.payload.length ≤ 1023 → 0#8 ∉ f.payload →
      w.makePath x n f.payload = (s2, c, sub) →
      Goes (.frameMake f) s fun u => u = { s2 with replies := s2.replies ++ [answerOf f c sub 0 0 []] })
  ∧ (∀ (s : State) (f : Frame) (id d : Nat), frameBad f = false → s.isCreate f = true → s.idFree id = true → s.tenantDir = some d →
      Goes (.contextCreate f id) s fun u => (u.ctx id).alive = true ∧ (u.ctx id).dom = 0 ∧ (u.ctx id).owner = 1
        ∧ (u.ctx id).pmver = s.pmVer ∧ u.replies = s.replies ++ [answerOf f 0 0 0 (BitVec.ofNat 64 id) []])
  ∧ (∀ (s : State) (f : Frame) (x : Nat), frameBad f = false → s.ends f = some x →
      ((s.ctx x).ending = 0 → Goes (.contextEnd f) s fun u => (u.ctx x).ending = 1
        ∧ (∀ r ∈ u.queues, r.2.ctx = x → r.2.state = 2 ∧ r.2.valid = false)
        ∧ ∀ t ∈ s.partsOf x, (s.part t).running = true → ∃ q ∈ u.stops, q.core = false ∧ q.target = t)
      ∧ ((s.ctx x).ending = 1 → s.stands x = true → Goes (.contextEnd f) s fun u => (u.ctx x).ending = 2
        ∧ ∀ h, (s.desc x h).st = .valid → (u.desc x h).st = .revoking)
      ∧ ((s.ctx x).ending = 1 → s.stands x = false → Goes (.contextEnd f) s fun u => u = s)
      ∧ ((s.ctx x).ending = 2 → (∀ k ∈ s.shoots, k.entry = true ∨ k.ctx ≠ x) →
        Goes (.contextEnd f) s fun u => (u.ctx x).ending = 3 ∧ (u.ctx x).alive = false
          ∧ ∀ cl n, (((s.clu cl).tile n).own = .ctx x ∨ ((s.clu cl).tile n).own = .eng x) →
              ((u.clu cl).tile n).own = .free ∧ ((u.clu cl).tile n).filling = true)
      ∧ (3 ≤ (s.ctx x).ending → (∀ r ∈ s.clus, ∀ t ∈ r.2.tiles, t.2.filling = false) →
        Goes (.contextEnd f) s fun u => (u.ctx x).ending = 4 ∧ u.replies = s.replies ++ [answerOf f 0 0 0 0 []]))

/-- A packet of a queue has completed: it is gone from the queue's records (R358). -/
def Sys2Proof.Spec.Completed (u : State) (q : Nat) (p : Pkt) : Prop := ∀ w ∈ (u.queue q).pkts, w.tag ≠ p.tag

/-- Tier 2. Command queues, packets, launches and the supervisor pair (R290, R291, R296, R353 to R365). GO starts a queue
that is not running at RST; a control block keeps what the host writes and refuses another's write; a header that is
valid is taken, a whole packet whose CHECK stands joins the queue and moves its index, one whose CHECK does not stops
it. A packet starts in its turn, and completes: a launch with its launches, a WAIT at its threshold, a SIGNAL and a
REPLAY with their counter's step, a COPY with its last chunk, an IB with its last packet, a BIND with the NSE's answer,
a NOP at once. A granule is read, a parser core's fault drops the packet unfinished, a mismatch of the pair keeps what
is journaled, a pass of the placer visits the promised queues and then those of class 0 from one queue further on, and a launch whose work is done releases its cores and
owes its counter. -/
def Obligations.QueueEvents : Prop :=
  (∀ (s : State) (q rst : Nat) (k1 : Queue), (s.queue q).alive = true → (s.ctx (s.queue q).ctx).ending = 0 →
    let s1 := s.poke (locObj (s.queue q).ctl 0x18) (leBytes 8 (rst % 2 ^ 63))
    ((s.queue q).state = 2 ∨ ((s.queue q).lastPub ≤ rst ∧ rst ≤ s1.ctlWord q 0)) → s1.queueConfig q = some k1 →
    Goes (.queueGo q rst) s fun u => (u.queue q).state = 0 ∧ (u.queue q).c = rst ∧ (u.queue q).valid = false
      ∧ (u.queue q).lastPub = rst)
  ∧ (∀ (s : State) (q off : Nat) (v : Word), (s.queue q).alive = true →
      ((off = 0x20 ∨ off = 0x28 ∨ off = 0x30) → (s.obj (s.queue q).ctl).kind = .ctl q →
        Goes (.queueCtlWrite q off v false) s fun u => u.ctlWord q off = v.toNat ∧ u.queues = s.queues)
      ∧ (off ≠ 0 → Goes (.queueCtlWrite q off v true) s fun u => u.mem = s.mem ∧ u.queues = s.queues
          ∧ u.replies = s.replies ++ [{ seq := 0, status := 0x12, sub := 0, token := 0, arg := 0, data := [] }]))
  ∧ (∀ (s : State) (q : Nat), (s.queue q).alive = true → (s.queue q).state = 0 → (s.queue q).valid = false → (s.queue q).buffer = none → s.pause ≤ s.dtime →
      let ls := locs (s.unitLoc q (s.queue q).c) 8
      s.goneLoc (s.unitLoc q (s.queue q).c) = false → Settled s ls → (∀ l ∈ ls, s.zLoc l = false) →
      hdrValid (wordAt (ls.map s.base) 0) (s.queue q).c = true →
      Goes (.queueHeaderRead q) s fun u => (u.queue q).valid = true ∧ (u.queue q).hdr = wordAt (ls.map s.base) 0
        ∧ (u.queue q).c = (s.queue q).c)
  ∧ (∀ (s s1 : State) (q : Nat) (b : List Byte), (s.queue q).alive = true → (s.queue q).state = 0 → (s.queue q).valid = true →
      (s.queue q).buffer = none → s.pause ≤ s.dtime → bits (s.queue q).hdr.toNat 16 8 ≠ 0 →
      s.ringBytes q (s.queue q).c (bits (s.queue q).hdr.toNat 16 8) = .ok s1 b →
      (∀ s2 l, checkOk b = true →
        s1.parseAll q b 0 { idx := (s.queue q).c, tag := (s.queue q).nextTag, bytes := [], views := (s.queue q).hview } = .ok s2 l →
        Goes (.packetParse q) s fun u => (u.queue q).pkts = (s2.queue q).pkts ++ l ∧ (u.queue q).valid = false
          ∧ (u.queue q).c = (s2.queue q).c + bits (s.queue q).hdr.toNat 16 8)
      ∧ (checkOk b = false → Goes (.packetParse q) s fun u => (u.queue q).state = 1 ∧ (u.queue q).irq = true
          ∧ (u.queue q).c = (s.queue q).c ∧ (u.queue q).valid = false))
  ∧ (∀ (s : State) (q : Nat) (p : Pkt) (i : Instr) (n : Nat), (i = .pktLaunch q ∧ n = 1) ∨ (i = .pktGlaunch q ∧ n = 2) →
      (∀ s1 l, (s.queue q).next n (s.mayStart q) = some p →
        (s.startPkt q p).submit (s.queue q).ctx (s.queueTag q) q p.body 0 0 false = (s1, 0, l) →
        Goes i s fun u => (u.launch l).pkt = some (q, p.tag) ∧ (u.launch l).waiting = true
          ∧ { p with started := true, lids := [l] } ∈ (u.queue q).pkts)
      ∧ ((s.queue q).next n (s.mayStart q) = none →
        (s.queue q).next n (fun w => w.started && w.lids.all fun l => (s.launch l).ended) = some p →
        Goes i s fun u => Completed u q p ∧ u.mem = s.mem))
  ∧ (∀ (s : State) (q l : Nat) (p : Pkt), (s.queue q).next 3 (fun w => w.started || s.mayStart q w) = some p → p.started = true →
      s.reach 0 (s.queue q).ctx (wordAt p.bytes 8) 8 = .at_ l → Settled s (locs l 8) → (∀ x ∈ locs l 8, s.zLoc x = false) →
      let b := (locs l 8).map s.base
      leAt p.bytes 0x10 8 ≤ leAt b 0 6 + leAt b 6 1 → Goes (.pktWait q) s fun u => Completed u q p ∧ u.mem = s.mem)
  ∧ (∀ (s : State) (q : Nat) (p : Pkt), (s.queue q).next 4 (s.mayStart q) = none → (s.queue q).next 4 (·.started) = some p →
      (p.prog = 0 → (s.queue q).earlierDone p = true → wordAt p.bytes 8 ≠ 0 →
        Goes (.pktSignal q) s fun u => { p with started := true, prog := 1 } ∈ (u.queue q).pkts
          ∧ ∃ o, u.owed = s.owed ++ [o] ∧ o.ctr = wordAt p.bytes 8 ∧ o.cause = 0 ∧ o.queue = some q)
      ∧ (p.prog ≠ 0 → (∀ o ∈ s.owed, o.queue ≠ some q ∨ o.ctr ≠ wordAt p.bytes 8) → Goes (.pktSignal q) s fun u => Completed u q p))
  ∧ (∀ (s s2 : State) (q : Nat) (p : Pkt) (rd wr : List (Nat × Nat)) (bs : List Byte),
      (s.queue q).next 5 (s.mayStart q) = none → (s.queue q).next 5 (·.started) = some p →
      let total := leAt p.bytes 0x18 8
      let n := min 65536 (total - p.prog)
      s.chkRange 0 (s.queue q).ctx (wordAt p.bytes 0x10) (p.prog : Nat) n false = .ok rd →
      s.chkRange 0 (s.queue q).ctx (wordAt p.bytes 8) (p.prog : Nat) n true = .ok wr → s.readAll (agQueue q) rd = some (s2, bs) →
      Goes (.pktCopy q) s fun u => u.oom.ws = (s2.writeAll (agQueue q) wr bs).oom.ws
        ∧ (total ≤ p.prog + n → Completed u q p)
        ∧ (p.prog + n < total → { p with started := true, prog := p.prog + n } ∈ (u.queue q).pkts))
  ∧ (∀ (s : State) (q : Nat) (p : Pkt) (i : Instr) (n : Nat), (i = .pktSignal q ∧ n = 4) ∨ (i = .pktCopy q ∧ n = 5) →
      (s.queue q).next n (s.mayStart q) = some p →
      Goes i s fun u => { p with started := true } ∈ (u.queue q).pkts
        ∧ u.journal = s.journal ++ [{ queue := q, idx := p.tag, done := false }])
  ∧ (∀ (s : State) (q : Nat) (p : Pkt),
      ((s.queue q).next 6 (s.mayStart q) = some p →
        Goes (.pktIb q) s fun u => { p with started := true } ∈ (u.queue q).pkts
          ∧ u.journal = s.journal ++ [{ queue := q, idx := p.tag, done := false }])
      ∧ ((s.queue q).next 6 (s.mayStart q) = none →
          (s.queue q).next 6 (fun w => w.started && decide (w.len ≤ w.prog) && (s.queue q).pkts.all fun v => v.parent != some w.tag) = some p →
          Goes (.pktIb q) s fun u => Completed u q p))
  ∧ (∀ (s : State) (q : Nat) (p : Pkt),
      let may := fun w : Pkt => s.mayStart q w && decide (s.running w.graph < w.slots)
      ((s.queue q).next 7 may = some p →
        Goes (.pktReplay q) s fun u => { p with started := true } ∈ (u.queue q).pkts
          ∧ u.journal = s.journal ++ [{ queue := q, idx := p.tag, done := false }])
      ∧ ((s.queue q).next 7 may = none → (s.queue q).next 7 (fun w => w.started && (s.queue q).pkts.all fun v => v.parent != some w.tag || !v.launches) = some p →
          p.parent = none → wordAt p.bytes 0x20 ≠ 0 →
          Goes (.pktReplay q) s fun u => Completed u q p
            ∧ ∃ o, u.owed = s.owed ++ [o] ∧ o.ctr = wordAt p.bytes 0x20 ∧ o.cause = p.prog ∧ o.queue = some q))
  ∧ (∀ (s s2 : State) (q : Nat) (p : Pkt) (v : Word), (s.queue q).next 8 (s.mayStart q) = some p →
      let m := leAt p.bytes 0x18 8
      (s.startPkt q p).bindDo (s.queue q).ctx (m % 32) (bit m 7) (wordAt p.bytes 8) (wordAt p.bytes 0x10) = .ok s2 v →
      Goes (.pktBind q) s fun u => Completed u q p ∧ u.binds = s2.binds)
  ∧ (∀ (s : State) (q : Nat) (p : Pkt), (s.queue q).next 9 (s.mayStart q) = some p → p.parent = none →
      Goes (.pktNop q) s fun u => Completed u q p ∧ u.mem = s.mem
        ∧ u.journal = s.journal ++ [{ queue := q, idx := p.tag, done := false }, { queue := q, idx := p.tag, done := true }])
  ∧ (∀ (s : State) (q g : Nat) (p : Pkt) (w : Ok), (s.queue q).buffer = some p → (s.queue q).state = 0 → s.pause ≤ s.dtime →
      (∀ w ∈ s.oom.ws, w.id ≠ 0) →
      ((List.range 5).map (p.granule p.prog + ·)).find?
        (fun g => decide (g ≤ p.granule (p.len - 1)) && SMap.get 0 g (s.queue q).gids == 0) = some g →
      let lo := max (256 * g) (fpOff p.ptr)
      let hi := min (256 * g + 256) (fpOff p.ptr + p.len)
      s.checkHandle (s.queue q).ctx (fpWith p.ptr lo) (hi - lo) 1 rRead = .ok w → w.np = none → Settled s (locs w.loc (hi - lo)) →
      (∀ l ∈ locs w.loc (hi - lo), s.zLoc l = false) →
      Goes (.ibGranuleFetch q) s fun u => (u.queue q).gptr = p.ptr
        ∧ SMap.get [] g (u.queue q).granules = List.replicate (lo - 256 * g) 0#8 ++ (locs w.loc (hi - lo)).map s.base)
  ∧ (∀ (s : State) (q : Nat), (s.queue q).valid = true →
      Goes (.parserCoreFault q) s fun u => (u.queue q).valid = false ∧ (u.queue q).c = (s.queue q).c ∧ (u.queue q).pkts = (s.queue q).pkts
        ∧ u.parserFaults = s.parserFaults + 1)
  ∧ (∀ s : State, Goes .supervisorMismatch s fun u =>
      (∀ q, (∀ p ∈ (u.queue q).pkts, p.parent = none → p.started = true)
        ∧ (∀ p ∈ (s.queue q).pkts, p.started = true → ∃ w ∈ (u.queue q).pkts, w.tag = p.tag ∧ w.started = true) ∧ (u.queue q).valid = false)
      ∧ u.journal = s.journal
      ∧ ∃ r l, u.pause = r.stop ∧ u.times = s.times ++ r :: l ∧ r.reason = 1 ∧ r.start = s.dtime ∧ r.stop ≤ s.dtime + 4250000
        ∧ l.map (·.val) = (s.queues.filter fun k => k.2.alive && k.2.cls != 0).map (·.1)
        ∧ ∀ m ∈ l, m.start = r.start ∧ m.stop = r.stop)
  ∧ (∀ s : State, Goes .supervisorCheckpoint s fun u => u.ckpt = s.journal ∧ u.journal = s.journal ∧ u.queues = s.queues)
  ∧ (∀ (s : State) (tag : Nat), (s.part tag).alive = true → (s.part tag).running = true →
      (∀ k ∈ s.stops, k.core = true ∨ k.target ≠ tag ∨ k.announced = false) → s.pause ≤ s.dtime → s.cut = false →
      let s1 := State.placePromised tag s.passFuel (s.queuesOf tag true) s
      let qs := s1.queuesOf tag false
      let turn := qs.filter ((s.part tag).cls0 ≤ ·) ++ qs.filter (· < (s.part tag).cls0)
      (∀ q, turn.head? = some q → Goes (.placerPass tag) s fun u => (u.part tag).cls0 = q + 1)
        ∧ (qs = [] → Goes (.placerPass tag) s fun u => u = s1))
  ∧ (∀ (s : State) (l : Nat), l ≠ 0 → (s.launch l).hdr ≠ [] → (s.launch l).ended = false →
      (hdrGangs (s.launch l).hdr ≤ (s.launch l).placed ∨ (s.launch l).cause ≠ 0) → (s.part (s.launch l).tag).saved = false →
      (∀ c ∈ (s.launch l).cores, s.released l c = true) → s.runsAnywhere l = false → s.writesLeft l = false → (∀ m ∈ s.migs, m.image.lid ≠ l) →
      Goes (.launchEnd l) s fun u => (u.launch l).ended = true ∧ (∀ c ∈ (s.launch l).cores, (u.core c).lid ≠ l) ∧ u.mem = s.mem
        ∧ (hdrCc (s.launch l).hdr ≠ 0 → ∃ o, u.owed = s.owed ++ [o] ∧ o.ctr = hdrCc (s.launch l).hdr ∧ o.ctx = (s.launch l).ctx))

/-- Tier 2. Partitions, saves and firmware (R58, R256, R367 to R374, R380, R381, R397). A partition is set up on free
cores and runs, its removal waits for it; firmware that restores every save is activated, else deferred; a slice that has
run out, and a context overdue with its acknowledgement, have their partitions stopped 34,000 cycles ahead; a stop is
announced, stops its cores at its time, is flushed, saved with its cores free again, restored and resumed. -/
def Obligations.PartitionEvents : Prop :=
  (∀ (s s0 : State) (r : SupReq) (names : List Nat) (l : List (Nat × Nat)), r.op = 1 → supBad r = false → s.hostCtx r.ctx = true →
    s.readBitmap r.cores = .names s0 names → (s0.part r.tag).alive = false →
    mapNames (s0.usableFor r.tag { slice := r.slice, vats := r.vats, trees := r.trees }) names = some l →
    Goes (.setPartition r) s fun u => (u.part r.tag).alive = true ∧ (u.part r.tag).running = true ∧ (u.part r.tag).ctx = r.ctx
      ∧ (u.part r.tag).vats = r.vats ∧ (u.part r.tag).trees = r.trees ∧ (u.part r.tag).slice = r.slice
      ∧ (u.part r.tag).names = names ∧ u.supRing = s0.supRing ++ [r.unit.set 1 0#8])
  ∧ (∀ (s : State) (r : SupReq), r.op = 2 → supBad r = false → (s.part r.tag).alive = true →
      ((s.part r.tag).slice ≠ 0 → Goes (.removePartition r) s fun u => (u.part r.tag).pending = some r
        ∧ u.supRing = s.supRing ++ [r.unit.set 1 0#8])
      ∧ ((s.part r.tag).slice = 0 → s.busyPart r.tag = false → Goes (.removePartition r) s fun u => (u.part r.tag).alive = false))
  ∧ (∀ (s : State) (r : SupReq) (vers : List Nat) (img : List (List Byte)), r.op = 3 → supBad r = false → img.length = 3 → vers ≠ [] →
      (([1, 2, 4].zip img).all fun p => s.imageOk p.1 p.2) = true → r.flags = 0 →
      (s.unsupported vers = [] → Goes (.activateFirmware r vers img) s fun u => u.restorable = vers ∧ u.deferred = none
        ∧ u.supRing = s.supRing ++ [r.unit.set 1 0#8])
      ∧ (s.unsupported vers ≠ [] → s.deferred ≠ some vers → Goes (.activateFirmware r vers img) s fun u =>
          u.restorable = s.restorable ∧ u.deferred = some vers
          ∧ u.supRing = s.supRing ++ [r.unit.set 1 0x90#8])
      ∧ (s.unsupported vers ≠ [] → s.deferred = some vers → Goes (.activateFirmware r vers img) s fun u =>
          u.restorable = vers ∧ u.deferred = none ∧ ∃ l, u.supRing = l ++ [r.unit.set 1 0#8]))
  ∧ (∀ (s : State) (r : SupReq) (vers : List Nat) (img : List (List Byte)), r.op = 3 →
      (supBad r = true ∨ img.length ≠ 3 ∨ (([1, 2, 4].zip img).all fun p => s.imageOk p.1 p.2) = false) →
      Goes (.activateFirmware r vers img) s fun u => u = { s with supRing := s.supRing ++ [r.unit.set 1 0x80#8] })
  ∧ (∀ (s : State) (tag : Nat), (s.part tag).alive = true → (s.part tag).running = true → (s.part tag).slice ≠ 0 →
      (s.part tag).since + (s.part tag).slice * 850 ≤ s.dtime → (s.part tag).pending ≠ none →
      (∀ k ∈ s.stops, k.core = true ∨ k.target ≠ tag) →
      Goes (.sliceExpiry tag) s fun u => u.stops = s.stops ++ [{ core := false, target := tag, time := s.dtime + 34000 }])
  ∧ (∀ (s : State) (k : Nat) (q : Stop), s.stops[k]? = some q → q.announced = false →
      Goes (.stopAnnouncement k) s fun u => u.stops[k]? = some { q with announced := true } ∧ u.mem = s.mem ∧ u.cores = s.cores)
  ∧ (∀ (s s1 : State) (k : Nat) (q : Stop), s.stops[k]? = some q → q.announced = true → q.stopped = false → q.time ≤ s.dtime →
      s.captureAll (s.stopCores q) = some s1 →
      Goes (.syncStop k) s fun u => (∀ c ∈ s.stopCores q, (u.core c).stopped = true)
        ∧ (s1.stops[k]? = some q → u.stops[k]? = some { q with stopped := true }))
  ∧ (∀ (s : State) (k d : Nat) (q : Stop), s.stops[k]? = some q → q.stopped = true → d ∉ q.flushed → (∃ c ∈ s.stopCores q, dieOf c = d) →
      Goes (.flushToken k d) s fun u => (∃ w, u.stops[k]? = some w ∧ w.flushed = d :: q.flushed)
        ∧ ∀ m ∈ s.msgs, m.fw = false → s.flushes q d m.dst m.stamp = true → m ∉ u.msgs)
  ∧ (∀ (s : State) (k : Nat) (bad : List Nat) (q : Stop), s.stops[k]? = some q → q.core = false →
      s.saveReady q (s.savedPlace (s.stopCores q) ((s.stopCores q).map clusterOf).dedup (s.part q.target).ctx) = true →
      Goes (.partitionSave k bad) s fun u => (u.part q.target).running = false ∧ (u.part q.target).saved = true
        ∧ u.stops = s.stops.eraseIdx k ∧ ∀ c ∈ s.stopCores q, u.core c = {})
  ∧ (∀ (s : State) (tag : Nat) (cores : List (Nat × Nat)),
      let v := SMap.get {} tag s.saves
      let old := v.cores.map fun c => (c.name, c.phys)
      (tag < 64 → (s.part tag).alive = true → (s.part tag).running = false → ((s.part tag).map = [] ∨ (s.part tag).saved = true) →
        mayRestore (s.usableFor tag (s.part tag)) (s.part tag).names old cores = true → s.inTurn tag = true →
        ((s.part tag).saved = true → v.ver ∈ s.restorable
          ∧ s.tilesFree (cores.filterMap fun q => (old.find? fun o => o.1 == q.1).map fun o => (o.2, q.2)) v = true) →
        Goes (.partitionRestore tag cores) s fun u => (∀ q ∈ cores, (u.core q.2).stopped = true) ∧ (u.part tag).saved = false
          ∧ SMap.get {} tag u.saves = {})
      ∧ (∀ x r, 64 ≤ tag → v.cores = [x] → cores = [r] → mayRestore s.unmapped [x.name] old cores = true →
        Goes (.partitionRestore tag cores) s fun u => SMap.get {} tag u.saves = {}))
  ∧ (∀ (s : State) (tag : Nat),
      (tag < 64 → (s.part tag).alive = true → (s.part tag).saved = false → (s.part tag).map ≠ [] → (s.part tag).running = false →
        (s.part tag).pending = none →
        Goes (.partitionResume tag) s fun u => (u.part tag).running = true ∧ ∀ c ∈ (s.part tag).cores, (u.core c).stopped = false)
      ∧ (∀ c, tag = c + 64 → (s.part (s.core c).ptag).running = true →
          (∀ k ∈ s.stops, (k.core = false ∨ k.target ≠ c) ∧ (k.core = true ∨ k.stopped = false ∨ k.target ≠ (s.core c).ptag)) →
        Goes (.partitionResume tag) s fun u => (u.core c).stopped = false))
  ∧ (∀ (s : State) (x v d : Nat), (s.ctx x).due.find? (fun d => decide (d.2 + 850000 ≤ s.dtime)) = some (v, d) → (s.ctx x).overdue = 0 →
      (∃ t ∈ s.partsOf x, (s.part t).running = true) →
      Goes (.pmackDeadlineExpiry x) s fun u => (u.ctx x).overdue = v
        ∧ ∀ t ∈ s.partsOf x, (s.part t).running = true → ∃ q ∈ u.stops, q.core = false ∧ q.target = t)

/-- Tier 2. Reliability, attestation and the package as a whole (R260, R386, R389 to R392, R395, R401, R404, R406 to R408).
A corrected error is classified and scores; a lease of a fabric link begins and ends, each Vat on lease takes no task; a
channel that has no room waits on record; an hour lowers a score; copies that agree go on, a third copy decides between
those that do not; a quote is signed; a boot measures its stages, a management read is answered, a reset leaves what
flash keeps, and heat and the loss of power do as told. -/
def Obligations.ServiceEvents : Prop :=
  (∀ (s : State) (ch bank row col : Nat),
    let all := SMap.get [] ch s.grader ++ [(bank, row, col)]
    let ring := all.drop (all.length - 64)
    let w := unitCh (ch / 32) (ch % 32)
    (gradeOf ring bank row col = none → Goes (.graderSignature ch bank row col) s fun u => SMap.get [] ch u.grader = ring ∧ u.units = s.units)
    ∧ (∀ out, gradeOf ring bank row col = some (2, out) → (s.unit w).score < 188 →
        Goes (.graderSignature ch bank row col) s fun u => SMap.get [] ch u.grader = ring.filter (fun q => !out q)
          ∧ (u.unit w).score = (s.unit w).score + 4))
  ∧ (∀ (s : State) (w : Nat), (s.unit w).state ≠ 3 → (s.unit w).state ≠ 5 → (s.unit w).state ≠ 2 → s.leaseOpen w = true →
      (unitKind w = 4 → Goes (.fallowLeaseStart w) s fun u => (u.unit w).state = 2
        ∧ ∃ l ∈ u.leases, l.unit = w ∧ l.state = 1 ∧ l.start = s.dtime)
      ∧ (unitKind w = 2 → Goes (.fallowLeaseStart w) s fun u => unitIx w ∈ (u.clu (unitClu w)).vatsOff
        ∧ ((∀ k ∈ (s.clu (unitClu w)).sched, k.vat ≠ unitIx w + 1) → (u.unit w).state = 2)))
  ∧ (∀ (s : State) (w : Nat) (l : Lease), s.leases.find? (fun l => l.unit == w && l.state == 1) = some l → l.start + leaseLen w ≤ s.dtime →
      (unitKind w = 4 → (∀ p ∈ l.moved, (s.obj p.1).size ≠ 0 → s.mayLeave false p.1 p.2.1 = true) → Goes (.fallowLeaseEnd w true) s fun u => (u.unit w).state = s.backAs w ∧ ∃ m ∈ u.leases, m.unit = w ∧ m.state = 2)
      ∧ ((s.unit w).score < 64 → Goes (.fallowLeaseEnd w false) s fun u => (u.unit w).score = (s.unit w).score + 128
          ∧ ∃ m ∈ u.leases, m.unit = w ∧ m.state = 3))
  ∧ (∀ (s : State) (w : Nat), unitKind w = 5 → s.leaseDue w = true → (s.unit w).state ≠ 2 → (s.unit w).state ≠ 3 → s.clearChannel (unitDie w) (unitIx w) = none →
      (∀ r ∈ s.times, r.reason ≠ 2 ∨ r.val ≠ w ∨ r.start + dayCycles ≤ s.dtime) →
      Goes (.channelLeaseWaitRecord w) s fun u => u.times = s.times ++ [{ reason := 2, start := s.dtime, stop := 0, val := w }])
  ∧ (∀ (s : State) (w : Nat), (s.unit w).score ≠ 0 → (s.unit w).last + 3060000000000 ≤ s.dtime →
      Goes (.scoreDecay w) s fun u => (u.unit w).score = (s.unit w).score - 1 ∧ ∀ n, n ≠ w → u.unit n = s.unit n)
  ∧ (∀ (s : State) (l g a b : Nat), (s.launch l).pair g = some (a, b) → a ≠ b → (s.thr a (g % 8)).voteWait = true →
      (s.thr b (g % 8)).voteWait = true → SMap.get 0 g (s.launch l).thirds = 0 → (s.core a).stopped = false → (s.core b).stopped = false →
      s.logSettled a (g % 8) = true → s.logSettled b (g % 8) = true →
      (votesEqual (s.thr a (g % 8)) (s.thr b (g % 8)) = true → s.logMay a (g % 8) = true → (s.thr a (g % 8)).atTend = false →
        Goes (.duoVote l g) s fun u =>
          u.oom.ws = (if SMap.get 0 g (s.launch l).passed < SMap.get 0 g (s.launch l).kept then s else s.commitLog a (g % 8)).oom.ws
          ∧ ∀ c, (c = a ∨ c = b) → (u.thr c (g % 8)).log = [] ∧ (u.thr c (g % 8)).voteWait = false ∧ (u.thr c (g % 8)).st = 1)
      ∧ (∀ c, votesEqual (s.thr a (g % 8)) (s.thr b (g % 8)) = false → s.thirdCore (s.launch l) a b = some c →
        Goes (.duoVote l g) s fun u => SMap.get 0 g (u.launch l).thirds = c + 1 ∧ (u.thr c (g % 8)).st = 1 ∧ (u.thr c (g % 8)).duo = true
          ∧ (u.core c).dtab = [] ∧ u.mem = s.mem))
  ∧ (∀ (s : State) (l g a b c : Nat), (s.launch l).pair g = some (a, b) → SMap.get 0 g (s.launch l).thirds = c + 1 → a ≠ b → a ≠ c → b ≠ c →
      (s.thr a (g % 8)).voteWait = true → (s.thr b (g % 8)).voteWait = true → (s.thr c (g % 8)).voteWait = true → (s.core c).stopped = false →
      s.logSettled c (g % 8) = true →
      (SMap.get 0 g (s.launch l).passed3 < SMap.get 0 g (s.launch l).passed → (s.thr c (g % 8)).atTend = false →
        Goes (.duoThirdCopy l g) s fun u => (u.thr c (g % 8)).log = [] ∧ (u.thr c (g % 8)).st = 1 ∧ u.oom.ws = s.oom.ws)
      ∧ (SMap.get 0 g (s.launch l).passed ≤ SMap.get 0 g (s.launch l).passed3 →
      votesEqual (s.thr c (g % 8)) (s.thr a (g % 8)) = true → s.logMay a (g % 8) = true → (s.thr a (g % 8)).atTend = false →
      (s.thr b (g % 8)).atTend = false → (s.unit (unitCore b)).score < 160 →
      Goes (.duoThirdCopy l g) s fun u => (∀ d, (d = a ∨ d = b) → (u.thr d (g % 8)).log = [] ∧ (u.thr d (g % 8)).st = 1)
        ∧ (u.unit (unitCore b)).score = (s.unit (unitCore b)).score + 32))
  ∧ (∀ (s : State) (q : QuoteReq) (rest : List QuoteReq) (ls : List (Nat × Nat)), s.quotes = q :: rest →
      s.chkRange q.core q.ctx q.ptr 0 4096 true = .ok ls →
      Goes .quoteSign s fun u => u.quotes = rest ∧ u.quote = s.quoteBytes q
        ∧ u.oom = (s.writeAll (agHub 3) ls (s.quoteBytes q)).oom)
  ∧ (∀ (s s1 : State) (img : List (List Byte)) (good : Bool), s.off = true ∨ (s.slotsClosed = false ∧ s.bootStage = 0) →
      (bootFrom good imageSlots img { s.cold with bootCount := s.bootCount + 1 } = .on s1 →
        Goes (.powerOnBoot img good) s fun u => u.slotsClosed = true ∧ u.bootStage = 8 ∧ u.slots = s1.slots)
      ∧ (∀ n, bootFrom good imageSlots img { s.cold with bootCount := s.bootCount + 1 } = .stop s1 n →
        Goes (.powerOnBoot img good) s fun u => u.bootStage = n + 1 ∧ u.slots = s1.slots))
  ∧ (∀ (s : State) (what off len : Nat), Goes (.mgmtRead what off len) s fun u => u.mem = s.mem ∧ u.cores = s.cores ∧ u.units = s.units
      ∧ ∃ r, u.replies = s.replies ++ [r] ∧ r.status = 0 ∧ r.data = ((s.mgmtBytes what).drop off).take len)
  ∧ (∀ s : State, Goes .packageReset s fun u => u.cores = State.reset.cores ∧ u.mem = State.reset.mem ∧ u.ctxs = State.reset.ctxs
      ∧ u.slots = State.reset.slots ∧ u.flash = s.flash ∧ u.flashCtr = s.flashCtr ∧ u.secVer = s.secVer ∧ u.bootCount = s.bootCount)
  ∧ (∀ s : State, s.hold = false → Goes .thermalHoldEnter s fun u => u.hold = true ∧ u.cores = s.cores
      ∧ ∃ r, u.times = s.times ++ [r] ∧ r.start = s.dtime)
  ∧ (∀ s : State, Goes .thermalHoldExit s fun u => u.hold = false ∧ u.cores = s.cores
      ∧ u.times = s.times.map fun r => if r.reason = 5 ∧ r.stop = 0 then { r with stop := s.dtime } else r)
  ∧ (∀ s : State, s.off = false → s.cut = false → Goes .thermalShutdown s fun u => u.cut = true ∧ u.off = false ∧ u.cores = []
      ∧ ∀ l, (s.launch l).hdr ≠ [] → (s.launch l).ended = false → (u.launch l).cause = 0xA0 ∧ (u.launch l).waiting = false)
  ∧ (∀ (s : State) (between : Bool), Goes (.powerLoss between) s fun u => u.off = true ∧ u.mem = State.reset.mem ∧ u.flash = s.flash
      ∧ (between = false → u.flashCtr = s.flashCtr)
      ∧ (between = true → s.flashCtr ≠ 0 → (∃ f ∈ s.flash, f.ctr = s.flashCtr) → u.flashCtr = s.flashCtr - 1))
end

