-- ==== Sys2Proof/Laws/Decode.lean ====
section
/-! SUPPORT. The fields of an encoded head and tail, read back. -/

namespace Sys2Proof

theorem b2n_lt (b : Bool) : b2n b < 2 := by cases b <;> decide
@[simp] theorem b2n_eq_one (b : Bool) : (b2n b == 1) = b := by cases b <;> rfl

theorem mkHead_lt (s p : Bool) {tl op d : Nat} (ht : tl < 4) (ho : op < 256) (hd : d < 16) : mkHead s p tl op d < 2 ^ 16 := by
  have := b2n_lt s; have := b2n_lt p; simp only [mkHead]; omega
theorem mkHead_op (s p : Bool) {tl op d : Nat} (_ht : tl < 4) (ho : op < 256) (hd : d < 16) : mkHead s p tl op d / 16 % 256 = op := by simp only [mkHead]; omega
theorem mkHead_tl (s p : Bool) {tl op d : Nat} (ht : tl < 4) (ho : op < 256) (hd : d < 16) : mkHead s p tl op d / 4096 % 4 = tl := by simp only [mkHead]; omega
theorem mkHead_d (s p : Bool) {tl op d : Nat} (_ht : tl < 4) (_ho : op < 256) (hd : d < 16) : mkHead s p tl op d % 16 = d := by simp only [mkHead]; omega
theorem mkHead_s (s p : Bool) {tl op d : Nat} (ht : tl < 4) (ho : op < 256) (hd : d < 16) : nb (mkHead s p tl op d) 15 = s := by
  have h : mkHead s p tl op d / 2 ^ 15 % 2 = b2n s := by
    have := b2n_lt s; have := b2n_lt p; simp only [mkHead]; omega
  rw [nb, h, b2n_eq_one]
theorem mkHead_p (s p : Bool) {tl op d : Nat} (ht : tl < 4) (ho : op < 256) (hd : d < 16) : nb (mkHead s p tl op d) 14 = p := by
  have h : mkHead s p tl op d / 2 ^ 14 % 2 = b2n p := by
    have := b2n_lt s; have := b2n_lt p; simp only [mkHead]; omega
  rw [nb, h, b2n_eq_one]
/-- A field read back from a number that agrees with it modulo its range. -/
theorem ofNat_toNat {w : Nat} {v : BitVec w} {n : Nat} (h : n % 2 ^ w = v.toNat) : BitVec.ofNat w n = v := by
  apply BitVec.eq_of_toNat_eq
  rw [BitVec.toNat_ofNat, h]

theorem nb_of {n k : Nat} {b : Bool} (h : n / 2 ^ k % 2 = b2n b) : nb n k = b := by rw [nb, h, b2n_eq_one]

/-- A head without a tail gives its fields back. -/
theorem F0.of_mkHead (f : F0) {op : Nat} (ho : op < 256) (t : Nat) : F0.of (mkHead f.s f.p 0 op f.d.toNat) t = f := by
  have hd := f.d.isLt
  simp only [F0.of, mkHead_s f.s f.p (show 0 < 4 by decide) ho hd, mkHead_p f.s f.p (show 0 < 4 by decide) ho hd,
    ofNat_toNat (v := f.d) (mkHead_d f.s f.p (show 0 < 4 by decide) ho hd)]

/-- A T2 form gives its fields back. -/
theorem F2.of_mkHead (f : F2) {op : Nat} (ho : op < 256) : F2.of (mkHead f.s f.p 1 op f.d.toNat) (tailMod 1 f.tail) = f := by
  obtain ⟨s, p, d, a, b, la, lb, m⟩ := f
  have hd := d.isLt; have ha := a.isLt; have hb := b.isLt; have hm := m.isLt
  have h1 := b2n_lt la; have h2 := b2n_lt lb
  have e : tailMod 1 (F2.tail ⟨s, p, d, a, b, la, lb, m⟩) = F2.tail ⟨s, p, d, a, b, la, lb, m⟩ := by
    simp only [tailMod, F2.tail]; omega
  rw [e]
  simp only [F2.of, mkHead_s s p (show 1 < 4 by decide) ho hd, mkHead_p s p (show 1 < 4 by decide) ho hd,
    ofNat_toNat (v := d) (mkHead_d s p (show 1 < 4 by decide) ho hd), F2.mk.injEq, true_and, F2.tail]
  refine ⟨ofNat_toNat ?_, ofNat_toNat ?_, nb_of ?_, nb_of ?_, ofNat_toNat ?_⟩ <;> omega

/-- A T4 form gives its fields back. -/
theorem F4.of_mkHead (f : F4) {op : Nat} (ho : op < 256) : F4.of (mkHead f.s f.p 2 op f.d.toNat) (tailMod 2 f.tail) = f := by
  obtain ⟨s, p, d, a, b, c, pg, la, lb, lc, m⟩ := f
  have hd := d.isLt; have ha := a.isLt; have hb := b.isLt; have hc := c.isLt; have hg := pg.isLt; have hm := m.isLt
  have h1 := b2n_lt la; have h2 := b2n_lt lb; have h3 := b2n_lt lc
  have e : tailMod 2 (F4.tail ⟨s, p, d, a, b, c, pg, la, lb, lc, m⟩) = F4.tail ⟨s, p, d, a, b, c, pg, la, lb, lc, m⟩ := by
    simp only [tailMod, F4.tail]; omega
  rw [e]
  simp only [F4.of, mkHead_s s p (show 2 < 4 by decide) ho hd, mkHead_p s p (show 2 < 4 by decide) ho hd,
    ofNat_toNat (v := d) (mkHead_d s p (show 2 < 4 by decide) ho hd), F4.mk.injEq, true_and, F4.tail]
  refine ⟨ofNat_toNat ?_, ofNat_toNat ?_, ofNat_toNat ?_, ofNat_toNat ?_, nb_of ?_, nb_of ?_, nb_of ?_, ofNat_toNat ?_⟩ <;> omega

/-- A T4b form gives its fields back. -/
theorem F4b.of_mkHead (f : F4b) {op : Nat} (ho : op < 256) :
    F4b.of (mkHead f.s f.p 2 op f.d.toNat) (tailMod 2 f.tail) = f := by
  obtain ⟨s, p, d, i, pg, m⟩ := f
  have hd := d.isLt; have hi := i.isLt; have hg := pg.isLt; have hm := m.isLt
  have e : tailMod 2 (F4b.tail ⟨s, p, d, i, pg, m⟩) = F4b.tail ⟨s, p, d, i, pg, m⟩ := by
    simp only [tailMod, F4b.tail]; omega
  rw [e]
  simp only [F4b.of, mkHead_s s p (show 2 < 4 by decide) ho hd, mkHead_p s p (show 2 < 4 by decide) ho hd,
    ofNat_toNat (v := d) (mkHead_d s p (show 2 < 4 by decide) ho hd), F4b.mk.injEq, true_and, F4b.tail]
  refine ⟨ofNat_toNat ?_, ofNat_toNat ?_, ofNat_toNat ?_⟩ <;> omega

/-- A T8 form gives its fields back. -/
theorem F8.of_mkHead (f : F8) {op : Nat} (ho : op < 256) : F8.of (mkHead f.s f.p 3 op f.d.toNat) (tailMod 3 f.tail) = f := by
  obtain ⟨s, p, d, a, pg, la, m, i⟩ := f
  have hd := d.isLt; have ha := a.isLt; have hg := pg.isLt; have hm := m.isLt; have hi := i.isLt
  have h1 := b2n_lt la
  have e : tailMod 3 (F8.tail ⟨s, p, d, a, pg, la, m, i⟩) = F8.tail ⟨s, p, d, a, pg, la, m, i⟩ := by
    simp only [tailMod, F8.tail]; omega
  rw [e]
  simp only [F8.of, mkHead_s s p (show 3 < 4 by decide) ho hd, mkHead_p s p (show 3 < 4 by decide) ho hd,
    ofNat_toNat (v := d) (mkHead_d s p (show 3 < 4 by decide) ho hd), F8.mk.injEq, true_and, F8.tail]
  refine ⟨ofNat_toNat ?_, ofNat_toNat ?_, nb_of ?_, ofNat_toNat ?_, ofNat_toNat ?_⟩ <;> omega

/-! ### An encoded tail fits its head -/

theorem tlBytes_mkHead (s p : Bool) {tl op d : Nat} (ht : tl < 4) (ho : op < 256) (hd : d < 16) :
    tlBytes (mkHead s p tl op d) = if tl = 0 then 0 else if tl = 1 then 2 else if tl = 2 then 4 else 8 := by
  simp only [tlBytes, mkHead_tl s p ht ho hd]
  rcases tl with _ | _ | _ | n <;> rfl

theorem F2.tail_lt (f : F2) : f.tail < 256 ^ 2 := by
  obtain ⟨s, p, d, a, b, la, lb, m⟩ := f
  have ha := a.isLt; have hb := b.isLt; have hm := m.isLt; have h1 := b2n_lt la; have h2 := b2n_lt lb
  simp only [F2.tail]; omega
theorem F4.tail_lt (f : F4) : f.tail < 256 ^ 4 := by
  obtain ⟨s, p, d, a, b, c, pg, la, lb, lc, m⟩ := f
  have ha := a.isLt; have hb := b.isLt; have hc := c.isLt; have hg := pg.isLt; have hm := m.isLt
  have h1 := b2n_lt la; have h2 := b2n_lt lb; have h3 := b2n_lt lc
  simp only [F4.tail]; omega
theorem F4b.tail_lt (f : F4b) : f.tail < 256 ^ 4 := by
  obtain ⟨s, p, d, i, pg, m⟩ := f
  have hi := i.isLt; have hg := pg.isLt; have hm := m.isLt
  simp only [F4b.tail]; omega
theorem F8.tail_lt (f : F8) : f.tail < 256 ^ 8 := by
  obtain ⟨s, p, d, a, pg, la, m, i⟩ := f
  have ha := a.isLt; have hg := pg.isLt; have hm := m.isLt; have hi := i.isLt; have h1 := b2n_lt la
  simp only [F8.tail]; omega

end Sys2Proof
end

