-- ==== Sys2Proof/Laws/Map.lean ====
section
/-! SUPPORT. Sparse tables: what a read gives after a write, and that a write keeps the canonical form. -/

namespace Sys2Proof

variable {α : Type} [DecidableEq α]

omit [DecidableEq α] in
@[simp] theorem SMap.get_nil (d : α) (k : Nat) : SMap.get d k [] = d := rfl

@[simp] theorem SMap.get_set_self (d : α) (k : Nat) (v : α) (m : SMap α) : SMap.get d k (SMap.set d k v m) = v := by
  induction m with
  | nil => simp only [SMap.set]; split <;> simp_all [SMap.get]
  | cons r t ih =>
    obtain ⟨k', v'⟩ := r
    simp only [SMap.set]
    split
    · split
      · simp only [SMap.get]; rw [if_neg (by omega)]; exact ih
      · simp [SMap.get]
    · split
      · split
        · exact ih
        · simp [SMap.get]
      · simp only [SMap.get]; rw [if_neg ‹_›]; exact ih

theorem SMap.get_set_ne (d : α) {k j : Nat} (h : j ≠ k) (v : α) (m : SMap α) :
    SMap.get d j (SMap.set d k v m) = SMap.get d j m := by
  induction m with
  | nil => simp only [SMap.set]; split <;> simp [SMap.get, h]
  | cons r t ih =>
    obtain ⟨k', v'⟩ := r
    simp only [SMap.set]
    split
    · split
      · simp only [SMap.get]; rw [ih]
      · simp [SMap.get, h]
    · split
      · subst_vars
        split
        · rw [ih]; simp [SMap.get, h]
        · simp [SMap.get, h]
      · simp only [SMap.get]; rw [ih]

/-- A read after a write: the written value at its key, what was there elsewhere. -/
theorem SMap.get_set (d : α) (k j : Nat) (v : α) (m : SMap α) :
    SMap.get d j (SMap.set d k v m) = if j = k then v else SMap.get d j m := by
  split
  · subst_vars; exact SMap.get_set_self ..
  · exact SMap.get_set_ne _ ‹_› ..

omit [DecidableEq α] in
theorem SMap.sortedFrom_mono {lo lo' : Nat} (h : lo' ≤ lo) {m : SMap α} (hm : SMap.sortedFrom lo m = true) :
    SMap.sortedFrom lo' m = true := by
  cases m with
  | nil => rfl
  | cons r t =>
    simp only [SMap.sortedFrom, Bool.and_eq_true, decide_eq_true_eq] at hm ⊢
    exact ⟨by omega, hm.2⟩

/-- Writing the default below every key changes nothing. -/
theorem SMap.set_default_below (d : α) {k : Nat} {m : SMap α} :
    ∀ {lo : Nat}, k < lo → SMap.sortedFrom lo m = true → SMap.set d k d m = m := by
  induction m with
  | nil => intros; simp [SMap.set]
  | cons r t ih =>
    obtain ⟨k', v'⟩ := r
    intro lo h hm
    simp only [SMap.sortedFrom, Bool.and_eq_true, decide_eq_true_eq] at hm
    simp only [SMap.set, if_pos (show k < k' by omega), if_true]
    rw [ih (by omega) hm.2]

/-- A write keeps the keys rising. -/
theorem SMap.sortedFrom_set (d : α) (k : Nat) (v : α) {m : SMap α} :
    ∀ {lo : Nat}, lo ≤ k → SMap.sortedFrom lo m = true → SMap.sortedFrom lo (SMap.set d k v m) = true := by
  induction m with
  | nil => intro lo h _; simp only [SMap.set]; split <;> simp [SMap.sortedFrom, h]
  | cons r t ih =>
    obtain ⟨k', v'⟩ := r
    intro lo h hm
    simp only [SMap.sortedFrom, Bool.and_eq_true, decide_eq_true_eq] at hm
    simp only [SMap.set]
    split
    · split
      · rename_i hk hv
        rw [hv, SMap.set_default_below d (lo := k' + 1) (by omega) hm.2]
        simp [SMap.sortedFrom, hm]
      · simp only [SMap.sortedFrom, Bool.and_eq_true, decide_eq_true_eq]
        exact ⟨h, by omega, hm.2⟩
    · split
      · subst_vars
        split
        · rename_i hv
          rw [hv, SMap.set_default_below d (Nat.lt_succ_self _) hm.2]
          exact SMap.sortedFrom_mono (by omega) hm.2
        · simp only [SMap.sortedFrom, Bool.and_eq_true, decide_eq_true_eq]; exact ⟨h, hm.2⟩
      · simp only [SMap.sortedFrom, Bool.and_eq_true, decide_eq_true_eq]
        exact ⟨hm.1, ih (by omega) hm.2⟩

/-- A write lists no default. -/
theorem SMap.noDefault_set (d : α) (k : Nat) (v : α) {m : SMap α} (hm : SMap.noDefault d m = true) :
    SMap.noDefault d (SMap.set d k v m) = true := by
  have all : ∀ r ∈ SMap.set d k v m, r.2 ≠ d := by
    simp only [SMap.noDefault, List.all_eq_true, decide_eq_true_eq] at hm
    induction m with
    | nil => simp only [SMap.set]; split <;> simp_all
    | cons r t ih =>
      obtain ⟨k', v'⟩ := r
      have hv := hm (k', v') List.mem_cons_self
      have ht := ih fun r hr => hm r (List.mem_cons_of_mem _ hr)
      have h0 : ∀ r ∈ t, r.2 ≠ d := fun r hr => hm r (List.mem_cons_of_mem _ hr)
      simp only [SMap.set]
      split
      · split
        · exact List.forall_mem_cons.mpr ⟨hv, ht⟩
        · exact List.forall_mem_cons.mpr ⟨‹_›, List.forall_mem_cons.mpr ⟨hv, h0⟩⟩
      · split
        · split
          · exact ht
          · exact List.forall_mem_cons.mpr ⟨‹_›, h0⟩
        · exact List.forall_mem_cons.mpr ⟨hv, ht⟩
  simpa [SMap.noDefault] using fun a b h => all (a, b) h

/-- A write keeps the canonical form. -/
theorem SMap.wf_set (d : α) (k : Nat) (v : α) {m : SMap α} (hm : SMap.wf d m = true) :
    SMap.wf d (SMap.set d k v m) = true := by
  simp only [SMap.wf, Bool.and_eq_true] at hm ⊢
  exact ⟨SMap.sortedFrom_set d k v (Nat.zero_le _) hm.1, SMap.noDefault_set d k v hm.2⟩

omit [DecidableEq α] in
theorem SMap.sortedFrom_filter (p : Nat × α → Bool) {m : SMap α} :
    ∀ {lo : Nat}, SMap.sortedFrom lo m = true → SMap.sortedFrom lo (m.filter p) = true := by
  induction m with
  | nil => intros; rfl
  | cons r t ih =>
    intro lo hm
    simp only [SMap.sortedFrom, Bool.and_eq_true, decide_eq_true_eq] at hm
    simp only [List.filter_cons]
    split
    · simp only [SMap.sortedFrom, Bool.and_eq_true, decide_eq_true_eq]; exact ⟨hm.1, ih hm.2⟩
    · exact SMap.sortedFrom_mono (by omega) (ih hm.2)

/-- Taking rows out keeps the canonical form. -/
theorem SMap.wf_filter (d : α) (p : Nat × α → Bool) {m : SMap α} (hm : SMap.wf d m = true) :
    SMap.wf d (m.filter p) = true := by
  simp only [SMap.wf, Bool.and_eq_true, SMap.noDefault, List.all_eq_true] at hm ⊢
  exact ⟨SMap.sortedFrom_filter p hm.1, fun x hx => hm.2 x (List.mem_filter.mp hx).1⟩

/-- Writes one after another keep the canonical form. -/
theorem SMap.wf_foldl_set {β : Type} (d : α) (key : β → Nat) (val : β → α) (l : List β) {m : SMap α}
    (hm : SMap.wf d m = true) : SMap.wf d (l.foldl (fun a r => SMap.set d (key r) (val r) a) m) = true := by
  induction l generalizing m with
  | nil => exact hm
  | cons r t ih => exact ih (SMap.wf_set d _ _ hm)

omit [DecidableEq α] in
/-- Nothing is listed below the lowest key. -/
theorem SMap.sortedFrom_get_lt (d : α) {m : SMap α} :
    ∀ {lo k : Nat}, SMap.sortedFrom lo m = true → k < lo → SMap.get d k m = d := by
  induction m with
  | nil => intros; rfl
  | cons r t ih =>
    obtain ⟨k', v'⟩ := r
    intro lo k hm h
    simp only [SMap.sortedFrom, Bool.and_eq_true, decide_eq_true_eq] at hm
    simp only [SMap.get, if_neg (show k ≠ k' by omega)]
    exact ih hm.2 (by omega)

end Sys2Proof
end

