-- ==== Sys2Proof/Laws/State.lean ====
section
/-! SUPPORT. What each update of the state leaves as it was, field by field, and what it writes. -/

namespace Sys2Proof.Machine

variable (s : State)

/-! ### setCore -/

@[simp] theorem State.setCore_cyc (c : Nat) (k : Core) : (s.setCore c k).cyc = s.cyc := rfl
@[simp] theorem State.setCore_dtimeBase (c : Nat) (k : Core) : (s.setCore c k).dtimeBase = s.dtimeBase := rfl
@[simp] theorem State.setCore_agenda (c : Nat) (k : Core) : (s.setCore c k).agenda = s.agenda := rfl
@[simp] theorem State.setCore_pref (c : Nat) (k : Core) : (s.setCore c k).pref = s.pref := rfl
@[simp] theorem State.setCore_bad (c : Nat) (k : Core) : (s.setCore c k).bad = s.bad := rfl
@[simp] theorem State.setCore_linkBad (c : Nat) (k : Core) : (s.setCore c k).linkBad = s.linkBad := rfl
@[simp] theorem State.setCore_curCore (c : Nat) (k : Core) : (s.setCore c k).curCore = s.curCore := rfl
@[simp] theorem State.setCore_curThr (c : Nat) (k : Core) : (s.setCore c k).curThr = s.curThr := rfl
@[simp] theorem State.setCore_free (c : Nat) (k : Core) : (s.setCore c k).free = s.free := rfl
@[simp] theorem State.setCore_off (c : Nat) (k : Core) : (s.setCore c k).off = s.off := rfl
@[simp] theorem State.setCore_cut (c : Nat) (k : Core) : (s.setCore c k).cut = s.cut := rfl
@[simp] theorem State.setCore_mem (c : Nat) (k : Core) : (s.setCore c k).mem = s.mem := rfl
@[simp] theorem State.setCore_oom (c : Nat) (k : Core) : (s.setCore c k).oom = s.oom := rfl
@[simp] theorem State.setCore_clus (c : Nat) (k : Core) : (s.setCore c k).clus = s.clus := rfl
@[simp] theorem State.setCore_dies (c : Nat) (k : Core) : (s.setCore c k).dies = s.dies := rfl
@[simp] theorem State.setCore_pressK (c : Nat) (k : Core) : (s.setCore c k).pressK = s.pressK := rfl
@[simp] theorem State.setCore_msgs (c : Nat) (k : Core) : (s.setCore c k).msgs = s.msgs := rfl
@[simp] theorem State.setCore_migs (c : Nat) (k : Core) : (s.setCore c k).migs = s.migs := rfl
@[simp] theorem State.setCore_hmsgs (c : Nat) (k : Core) : (s.setCore c k).hmsgs = s.hmsgs := rfl
@[simp] theorem State.setCore_hub (c : Nat) (k : Core) : (s.setCore c k).hub = s.hub := rfl
@[simp] theorem State.setCore_hubNext (c : Nat) (k : Core) : (s.setCore c k).hubNext = s.hubNext := rfl
@[simp] theorem State.setCore_shoots (c : Nat) (k : Core) : (s.setCore c k).shoots = s.shoots := rfl
@[simp] theorem State.setCore_stale (c : Nat) (k : Core) : (s.setCore c k).stale = s.stale := rfl
@[simp] theorem State.setCore_owed (c : Nat) (k : Core) : (s.setCore c k).owed = s.owed := rfl
@[simp] theorem State.setCore_gage (c : Nat) (k : Core) : (s.setCore c k).gage = s.gage := rfl
@[simp] theorem State.setCore_ctxs (c : Nat) (k : Core) : (s.setCore c k).ctxs = s.ctxs := rfl
@[simp] theorem State.setCore_objs (c : Nat) (k : Core) : (s.setCore c k).objs = s.objs := rfl
@[simp] theorem State.setCore_oidNext (c : Nat) (k : Core) : (s.setCore c k).oidNext = s.oidNext := rfl
@[simp] theorem State.setCore_nodes (c : Nat) (k : Core) : (s.setCore c k).nodes = s.nodes := rfl
@[simp] theorem State.setCore_nodeNext (c : Nat) (k : Core) : (s.setCore c k).nodeNext = s.nodeNext := rfl
@[simp] theorem State.setCore_binds (c : Nat) (k : Core) : (s.setCore c k).binds = s.binds := rfl
@[simp] theorem State.setCore_bindLog (c : Nat) (k : Core) : (s.setCore c k).bindLog = s.bindLog := rfl
@[simp] theorem State.setCore_scrub (c : Nat) (k : Core) : (s.setCore c k).scrub = s.scrub := rfl
@[simp] theorem State.setCore_queues (c : Nat) (k : Core) : (s.setCore c k).queues = s.queues := rfl
@[simp] theorem State.setCore_supRing (c : Nat) (k : Core) : (s.setCore c k).supRing = s.supRing := rfl
@[simp] theorem State.setCore_parts (c : Nat) (k : Core) : (s.setCore c k).parts = s.parts := rfl
@[simp] theorem State.setCore_launches (c : Nat) (k : Core) : (s.setCore c k).launches = s.launches := rfl
@[simp] theorem State.setCore_launchNext (c : Nat) (k : Core) : (s.setCore c k).launchNext = s.launchNext := rfl
@[simp] theorem State.setCore_ticks (c : Nat) (k : Core) : (s.setCore c k).ticks = s.ticks := rfl
@[simp] theorem State.setCore_stops (c : Nat) (k : Core) : (s.setCore c k).stops = s.stops := rfl
@[simp] theorem State.setCore_saves (c : Nat) (k : Core) : (s.setCore c k).saves = s.saves := rfl
@[simp] theorem State.setCore_deferred (c : Nat) (k : Core) : (s.setCore c k).deferred = s.deferred := rfl
@[simp] theorem State.setCore_heldMsgs (c : Nat) (k : Core) : (s.setCore c k).heldMsgs = s.heldMsgs := rfl
@[simp] theorem State.setCore_pkts (c : Nat) (k : Core) : (s.setCore c k).pkts = s.pkts := rfl
@[simp] theorem State.setCore_acks (c : Nat) (k : Core) : (s.setCore c k).acks = s.acks := rfl
@[simp] theorem State.setCore_pkg (c : Nat) (k : Core) : (s.setCore c k).pkg = s.pkg := rfl
@[simp] theorem State.setCore_pmVer (c : Nat) (k : Core) : (s.setCore c k).pmVer = s.pmVer := rfl
@[simp] theorem State.setCore_pmTime (c : Nat) (k : Core) : (s.setCore c k).pmTime = s.pmTime := rfl
@[simp] theorem State.setCore_units (c : Nat) (k : Core) : (s.setCore c k).units = s.units := rfl
@[simp] theorem State.setCore_leases (c : Nat) (k : Core) : (s.setCore c k).leases = s.leases := rfl
@[simp] theorem State.setCore_retired (c : Nat) (k : Core) : (s.setCore c k).retired = s.retired := rfl
@[simp] theorem State.setCore_events (c : Nat) (k : Core) : (s.setCore c k).events = s.events := rfl
@[simp] theorem State.setCore_times (c : Nat) (k : Core) : (s.setCore c k).times = s.times := rfl
@[simp] theorem State.setCore_reserveGone (c : Nat) (k : Core) : (s.setCore c k).reserveGone = s.reserveGone := rfl
@[simp] theorem State.setCore_grader (c : Nat) (k : Core) : (s.setCore c k).grader = s.grader := rfl
@[simp] theorem State.setCore_worn (c : Nat) (k : Core) : (s.setCore c k).worn = s.worn := rfl
@[simp] theorem State.setCore_hold (c : Nat) (k : Core) : (s.setCore c k).hold = s.hold := rfl
@[simp] theorem State.setCore_journal (c : Nat) (k : Core) : (s.setCore c k).journal = s.journal := rfl
@[simp] theorem State.setCore_ckpt (c : Nat) (k : Core) : (s.setCore c k).ckpt = s.ckpt := rfl
@[simp] theorem State.setCore_pause (c : Nat) (k : Core) : (s.setCore c k).pause = s.pause := rfl
@[simp] theorem State.setCore_parserFaults (c : Nat) (k : Core) : (s.setCore c k).parserFaults = s.parserFaults := rfl
@[simp] theorem State.setCore_bankWin (c : Nat) (k : Core) : (s.setCore c k).bankWin = s.bankWin := rfl
@[simp] theorem State.setCore_flash (c : Nat) (k : Core) : (s.setCore c k).flash = s.flash := rfl
@[simp] theorem State.setCore_flashCtr (c : Nat) (k : Core) : (s.setCore c k).flashCtr = s.flashCtr := rfl
@[simp] theorem State.setCore_bootCount (c : Nat) (k : Core) : (s.setCore c k).bootCount = s.bootCount := rfl
@[simp] theorem State.setCore_bootStage (c : Nat) (k : Core) : (s.setCore c k).bootStage = s.bootStage := rfl
@[simp] theorem State.setCore_secVer (c : Nat) (k : Core) : (s.setCore c k).secVer = s.secVer := rfl
@[simp] theorem State.setCore_slots (c : Nat) (k : Core) : (s.setCore c k).slots = s.slots := rfl
@[simp] theorem State.setCore_slotsClosed (c : Nat) (k : Core) : (s.setCore c k).slotsClosed = s.slotsClosed := rfl
@[simp] theorem State.setCore_attKey (c : Nat) (k : Core) : (s.setCore c k).attKey = s.attKey := rfl
@[simp] theorem State.setCore_restorable (c : Nat) (k : Core) : (s.setCore c k).restorable = s.restorable := rfl
@[simp] theorem State.setCore_quotes (c : Nat) (k : Core) : (s.setCore c k).quotes = s.quotes := rfl
@[simp] theorem State.setCore_quote (c : Nat) (k : Core) : (s.setCore c k).quote = s.quote := rfl
@[simp] theorem State.setCore_replies (c : Nat) (k : Core) : (s.setCore c k).replies = s.replies := rfl
@[simp] theorem State.setCore_clu (c : Nat) (k : Core) (i : Nat) : (s.setCore c k).clu i = s.clu i := rfl
@[simp] theorem State.setCore_die (c : Nat) (k : Core) (i : Nat) : (s.setCore c k).die i = s.die i := rfl
@[simp] theorem State.setCore_ctx (c : Nat) (k : Core) (i : Nat) : (s.setCore c k).ctx i = s.ctx i := rfl
@[simp] theorem State.setCore_desc (c : Nat) (k : Core) (i j : Nat) : (s.setCore c k).desc i j = s.desc i j := rfl
@[simp] theorem State.setCore_obj (c : Nat) (k : Core) (i : Nat) : (s.setCore c k).obj i = s.obj i := rfl
@[simp] theorem State.setCore_node (c : Nat) (k : Core) (i : Nat) : (s.setCore c k).node i = s.node i := rfl
@[simp] theorem State.setCore_part (c : Nat) (k : Core) (i : Nat) : (s.setCore c k).part i = s.part i := rfl
@[simp] theorem State.setCore_launch (c : Nat) (k : Core) (i : Nat) : (s.setCore c k).launch i = s.launch i := rfl
@[simp] theorem State.setCore_queue (c : Nat) (k : Core) (i : Nat) : (s.setCore c k).queue i = s.queue i := rfl
@[simp] theorem State.setCore_unit (c : Nat) (k : Core) (i : Nat) : (s.setCore c k).unit i = s.unit i := rfl

/-! ### modCore -/

@[simp] theorem State.modCore_cyc (c : Nat) (f : Core → Core) : (s.modCore c f).cyc = s.cyc := rfl
@[simp] theorem State.modCore_dtimeBase (c : Nat) (f : Core → Core) : (s.modCore c f).dtimeBase = s.dtimeBase := rfl
@[simp] theorem State.modCore_agenda (c : Nat) (f : Core → Core) : (s.modCore c f).agenda = s.agenda := rfl
@[simp] theorem State.modCore_pref (c : Nat) (f : Core → Core) : (s.modCore c f).pref = s.pref := rfl
@[simp] theorem State.modCore_bad (c : Nat) (f : Core → Core) : (s.modCore c f).bad = s.bad := rfl
@[simp] theorem State.modCore_linkBad (c : Nat) (f : Core → Core) : (s.modCore c f).linkBad = s.linkBad := rfl
@[simp] theorem State.modCore_curCore (c : Nat) (f : Core → Core) : (s.modCore c f).curCore = s.curCore := rfl
@[simp] theorem State.modCore_curThr (c : Nat) (f : Core → Core) : (s.modCore c f).curThr = s.curThr := rfl
@[simp] theorem State.modCore_free (c : Nat) (f : Core → Core) : (s.modCore c f).free = s.free := rfl
@[simp] theorem State.modCore_off (c : Nat) (f : Core → Core) : (s.modCore c f).off = s.off := rfl
@[simp] theorem State.modCore_cut (c : Nat) (f : Core → Core) : (s.modCore c f).cut = s.cut := rfl
@[simp] theorem State.modCore_mem (c : Nat) (f : Core → Core) : (s.modCore c f).mem = s.mem := rfl
@[simp] theorem State.modCore_oom (c : Nat) (f : Core → Core) : (s.modCore c f).oom = s.oom := rfl
@[simp] theorem State.modCore_clus (c : Nat) (f : Core → Core) : (s.modCore c f).clus = s.clus := rfl
@[simp] theorem State.modCore_dies (c : Nat) (f : Core → Core) : (s.modCore c f).dies = s.dies := rfl
@[simp] theorem State.modCore_pressK (c : Nat) (f : Core → Core) : (s.modCore c f).pressK = s.pressK := rfl
@[simp] theorem State.modCore_msgs (c : Nat) (f : Core → Core) : (s.modCore c f).msgs = s.msgs := rfl
@[simp] theorem State.modCore_migs (c : Nat) (f : Core → Core) : (s.modCore c f).migs = s.migs := rfl
@[simp] theorem State.modCore_hmsgs (c : Nat) (f : Core → Core) : (s.modCore c f).hmsgs = s.hmsgs := rfl
@[simp] theorem State.modCore_hub (c : Nat) (f : Core → Core) : (s.modCore c f).hub = s.hub := rfl
@[simp] theorem State.modCore_hubNext (c : Nat) (f : Core → Core) : (s.modCore c f).hubNext = s.hubNext := rfl
@[simp] theorem State.modCore_shoots (c : Nat) (f : Core → Core) : (s.modCore c f).shoots = s.shoots := rfl
@[simp] theorem State.modCore_stale (c : Nat) (f : Core → Core) : (s.modCore c f).stale = s.stale := rfl
@[simp] theorem State.modCore_owed (c : Nat) (f : Core → Core) : (s.modCore c f).owed = s.owed := rfl
@[simp] theorem State.modCore_gage (c : Nat) (f : Core → Core) : (s.modCore c f).gage = s.gage := rfl
@[simp] theorem State.modCore_ctxs (c : Nat) (f : Core → Core) : (s.modCore c f).ctxs = s.ctxs := rfl
@[simp] theorem State.modCore_objs (c : Nat) (f : Core → Core) : (s.modCore c f).objs = s.objs := rfl
@[simp] theorem State.modCore_oidNext (c : Nat) (f : Core → Core) : (s.modCore c f).oidNext = s.oidNext := rfl
@[simp] theorem State.modCore_nodes (c : Nat) (f : Core → Core) : (s.modCore c f).nodes = s.nodes := rfl
@[simp] theorem State.modCore_nodeNext (c : Nat) (f : Core → Core) : (s.modCore c f).nodeNext = s.nodeNext := rfl
@[simp] theorem State.modCore_binds (c : Nat) (f : Core → Core) : (s.modCore c f).binds = s.binds := rfl
@[simp] theorem State.modCore_bindLog (c : Nat) (f : Core → Core) : (s.modCore c f).bindLog = s.bindLog := rfl
@[simp] theorem State.modCore_scrub (c : Nat) (f : Core → Core) : (s.modCore c f).scrub = s.scrub := rfl
@[simp] theorem State.modCore_queues (c : Nat) (f : Core → Core) : (s.modCore c f).queues = s.queues := rfl
@[simp] theorem State.modCore_supRing (c : Nat) (f : Core → Core) : (s.modCore c f).supRing = s.supRing := rfl
@[simp] theorem State.modCore_parts (c : Nat) (f : Core → Core) : (s.modCore c f).parts = s.parts := rfl
@[simp] theorem State.modCore_launches (c : Nat) (f : Core → Core) : (s.modCore c f).launches = s.launches := rfl
@[simp] theorem State.modCore_launchNext (c : Nat) (f : Core → Core) : (s.modCore c f).launchNext = s.launchNext := rfl
@[simp] theorem State.modCore_ticks (c : Nat) (f : Core → Core) : (s.modCore c f).ticks = s.ticks := rfl
@[simp] theorem State.modCore_stops (c : Nat) (f : Core → Core) : (s.modCore c f).stops = s.stops := rfl
@[simp] theorem State.modCore_saves (c : Nat) (f : Core → Core) : (s.modCore c f).saves = s.saves := rfl
@[simp] theorem State.modCore_deferred (c : Nat) (f : Core → Core) : (s.modCore c f).deferred = s.deferred := rfl
@[simp] theorem State.modCore_heldMsgs (c : Nat) (f : Core → Core) : (s.modCore c f).heldMsgs = s.heldMsgs := rfl
@[simp] theorem State.modCore_pkts (c : Nat) (f : Core → Core) : (s.modCore c f).pkts = s.pkts := rfl
@[simp] theorem State.modCore_acks (c : Nat) (f : Core → Core) : (s.modCore c f).acks = s.acks := rfl
@[simp] theorem State.modCore_pkg (c : Nat) (f : Core → Core) : (s.modCore c f).pkg = s.pkg := rfl
@[simp] theorem State.modCore_pmVer (c : Nat) (f : Core → Core) : (s.modCore c f).pmVer = s.pmVer := rfl
@[simp] theorem State.modCore_pmTime (c : Nat) (f : Core → Core) : (s.modCore c f).pmTime = s.pmTime := rfl
@[simp] theorem State.modCore_units (c : Nat) (f : Core → Core) : (s.modCore c f).units = s.units := rfl
@[simp] theorem State.modCore_leases (c : Nat) (f : Core → Core) : (s.modCore c f).leases = s.leases := rfl
@[simp] theorem State.modCore_retired (c : Nat) (f : Core → Core) : (s.modCore c f).retired = s.retired := rfl
@[simp] theorem State.modCore_events (c : Nat) (f : Core → Core) : (s.modCore c f).events = s.events := rfl
@[simp] theorem State.modCore_times (c : Nat) (f : Core → Core) : (s.modCore c f).times = s.times := rfl
@[simp] theorem State.modCore_reserveGone (c : Nat) (f : Core → Core) : (s.modCore c f).reserveGone = s.reserveGone := rfl
@[simp] theorem State.modCore_grader (c : Nat) (f : Core → Core) : (s.modCore c f).grader = s.grader := rfl
@[simp] theorem State.modCore_worn (c : Nat) (f : Core → Core) : (s.modCore c f).worn = s.worn := rfl
@[simp] theorem State.modCore_hold (c : Nat) (f : Core → Core) : (s.modCore c f).hold = s.hold := rfl
@[simp] theorem State.modCore_journal (c : Nat) (f : Core → Core) : (s.modCore c f).journal = s.journal := rfl
@[simp] theorem State.modCore_ckpt (c : Nat) (f : Core → Core) : (s.modCore c f).ckpt = s.ckpt := rfl
@[simp] theorem State.modCore_pause (c : Nat) (f : Core → Core) : (s.modCore c f).pause = s.pause := rfl
@[simp] theorem State.modCore_parserFaults (c : Nat) (f : Core → Core) : (s.modCore c f).parserFaults = s.parserFaults := rfl
@[simp] theorem State.modCore_bankWin (c : Nat) (f : Core → Core) : (s.modCore c f).bankWin = s.bankWin := rfl
@[simp] theorem State.modCore_flash (c : Nat) (f : Core → Core) : (s.modCore c f).flash = s.flash := rfl
@[simp] theorem State.modCore_flashCtr (c : Nat) (f : Core → Core) : (s.modCore c f).flashCtr = s.flashCtr := rfl
@[simp] theorem State.modCore_bootCount (c : Nat) (f : Core → Core) : (s.modCore c f).bootCount = s.bootCount := rfl
@[simp] theorem State.modCore_bootStage (c : Nat) (f : Core → Core) : (s.modCore c f).bootStage = s.bootStage := rfl
@[simp] theorem State.modCore_secVer (c : Nat) (f : Core → Core) : (s.modCore c f).secVer = s.secVer := rfl
@[simp] theorem State.modCore_slots (c : Nat) (f : Core → Core) : (s.modCore c f).slots = s.slots := rfl
@[simp] theorem State.modCore_slotsClosed (c : Nat) (f : Core → Core) : (s.modCore c f).slotsClosed = s.slotsClosed := rfl
@[simp] theorem State.modCore_attKey (c : Nat) (f : Core → Core) : (s.modCore c f).attKey = s.attKey := rfl
@[simp] theorem State.modCore_restorable (c : Nat) (f : Core → Core) : (s.modCore c f).restorable = s.restorable := rfl
@[simp] theorem State.modCore_quotes (c : Nat) (f : Core → Core) : (s.modCore c f).quotes = s.quotes := rfl
@[simp] theorem State.modCore_quote (c : Nat) (f : Core → Core) : (s.modCore c f).quote = s.quote := rfl
@[simp] theorem State.modCore_replies (c : Nat) (f : Core → Core) : (s.modCore c f).replies = s.replies := rfl
@[simp] theorem State.modCore_clu (c : Nat) (f : Core → Core) (i : Nat) : (s.modCore c f).clu i = s.clu i := rfl
@[simp] theorem State.modCore_die (c : Nat) (f : Core → Core) (i : Nat) : (s.modCore c f).die i = s.die i := rfl
@[simp] theorem State.modCore_ctx (c : Nat) (f : Core → Core) (i : Nat) : (s.modCore c f).ctx i = s.ctx i := rfl
@[simp] theorem State.modCore_desc (c : Nat) (f : Core → Core) (i j : Nat) : (s.modCore c f).desc i j = s.desc i j := rfl
@[simp] theorem State.modCore_obj (c : Nat) (f : Core → Core) (i : Nat) : (s.modCore c f).obj i = s.obj i := rfl
@[simp] theorem State.modCore_node (c : Nat) (f : Core → Core) (i : Nat) : (s.modCore c f).node i = s.node i := rfl
@[simp] theorem State.modCore_part (c : Nat) (f : Core → Core) (i : Nat) : (s.modCore c f).part i = s.part i := rfl
@[simp] theorem State.modCore_launch (c : Nat) (f : Core → Core) (i : Nat) : (s.modCore c f).launch i = s.launch i := rfl
@[simp] theorem State.modCore_queue (c : Nat) (f : Core → Core) (i : Nat) : (s.modCore c f).queue i = s.queue i := rfl
@[simp] theorem State.modCore_unit (c : Nat) (f : Core → Core) (i : Nat) : (s.modCore c f).unit i = s.unit i := rfl

/-! ### setThr -/

@[simp] theorem State.setThr_cyc (c t : Nat) (x : Thread) : (s.setThr c t x).cyc = s.cyc := rfl
@[simp] theorem State.setThr_dtimeBase (c t : Nat) (x : Thread) : (s.setThr c t x).dtimeBase = s.dtimeBase := rfl
@[simp] theorem State.setThr_agenda (c t : Nat) (x : Thread) : (s.setThr c t x).agenda = s.agenda := rfl
@[simp] theorem State.setThr_pref (c t : Nat) (x : Thread) : (s.setThr c t x).pref = s.pref := rfl
@[simp] theorem State.setThr_bad (c t : Nat) (x : Thread) : (s.setThr c t x).bad = s.bad := rfl
@[simp] theorem State.setThr_linkBad (c t : Nat) (x : Thread) : (s.setThr c t x).linkBad = s.linkBad := rfl
@[simp] theorem State.setThr_curCore (c t : Nat) (x : Thread) : (s.setThr c t x).curCore = s.curCore := rfl
@[simp] theorem State.setThr_curThr (c t : Nat) (x : Thread) : (s.setThr c t x).curThr = s.curThr := rfl
@[simp] theorem State.setThr_free (c t : Nat) (x : Thread) : (s.setThr c t x).free = s.free := rfl
@[simp] theorem State.setThr_off (c t : Nat) (x : Thread) : (s.setThr c t x).off = s.off := rfl
@[simp] theorem State.setThr_cut (c t : Nat) (x : Thread) : (s.setThr c t x).cut = s.cut := rfl
@[simp] theorem State.setThr_mem (c t : Nat) (x : Thread) : (s.setThr c t x).mem = s.mem := rfl
@[simp] theorem State.setThr_oom (c t : Nat) (x : Thread) : (s.setThr c t x).oom = s.oom := rfl
@[simp] theorem State.setThr_clus (c t : Nat) (x : Thread) : (s.setThr c t x).clus = s.clus := rfl
@[simp] theorem State.setThr_dies (c t : Nat) (x : Thread) : (s.setThr c t x).dies = s.dies := rfl
@[simp] theorem State.setThr_pressK (c t : Nat) (x : Thread) : (s.setThr c t x).pressK = s.pressK := rfl
@[simp] theorem State.setThr_msgs (c t : Nat) (x : Thread) : (s.setThr c t x).msgs = s.msgs := rfl
@[simp] theorem State.setThr_migs (c t : Nat) (x : Thread) : (s.setThr c t x).migs = s.migs := rfl
@[simp] theorem State.setThr_hmsgs (c t : Nat) (x : Thread) : (s.setThr c t x).hmsgs = s.hmsgs := rfl
@[simp] theorem State.setThr_hub (c t : Nat) (x : Thread) : (s.setThr c t x).hub = s.hub := rfl
@[simp] theorem State.setThr_hubNext (c t : Nat) (x : Thread) : (s.setThr c t x).hubNext = s.hubNext := rfl
@[simp] theorem State.setThr_shoots (c t : Nat) (x : Thread) : (s.setThr c t x).shoots = s.shoots := rfl
@[simp] theorem State.setThr_stale (c t : Nat) (x : Thread) : (s.setThr c t x).stale = s.stale := rfl
@[simp] theorem State.setThr_owed (c t : Nat) (x : Thread) : (s.setThr c t x).owed = s.owed := rfl
@[simp] theorem State.setThr_gage (c t : Nat) (x : Thread) : (s.setThr c t x).gage = s.gage := rfl
@[simp] theorem State.setThr_ctxs (c t : Nat) (x : Thread) : (s.setThr c t x).ctxs = s.ctxs := rfl
@[simp] theorem State.setThr_objs (c t : Nat) (x : Thread) : (s.setThr c t x).objs = s.objs := rfl
@[simp] theorem State.setThr_oidNext (c t : Nat) (x : Thread) : (s.setThr c t x).oidNext = s.oidNext := rfl
@[simp] theorem State.setThr_nodes (c t : Nat) (x : Thread) : (s.setThr c t x).nodes = s.nodes := rfl
@[simp] theorem State.setThr_nodeNext (c t : Nat) (x : Thread) : (s.setThr c t x).nodeNext = s.nodeNext := rfl
@[simp] theorem State.setThr_binds (c t : Nat) (x : Thread) : (s.setThr c t x).binds = s.binds := rfl
@[simp] theorem State.setThr_bindLog (c t : Nat) (x : Thread) : (s.setThr c t x).bindLog = s.bindLog := rfl
@[simp] theorem State.setThr_scrub (c t : Nat) (x : Thread) : (s.setThr c t x).scrub = s.scrub := rfl
@[simp] theorem State.setThr_queues (c t : Nat) (x : Thread) : (s.setThr c t x).queues = s.queues := rfl
@[simp] theorem State.setThr_supRing (c t : Nat) (x : Thread) : (s.setThr c t x).supRing = s.supRing := rfl
@[simp] theorem State.setThr_parts (c t : Nat) (x : Thread) : (s.setThr c t x).parts = s.parts := rfl
@[simp] theorem State.setThr_launches (c t : Nat) (x : Thread) : (s.setThr c t x).launches = s.launches := rfl
@[simp] theorem State.setThr_launchNext (c t : Nat) (x : Thread) : (s.setThr c t x).launchNext = s.launchNext := rfl
@[simp] theorem State.setThr_ticks (c t : Nat) (x : Thread) : (s.setThr c t x).ticks = s.ticks := rfl
@[simp] theorem State.setThr_stops (c t : Nat) (x : Thread) : (s.setThr c t x).stops = s.stops := rfl
@[simp] theorem State.setThr_saves (c t : Nat) (x : Thread) : (s.setThr c t x).saves = s.saves := rfl
@[simp] theorem State.setThr_deferred (c t : Nat) (x : Thread) : (s.setThr c t x).deferred = s.deferred := rfl
@[simp] theorem State.setThr_heldMsgs (c t : Nat) (x : Thread) : (s.setThr c t x).heldMsgs = s.heldMsgs := rfl
@[simp] theorem State.setThr_pkts (c t : Nat) (x : Thread) : (s.setThr c t x).pkts = s.pkts := rfl
@[simp] theorem State.setThr_acks (c t : Nat) (x : Thread) : (s.setThr c t x).acks = s.acks := rfl
@[simp] theorem State.setThr_pkg (c t : Nat) (x : Thread) : (s.setThr c t x).pkg = s.pkg := rfl
@[simp] theorem State.setThr_pmVer (c t : Nat) (x : Thread) : (s.setThr c t x).pmVer = s.pmVer := rfl
@[simp] theorem State.setThr_pmTime (c t : Nat) (x : Thread) : (s.setThr c t x).pmTime = s.pmTime := rfl
@[simp] theorem State.setThr_units (c t : Nat) (x : Thread) : (s.setThr c t x).units = s.units := rfl
@[simp] theorem State.setThr_leases (c t : Nat) (x : Thread) : (s.setThr c t x).leases = s.leases := rfl
@[simp] theorem State.setThr_retired (c t : Nat) (x : Thread) : (s.setThr c t x).retired = s.retired := rfl
@[simp] theorem State.setThr_events (c t : Nat) (x : Thread) : (s.setThr c t x).events = s.events := rfl
@[simp] theorem State.setThr_times (c t : Nat) (x : Thread) : (s.setThr c t x).times = s.times := rfl
@[simp] theorem State.setThr_reserveGone (c t : Nat) (x : Thread) : (s.setThr c t x).reserveGone = s.reserveGone := rfl
@[simp] theorem State.setThr_grader (c t : Nat) (x : Thread) : (s.setThr c t x).grader = s.grader := rfl
@[simp] theorem State.setThr_worn (c t : Nat) (x : Thread) : (s.setThr c t x).worn = s.worn := rfl
@[simp] theorem State.setThr_hold (c t : Nat) (x : Thread) : (s.setThr c t x).hold = s.hold := rfl
@[simp] theorem State.setThr_journal (c t : Nat) (x : Thread) : (s.setThr c t x).journal = s.journal := rfl
@[simp] theorem State.setThr_ckpt (c t : Nat) (x : Thread) : (s.setThr c t x).ckpt = s.ckpt := rfl
@[simp] theorem State.setThr_pause (c t : Nat) (x : Thread) : (s.setThr c t x).pause = s.pause := rfl
@[simp] theorem State.setThr_parserFaults (c t : Nat) (x : Thread) : (s.setThr c t x).parserFaults = s.parserFaults := rfl
@[simp] theorem State.setThr_bankWin (c t : Nat) (x : Thread) : (s.setThr c t x).bankWin = s.bankWin := rfl
@[simp] theorem State.setThr_flash (c t : Nat) (x : Thread) : (s.setThr c t x).flash = s.flash := rfl
@[simp] theorem State.setThr_flashCtr (c t : Nat) (x : Thread) : (s.setThr c t x).flashCtr = s.flashCtr := rfl
@[simp] theorem State.setThr_bootCount (c t : Nat) (x : Thread) : (s.setThr c t x).bootCount = s.bootCount := rfl
@[simp] theorem State.setThr_bootStage (c t : Nat) (x : Thread) : (s.setThr c t x).bootStage = s.bootStage := rfl
@[simp] theorem State.setThr_secVer (c t : Nat) (x : Thread) : (s.setThr c t x).secVer = s.secVer := rfl
@[simp] theorem State.setThr_slots (c t : Nat) (x : Thread) : (s.setThr c t x).slots = s.slots := rfl
@[simp] theorem State.setThr_slotsClosed (c t : Nat) (x : Thread) : (s.setThr c t x).slotsClosed = s.slotsClosed := rfl
@[simp] theorem State.setThr_attKey (c t : Nat) (x : Thread) : (s.setThr c t x).attKey = s.attKey := rfl
@[simp] theorem State.setThr_restorable (c t : Nat) (x : Thread) : (s.setThr c t x).restorable = s.restorable := rfl
@[simp] theorem State.setThr_quotes (c t : Nat) (x : Thread) : (s.setThr c t x).quotes = s.quotes := rfl
@[simp] theorem State.setThr_quote (c t : Nat) (x : Thread) : (s.setThr c t x).quote = s.quote := rfl
@[simp] theorem State.setThr_replies (c t : Nat) (x : Thread) : (s.setThr c t x).replies = s.replies := rfl
@[simp] theorem State.setThr_clu (c t : Nat) (x : Thread) (i : Nat) : (s.setThr c t x).clu i = s.clu i := rfl
@[simp] theorem State.setThr_die (c t : Nat) (x : Thread) (i : Nat) : (s.setThr c t x).die i = s.die i := rfl
@[simp] theorem State.setThr_ctx (c t : Nat) (x : Thread) (i : Nat) : (s.setThr c t x).ctx i = s.ctx i := rfl
@[simp] theorem State.setThr_desc (c t : Nat) (x : Thread) (i j : Nat) : (s.setThr c t x).desc i j = s.desc i j := rfl
@[simp] theorem State.setThr_obj (c t : Nat) (x : Thread) (i : Nat) : (s.setThr c t x).obj i = s.obj i := rfl
@[simp] theorem State.setThr_node (c t : Nat) (x : Thread) (i : Nat) : (s.setThr c t x).node i = s.node i := rfl
@[simp] theorem State.setThr_part (c t : Nat) (x : Thread) (i : Nat) : (s.setThr c t x).part i = s.part i := rfl
@[simp] theorem State.setThr_launch (c t : Nat) (x : Thread) (i : Nat) : (s.setThr c t x).launch i = s.launch i := rfl
@[simp] theorem State.setThr_queue (c t : Nat) (x : Thread) (i : Nat) : (s.setThr c t x).queue i = s.queue i := rfl
@[simp] theorem State.setThr_unit (c t : Nat) (x : Thread) (i : Nat) : (s.setThr c t x).unit i = s.unit i := rfl

/-! ### modThr -/

@[simp] theorem State.modThr_cyc (c t : Nat) (f : Thread → Thread) : (s.modThr c t f).cyc = s.cyc := rfl
@[simp] theorem State.modThr_dtimeBase (c t : Nat) (f : Thread → Thread) : (s.modThr c t f).dtimeBase = s.dtimeBase := rfl
@[simp] theorem State.modThr_agenda (c t : Nat) (f : Thread → Thread) : (s.modThr c t f).agenda = s.agenda := rfl
@[simp] theorem State.modThr_pref (c t : Nat) (f : Thread → Thread) : (s.modThr c t f).pref = s.pref := rfl
@[simp] theorem State.modThr_bad (c t : Nat) (f : Thread → Thread) : (s.modThr c t f).bad = s.bad := rfl
@[simp] theorem State.modThr_linkBad (c t : Nat) (f : Thread → Thread) : (s.modThr c t f).linkBad = s.linkBad := rfl
@[simp] theorem State.modThr_curCore (c t : Nat) (f : Thread → Thread) : (s.modThr c t f).curCore = s.curCore := rfl
@[simp] theorem State.modThr_curThr (c t : Nat) (f : Thread → Thread) : (s.modThr c t f).curThr = s.curThr := rfl
@[simp] theorem State.modThr_free (c t : Nat) (f : Thread → Thread) : (s.modThr c t f).free = s.free := rfl
@[simp] theorem State.modThr_off (c t : Nat) (f : Thread → Thread) : (s.modThr c t f).off = s.off := rfl
@[simp] theorem State.modThr_cut (c t : Nat) (f : Thread → Thread) : (s.modThr c t f).cut = s.cut := rfl
@[simp] theorem State.modThr_mem (c t : Nat) (f : Thread → Thread) : (s.modThr c t f).mem = s.mem := rfl
@[simp] theorem State.modThr_oom (c t : Nat) (f : Thread → Thread) : (s.modThr c t f).oom = s.oom := rfl
@[simp] theorem State.modThr_clus (c t : Nat) (f : Thread → Thread) : (s.modThr c t f).clus = s.clus := rfl
@[simp] theorem State.modThr_dies (c t : Nat) (f : Thread → Thread) : (s.modThr c t f).dies = s.dies := rfl
@[simp] theorem State.modThr_pressK (c t : Nat) (f : Thread → Thread) : (s.modThr c t f).pressK = s.pressK := rfl
@[simp] theorem State.modThr_msgs (c t : Nat) (f : Thread → Thread) : (s.modThr c t f).msgs = s.msgs := rfl
@[simp] theorem State.modThr_migs (c t : Nat) (f : Thread → Thread) : (s.modThr c t f).migs = s.migs := rfl
@[simp] theorem State.modThr_hmsgs (c t : Nat) (f : Thread → Thread) : (s.modThr c t f).hmsgs = s.hmsgs := rfl
@[simp] theorem State.modThr_hub (c t : Nat) (f : Thread → Thread) : (s.modThr c t f).hub = s.hub := rfl
@[simp] theorem State.modThr_hubNext (c t : Nat) (f : Thread → Thread) : (s.modThr c t f).hubNext = s.hubNext := rfl
@[simp] theorem State.modThr_shoots (c t : Nat) (f : Thread → Thread) : (s.modThr c t f).shoots = s.shoots := rfl
@[simp] theorem State.modThr_stale (c t : Nat) (f : Thread → Thread) : (s.modThr c t f).stale = s.stale := rfl
@[simp] theorem State.modThr_owed (c t : Nat) (f : Thread → Thread) : (s.modThr c t f).owed = s.owed := rfl
@[simp] theorem State.modThr_gage (c t : Nat) (f : Thread → Thread) : (s.modThr c t f).gage = s.gage := rfl
@[simp] theorem State.modThr_ctxs (c t : Nat) (f : Thread → Thread) : (s.modThr c t f).ctxs = s.ctxs := rfl
@[simp] theorem State.modThr_objs (c t : Nat) (f : Thread → Thread) : (s.modThr c t f).objs = s.objs := rfl
@[simp] theorem State.modThr_oidNext (c t : Nat) (f : Thread → Thread) : (s.modThr c t f).oidNext = s.oidNext := rfl
@[simp] theorem State.modThr_nodes (c t : Nat) (f : Thread → Thread) : (s.modThr c t f).nodes = s.nodes := rfl
@[simp] theorem State.modThr_nodeNext (c t : Nat) (f : Thread → Thread) : (s.modThr c t f).nodeNext = s.nodeNext := rfl
@[simp] theorem State.modThr_binds (c t : Nat) (f : Thread → Thread) : (s.modThr c t f).binds = s.binds := rfl
@[simp] theorem State.modThr_bindLog (c t : Nat) (f : Thread → Thread) : (s.modThr c t f).bindLog = s.bindLog := rfl
@[simp] theorem State.modThr_scrub (c t : Nat) (f : Thread → Thread) : (s.modThr c t f).scrub = s.scrub := rfl
@[simp] theorem State.modThr_queues (c t : Nat) (f : Thread → Thread) : (s.modThr c t f).queues = s.queues := rfl
@[simp] theorem State.modThr_supRing (c t : Nat) (f : Thread → Thread) : (s.modThr c t f).supRing = s.supRing := rfl
@[simp] theorem State.modThr_parts (c t : Nat) (f : Thread → Thread) : (s.modThr c t f).parts = s.parts := rfl
@[simp] theorem State.modThr_launches (c t : Nat) (f : Thread → Thread) : (s.modThr c t f).launches = s.launches := rfl
@[simp] theorem State.modThr_launchNext (c t : Nat) (f : Thread → Thread) : (s.modThr c t f).launchNext = s.launchNext := rfl
@[simp] theorem State.modThr_ticks (c t : Nat) (f : Thread → Thread) : (s.modThr c t f).ticks = s.ticks := rfl
@[simp] theorem State.modThr_stops (c t : Nat) (f : Thread → Thread) : (s.modThr c t f).stops = s.stops := rfl
@[simp] theorem State.modThr_saves (c t : Nat) (f : Thread → Thread) : (s.modThr c t f).saves = s.saves := rfl
@[simp] theorem State.modThr_deferred (c t : Nat) (f : Thread → Thread) : (s.modThr c t f).deferred = s.deferred := rfl
@[simp] theorem State.modThr_heldMsgs (c t : Nat) (f : Thread → Thread) : (s.modThr c t f).heldMsgs = s.heldMsgs := rfl
@[simp] theorem State.modThr_pkts (c t : Nat) (f : Thread → Thread) : (s.modThr c t f).pkts = s.pkts := rfl
@[simp] theorem State.modThr_acks (c t : Nat) (f : Thread → Thread) : (s.modThr c t f).acks = s.acks := rfl
@[simp] theorem State.modThr_pkg (c t : Nat) (f : Thread → Thread) : (s.modThr c t f).pkg = s.pkg := rfl
@[simp] theorem State.modThr_pmVer (c t : Nat) (f : Thread → Thread) : (s.modThr c t f).pmVer = s.pmVer := rfl
@[simp] theorem State.modThr_pmTime (c t : Nat) (f : Thread → Thread) : (s.modThr c t f).pmTime = s.pmTime := rfl
@[simp] theorem State.modThr_units (c t : Nat) (f : Thread → Thread) : (s.modThr c t f).units = s.units := rfl
@[simp] theorem State.modThr_leases (c t : Nat) (f : Thread → Thread) : (s.modThr c t f).leases = s.leases := rfl
@[simp] theorem State.modThr_retired (c t : Nat) (f : Thread → Thread) : (s.modThr c t f).retired = s.retired := rfl
@[simp] theorem State.modThr_events (c t : Nat) (f : Thread → Thread) : (s.modThr c t f).events = s.events := rfl
@[simp] theorem State.modThr_times (c t : Nat) (f : Thread → Thread) : (s.modThr c t f).times = s.times := rfl
@[simp] theorem State.modThr_reserveGone (c t : Nat) (f : Thread → Thread) : (s.modThr c t f).reserveGone = s.reserveGone := rfl
@[simp] theorem State.modThr_grader (c t : Nat) (f : Thread → Thread) : (s.modThr c t f).grader = s.grader := rfl
@[simp] theorem State.modThr_worn (c t : Nat) (f : Thread → Thread) : (s.modThr c t f).worn = s.worn := rfl
@[simp] theorem State.modThr_hold (c t : Nat) (f : Thread → Thread) : (s.modThr c t f).hold = s.hold := rfl
@[simp] theorem State.modThr_journal (c t : Nat) (f : Thread → Thread) : (s.modThr c t f).journal = s.journal := rfl
@[simp] theorem State.modThr_ckpt (c t : Nat) (f : Thread → Thread) : (s.modThr c t f).ckpt = s.ckpt := rfl
@[simp] theorem State.modThr_pause (c t : Nat) (f : Thread → Thread) : (s.modThr c t f).pause = s.pause := rfl
@[simp] theorem State.modThr_parserFaults (c t : Nat) (f : Thread → Thread) : (s.modThr c t f).parserFaults = s.parserFaults := rfl
@[simp] theorem State.modThr_bankWin (c t : Nat) (f : Thread → Thread) : (s.modThr c t f).bankWin = s.bankWin := rfl
@[simp] theorem State.modThr_flash (c t : Nat) (f : Thread → Thread) : (s.modThr c t f).flash = s.flash := rfl
@[simp] theorem State.modThr_flashCtr (c t : Nat) (f : Thread → Thread) : (s.modThr c t f).flashCtr = s.flashCtr := rfl
@[simp] theorem State.modThr_bootCount (c t : Nat) (f : Thread → Thread) : (s.modThr c t f).bootCount = s.bootCount := rfl
@[simp] theorem State.modThr_bootStage (c t : Nat) (f : Thread → Thread) : (s.modThr c t f).bootStage = s.bootStage := rfl
@[simp] theorem State.modThr_secVer (c t : Nat) (f : Thread → Thread) : (s.modThr c t f).secVer = s.secVer := rfl
@[simp] theorem State.modThr_slots (c t : Nat) (f : Thread → Thread) : (s.modThr c t f).slots = s.slots := rfl
@[simp] theorem State.modThr_slotsClosed (c t : Nat) (f : Thread → Thread) : (s.modThr c t f).slotsClosed = s.slotsClosed := rfl
@[simp] theorem State.modThr_attKey (c t : Nat) (f : Thread → Thread) : (s.modThr c t f).attKey = s.attKey := rfl
@[simp] theorem State.modThr_restorable (c t : Nat) (f : Thread → Thread) : (s.modThr c t f).restorable = s.restorable := rfl
@[simp] theorem State.modThr_quotes (c t : Nat) (f : Thread → Thread) : (s.modThr c t f).quotes = s.quotes := rfl
@[simp] theorem State.modThr_quote (c t : Nat) (f : Thread → Thread) : (s.modThr c t f).quote = s.quote := rfl
@[simp] theorem State.modThr_replies (c t : Nat) (f : Thread → Thread) : (s.modThr c t f).replies = s.replies := rfl
@[simp] theorem State.modThr_clu (c t : Nat) (f : Thread → Thread) (i : Nat) : (s.modThr c t f).clu i = s.clu i := rfl
@[simp] theorem State.modThr_die (c t : Nat) (f : Thread → Thread) (i : Nat) : (s.modThr c t f).die i = s.die i := rfl
@[simp] theorem State.modThr_ctx (c t : Nat) (f : Thread → Thread) (i : Nat) : (s.modThr c t f).ctx i = s.ctx i := rfl
@[simp] theorem State.modThr_desc (c t : Nat) (f : Thread → Thread) (i j : Nat) : (s.modThr c t f).desc i j = s.desc i j := rfl
@[simp] theorem State.modThr_obj (c t : Nat) (f : Thread → Thread) (i : Nat) : (s.modThr c t f).obj i = s.obj i := rfl
@[simp] theorem State.modThr_node (c t : Nat) (f : Thread → Thread) (i : Nat) : (s.modThr c t f).node i = s.node i := rfl
@[simp] theorem State.modThr_part (c t : Nat) (f : Thread → Thread) (i : Nat) : (s.modThr c t f).part i = s.part i := rfl
@[simp] theorem State.modThr_launch (c t : Nat) (f : Thread → Thread) (i : Nat) : (s.modThr c t f).launch i = s.launch i := rfl
@[simp] theorem State.modThr_queue (c t : Nat) (f : Thread → Thread) (i : Nat) : (s.modThr c t f).queue i = s.queue i := rfl
@[simp] theorem State.modThr_unit (c t : Nat) (f : Thread → Thread) (i : Nat) : (s.modThr c t f).unit i = s.unit i := rfl

/-! ### modGrp -/

@[simp] theorem State.modGrp_cyc (c t : Nat) (f : Group → Group) : (s.modGrp c t f).cyc = s.cyc := rfl
@[simp] theorem State.modGrp_dtimeBase (c t : Nat) (f : Group → Group) : (s.modGrp c t f).dtimeBase = s.dtimeBase := rfl
@[simp] theorem State.modGrp_agenda (c t : Nat) (f : Group → Group) : (s.modGrp c t f).agenda = s.agenda := rfl
@[simp] theorem State.modGrp_pref (c t : Nat) (f : Group → Group) : (s.modGrp c t f).pref = s.pref := rfl
@[simp] theorem State.modGrp_bad (c t : Nat) (f : Group → Group) : (s.modGrp c t f).bad = s.bad := rfl
@[simp] theorem State.modGrp_linkBad (c t : Nat) (f : Group → Group) : (s.modGrp c t f).linkBad = s.linkBad := rfl
@[simp] theorem State.modGrp_curCore (c t : Nat) (f : Group → Group) : (s.modGrp c t f).curCore = s.curCore := rfl
@[simp] theorem State.modGrp_curThr (c t : Nat) (f : Group → Group) : (s.modGrp c t f).curThr = s.curThr := rfl
@[simp] theorem State.modGrp_free (c t : Nat) (f : Group → Group) : (s.modGrp c t f).free = s.free := rfl
@[simp] theorem State.modGrp_off (c t : Nat) (f : Group → Group) : (s.modGrp c t f).off = s.off := rfl
@[simp] theorem State.modGrp_cut (c t : Nat) (f : Group → Group) : (s.modGrp c t f).cut = s.cut := rfl
@[simp] theorem State.modGrp_mem (c t : Nat) (f : Group → Group) : (s.modGrp c t f).mem = s.mem := rfl
@[simp] theorem State.modGrp_oom (c t : Nat) (f : Group → Group) : (s.modGrp c t f).oom = s.oom := rfl
@[simp] theorem State.modGrp_clus (c t : Nat) (f : Group → Group) : (s.modGrp c t f).clus = s.clus := rfl
@[simp] theorem State.modGrp_dies (c t : Nat) (f : Group → Group) : (s.modGrp c t f).dies = s.dies := rfl
@[simp] theorem State.modGrp_pressK (c t : Nat) (f : Group → Group) : (s.modGrp c t f).pressK = s.pressK := rfl
@[simp] theorem State.modGrp_msgs (c t : Nat) (f : Group → Group) : (s.modGrp c t f).msgs = s.msgs := rfl
@[simp] theorem State.modGrp_migs (c t : Nat) (f : Group → Group) : (s.modGrp c t f).migs = s.migs := rfl
@[simp] theorem State.modGrp_hmsgs (c t : Nat) (f : Group → Group) : (s.modGrp c t f).hmsgs = s.hmsgs := rfl
@[simp] theorem State.modGrp_hub (c t : Nat) (f : Group → Group) : (s.modGrp c t f).hub = s.hub := rfl
@[simp] theorem State.modGrp_hubNext (c t : Nat) (f : Group → Group) : (s.modGrp c t f).hubNext = s.hubNext := rfl
@[simp] theorem State.modGrp_shoots (c t : Nat) (f : Group → Group) : (s.modGrp c t f).shoots = s.shoots := rfl
@[simp] theorem State.modGrp_stale (c t : Nat) (f : Group → Group) : (s.modGrp c t f).stale = s.stale := rfl
@[simp] theorem State.modGrp_owed (c t : Nat) (f : Group → Group) : (s.modGrp c t f).owed = s.owed := rfl
@[simp] theorem State.modGrp_gage (c t : Nat) (f : Group → Group) : (s.modGrp c t f).gage = s.gage := rfl
@[simp] theorem State.modGrp_ctxs (c t : Nat) (f : Group → Group) : (s.modGrp c t f).ctxs = s.ctxs := rfl
@[simp] theorem State.modGrp_objs (c t : Nat) (f : Group → Group) : (s.modGrp c t f).objs = s.objs := rfl
@[simp] theorem State.modGrp_oidNext (c t : Nat) (f : Group → Group) : (s.modGrp c t f).oidNext = s.oidNext := rfl
@[simp] theorem State.modGrp_nodes (c t : Nat) (f : Group → Group) : (s.modGrp c t f).nodes = s.nodes := rfl
@[simp] theorem State.modGrp_nodeNext (c t : Nat) (f : Group → Group) : (s.modGrp c t f).nodeNext = s.nodeNext := rfl
@[simp] theorem State.modGrp_binds (c t : Nat) (f : Group → Group) : (s.modGrp c t f).binds = s.binds := rfl
@[simp] theorem State.modGrp_bindLog (c t : Nat) (f : Group → Group) : (s.modGrp c t f).bindLog = s.bindLog := rfl
@[simp] theorem State.modGrp_scrub (c t : Nat) (f : Group → Group) : (s.modGrp c t f).scrub = s.scrub := rfl
@[simp] theorem State.modGrp_queues (c t : Nat) (f : Group → Group) : (s.modGrp c t f).queues = s.queues := rfl
@[simp] theorem State.modGrp_supRing (c t : Nat) (f : Group → Group) : (s.modGrp c t f).supRing = s.supRing := rfl
@[simp] theorem State.modGrp_parts (c t : Nat) (f : Group → Group) : (s.modGrp c t f).parts = s.parts := rfl
@[simp] theorem State.modGrp_launches (c t : Nat) (f : Group → Group) : (s.modGrp c t f).launches = s.launches := rfl
@[simp] theorem State.modGrp_launchNext (c t : Nat) (f : Group → Group) : (s.modGrp c t f).launchNext = s.launchNext := rfl
@[simp] theorem State.modGrp_ticks (c t : Nat) (f : Group → Group) : (s.modGrp c t f).ticks = s.ticks := rfl
@[simp] theorem State.modGrp_stops (c t : Nat) (f : Group → Group) : (s.modGrp c t f).stops = s.stops := rfl
@[simp] theorem State.modGrp_saves (c t : Nat) (f : Group → Group) : (s.modGrp c t f).saves = s.saves := rfl
@[simp] theorem State.modGrp_deferred (c t : Nat) (f : Group → Group) : (s.modGrp c t f).deferred = s.deferred := rfl
@[simp] theorem State.modGrp_heldMsgs (c t : Nat) (f : Group → Group) : (s.modGrp c t f).heldMsgs = s.heldMsgs := rfl
@[simp] theorem State.modGrp_pkts (c t : Nat) (f : Group → Group) : (s.modGrp c t f).pkts = s.pkts := rfl
@[simp] theorem State.modGrp_acks (c t : Nat) (f : Group → Group) : (s.modGrp c t f).acks = s.acks := rfl
@[simp] theorem State.modGrp_pkg (c t : Nat) (f : Group → Group) : (s.modGrp c t f).pkg = s.pkg := rfl
@[simp] theorem State.modGrp_pmVer (c t : Nat) (f : Group → Group) : (s.modGrp c t f).pmVer = s.pmVer := rfl
@[simp] theorem State.modGrp_pmTime (c t : Nat) (f : Group → Group) : (s.modGrp c t f).pmTime = s.pmTime := rfl
@[simp] theorem State.modGrp_units (c t : Nat) (f : Group → Group) : (s.modGrp c t f).units = s.units := rfl
@[simp] theorem State.modGrp_leases (c t : Nat) (f : Group → Group) : (s.modGrp c t f).leases = s.leases := rfl
@[simp] theorem State.modGrp_retired (c t : Nat) (f : Group → Group) : (s.modGrp c t f).retired = s.retired := rfl
@[simp] theorem State.modGrp_events (c t : Nat) (f : Group → Group) : (s.modGrp c t f).events = s.events := rfl
@[simp] theorem State.modGrp_times (c t : Nat) (f : Group → Group) : (s.modGrp c t f).times = s.times := rfl
@[simp] theorem State.modGrp_reserveGone (c t : Nat) (f : Group → Group) : (s.modGrp c t f).reserveGone = s.reserveGone := rfl
@[simp] theorem State.modGrp_grader (c t : Nat) (f : Group → Group) : (s.modGrp c t f).grader = s.grader := rfl
@[simp] theorem State.modGrp_worn (c t : Nat) (f : Group → Group) : (s.modGrp c t f).worn = s.worn := rfl
@[simp] theorem State.modGrp_hold (c t : Nat) (f : Group → Group) : (s.modGrp c t f).hold = s.hold := rfl
@[simp] theorem State.modGrp_journal (c t : Nat) (f : Group → Group) : (s.modGrp c t f).journal = s.journal := rfl
@[simp] theorem State.modGrp_ckpt (c t : Nat) (f : Group → Group) : (s.modGrp c t f).ckpt = s.ckpt := rfl
@[simp] theorem State.modGrp_pause (c t : Nat) (f : Group → Group) : (s.modGrp c t f).pause = s.pause := rfl
@[simp] theorem State.modGrp_parserFaults (c t : Nat) (f : Group → Group) : (s.modGrp c t f).parserFaults = s.parserFaults := rfl
@[simp] theorem State.modGrp_bankWin (c t : Nat) (f : Group → Group) : (s.modGrp c t f).bankWin = s.bankWin := rfl
@[simp] theorem State.modGrp_flash (c t : Nat) (f : Group → Group) : (s.modGrp c t f).flash = s.flash := rfl
@[simp] theorem State.modGrp_flashCtr (c t : Nat) (f : Group → Group) : (s.modGrp c t f).flashCtr = s.flashCtr := rfl
@[simp] theorem State.modGrp_bootCount (c t : Nat) (f : Group → Group) : (s.modGrp c t f).bootCount = s.bootCount := rfl
@[simp] theorem State.modGrp_bootStage (c t : Nat) (f : Group → Group) : (s.modGrp c t f).bootStage = s.bootStage := rfl
@[simp] theorem State.modGrp_secVer (c t : Nat) (f : Group → Group) : (s.modGrp c t f).secVer = s.secVer := rfl
@[simp] theorem State.modGrp_slots (c t : Nat) (f : Group → Group) : (s.modGrp c t f).slots = s.slots := rfl
@[simp] theorem State.modGrp_slotsClosed (c t : Nat) (f : Group → Group) : (s.modGrp c t f).slotsClosed = s.slotsClosed := rfl
@[simp] theorem State.modGrp_attKey (c t : Nat) (f : Group → Group) : (s.modGrp c t f).attKey = s.attKey := rfl
@[simp] theorem State.modGrp_restorable (c t : Nat) (f : Group → Group) : (s.modGrp c t f).restorable = s.restorable := rfl
@[simp] theorem State.modGrp_quotes (c t : Nat) (f : Group → Group) : (s.modGrp c t f).quotes = s.quotes := rfl
@[simp] theorem State.modGrp_quote (c t : Nat) (f : Group → Group) : (s.modGrp c t f).quote = s.quote := rfl
@[simp] theorem State.modGrp_replies (c t : Nat) (f : Group → Group) : (s.modGrp c t f).replies = s.replies := rfl
@[simp] theorem State.modGrp_clu (c t : Nat) (f : Group → Group) (i : Nat) : (s.modGrp c t f).clu i = s.clu i := rfl
@[simp] theorem State.modGrp_die (c t : Nat) (f : Group → Group) (i : Nat) : (s.modGrp c t f).die i = s.die i := rfl
@[simp] theorem State.modGrp_ctx (c t : Nat) (f : Group → Group) (i : Nat) : (s.modGrp c t f).ctx i = s.ctx i := rfl
@[simp] theorem State.modGrp_desc (c t : Nat) (f : Group → Group) (i j : Nat) : (s.modGrp c t f).desc i j = s.desc i j := rfl
@[simp] theorem State.modGrp_obj (c t : Nat) (f : Group → Group) (i : Nat) : (s.modGrp c t f).obj i = s.obj i := rfl
@[simp] theorem State.modGrp_node (c t : Nat) (f : Group → Group) (i : Nat) : (s.modGrp c t f).node i = s.node i := rfl
@[simp] theorem State.modGrp_part (c t : Nat) (f : Group → Group) (i : Nat) : (s.modGrp c t f).part i = s.part i := rfl
@[simp] theorem State.modGrp_launch (c t : Nat) (f : Group → Group) (i : Nat) : (s.modGrp c t f).launch i = s.launch i := rfl
@[simp] theorem State.modGrp_queue (c t : Nat) (f : Group → Group) (i : Nat) : (s.modGrp c t f).queue i = s.queue i := rfl
@[simp] theorem State.modGrp_unit (c t : Nat) (f : Group → Group) (i : Nat) : (s.modGrp c t f).unit i = s.unit i := rfl

/-! ### modClu -/

@[simp] theorem State.modClu_cyc (cl : Nat) (f : Cluster → Cluster) : (s.modClu cl f).cyc = s.cyc := rfl
@[simp] theorem State.modClu_dtimeBase (cl : Nat) (f : Cluster → Cluster) : (s.modClu cl f).dtimeBase = s.dtimeBase := rfl
@[simp] theorem State.modClu_agenda (cl : Nat) (f : Cluster → Cluster) : (s.modClu cl f).agenda = s.agenda := rfl
@[simp] theorem State.modClu_pref (cl : Nat) (f : Cluster → Cluster) : (s.modClu cl f).pref = s.pref := rfl
@[simp] theorem State.modClu_bad (cl : Nat) (f : Cluster → Cluster) : (s.modClu cl f).bad = s.bad := rfl
@[simp] theorem State.modClu_linkBad (cl : Nat) (f : Cluster → Cluster) : (s.modClu cl f).linkBad = s.linkBad := rfl
@[simp] theorem State.modClu_curCore (cl : Nat) (f : Cluster → Cluster) : (s.modClu cl f).curCore = s.curCore := rfl
@[simp] theorem State.modClu_curThr (cl : Nat) (f : Cluster → Cluster) : (s.modClu cl f).curThr = s.curThr := rfl
@[simp] theorem State.modClu_free (cl : Nat) (f : Cluster → Cluster) : (s.modClu cl f).free = s.free := rfl
@[simp] theorem State.modClu_off (cl : Nat) (f : Cluster → Cluster) : (s.modClu cl f).off = s.off := rfl
@[simp] theorem State.modClu_cut (cl : Nat) (f : Cluster → Cluster) : (s.modClu cl f).cut = s.cut := rfl
@[simp] theorem State.modClu_mem (cl : Nat) (f : Cluster → Cluster) : (s.modClu cl f).mem = s.mem := rfl
@[simp] theorem State.modClu_oom (cl : Nat) (f : Cluster → Cluster) : (s.modClu cl f).oom = s.oom := rfl
@[simp] theorem State.modClu_cores (cl : Nat) (f : Cluster → Cluster) : (s.modClu cl f).cores = s.cores := rfl
@[simp] theorem State.modClu_dies (cl : Nat) (f : Cluster → Cluster) : (s.modClu cl f).dies = s.dies := rfl
@[simp] theorem State.modClu_pressK (cl : Nat) (f : Cluster → Cluster) : (s.modClu cl f).pressK = s.pressK := rfl
@[simp] theorem State.modClu_msgs (cl : Nat) (f : Cluster → Cluster) : (s.modClu cl f).msgs = s.msgs := rfl
@[simp] theorem State.modClu_migs (cl : Nat) (f : Cluster → Cluster) : (s.modClu cl f).migs = s.migs := rfl
@[simp] theorem State.modClu_hmsgs (cl : Nat) (f : Cluster → Cluster) : (s.modClu cl f).hmsgs = s.hmsgs := rfl
@[simp] theorem State.modClu_hub (cl : Nat) (f : Cluster → Cluster) : (s.modClu cl f).hub = s.hub := rfl
@[simp] theorem State.modClu_hubNext (cl : Nat) (f : Cluster → Cluster) : (s.modClu cl f).hubNext = s.hubNext := rfl
@[simp] theorem State.modClu_shoots (cl : Nat) (f : Cluster → Cluster) : (s.modClu cl f).shoots = s.shoots := rfl
@[simp] theorem State.modClu_stale (cl : Nat) (f : Cluster → Cluster) : (s.modClu cl f).stale = s.stale := rfl
@[simp] theorem State.modClu_owed (cl : Nat) (f : Cluster → Cluster) : (s.modClu cl f).owed = s.owed := rfl
@[simp] theorem State.modClu_gage (cl : Nat) (f : Cluster → Cluster) : (s.modClu cl f).gage = s.gage := rfl
@[simp] theorem State.modClu_ctxs (cl : Nat) (f : Cluster → Cluster) : (s.modClu cl f).ctxs = s.ctxs := rfl
@[simp] theorem State.modClu_objs (cl : Nat) (f : Cluster → Cluster) : (s.modClu cl f).objs = s.objs := rfl
@[simp] theorem State.modClu_oidNext (cl : Nat) (f : Cluster → Cluster) : (s.modClu cl f).oidNext = s.oidNext := rfl
@[simp] theorem State.modClu_nodes (cl : Nat) (f : Cluster → Cluster) : (s.modClu cl f).nodes = s.nodes := rfl
@[simp] theorem State.modClu_nodeNext (cl : Nat) (f : Cluster → Cluster) : (s.modClu cl f).nodeNext = s.nodeNext := rfl
@[simp] theorem State.modClu_binds (cl : Nat) (f : Cluster → Cluster) : (s.modClu cl f).binds = s.binds := rfl
@[simp] theorem State.modClu_bindLog (cl : Nat) (f : Cluster → Cluster) : (s.modClu cl f).bindLog = s.bindLog := rfl
@[simp] theorem State.modClu_scrub (cl : Nat) (f : Cluster → Cluster) : (s.modClu cl f).scrub = s.scrub := rfl
@[simp] theorem State.modClu_queues (cl : Nat) (f : Cluster → Cluster) : (s.modClu cl f).queues = s.queues := rfl
@[simp] theorem State.modClu_supRing (cl : Nat) (f : Cluster → Cluster) : (s.modClu cl f).supRing = s.supRing := rfl
@[simp] theorem State.modClu_parts (cl : Nat) (f : Cluster → Cluster) : (s.modClu cl f).parts = s.parts := rfl
@[simp] theorem State.modClu_launches (cl : Nat) (f : Cluster → Cluster) : (s.modClu cl f).launches = s.launches := rfl
@[simp] theorem State.modClu_launchNext (cl : Nat) (f : Cluster → Cluster) : (s.modClu cl f).launchNext = s.launchNext := rfl
@[simp] theorem State.modClu_ticks (cl : Nat) (f : Cluster → Cluster) : (s.modClu cl f).ticks = s.ticks := rfl
@[simp] theorem State.modClu_stops (cl : Nat) (f : Cluster → Cluster) : (s.modClu cl f).stops = s.stops := rfl
@[simp] theorem State.modClu_saves (cl : Nat) (f : Cluster → Cluster) : (s.modClu cl f).saves = s.saves := rfl
@[simp] theorem State.modClu_deferred (cl : Nat) (f : Cluster → Cluster) : (s.modClu cl f).deferred = s.deferred := rfl
@[simp] theorem State.modClu_heldMsgs (cl : Nat) (f : Cluster → Cluster) : (s.modClu cl f).heldMsgs = s.heldMsgs := rfl
@[simp] theorem State.modClu_pkts (cl : Nat) (f : Cluster → Cluster) : (s.modClu cl f).pkts = s.pkts := rfl
@[simp] theorem State.modClu_acks (cl : Nat) (f : Cluster → Cluster) : (s.modClu cl f).acks = s.acks := rfl
@[simp] theorem State.modClu_pkg (cl : Nat) (f : Cluster → Cluster) : (s.modClu cl f).pkg = s.pkg := rfl
@[simp] theorem State.modClu_pmVer (cl : Nat) (f : Cluster → Cluster) : (s.modClu cl f).pmVer = s.pmVer := rfl
@[simp] theorem State.modClu_pmTime (cl : Nat) (f : Cluster → Cluster) : (s.modClu cl f).pmTime = s.pmTime := rfl
@[simp] theorem State.modClu_units (cl : Nat) (f : Cluster → Cluster) : (s.modClu cl f).units = s.units := rfl
@[simp] theorem State.modClu_leases (cl : Nat) (f : Cluster → Cluster) : (s.modClu cl f).leases = s.leases := rfl
@[simp] theorem State.modClu_retired (cl : Nat) (f : Cluster → Cluster) : (s.modClu cl f).retired = s.retired := rfl
@[simp] theorem State.modClu_events (cl : Nat) (f : Cluster → Cluster) : (s.modClu cl f).events = s.events := rfl
@[simp] theorem State.modClu_times (cl : Nat) (f : Cluster → Cluster) : (s.modClu cl f).times = s.times := rfl
@[simp] theorem State.modClu_reserveGone (cl : Nat) (f : Cluster → Cluster) : (s.modClu cl f).reserveGone = s.reserveGone := rfl
@[simp] theorem State.modClu_grader (cl : Nat) (f : Cluster → Cluster) : (s.modClu cl f).grader = s.grader := rfl
@[simp] theorem State.modClu_worn (cl : Nat) (f : Cluster → Cluster) : (s.modClu cl f).worn = s.worn := rfl
@[simp] theorem State.modClu_hold (cl : Nat) (f : Cluster → Cluster) : (s.modClu cl f).hold = s.hold := rfl
@[simp] theorem State.modClu_journal (cl : Nat) (f : Cluster → Cluster) : (s.modClu cl f).journal = s.journal := rfl
@[simp] theorem State.modClu_ckpt (cl : Nat) (f : Cluster → Cluster) : (s.modClu cl f).ckpt = s.ckpt := rfl
@[simp] theorem State.modClu_pause (cl : Nat) (f : Cluster → Cluster) : (s.modClu cl f).pause = s.pause := rfl
@[simp] theorem State.modClu_parserFaults (cl : Nat) (f : Cluster → Cluster) : (s.modClu cl f).parserFaults = s.parserFaults := rfl
@[simp] theorem State.modClu_bankWin (cl : Nat) (f : Cluster → Cluster) : (s.modClu cl f).bankWin = s.bankWin := rfl
@[simp] theorem State.modClu_flash (cl : Nat) (f : Cluster → Cluster) : (s.modClu cl f).flash = s.flash := rfl
@[simp] theorem State.modClu_flashCtr (cl : Nat) (f : Cluster → Cluster) : (s.modClu cl f).flashCtr = s.flashCtr := rfl
@[simp] theorem State.modClu_bootCount (cl : Nat) (f : Cluster → Cluster) : (s.modClu cl f).bootCount = s.bootCount := rfl
@[simp] theorem State.modClu_bootStage (cl : Nat) (f : Cluster → Cluster) : (s.modClu cl f).bootStage = s.bootStage := rfl
@[simp] theorem State.modClu_secVer (cl : Nat) (f : Cluster → Cluster) : (s.modClu cl f).secVer = s.secVer := rfl
@[simp] theorem State.modClu_slots (cl : Nat) (f : Cluster → Cluster) : (s.modClu cl f).slots = s.slots := rfl
@[simp] theorem State.modClu_slotsClosed (cl : Nat) (f : Cluster → Cluster) : (s.modClu cl f).slotsClosed = s.slotsClosed := rfl
@[simp] theorem State.modClu_attKey (cl : Nat) (f : Cluster → Cluster) : (s.modClu cl f).attKey = s.attKey := rfl
@[simp] theorem State.modClu_restorable (cl : Nat) (f : Cluster → Cluster) : (s.modClu cl f).restorable = s.restorable := rfl
@[simp] theorem State.modClu_quotes (cl : Nat) (f : Cluster → Cluster) : (s.modClu cl f).quotes = s.quotes := rfl
@[simp] theorem State.modClu_quote (cl : Nat) (f : Cluster → Cluster) : (s.modClu cl f).quote = s.quote := rfl
@[simp] theorem State.modClu_replies (cl : Nat) (f : Cluster → Cluster) : (s.modClu cl f).replies = s.replies := rfl
@[simp] theorem State.modClu_core (cl : Nat) (f : Cluster → Cluster) (i : Nat) : (s.modClu cl f).core i = s.core i := rfl
@[simp] theorem State.modClu_thr (cl : Nat) (f : Cluster → Cluster) (i j : Nat) : (s.modClu cl f).thr i j = s.thr i j := rfl
@[simp] theorem State.modClu_die (cl : Nat) (f : Cluster → Cluster) (i : Nat) : (s.modClu cl f).die i = s.die i := rfl
@[simp] theorem State.modClu_ctx (cl : Nat) (f : Cluster → Cluster) (i : Nat) : (s.modClu cl f).ctx i = s.ctx i := rfl
@[simp] theorem State.modClu_desc (cl : Nat) (f : Cluster → Cluster) (i j : Nat) : (s.modClu cl f).desc i j = s.desc i j := rfl
@[simp] theorem State.modClu_obj (cl : Nat) (f : Cluster → Cluster) (i : Nat) : (s.modClu cl f).obj i = s.obj i := rfl
@[simp] theorem State.modClu_node (cl : Nat) (f : Cluster → Cluster) (i : Nat) : (s.modClu cl f).node i = s.node i := rfl
@[simp] theorem State.modClu_part (cl : Nat) (f : Cluster → Cluster) (i : Nat) : (s.modClu cl f).part i = s.part i := rfl
@[simp] theorem State.modClu_launch (cl : Nat) (f : Cluster → Cluster) (i : Nat) : (s.modClu cl f).launch i = s.launch i := rfl
@[simp] theorem State.modClu_queue (cl : Nat) (f : Cluster → Cluster) (i : Nat) : (s.modClu cl f).queue i = s.queue i := rfl
@[simp] theorem State.modClu_unit (cl : Nat) (f : Cluster → Cluster) (i : Nat) : (s.modClu cl f).unit i = s.unit i := rfl

/-! ### modDie -/

@[simp] theorem State.modDie_cyc (d : Nat) (f : Die → Die) : (s.modDie d f).cyc = s.cyc := rfl
@[simp] theorem State.modDie_dtimeBase (d : Nat) (f : Die → Die) : (s.modDie d f).dtimeBase = s.dtimeBase := rfl
@[simp] theorem State.modDie_agenda (d : Nat) (f : Die → Die) : (s.modDie d f).agenda = s.agenda := rfl
@[simp] theorem State.modDie_pref (d : Nat) (f : Die → Die) : (s.modDie d f).pref = s.pref := rfl
@[simp] theorem State.modDie_bad (d : Nat) (f : Die → Die) : (s.modDie d f).bad = s.bad := rfl
@[simp] theorem State.modDie_linkBad (d : Nat) (f : Die → Die) : (s.modDie d f).linkBad = s.linkBad := rfl
@[simp] theorem State.modDie_curCore (d : Nat) (f : Die → Die) : (s.modDie d f).curCore = s.curCore := rfl
@[simp] theorem State.modDie_curThr (d : Nat) (f : Die → Die) : (s.modDie d f).curThr = s.curThr := rfl
@[simp] theorem State.modDie_free (d : Nat) (f : Die → Die) : (s.modDie d f).free = s.free := rfl
@[simp] theorem State.modDie_off (d : Nat) (f : Die → Die) : (s.modDie d f).off = s.off := rfl
@[simp] theorem State.modDie_cut (d : Nat) (f : Die → Die) : (s.modDie d f).cut = s.cut := rfl
@[simp] theorem State.modDie_mem (d : Nat) (f : Die → Die) : (s.modDie d f).mem = s.mem := rfl
@[simp] theorem State.modDie_oom (d : Nat) (f : Die → Die) : (s.modDie d f).oom = s.oom := rfl
@[simp] theorem State.modDie_cores (d : Nat) (f : Die → Die) : (s.modDie d f).cores = s.cores := rfl
@[simp] theorem State.modDie_clus (d : Nat) (f : Die → Die) : (s.modDie d f).clus = s.clus := rfl
@[simp] theorem State.modDie_pressK (d : Nat) (f : Die → Die) : (s.modDie d f).pressK = s.pressK := rfl
@[simp] theorem State.modDie_msgs (d : Nat) (f : Die → Die) : (s.modDie d f).msgs = s.msgs := rfl
@[simp] theorem State.modDie_migs (d : Nat) (f : Die → Die) : (s.modDie d f).migs = s.migs := rfl
@[simp] theorem State.modDie_hmsgs (d : Nat) (f : Die → Die) : (s.modDie d f).hmsgs = s.hmsgs := rfl
@[simp] theorem State.modDie_hub (d : Nat) (f : Die → Die) : (s.modDie d f).hub = s.hub := rfl
@[simp] theorem State.modDie_hubNext (d : Nat) (f : Die → Die) : (s.modDie d f).hubNext = s.hubNext := rfl
@[simp] theorem State.modDie_shoots (d : Nat) (f : Die → Die) : (s.modDie d f).shoots = s.shoots := rfl
@[simp] theorem State.modDie_stale (d : Nat) (f : Die → Die) : (s.modDie d f).stale = s.stale := rfl
@[simp] theorem State.modDie_owed (d : Nat) (f : Die → Die) : (s.modDie d f).owed = s.owed := rfl
@[simp] theorem State.modDie_gage (d : Nat) (f : Die → Die) : (s.modDie d f).gage = s.gage := rfl
@[simp] theorem State.modDie_ctxs (d : Nat) (f : Die → Die) : (s.modDie d f).ctxs = s.ctxs := rfl
@[simp] theorem State.modDie_objs (d : Nat) (f : Die → Die) : (s.modDie d f).objs = s.objs := rfl
@[simp] theorem State.modDie_oidNext (d : Nat) (f : Die → Die) : (s.modDie d f).oidNext = s.oidNext := rfl
@[simp] theorem State.modDie_nodes (d : Nat) (f : Die → Die) : (s.modDie d f).nodes = s.nodes := rfl
@[simp] theorem State.modDie_nodeNext (d : Nat) (f : Die → Die) : (s.modDie d f).nodeNext = s.nodeNext := rfl
@[simp] theorem State.modDie_binds (d : Nat) (f : Die → Die) : (s.modDie d f).binds = s.binds := rfl
@[simp] theorem State.modDie_bindLog (d : Nat) (f : Die → Die) : (s.modDie d f).bindLog = s.bindLog := rfl
@[simp] theorem State.modDie_scrub (d : Nat) (f : Die → Die) : (s.modDie d f).scrub = s.scrub := rfl
@[simp] theorem State.modDie_queues (d : Nat) (f : Die → Die) : (s.modDie d f).queues = s.queues := rfl
@[simp] theorem State.modDie_supRing (d : Nat) (f : Die → Die) : (s.modDie d f).supRing = s.supRing := rfl
@[simp] theorem State.modDie_parts (d : Nat) (f : Die → Die) : (s.modDie d f).parts = s.parts := rfl
@[simp] theorem State.modDie_launches (d : Nat) (f : Die → Die) : (s.modDie d f).launches = s.launches := rfl
@[simp] theorem State.modDie_launchNext (d : Nat) (f : Die → Die) : (s.modDie d f).launchNext = s.launchNext := rfl
@[simp] theorem State.modDie_ticks (d : Nat) (f : Die → Die) : (s.modDie d f).ticks = s.ticks := rfl
@[simp] theorem State.modDie_stops (d : Nat) (f : Die → Die) : (s.modDie d f).stops = s.stops := rfl
@[simp] theorem State.modDie_saves (d : Nat) (f : Die → Die) : (s.modDie d f).saves = s.saves := rfl
@[simp] theorem State.modDie_deferred (d : Nat) (f : Die → Die) : (s.modDie d f).deferred = s.deferred := rfl
@[simp] theorem State.modDie_heldMsgs (d : Nat) (f : Die → Die) : (s.modDie d f).heldMsgs = s.heldMsgs := rfl
@[simp] theorem State.modDie_pkts (d : Nat) (f : Die → Die) : (s.modDie d f).pkts = s.pkts := rfl
@[simp] theorem State.modDie_acks (d : Nat) (f : Die → Die) : (s.modDie d f).acks = s.acks := rfl
@[simp] theorem State.modDie_pkg (d : Nat) (f : Die → Die) : (s.modDie d f).pkg = s.pkg := rfl
@[simp] theorem State.modDie_pmVer (d : Nat) (f : Die → Die) : (s.modDie d f).pmVer = s.pmVer := rfl
@[simp] theorem State.modDie_pmTime (d : Nat) (f : Die → Die) : (s.modDie d f).pmTime = s.pmTime := rfl
@[simp] theorem State.modDie_units (d : Nat) (f : Die → Die) : (s.modDie d f).units = s.units := rfl
@[simp] theorem State.modDie_leases (d : Nat) (f : Die → Die) : (s.modDie d f).leases = s.leases := rfl
@[simp] theorem State.modDie_retired (d : Nat) (f : Die → Die) : (s.modDie d f).retired = s.retired := rfl
@[simp] theorem State.modDie_events (d : Nat) (f : Die → Die) : (s.modDie d f).events = s.events := rfl
@[simp] theorem State.modDie_times (d : Nat) (f : Die → Die) : (s.modDie d f).times = s.times := rfl
@[simp] theorem State.modDie_reserveGone (d : Nat) (f : Die → Die) : (s.modDie d f).reserveGone = s.reserveGone := rfl
@[simp] theorem State.modDie_grader (d : Nat) (f : Die → Die) : (s.modDie d f).grader = s.grader := rfl
@[simp] theorem State.modDie_worn (d : Nat) (f : Die → Die) : (s.modDie d f).worn = s.worn := rfl
@[simp] theorem State.modDie_hold (d : Nat) (f : Die → Die) : (s.modDie d f).hold = s.hold := rfl
@[simp] theorem State.modDie_journal (d : Nat) (f : Die → Die) : (s.modDie d f).journal = s.journal := rfl
@[simp] theorem State.modDie_ckpt (d : Nat) (f : Die → Die) : (s.modDie d f).ckpt = s.ckpt := rfl
@[simp] theorem State.modDie_pause (d : Nat) (f : Die → Die) : (s.modDie d f).pause = s.pause := rfl
@[simp] theorem State.modDie_parserFaults (d : Nat) (f : Die → Die) : (s.modDie d f).parserFaults = s.parserFaults := rfl
@[simp] theorem State.modDie_bankWin (d : Nat) (f : Die → Die) : (s.modDie d f).bankWin = s.bankWin := rfl
@[simp] theorem State.modDie_flash (d : Nat) (f : Die → Die) : (s.modDie d f).flash = s.flash := rfl
@[simp] theorem State.modDie_flashCtr (d : Nat) (f : Die → Die) : (s.modDie d f).flashCtr = s.flashCtr := rfl
@[simp] theorem State.modDie_bootCount (d : Nat) (f : Die → Die) : (s.modDie d f).bootCount = s.bootCount := rfl
@[simp] theorem State.modDie_bootStage (d : Nat) (f : Die → Die) : (s.modDie d f).bootStage = s.bootStage := rfl
@[simp] theorem State.modDie_secVer (d : Nat) (f : Die → Die) : (s.modDie d f).secVer = s.secVer := rfl
@[simp] theorem State.modDie_slots (d : Nat) (f : Die → Die) : (s.modDie d f).slots = s.slots := rfl
@[simp] theorem State.modDie_slotsClosed (d : Nat) (f : Die → Die) : (s.modDie d f).slotsClosed = s.slotsClosed := rfl
@[simp] theorem State.modDie_attKey (d : Nat) (f : Die → Die) : (s.modDie d f).attKey = s.attKey := rfl
@[simp] theorem State.modDie_restorable (d : Nat) (f : Die → Die) : (s.modDie d f).restorable = s.restorable := rfl
@[simp] theorem State.modDie_quotes (d : Nat) (f : Die → Die) : (s.modDie d f).quotes = s.quotes := rfl
@[simp] theorem State.modDie_quote (d : Nat) (f : Die → Die) : (s.modDie d f).quote = s.quote := rfl
@[simp] theorem State.modDie_replies (d : Nat) (f : Die → Die) : (s.modDie d f).replies = s.replies := rfl
@[simp] theorem State.modDie_core (d : Nat) (f : Die → Die) (i : Nat) : (s.modDie d f).core i = s.core i := rfl
@[simp] theorem State.modDie_thr (d : Nat) (f : Die → Die) (i j : Nat) : (s.modDie d f).thr i j = s.thr i j := rfl
@[simp] theorem State.modDie_clu (d : Nat) (f : Die → Die) (i : Nat) : (s.modDie d f).clu i = s.clu i := rfl
@[simp] theorem State.modDie_ctx (d : Nat) (f : Die → Die) (i : Nat) : (s.modDie d f).ctx i = s.ctx i := rfl
@[simp] theorem State.modDie_desc (d : Nat) (f : Die → Die) (i j : Nat) : (s.modDie d f).desc i j = s.desc i j := rfl
@[simp] theorem State.modDie_obj (d : Nat) (f : Die → Die) (i : Nat) : (s.modDie d f).obj i = s.obj i := rfl
@[simp] theorem State.modDie_node (d : Nat) (f : Die → Die) (i : Nat) : (s.modDie d f).node i = s.node i := rfl
@[simp] theorem State.modDie_part (d : Nat) (f : Die → Die) (i : Nat) : (s.modDie d f).part i = s.part i := rfl
@[simp] theorem State.modDie_launch (d : Nat) (f : Die → Die) (i : Nat) : (s.modDie d f).launch i = s.launch i := rfl
@[simp] theorem State.modDie_queue (d : Nat) (f : Die → Die) (i : Nat) : (s.modDie d f).queue i = s.queue i := rfl
@[simp] theorem State.modDie_unit (d : Nat) (f : Die → Die) (i : Nat) : (s.modDie d f).unit i = s.unit i := rfl

/-! ### modCtx -/

@[simp] theorem State.modCtx_cyc (x : Nat) (f : Context → Context) : (s.modCtx x f).cyc = s.cyc := rfl
@[simp] theorem State.modCtx_dtimeBase (x : Nat) (f : Context → Context) : (s.modCtx x f).dtimeBase = s.dtimeBase := rfl
@[simp] theorem State.modCtx_agenda (x : Nat) (f : Context → Context) : (s.modCtx x f).agenda = s.agenda := rfl
@[simp] theorem State.modCtx_pref (x : Nat) (f : Context → Context) : (s.modCtx x f).pref = s.pref := rfl
@[simp] theorem State.modCtx_bad (x : Nat) (f : Context → Context) : (s.modCtx x f).bad = s.bad := rfl
@[simp] theorem State.modCtx_linkBad (x : Nat) (f : Context → Context) : (s.modCtx x f).linkBad = s.linkBad := rfl
@[simp] theorem State.modCtx_curCore (x : Nat) (f : Context → Context) : (s.modCtx x f).curCore = s.curCore := rfl
@[simp] theorem State.modCtx_curThr (x : Nat) (f : Context → Context) : (s.modCtx x f).curThr = s.curThr := rfl
@[simp] theorem State.modCtx_free (x : Nat) (f : Context → Context) : (s.modCtx x f).free = s.free := rfl
@[simp] theorem State.modCtx_off (x : Nat) (f : Context → Context) : (s.modCtx x f).off = s.off := rfl
@[simp] theorem State.modCtx_cut (x : Nat) (f : Context → Context) : (s.modCtx x f).cut = s.cut := rfl
@[simp] theorem State.modCtx_mem (x : Nat) (f : Context → Context) : (s.modCtx x f).mem = s.mem := rfl
@[simp] theorem State.modCtx_oom (x : Nat) (f : Context → Context) : (s.modCtx x f).oom = s.oom := rfl
@[simp] theorem State.modCtx_cores (x : Nat) (f : Context → Context) : (s.modCtx x f).cores = s.cores := rfl
@[simp] theorem State.modCtx_clus (x : Nat) (f : Context → Context) : (s.modCtx x f).clus = s.clus := rfl
@[simp] theorem State.modCtx_dies (x : Nat) (f : Context → Context) : (s.modCtx x f).dies = s.dies := rfl
@[simp] theorem State.modCtx_pressK (x : Nat) (f : Context → Context) : (s.modCtx x f).pressK = s.pressK := rfl
@[simp] theorem State.modCtx_msgs (x : Nat) (f : Context → Context) : (s.modCtx x f).msgs = s.msgs := rfl
@[simp] theorem State.modCtx_migs (x : Nat) (f : Context → Context) : (s.modCtx x f).migs = s.migs := rfl
@[simp] theorem State.modCtx_hmsgs (x : Nat) (f : Context → Context) : (s.modCtx x f).hmsgs = s.hmsgs := rfl
@[simp] theorem State.modCtx_hub (x : Nat) (f : Context → Context) : (s.modCtx x f).hub = s.hub := rfl
@[simp] theorem State.modCtx_hubNext (x : Nat) (f : Context → Context) : (s.modCtx x f).hubNext = s.hubNext := rfl
@[simp] theorem State.modCtx_shoots (x : Nat) (f : Context → Context) : (s.modCtx x f).shoots = s.shoots := rfl
@[simp] theorem State.modCtx_stale (x : Nat) (f : Context → Context) : (s.modCtx x f).stale = s.stale := rfl
@[simp] theorem State.modCtx_owed (x : Nat) (f : Context → Context) : (s.modCtx x f).owed = s.owed := rfl
@[simp] theorem State.modCtx_gage (x : Nat) (f : Context → Context) : (s.modCtx x f).gage = s.gage := rfl
@[simp] theorem State.modCtx_objs (x : Nat) (f : Context → Context) : (s.modCtx x f).objs = s.objs := rfl
@[simp] theorem State.modCtx_oidNext (x : Nat) (f : Context → Context) : (s.modCtx x f).oidNext = s.oidNext := rfl
@[simp] theorem State.modCtx_nodes (x : Nat) (f : Context → Context) : (s.modCtx x f).nodes = s.nodes := rfl
@[simp] theorem State.modCtx_nodeNext (x : Nat) (f : Context → Context) : (s.modCtx x f).nodeNext = s.nodeNext := rfl
@[simp] theorem State.modCtx_binds (x : Nat) (f : Context → Context) : (s.modCtx x f).binds = s.binds := rfl
@[simp] theorem State.modCtx_bindLog (x : Nat) (f : Context → Context) : (s.modCtx x f).bindLog = s.bindLog := rfl
@[simp] theorem State.modCtx_scrub (x : Nat) (f : Context → Context) : (s.modCtx x f).scrub = s.scrub := rfl
@[simp] theorem State.modCtx_queues (x : Nat) (f : Context → Context) : (s.modCtx x f).queues = s.queues := rfl
@[simp] theorem State.modCtx_supRing (x : Nat) (f : Context → Context) : (s.modCtx x f).supRing = s.supRing := rfl
@[simp] theorem State.modCtx_parts (x : Nat) (f : Context → Context) : (s.modCtx x f).parts = s.parts := rfl
@[simp] theorem State.modCtx_launches (x : Nat) (f : Context → Context) : (s.modCtx x f).launches = s.launches := rfl
@[simp] theorem State.modCtx_launchNext (x : Nat) (f : Context → Context) : (s.modCtx x f).launchNext = s.launchNext := rfl
@[simp] theorem State.modCtx_ticks (x : Nat) (f : Context → Context) : (s.modCtx x f).ticks = s.ticks := rfl
@[simp] theorem State.modCtx_stops (x : Nat) (f : Context → Context) : (s.modCtx x f).stops = s.stops := rfl
@[simp] theorem State.modCtx_saves (x : Nat) (f : Context → Context) : (s.modCtx x f).saves = s.saves := rfl
@[simp] theorem State.modCtx_deferred (x : Nat) (f : Context → Context) : (s.modCtx x f).deferred = s.deferred := rfl
@[simp] theorem State.modCtx_heldMsgs (x : Nat) (f : Context → Context) : (s.modCtx x f).heldMsgs = s.heldMsgs := rfl
@[simp] theorem State.modCtx_pkts (x : Nat) (f : Context → Context) : (s.modCtx x f).pkts = s.pkts := rfl
@[simp] theorem State.modCtx_acks (x : Nat) (f : Context → Context) : (s.modCtx x f).acks = s.acks := rfl
@[simp] theorem State.modCtx_pkg (x : Nat) (f : Context → Context) : (s.modCtx x f).pkg = s.pkg := rfl
@[simp] theorem State.modCtx_pmVer (x : Nat) (f : Context → Context) : (s.modCtx x f).pmVer = s.pmVer := rfl
@[simp] theorem State.modCtx_pmTime (x : Nat) (f : Context → Context) : (s.modCtx x f).pmTime = s.pmTime := rfl
@[simp] theorem State.modCtx_units (x : Nat) (f : Context → Context) : (s.modCtx x f).units = s.units := rfl
@[simp] theorem State.modCtx_leases (x : Nat) (f : Context → Context) : (s.modCtx x f).leases = s.leases := rfl
@[simp] theorem State.modCtx_retired (x : Nat) (f : Context → Context) : (s.modCtx x f).retired = s.retired := rfl
@[simp] theorem State.modCtx_events (x : Nat) (f : Context → Context) : (s.modCtx x f).events = s.events := rfl
@[simp] theorem State.modCtx_times (x : Nat) (f : Context → Context) : (s.modCtx x f).times = s.times := rfl
@[simp] theorem State.modCtx_reserveGone (x : Nat) (f : Context → Context) : (s.modCtx x f).reserveGone = s.reserveGone := rfl
@[simp] theorem State.modCtx_grader (x : Nat) (f : Context → Context) : (s.modCtx x f).grader = s.grader := rfl
@[simp] theorem State.modCtx_worn (x : Nat) (f : Context → Context) : (s.modCtx x f).worn = s.worn := rfl
@[simp] theorem State.modCtx_hold (x : Nat) (f : Context → Context) : (s.modCtx x f).hold = s.hold := rfl
@[simp] theorem State.modCtx_journal (x : Nat) (f : Context → Context) : (s.modCtx x f).journal = s.journal := rfl
@[simp] theorem State.modCtx_ckpt (x : Nat) (f : Context → Context) : (s.modCtx x f).ckpt = s.ckpt := rfl
@[simp] theorem State.modCtx_pause (x : Nat) (f : Context → Context) : (s.modCtx x f).pause = s.pause := rfl
@[simp] theorem State.modCtx_parserFaults (x : Nat) (f : Context → Context) : (s.modCtx x f).parserFaults = s.parserFaults := rfl
@[simp] theorem State.modCtx_bankWin (x : Nat) (f : Context → Context) : (s.modCtx x f).bankWin = s.bankWin := rfl
@[simp] theorem State.modCtx_flash (x : Nat) (f : Context → Context) : (s.modCtx x f).flash = s.flash := rfl
@[simp] theorem State.modCtx_flashCtr (x : Nat) (f : Context → Context) : (s.modCtx x f).flashCtr = s.flashCtr := rfl
@[simp] theorem State.modCtx_bootCount (x : Nat) (f : Context → Context) : (s.modCtx x f).bootCount = s.bootCount := rfl
@[simp] theorem State.modCtx_bootStage (x : Nat) (f : Context → Context) : (s.modCtx x f).bootStage = s.bootStage := rfl
@[simp] theorem State.modCtx_secVer (x : Nat) (f : Context → Context) : (s.modCtx x f).secVer = s.secVer := rfl
@[simp] theorem State.modCtx_slots (x : Nat) (f : Context → Context) : (s.modCtx x f).slots = s.slots := rfl
@[simp] theorem State.modCtx_slotsClosed (x : Nat) (f : Context → Context) : (s.modCtx x f).slotsClosed = s.slotsClosed := rfl
@[simp] theorem State.modCtx_attKey (x : Nat) (f : Context → Context) : (s.modCtx x f).attKey = s.attKey := rfl
@[simp] theorem State.modCtx_restorable (x : Nat) (f : Context → Context) : (s.modCtx x f).restorable = s.restorable := rfl
@[simp] theorem State.modCtx_quotes (x : Nat) (f : Context → Context) : (s.modCtx x f).quotes = s.quotes := rfl
@[simp] theorem State.modCtx_quote (x : Nat) (f : Context → Context) : (s.modCtx x f).quote = s.quote := rfl
@[simp] theorem State.modCtx_replies (x : Nat) (f : Context → Context) : (s.modCtx x f).replies = s.replies := rfl
@[simp] theorem State.modCtx_core (x : Nat) (f : Context → Context) (i : Nat) : (s.modCtx x f).core i = s.core i := rfl
@[simp] theorem State.modCtx_thr (x : Nat) (f : Context → Context) (i j : Nat) : (s.modCtx x f).thr i j = s.thr i j := rfl
@[simp] theorem State.modCtx_clu (x : Nat) (f : Context → Context) (i : Nat) : (s.modCtx x f).clu i = s.clu i := rfl
@[simp] theorem State.modCtx_die (x : Nat) (f : Context → Context) (i : Nat) : (s.modCtx x f).die i = s.die i := rfl
@[simp] theorem State.modCtx_obj (x : Nat) (f : Context → Context) (i : Nat) : (s.modCtx x f).obj i = s.obj i := rfl
@[simp] theorem State.modCtx_node (x : Nat) (f : Context → Context) (i : Nat) : (s.modCtx x f).node i = s.node i := rfl
@[simp] theorem State.modCtx_part (x : Nat) (f : Context → Context) (i : Nat) : (s.modCtx x f).part i = s.part i := rfl
@[simp] theorem State.modCtx_launch (x : Nat) (f : Context → Context) (i : Nat) : (s.modCtx x f).launch i = s.launch i := rfl
@[simp] theorem State.modCtx_queue (x : Nat) (f : Context → Context) (i : Nat) : (s.modCtx x f).queue i = s.queue i := rfl
@[simp] theorem State.modCtx_unit (x : Nat) (f : Context → Context) (i : Nat) : (s.modCtx x f).unit i = s.unit i := rfl

/-! ### setDesc -/

@[simp] theorem State.setDesc_cyc (x h : Nat) (d : Desc) : (s.setDesc x h d).cyc = s.cyc := rfl
@[simp] theorem State.setDesc_dtimeBase (x h : Nat) (d : Desc) : (s.setDesc x h d).dtimeBase = s.dtimeBase := rfl
@[simp] theorem State.setDesc_agenda (x h : Nat) (d : Desc) : (s.setDesc x h d).agenda = s.agenda := rfl
@[simp] theorem State.setDesc_pref (x h : Nat) (d : Desc) : (s.setDesc x h d).pref = s.pref := rfl
@[simp] theorem State.setDesc_bad (x h : Nat) (d : Desc) : (s.setDesc x h d).bad = s.bad := rfl
@[simp] theorem State.setDesc_linkBad (x h : Nat) (d : Desc) : (s.setDesc x h d).linkBad = s.linkBad := rfl
@[simp] theorem State.setDesc_curCore (x h : Nat) (d : Desc) : (s.setDesc x h d).curCore = s.curCore := rfl
@[simp] theorem State.setDesc_curThr (x h : Nat) (d : Desc) : (s.setDesc x h d).curThr = s.curThr := rfl
@[simp] theorem State.setDesc_free (x h : Nat) (d : Desc) : (s.setDesc x h d).free = s.free := rfl
@[simp] theorem State.setDesc_off (x h : Nat) (d : Desc) : (s.setDesc x h d).off = s.off := rfl
@[simp] theorem State.setDesc_cut (x h : Nat) (d : Desc) : (s.setDesc x h d).cut = s.cut := rfl
@[simp] theorem State.setDesc_mem (x h : Nat) (d : Desc) : (s.setDesc x h d).mem = s.mem := rfl
@[simp] theorem State.setDesc_oom (x h : Nat) (d : Desc) : (s.setDesc x h d).oom = s.oom := rfl
@[simp] theorem State.setDesc_cores (x h : Nat) (d : Desc) : (s.setDesc x h d).cores = s.cores := rfl
@[simp] theorem State.setDesc_clus (x h : Nat) (d : Desc) : (s.setDesc x h d).clus = s.clus := rfl
@[simp] theorem State.setDesc_dies (x h : Nat) (d : Desc) : (s.setDesc x h d).dies = s.dies := rfl
@[simp] theorem State.setDesc_pressK (x h : Nat) (d : Desc) : (s.setDesc x h d).pressK = s.pressK := rfl
@[simp] theorem State.setDesc_msgs (x h : Nat) (d : Desc) : (s.setDesc x h d).msgs = s.msgs := rfl
@[simp] theorem State.setDesc_migs (x h : Nat) (d : Desc) : (s.setDesc x h d).migs = s.migs := rfl
@[simp] theorem State.setDesc_hmsgs (x h : Nat) (d : Desc) : (s.setDesc x h d).hmsgs = s.hmsgs := rfl
@[simp] theorem State.setDesc_hub (x h : Nat) (d : Desc) : (s.setDesc x h d).hub = s.hub := rfl
@[simp] theorem State.setDesc_hubNext (x h : Nat) (d : Desc) : (s.setDesc x h d).hubNext = s.hubNext := rfl
@[simp] theorem State.setDesc_shoots (x h : Nat) (d : Desc) : (s.setDesc x h d).shoots = s.shoots := rfl
@[simp] theorem State.setDesc_stale (x h : Nat) (d : Desc) : (s.setDesc x h d).stale = s.stale := rfl
@[simp] theorem State.setDesc_owed (x h : Nat) (d : Desc) : (s.setDesc x h d).owed = s.owed := rfl
@[simp] theorem State.setDesc_gage (x h : Nat) (d : Desc) : (s.setDesc x h d).gage = s.gage := rfl
@[simp] theorem State.setDesc_objs (x h : Nat) (d : Desc) : (s.setDesc x h d).objs = s.objs := rfl
@[simp] theorem State.setDesc_oidNext (x h : Nat) (d : Desc) : (s.setDesc x h d).oidNext = s.oidNext := rfl
@[simp] theorem State.setDesc_nodes (x h : Nat) (d : Desc) : (s.setDesc x h d).nodes = s.nodes := rfl
@[simp] theorem State.setDesc_nodeNext (x h : Nat) (d : Desc) : (s.setDesc x h d).nodeNext = s.nodeNext := rfl
@[simp] theorem State.setDesc_binds (x h : Nat) (d : Desc) : (s.setDesc x h d).binds = s.binds := rfl
@[simp] theorem State.setDesc_bindLog (x h : Nat) (d : Desc) : (s.setDesc x h d).bindLog = s.bindLog := rfl
@[simp] theorem State.setDesc_scrub (x h : Nat) (d : Desc) : (s.setDesc x h d).scrub = s.scrub := rfl
@[simp] theorem State.setDesc_queues (x h : Nat) (d : Desc) : (s.setDesc x h d).queues = s.queues := rfl
@[simp] theorem State.setDesc_supRing (x h : Nat) (d : Desc) : (s.setDesc x h d).supRing = s.supRing := rfl
@[simp] theorem State.setDesc_parts (x h : Nat) (d : Desc) : (s.setDesc x h d).parts = s.parts := rfl
@[simp] theorem State.setDesc_launches (x h : Nat) (d : Desc) : (s.setDesc x h d).launches = s.launches := rfl
@[simp] theorem State.setDesc_launchNext (x h : Nat) (d : Desc) : (s.setDesc x h d).launchNext = s.launchNext := rfl
@[simp] theorem State.setDesc_ticks (x h : Nat) (d : Desc) : (s.setDesc x h d).ticks = s.ticks := rfl
@[simp] theorem State.setDesc_stops (x h : Nat) (d : Desc) : (s.setDesc x h d).stops = s.stops := rfl
@[simp] theorem State.setDesc_saves (x h : Nat) (d : Desc) : (s.setDesc x h d).saves = s.saves := rfl
@[simp] theorem State.setDesc_deferred (x h : Nat) (d : Desc) : (s.setDesc x h d).deferred = s.deferred := rfl
@[simp] theorem State.setDesc_heldMsgs (x h : Nat) (d : Desc) : (s.setDesc x h d).heldMsgs = s.heldMsgs := rfl
@[simp] theorem State.setDesc_pkts (x h : Nat) (d : Desc) : (s.setDesc x h d).pkts = s.pkts := rfl
@[simp] theorem State.setDesc_acks (x h : Nat) (d : Desc) : (s.setDesc x h d).acks = s.acks := rfl
@[simp] theorem State.setDesc_pkg (x h : Nat) (d : Desc) : (s.setDesc x h d).pkg = s.pkg := rfl
@[simp] theorem State.setDesc_pmVer (x h : Nat) (d : Desc) : (s.setDesc x h d).pmVer = s.pmVer := rfl
@[simp] theorem State.setDesc_pmTime (x h : Nat) (d : Desc) : (s.setDesc x h d).pmTime = s.pmTime := rfl
@[simp] theorem State.setDesc_units (x h : Nat) (d : Desc) : (s.setDesc x h d).units = s.units := rfl
@[simp] theorem State.setDesc_leases (x h : Nat) (d : Desc) : (s.setDesc x h d).leases = s.leases := rfl
@[simp] theorem State.setDesc_retired (x h : Nat) (d : Desc) : (s.setDesc x h d).retired = s.retired := rfl
@[simp] theorem State.setDesc_events (x h : Nat) (d : Desc) : (s.setDesc x h d).events = s.events := rfl
@[simp] theorem State.setDesc_times (x h : Nat) (d : Desc) : (s.setDesc x h d).times = s.times := rfl
@[simp] theorem State.setDesc_reserveGone (x h : Nat) (d : Desc) : (s.setDesc x h d).reserveGone = s.reserveGone := rfl
@[simp] theorem State.setDesc_grader (x h : Nat) (d : Desc) : (s.setDesc x h d).grader = s.grader := rfl
@[simp] theorem State.setDesc_worn (x h : Nat) (d : Desc) : (s.setDesc x h d).worn = s.worn := rfl
@[simp] theorem State.setDesc_hold (x h : Nat) (d : Desc) : (s.setDesc x h d).hold = s.hold := rfl
@[simp] theorem State.setDesc_journal (x h : Nat) (d : Desc) : (s.setDesc x h d).journal = s.journal := rfl
@[simp] theorem State.setDesc_ckpt (x h : Nat) (d : Desc) : (s.setDesc x h d).ckpt = s.ckpt := rfl
@[simp] theorem State.setDesc_pause (x h : Nat) (d : Desc) : (s.setDesc x h d).pause = s.pause := rfl
@[simp] theorem State.setDesc_parserFaults (x h : Nat) (d : Desc) : (s.setDesc x h d).parserFaults = s.parserFaults := rfl
@[simp] theorem State.setDesc_bankWin (x h : Nat) (d : Desc) : (s.setDesc x h d).bankWin = s.bankWin := rfl
@[simp] theorem State.setDesc_flash (x h : Nat) (d : Desc) : (s.setDesc x h d).flash = s.flash := rfl
@[simp] theorem State.setDesc_flashCtr (x h : Nat) (d : Desc) : (s.setDesc x h d).flashCtr = s.flashCtr := rfl
@[simp] theorem State.setDesc_bootCount (x h : Nat) (d : Desc) : (s.setDesc x h d).bootCount = s.bootCount := rfl
@[simp] theorem State.setDesc_bootStage (x h : Nat) (d : Desc) : (s.setDesc x h d).bootStage = s.bootStage := rfl
@[simp] theorem State.setDesc_secVer (x h : Nat) (d : Desc) : (s.setDesc x h d).secVer = s.secVer := rfl
@[simp] theorem State.setDesc_slots (x h : Nat) (d : Desc) : (s.setDesc x h d).slots = s.slots := rfl
@[simp] theorem State.setDesc_slotsClosed (x h : Nat) (d : Desc) : (s.setDesc x h d).slotsClosed = s.slotsClosed := rfl
@[simp] theorem State.setDesc_attKey (x h : Nat) (d : Desc) : (s.setDesc x h d).attKey = s.attKey := rfl
@[simp] theorem State.setDesc_restorable (x h : Nat) (d : Desc) : (s.setDesc x h d).restorable = s.restorable := rfl
@[simp] theorem State.setDesc_quotes (x h : Nat) (d : Desc) : (s.setDesc x h d).quotes = s.quotes := rfl
@[simp] theorem State.setDesc_quote (x h : Nat) (d : Desc) : (s.setDesc x h d).quote = s.quote := rfl
@[simp] theorem State.setDesc_replies (x h : Nat) (d : Desc) : (s.setDesc x h d).replies = s.replies := rfl
@[simp] theorem State.setDesc_core (x h : Nat) (d : Desc) (i : Nat) : (s.setDesc x h d).core i = s.core i := rfl
@[simp] theorem State.setDesc_thr (x h : Nat) (d : Desc) (i j : Nat) : (s.setDesc x h d).thr i j = s.thr i j := rfl
@[simp] theorem State.setDesc_clu (x h : Nat) (d : Desc) (i : Nat) : (s.setDesc x h d).clu i = s.clu i := rfl
@[simp] theorem State.setDesc_die (x h : Nat) (d : Desc) (i : Nat) : (s.setDesc x h d).die i = s.die i := rfl
@[simp] theorem State.setDesc_obj (x h : Nat) (d : Desc) (i : Nat) : (s.setDesc x h d).obj i = s.obj i := rfl
@[simp] theorem State.setDesc_node (x h : Nat) (d : Desc) (i : Nat) : (s.setDesc x h d).node i = s.node i := rfl
@[simp] theorem State.setDesc_part (x h : Nat) (d : Desc) (i : Nat) : (s.setDesc x h d).part i = s.part i := rfl
@[simp] theorem State.setDesc_launch (x h : Nat) (d : Desc) (i : Nat) : (s.setDesc x h d).launch i = s.launch i := rfl
@[simp] theorem State.setDesc_queue (x h : Nat) (d : Desc) (i : Nat) : (s.setDesc x h d).queue i = s.queue i := rfl
@[simp] theorem State.setDesc_unit (x h : Nat) (d : Desc) (i : Nat) : (s.setDesc x h d).unit i = s.unit i := rfl

/-! ### modObj -/

@[simp] theorem State.modObj_cyc (o : Nat) (f : Obj → Obj) : (s.modObj o f).cyc = s.cyc := rfl
@[simp] theorem State.modObj_dtimeBase (o : Nat) (f : Obj → Obj) : (s.modObj o f).dtimeBase = s.dtimeBase := rfl
@[simp] theorem State.modObj_agenda (o : Nat) (f : Obj → Obj) : (s.modObj o f).agenda = s.agenda := rfl
@[simp] theorem State.modObj_pref (o : Nat) (f : Obj → Obj) : (s.modObj o f).pref = s.pref := rfl
@[simp] theorem State.modObj_bad (o : Nat) (f : Obj → Obj) : (s.modObj o f).bad = s.bad := rfl
@[simp] theorem State.modObj_linkBad (o : Nat) (f : Obj → Obj) : (s.modObj o f).linkBad = s.linkBad := rfl
@[simp] theorem State.modObj_curCore (o : Nat) (f : Obj → Obj) : (s.modObj o f).curCore = s.curCore := rfl
@[simp] theorem State.modObj_curThr (o : Nat) (f : Obj → Obj) : (s.modObj o f).curThr = s.curThr := rfl
@[simp] theorem State.modObj_free (o : Nat) (f : Obj → Obj) : (s.modObj o f).free = s.free := rfl
@[simp] theorem State.modObj_off (o : Nat) (f : Obj → Obj) : (s.modObj o f).off = s.off := rfl
@[simp] theorem State.modObj_cut (o : Nat) (f : Obj → Obj) : (s.modObj o f).cut = s.cut := rfl
@[simp] theorem State.modObj_mem (o : Nat) (f : Obj → Obj) : (s.modObj o f).mem = s.mem := rfl
@[simp] theorem State.modObj_oom (o : Nat) (f : Obj → Obj) : (s.modObj o f).oom = s.oom := rfl
@[simp] theorem State.modObj_cores (o : Nat) (f : Obj → Obj) : (s.modObj o f).cores = s.cores := rfl
@[simp] theorem State.modObj_clus (o : Nat) (f : Obj → Obj) : (s.modObj o f).clus = s.clus := rfl
@[simp] theorem State.modObj_dies (o : Nat) (f : Obj → Obj) : (s.modObj o f).dies = s.dies := rfl
@[simp] theorem State.modObj_pressK (o : Nat) (f : Obj → Obj) : (s.modObj o f).pressK = s.pressK := rfl
@[simp] theorem State.modObj_msgs (o : Nat) (f : Obj → Obj) : (s.modObj o f).msgs = s.msgs := rfl
@[simp] theorem State.modObj_migs (o : Nat) (f : Obj → Obj) : (s.modObj o f).migs = s.migs := rfl
@[simp] theorem State.modObj_hmsgs (o : Nat) (f : Obj → Obj) : (s.modObj o f).hmsgs = s.hmsgs := rfl
@[simp] theorem State.modObj_hub (o : Nat) (f : Obj → Obj) : (s.modObj o f).hub = s.hub := rfl
@[simp] theorem State.modObj_hubNext (o : Nat) (f : Obj → Obj) : (s.modObj o f).hubNext = s.hubNext := rfl
@[simp] theorem State.modObj_shoots (o : Nat) (f : Obj → Obj) : (s.modObj o f).shoots = s.shoots := rfl
@[simp] theorem State.modObj_stale (o : Nat) (f : Obj → Obj) : (s.modObj o f).stale = s.stale := rfl
@[simp] theorem State.modObj_owed (o : Nat) (f : Obj → Obj) : (s.modObj o f).owed = s.owed := rfl
@[simp] theorem State.modObj_gage (o : Nat) (f : Obj → Obj) : (s.modObj o f).gage = s.gage := rfl
@[simp] theorem State.modObj_ctxs (o : Nat) (f : Obj → Obj) : (s.modObj o f).ctxs = s.ctxs := rfl
@[simp] theorem State.modObj_oidNext (o : Nat) (f : Obj → Obj) : (s.modObj o f).oidNext = s.oidNext := rfl
@[simp] theorem State.modObj_nodes (o : Nat) (f : Obj → Obj) : (s.modObj o f).nodes = s.nodes := rfl
@[simp] theorem State.modObj_nodeNext (o : Nat) (f : Obj → Obj) : (s.modObj o f).nodeNext = s.nodeNext := rfl
@[simp] theorem State.modObj_binds (o : Nat) (f : Obj → Obj) : (s.modObj o f).binds = s.binds := rfl
@[simp] theorem State.modObj_bindLog (o : Nat) (f : Obj → Obj) : (s.modObj o f).bindLog = s.bindLog := rfl
@[simp] theorem State.modObj_scrub (o : Nat) (f : Obj → Obj) : (s.modObj o f).scrub = s.scrub := rfl
@[simp] theorem State.modObj_queues (o : Nat) (f : Obj → Obj) : (s.modObj o f).queues = s.queues := rfl
@[simp] theorem State.modObj_supRing (o : Nat) (f : Obj → Obj) : (s.modObj o f).supRing = s.supRing := rfl
@[simp] theorem State.modObj_parts (o : Nat) (f : Obj → Obj) : (s.modObj o f).parts = s.parts := rfl
@[simp] theorem State.modObj_launches (o : Nat) (f : Obj → Obj) : (s.modObj o f).launches = s.launches := rfl
@[simp] theorem State.modObj_launchNext (o : Nat) (f : Obj → Obj) : (s.modObj o f).launchNext = s.launchNext := rfl
@[simp] theorem State.modObj_ticks (o : Nat) (f : Obj → Obj) : (s.modObj o f).ticks = s.ticks := rfl
@[simp] theorem State.modObj_stops (o : Nat) (f : Obj → Obj) : (s.modObj o f).stops = s.stops := rfl
@[simp] theorem State.modObj_saves (o : Nat) (f : Obj → Obj) : (s.modObj o f).saves = s.saves := rfl
@[simp] theorem State.modObj_deferred (o : Nat) (f : Obj → Obj) : (s.modObj o f).deferred = s.deferred := rfl
@[simp] theorem State.modObj_heldMsgs (o : Nat) (f : Obj → Obj) : (s.modObj o f).heldMsgs = s.heldMsgs := rfl
@[simp] theorem State.modObj_pkts (o : Nat) (f : Obj → Obj) : (s.modObj o f).pkts = s.pkts := rfl
@[simp] theorem State.modObj_acks (o : Nat) (f : Obj → Obj) : (s.modObj o f).acks = s.acks := rfl
@[simp] theorem State.modObj_pkg (o : Nat) (f : Obj → Obj) : (s.modObj o f).pkg = s.pkg := rfl
@[simp] theorem State.modObj_pmVer (o : Nat) (f : Obj → Obj) : (s.modObj o f).pmVer = s.pmVer := rfl
@[simp] theorem State.modObj_pmTime (o : Nat) (f : Obj → Obj) : (s.modObj o f).pmTime = s.pmTime := rfl
@[simp] theorem State.modObj_units (o : Nat) (f : Obj → Obj) : (s.modObj o f).units = s.units := rfl
@[simp] theorem State.modObj_leases (o : Nat) (f : Obj → Obj) : (s.modObj o f).leases = s.leases := rfl
@[simp] theorem State.modObj_retired (o : Nat) (f : Obj → Obj) : (s.modObj o f).retired = s.retired := rfl
@[simp] theorem State.modObj_events (o : Nat) (f : Obj → Obj) : (s.modObj o f).events = s.events := rfl
@[simp] theorem State.modObj_times (o : Nat) (f : Obj → Obj) : (s.modObj o f).times = s.times := rfl
@[simp] theorem State.modObj_reserveGone (o : Nat) (f : Obj → Obj) : (s.modObj o f).reserveGone = s.reserveGone := rfl
@[simp] theorem State.modObj_grader (o : Nat) (f : Obj → Obj) : (s.modObj o f).grader = s.grader := rfl
@[simp] theorem State.modObj_worn (o : Nat) (f : Obj → Obj) : (s.modObj o f).worn = s.worn := rfl
@[simp] theorem State.modObj_hold (o : Nat) (f : Obj → Obj) : (s.modObj o f).hold = s.hold := rfl
@[simp] theorem State.modObj_journal (o : Nat) (f : Obj → Obj) : (s.modObj o f).journal = s.journal := rfl
@[simp] theorem State.modObj_ckpt (o : Nat) (f : Obj → Obj) : (s.modObj o f).ckpt = s.ckpt := rfl
@[simp] theorem State.modObj_pause (o : Nat) (f : Obj → Obj) : (s.modObj o f).pause = s.pause := rfl
@[simp] theorem State.modObj_parserFaults (o : Nat) (f : Obj → Obj) : (s.modObj o f).parserFaults = s.parserFaults := rfl
@[simp] theorem State.modObj_bankWin (o : Nat) (f : Obj → Obj) : (s.modObj o f).bankWin = s.bankWin := rfl
@[simp] theorem State.modObj_flash (o : Nat) (f : Obj → Obj) : (s.modObj o f).flash = s.flash := rfl
@[simp] theorem State.modObj_flashCtr (o : Nat) (f : Obj → Obj) : (s.modObj o f).flashCtr = s.flashCtr := rfl
@[simp] theorem State.modObj_bootCount (o : Nat) (f : Obj → Obj) : (s.modObj o f).bootCount = s.bootCount := rfl
@[simp] theorem State.modObj_bootStage (o : Nat) (f : Obj → Obj) : (s.modObj o f).bootStage = s.bootStage := rfl
@[simp] theorem State.modObj_secVer (o : Nat) (f : Obj → Obj) : (s.modObj o f).secVer = s.secVer := rfl
@[simp] theorem State.modObj_slots (o : Nat) (f : Obj → Obj) : (s.modObj o f).slots = s.slots := rfl
@[simp] theorem State.modObj_slotsClosed (o : Nat) (f : Obj → Obj) : (s.modObj o f).slotsClosed = s.slotsClosed := rfl
@[simp] theorem State.modObj_attKey (o : Nat) (f : Obj → Obj) : (s.modObj o f).attKey = s.attKey := rfl
@[simp] theorem State.modObj_restorable (o : Nat) (f : Obj → Obj) : (s.modObj o f).restorable = s.restorable := rfl
@[simp] theorem State.modObj_quotes (o : Nat) (f : Obj → Obj) : (s.modObj o f).quotes = s.quotes := rfl
@[simp] theorem State.modObj_quote (o : Nat) (f : Obj → Obj) : (s.modObj o f).quote = s.quote := rfl
@[simp] theorem State.modObj_replies (o : Nat) (f : Obj → Obj) : (s.modObj o f).replies = s.replies := rfl
@[simp] theorem State.modObj_core (o : Nat) (f : Obj → Obj) (i : Nat) : (s.modObj o f).core i = s.core i := rfl
@[simp] theorem State.modObj_thr (o : Nat) (f : Obj → Obj) (i j : Nat) : (s.modObj o f).thr i j = s.thr i j := rfl
@[simp] theorem State.modObj_clu (o : Nat) (f : Obj → Obj) (i : Nat) : (s.modObj o f).clu i = s.clu i := rfl
@[simp] theorem State.modObj_die (o : Nat) (f : Obj → Obj) (i : Nat) : (s.modObj o f).die i = s.die i := rfl
@[simp] theorem State.modObj_ctx (o : Nat) (f : Obj → Obj) (i : Nat) : (s.modObj o f).ctx i = s.ctx i := rfl
@[simp] theorem State.modObj_desc (o : Nat) (f : Obj → Obj) (i j : Nat) : (s.modObj o f).desc i j = s.desc i j := rfl
@[simp] theorem State.modObj_node (o : Nat) (f : Obj → Obj) (i : Nat) : (s.modObj o f).node i = s.node i := rfl
@[simp] theorem State.modObj_part (o : Nat) (f : Obj → Obj) (i : Nat) : (s.modObj o f).part i = s.part i := rfl
@[simp] theorem State.modObj_launch (o : Nat) (f : Obj → Obj) (i : Nat) : (s.modObj o f).launch i = s.launch i := rfl
@[simp] theorem State.modObj_queue (o : Nat) (f : Obj → Obj) (i : Nat) : (s.modObj o f).queue i = s.queue i := rfl
@[simp] theorem State.modObj_unit (o : Nat) (f : Obj → Obj) (i : Nat) : (s.modObj o f).unit i = s.unit i := rfl

/-! ### modNode -/

@[simp] theorem State.modNode_cyc (n : Nat) (f : Node → Node) : (s.modNode n f).cyc = s.cyc := rfl
@[simp] theorem State.modNode_dtimeBase (n : Nat) (f : Node → Node) : (s.modNode n f).dtimeBase = s.dtimeBase := rfl
@[simp] theorem State.modNode_agenda (n : Nat) (f : Node → Node) : (s.modNode n f).agenda = s.agenda := rfl
@[simp] theorem State.modNode_pref (n : Nat) (f : Node → Node) : (s.modNode n f).pref = s.pref := rfl
@[simp] theorem State.modNode_bad (n : Nat) (f : Node → Node) : (s.modNode n f).bad = s.bad := rfl
@[simp] theorem State.modNode_linkBad (n : Nat) (f : Node → Node) : (s.modNode n f).linkBad = s.linkBad := rfl
@[simp] theorem State.modNode_curCore (n : Nat) (f : Node → Node) : (s.modNode n f).curCore = s.curCore := rfl
@[simp] theorem State.modNode_curThr (n : Nat) (f : Node → Node) : (s.modNode n f).curThr = s.curThr := rfl
@[simp] theorem State.modNode_free (n : Nat) (f : Node → Node) : (s.modNode n f).free = s.free := rfl
@[simp] theorem State.modNode_off (n : Nat) (f : Node → Node) : (s.modNode n f).off = s.off := rfl
@[simp] theorem State.modNode_cut (n : Nat) (f : Node → Node) : (s.modNode n f).cut = s.cut := rfl
@[simp] theorem State.modNode_mem (n : Nat) (f : Node → Node) : (s.modNode n f).mem = s.mem := rfl
@[simp] theorem State.modNode_oom (n : Nat) (f : Node → Node) : (s.modNode n f).oom = s.oom := rfl
@[simp] theorem State.modNode_cores (n : Nat) (f : Node → Node) : (s.modNode n f).cores = s.cores := rfl
@[simp] theorem State.modNode_clus (n : Nat) (f : Node → Node) : (s.modNode n f).clus = s.clus := rfl
@[simp] theorem State.modNode_dies (n : Nat) (f : Node → Node) : (s.modNode n f).dies = s.dies := rfl
@[simp] theorem State.modNode_pressK (n : Nat) (f : Node → Node) : (s.modNode n f).pressK = s.pressK := rfl
@[simp] theorem State.modNode_msgs (n : Nat) (f : Node → Node) : (s.modNode n f).msgs = s.msgs := rfl
@[simp] theorem State.modNode_migs (n : Nat) (f : Node → Node) : (s.modNode n f).migs = s.migs := rfl
@[simp] theorem State.modNode_hmsgs (n : Nat) (f : Node → Node) : (s.modNode n f).hmsgs = s.hmsgs := rfl
@[simp] theorem State.modNode_hub (n : Nat) (f : Node → Node) : (s.modNode n f).hub = s.hub := rfl
@[simp] theorem State.modNode_hubNext (n : Nat) (f : Node → Node) : (s.modNode n f).hubNext = s.hubNext := rfl
@[simp] theorem State.modNode_shoots (n : Nat) (f : Node → Node) : (s.modNode n f).shoots = s.shoots := rfl
@[simp] theorem State.modNode_stale (n : Nat) (f : Node → Node) : (s.modNode n f).stale = s.stale := rfl
@[simp] theorem State.modNode_owed (n : Nat) (f : Node → Node) : (s.modNode n f).owed = s.owed := rfl
@[simp] theorem State.modNode_gage (n : Nat) (f : Node → Node) : (s.modNode n f).gage = s.gage := rfl
@[simp] theorem State.modNode_ctxs (n : Nat) (f : Node → Node) : (s.modNode n f).ctxs = s.ctxs := rfl
@[simp] theorem State.modNode_objs (n : Nat) (f : Node → Node) : (s.modNode n f).objs = s.objs := rfl
@[simp] theorem State.modNode_oidNext (n : Nat) (f : Node → Node) : (s.modNode n f).oidNext = s.oidNext := rfl
@[simp] theorem State.modNode_nodeNext (n : Nat) (f : Node → Node) : (s.modNode n f).nodeNext = s.nodeNext := rfl
@[simp] theorem State.modNode_binds (n : Nat) (f : Node → Node) : (s.modNode n f).binds = s.binds := rfl
@[simp] theorem State.modNode_bindLog (n : Nat) (f : Node → Node) : (s.modNode n f).bindLog = s.bindLog := rfl
@[simp] theorem State.modNode_scrub (n : Nat) (f : Node → Node) : (s.modNode n f).scrub = s.scrub := rfl
@[simp] theorem State.modNode_queues (n : Nat) (f : Node → Node) : (s.modNode n f).queues = s.queues := rfl
@[simp] theorem State.modNode_supRing (n : Nat) (f : Node → Node) : (s.modNode n f).supRing = s.supRing := rfl
@[simp] theorem State.modNode_parts (n : Nat) (f : Node → Node) : (s.modNode n f).parts = s.parts := rfl
@[simp] theorem State.modNode_launches (n : Nat) (f : Node → Node) : (s.modNode n f).launches = s.launches := rfl
@[simp] theorem State.modNode_launchNext (n : Nat) (f : Node → Node) : (s.modNode n f).launchNext = s.launchNext := rfl
@[simp] theorem State.modNode_ticks (n : Nat) (f : Node → Node) : (s.modNode n f).ticks = s.ticks := rfl
@[simp] theorem State.modNode_stops (n : Nat) (f : Node → Node) : (s.modNode n f).stops = s.stops := rfl
@[simp] theorem State.modNode_saves (n : Nat) (f : Node → Node) : (s.modNode n f).saves = s.saves := rfl
@[simp] theorem State.modNode_deferred (n : Nat) (f : Node → Node) : (s.modNode n f).deferred = s.deferred := rfl
@[simp] theorem State.modNode_heldMsgs (n : Nat) (f : Node → Node) : (s.modNode n f).heldMsgs = s.heldMsgs := rfl
@[simp] theorem State.modNode_pkts (n : Nat) (f : Node → Node) : (s.modNode n f).pkts = s.pkts := rfl
@[simp] theorem State.modNode_acks (n : Nat) (f : Node → Node) : (s.modNode n f).acks = s.acks := rfl
@[simp] theorem State.modNode_pkg (n : Nat) (f : Node → Node) : (s.modNode n f).pkg = s.pkg := rfl
@[simp] theorem State.modNode_pmVer (n : Nat) (f : Node → Node) : (s.modNode n f).pmVer = s.pmVer := rfl
@[simp] theorem State.modNode_pmTime (n : Nat) (f : Node → Node) : (s.modNode n f).pmTime = s.pmTime := rfl
@[simp] theorem State.modNode_units (n : Nat) (f : Node → Node) : (s.modNode n f).units = s.units := rfl
@[simp] theorem State.modNode_leases (n : Nat) (f : Node → Node) : (s.modNode n f).leases = s.leases := rfl
@[simp] theorem State.modNode_retired (n : Nat) (f : Node → Node) : (s.modNode n f).retired = s.retired := rfl
@[simp] theorem State.modNode_events (n : Nat) (f : Node → Node) : (s.modNode n f).events = s.events := rfl
@[simp] theorem State.modNode_times (n : Nat) (f : Node → Node) : (s.modNode n f).times = s.times := rfl
@[simp] theorem State.modNode_reserveGone (n : Nat) (f : Node → Node) : (s.modNode n f).reserveGone = s.reserveGone := rfl
@[simp] theorem State.modNode_grader (n : Nat) (f : Node → Node) : (s.modNode n f).grader = s.grader := rfl
@[simp] theorem State.modNode_worn (n : Nat) (f : Node → Node) : (s.modNode n f).worn = s.worn := rfl
@[simp] theorem State.modNode_hold (n : Nat) (f : Node → Node) : (s.modNode n f).hold = s.hold := rfl
@[simp] theorem State.modNode_journal (n : Nat) (f : Node → Node) : (s.modNode n f).journal = s.journal := rfl
@[simp] theorem State.modNode_ckpt (n : Nat) (f : Node → Node) : (s.modNode n f).ckpt = s.ckpt := rfl
@[simp] theorem State.modNode_pause (n : Nat) (f : Node → Node) : (s.modNode n f).pause = s.pause := rfl
@[simp] theorem State.modNode_parserFaults (n : Nat) (f : Node → Node) : (s.modNode n f).parserFaults = s.parserFaults := rfl
@[simp] theorem State.modNode_bankWin (n : Nat) (f : Node → Node) : (s.modNode n f).bankWin = s.bankWin := rfl
@[simp] theorem State.modNode_flash (n : Nat) (f : Node → Node) : (s.modNode n f).flash = s.flash := rfl
@[simp] theorem State.modNode_flashCtr (n : Nat) (f : Node → Node) : (s.modNode n f).flashCtr = s.flashCtr := rfl
@[simp] theorem State.modNode_bootCount (n : Nat) (f : Node → Node) : (s.modNode n f).bootCount = s.bootCount := rfl
@[simp] theorem State.modNode_bootStage (n : Nat) (f : Node → Node) : (s.modNode n f).bootStage = s.bootStage := rfl
@[simp] theorem State.modNode_secVer (n : Nat) (f : Node → Node) : (s.modNode n f).secVer = s.secVer := rfl
@[simp] theorem State.modNode_slots (n : Nat) (f : Node → Node) : (s.modNode n f).slots = s.slots := rfl
@[simp] theorem State.modNode_slotsClosed (n : Nat) (f : Node → Node) : (s.modNode n f).slotsClosed = s.slotsClosed := rfl
@[simp] theorem State.modNode_attKey (n : Nat) (f : Node → Node) : (s.modNode n f).attKey = s.attKey := rfl
@[simp] theorem State.modNode_restorable (n : Nat) (f : Node → Node) : (s.modNode n f).restorable = s.restorable := rfl
@[simp] theorem State.modNode_quotes (n : Nat) (f : Node → Node) : (s.modNode n f).quotes = s.quotes := rfl
@[simp] theorem State.modNode_quote (n : Nat) (f : Node → Node) : (s.modNode n f).quote = s.quote := rfl
@[simp] theorem State.modNode_replies (n : Nat) (f : Node → Node) : (s.modNode n f).replies = s.replies := rfl
@[simp] theorem State.modNode_core (n : Nat) (f : Node → Node) (i : Nat) : (s.modNode n f).core i = s.core i := rfl
@[simp] theorem State.modNode_thr (n : Nat) (f : Node → Node) (i j : Nat) : (s.modNode n f).thr i j = s.thr i j := rfl
@[simp] theorem State.modNode_clu (n : Nat) (f : Node → Node) (i : Nat) : (s.modNode n f).clu i = s.clu i := rfl
@[simp] theorem State.modNode_die (n : Nat) (f : Node → Node) (i : Nat) : (s.modNode n f).die i = s.die i := rfl
@[simp] theorem State.modNode_ctx (n : Nat) (f : Node → Node) (i : Nat) : (s.modNode n f).ctx i = s.ctx i := rfl
@[simp] theorem State.modNode_desc (n : Nat) (f : Node → Node) (i j : Nat) : (s.modNode n f).desc i j = s.desc i j := rfl
@[simp] theorem State.modNode_obj (n : Nat) (f : Node → Node) (i : Nat) : (s.modNode n f).obj i = s.obj i := rfl
@[simp] theorem State.modNode_part (n : Nat) (f : Node → Node) (i : Nat) : (s.modNode n f).part i = s.part i := rfl
@[simp] theorem State.modNode_launch (n : Nat) (f : Node → Node) (i : Nat) : (s.modNode n f).launch i = s.launch i := rfl
@[simp] theorem State.modNode_queue (n : Nat) (f : Node → Node) (i : Nat) : (s.modNode n f).queue i = s.queue i := rfl
@[simp] theorem State.modNode_unit (n : Nat) (f : Node → Node) (i : Nat) : (s.modNode n f).unit i = s.unit i := rfl

/-! ### modPart -/

@[simp] theorem State.modPart_cyc (tag : Nat) (f : Part_ → Part_) : (s.modPart tag f).cyc = s.cyc := rfl
@[simp] theorem State.modPart_dtimeBase (tag : Nat) (f : Part_ → Part_) : (s.modPart tag f).dtimeBase = s.dtimeBase := rfl
@[simp] theorem State.modPart_agenda (tag : Nat) (f : Part_ → Part_) : (s.modPart tag f).agenda = s.agenda := rfl
@[simp] theorem State.modPart_pref (tag : Nat) (f : Part_ → Part_) : (s.modPart tag f).pref = s.pref := rfl
@[simp] theorem State.modPart_bad (tag : Nat) (f : Part_ → Part_) : (s.modPart tag f).bad = s.bad := rfl
@[simp] theorem State.modPart_linkBad (tag : Nat) (f : Part_ → Part_) : (s.modPart tag f).linkBad = s.linkBad := rfl
@[simp] theorem State.modPart_curCore (tag : Nat) (f : Part_ → Part_) : (s.modPart tag f).curCore = s.curCore := rfl
@[simp] theorem State.modPart_curThr (tag : Nat) (f : Part_ → Part_) : (s.modPart tag f).curThr = s.curThr := rfl
@[simp] theorem State.modPart_free (tag : Nat) (f : Part_ → Part_) : (s.modPart tag f).free = s.free := rfl
@[simp] theorem State.modPart_off (tag : Nat) (f : Part_ → Part_) : (s.modPart tag f).off = s.off := rfl
@[simp] theorem State.modPart_cut (tag : Nat) (f : Part_ → Part_) : (s.modPart tag f).cut = s.cut := rfl
@[simp] theorem State.modPart_mem (tag : Nat) (f : Part_ → Part_) : (s.modPart tag f).mem = s.mem := rfl
@[simp] theorem State.modPart_oom (tag : Nat) (f : Part_ → Part_) : (s.modPart tag f).oom = s.oom := rfl
@[simp] theorem State.modPart_cores (tag : Nat) (f : Part_ → Part_) : (s.modPart tag f).cores = s.cores := rfl
@[simp] theorem State.modPart_clus (tag : Nat) (f : Part_ → Part_) : (s.modPart tag f).clus = s.clus := rfl
@[simp] theorem State.modPart_dies (tag : Nat) (f : Part_ → Part_) : (s.modPart tag f).dies = s.dies := rfl
@[simp] theorem State.modPart_pressK (tag : Nat) (f : Part_ → Part_) : (s.modPart tag f).pressK = s.pressK := rfl
@[simp] theorem State.modPart_msgs (tag : Nat) (f : Part_ → Part_) : (s.modPart tag f).msgs = s.msgs := rfl
@[simp] theorem State.modPart_migs (tag : Nat) (f : Part_ → Part_) : (s.modPart tag f).migs = s.migs := rfl
@[simp] theorem State.modPart_hmsgs (tag : Nat) (f : Part_ → Part_) : (s.modPart tag f).hmsgs = s.hmsgs := rfl
@[simp] theorem State.modPart_hub (tag : Nat) (f : Part_ → Part_) : (s.modPart tag f).hub = s.hub := rfl
@[simp] theorem State.modPart_hubNext (tag : Nat) (f : Part_ → Part_) : (s.modPart tag f).hubNext = s.hubNext := rfl
@[simp] theorem State.modPart_shoots (tag : Nat) (f : Part_ → Part_) : (s.modPart tag f).shoots = s.shoots := rfl
@[simp] theorem State.modPart_stale (tag : Nat) (f : Part_ → Part_) : (s.modPart tag f).stale = s.stale := rfl
@[simp] theorem State.modPart_owed (tag : Nat) (f : Part_ → Part_) : (s.modPart tag f).owed = s.owed := rfl
@[simp] theorem State.modPart_gage (tag : Nat) (f : Part_ → Part_) : (s.modPart tag f).gage = s.gage := rfl
@[simp] theorem State.modPart_ctxs (tag : Nat) (f : Part_ → Part_) : (s.modPart tag f).ctxs = s.ctxs := rfl
@[simp] theorem State.modPart_objs (tag : Nat) (f : Part_ → Part_) : (s.modPart tag f).objs = s.objs := rfl
@[simp] theorem State.modPart_oidNext (tag : Nat) (f : Part_ → Part_) : (s.modPart tag f).oidNext = s.oidNext := rfl
@[simp] theorem State.modPart_nodes (tag : Nat) (f : Part_ → Part_) : (s.modPart tag f).nodes = s.nodes := rfl
@[simp] theorem State.modPart_nodeNext (tag : Nat) (f : Part_ → Part_) : (s.modPart tag f).nodeNext = s.nodeNext := rfl
@[simp] theorem State.modPart_binds (tag : Nat) (f : Part_ → Part_) : (s.modPart tag f).binds = s.binds := rfl
@[simp] theorem State.modPart_bindLog (tag : Nat) (f : Part_ → Part_) : (s.modPart tag f).bindLog = s.bindLog := rfl
@[simp] theorem State.modPart_scrub (tag : Nat) (f : Part_ → Part_) : (s.modPart tag f).scrub = s.scrub := rfl
@[simp] theorem State.modPart_queues (tag : Nat) (f : Part_ → Part_) : (s.modPart tag f).queues = s.queues := rfl
@[simp] theorem State.modPart_supRing (tag : Nat) (f : Part_ → Part_) : (s.modPart tag f).supRing = s.supRing := rfl
@[simp] theorem State.modPart_launches (tag : Nat) (f : Part_ → Part_) : (s.modPart tag f).launches = s.launches := rfl
@[simp] theorem State.modPart_launchNext (tag : Nat) (f : Part_ → Part_) : (s.modPart tag f).launchNext = s.launchNext := rfl
@[simp] theorem State.modPart_ticks (tag : Nat) (f : Part_ → Part_) : (s.modPart tag f).ticks = s.ticks := rfl
@[simp] theorem State.modPart_stops (tag : Nat) (f : Part_ → Part_) : (s.modPart tag f).stops = s.stops := rfl
@[simp] theorem State.modPart_saves (tag : Nat) (f : Part_ → Part_) : (s.modPart tag f).saves = s.saves := rfl
@[simp] theorem State.modPart_deferred (tag : Nat) (f : Part_ → Part_) : (s.modPart tag f).deferred = s.deferred := rfl
@[simp] theorem State.modPart_heldMsgs (tag : Nat) (f : Part_ → Part_) : (s.modPart tag f).heldMsgs = s.heldMsgs := rfl
@[simp] theorem State.modPart_pkts (tag : Nat) (f : Part_ → Part_) : (s.modPart tag f).pkts = s.pkts := rfl
@[simp] theorem State.modPart_acks (tag : Nat) (f : Part_ → Part_) : (s.modPart tag f).acks = s.acks := rfl
@[simp] theorem State.modPart_pkg (tag : Nat) (f : Part_ → Part_) : (s.modPart tag f).pkg = s.pkg := rfl
@[simp] theorem State.modPart_pmVer (tag : Nat) (f : Part_ → Part_) : (s.modPart tag f).pmVer = s.pmVer := rfl
@[simp] theorem State.modPart_pmTime (tag : Nat) (f : Part_ → Part_) : (s.modPart tag f).pmTime = s.pmTime := rfl
@[simp] theorem State.modPart_units (tag : Nat) (f : Part_ → Part_) : (s.modPart tag f).units = s.units := rfl
@[simp] theorem State.modPart_leases (tag : Nat) (f : Part_ → Part_) : (s.modPart tag f).leases = s.leases := rfl
@[simp] theorem State.modPart_retired (tag : Nat) (f : Part_ → Part_) : (s.modPart tag f).retired = s.retired := rfl
@[simp] theorem State.modPart_events (tag : Nat) (f : Part_ → Part_) : (s.modPart tag f).events = s.events := rfl
@[simp] theorem State.modPart_times (tag : Nat) (f : Part_ → Part_) : (s.modPart tag f).times = s.times := rfl
@[simp] theorem State.modPart_reserveGone (tag : Nat) (f : Part_ → Part_) : (s.modPart tag f).reserveGone = s.reserveGone := rfl
@[simp] theorem State.modPart_grader (tag : Nat) (f : Part_ → Part_) : (s.modPart tag f).grader = s.grader := rfl
@[simp] theorem State.modPart_worn (tag : Nat) (f : Part_ → Part_) : (s.modPart tag f).worn = s.worn := rfl
@[simp] theorem State.modPart_hold (tag : Nat) (f : Part_ → Part_) : (s.modPart tag f).hold = s.hold := rfl
@[simp] theorem State.modPart_journal (tag : Nat) (f : Part_ → Part_) : (s.modPart tag f).journal = s.journal := rfl
@[simp] theorem State.modPart_ckpt (tag : Nat) (f : Part_ → Part_) : (s.modPart tag f).ckpt = s.ckpt := rfl
@[simp] theorem State.modPart_pause (tag : Nat) (f : Part_ → Part_) : (s.modPart tag f).pause = s.pause := rfl
@[simp] theorem State.modPart_parserFaults (tag : Nat) (f : Part_ → Part_) : (s.modPart tag f).parserFaults = s.parserFaults := rfl
@[simp] theorem State.modPart_bankWin (tag : Nat) (f : Part_ → Part_) : (s.modPart tag f).bankWin = s.bankWin := rfl
@[simp] theorem State.modPart_flash (tag : Nat) (f : Part_ → Part_) : (s.modPart tag f).flash = s.flash := rfl
@[simp] theorem State.modPart_flashCtr (tag : Nat) (f : Part_ → Part_) : (s.modPart tag f).flashCtr = s.flashCtr := rfl
@[simp] theorem State.modPart_bootCount (tag : Nat) (f : Part_ → Part_) : (s.modPart tag f).bootCount = s.bootCount := rfl
@[simp] theorem State.modPart_bootStage (tag : Nat) (f : Part_ → Part_) : (s.modPart tag f).bootStage = s.bootStage := rfl
@[simp] theorem State.modPart_secVer (tag : Nat) (f : Part_ → Part_) : (s.modPart tag f).secVer = s.secVer := rfl
@[simp] theorem State.modPart_slots (tag : Nat) (f : Part_ → Part_) : (s.modPart tag f).slots = s.slots := rfl
@[simp] theorem State.modPart_slotsClosed (tag : Nat) (f : Part_ → Part_) : (s.modPart tag f).slotsClosed = s.slotsClosed := rfl
@[simp] theorem State.modPart_attKey (tag : Nat) (f : Part_ → Part_) : (s.modPart tag f).attKey = s.attKey := rfl
@[simp] theorem State.modPart_restorable (tag : Nat) (f : Part_ → Part_) : (s.modPart tag f).restorable = s.restorable := rfl
@[simp] theorem State.modPart_quotes (tag : Nat) (f : Part_ → Part_) : (s.modPart tag f).quotes = s.quotes := rfl
@[simp] theorem State.modPart_quote (tag : Nat) (f : Part_ → Part_) : (s.modPart tag f).quote = s.quote := rfl
@[simp] theorem State.modPart_replies (tag : Nat) (f : Part_ → Part_) : (s.modPart tag f).replies = s.replies := rfl
@[simp] theorem State.modPart_core (tag : Nat) (f : Part_ → Part_) (i : Nat) : (s.modPart tag f).core i = s.core i := rfl
@[simp] theorem State.modPart_thr (tag : Nat) (f : Part_ → Part_) (i j : Nat) : (s.modPart tag f).thr i j = s.thr i j := rfl
@[simp] theorem State.modPart_clu (tag : Nat) (f : Part_ → Part_) (i : Nat) : (s.modPart tag f).clu i = s.clu i := rfl
@[simp] theorem State.modPart_die (tag : Nat) (f : Part_ → Part_) (i : Nat) : (s.modPart tag f).die i = s.die i := rfl
@[simp] theorem State.modPart_ctx (tag : Nat) (f : Part_ → Part_) (i : Nat) : (s.modPart tag f).ctx i = s.ctx i := rfl
@[simp] theorem State.modPart_desc (tag : Nat) (f : Part_ → Part_) (i j : Nat) : (s.modPart tag f).desc i j = s.desc i j := rfl
@[simp] theorem State.modPart_obj (tag : Nat) (f : Part_ → Part_) (i : Nat) : (s.modPart tag f).obj i = s.obj i := rfl
@[simp] theorem State.modPart_node (tag : Nat) (f : Part_ → Part_) (i : Nat) : (s.modPart tag f).node i = s.node i := rfl
@[simp] theorem State.modPart_launch (tag : Nat) (f : Part_ → Part_) (i : Nat) : (s.modPart tag f).launch i = s.launch i := rfl
@[simp] theorem State.modPart_queue (tag : Nat) (f : Part_ → Part_) (i : Nat) : (s.modPart tag f).queue i = s.queue i := rfl
@[simp] theorem State.modPart_unit (tag : Nat) (f : Part_ → Part_) (i : Nat) : (s.modPart tag f).unit i = s.unit i := rfl

/-! ### modLaunch -/

@[simp] theorem State.modLaunch_cyc (l : Nat) (f : Launch → Launch) : (s.modLaunch l f).cyc = s.cyc := rfl
@[simp] theorem State.modLaunch_dtimeBase (l : Nat) (f : Launch → Launch) : (s.modLaunch l f).dtimeBase = s.dtimeBase := rfl
@[simp] theorem State.modLaunch_agenda (l : Nat) (f : Launch → Launch) : (s.modLaunch l f).agenda = s.agenda := rfl
@[simp] theorem State.modLaunch_pref (l : Nat) (f : Launch → Launch) : (s.modLaunch l f).pref = s.pref := rfl
@[simp] theorem State.modLaunch_bad (l : Nat) (f : Launch → Launch) : (s.modLaunch l f).bad = s.bad := rfl
@[simp] theorem State.modLaunch_linkBad (l : Nat) (f : Launch → Launch) : (s.modLaunch l f).linkBad = s.linkBad := rfl
@[simp] theorem State.modLaunch_curCore (l : Nat) (f : Launch → Launch) : (s.modLaunch l f).curCore = s.curCore := rfl
@[simp] theorem State.modLaunch_curThr (l : Nat) (f : Launch → Launch) : (s.modLaunch l f).curThr = s.curThr := rfl
@[simp] theorem State.modLaunch_free (l : Nat) (f : Launch → Launch) : (s.modLaunch l f).free = s.free := rfl
@[simp] theorem State.modLaunch_off (l : Nat) (f : Launch → Launch) : (s.modLaunch l f).off = s.off := rfl
@[simp] theorem State.modLaunch_cut (l : Nat) (f : Launch → Launch) : (s.modLaunch l f).cut = s.cut := rfl
@[simp] theorem State.modLaunch_mem (l : Nat) (f : Launch → Launch) : (s.modLaunch l f).mem = s.mem := rfl
@[simp] theorem State.modLaunch_oom (l : Nat) (f : Launch → Launch) : (s.modLaunch l f).oom = s.oom := rfl
@[simp] theorem State.modLaunch_cores (l : Nat) (f : Launch → Launch) : (s.modLaunch l f).cores = s.cores := rfl
@[simp] theorem State.modLaunch_clus (l : Nat) (f : Launch → Launch) : (s.modLaunch l f).clus = s.clus := rfl
@[simp] theorem State.modLaunch_dies (l : Nat) (f : Launch → Launch) : (s.modLaunch l f).dies = s.dies := rfl
@[simp] theorem State.modLaunch_pressK (l : Nat) (f : Launch → Launch) : (s.modLaunch l f).pressK = s.pressK := rfl
@[simp] theorem State.modLaunch_msgs (l : Nat) (f : Launch → Launch) : (s.modLaunch l f).msgs = s.msgs := rfl
@[simp] theorem State.modLaunch_migs (l : Nat) (f : Launch → Launch) : (s.modLaunch l f).migs = s.migs := rfl
@[simp] theorem State.modLaunch_hmsgs (l : Nat) (f : Launch → Launch) : (s.modLaunch l f).hmsgs = s.hmsgs := rfl
@[simp] theorem State.modLaunch_hub (l : Nat) (f : Launch → Launch) : (s.modLaunch l f).hub = s.hub := rfl
@[simp] theorem State.modLaunch_hubNext (l : Nat) (f : Launch → Launch) : (s.modLaunch l f).hubNext = s.hubNext := rfl
@[simp] theorem State.modLaunch_shoots (l : Nat) (f : Launch → Launch) : (s.modLaunch l f).shoots = s.shoots := rfl
@[simp] theorem State.modLaunch_stale (l : Nat) (f : Launch → Launch) : (s.modLaunch l f).stale = s.stale := rfl
@[simp] theorem State.modLaunch_owed (l : Nat) (f : Launch → Launch) : (s.modLaunch l f).owed = s.owed := rfl
@[simp] theorem State.modLaunch_gage (l : Nat) (f : Launch → Launch) : (s.modLaunch l f).gage = s.gage := rfl
@[simp] theorem State.modLaunch_ctxs (l : Nat) (f : Launch → Launch) : (s.modLaunch l f).ctxs = s.ctxs := rfl
@[simp] theorem State.modLaunch_objs (l : Nat) (f : Launch → Launch) : (s.modLaunch l f).objs = s.objs := rfl
@[simp] theorem State.modLaunch_oidNext (l : Nat) (f : Launch → Launch) : (s.modLaunch l f).oidNext = s.oidNext := rfl
@[simp] theorem State.modLaunch_nodes (l : Nat) (f : Launch → Launch) : (s.modLaunch l f).nodes = s.nodes := rfl
@[simp] theorem State.modLaunch_nodeNext (l : Nat) (f : Launch → Launch) : (s.modLaunch l f).nodeNext = s.nodeNext := rfl
@[simp] theorem State.modLaunch_binds (l : Nat) (f : Launch → Launch) : (s.modLaunch l f).binds = s.binds := rfl
@[simp] theorem State.modLaunch_bindLog (l : Nat) (f : Launch → Launch) : (s.modLaunch l f).bindLog = s.bindLog := rfl
@[simp] theorem State.modLaunch_scrub (l : Nat) (f : Launch → Launch) : (s.modLaunch l f).scrub = s.scrub := rfl
@[simp] theorem State.modLaunch_queues (l : Nat) (f : Launch → Launch) : (s.modLaunch l f).queues = s.queues := rfl
@[simp] theorem State.modLaunch_supRing (l : Nat) (f : Launch → Launch) : (s.modLaunch l f).supRing = s.supRing := rfl
@[simp] theorem State.modLaunch_parts (l : Nat) (f : Launch → Launch) : (s.modLaunch l f).parts = s.parts := rfl
@[simp] theorem State.modLaunch_launchNext (l : Nat) (f : Launch → Launch) : (s.modLaunch l f).launchNext = s.launchNext := rfl
@[simp] theorem State.modLaunch_ticks (l : Nat) (f : Launch → Launch) : (s.modLaunch l f).ticks = s.ticks := rfl
@[simp] theorem State.modLaunch_stops (l : Nat) (f : Launch → Launch) : (s.modLaunch l f).stops = s.stops := rfl
@[simp] theorem State.modLaunch_saves (l : Nat) (f : Launch → Launch) : (s.modLaunch l f).saves = s.saves := rfl
@[simp] theorem State.modLaunch_deferred (l : Nat) (f : Launch → Launch) : (s.modLaunch l f).deferred = s.deferred := rfl
@[simp] theorem State.modLaunch_heldMsgs (l : Nat) (f : Launch → Launch) : (s.modLaunch l f).heldMsgs = s.heldMsgs := rfl
@[simp] theorem State.modLaunch_pkts (l : Nat) (f : Launch → Launch) : (s.modLaunch l f).pkts = s.pkts := rfl
@[simp] theorem State.modLaunch_acks (l : Nat) (f : Launch → Launch) : (s.modLaunch l f).acks = s.acks := rfl
@[simp] theorem State.modLaunch_pkg (l : Nat) (f : Launch → Launch) : (s.modLaunch l f).pkg = s.pkg := rfl
@[simp] theorem State.modLaunch_pmVer (l : Nat) (f : Launch → Launch) : (s.modLaunch l f).pmVer = s.pmVer := rfl
@[simp] theorem State.modLaunch_pmTime (l : Nat) (f : Launch → Launch) : (s.modLaunch l f).pmTime = s.pmTime := rfl
@[simp] theorem State.modLaunch_units (l : Nat) (f : Launch → Launch) : (s.modLaunch l f).units = s.units := rfl
@[simp] theorem State.modLaunch_leases (l : Nat) (f : Launch → Launch) : (s.modLaunch l f).leases = s.leases := rfl
@[simp] theorem State.modLaunch_retired (l : Nat) (f : Launch → Launch) : (s.modLaunch l f).retired = s.retired := rfl
@[simp] theorem State.modLaunch_events (l : Nat) (f : Launch → Launch) : (s.modLaunch l f).events = s.events := rfl
@[simp] theorem State.modLaunch_times (l : Nat) (f : Launch → Launch) : (s.modLaunch l f).times = s.times := rfl
@[simp] theorem State.modLaunch_reserveGone (l : Nat) (f : Launch → Launch) : (s.modLaunch l f).reserveGone = s.reserveGone := rfl
@[simp] theorem State.modLaunch_grader (l : Nat) (f : Launch → Launch) : (s.modLaunch l f).grader = s.grader := rfl
@[simp] theorem State.modLaunch_worn (l : Nat) (f : Launch → Launch) : (s.modLaunch l f).worn = s.worn := rfl
@[simp] theorem State.modLaunch_hold (l : Nat) (f : Launch → Launch) : (s.modLaunch l f).hold = s.hold := rfl
@[simp] theorem State.modLaunch_journal (l : Nat) (f : Launch → Launch) : (s.modLaunch l f).journal = s.journal := rfl
@[simp] theorem State.modLaunch_ckpt (l : Nat) (f : Launch → Launch) : (s.modLaunch l f).ckpt = s.ckpt := rfl
@[simp] theorem State.modLaunch_pause (l : Nat) (f : Launch → Launch) : (s.modLaunch l f).pause = s.pause := rfl
@[simp] theorem State.modLaunch_parserFaults (l : Nat) (f : Launch → Launch) : (s.modLaunch l f).parserFaults = s.parserFaults := rfl
@[simp] theorem State.modLaunch_bankWin (l : Nat) (f : Launch → Launch) : (s.modLaunch l f).bankWin = s.bankWin := rfl
@[simp] theorem State.modLaunch_flash (l : Nat) (f : Launch → Launch) : (s.modLaunch l f).flash = s.flash := rfl
@[simp] theorem State.modLaunch_flashCtr (l : Nat) (f : Launch → Launch) : (s.modLaunch l f).flashCtr = s.flashCtr := rfl
@[simp] theorem State.modLaunch_bootCount (l : Nat) (f : Launch → Launch) : (s.modLaunch l f).bootCount = s.bootCount := rfl
@[simp] theorem State.modLaunch_bootStage (l : Nat) (f : Launch → Launch) : (s.modLaunch l f).bootStage = s.bootStage := rfl
@[simp] theorem State.modLaunch_secVer (l : Nat) (f : Launch → Launch) : (s.modLaunch l f).secVer = s.secVer := rfl
@[simp] theorem State.modLaunch_slots (l : Nat) (f : Launch → Launch) : (s.modLaunch l f).slots = s.slots := rfl
@[simp] theorem State.modLaunch_slotsClosed (l : Nat) (f : Launch → Launch) : (s.modLaunch l f).slotsClosed = s.slotsClosed := rfl
@[simp] theorem State.modLaunch_attKey (l : Nat) (f : Launch → Launch) : (s.modLaunch l f).attKey = s.attKey := rfl
@[simp] theorem State.modLaunch_restorable (l : Nat) (f : Launch → Launch) : (s.modLaunch l f).restorable = s.restorable := rfl
@[simp] theorem State.modLaunch_quotes (l : Nat) (f : Launch → Launch) : (s.modLaunch l f).quotes = s.quotes := rfl
@[simp] theorem State.modLaunch_quote (l : Nat) (f : Launch → Launch) : (s.modLaunch l f).quote = s.quote := rfl
@[simp] theorem State.modLaunch_replies (l : Nat) (f : Launch → Launch) : (s.modLaunch l f).replies = s.replies := rfl
@[simp] theorem State.modLaunch_core (l : Nat) (f : Launch → Launch) (i : Nat) : (s.modLaunch l f).core i = s.core i := rfl
@[simp] theorem State.modLaunch_thr (l : Nat) (f : Launch → Launch) (i j : Nat) : (s.modLaunch l f).thr i j = s.thr i j := rfl
@[simp] theorem State.modLaunch_clu (l : Nat) (f : Launch → Launch) (i : Nat) : (s.modLaunch l f).clu i = s.clu i := rfl
@[simp] theorem State.modLaunch_die (l : Nat) (f : Launch → Launch) (i : Nat) : (s.modLaunch l f).die i = s.die i := rfl
@[simp] theorem State.modLaunch_ctx (l : Nat) (f : Launch → Launch) (i : Nat) : (s.modLaunch l f).ctx i = s.ctx i := rfl
@[simp] theorem State.modLaunch_desc (l : Nat) (f : Launch → Launch) (i j : Nat) : (s.modLaunch l f).desc i j = s.desc i j := rfl
@[simp] theorem State.modLaunch_obj (l : Nat) (f : Launch → Launch) (i : Nat) : (s.modLaunch l f).obj i = s.obj i := rfl
@[simp] theorem State.modLaunch_node (l : Nat) (f : Launch → Launch) (i : Nat) : (s.modLaunch l f).node i = s.node i := rfl
@[simp] theorem State.modLaunch_part (l : Nat) (f : Launch → Launch) (i : Nat) : (s.modLaunch l f).part i = s.part i := rfl
@[simp] theorem State.modLaunch_queue (l : Nat) (f : Launch → Launch) (i : Nat) : (s.modLaunch l f).queue i = s.queue i := rfl
@[simp] theorem State.modLaunch_unit (l : Nat) (f : Launch → Launch) (i : Nat) : (s.modLaunch l f).unit i = s.unit i := rfl

/-! ### modQueue -/

@[simp] theorem State.modQueue_cyc (q : Nat) (f : Queue → Queue) : (s.modQueue q f).cyc = s.cyc := rfl
@[simp] theorem State.modQueue_dtimeBase (q : Nat) (f : Queue → Queue) : (s.modQueue q f).dtimeBase = s.dtimeBase := rfl
@[simp] theorem State.modQueue_agenda (q : Nat) (f : Queue → Queue) : (s.modQueue q f).agenda = s.agenda := rfl
@[simp] theorem State.modQueue_pref (q : Nat) (f : Queue → Queue) : (s.modQueue q f).pref = s.pref := rfl
@[simp] theorem State.modQueue_bad (q : Nat) (f : Queue → Queue) : (s.modQueue q f).bad = s.bad := rfl
@[simp] theorem State.modQueue_linkBad (q : Nat) (f : Queue → Queue) : (s.modQueue q f).linkBad = s.linkBad := rfl
@[simp] theorem State.modQueue_curCore (q : Nat) (f : Queue → Queue) : (s.modQueue q f).curCore = s.curCore := rfl
@[simp] theorem State.modQueue_curThr (q : Nat) (f : Queue → Queue) : (s.modQueue q f).curThr = s.curThr := rfl
@[simp] theorem State.modQueue_free (q : Nat) (f : Queue → Queue) : (s.modQueue q f).free = s.free := rfl
@[simp] theorem State.modQueue_off (q : Nat) (f : Queue → Queue) : (s.modQueue q f).off = s.off := rfl
@[simp] theorem State.modQueue_cut (q : Nat) (f : Queue → Queue) : (s.modQueue q f).cut = s.cut := rfl
@[simp] theorem State.modQueue_mem (q : Nat) (f : Queue → Queue) : (s.modQueue q f).mem = s.mem := rfl
@[simp] theorem State.modQueue_oom (q : Nat) (f : Queue → Queue) : (s.modQueue q f).oom = s.oom := rfl
@[simp] theorem State.modQueue_cores (q : Nat) (f : Queue → Queue) : (s.modQueue q f).cores = s.cores := rfl
@[simp] theorem State.modQueue_clus (q : Nat) (f : Queue → Queue) : (s.modQueue q f).clus = s.clus := rfl
@[simp] theorem State.modQueue_dies (q : Nat) (f : Queue → Queue) : (s.modQueue q f).dies = s.dies := rfl
@[simp] theorem State.modQueue_pressK (q : Nat) (f : Queue → Queue) : (s.modQueue q f).pressK = s.pressK := rfl
@[simp] theorem State.modQueue_msgs (q : Nat) (f : Queue → Queue) : (s.modQueue q f).msgs = s.msgs := rfl
@[simp] theorem State.modQueue_migs (q : Nat) (f : Queue → Queue) : (s.modQueue q f).migs = s.migs := rfl
@[simp] theorem State.modQueue_hmsgs (q : Nat) (f : Queue → Queue) : (s.modQueue q f).hmsgs = s.hmsgs := rfl
@[simp] theorem State.modQueue_hub (q : Nat) (f : Queue → Queue) : (s.modQueue q f).hub = s.hub := rfl
@[simp] theorem State.modQueue_hubNext (q : Nat) (f : Queue → Queue) : (s.modQueue q f).hubNext = s.hubNext := rfl
@[simp] theorem State.modQueue_shoots (q : Nat) (f : Queue → Queue) : (s.modQueue q f).shoots = s.shoots := rfl
@[simp] theorem State.modQueue_stale (q : Nat) (f : Queue → Queue) : (s.modQueue q f).stale = s.stale := rfl
@[simp] theorem State.modQueue_owed (q : Nat) (f : Queue → Queue) : (s.modQueue q f).owed = s.owed := rfl
@[simp] theorem State.modQueue_gage (q : Nat) (f : Queue → Queue) : (s.modQueue q f).gage = s.gage := rfl
@[simp] theorem State.modQueue_ctxs (q : Nat) (f : Queue → Queue) : (s.modQueue q f).ctxs = s.ctxs := rfl
@[simp] theorem State.modQueue_objs (q : Nat) (f : Queue → Queue) : (s.modQueue q f).objs = s.objs := rfl
@[simp] theorem State.modQueue_oidNext (q : Nat) (f : Queue → Queue) : (s.modQueue q f).oidNext = s.oidNext := rfl
@[simp] theorem State.modQueue_nodes (q : Nat) (f : Queue → Queue) : (s.modQueue q f).nodes = s.nodes := rfl
@[simp] theorem State.modQueue_nodeNext (q : Nat) (f : Queue → Queue) : (s.modQueue q f).nodeNext = s.nodeNext := rfl
@[simp] theorem State.modQueue_binds (q : Nat) (f : Queue → Queue) : (s.modQueue q f).binds = s.binds := rfl
@[simp] theorem State.modQueue_bindLog (q : Nat) (f : Queue → Queue) : (s.modQueue q f).bindLog = s.bindLog := rfl
@[simp] theorem State.modQueue_scrub (q : Nat) (f : Queue → Queue) : (s.modQueue q f).scrub = s.scrub := rfl
@[simp] theorem State.modQueue_supRing (q : Nat) (f : Queue → Queue) : (s.modQueue q f).supRing = s.supRing := rfl
@[simp] theorem State.modQueue_parts (q : Nat) (f : Queue → Queue) : (s.modQueue q f).parts = s.parts := rfl
@[simp] theorem State.modQueue_launches (q : Nat) (f : Queue → Queue) : (s.modQueue q f).launches = s.launches := rfl
@[simp] theorem State.modQueue_launchNext (q : Nat) (f : Queue → Queue) : (s.modQueue q f).launchNext = s.launchNext := rfl
@[simp] theorem State.modQueue_ticks (q : Nat) (f : Queue → Queue) : (s.modQueue q f).ticks = s.ticks := rfl
@[simp] theorem State.modQueue_stops (q : Nat) (f : Queue → Queue) : (s.modQueue q f).stops = s.stops := rfl
@[simp] theorem State.modQueue_saves (q : Nat) (f : Queue → Queue) : (s.modQueue q f).saves = s.saves := rfl
@[simp] theorem State.modQueue_deferred (q : Nat) (f : Queue → Queue) : (s.modQueue q f).deferred = s.deferred := rfl
@[simp] theorem State.modQueue_heldMsgs (q : Nat) (f : Queue → Queue) : (s.modQueue q f).heldMsgs = s.heldMsgs := rfl
@[simp] theorem State.modQueue_pkts (q : Nat) (f : Queue → Queue) : (s.modQueue q f).pkts = s.pkts := rfl
@[simp] theorem State.modQueue_acks (q : Nat) (f : Queue → Queue) : (s.modQueue q f).acks = s.acks := rfl
@[simp] theorem State.modQueue_pkg (q : Nat) (f : Queue → Queue) : (s.modQueue q f).pkg = s.pkg := rfl
@[simp] theorem State.modQueue_pmVer (q : Nat) (f : Queue → Queue) : (s.modQueue q f).pmVer = s.pmVer := rfl
@[simp] theorem State.modQueue_pmTime (q : Nat) (f : Queue → Queue) : (s.modQueue q f).pmTime = s.pmTime := rfl
@[simp] theorem State.modQueue_units (q : Nat) (f : Queue → Queue) : (s.modQueue q f).units = s.units := rfl
@[simp] theorem State.modQueue_leases (q : Nat) (f : Queue → Queue) : (s.modQueue q f).leases = s.leases := rfl
@[simp] theorem State.modQueue_retired (q : Nat) (f : Queue → Queue) : (s.modQueue q f).retired = s.retired := rfl
@[simp] theorem State.modQueue_events (q : Nat) (f : Queue → Queue) : (s.modQueue q f).events = s.events := rfl
@[simp] theorem State.modQueue_times (q : Nat) (f : Queue → Queue) : (s.modQueue q f).times = s.times := rfl
@[simp] theorem State.modQueue_reserveGone (q : Nat) (f : Queue → Queue) : (s.modQueue q f).reserveGone = s.reserveGone := rfl
@[simp] theorem State.modQueue_grader (q : Nat) (f : Queue → Queue) : (s.modQueue q f).grader = s.grader := rfl
@[simp] theorem State.modQueue_worn (q : Nat) (f : Queue → Queue) : (s.modQueue q f).worn = s.worn := rfl
@[simp] theorem State.modQueue_hold (q : Nat) (f : Queue → Queue) : (s.modQueue q f).hold = s.hold := rfl
@[simp] theorem State.modQueue_journal (q : Nat) (f : Queue → Queue) : (s.modQueue q f).journal = s.journal := rfl
@[simp] theorem State.modQueue_ckpt (q : Nat) (f : Queue → Queue) : (s.modQueue q f).ckpt = s.ckpt := rfl
@[simp] theorem State.modQueue_pause (q : Nat) (f : Queue → Queue) : (s.modQueue q f).pause = s.pause := rfl
@[simp] theorem State.modQueue_parserFaults (q : Nat) (f : Queue → Queue) : (s.modQueue q f).parserFaults = s.parserFaults := rfl
@[simp] theorem State.modQueue_bankWin (q : Nat) (f : Queue → Queue) : (s.modQueue q f).bankWin = s.bankWin := rfl
@[simp] theorem State.modQueue_flash (q : Nat) (f : Queue → Queue) : (s.modQueue q f).flash = s.flash := rfl
@[simp] theorem State.modQueue_flashCtr (q : Nat) (f : Queue → Queue) : (s.modQueue q f).flashCtr = s.flashCtr := rfl
@[simp] theorem State.modQueue_bootCount (q : Nat) (f : Queue → Queue) : (s.modQueue q f).bootCount = s.bootCount := rfl
@[simp] theorem State.modQueue_bootStage (q : Nat) (f : Queue → Queue) : (s.modQueue q f).bootStage = s.bootStage := rfl
@[simp] theorem State.modQueue_secVer (q : Nat) (f : Queue → Queue) : (s.modQueue q f).secVer = s.secVer := rfl
@[simp] theorem State.modQueue_slots (q : Nat) (f : Queue → Queue) : (s.modQueue q f).slots = s.slots := rfl
@[simp] theorem State.modQueue_slotsClosed (q : Nat) (f : Queue → Queue) : (s.modQueue q f).slotsClosed = s.slotsClosed := rfl
@[simp] theorem State.modQueue_attKey (q : Nat) (f : Queue → Queue) : (s.modQueue q f).attKey = s.attKey := rfl
@[simp] theorem State.modQueue_restorable (q : Nat) (f : Queue → Queue) : (s.modQueue q f).restorable = s.restorable := rfl
@[simp] theorem State.modQueue_quotes (q : Nat) (f : Queue → Queue) : (s.modQueue q f).quotes = s.quotes := rfl
@[simp] theorem State.modQueue_quote (q : Nat) (f : Queue → Queue) : (s.modQueue q f).quote = s.quote := rfl
@[simp] theorem State.modQueue_replies (q : Nat) (f : Queue → Queue) : (s.modQueue q f).replies = s.replies := rfl
@[simp] theorem State.modQueue_core (q : Nat) (f : Queue → Queue) (i : Nat) : (s.modQueue q f).core i = s.core i := rfl
@[simp] theorem State.modQueue_thr (q : Nat) (f : Queue → Queue) (i j : Nat) : (s.modQueue q f).thr i j = s.thr i j := rfl
@[simp] theorem State.modQueue_clu (q : Nat) (f : Queue → Queue) (i : Nat) : (s.modQueue q f).clu i = s.clu i := rfl
@[simp] theorem State.modQueue_die (q : Nat) (f : Queue → Queue) (i : Nat) : (s.modQueue q f).die i = s.die i := rfl
@[simp] theorem State.modQueue_ctx (q : Nat) (f : Queue → Queue) (i : Nat) : (s.modQueue q f).ctx i = s.ctx i := rfl
@[simp] theorem State.modQueue_desc (q : Nat) (f : Queue → Queue) (i j : Nat) : (s.modQueue q f).desc i j = s.desc i j := rfl
@[simp] theorem State.modQueue_obj (q : Nat) (f : Queue → Queue) (i : Nat) : (s.modQueue q f).obj i = s.obj i := rfl
@[simp] theorem State.modQueue_node (q : Nat) (f : Queue → Queue) (i : Nat) : (s.modQueue q f).node i = s.node i := rfl
@[simp] theorem State.modQueue_part (q : Nat) (f : Queue → Queue) (i : Nat) : (s.modQueue q f).part i = s.part i := rfl
@[simp] theorem State.modQueue_launch (q : Nat) (f : Queue → Queue) (i : Nat) : (s.modQueue q f).launch i = s.launch i := rfl
@[simp] theorem State.modQueue_unit (q : Nat) (f : Queue → Queue) (i : Nat) : (s.modQueue q f).unit i = s.unit i := rfl

/-! ### modUnit -/

@[simp] theorem State.modUnit_cyc (u : Nat) (f : Unit_ → Unit_) : (s.modUnit u f).cyc = s.cyc := rfl
@[simp] theorem State.modUnit_dtimeBase (u : Nat) (f : Unit_ → Unit_) : (s.modUnit u f).dtimeBase = s.dtimeBase := rfl
@[simp] theorem State.modUnit_agenda (u : Nat) (f : Unit_ → Unit_) : (s.modUnit u f).agenda = s.agenda := rfl
@[simp] theorem State.modUnit_pref (u : Nat) (f : Unit_ → Unit_) : (s.modUnit u f).pref = s.pref := rfl
@[simp] theorem State.modUnit_bad (u : Nat) (f : Unit_ → Unit_) : (s.modUnit u f).bad = s.bad := rfl
@[simp] theorem State.modUnit_linkBad (u : Nat) (f : Unit_ → Unit_) : (s.modUnit u f).linkBad = s.linkBad := rfl
@[simp] theorem State.modUnit_curCore (u : Nat) (f : Unit_ → Unit_) : (s.modUnit u f).curCore = s.curCore := rfl
@[simp] theorem State.modUnit_curThr (u : Nat) (f : Unit_ → Unit_) : (s.modUnit u f).curThr = s.curThr := rfl
@[simp] theorem State.modUnit_free (u : Nat) (f : Unit_ → Unit_) : (s.modUnit u f).free = s.free := rfl
@[simp] theorem State.modUnit_off (u : Nat) (f : Unit_ → Unit_) : (s.modUnit u f).off = s.off := rfl
@[simp] theorem State.modUnit_cut (u : Nat) (f : Unit_ → Unit_) : (s.modUnit u f).cut = s.cut := rfl
@[simp] theorem State.modUnit_mem (u : Nat) (f : Unit_ → Unit_) : (s.modUnit u f).mem = s.mem := rfl
@[simp] theorem State.modUnit_oom (u : Nat) (f : Unit_ → Unit_) : (s.modUnit u f).oom = s.oom := rfl
@[simp] theorem State.modUnit_cores (u : Nat) (f : Unit_ → Unit_) : (s.modUnit u f).cores = s.cores := rfl
@[simp] theorem State.modUnit_clus (u : Nat) (f : Unit_ → Unit_) : (s.modUnit u f).clus = s.clus := rfl
@[simp] theorem State.modUnit_dies (u : Nat) (f : Unit_ → Unit_) : (s.modUnit u f).dies = s.dies := rfl
@[simp] theorem State.modUnit_pressK (u : Nat) (f : Unit_ → Unit_) : (s.modUnit u f).pressK = s.pressK := rfl
@[simp] theorem State.modUnit_msgs (u : Nat) (f : Unit_ → Unit_) : (s.modUnit u f).msgs = s.msgs := rfl
@[simp] theorem State.modUnit_migs (u : Nat) (f : Unit_ → Unit_) : (s.modUnit u f).migs = s.migs := rfl
@[simp] theorem State.modUnit_hmsgs (u : Nat) (f : Unit_ → Unit_) : (s.modUnit u f).hmsgs = s.hmsgs := rfl
@[simp] theorem State.modUnit_hub (u : Nat) (f : Unit_ → Unit_) : (s.modUnit u f).hub = s.hub := rfl
@[simp] theorem State.modUnit_hubNext (u : Nat) (f : Unit_ → Unit_) : (s.modUnit u f).hubNext = s.hubNext := rfl
@[simp] theorem State.modUnit_shoots (u : Nat) (f : Unit_ → Unit_) : (s.modUnit u f).shoots = s.shoots := rfl
@[simp] theorem State.modUnit_stale (u : Nat) (f : Unit_ → Unit_) : (s.modUnit u f).stale = s.stale := rfl
@[simp] theorem State.modUnit_owed (u : Nat) (f : Unit_ → Unit_) : (s.modUnit u f).owed = s.owed := rfl
@[simp] theorem State.modUnit_gage (u : Nat) (f : Unit_ → Unit_) : (s.modUnit u f).gage = s.gage := rfl
@[simp] theorem State.modUnit_ctxs (u : Nat) (f : Unit_ → Unit_) : (s.modUnit u f).ctxs = s.ctxs := rfl
@[simp] theorem State.modUnit_objs (u : Nat) (f : Unit_ → Unit_) : (s.modUnit u f).objs = s.objs := rfl
@[simp] theorem State.modUnit_oidNext (u : Nat) (f : Unit_ → Unit_) : (s.modUnit u f).oidNext = s.oidNext := rfl
@[simp] theorem State.modUnit_nodes (u : Nat) (f : Unit_ → Unit_) : (s.modUnit u f).nodes = s.nodes := rfl
@[simp] theorem State.modUnit_nodeNext (u : Nat) (f : Unit_ → Unit_) : (s.modUnit u f).nodeNext = s.nodeNext := rfl
@[simp] theorem State.modUnit_binds (u : Nat) (f : Unit_ → Unit_) : (s.modUnit u f).binds = s.binds := rfl
@[simp] theorem State.modUnit_bindLog (u : Nat) (f : Unit_ → Unit_) : (s.modUnit u f).bindLog = s.bindLog := rfl
@[simp] theorem State.modUnit_scrub (u : Nat) (f : Unit_ → Unit_) : (s.modUnit u f).scrub = s.scrub := rfl
@[simp] theorem State.modUnit_queues (u : Nat) (f : Unit_ → Unit_) : (s.modUnit u f).queues = s.queues := rfl
@[simp] theorem State.modUnit_supRing (u : Nat) (f : Unit_ → Unit_) : (s.modUnit u f).supRing = s.supRing := rfl
@[simp] theorem State.modUnit_parts (u : Nat) (f : Unit_ → Unit_) : (s.modUnit u f).parts = s.parts := rfl
@[simp] theorem State.modUnit_launches (u : Nat) (f : Unit_ → Unit_) : (s.modUnit u f).launches = s.launches := rfl
@[simp] theorem State.modUnit_launchNext (u : Nat) (f : Unit_ → Unit_) : (s.modUnit u f).launchNext = s.launchNext := rfl
@[simp] theorem State.modUnit_ticks (u : Nat) (f : Unit_ → Unit_) : (s.modUnit u f).ticks = s.ticks := rfl
@[simp] theorem State.modUnit_stops (u : Nat) (f : Unit_ → Unit_) : (s.modUnit u f).stops = s.stops := rfl
@[simp] theorem State.modUnit_saves (u : Nat) (f : Unit_ → Unit_) : (s.modUnit u f).saves = s.saves := rfl
@[simp] theorem State.modUnit_deferred (u : Nat) (f : Unit_ → Unit_) : (s.modUnit u f).deferred = s.deferred := rfl
@[simp] theorem State.modUnit_heldMsgs (u : Nat) (f : Unit_ → Unit_) : (s.modUnit u f).heldMsgs = s.heldMsgs := rfl
@[simp] theorem State.modUnit_pkts (u : Nat) (f : Unit_ → Unit_) : (s.modUnit u f).pkts = s.pkts := rfl
@[simp] theorem State.modUnit_acks (u : Nat) (f : Unit_ → Unit_) : (s.modUnit u f).acks = s.acks := rfl
@[simp] theorem State.modUnit_pkg (u : Nat) (f : Unit_ → Unit_) : (s.modUnit u f).pkg = s.pkg := rfl
@[simp] theorem State.modUnit_pmVer (u : Nat) (f : Unit_ → Unit_) : (s.modUnit u f).pmVer = s.pmVer := rfl
@[simp] theorem State.modUnit_pmTime (u : Nat) (f : Unit_ → Unit_) : (s.modUnit u f).pmTime = s.pmTime := rfl
@[simp] theorem State.modUnit_leases (u : Nat) (f : Unit_ → Unit_) : (s.modUnit u f).leases = s.leases := rfl
@[simp] theorem State.modUnit_retired (u : Nat) (f : Unit_ → Unit_) : (s.modUnit u f).retired = s.retired := rfl
@[simp] theorem State.modUnit_events (u : Nat) (f : Unit_ → Unit_) : (s.modUnit u f).events = s.events := rfl
@[simp] theorem State.modUnit_times (u : Nat) (f : Unit_ → Unit_) : (s.modUnit u f).times = s.times := rfl
@[simp] theorem State.modUnit_reserveGone (u : Nat) (f : Unit_ → Unit_) : (s.modUnit u f).reserveGone = s.reserveGone := rfl
@[simp] theorem State.modUnit_grader (u : Nat) (f : Unit_ → Unit_) : (s.modUnit u f).grader = s.grader := rfl
@[simp] theorem State.modUnit_worn (u : Nat) (f : Unit_ → Unit_) : (s.modUnit u f).worn = s.worn := rfl
@[simp] theorem State.modUnit_hold (u : Nat) (f : Unit_ → Unit_) : (s.modUnit u f).hold = s.hold := rfl
@[simp] theorem State.modUnit_journal (u : Nat) (f : Unit_ → Unit_) : (s.modUnit u f).journal = s.journal := rfl
@[simp] theorem State.modUnit_ckpt (u : Nat) (f : Unit_ → Unit_) : (s.modUnit u f).ckpt = s.ckpt := rfl
@[simp] theorem State.modUnit_pause (u : Nat) (f : Unit_ → Unit_) : (s.modUnit u f).pause = s.pause := rfl
@[simp] theorem State.modUnit_parserFaults (u : Nat) (f : Unit_ → Unit_) : (s.modUnit u f).parserFaults = s.parserFaults := rfl
@[simp] theorem State.modUnit_bankWin (u : Nat) (f : Unit_ → Unit_) : (s.modUnit u f).bankWin = s.bankWin := rfl
@[simp] theorem State.modUnit_flash (u : Nat) (f : Unit_ → Unit_) : (s.modUnit u f).flash = s.flash := rfl
@[simp] theorem State.modUnit_flashCtr (u : Nat) (f : Unit_ → Unit_) : (s.modUnit u f).flashCtr = s.flashCtr := rfl
@[simp] theorem State.modUnit_bootCount (u : Nat) (f : Unit_ → Unit_) : (s.modUnit u f).bootCount = s.bootCount := rfl
@[simp] theorem State.modUnit_bootStage (u : Nat) (f : Unit_ → Unit_) : (s.modUnit u f).bootStage = s.bootStage := rfl
@[simp] theorem State.modUnit_secVer (u : Nat) (f : Unit_ → Unit_) : (s.modUnit u f).secVer = s.secVer := rfl
@[simp] theorem State.modUnit_slots (u : Nat) (f : Unit_ → Unit_) : (s.modUnit u f).slots = s.slots := rfl
@[simp] theorem State.modUnit_slotsClosed (u : Nat) (f : Unit_ → Unit_) : (s.modUnit u f).slotsClosed = s.slotsClosed := rfl
@[simp] theorem State.modUnit_attKey (u : Nat) (f : Unit_ → Unit_) : (s.modUnit u f).attKey = s.attKey := rfl
@[simp] theorem State.modUnit_restorable (u : Nat) (f : Unit_ → Unit_) : (s.modUnit u f).restorable = s.restorable := rfl
@[simp] theorem State.modUnit_quotes (u : Nat) (f : Unit_ → Unit_) : (s.modUnit u f).quotes = s.quotes := rfl
@[simp] theorem State.modUnit_quote (u : Nat) (f : Unit_ → Unit_) : (s.modUnit u f).quote = s.quote := rfl
@[simp] theorem State.modUnit_replies (u : Nat) (f : Unit_ → Unit_) : (s.modUnit u f).replies = s.replies := rfl
@[simp] theorem State.modUnit_core (u : Nat) (f : Unit_ → Unit_) (i : Nat) : (s.modUnit u f).core i = s.core i := rfl
@[simp] theorem State.modUnit_thr (u : Nat) (f : Unit_ → Unit_) (i j : Nat) : (s.modUnit u f).thr i j = s.thr i j := rfl
@[simp] theorem State.modUnit_clu (u : Nat) (f : Unit_ → Unit_) (i : Nat) : (s.modUnit u f).clu i = s.clu i := rfl
@[simp] theorem State.modUnit_die (u : Nat) (f : Unit_ → Unit_) (i : Nat) : (s.modUnit u f).die i = s.die i := rfl
@[simp] theorem State.modUnit_ctx (u : Nat) (f : Unit_ → Unit_) (i : Nat) : (s.modUnit u f).ctx i = s.ctx i := rfl
@[simp] theorem State.modUnit_desc (u : Nat) (f : Unit_ → Unit_) (i j : Nat) : (s.modUnit u f).desc i j = s.desc i j := rfl
@[simp] theorem State.modUnit_obj (u : Nat) (f : Unit_ → Unit_) (i : Nat) : (s.modUnit u f).obj i = s.obj i := rfl
@[simp] theorem State.modUnit_node (u : Nat) (f : Unit_ → Unit_) (i : Nat) : (s.modUnit u f).node i = s.node i := rfl
@[simp] theorem State.modUnit_part (u : Nat) (f : Unit_ → Unit_) (i : Nat) : (s.modUnit u f).part i = s.part i := rfl
@[simp] theorem State.modUnit_launch (u : Nat) (f : Unit_ → Unit_) (i : Nat) : (s.modUnit u f).launch i = s.launch i := rfl
@[simp] theorem State.modUnit_queue (u : Nat) (f : Unit_ → Unit_) (i : Nat) : (s.modUnit u f).queue i = s.queue i := rfl

/-! ### takeFree -/

@[simp] theorem State.takeFree_cyc : s.takeFree.1.cyc = s.cyc := rfl
@[simp] theorem State.takeFree_dtimeBase : s.takeFree.1.dtimeBase = s.dtimeBase := rfl
@[simp] theorem State.takeFree_agenda : s.takeFree.1.agenda = s.agenda := rfl
@[simp] theorem State.takeFree_pref : s.takeFree.1.pref = s.pref := rfl
@[simp] theorem State.takeFree_bad : s.takeFree.1.bad = s.bad := rfl
@[simp] theorem State.takeFree_linkBad : s.takeFree.1.linkBad = s.linkBad := rfl
@[simp] theorem State.takeFree_curCore : s.takeFree.1.curCore = s.curCore := rfl
@[simp] theorem State.takeFree_curThr : s.takeFree.1.curThr = s.curThr := rfl
@[simp] theorem State.takeFree_off : s.takeFree.1.off = s.off := rfl
@[simp] theorem State.takeFree_cut : s.takeFree.1.cut = s.cut := rfl
@[simp] theorem State.takeFree_mem : s.takeFree.1.mem = s.mem := rfl
@[simp] theorem State.takeFree_oom : s.takeFree.1.oom = s.oom := rfl
@[simp] theorem State.takeFree_cores : s.takeFree.1.cores = s.cores := rfl
@[simp] theorem State.takeFree_clus : s.takeFree.1.clus = s.clus := rfl
@[simp] theorem State.takeFree_dies : s.takeFree.1.dies = s.dies := rfl
@[simp] theorem State.takeFree_pressK : s.takeFree.1.pressK = s.pressK := rfl
@[simp] theorem State.takeFree_msgs : s.takeFree.1.msgs = s.msgs := rfl
@[simp] theorem State.takeFree_migs : s.takeFree.1.migs = s.migs := rfl
@[simp] theorem State.takeFree_hmsgs : s.takeFree.1.hmsgs = s.hmsgs := rfl
@[simp] theorem State.takeFree_hub : s.takeFree.1.hub = s.hub := rfl
@[simp] theorem State.takeFree_hubNext : s.takeFree.1.hubNext = s.hubNext := rfl
@[simp] theorem State.takeFree_shoots : s.takeFree.1.shoots = s.shoots := rfl
@[simp] theorem State.takeFree_stale : s.takeFree.1.stale = s.stale := rfl
@[simp] theorem State.takeFree_owed : s.takeFree.1.owed = s.owed := rfl
@[simp] theorem State.takeFree_gage : s.takeFree.1.gage = s.gage := rfl
@[simp] theorem State.takeFree_ctxs : s.takeFree.1.ctxs = s.ctxs := rfl
@[simp] theorem State.takeFree_objs : s.takeFree.1.objs = s.objs := rfl
@[simp] theorem State.takeFree_oidNext : s.takeFree.1.oidNext = s.oidNext := rfl
@[simp] theorem State.takeFree_nodes : s.takeFree.1.nodes = s.nodes := rfl
@[simp] theorem State.takeFree_nodeNext : s.takeFree.1.nodeNext = s.nodeNext := rfl
@[simp] theorem State.takeFree_binds : s.takeFree.1.binds = s.binds := rfl
@[simp] theorem State.takeFree_bindLog : s.takeFree.1.bindLog = s.bindLog := rfl
@[simp] theorem State.takeFree_scrub : s.takeFree.1.scrub = s.scrub := rfl
@[simp] theorem State.takeFree_queues : s.takeFree.1.queues = s.queues := rfl
@[simp] theorem State.takeFree_supRing : s.takeFree.1.supRing = s.supRing := rfl
@[simp] theorem State.takeFree_parts : s.takeFree.1.parts = s.parts := rfl
@[simp] theorem State.takeFree_launches : s.takeFree.1.launches = s.launches := rfl
@[simp] theorem State.takeFree_launchNext : s.takeFree.1.launchNext = s.launchNext := rfl
@[simp] theorem State.takeFree_ticks : s.takeFree.1.ticks = s.ticks := rfl
@[simp] theorem State.takeFree_stops : s.takeFree.1.stops = s.stops := rfl
@[simp] theorem State.takeFree_saves : s.takeFree.1.saves = s.saves := rfl
@[simp] theorem State.takeFree_deferred : s.takeFree.1.deferred = s.deferred := rfl
@[simp] theorem State.takeFree_heldMsgs : s.takeFree.1.heldMsgs = s.heldMsgs := rfl
@[simp] theorem State.takeFree_pkts : s.takeFree.1.pkts = s.pkts := rfl
@[simp] theorem State.takeFree_acks : s.takeFree.1.acks = s.acks := rfl
@[simp] theorem State.takeFree_pkg : s.takeFree.1.pkg = s.pkg := rfl
@[simp] theorem State.takeFree_pmVer : s.takeFree.1.pmVer = s.pmVer := rfl
@[simp] theorem State.takeFree_pmTime : s.takeFree.1.pmTime = s.pmTime := rfl
@[simp] theorem State.takeFree_units : s.takeFree.1.units = s.units := rfl
@[simp] theorem State.takeFree_leases : s.takeFree.1.leases = s.leases := rfl
@[simp] theorem State.takeFree_retired : s.takeFree.1.retired = s.retired := rfl
@[simp] theorem State.takeFree_events : s.takeFree.1.events = s.events := rfl
@[simp] theorem State.takeFree_times : s.takeFree.1.times = s.times := rfl
@[simp] theorem State.takeFree_reserveGone : s.takeFree.1.reserveGone = s.reserveGone := rfl
@[simp] theorem State.takeFree_grader : s.takeFree.1.grader = s.grader := rfl
@[simp] theorem State.takeFree_worn : s.takeFree.1.worn = s.worn := rfl
@[simp] theorem State.takeFree_hold : s.takeFree.1.hold = s.hold := rfl
@[simp] theorem State.takeFree_journal : s.takeFree.1.journal = s.journal := rfl
@[simp] theorem State.takeFree_ckpt : s.takeFree.1.ckpt = s.ckpt := rfl
@[simp] theorem State.takeFree_pause : s.takeFree.1.pause = s.pause := rfl
@[simp] theorem State.takeFree_parserFaults : s.takeFree.1.parserFaults = s.parserFaults := rfl
@[simp] theorem State.takeFree_bankWin : s.takeFree.1.bankWin = s.bankWin := rfl
@[simp] theorem State.takeFree_flash : s.takeFree.1.flash = s.flash := rfl
@[simp] theorem State.takeFree_flashCtr : s.takeFree.1.flashCtr = s.flashCtr := rfl
@[simp] theorem State.takeFree_bootCount : s.takeFree.1.bootCount = s.bootCount := rfl
@[simp] theorem State.takeFree_bootStage : s.takeFree.1.bootStage = s.bootStage := rfl
@[simp] theorem State.takeFree_secVer : s.takeFree.1.secVer = s.secVer := rfl
@[simp] theorem State.takeFree_slots : s.takeFree.1.slots = s.slots := rfl
@[simp] theorem State.takeFree_slotsClosed : s.takeFree.1.slotsClosed = s.slotsClosed := rfl
@[simp] theorem State.takeFree_attKey : s.takeFree.1.attKey = s.attKey := rfl
@[simp] theorem State.takeFree_restorable : s.takeFree.1.restorable = s.restorable := rfl
@[simp] theorem State.takeFree_quotes : s.takeFree.1.quotes = s.quotes := rfl
@[simp] theorem State.takeFree_quote : s.takeFree.1.quote = s.quote := rfl
@[simp] theorem State.takeFree_replies : s.takeFree.1.replies = s.replies := rfl

/-! ### What an update writes -/

@[simp] theorem State.setCore_core (c i : Nat) (k : Core) : (s.setCore c k).core i = if i = c then k else s.core i :=
  SMap.get_set ..
@[simp] theorem State.modCore_core (c i : Nat) (f : Core → Core) :
    (s.modCore c f).core i = if i = c then f (s.core c) else s.core i := SMap.get_set ..
@[simp] theorem Core.setThread_thread (k : Core) (t i : Nat) (x : Thread) :
    (k.setThread t x).thread i = if i = t then x else k.thread i := SMap.get_set ..
@[simp] theorem State.setThr_thr (c t i j : Nat) (x : Thread) :
    (s.setThr c t x).thr i j = if i = c ∧ j = t then x else s.thr i j := by
  simp only [State.thr, State.setThr, State.modCore_core]
  by_cases h : i = c
  · subst h; by_cases g : j = t <;> simp [g]
  · simp [h]
@[simp] theorem State.modThr_thr (c t i j : Nat) (f : Thread → Thread) :
    (s.modThr c t f).thr i j = if i = c ∧ j = t then f (s.thr c t) else s.thr i j := State.setThr_thr ..
@[simp] theorem State.modCtx_ctx (x i : Nat) (f : Context → Context) :
    (s.modCtx x f).ctx i = if i = x then f (s.ctx x) else s.ctx i := SMap.get_set ..
@[simp] theorem State.modClu_clu (x i : Nat) (f : Cluster → Cluster) :
    (s.modClu x f).clu i = if i = x then f (s.clu x) else s.clu i := SMap.get_set ..
@[simp] theorem State.modDie_die (x i : Nat) (f : Die → Die) :
    (s.modDie x f).die i = if i = x then f (s.die x) else s.die i := SMap.get_set ..
@[simp] theorem State.modObj_obj (x i : Nat) (f : Obj → Obj) :
    (s.modObj x f).obj i = if i = x then f (s.obj x) else s.obj i := SMap.get_set ..
@[simp] theorem State.modNode_node (x i : Nat) (f : Node → Node) :
    (s.modNode x f).node i = if i = x then f (s.node x) else s.node i := SMap.get_set ..
@[simp] theorem State.modPart_part (x i : Nat) (f : Part_ → Part_) :
    (s.modPart x f).part i = if i = x then f (s.part x) else s.part i := SMap.get_set ..
@[simp] theorem State.modLaunch_launch (x i : Nat) (f : Launch → Launch) :
    (s.modLaunch x f).launch i = if i = x then f (s.launch x) else s.launch i := SMap.get_set ..
@[simp] theorem State.modQueue_queue (x i : Nat) (f : Queue → Queue) :
    (s.modQueue x f).queue i = if i = x then f (s.queue x) else s.queue i := SMap.get_set ..
@[simp] theorem State.modUnit_unit (x i : Nat) (f : Unit_ → Unit_) :
    (s.modUnit x f).unit i = if i = x then f (s.unit x) else s.unit i := SMap.get_set ..
@[simp] theorem State.takeFree_free : s.takeFree.1.free = s.free + 1 := rfl
@[simp] theorem State.takeFree_number : s.takeFree.2 = s.free := rfl

/-- A thread's update leaves everything of its core but its threads. -/
@[simp] theorem State.setThr_core_rest (c t : Nat) (x : Thread) :
    { (s.setThr c t x).core c with th := (s.core c).th } = s.core c := by
  simp [State.setThr, Core.setThread]
theorem State.setThr_core_ne {c i : Nat} (h : i ≠ c) (t : Nat) (x : Thread) : (s.setThr c t x).core i = s.core i := by
  simp [State.setThr, h]
/-- A thread's update leaves everything but the cores. -/
theorem State.setThr_rest (c t : Nat) (x : Thread) : { s.setThr c t x with cores := s.cores } = s := rfl

/-! ### Registers -/

variable (x : Thread)

@[simp] theorem Thread.gv_zero : x.gv 0 = 0#64 := rfl
@[simp] theorem Thread.isFull_zero : x.isFull 0 = true := rfl
@[simp] theorem Thread.isPoison_zero : x.isPoison 0 = false := rfl
@[simp] theorem Thread.pv_zero : x.pv 0 = true := rfl

/-- A register reads what was written last; g0 reads as zero. -/
theorem Thread.setG_gv (n i : Nat) (v : Word) : (x.setG n v).gv i = if i = n ∧ n ≠ 0 then v else x.gv i := by
  unfold Thread.setG
  by_cases hn : n = 0
  · simp [hn]
  · by_cases hi : i = 0
    · subst hi; simp [Ne.symm hn, Thread.gv]
    · simp [hn, Thread.gv, hi, SMap.get_set]

@[simp] theorem Thread.setG_pr (n : Nat) (v : Word) : (x.setG n v).pr = x.pr := by unfold Thread.setG; split <;> rfl
@[simp] theorem Thread.setG_pc (n : Nat) (v : Word) : (x.setG n v).pc = x.pc := by unfold Thread.setG; split <;> rfl
@[simp] theorem Thread.setG_wid (n : Nat) (v : Word) : (x.setG n v).wid = x.wid := by unfold Thread.setG; split <;> rfl
@[simp] theorem Thread.setG_hasWid (n : Nat) (v : Word) : (x.setG n v).hasWid = x.hasWid := by unfold Thread.setG; split <;> rfl
@[simp] theorem Thread.setG_st (n : Nat) (v : Word) : (x.setG n v).st = x.st := by unfold Thread.setG; split <;> rfl
@[simp] theorem Thread.setG_prsn (n : Nat) (v : Word) : (x.setG n v).prsn = x.prsn := by unfold Thread.setG; split <;> rfl
@[simp] theorem Thread.setG_lcause (n : Nat) (v : Word) : (x.setG n v).lcause = x.lcause := by unfold Thread.setG; split <;> rfl
@[simp] theorem Thread.setG_duo (n : Nat) (v : Word) : (x.setG n v).duo = x.duo := by unfold Thread.setG; split <;> rfl
@[simp] theorem Thread.setG_grp (n : Nat) (v : Word) : (x.setG n v).grp = x.grp := by unfold Thread.setG; split <;> rfl
@[simp] theorem Thread.setG_phase (n : Nat) (v : Word) : (x.setG n v).phase = x.phase := by unfold Thread.setG; split <;> rfl
@[simp] theorem Thread.setG_s5 (n : Nat) (v : Word) : (x.setG n v).s5 = x.s5 := by unfold Thread.setG; split <;> rfl
@[simp] theorem Thread.setG_late (n : Nat) (v : Word) : (x.setG n v).late = x.late := by unfold Thread.setG; split <;> rfl
@[simp] theorem Thread.setG_post (n : Nat) (v : Word) : (x.setG n v).post = x.post := by unfold Thread.setG; split <;> rfl
@[simp] theorem Thread.setG_nextPc (n : Nat) (v : Word) : (x.setG n v).nextPc = x.nextPc := by unfold Thread.setG; split <;> rfl
@[simp] theorem Thread.setG_cq (n : Nat) (v : Word) : (x.setG n v).cq = x.cq := by unfold Thread.setG; split <;> rfl
@[simp] theorem Thread.setG_seq (n : Nat) (v : Word) : (x.setG n v).seq = x.seq := by unfold Thread.setG; split <;> rfl
@[simp] theorem Thread.setG_mbx (n : Nat) (v : Word) : (x.setG n v).mbx = x.mbx := by unfold Thread.setG; split <;> rfl
@[simp] theorem Thread.setG_fb (n : Nat) (v : Word) : (x.setG n v).fb = x.fb := by unfold Thread.setG; split <;> rfl
@[simp] theorem Thread.setG_recast (n : Nat) (v : Word) : (x.setG n v).recast = x.recast := by unfold Thread.setG; split <;> rfl
@[simp] theorem Thread.setG_wasFree (n : Nat) (v : Word) : (x.setG n v).wasFree = x.wasFree := by unfold Thread.setG; split <;> rfl
@[simp] theorem Thread.setG_drop (n : Nat) (v : Word) : (x.setG n v).drop = x.drop := by unfold Thread.setG; split <;> rfl
@[simp] theorem Thread.setG_resume (n : Nat) (v : Word) : (x.setG n v).resume = x.resume := by unfold Thread.setG; split <;> rfl
@[simp] theorem Thread.setG_bars (n : Nat) (v : Word) : (x.setG n v).bars = x.bars := by unfold Thread.setG; split <;> rfl
@[simp] theorem Thread.setG_rel (n : Nat) (v : Word) : (x.setG n v).rel = x.rel := by unfold Thread.setG; split <;> rfl
@[simp] theorem Thread.setG_seen (n : Nat) (v : Word) : (x.setG n v).seen = x.seen := by unfold Thread.setG; split <;> rfl
@[simp] theorem Thread.setG_msgViews (n : Nat) (v : Word) : (x.setG n v).msgViews = x.msgViews := by unfold Thread.setG; split <;> rfl
@[simp] theorem Thread.setG_ladleIds (n : Nat) (v : Word) : (x.setG n v).ladleIds = x.ladleIds := by unfold Thread.setG; split <;> rfl
@[simp] theorem Thread.setG_task (n : Nat) (v : Word) : (x.setG n v).task = x.task := by unfold Thread.setG; split <;> rfl
@[simp] theorem Thread.setG_lid (n : Nat) (v : Word) : (x.setG n v).lid = x.lid := by unfold Thread.setG; split <;> rfl
@[simp] theorem Thread.setG_queue (n : Nat) (v : Word) : (x.setG n v).queue = x.queue := by unfold Thread.setG; split <;> rfl
@[simp] theorem Thread.setG_ctx (n : Nat) (v : Word) : (x.setG n v).ctx = x.ctx := by unfold Thread.setG; split <;> rfl
@[simp] theorem Thread.setG_assist (n : Nat) (v : Word) : (x.setG n v).assist = x.assist := by unfold Thread.setG; split <;> rfl
@[simp] theorem Thread.setG_answers (n : Nat) (v : Word) : (x.setG n v).answers = x.answers := by unfold Thread.setG; split <;> rfl
@[simp] theorem Thread.setG_yielded (n : Nat) (v : Word) : (x.setG n v).yielded = x.yielded := by unfold Thread.setG; split <;> rfl
@[simp] theorem Thread.setG_lost (n : Nat) (v : Word) : (x.setG n v).lost = x.lost := by unfold Thread.setG; split <;> rfl
@[simp] theorem Thread.setG_dueStop (n : Nat) (v : Word) : (x.setG n v).dueStop = x.dueStop := by unfold Thread.setG; split <;> rfl
@[simp] theorem Thread.setG_last (n : Nat) (v : Word) : (x.setG n v).last = x.last := by unfold Thread.setG; split <;> rfl
@[simp] theorem Thread.setG_ready (n : Nat) (v : Word) : (x.setG n v).ready = x.ready := by unfold Thread.setG; split <;> rfl
@[simp] theorem Thread.setG_parkReg (n : Nat) (v : Word) : (x.setG n v).parkReg = x.parkReg := by unfold Thread.setG; split <;> rfl
@[simp] theorem Thread.setG_dry (n : Nat) (v : Word) : (x.setG n v).dry = x.dry := by unfold Thread.setG; split <;> rfl
@[simp] theorem Thread.setG_dryTold (n : Nat) (v : Word) : (x.setG n v).dryTold = x.dryTold := by unfold Thread.setG; split <;> rfl
@[simp] theorem Thread.setG_rinds (n : Nat) (v : Word) : (x.setG n v).rinds = x.rinds := by unfold Thread.setG; split <;> rfl
@[simp] theorem Thread.setG_snap (n : Nat) (v : Word) : (x.setG n v).snap = x.snap := by unfold Thread.setG; split <;> rfl
@[simp] theorem Thread.setG_log (n : Nat) (v : Word) : (x.setG n v).log = x.log := by unfold Thread.setG; split <;> rfl
@[simp] theorem Thread.setG_logTile (n : Nat) (v : Word) : (x.setG n v).logTile = x.logTile := by unfold Thread.setG; split <;> rfl
@[simp] theorem Thread.setG_voteWait (n : Nat) (v : Word) : (x.setG n v).voteWait = x.voteWait := by unfold Thread.setG; split <;> rfl
@[simp] theorem Thread.setG_postponed (n : Nat) (v : Word) : (x.setG n v).postponed = x.postponed := by unfold Thread.setG; split <;> rfl

@[simp] theorem Thread.setP_g (n : Nat) (v : Bool) : (x.setP n v).g = x.g := by unfold Thread.setP; split <;> rfl
@[simp] theorem Thread.setP_full (n : Nat) (v : Bool) : (x.setP n v).full = x.full := by unfold Thread.setP; split <;> rfl
@[simp] theorem Thread.setP_poison (n : Nat) (v : Bool) : (x.setP n v).poison = x.poison := by unfold Thread.setP; split <;> rfl
@[simp] theorem Thread.setP_pc (n : Nat) (v : Bool) : (x.setP n v).pc = x.pc := by unfold Thread.setP; split <;> rfl
@[simp] theorem Thread.setP_wid (n : Nat) (v : Bool) : (x.setP n v).wid = x.wid := by unfold Thread.setP; split <;> rfl
@[simp] theorem Thread.setP_hasWid (n : Nat) (v : Bool) : (x.setP n v).hasWid = x.hasWid := by unfold Thread.setP; split <;> rfl
@[simp] theorem Thread.setP_st (n : Nat) (v : Bool) : (x.setP n v).st = x.st := by unfold Thread.setP; split <;> rfl
@[simp] theorem Thread.setP_prsn (n : Nat) (v : Bool) : (x.setP n v).prsn = x.prsn := by unfold Thread.setP; split <;> rfl
@[simp] theorem Thread.setP_lcause (n : Nat) (v : Bool) : (x.setP n v).lcause = x.lcause := by unfold Thread.setP; split <;> rfl
@[simp] theorem Thread.setP_duo (n : Nat) (v : Bool) : (x.setP n v).duo = x.duo := by unfold Thread.setP; split <;> rfl
@[simp] theorem Thread.setP_grp (n : Nat) (v : Bool) : (x.setP n v).grp = x.grp := by unfold Thread.setP; split <;> rfl
@[simp] theorem Thread.setP_phase (n : Nat) (v : Bool) : (x.setP n v).phase = x.phase := by unfold Thread.setP; split <;> rfl
@[simp] theorem Thread.setP_s5 (n : Nat) (v : Bool) : (x.setP n v).s5 = x.s5 := by unfold Thread.setP; split <;> rfl
@[simp] theorem Thread.setP_late (n : Nat) (v : Bool) : (x.setP n v).late = x.late := by unfold Thread.setP; split <;> rfl
@[simp] theorem Thread.setP_post (n : Nat) (v : Bool) : (x.setP n v).post = x.post := by unfold Thread.setP; split <;> rfl
@[simp] theorem Thread.setP_nextPc (n : Nat) (v : Bool) : (x.setP n v).nextPc = x.nextPc := by unfold Thread.setP; split <;> rfl
@[simp] theorem Thread.setP_cq (n : Nat) (v : Bool) : (x.setP n v).cq = x.cq := by unfold Thread.setP; split <;> rfl
@[simp] theorem Thread.setP_seq (n : Nat) (v : Bool) : (x.setP n v).seq = x.seq := by unfold Thread.setP; split <;> rfl
@[simp] theorem Thread.setP_mbx (n : Nat) (v : Bool) : (x.setP n v).mbx = x.mbx := by unfold Thread.setP; split <;> rfl
@[simp] theorem Thread.setP_fb (n : Nat) (v : Bool) : (x.setP n v).fb = x.fb := by unfold Thread.setP; split <;> rfl
@[simp] theorem Thread.setP_exs (n : Nat) (v : Bool) : (x.setP n v).exs = x.exs := by unfold Thread.setP; split <;> rfl
@[simp] theorem Thread.setP_lastSrc (n : Nat) (v : Bool) : (x.setP n v).lastSrc = x.lastSrc := by unfold Thread.setP; split <;> rfl
@[simp] theorem Thread.setP_recast (n : Nat) (v : Bool) : (x.setP n v).recast = x.recast := by unfold Thread.setP; split <;> rfl
@[simp] theorem Thread.setP_wasFree (n : Nat) (v : Bool) : (x.setP n v).wasFree = x.wasFree := by unfold Thread.setP; split <;> rfl
@[simp] theorem Thread.setP_drop (n : Nat) (v : Bool) : (x.setP n v).drop = x.drop := by unfold Thread.setP; split <;> rfl
@[simp] theorem Thread.setP_resume (n : Nat) (v : Bool) : (x.setP n v).resume = x.resume := by unfold Thread.setP; split <;> rfl
@[simp] theorem Thread.setP_bars (n : Nat) (v : Bool) : (x.setP n v).bars = x.bars := by unfold Thread.setP; split <;> rfl
@[simp] theorem Thread.setP_rel (n : Nat) (v : Bool) : (x.setP n v).rel = x.rel := by unfold Thread.setP; split <;> rfl
@[simp] theorem Thread.setP_seen (n : Nat) (v : Bool) : (x.setP n v).seen = x.seen := by unfold Thread.setP; split <;> rfl
@[simp] theorem Thread.setP_rviews (n : Nat) (v : Bool) : (x.setP n v).rviews = x.rviews := by unfold Thread.setP; split <;> rfl
@[simp] theorem Thread.setP_msgViews (n : Nat) (v : Bool) : (x.setP n v).msgViews = x.msgViews := by unfold Thread.setP; split <;> rfl
@[simp] theorem Thread.setP_ladleIds (n : Nat) (v : Bool) : (x.setP n v).ladleIds = x.ladleIds := by unfold Thread.setP; split <;> rfl
@[simp] theorem Thread.setP_task (n : Nat) (v : Bool) : (x.setP n v).task = x.task := by unfold Thread.setP; split <;> rfl
@[simp] theorem Thread.setP_lid (n : Nat) (v : Bool) : (x.setP n v).lid = x.lid := by unfold Thread.setP; split <;> rfl
@[simp] theorem Thread.setP_queue (n : Nat) (v : Bool) : (x.setP n v).queue = x.queue := by unfold Thread.setP; split <;> rfl
@[simp] theorem Thread.setP_ctx (n : Nat) (v : Bool) : (x.setP n v).ctx = x.ctx := by unfold Thread.setP; split <;> rfl
@[simp] theorem Thread.setP_assist (n : Nat) (v : Bool) : (x.setP n v).assist = x.assist := by unfold Thread.setP; split <;> rfl
@[simp] theorem Thread.setP_answers (n : Nat) (v : Bool) : (x.setP n v).answers = x.answers := by unfold Thread.setP; split <;> rfl
@[simp] theorem Thread.setP_yielded (n : Nat) (v : Bool) : (x.setP n v).yielded = x.yielded := by unfold Thread.setP; split <;> rfl
@[simp] theorem Thread.setP_lost (n : Nat) (v : Bool) : (x.setP n v).lost = x.lost := by unfold Thread.setP; split <;> rfl
@[simp] theorem Thread.setP_dueStop (n : Nat) (v : Bool) : (x.setP n v).dueStop = x.dueStop := by unfold Thread.setP; split <;> rfl
@[simp] theorem Thread.setP_last (n : Nat) (v : Bool) : (x.setP n v).last = x.last := by unfold Thread.setP; split <;> rfl
@[simp] theorem Thread.setP_ready (n : Nat) (v : Bool) : (x.setP n v).ready = x.ready := by unfold Thread.setP; split <;> rfl
@[simp] theorem Thread.setP_parkReg (n : Nat) (v : Bool) : (x.setP n v).parkReg = x.parkReg := by unfold Thread.setP; split <;> rfl
@[simp] theorem Thread.setP_dry (n : Nat) (v : Bool) : (x.setP n v).dry = x.dry := by unfold Thread.setP; split <;> rfl
@[simp] theorem Thread.setP_dryTold (n : Nat) (v : Bool) : (x.setP n v).dryTold = x.dryTold := by unfold Thread.setP; split <;> rfl
@[simp] theorem Thread.setP_rinds (n : Nat) (v : Bool) : (x.setP n v).rinds = x.rinds := by unfold Thread.setP; split <;> rfl
@[simp] theorem Thread.setP_snap (n : Nat) (v : Bool) : (x.setP n v).snap = x.snap := by unfold Thread.setP; split <;> rfl
@[simp] theorem Thread.setP_log (n : Nat) (v : Bool) : (x.setP n v).log = x.log := by unfold Thread.setP; split <;> rfl
@[simp] theorem Thread.setP_logTile (n : Nat) (v : Bool) : (x.setP n v).logTile = x.logTile := by unfold Thread.setP; split <;> rfl
@[simp] theorem Thread.setP_voteWait (n : Nat) (v : Bool) : (x.setP n v).voteWait = x.voteWait := by unfold Thread.setP; split <;> rfl
@[simp] theorem Thread.setP_postponed (n : Nat) (v : Bool) : (x.setP n v).postponed = x.postponed := by unfold Thread.setP; split <;> rfl

end Sys2Proof.Machine
end

