-- ==== Sys2Proof/Laws/Issue.lean ====
section
/-! SUPPORT. The one lemma about the issue of an instruction that goes through, and the body that each opcode's
meaning gives it. -/

namespace Sys2Proof.Machine

/-! ### What an accepted instruction does to its thread -/

theorem Thread.seeMsgs_keeps (l : List Nat) (x : Thread) :
    { x.seeMsgs l with msgViews := x.msgViews, rviews := x.rviews } = x := by
  induction l generalizing x with
  | nil => rfl
  | cons n l ih =>
    have h := ih { x with msgViews := x.msgViews ++ SMap.get [] n x.rviews, rviews := SMap.set [] n [] x.rviews }
    have e : x.seeMsgs (n :: l) =
        Thread.seeMsgs { x with msgViews := x.msgViews ++ SMap.get [] n x.rviews, rviews := SMap.set [] n [] x.rviews } l := rfl
    rw [e]
    generalize Thread.seeMsgs _ l = y at h
    obtain ⟨⟩ := y
    obtain ⟨⟩ := x
    simp_all

/-- The writes of a list of g registers. -/
def Thread.setGs (x : Thread) (l : List (Nat × Word)) : Thread := l.foldl (fun z w => z.setG w.1 w.2) x
/-- The writes of a list of predicates. -/
def Thread.setPs (x : Thread) (l : List (Nat × Bool)) : Thread := l.foldl (fun z w => z.setP w.1 w.2) x

theorem Thread.setGs_gv (l : List (Nat × Word)) (x : Thread) (n : Nat) :
    (x.setGs l).gv n = if n = 0 then 0#64 else lastWrite l n (x.gv n) := by
  induction l generalizing x with
  | nil => by_cases h : n = 0 <;> simp [h, Thread.setGs, lastWrite]
  | cons w l ih =>
    have e : x.setGs (w :: l) = (x.setG w.1 w.2).setGs l := rfl
    rw [e, ih]
    by_cases h : n = 0
    · simp [h]
    · simp only [h, if_false, Thread.setG_gv, lastWrite, List.foldl_cons]
      by_cases hw : n = w.1
      · subst hw; simp [h]
      · simp [hw, Ne.symm hw]

theorem getLsbD_oneBit (w n i : Nat) (h : i < w) : (oneBit w n).getLsbD i = decide (n = i) := by
  rw [oneBit, BitVec.getLsbD_ofNat, Nat.testBit_two_pow]; simp [h]

theorem Thread.setG_isFull (x : Thread) (n i : Nat) (v : Word) (h : i < 16) :
    (x.setG n v).isFull i = (x.isFull i || n == i) := by
  unfold Thread.setG Thread.isFull
  by_cases hn : n = 0
  · by_cases hi : i = 0
    · simp [hi]
    · simp [hn, hi, Ne.symm hi]
  · simp only [hn, if_false, BitVec.getLsbD_or, getLsbD_oneBit 16 n i h]
    have hb : (n == i) = decide (n = i) := rfl
    rw [hb]
    cases i == 0 <;> cases x.full.getLsbD i <;> rfl

theorem Thread.setGs_isFull (l : List (Nat × Word)) (x : Thread) (n : Nat) (h : n < 16) :
    (x.setGs l).isFull n = (x.isFull n || l.any fun w => w.1 == n) := by
  induction l generalizing x with
  | nil => simp [Thread.setGs]
  | cons w l ih =>
    have e : x.setGs (w :: l) = (x.setG w.1 w.2).setGs l := rfl
    rw [e, ih, Thread.setG_isFull x w.1 n w.2 h, List.any_cons, Bool.or_assoc]

theorem Thread.setP_pv (x : Thread) (n i : Nat) (v : Bool) (h : i < 8) :
    (x.setP n v).pv i = (i == 0 || if n % 8 = i then v else x.pv i) := by
  unfold Thread.setP Thread.pv
  have hi : i % 8 = i := Nat.mod_eq_of_lt h
  rw [hi]
  by_cases h0 : i = 0
  · simp [h0]
  · by_cases hn : n % 8 = 0
    · simp [hn, Ne.symm h0]
    · simp only [hn, if_false]
      cases v
      · rw [if_neg Bool.false_ne_true, BitVec.getLsbD_and, BitVec.getLsbD_not, getLsbD_oneBit 8 _ i h]
        by_cases e : n % 8 = i <;> simp [e, h]
      · rw [if_pos rfl, BitVec.getLsbD_or, getLsbD_oneBit 8 _ i h]
        by_cases e : n % 8 = i <;> simp [e]

theorem Thread.setPs_pv (l : List (Nat × Bool)) (x : Thread) (n : Nat) (h : n < 8) :
    (x.setPs l).pv n = (n == 0 || lastWrite (l.map fun w => (w.1 % 8, w.2)) n (x.pv n)) := by
  induction l generalizing x with
  | nil => by_cases h0 : n = 0 <;> simp [h0, Thread.setPs, lastWrite]
  | cons w l ih =>
    have e : x.setPs (w :: l) = (x.setP w.1 w.2).setPs l := rfl
    rw [e, ih, Thread.setP_pv _ _ _ _ h]
    by_cases h0 : n = 0
    · simp [h0]
    · have hb : (n == 0) = false := by simp [h0]
      simp only [hb, Bool.false_or, lastWrite, List.map_cons, List.foldl_cons]

theorem Thread.setGs_keeps (l : List (Nat × Word)) (x : Thread) :
    { x.setGs l with
      g := x.g, full := x.full, poison := x.poison, rviews := x.rviews, exs := x.exs, lastSrc := x.lastSrc } = x := by
  induction l generalizing x with
  | nil => rfl
  | cons w l ih =>
    have e : x.setGs (w :: l) = (x.setG w.1 w.2).setGs l := rfl
    rw [e]
    have h := ih (x.setG w.1 w.2)
    have k : { x.setG w.1 w.2 with
      g := x.g, full := x.full, poison := x.poison, rviews := x.rviews, exs := x.exs, lastSrc := x.lastSrc } = x := by
      unfold Thread.setG; split <;> rfl
    generalize x.setG w.1 w.2 = z at h k
    generalize Thread.setGs z l = y at h
    obtain ⟨⟩ := y
    obtain ⟨⟩ := z
    obtain ⟨⟩ := x
    simp_all

theorem Thread.setPs_keeps (l : List (Nat × Bool)) (x : Thread) : { x.setPs l with pr := x.pr } = x := by
  induction l generalizing x with
  | nil => rfl
  | cons w l ih =>
    have e : x.setPs (w :: l) = (x.setP w.1 w.2).setPs l := rfl
    rw [e]
    have h := ih (x.setP w.1 w.2)
    have k : { x.setP w.1 w.2 with pr := x.pr } = x := by unfold Thread.setP; split <;> rfl
    generalize x.setP w.1 w.2 = z at h k
    generalize Thread.setPs z l = y at h
    obtain ⟨⟩ := y
    obtain ⟨⟩ := z
    obtain ⟨⟩ := x
    simp_all

theorem Thread.seeMsgs_gv (l : List Nat) (x : Thread) (n : Nat) : (x.seeMsgs l).gv n = x.gv n := by
  have h := congrArg (fun y => Thread.gv y n) (Thread.seeMsgs_keeps l x)
  exact h

theorem Thread.seeMsgs_isFull (l : List Nat) (x : Thread) (n : Nat) : (x.seeMsgs l).isFull n = x.isFull n := by
  have h := congrArg (fun y => Thread.isFull y n) (Thread.seeMsgs_keeps l x)
  exact h

theorem Thread.seeMsgs_pv (l : List Nat) (x : Thread) (n : Nat) : (x.seeMsgs l).pv n = x.pv n := by
  have h := congrArg (fun y => Thread.pv y n) (Thread.seeMsgs_keeps l x)
  exact h

theorem Thread.setGs_pv (l : List (Nat × Word)) (x : Thread) (n : Nat) : (x.setGs l).pv n = x.pv n := by
  have h := congrArg (fun y => Thread.pv y n) (Thread.setGs_keeps l x)
  exact h

theorem Thread.setPs_gv (l : List (Nat × Bool)) (x : Thread) (n : Nat) : (x.setPs l).gv n = x.gv n := by
  have h := congrArg (fun y => Thread.gv y n) (Thread.setPs_keeps l x)
  exact h

theorem Thread.setPs_isFull (l : List (Nat × Bool)) (x : Thread) (n : Nat) : (x.setPs l).isFull n = x.isFull n := by
  have h := congrArg (fun y => Thread.isFull y n) (Thread.setPs_keeps l x)
  exact h

/-- What a thread keeps at the end of its group. -/
theorem Thread.close_keeps (x : Thread) : { x.close with phase := x.phase, st := x.st, prsn := x.prsn } = x := rfl

@[simp] theorem Thread.close_phase (x : Thread) : x.close.phase = .marker := rfl
@[simp] theorem Thread.close_grp (x : Thread) : x.close.grp = x.grp := rfl
@[simp] theorem Thread.close_pc (x : Thread) : x.close.pc = x.pc := rfl
@[simp] theorem Thread.close_post (x : Thread) : x.close.post = x.post := rfl
@[simp] theorem Thread.close_gv (x : Thread) (n : Nat) : x.close.gv n = x.gv n := rfl
@[simp] theorem Thread.close_isFull (x : Thread) (n : Nat) : x.close.isFull n = x.isFull n := rfl
@[simp] theorem Thread.close_pv (x : Thread) (n : Nat) : x.close.pv n = x.pv n := rfl

theorem Thread.advance_grp (x : Thread) (s : Bool) (p : Word) : (x.advance s p).grp = { x.grp with n := x.grp.n + 1 } := by
  cases s <;> rfl
theorem Thread.advance_pc (x : Thread) (s : Bool) (p : Word) : (x.advance s p).pc = p := by cases s <;> rfl
theorem Thread.advance_post (x : Thread) (s : Bool) (p : Word) : (x.advance s p).post = x.post := by cases s <;> rfl
theorem Thread.advance_phase (x : Thread) (s : Bool) (p : Word) :
    (x.advance s p).phase = if s then .marker else x.phase := by cases s <;> rfl
theorem Thread.advance_gv (x : Thread) (s : Bool) (p : Word) (n : Nat) : (x.advance s p).gv n = x.gv n := by cases s <;> rfl
theorem Thread.advance_isFull (x : Thread) (s : Bool) (p : Word) (n : Nat) : (x.advance s p).isFull n = x.isFull n := by
  cases s <;> rfl
theorem Thread.advance_pv (x : Thread) (s : Bool) (p : Word) (n : Nat) : (x.advance s p).pv n = x.pv n := by cases s <;> rfl
theorem Thread.advance_keeps (x : Thread) (s : Bool) (p : Word) :
    { x.advance s p with
      grp := x.grp, pc := x.pc, nextPc := x.nextPc, phase := x.phase, st := x.st, prsn := x.prsn } = x := by cases s <;> rfl

/-- The turns that a subnormal costs change nothing else of the thread. -/
theorem Thread.loseTurns_keeps (x : Thread) (k : Core) (cyc t : Nat) (b : Bool) :
    { (if b then x.loseTurns k cyc t else x) with lost := x.lost, ready := x.ready } = x := by
  unfold Thread.loseTurns
  cases b <;> cases k.pins t <;> rfl

/-- An instruction that meets no absent extent: what its thread becomes. -/
theorem Thread.accept_does (x : Thread) (k : Core) (cyc : Nat) (i : Iss) (r : Out) (hn : r.np = none)
    (hp : i.pos = x.grp.n) (hc : i.pc = x.pc) : x.Does (x.accept k cyc i r) i.op i.fm i.o r := by
  let base := (((x.seeMsgs (gRegs (srcRegs i.op i.fm i.o ++ r.rd))).keepOld r.g).setGs r.g).setPs r.p
  let y0 : Thread := { base with grp := base.grp.add i r base.msgViews, post := r.post.getD base.post }
  have e : x.accept k cyc i r = (if r.lost then y0.loseTurns k cyc i.t else y0).advance i.o.s (r.jump.getD (x.following x.pc)) := by
    simp only [Thread.accept, hn]; rfl
  let Q (z : Thread) : Thread := { z with
    g := x.g, full := x.full, poison := x.poison, pr := x.pr, rviews := x.rviews, exs := x.exs, lastSrc := x.lastSrc
    msgViews := x.msgViews, grp := x.grp, pc := x.pc, nextPc := x.nextPc, phase := x.phase, post := x.post
    st := x.st, prsn := x.prsn, lost := x.lost, ready := x.ready }
  have hy : Q y0 = Q base := rfl
  have hl := Thread.loseTurns_keeps y0 k cyc i.t r.lost
  rw [e]
  generalize (if r.lost then y0.loseTurns k cyc i.t else y0) = y1 at hl ⊢
  have l1 : y1.grp = base.grp.add i r base.msgViews := by have h := congrArg Thread.grp hl; exact h
  have l2 : y1.post = r.post.getD base.post := by have h := congrArg Thread.post hl; exact h
  have l3 : y1.phase = base.phase := by have h := congrArg Thread.phase hl; exact h
  have lg : ∀ n, y1.gv n = base.gv n := fun n => by have h := congrArg (fun y => Thread.gv y n) hl; exact h
  have lf : ∀ n, y1.isFull n = base.isFull n := fun n => by have h := congrArg (fun y => Thread.isFull y n) hl; exact h
  have lp : ∀ n, y1.pv n = base.pv n := fun n => by have h := congrArg (fun y => Thread.pv y n) hl; exact h
  have hs := Thread.seeMsgs_keeps (gRegs (srcRegs i.op i.fm i.o ++ r.rd)) x
  have hsg := Thread.seeMsgs_gv (gRegs (srcRegs i.op i.fm i.o ++ r.rd)) x
  have hsf := Thread.seeMsgs_isFull (gRegs (srcRegs i.op i.fm i.o ++ r.rd)) x
  have hsp := Thread.seeMsgs_pv (gRegs (srcRegs i.op i.fm i.o ++ r.rd)) x
  clear_value y0
  have hb : base = (((x.seeMsgs (gRegs (srcRegs i.op i.fm i.o ++ r.rd))).keepOld r.g).setGs r.g).setPs r.p := rfl
  clear_value base
  generalize x.seeMsgs (gRegs (srcRegs i.op i.fm i.o ++ r.rd)) = x0 at hs hsg hsf hsp hb
  have ho : { x0.keepOld r.g with grp := x0.grp } = x0 := rfl
  have hog : (x0.keepOld r.g).grp = { x0.grp with old := (x0.keepOld r.g).grp.old } := rfl
  have hov : ∀ n, (x0.keepOld r.g).gv n = x0.gv n := fun _ => rfl
  have hof : ∀ n, (x0.keepOld r.g).isFull n = x0.isFull n := fun _ => rfl
  have hop : ∀ n, (x0.keepOld r.g).pv n = x0.pv n := fun _ => rfl
  generalize x0.keepOld r.g = x1 at ho hog hov hof hop hb
  have hg := Thread.setGs_keeps r.g x1
  have hgp := Thread.setGs_pv r.g x1
  have hgg := Thread.setGs_gv r.g x1
  have hgf := Thread.setGs_isFull r.g x1
  generalize x1.setGs r.g = x2 at hg hgp hgg hgf hb
  have hq := Thread.setPs_keeps r.p x2
  have hqp := Thread.setPs_pv r.p x2
  have hqg := Thread.setPs_gv r.p x2
  have hqf := Thread.setPs_isFull r.p x2
  rw [← hb] at hq hqp hqg hqf
  have k1 : base.grp = { x.grp with old := x1.grp.old } := by
    have h1 : base.grp = x2.grp := by have h := congrArg Thread.grp hq; exact h
    have h2 : x2.grp = x1.grp := by have h := congrArg Thread.grp hg; exact h
    have h3 : x0.grp = x.grp := by have h := congrArg Thread.grp hs; exact h
    rw [h1, h2, hog, h3]
  have k2 : base.post = x.post := by
    have h1 := congrArg Thread.post hq
    have h2 := congrArg Thread.post hg
    have h3 := congrArg Thread.post ho
    have h4 := congrArg Thread.post hs
    exact h1.trans (h2.trans (h3.trans h4))
  have k3 : base.phase = x.phase := by
    have h1 := congrArg Thread.phase hq
    have h2 := congrArg Thread.phase hg
    have h3 := congrArg Thread.phase ho
    have h4 := congrArg Thread.phase hs
    exact h1.trans (h2.trans (h3.trans h4))
  constructor
  · intro n
    rw [Thread.advance_gv, lg, hqg, hgg, hov, hsg]
  · intro n h
    rw [Thread.advance_isFull, lf, hqf, hgf n h, hof, hsf]
  · intro n h
    rw [Thread.advance_pv, lp, hqp n h, hgp, hop, hsp]
  · rw [Thread.advance_grp]
    simp only [l1, Group.add, k1, hp, hc]
  · rw [Thread.advance_grp]
    simp only [l1, Group.add, k1, hp, hc]
  · rw [Thread.advance_grp]
    simp only [l1, Group.add, k1, hp]
  · rw [Thread.advance_grp]
    simp only [l1, Group.add, k1]
  · rw [Thread.advance_grp]
    simp only [l1, Group.add, k1, hp]
  · rw [Thread.advance_grp]
    simp only [l1, Group.add, k1, hp]
  · rw [Thread.advance_grp]
    simp only [l1, Group.add, k1, hp]
    cases r.fence <;> simp
  · rw [Thread.advance_grp]
    simp only [l1, Group.add, k1]
  · rw [Thread.advance_grp]
    simp only [l1, Group.add, k1, hp]
  · rw [Thread.advance_grp]
    simp only [l1, Group.add, k1]
  · rw [Thread.advance_grp]
    simp only [l1, Group.add, k1]
  · rw [Thread.advance_pc]
  · rw [Thread.advance_phase]
    simp only [l3, k3]
  · rw [Thread.advance_post]
    simp only [l2, k2]
  · have h0 : Q (y1.advance i.o.s (r.jump.getD (x.following x.pc))) = Q y1 := by cases i.o.s <;> rfl
    have h1 := congrArg Q hl
    have h2 := congrArg Q hq
    have h3 := congrArg Q hg
    have h4 := congrArg Q ho
    have h5 := congrArg Q hs
    exact h0.trans (h1.trans (hy.trans (h2.trans (h3.trans (h4.trans h5)))))

/-- What an instruction reads beside its g sources is no g register that it writes at once. -/
abbrev Out.keepsReads (r : Out) (op : Nat) (fm : Form) (o : Opnd) : Prop := ∀ n ∈ r.rd, n < 16 → n ∉ singleWrites op fm o

/-- An answer that reads nothing beside its sources. -/
theorem Out.keepsReads_of_rd {r : Out} (h : r.rd = []) (op : Nat) (fm : Form) (o : Opnd) : r.keepsReads op fm o := by
  simp [Out.keepsReads, h]

/-- An instruction that writes no register at once. -/
theorem Out.keepsReads_of_writes {op : Nat} {fm : Form} {o : Opnd} (h : singleWrites op fm o = []) (r : Out) :
    r.keepsReads op fm o := by
  simp [Out.keepsReads, h]

/-- An instruction overwrites a register that it reads only where `mayUpdate` says that it may. -/
theorem mayUpdate_of_selfUpdates {op : Nat} {fm : Form} {o : Opnd} {r : Out} (hk : r.keepsReads op fm o)
    (h : selfUpdates op fm o r = true) : mayUpdate op fm o = true := by
  simp only [selfUpdates, ownReads, List.any_eq_true, List.contains_eq_mem, List.mem_append, decide_eq_true_eq] at h
  obtain ⟨n, hw, (hr | hr) | hr⟩ := h
  · exact List.any_eq_true.2 ⟨n, hw, by simp [hr]⟩
  · refine List.any_eq_true.2 ⟨n, hw, ?_⟩
    have := hk n (List.mem_filter.1 hr).1
    simp only [Bool.or_eq_true, decide_eq_true_eq]
    exact .inl (Nat.le_of_not_lt fun hl => this hl hw)
  · refine List.any_eq_true.2 ⟨n, hw, ?_⟩
    split at hr <;> simp at hr
    simp [hr]

/-- A group holds back no instruction that its claims `mayUpdate` let pass. -/
theorem Group.holdsSelf_of_mayUpdate {g : Group} {op : Nat} {fm : Form} {o : Opnd} {r : Out} (hk : r.keepsReads op fm o)
    (h : g.holdsSelf (mayUpdate op fm o) = false) : g.holdsSelf (selfUpdates op fm o r) = false := by
  cases hu : selfUpdates op fm o r
  · cases hm : mayUpdate op fm o <;> simp_all [Group.holdsSelf]
  · rw [mayUpdate_of_selfUpdates hk hu] at h
    exact h

/-- An instruction that executes normally issues with the answer of its body. -/
theorem issue_ready {s : State} {op : Nat} {fm : Form} {o : Opnd} {va vb vc : Word} {body : Iss → Try Out} {r : Out}
    (h : s.Ready op fm o va vb vc) (hb : body (s.iss op fm o va vb vc) = .ok r) (hn : r.np = none)
    (hrd : r.keepsReads op fm o)
    (hx : ((r.st.getD s.opened).thr s.curCore s.curThr).grp.n = s.me.grp.n)
    (hc : ((r.st.getD s.opened).thr s.curCore s.curThr).pc = s.me.pc) :
    ∃ t, issue op fm o body s = .next t ∧ s.Does t op fm o r := by
  have hg := h.gate
  have hr := h.rules
  have hd := h.duo
  have hs := h.sources
  have hf := Group.holdsSelf_of_mayUpdate hrd h.settled
  have hk : (selfUpdates op fm o r && s.me.grp.blocked) = false := by
    cases hu : selfUpdates op fm o r
    · rfl
    · have h1 := h.unblocked
      rwa [mayUpdate_of_selfUpdates hrd hu] at h1
  have hb' : body { s := s.opened, c := s.curCore, t := s.curThr, x := s.me, op := op, fm := fm, o := o
                    pos := s.me.grp.n, pc := s.me.pc, va := va, vb := vb, vc := vc } = .ok r := hb
  let i : Iss := { s := s.opened, c := s.curCore, t := s.curThr, x := s.me, op := op, fm := fm, o := o
                   pos := s.me.grp.n, pc := s.me.pc }
  let s1 := r.st.getD s.opened
  refine ⟨s1.setThr s.curCore s.curThr ((s1.thr s.curCore s.curThr).accept (s1.core s.curCore) s.cyc i r), ?_, ?_⟩
  · simp only [State.me, State.opened] at hg hr hd hs hf hb' hk
    simp only [issue, State.issue, State.me, State.opened, hg, hr, hd, hs, s1, i]
    simp only [bind, Except.bind, Bool.false_eq_true, if_false, hb', hf, hk]
  · refine ⟨?_, ?_⟩
    · refine ⟨?_, ?_, ?_, ?_⟩
      · cases hst : r.st <;> simp only [s1, hst] <;> rfl
      · intro d hne
        cases hst : r.st <;> simp only [s1, hst, Option.getD, State.opened, State.setThr_core_ne _ hne]
      · cases hst : r.st
        · simp only [s1, hst, Option.getD, State.opened]
          simp [State.setThr, Core.setThread]
        · simp only [s1, hst, Option.getD]
          exact State.setThr_core_rest ..
      · intro j hne
        cases hst : r.st <;> simp [s1, hst, State.opened, hne]
    · have e : (s1.setThr s.curCore s.curThr ((s1.thr s.curCore s.curThr).accept (s1.core s.curCore) s.cyc i r)).thr
          s.curCore s.curThr = (s1.thr s.curCore s.curThr).accept (s1.core s.curCore) s.cyc i r := by simp
      rw [e]
      exact Thread.accept_does _ _ _ i r hn hx.symm hc.symm

/-! ### The body of each opcode -/

/-- The same where the instruction claims nothing at issue. -/
theorem issue_ready_plain {s : State} {op : Nat} {fm : Form} {o : Opnd} {va vb vc : Word} {body : Iss → Try Out} {r : Out}
    (h : s.Ready op fm o va vb vc) (hb : body (s.iss op fm o va vb vc) = .ok r) (hn : r.np = none) (hs : r.st = none)
    (hrd : r.keepsReads op fm o) : ∃ t, issue op fm o body s = .next t ∧ s.Does t op fm o r :=
  issue_ready h hb hn hrd (by simp [hs, State.opened]) (by simp [hs, State.opened])

/-- What an instruction with a given opcode does where it executes normally; every form of an opcode does the same. -/
def bodyOf (op : Nat) : Iss → Try Out :=
  match op with
  | 0x00 => opNop
  | 0x01 => opJmp
  | 0x02 => (branchIf true)
  | 0x03 => (branchIf false)
  | 0x04 => opCall
  | 0x05 => opRet
  | 0x06 => opJr
  | 0x07 => opLoop
  | 0x08 => opYield
  | 0x09 => opTend
  | 0x0A => opTrap
  | 0x0B => opSysc
  | 0x0C => opIfence
  | 0x0D => opWaitf
  | 0x0E => opBrk
  | 0x10 => opAdd
  | 0x11 => opSub
  | 0x12 => opMul
  | 0x13 => opMulh
  | 0x14 => opMulhn
  | 0x15 => opDiv
  | 0x16 => opDivn
  | 0x17 => opRem
  | 0x18 => opRemn
  | 0x19 => opAnd
  | 0x1A => opOr
  | 0x1B => opXor
  | 0x1C => opShl
  | 0x1D => opShr
  | 0x1E => opSar
  | 0x1F => opRot
  | 0x20 => opAddi
  | 0x21 => opAndi
  | 0x22 => opOri
  | 0x23 => opXori
  | 0x24 => opShli
  | 0x25 => opShri
  | 0x26 => opSari
  | 0x27 => opLi
  | 0x28 => opLih
  | 0x29 => opMov
  | 0x2A => opSel
  | 0x2B => opClz
  | 0x2C => opPopc
  | 0x2D => opBswap
  | 0x2E => opBfx
  | 0x2F => opBfi
  | 0x30 => opCmp
  | 0x31 => opCmpi
  | 0x32 => opPand
  | 0x33 => opPor
  | 0x34 => opPxor
  | 0x35 => opPnot
  | 0x36 => opPtog
  | 0x37 => opGtop
  | 0x38 => opPmk
  | 0x39 => opPadd
  | 0x3A => opPaddi
  | 0x3B => opPsetf
  | 0x3C => opPsetb
  | 0x3D => opPhnd
  | 0x3E => opPoff
  | 0x3F => opPchk
  | 0x40 => opLd
  | 0x41 => opLds
  | 0x42 => opSt
  | 0x43 => opLda
  | 0x44 => opStl
  | 0x45 => opLdt
  | 0x46 => opStt
  | 0x47 => opLdp
  | 0x48 => opStp
  | 0x49 => opLdx
  | 0x4A => opStx
  | 0x50 => atomic
  | 0x51 => atomic
  | 0x52 => atomic
  | 0x53 => atomic
  | 0x54 => atomic
  | 0x55 => atomic
  | 0x56 => atomic
  | 0x57 => atomic
  | 0x58 => atomic
  | 0x59 => opFence
  | 0x5A => opTfence
  | 0x5B => opSbwait
  | 0x60 => opSend
  | 0x61 => opSendi
  | 0x62 => opEmpty
  | 0x63 => opMigr
  | 0x64 => opMigh
  | 0x65 => opRole
  | 0x66 => opRcast
  | 0x67 => opChmap
  | 0x68 => opMboxq
  | 0x69 => opPoisq
  | 0x70 => push
  | 0x71 => opDqpop
  | 0x72 => push
  | 0x73 => opGlnch
  | 0x74 => opWidf
  | 0x75 => opBara
  | 0x76 => opBarw
  | 0x77 => opBar
  | 0x78 => opSltw
  | 0x79 => opSltr
  | 0x7A => opCbinit
  | 0x7B => opCbarr
  | 0x7C => opCbwait
  | 0x7D => opCbph
  | 0x80 => opFadd
  | 0x81 => opFsub
  | 0x82 => opFmul
  | 0x83 => opFfma
  | 0x84 => opFdiv
  | 0x85 => opFsqrt
  | 0x86 => opFmin
  | 0x87 => opFmax
  | 0x88 => opFcmp
  | 0x89 => opFcvt
  | 0x8A => opFcls
  | 0x8B => opFtld
  | 0x8C => opEnc8
  | 0x8D => opDec8
  | 0x90 => vec
  | 0x91 => vec
  | 0x92 => vec
  | 0x93 => vec
  | 0x94 => vec
  | 0x95 => vec
  | 0x96 => vec
  | 0x97 => vec
  | 0x98 => vec
  | 0x99 => vec
  | 0x9A => vec
  | 0x9B => vec
  | 0x9C => vec
  | 0x9D => vec
  | 0x9E => vec
  | 0x9F => vec
  | 0xA0 => vec
  | 0xA1 => vec
  | 0xA2 => vec
  | 0xA3 => vec
  | 0xA4 => vec
  | 0xA5 => vec
  | 0xA6 => vec
  | 0xA7 => vec
  | 0xA8 => vec
  | 0xA9 => vec
  | 0xAA => vec
  | 0xAB => vec
  | 0xAC => vec
  | 0xAD => vec
  | 0xAE => vec
  | 0xAF => vec
  | 0xB0 => opVclaim
  | 0xB1 => opVrel
  | 0xB2 => vec
  | 0xB3 => vec
  | 0xB4 => vec
  | 0xB5 => vec
  | 0xB6 => vec
  | 0xB7 => vec
  | 0xB8 => vec
  | 0xB9 => vec
  | 0xBA => vec
  | 0xBB => vec
  | 0xC0 => opShld
  | 0xC1 => opShst
  | 0xC2 => opShset
  | 0xC3 => opShget
  | 0xC4 => opTown
  | 0xC5 => opTgive
  | 0xC6 => opTtag
  | 0xC7 => opCommand
  | 0xC8 => opTqry
  | 0xC9 => opQpush
  | 0xCA => opQpop
  | 0xCB => opQstat
  | 0xD0 => opCommand
  | 0xD1 => opCommand
  | 0xD2 => opCommand
  | 0xD3 => opCommand
  | 0xD4 => opCommand
  | 0xD5 => opCommand
  | 0xD6 => opCommand
  | 0xD7 => opCommand
  | 0xD8 => opCommand
  | 0xD9 => opSpstat
  | 0xE0 => opCommand
  | 0xE1 => opCommand
  | 0xE2 => opLcancel
  | 0xE3 => opLstat
  | 0xE4 => opCommand
  | 0xE5 => opCommand
  | 0xE6 => opCommand
  | 0xE7 => opCommand
  | 0xE8 => opCommand
  | 0xE9 => opCommand
  | 0xEA => opCommand
  | 0xEB => opCommand
  | 0xEC => opCcwait
  | 0xED => opCcrd
  | 0xEE => opCcset
  | 0xEF => opNstat
  | 0xF0 => opWalk
  | 0xF1 => opOpen
  | 0xF2 => opClose
  | 0xF3 => opBind
  | 0xF4 => opUnbind
  | 0xF5 => opRevoke
  | 0xF6 => opCsrr
  | 0xF7 => opCsrw
  | 0xF8 => opTret
  | 0xF9 => opPmack
  | 0xFA => opTshoot
  | 0xFB => opSstop
  | 0xFC => opPartw
  | 0xFD => opHalt
  | 0xFE => opAttq
  | _ => fun _ => .ok {}

@[simp] theorem bodyOf_00 : bodyOf 0x00 = opNop := rfl
@[simp] theorem bodyOf_01 : bodyOf 0x01 = opJmp := rfl
@[simp] theorem bodyOf_02 : bodyOf 0x02 = (branchIf true) := rfl
@[simp] theorem bodyOf_03 : bodyOf 0x03 = (branchIf false) := rfl
@[simp] theorem bodyOf_04 : bodyOf 0x04 = opCall := rfl
@[simp] theorem bodyOf_05 : bodyOf 0x05 = opRet := rfl
@[simp] theorem bodyOf_06 : bodyOf 0x06 = opJr := rfl
@[simp] theorem bodyOf_07 : bodyOf 0x07 = opLoop := rfl
@[simp] theorem bodyOf_08 : bodyOf 0x08 = opYield := rfl
@[simp] theorem bodyOf_09 : bodyOf 0x09 = opTend := rfl
@[simp] theorem bodyOf_0a : bodyOf 0x0A = opTrap := rfl
@[simp] theorem bodyOf_0b : bodyOf 0x0B = opSysc := rfl
@[simp] theorem bodyOf_0c : bodyOf 0x0C = opIfence := rfl
@[simp] theorem bodyOf_0d : bodyOf 0x0D = opWaitf := rfl
@[simp] theorem bodyOf_0e : bodyOf 0x0E = opBrk := rfl
@[simp] theorem bodyOf_10 : bodyOf 0x10 = opAdd := rfl
@[simp] theorem bodyOf_11 : bodyOf 0x11 = opSub := rfl
@[simp] theorem bodyOf_12 : bodyOf 0x12 = opMul := rfl
@[simp] theorem bodyOf_13 : bodyOf 0x13 = opMulh := rfl
@[simp] theorem bodyOf_14 : bodyOf 0x14 = opMulhn := rfl
@[simp] theorem bodyOf_15 : bodyOf 0x15 = opDiv := rfl
@[simp] theorem bodyOf_16 : bodyOf 0x16 = opDivn := rfl
@[simp] theorem bodyOf_17 : bodyOf 0x17 = opRem := rfl
@[simp] theorem bodyOf_18 : bodyOf 0x18 = opRemn := rfl
@[simp] theorem bodyOf_19 : bodyOf 0x19 = opAnd := rfl
@[simp] theorem bodyOf_1a : bodyOf 0x1A = opOr := rfl
@[simp] theorem bodyOf_1b : bodyOf 0x1B = opXor := rfl
@[simp] theorem bodyOf_1c : bodyOf 0x1C = opShl := rfl
@[simp] theorem bodyOf_1d : bodyOf 0x1D = opShr := rfl
@[simp] theorem bodyOf_1e : bodyOf 0x1E = opSar := rfl
@[simp] theorem bodyOf_1f : bodyOf 0x1F = opRot := rfl
@[simp] theorem bodyOf_20 : bodyOf 0x20 = opAddi := rfl
@[simp] theorem bodyOf_21 : bodyOf 0x21 = opAndi := rfl
@[simp] theorem bodyOf_22 : bodyOf 0x22 = opOri := rfl
@[simp] theorem bodyOf_23 : bodyOf 0x23 = opXori := rfl
@[simp] theorem bodyOf_24 : bodyOf 0x24 = opShli := rfl
@[simp] theorem bodyOf_25 : bodyOf 0x25 = opShri := rfl
@[simp] theorem bodyOf_26 : bodyOf 0x26 = opSari := rfl
@[simp] theorem bodyOf_27 : bodyOf 0x27 = opLi := rfl
@[simp] theorem bodyOf_28 : bodyOf 0x28 = opLih := rfl
@[simp] theorem bodyOf_29 : bodyOf 0x29 = opMov := rfl
@[simp] theorem bodyOf_2a : bodyOf 0x2A = opSel := rfl
@[simp] theorem bodyOf_2b : bodyOf 0x2B = opClz := rfl
@[simp] theorem bodyOf_2c : bodyOf 0x2C = opPopc := rfl
@[simp] theorem bodyOf_2d : bodyOf 0x2D = opBswap := rfl
@[simp] theorem bodyOf_2e : bodyOf 0x2E = opBfx := rfl
@[simp] theorem bodyOf_2f : bodyOf 0x2F = opBfi := rfl
@[simp] theorem bodyOf_30 : bodyOf 0x30 = opCmp := rfl
@[simp] theorem bodyOf_31 : bodyOf 0x31 = opCmpi := rfl
@[simp] theorem bodyOf_32 : bodyOf 0x32 = opPand := rfl
@[simp] theorem bodyOf_33 : bodyOf 0x33 = opPor := rfl
@[simp] theorem bodyOf_34 : bodyOf 0x34 = opPxor := rfl
@[simp] theorem bodyOf_35 : bodyOf 0x35 = opPnot := rfl
@[simp] theorem bodyOf_36 : bodyOf 0x36 = opPtog := rfl
@[simp] theorem bodyOf_37 : bodyOf 0x37 = opGtop := rfl
@[simp] theorem bodyOf_38 : bodyOf 0x38 = opPmk := rfl
@[simp] theorem bodyOf_39 : bodyOf 0x39 = opPadd := rfl
@[simp] theorem bodyOf_3a : bodyOf 0x3A = opPaddi := rfl
@[simp] theorem bodyOf_3b : bodyOf 0x3B = opPsetf := rfl
@[simp] theorem bodyOf_3c : bodyOf 0x3C = opPsetb := rfl
@[simp] theorem bodyOf_3d : bodyOf 0x3D = opPhnd := rfl
@[simp] theorem bodyOf_3e : bodyOf 0x3E = opPoff := rfl
@[simp] theorem bodyOf_3f : bodyOf 0x3F = opPchk := rfl
@[simp] theorem bodyOf_40 : bodyOf 0x40 = opLd := rfl
@[simp] theorem bodyOf_41 : bodyOf 0x41 = opLds := rfl
@[simp] theorem bodyOf_42 : bodyOf 0x42 = opSt := rfl
@[simp] theorem bodyOf_43 : bodyOf 0x43 = opLda := rfl
@[simp] theorem bodyOf_44 : bodyOf 0x44 = opStl := rfl
@[simp] theorem bodyOf_45 : bodyOf 0x45 = opLdt := rfl
@[simp] theorem bodyOf_46 : bodyOf 0x46 = opStt := rfl
@[simp] theorem bodyOf_47 : bodyOf 0x47 = opLdp := rfl
@[simp] theorem bodyOf_48 : bodyOf 0x48 = opStp := rfl
@[simp] theorem bodyOf_49 : bodyOf 0x49 = opLdx := rfl
@[simp] theorem bodyOf_4a : bodyOf 0x4A = opStx := rfl
@[simp] theorem bodyOf_50 : bodyOf 0x50 = atomic := rfl
@[simp] theorem bodyOf_51 : bodyOf 0x51 = atomic := rfl
@[simp] theorem bodyOf_52 : bodyOf 0x52 = atomic := rfl
@[simp] theorem bodyOf_53 : bodyOf 0x53 = atomic := rfl
@[simp] theorem bodyOf_54 : bodyOf 0x54 = atomic := rfl
@[simp] theorem bodyOf_55 : bodyOf 0x55 = atomic := rfl
@[simp] theorem bodyOf_56 : bodyOf 0x56 = atomic := rfl
@[simp] theorem bodyOf_57 : bodyOf 0x57 = atomic := rfl
@[simp] theorem bodyOf_58 : bodyOf 0x58 = atomic := rfl
@[simp] theorem bodyOf_59 : bodyOf 0x59 = opFence := rfl
@[simp] theorem bodyOf_5a : bodyOf 0x5A = opTfence := rfl
@[simp] theorem bodyOf_5b : bodyOf 0x5B = opSbwait := rfl
@[simp] theorem bodyOf_60 : bodyOf 0x60 = opSend := rfl
@[simp] theorem bodyOf_61 : bodyOf 0x61 = opSendi := rfl
@[simp] theorem bodyOf_62 : bodyOf 0x62 = opEmpty := rfl
@[simp] theorem bodyOf_63 : bodyOf 0x63 = opMigr := rfl
@[simp] theorem bodyOf_64 : bodyOf 0x64 = opMigh := rfl
@[simp] theorem bodyOf_65 : bodyOf 0x65 = opRole := rfl
@[simp] theorem bodyOf_66 : bodyOf 0x66 = opRcast := rfl
@[simp] theorem bodyOf_67 : bodyOf 0x67 = opChmap := rfl
@[simp] theorem bodyOf_68 : bodyOf 0x68 = opMboxq := rfl
@[simp] theorem bodyOf_69 : bodyOf 0x69 = opPoisq := rfl
@[simp] theorem bodyOf_70 : bodyOf 0x70 = push := rfl
@[simp] theorem bodyOf_71 : bodyOf 0x71 = opDqpop := rfl
@[simp] theorem bodyOf_72 : bodyOf 0x72 = push := rfl
@[simp] theorem bodyOf_73 : bodyOf 0x73 = opGlnch := rfl
@[simp] theorem bodyOf_74 : bodyOf 0x74 = opWidf := rfl
@[simp] theorem bodyOf_75 : bodyOf 0x75 = opBara := rfl
@[simp] theorem bodyOf_76 : bodyOf 0x76 = opBarw := rfl
@[simp] theorem bodyOf_77 : bodyOf 0x77 = opBar := rfl
@[simp] theorem bodyOf_78 : bodyOf 0x78 = opSltw := rfl
@[simp] theorem bodyOf_79 : bodyOf 0x79 = opSltr := rfl
@[simp] theorem bodyOf_7a : bodyOf 0x7A = opCbinit := rfl
@[simp] theorem bodyOf_7b : bodyOf 0x7B = opCbarr := rfl
@[simp] theorem bodyOf_7c : bodyOf 0x7C = opCbwait := rfl
@[simp] theorem bodyOf_7d : bodyOf 0x7D = opCbph := rfl
@[simp] theorem bodyOf_80 : bodyOf 0x80 = opFadd := rfl
@[simp] theorem bodyOf_81 : bodyOf 0x81 = opFsub := rfl
@[simp] theorem bodyOf_82 : bodyOf 0x82 = opFmul := rfl
@[simp] theorem bodyOf_83 : bodyOf 0x83 = opFfma := rfl
@[simp] theorem bodyOf_84 : bodyOf 0x84 = opFdiv := rfl
@[simp] theorem bodyOf_85 : bodyOf 0x85 = opFsqrt := rfl
@[simp] theorem bodyOf_86 : bodyOf 0x86 = opFmin := rfl
@[simp] theorem bodyOf_87 : bodyOf 0x87 = opFmax := rfl
@[simp] theorem bodyOf_88 : bodyOf 0x88 = opFcmp := rfl
@[simp] theorem bodyOf_89 : bodyOf 0x89 = opFcvt := rfl
@[simp] theorem bodyOf_8a : bodyOf 0x8A = opFcls := rfl
@[simp] theorem bodyOf_8b : bodyOf 0x8B = opFtld := rfl
@[simp] theorem bodyOf_8c : bodyOf 0x8C = opEnc8 := rfl
@[simp] theorem bodyOf_8d : bodyOf 0x8D = opDec8 := rfl
@[simp] theorem bodyOf_90 : bodyOf 0x90 = vec := rfl
@[simp] theorem bodyOf_91 : bodyOf 0x91 = vec := rfl
@[simp] theorem bodyOf_92 : bodyOf 0x92 = vec := rfl
@[simp] theorem bodyOf_93 : bodyOf 0x93 = vec := rfl
@[simp] theorem bodyOf_94 : bodyOf 0x94 = vec := rfl
@[simp] theorem bodyOf_95 : bodyOf 0x95 = vec := rfl
@[simp] theorem bodyOf_96 : bodyOf 0x96 = vec := rfl
@[simp] theorem bodyOf_97 : bodyOf 0x97 = vec := rfl
@[simp] theorem bodyOf_98 : bodyOf 0x98 = vec := rfl
@[simp] theorem bodyOf_99 : bodyOf 0x99 = vec := rfl
@[simp] theorem bodyOf_9a : bodyOf 0x9A = vec := rfl
@[simp] theorem bodyOf_9b : bodyOf 0x9B = vec := rfl
@[simp] theorem bodyOf_9c : bodyOf 0x9C = vec := rfl
@[simp] theorem bodyOf_9d : bodyOf 0x9D = vec := rfl
@[simp] theorem bodyOf_9e : bodyOf 0x9E = vec := rfl
@[simp] theorem bodyOf_9f : bodyOf 0x9F = vec := rfl
@[simp] theorem bodyOf_a0 : bodyOf 0xA0 = vec := rfl
@[simp] theorem bodyOf_a1 : bodyOf 0xA1 = vec := rfl
@[simp] theorem bodyOf_a2 : bodyOf 0xA2 = vec := rfl
@[simp] theorem bodyOf_a3 : bodyOf 0xA3 = vec := rfl
@[simp] theorem bodyOf_a4 : bodyOf 0xA4 = vec := rfl
@[simp] theorem bodyOf_a5 : bodyOf 0xA5 = vec := rfl
@[simp] theorem bodyOf_a6 : bodyOf 0xA6 = vec := rfl
@[simp] theorem bodyOf_a7 : bodyOf 0xA7 = vec := rfl
@[simp] theorem bodyOf_a8 : bodyOf 0xA8 = vec := rfl
@[simp] theorem bodyOf_a9 : bodyOf 0xA9 = vec := rfl
@[simp] theorem bodyOf_aa : bodyOf 0xAA = vec := rfl
@[simp] theorem bodyOf_ab : bodyOf 0xAB = vec := rfl
@[simp] theorem bodyOf_ac : bodyOf 0xAC = vec := rfl
@[simp] theorem bodyOf_ad : bodyOf 0xAD = vec := rfl
@[simp] theorem bodyOf_ae : bodyOf 0xAE = vec := rfl
@[simp] theorem bodyOf_af : bodyOf 0xAF = vec := rfl
@[simp] theorem bodyOf_b0 : bodyOf 0xB0 = opVclaim := rfl
@[simp] theorem bodyOf_b1 : bodyOf 0xB1 = opVrel := rfl
@[simp] theorem bodyOf_b2 : bodyOf 0xB2 = vec := rfl
@[simp] theorem bodyOf_b3 : bodyOf 0xB3 = vec := rfl
@[simp] theorem bodyOf_b4 : bodyOf 0xB4 = vec := rfl
@[simp] theorem bodyOf_b5 : bodyOf 0xB5 = vec := rfl
@[simp] theorem bodyOf_b6 : bodyOf 0xB6 = vec := rfl
@[simp] theorem bodyOf_b7 : bodyOf 0xB7 = vec := rfl
@[simp] theorem bodyOf_b8 : bodyOf 0xB8 = vec := rfl
@[simp] theorem bodyOf_b9 : bodyOf 0xB9 = vec := rfl
@[simp] theorem bodyOf_ba : bodyOf 0xBA = vec := rfl
@[simp] theorem bodyOf_bb : bodyOf 0xBB = vec := rfl
@[simp] theorem bodyOf_c0 : bodyOf 0xC0 = opShld := rfl
@[simp] theorem bodyOf_c1 : bodyOf 0xC1 = opShst := rfl
@[simp] theorem bodyOf_c2 : bodyOf 0xC2 = opShset := rfl
@[simp] theorem bodyOf_c3 : bodyOf 0xC3 = opShget := rfl
@[simp] theorem bodyOf_c4 : bodyOf 0xC4 = opTown := rfl
@[simp] theorem bodyOf_c5 : bodyOf 0xC5 = opTgive := rfl
@[simp] theorem bodyOf_c6 : bodyOf 0xC6 = opTtag := rfl
@[simp] theorem bodyOf_c7 : bodyOf 0xC7 = opCommand := rfl
@[simp] theorem bodyOf_c8 : bodyOf 0xC8 = opTqry := rfl
@[simp] theorem bodyOf_c9 : bodyOf 0xC9 = opQpush := rfl
@[simp] theorem bodyOf_ca : bodyOf 0xCA = opQpop := rfl
@[simp] theorem bodyOf_cb : bodyOf 0xCB = opQstat := rfl
@[simp] theorem bodyOf_d0 : bodyOf 0xD0 = opCommand := rfl
@[simp] theorem bodyOf_d1 : bodyOf 0xD1 = opCommand := rfl
@[simp] theorem bodyOf_d2 : bodyOf 0xD2 = opCommand := rfl
@[simp] theorem bodyOf_d3 : bodyOf 0xD3 = opCommand := rfl
@[simp] theorem bodyOf_d4 : bodyOf 0xD4 = opCommand := rfl
@[simp] theorem bodyOf_d5 : bodyOf 0xD5 = opCommand := rfl
@[simp] theorem bodyOf_d6 : bodyOf 0xD6 = opCommand := rfl
@[simp] theorem bodyOf_d7 : bodyOf 0xD7 = opCommand := rfl
@[simp] theorem bodyOf_d8 : bodyOf 0xD8 = opCommand := rfl
@[simp] theorem bodyOf_d9 : bodyOf 0xD9 = opSpstat := rfl
@[simp] theorem bodyOf_e0 : bodyOf 0xE0 = opCommand := rfl
@[simp] theorem bodyOf_e1 : bodyOf 0xE1 = opCommand := rfl
@[simp] theorem bodyOf_e2 : bodyOf 0xE2 = opLcancel := rfl
@[simp] theorem bodyOf_e3 : bodyOf 0xE3 = opLstat := rfl
@[simp] theorem bodyOf_e4 : bodyOf 0xE4 = opCommand := rfl
@[simp] theorem bodyOf_e5 : bodyOf 0xE5 = opCommand := rfl
@[simp] theorem bodyOf_e6 : bodyOf 0xE6 = opCommand := rfl
@[simp] theorem bodyOf_e7 : bodyOf 0xE7 = opCommand := rfl
@[simp] theorem bodyOf_e8 : bodyOf 0xE8 = opCommand := rfl
@[simp] theorem bodyOf_e9 : bodyOf 0xE9 = opCommand := rfl
@[simp] theorem bodyOf_ea : bodyOf 0xEA = opCommand := rfl
@[simp] theorem bodyOf_eb : bodyOf 0xEB = opCommand := rfl
@[simp] theorem bodyOf_ec : bodyOf 0xEC = opCcwait := rfl
@[simp] theorem bodyOf_ed : bodyOf 0xED = opCcrd := rfl
@[simp] theorem bodyOf_ee : bodyOf 0xEE = opCcset := rfl
@[simp] theorem bodyOf_ef : bodyOf 0xEF = opNstat := rfl
@[simp] theorem bodyOf_f0 : bodyOf 0xF0 = opWalk := rfl
@[simp] theorem bodyOf_f1 : bodyOf 0xF1 = opOpen := rfl
@[simp] theorem bodyOf_f2 : bodyOf 0xF2 = opClose := rfl
@[simp] theorem bodyOf_f3 : bodyOf 0xF3 = opBind := rfl
@[simp] theorem bodyOf_f4 : bodyOf 0xF4 = opUnbind := rfl
@[simp] theorem bodyOf_f5 : bodyOf 0xF5 = opRevoke := rfl
@[simp] theorem bodyOf_f6 : bodyOf 0xF6 = opCsrr := rfl
@[simp] theorem bodyOf_f7 : bodyOf 0xF7 = opCsrw := rfl
@[simp] theorem bodyOf_f8 : bodyOf 0xF8 = opTret := rfl
@[simp] theorem bodyOf_f9 : bodyOf 0xF9 = opPmack := rfl
@[simp] theorem bodyOf_fa : bodyOf 0xFA = opTshoot := rfl
@[simp] theorem bodyOf_fb : bodyOf 0xFB = opSstop := rfl
@[simp] theorem bodyOf_fc : bodyOf 0xFC = opPartw := rfl
@[simp] theorem bodyOf_fd : bodyOf 0xFD = opHalt := rfl
@[simp] theorem bodyOf_fe : bodyOf 0xFE = opAttq := rfl

/-- The meaning of a CPU instruction is its issue with the body of its opcode. -/
theorem exec_issue {i : Instr} {op : Nat} {fm : Form} {o : Opnd} (h : i.view = some (op, fm, o)) (s : State) :
    exec i s = issue op fm o (bodyOf op) s := by
  cases i <;> cases h <;> rfl

end Sys2Proof.Machine
end

