-- ==== Sys2Proof/Laws/Memory.lean ====
section
/-! SUPPORT. Every operation that writes memory keeps its canonical form. -/

namespace Sys2Proof.Machine

theorem State.settleByte_memWf (s : State) (w : WByte) (h : s.memWf) : (s.settleByte w).memWf :=
  SMap.wf_set _ _ _ h

theorem State.settleBytes_memWf (l : List WByte) (s : State) (h : s.memWf) :
    (l.foldl (fun st w => st.settleByte w) s).memWf := by
  induction l generalizing s with
  | nil => exact h
  | cons w l ih => exact ih _ (s.settleByte_memWf w h)

/-- The step by which the frontiers take a write (R333). -/
theorem State.propagate_memWf (s : State) (busy : Nat → Bool) (ev : Nat) (h : s.memWf) : (s.propagate busy ev).memWf :=
  State.settleBytes_memWf _ _ h

/-- A write of the firmware or of a device. -/
theorem State.poke_memWf (s : State) (l : Nat) (bs : List Byte) (h : s.memWf) : (s.poke l bs).memWf :=
  SMap.wf_foldl_set _ _ _ _ h

/-- The clearing of a range. -/
theorem State.zeroRange_memWf (s : State) (l n : Nat) (h : s.memWf) : (s.zeroRange l n).memWf :=
  SMap.wf_filter _ _ h

theorem rowsOf_sorted (bs : List Byte) : ∀ (l lo : Nat) (t : List Host.Cell), lo ≤ l →
    SMap.sortedFrom (l + bs.length) t = true → SMap.sortedFrom lo (rowsOf l bs ++ t) = true := by
  induction bs with
  | nil => intro l lo t hl ht; exact SMap.sortedFrom_mono hl ht
  | cons b bs ih =>
    intro l lo t hl ht
    have ht' : SMap.sortedFrom (l + 1 + bs.length) t = true := by
      rw [show l + 1 + bs.length = l + (b :: bs).length by simp only [List.length_cons]; omega]; exact ht
    simp only [rowsOf]
    split
    · exact ih (l + 1) lo t (by omega) ht'
    · simp only [List.cons_append, SMap.sortedFrom, Bool.and_eq_true, decide_eq_true_eq]
      exact ⟨hl, ih (l + 1) (l + 1) t (Nat.le_refl _) ht'⟩

theorem rowsOf_noDefault (bs : List Byte) : ∀ l : Nat, SMap.noDefault 0#8 (rowsOf l bs) = true := by
  induction bs with
  | nil => intro l; rfl
  | cons b bs ih =>
    intro l
    simp only [rowsOf]
    split
    · exact ih (l + 1)
    · next hb =>
      simp only [SMap.noDefault, List.all_cons, Bool.and_eq_true, decide_eq_true_eq]
      exact ⟨hb, ih (l + 1)⟩

/-- Rows below a bound, followed by rows from it on, rise. -/
theorem sortedFrom_below_append (b : Nat) (t : List Host.Cell) (ht : SMap.sortedFrom b t = true) (m : List Host.Cell) :
    ∀ lo, lo ≤ b → SMap.sortedFrom lo m = true → SMap.sortedFrom lo (m.filter (fun r => r.1 < b) ++ t) = true := by
  induction m with
  | nil => intro lo hlo _; exact SMap.sortedFrom_mono hlo ht
  | cons r m ih =>
    intro lo hlo hm
    obtain ⟨k, v⟩ := r
    simp only [SMap.sortedFrom, Bool.and_eq_true, decide_eq_true_eq] at hm
    simp only [List.filter_cons]
    split
    · next hk =>
      have hk' : k < b := by simpa using hk
      simp only [List.cons_append, SMap.sortedFrom, Bool.and_eq_true, decide_eq_true_eq]
      exact ⟨hm.1, ih (k + 1) hk' hm.2⟩
    · exact ih lo hlo (SMap.sortedFrom_mono (by omega) hm.2)

/-- Rows from a bound on rise from that bound. -/
theorem sortedFrom_above (b : Nat) (m : List Host.Cell) :
    ∀ lo, SMap.sortedFrom lo m = true → SMap.sortedFrom b (m.filter (fun r => b ≤ r.1)) = true := by
  induction m with
  | nil => intros; rfl
  | cons r m ih =>
    intro lo hm
    obtain ⟨k, v⟩ := r
    simp only [SMap.sortedFrom, Bool.and_eq_true, decide_eq_true_eq] at hm
    simp only [List.filter_cons]
    split
    · next hk =>
      have hk' : b ≤ k := by simpa using hk
      simp only [SMap.sortedFrom, Bool.and_eq_true, decide_eq_true_eq]
      exact ⟨hk', SMap.sortedFrom_filter _ hm.2⟩
    · exact ih _ hm.2

/-- A long write of the firmware. -/
theorem State.blit_memWf (s : State) (l : Nat) (bs : List Byte) (h : s.memWf) : (s.blit l bs).memWf := by
  simp only [State.memWf, Memory.wf, SMap.wf, Bool.and_eq_true] at h ⊢
  refine ⟨?_, ?_⟩
  · simp only [State.blit, List.append_assoc]
    exact sortedFrom_below_append l _ (rowsOf_sorted bs l l _ (Nat.le_refl _) (sortedFrom_above _ _ 0 h.1)) _ 0 (Nat.zero_le _) h.1
  · have h2 := h.2
    have h3 := rowsOf_noDefault bs l
    simp only [State.blit, SMap.noDefault, List.all_append, Bool.and_eq_true] at h2 h3 ⊢
    simp only [List.all_eq_true] at h2 h3 ⊢
    exact ⟨⟨fun x hx => h2 x (List.mem_filter.mp hx).1, h3⟩, fun x hx => h2 x (List.mem_filter.mp hx).1⟩

/-- Rows under other keys. -/
theorem rekey_wf (f : Nat → Nat) (m : List Host.Cell) : Memory.wf (rekey 0#8 f m) = true :=
  SMap.wf_foldl_set 0#8 (fun r : Nat × Byte => f r.1) (fun r => r.2) m rfl

/-- The move of a core's state. -/
theorem State.moveCore_memWf (s : State) (c r : Nat) : (s.moveCore c r).memWf := rekey_wf _ _

/-- A fold whose steps keep the form keeps it. -/
theorem State.foldl_memWf {α : Type} (f : State → α → State) (hf : ∀ s a, s.memWf → (f s a).memWf) (l : List α) (s : State)
    (h : s.memWf) : (l.foldl f s).memWf := by
  induction l generalizing s with
  | nil => exact h
  | cons a l ih => exact ih _ (hf s a h)

/-- The bytes of a save written back (R380). -/
theorem State.putBytes_memWf (s : State) (m : Relo) (v : Save) (good : Nat → Bool) (h : s.memWf) :
    (s.putBytes m v good).memWf := by
  unfold State.putBytes
  refine SMap.wf_foldl_set _ _ _ _ (State.foldl_memWf _ (fun s a h => ?_) _ _ (State.foldl_memWf _ (fun s a h => ?_) _ _ h))
  · split
    · exact State.foldl_memWf _ (fun s t h => s.zeroRange_memWf _ _ h) _ _ h
    · exact h
  · split
    · exact s.zeroRange_memWf _ _ h
    · exact h

end Sys2Proof.Machine
end

