-- ==== Sys2Proof/Laws/PerInstr.lean ====
section
/-! SUPPORT. The statements made of every instruction, one lemma for each constructor. -/

namespace Sys2Proof.Laws

/-- An encoded head is a 16-bit word, and its tail has no bit beyond the bytes that the head's TL gives it (R41, R43). -/
def Fits.Statement (i : Instr) : Prop :=
  i.wf = true → ∀ e, encode i = some e → e.head < 2 ^ 16 ∧ e.tail < 256 ^ tlBytes e.head

theorem fits_of {s p : Bool} {tl op d t n : Nat} (ht : tl < 4) (ho : op < 256) (hd : d < 16)
    (hn : n = if tl = 0 then 0 else if tl = 1 then 2 else if tl = 2 then 4 else 8) (hl : t < 256 ^ n) :
    mkHead s p tl op d < 2 ^ 16 ∧ t < 256 ^ tlBytes (mkHead s p tl op d) :=
  ⟨mkHead_lt s p ht ho hd, by rw [tlBytes_mkHead s p ht ho hd, ← hn]; exact hl⟩

theorem fits_raw {f : FRaw} (h : f.fits = true) :
    mkHead f.s f.p f.tl.toNat f.op.toNat f.d.toNat < 2 ^ 16
      ∧ f.tail.toNat < 256 ^ tlBytes (mkHead f.s f.p f.tl.toNat f.op.toNat f.d.toNat) := by
  refine fits_of f.tl.isLt f.op.isLt f.d.isLt rfl ?_
  have hb := f.tail.isLt
  have ht := f.tl.isLt
  revert h hb ht
  unfold FRaw.fits
  generalize f.tail.toNat = x
  generalize f.tl.toNat = k
  intro h hb ht
  rcases k with _ | _ | _ | _ | k
  · simp_all
  · simpa using h
  · simpa using h
  · simpa using hb
  · omega

theorem Fits.nop (f : F0) : Fits.Statement (.nop f) := by
  intro _ e h; cases h; exact fits_of (by decide) (by decide) f.d.isLt rfl (Nat.one_pos)
theorem Fits.jmp (f : F4b) : Fits.Statement (.jmp f) := by
  intro _ e h; cases h; exact fits_of (by decide) (by decide) f.d.isLt rfl f.tail_lt
theorem Fits.jp (f : F4b) : Fits.Statement (.jp f) := by
  intro _ e h; cases h; exact fits_of (by decide) (by decide) f.d.isLt rfl f.tail_lt
theorem Fits.jnp (f : F4b) : Fits.Statement (.jnp f) := by
  intro _ e h; cases h; exact fits_of (by decide) (by decide) f.d.isLt rfl f.tail_lt
theorem Fits.callT2 (f : F2) : Fits.Statement (.callT2 f) := by
  intro _ e h; cases h; exact fits_of (by decide) (by decide) f.d.isLt rfl f.tail_lt
theorem Fits.callT4b (f : F4b) : Fits.Statement (.callT4b f) := by
  intro _ e h; cases h; exact fits_of (by decide) (by decide) f.d.isLt rfl f.tail_lt
theorem Fits.retT0 (f : F0) : Fits.Statement (.retT0 f) := by
  intro _ e h; cases h; exact fits_of (by decide) (by decide) f.d.isLt rfl (Nat.one_pos)
theorem Fits.retT4 (f : F4) : Fits.Statement (.retT4 f) := by
  intro _ e h; cases h; exact fits_of (by decide) (by decide) f.d.isLt rfl f.tail_lt
theorem Fits.jrT2 (f : F2) : Fits.Statement (.jrT2 f) := by
  intro _ e h; cases h; exact fits_of (by decide) (by decide) f.d.isLt rfl f.tail_lt
theorem Fits.jrT4 (f : F4) : Fits.Statement (.jrT4 f) := by
  intro _ e h; cases h; exact fits_of (by decide) (by decide) f.d.isLt rfl f.tail_lt
theorem Fits.loop (f : F4b) : Fits.Statement (.loop f) := by
  intro _ e h; cases h; exact fits_of (by decide) (by decide) f.d.isLt rfl f.tail_lt
theorem Fits.yieldT0 (f : F0) : Fits.Statement (.yieldT0 f) := by
  intro _ e h; cases h; exact fits_of (by decide) (by decide) f.d.isLt rfl (Nat.one_pos)
theorem Fits.yieldT4 (f : F4) : Fits.Statement (.yieldT4 f) := by
  intro _ e h; cases h; exact fits_of (by decide) (by decide) f.d.isLt rfl f.tail_lt
theorem Fits.tendT0 (f : F0) : Fits.Statement (.tendT0 f) := by
  intro _ e h; cases h; exact fits_of (by decide) (by decide) f.d.isLt rfl (Nat.one_pos)
theorem Fits.tendT4 (f : F4) : Fits.Statement (.tendT4 f) := by
  intro _ e h; cases h; exact fits_of (by decide) (by decide) f.d.isLt rfl f.tail_lt
theorem Fits.trapT0 (f : F0) : Fits.Statement (.trapT0 f) := by
  intro _ e h; cases h; exact fits_of (by decide) (by decide) f.d.isLt rfl (Nat.one_pos)
theorem Fits.trapT4 (f : F4) : Fits.Statement (.trapT4 f) := by
  intro _ e h; cases h; exact fits_of (by decide) (by decide) f.d.isLt rfl f.tail_lt
theorem Fits.sysc (f : F4) : Fits.Statement (.sysc f) := by
  intro _ e h; cases h; exact fits_of (by decide) (by decide) f.d.isLt rfl f.tail_lt
theorem Fits.ifenceT0 (f : F0) : Fits.Statement (.ifenceT0 f) := by
  intro _ e h; cases h; exact fits_of (by decide) (by decide) f.d.isLt rfl (Nat.one_pos)
theorem Fits.ifenceT4 (f : F4) : Fits.Statement (.ifenceT4 f) := by
  intro _ e h; cases h; exact fits_of (by decide) (by decide) f.d.isLt rfl f.tail_lt
theorem Fits.waitfT0 (f : F0) : Fits.Statement (.waitfT0 f) := by
  intro _ e h; cases h; exact fits_of (by decide) (by decide) f.d.isLt rfl (Nat.one_pos)
theorem Fits.waitfT4 (f : F4) : Fits.Statement (.waitfT4 f) := by
  intro _ e h; cases h; exact fits_of (by decide) (by decide) f.d.isLt rfl f.tail_lt
theorem Fits.brk (f : F0) : Fits.Statement (.brk f) := by
  intro _ e h; cases h; exact fits_of (by decide) (by decide) f.d.isLt rfl (Nat.one_pos)
theorem Fits.addT2 (f : F2) : Fits.Statement (.addT2 f) := by
  intro _ e h; cases h; exact fits_of (by decide) (by decide) f.d.isLt rfl f.tail_lt
theorem Fits.addT4 (f : F4) : Fits.Statement (.addT4 f) := by
  intro _ e h; cases h; exact fits_of (by decide) (by decide) f.d.isLt rfl f.tail_lt
theorem Fits.subT2 (f : F2) : Fits.Statement (.subT2 f) := by
  intro _ e h; cases h; exact fits_of (by decide) (by decide) f.d.isLt rfl f.tail_lt
theorem Fits.subT4 (f : F4) : Fits.Statement (.subT4 f) := by
  intro _ e h; cases h; exact fits_of (by decide) (by decide) f.d.isLt rfl f.tail_lt
theorem Fits.mulT2 (f : F2) : Fits.Statement (.mulT2 f) := by
  intro _ e h; cases h; exact fits_of (by decide) (by decide) f.d.isLt rfl f.tail_lt
theorem Fits.mulT4 (f : F4) : Fits.Statement (.mulT4 f) := by
  intro _ e h; cases h; exact fits_of (by decide) (by decide) f.d.isLt rfl f.tail_lt
theorem Fits.mulhT2 (f : F2) : Fits.Statement (.mulhT2 f) := by
  intro _ e h; cases h; exact fits_of (by decide) (by decide) f.d.isLt rfl f.tail_lt
theorem Fits.mulhT4 (f : F4) : Fits.Statement (.mulhT4 f) := by
  intro _ e h; cases h; exact fits_of (by decide) (by decide) f.d.isLt rfl f.tail_lt
theorem Fits.mulhnT2 (f : F2) : Fits.Statement (.mulhnT2 f) := by
  intro _ e h; cases h; exact fits_of (by decide) (by decide) f.d.isLt rfl f.tail_lt
theorem Fits.mulhnT4 (f : F4) : Fits.Statement (.mulhnT4 f) := by
  intro _ e h; cases h; exact fits_of (by decide) (by decide) f.d.isLt rfl f.tail_lt
theorem Fits.divT2 (f : F2) : Fits.Statement (.divT2 f) := by
  intro _ e h; cases h; exact fits_of (by decide) (by decide) f.d.isLt rfl f.tail_lt
theorem Fits.divT4 (f : F4) : Fits.Statement (.divT4 f) := by
  intro _ e h; cases h; exact fits_of (by decide) (by decide) f.d.isLt rfl f.tail_lt
theorem Fits.divnT2 (f : F2) : Fits.Statement (.divnT2 f) := by
  intro _ e h; cases h; exact fits_of (by decide) (by decide) f.d.isLt rfl f.tail_lt
theorem Fits.divnT4 (f : F4) : Fits.Statement (.divnT4 f) := by
  intro _ e h; cases h; exact fits_of (by decide) (by decide) f.d.isLt rfl f.tail_lt
theorem Fits.remT2 (f : F2) : Fits.Statement (.remT2 f) := by
  intro _ e h; cases h; exact fits_of (by decide) (by decide) f.d.isLt rfl f.tail_lt
theorem Fits.remT4 (f : F4) : Fits.Statement (.remT4 f) := by
  intro _ e h; cases h; exact fits_of (by decide) (by decide) f.d.isLt rfl f.tail_lt
theorem Fits.remnT2 (f : F2) : Fits.Statement (.remnT2 f) := by
  intro _ e h; cases h; exact fits_of (by decide) (by decide) f.d.isLt rfl f.tail_lt
theorem Fits.remnT4 (f : F4) : Fits.Statement (.remnT4 f) := by
  intro _ e h; cases h; exact fits_of (by decide) (by decide) f.d.isLt rfl f.tail_lt
theorem Fits.andT2 (f : F2) : Fits.Statement (.andT2 f) := by
  intro _ e h; cases h; exact fits_of (by decide) (by decide) f.d.isLt rfl f.tail_lt
theorem Fits.andT4 (f : F4) : Fits.Statement (.andT4 f) := by
  intro _ e h; cases h; exact fits_of (by decide) (by decide) f.d.isLt rfl f.tail_lt
theorem Fits.orT2 (f : F2) : Fits.Statement (.orT2 f) := by
  intro _ e h; cases h; exact fits_of (by decide) (by decide) f.d.isLt rfl f.tail_lt
theorem Fits.orT4 (f : F4) : Fits.Statement (.orT4 f) := by
  intro _ e h; cases h; exact fits_of (by decide) (by decide) f.d.isLt rfl f.tail_lt
theorem Fits.xorT2 (f : F2) : Fits.Statement (.xorT2 f) := by
  intro _ e h; cases h; exact fits_of (by decide) (by decide) f.d.isLt rfl f.tail_lt
theorem Fits.xorT4 (f : F4) : Fits.Statement (.xorT4 f) := by
  intro _ e h; cases h; exact fits_of (by decide) (by decide) f.d.isLt rfl f.tail_lt
theorem Fits.shlT2 (f : F2) : Fits.Statement (.shlT2 f) := by
  intro _ e h; cases h; exact fits_of (by decide) (by decide) f.d.isLt rfl f.tail_lt
theorem Fits.shlT4 (f : F4) : Fits.Statement (.shlT4 f) := by
  intro _ e h; cases h; exact fits_of (by decide) (by decide) f.d.isLt rfl f.tail_lt
theorem Fits.shrT2 (f : F2) : Fits.Statement (.shrT2 f) := by
  intro _ e h; cases h; exact fits_of (by decide) (by decide) f.d.isLt rfl f.tail_lt
theorem Fits.shrT4 (f : F4) : Fits.Statement (.shrT4 f) := by
  intro _ e h; cases h; exact fits_of (by decide) (by decide) f.d.isLt rfl f.tail_lt
theorem Fits.sarT2 (f : F2) : Fits.Statement (.sarT2 f) := by
  intro _ e h; cases h; exact fits_of (by decide) (by decide) f.d.isLt rfl f.tail_lt
theorem Fits.sarT4 (f : F4) : Fits.Statement (.sarT4 f) := by
  intro _ e h; cases h; exact fits_of (by decide) (by decide) f.d.isLt rfl f.tail_lt
theorem Fits.rotT2 (f : F2) : Fits.Statement (.rotT2 f) := by
  intro _ e h; cases h; exact fits_of (by decide) (by decide) f.d.isLt rfl f.tail_lt
theorem Fits.rotT4 (f : F4) : Fits.Statement (.rotT4 f) := by
  intro _ e h; cases h; exact fits_of (by decide) (by decide) f.d.isLt rfl f.tail_lt
theorem Fits.addiT2 (f : F2) : Fits.Statement (.addiT2 f) := by
  intro _ e h; cases h; exact fits_of (by decide) (by decide) f.d.isLt rfl f.tail_lt
theorem Fits.addiT4 (f : F4) : Fits.Statement (.addiT4 f) := by
  intro _ e h; cases h; exact fits_of (by decide) (by decide) f.d.isLt rfl f.tail_lt
theorem Fits.addiT8 (f : F8) : Fits.Statement (.addiT8 f) := by
  intro _ e h; cases h; exact fits_of (by decide) (by decide) f.d.isLt rfl f.tail_lt
theorem Fits.andiT2 (f : F2) : Fits.Statement (.andiT2 f) := by
  intro _ e h; cases h; exact fits_of (by decide) (by decide) f.d.isLt rfl f.tail_lt
theorem Fits.andiT4 (f : F4) : Fits.Statement (.andiT4 f) := by
  intro _ e h; cases h; exact fits_of (by decide) (by decide) f.d.isLt rfl f.tail_lt
theorem Fits.andiT8 (f : F8) : Fits.Statement (.andiT8 f) := by
  intro _ e h; cases h; exact fits_of (by decide) (by decide) f.d.isLt rfl f.tail_lt
theorem Fits.oriT2 (f : F2) : Fits.Statement (.oriT2 f) := by
  intro _ e h; cases h; exact fits_of (by decide) (by decide) f.d.isLt rfl f.tail_lt
theorem Fits.oriT4 (f : F4) : Fits.Statement (.oriT4 f) := by
  intro _ e h; cases h; exact fits_of (by decide) (by decide) f.d.isLt rfl f.tail_lt
theorem Fits.oriT8 (f : F8) : Fits.Statement (.oriT8 f) := by
  intro _ e h; cases h; exact fits_of (by decide) (by decide) f.d.isLt rfl f.tail_lt
theorem Fits.xoriT2 (f : F2) : Fits.Statement (.xoriT2 f) := by
  intro _ e h; cases h; exact fits_of (by decide) (by decide) f.d.isLt rfl f.tail_lt
theorem Fits.xoriT4 (f : F4) : Fits.Statement (.xoriT4 f) := by
  intro _ e h; cases h; exact fits_of (by decide) (by decide) f.d.isLt rfl f.tail_lt
theorem Fits.xoriT8 (f : F8) : Fits.Statement (.xoriT8 f) := by
  intro _ e h; cases h; exact fits_of (by decide) (by decide) f.d.isLt rfl f.tail_lt
theorem Fits.shliT2 (f : F2) : Fits.Statement (.shliT2 f) := by
  intro _ e h; cases h; exact fits_of (by decide) (by decide) f.d.isLt rfl f.tail_lt
theorem Fits.shliT4 (f : F4) : Fits.Statement (.shliT4 f) := by
  intro _ e h; cases h; exact fits_of (by decide) (by decide) f.d.isLt rfl f.tail_lt
theorem Fits.shriT2 (f : F2) : Fits.Statement (.shriT2 f) := by
  intro _ e h; cases h; exact fits_of (by decide) (by decide) f.d.isLt rfl f.tail_lt
theorem Fits.shriT4 (f : F4) : Fits.Statement (.shriT4 f) := by
  intro _ e h; cases h; exact fits_of (by decide) (by decide) f.d.isLt rfl f.tail_lt
theorem Fits.sariT2 (f : F2) : Fits.Statement (.sariT2 f) := by
  intro _ e h; cases h; exact fits_of (by decide) (by decide) f.d.isLt rfl f.tail_lt
theorem Fits.sariT4 (f : F4) : Fits.Statement (.sariT4 f) := by
  intro _ e h; cases h; exact fits_of (by decide) (by decide) f.d.isLt rfl f.tail_lt
theorem Fits.li (f : F8) : Fits.Statement (.li f) := by
  intro _ e h; cases h; exact fits_of (by decide) (by decide) f.d.isLt rfl f.tail_lt
theorem Fits.lih (f : F8) : Fits.Statement (.lih f) := by
  intro _ e h; cases h; exact fits_of (by decide) (by decide) f.d.isLt rfl f.tail_lt
theorem Fits.movT2 (f : F2) : Fits.Statement (.movT2 f) := by
  intro _ e h; cases h; exact fits_of (by decide) (by decide) f.d.isLt rfl f.tail_lt
theorem Fits.movT4 (f : F4) : Fits.Statement (.movT4 f) := by
  intro _ e h; cases h; exact fits_of (by decide) (by decide) f.d.isLt rfl f.tail_lt
theorem Fits.selT2 (f : F2) : Fits.Statement (.selT2 f) := by
  intro _ e h; cases h; exact fits_of (by decide) (by decide) f.d.isLt rfl f.tail_lt
theorem Fits.selT4 (f : F4) : Fits.Statement (.selT4 f) := by
  intro _ e h; cases h; exact fits_of (by decide) (by decide) f.d.isLt rfl f.tail_lt
theorem Fits.clzT2 (f : F2) : Fits.Statement (.clzT2 f) := by
  intro _ e h; cases h; exact fits_of (by decide) (by decide) f.d.isLt rfl f.tail_lt
theorem Fits.clzT4 (f : F4) : Fits.Statement (.clzT4 f) := by
  intro _ e h; cases h; exact fits_of (by decide) (by decide) f.d.isLt rfl f.tail_lt
theorem Fits.popcT2 (f : F2) : Fits.Statement (.popcT2 f) := by
  intro _ e h; cases h; exact fits_of (by decide) (by decide) f.d.isLt rfl f.tail_lt
theorem Fits.popcT4 (f : F4) : Fits.Statement (.popcT4 f) := by
  intro _ e h; cases h; exact fits_of (by decide) (by decide) f.d.isLt rfl f.tail_lt
theorem Fits.bswapT2 (f : F2) : Fits.Statement (.bswapT2 f) := by
  intro _ e h; cases h; exact fits_of (by decide) (by decide) f.d.isLt rfl f.tail_lt
theorem Fits.bswapT4 (f : F4) : Fits.Statement (.bswapT4 f) := by
  intro _ e h; cases h; exact fits_of (by decide) (by decide) f.d.isLt rfl f.tail_lt
theorem Fits.bfx (f : F4) : Fits.Statement (.bfx f) := by
  intro _ e h; cases h; exact fits_of (by decide) (by decide) f.d.isLt rfl f.tail_lt
theorem Fits.bfi (f : F4) : Fits.Statement (.bfi f) := by
  intro _ e h; cases h; exact fits_of (by decide) (by decide) f.d.isLt rfl f.tail_lt
theorem Fits.cmpT2 (f : F2) : Fits.Statement (.cmpT2 f) := by
  intro _ e h; cases h; exact fits_of (by decide) (by decide) f.d.isLt rfl f.tail_lt
theorem Fits.cmpT4 (f : F4) : Fits.Statement (.cmpT4 f) := by
  intro _ e h; cases h; exact fits_of (by decide) (by decide) f.d.isLt rfl f.tail_lt
theorem Fits.cmpiT4 (f : F4) : Fits.Statement (.cmpiT4 f) := by
  intro _ e h; cases h; exact fits_of (by decide) (by decide) f.d.isLt rfl f.tail_lt
theorem Fits.cmpiT8 (f : F8) : Fits.Statement (.cmpiT8 f) := by
  intro _ e h; cases h; exact fits_of (by decide) (by decide) f.d.isLt rfl f.tail_lt
theorem Fits.pandT2 (f : F2) : Fits.Statement (.pandT2 f) := by
  intro _ e h; cases h; exact fits_of (by decide) (by decide) f.d.isLt rfl f.tail_lt
theorem Fits.pandT4 (f : F4) : Fits.Statement (.pandT4 f) := by
  intro _ e h; cases h; exact fits_of (by decide) (by decide) f.d.isLt rfl f.tail_lt
theorem Fits.porT2 (f : F2) : Fits.Statement (.porT2 f) := by
  intro _ e h; cases h; exact fits_of (by decide) (by decide) f.d.isLt rfl f.tail_lt
theorem Fits.porT4 (f : F4) : Fits.Statement (.porT4 f) := by
  intro _ e h; cases h; exact fits_of (by decide) (by decide) f.d.isLt rfl f.tail_lt
theorem Fits.pxorT2 (f : F2) : Fits.Statement (.pxorT2 f) := by
  intro _ e h; cases h; exact fits_of (by decide) (by decide) f.d.isLt rfl f.tail_lt
theorem Fits.pxorT4 (f : F4) : Fits.Statement (.pxorT4 f) := by
  intro _ e h; cases h; exact fits_of (by decide) (by decide) f.d.isLt rfl f.tail_lt
theorem Fits.pnotT2 (f : F2) : Fits.Statement (.pnotT2 f) := by
  intro _ e h; cases h; exact fits_of (by decide) (by decide) f.d.isLt rfl f.tail_lt
theorem Fits.pnotT4 (f : F4) : Fits.Statement (.pnotT4 f) := by
  intro _ e h; cases h; exact fits_of (by decide) (by decide) f.d.isLt rfl f.tail_lt
theorem Fits.ptogT0 (f : F0) : Fits.Statement (.ptogT0 f) := by
  intro _ e h; cases h; exact fits_of (by decide) (by decide) f.d.isLt rfl (Nat.one_pos)
theorem Fits.ptogT4 (f : F4) : Fits.Statement (.ptogT4 f) := by
  intro _ e h; cases h; exact fits_of (by decide) (by decide) f.d.isLt rfl f.tail_lt
theorem Fits.gtopT2 (f : F2) : Fits.Statement (.gtopT2 f) := by
  intro _ e h; cases h; exact fits_of (by decide) (by decide) f.d.isLt rfl f.tail_lt
theorem Fits.gtopT4 (f : F4) : Fits.Statement (.gtopT4 f) := by
  intro _ e h; cases h; exact fits_of (by decide) (by decide) f.d.isLt rfl f.tail_lt
theorem Fits.pmkT2 (f : F2) : Fits.Statement (.pmkT2 f) := by
  intro _ e h; cases h; exact fits_of (by decide) (by decide) f.d.isLt rfl f.tail_lt
theorem Fits.pmkT4 (f : F4) : Fits.Statement (.pmkT4 f) := by
  intro _ e h; cases h; exact fits_of (by decide) (by decide) f.d.isLt rfl f.tail_lt
theorem Fits.paddT2 (f : F2) : Fits.Statement (.paddT2 f) := by
  intro _ e h; cases h; exact fits_of (by decide) (by decide) f.d.isLt rfl f.tail_lt
theorem Fits.paddT4 (f : F4) : Fits.Statement (.paddT4 f) := by
  intro _ e h; cases h; exact fits_of (by decide) (by decide) f.d.isLt rfl f.tail_lt
theorem Fits.paddiT2 (f : F2) : Fits.Statement (.paddiT2 f) := by
  intro _ e h; cases h; exact fits_of (by decide) (by decide) f.d.isLt rfl f.tail_lt
theorem Fits.paddiT4 (f : F4) : Fits.Statement (.paddiT4 f) := by
  intro _ e h; cases h; exact fits_of (by decide) (by decide) f.d.isLt rfl f.tail_lt
theorem Fits.paddiT8 (f : F8) : Fits.Statement (.paddiT8 f) := by
  intro _ e h; cases h; exact fits_of (by decide) (by decide) f.d.isLt rfl f.tail_lt
theorem Fits.psetfT2 (f : F2) : Fits.Statement (.psetfT2 f) := by
  intro _ e h; cases h; exact fits_of (by decide) (by decide) f.d.isLt rfl f.tail_lt
theorem Fits.psetfT4 (f : F4) : Fits.Statement (.psetfT4 f) := by
  intro _ e h; cases h; exact fits_of (by decide) (by decide) f.d.isLt rfl f.tail_lt
theorem Fits.psetbT2 (f : F2) : Fits.Statement (.psetbT2 f) := by
  intro _ e h; cases h; exact fits_of (by decide) (by decide) f.d.isLt rfl f.tail_lt
theorem Fits.psetbT4 (f : F4) : Fits.Statement (.psetbT4 f) := by
  intro _ e h; cases h; exact fits_of (by decide) (by decide) f.d.isLt rfl f.tail_lt
theorem Fits.phndT2 (f : F2) : Fits.Statement (.phndT2 f) := by
  intro _ e h; cases h; exact fits_of (by decide) (by decide) f.d.isLt rfl f.tail_lt
theorem Fits.phndT4 (f : F4) : Fits.Statement (.phndT4 f) := by
  intro _ e h; cases h; exact fits_of (by decide) (by decide) f.d.isLt rfl f.tail_lt
theorem Fits.poffT2 (f : F2) : Fits.Statement (.poffT2 f) := by
  intro _ e h; cases h; exact fits_of (by decide) (by decide) f.d.isLt rfl f.tail_lt
theorem Fits.poffT4 (f : F4) : Fits.Statement (.poffT4 f) := by
  intro _ e h; cases h; exact fits_of (by decide) (by decide) f.d.isLt rfl f.tail_lt
theorem Fits.pchk (f : F4) : Fits.Statement (.pchk f) := by
  intro _ e h; cases h; exact fits_of (by decide) (by decide) f.d.isLt rfl f.tail_lt
theorem Fits.ld (f : F4) : Fits.Statement (.ld f) := by
  intro _ e h; cases h; exact fits_of (by decide) (by decide) f.d.isLt rfl f.tail_lt
theorem Fits.lds (f : F4) : Fits.Statement (.lds f) := by
  intro _ e h; cases h; exact fits_of (by decide) (by decide) f.d.isLt rfl f.tail_lt
theorem Fits.st (f : F4) : Fits.Statement (.st f) := by
  intro _ e h; cases h; exact fits_of (by decide) (by decide) f.d.isLt rfl f.tail_lt
theorem Fits.lda (f : F4) : Fits.Statement (.lda f) := by
  intro _ e h; cases h; exact fits_of (by decide) (by decide) f.d.isLt rfl f.tail_lt
theorem Fits.stl (f : F4) : Fits.Statement (.stl f) := by
  intro _ e h; cases h; exact fits_of (by decide) (by decide) f.d.isLt rfl f.tail_lt
theorem Fits.ldt (f : F4) : Fits.Statement (.ldt f) := by
  intro _ e h; cases h; exact fits_of (by decide) (by decide) f.d.isLt rfl f.tail_lt
theorem Fits.stt (f : F4) : Fits.Statement (.stt f) := by
  intro _ e h; cases h; exact fits_of (by decide) (by decide) f.d.isLt rfl f.tail_lt
theorem Fits.ldp (f : F4) : Fits.Statement (.ldp f) := by
  intro _ e h; cases h; exact fits_of (by decide) (by decide) f.d.isLt rfl f.tail_lt
theorem Fits.stp (f : F4) : Fits.Statement (.stp f) := by
  intro _ e h; cases h; exact fits_of (by decide) (by decide) f.d.isLt rfl f.tail_lt
theorem Fits.ldx (f : F4) : Fits.Statement (.ldx f) := by
  intro _ e h; cases h; exact fits_of (by decide) (by decide) f.d.isLt rfl f.tail_lt
theorem Fits.stx (f : F4) : Fits.Statement (.stx f) := by
  intro _ e h; cases h; exact fits_of (by decide) (by decide) f.d.isLt rfl f.tail_lt
theorem Fits.cas (f : F4) : Fits.Statement (.cas f) := by
  intro _ e h; cases h; exact fits_of (by decide) (by decide) f.d.isLt rfl f.tail_lt
theorem Fits.swp (f : F4) : Fits.Statement (.swp f) := by
  intro _ e h; cases h; exact fits_of (by decide) (by decide) f.d.isLt rfl f.tail_lt
theorem Fits.aadd (f : F4) : Fits.Statement (.aadd f) := by
  intro _ e h; cases h; exact fits_of (by decide) (by decide) f.d.isLt rfl f.tail_lt
theorem Fits.aand (f : F4) : Fits.Statement (.aand f) := by
  intro _ e h; cases h; exact fits_of (by decide) (by decide) f.d.isLt rfl f.tail_lt
theorem Fits.aor (f : F4) : Fits.Statement (.aor f) := by
  intro _ e h; cases h; exact fits_of (by decide) (by decide) f.d.isLt rfl f.tail_lt
theorem Fits.axor (f : F4) : Fits.Statement (.axor f) := by
  intro _ e h; cases h; exact fits_of (by decide) (by decide) f.d.isLt rfl f.tail_lt
theorem Fits.amin (f : F4) : Fits.Statement (.amin f) := by
  intro _ e h; cases h; exact fits_of (by decide) (by decide) f.d.isLt rfl f.tail_lt
theorem Fits.amax (f : F4) : Fits.Statement (.amax f) := by
  intro _ e h; cases h; exact fits_of (by decide) (by decide) f.d.isLt rfl f.tail_lt
theorem Fits.afadd (f : F4) : Fits.Statement (.afadd f) := by
  intro _ e h; cases h; exact fits_of (by decide) (by decide) f.d.isLt rfl f.tail_lt
theorem Fits.fenceT2 (f : F2) : Fits.Statement (.fenceT2 f) := by
  intro _ e h; cases h; exact fits_of (by decide) (by decide) f.d.isLt rfl f.tail_lt
theorem Fits.fenceT4 (f : F4) : Fits.Statement (.fenceT4 f) := by
  intro _ e h; cases h; exact fits_of (by decide) (by decide) f.d.isLt rfl f.tail_lt
theorem Fits.tfenceT2 (f : F2) : Fits.Statement (.tfenceT2 f) := by
  intro _ e h; cases h; exact fits_of (by decide) (by decide) f.d.isLt rfl f.tail_lt
theorem Fits.tfenceT4 (f : F4) : Fits.Statement (.tfenceT4 f) := by
  intro _ e h; cases h; exact fits_of (by decide) (by decide) f.d.isLt rfl f.tail_lt
theorem Fits.sbwaitT0 (f : F0) : Fits.Statement (.sbwaitT0 f) := by
  intro _ e h; cases h; exact fits_of (by decide) (by decide) f.d.isLt rfl (Nat.one_pos)
theorem Fits.sbwaitT4 (f : F4) : Fits.Statement (.sbwaitT4 f) := by
  intro _ e h; cases h; exact fits_of (by decide) (by decide) f.d.isLt rfl f.tail_lt
theorem Fits.send (f : F4) : Fits.Statement (.send f) := by
  intro _ e h; cases h; exact fits_of (by decide) (by decide) f.d.isLt rfl f.tail_lt
theorem Fits.sendi (f : F8) : Fits.Statement (.sendi f) := by
  intro _ e h; cases h; exact fits_of (by decide) (by decide) f.d.isLt rfl f.tail_lt
theorem Fits.emptyT0 (f : F0) : Fits.Statement (.emptyT0 f) := by
  intro _ e h; cases h; exact fits_of (by decide) (by decide) f.d.isLt rfl (Nat.one_pos)
theorem Fits.emptyT4 (f : F4) : Fits.Statement (.emptyT4 f) := by
  intro _ e h; cases h; exact fits_of (by decide) (by decide) f.d.isLt rfl f.tail_lt
theorem Fits.migrT2 (f : F2) : Fits.Statement (.migrT2 f) := by
  intro _ e h; cases h; exact fits_of (by decide) (by decide) f.d.isLt rfl f.tail_lt
theorem Fits.migrT4 (f : F4) : Fits.Statement (.migrT4 f) := by
  intro _ e h; cases h; exact fits_of (by decide) (by decide) f.d.isLt rfl f.tail_lt
theorem Fits.mighT2 (f : F2) : Fits.Statement (.mighT2 f) := by
  intro _ e h; cases h; exact fits_of (by decide) (by decide) f.d.isLt rfl f.tail_lt
theorem Fits.mighT4 (f : F4) : Fits.Statement (.mighT4 f) := by
  intro _ e h; cases h; exact fits_of (by decide) (by decide) f.d.isLt rfl f.tail_lt
theorem Fits.roleT0 (f : F0) : Fits.Statement (.roleT0 f) := by
  intro _ e h; cases h; exact fits_of (by decide) (by decide) f.d.isLt rfl (Nat.one_pos)
theorem Fits.roleT4 (f : F4) : Fits.Statement (.roleT4 f) := by
  intro _ e h; cases h; exact fits_of (by decide) (by decide) f.d.isLt rfl f.tail_lt
theorem Fits.rcastT2 (f : F2) : Fits.Statement (.rcastT2 f) := by
  intro _ e h; cases h; exact fits_of (by decide) (by decide) f.d.isLt rfl f.tail_lt
theorem Fits.rcastT4 (f : F4) : Fits.Statement (.rcastT4 f) := by
  intro _ e h; cases h; exact fits_of (by decide) (by decide) f.d.isLt rfl f.tail_lt
theorem Fits.chmapT2 (f : F2) : Fits.Statement (.chmapT2 f) := by
  intro _ e h; cases h; exact fits_of (by decide) (by decide) f.d.isLt rfl f.tail_lt
theorem Fits.chmapT4 (f : F4) : Fits.Statement (.chmapT4 f) := by
  intro _ e h; cases h; exact fits_of (by decide) (by decide) f.d.isLt rfl f.tail_lt
theorem Fits.mboxqT0 (f : F0) : Fits.Statement (.mboxqT0 f) := by
  intro _ e h; cases h; exact fits_of (by decide) (by decide) f.d.isLt rfl (Nat.one_pos)
theorem Fits.mboxqT4 (f : F4) : Fits.Statement (.mboxqT4 f) := by
  intro _ e h; cases h; exact fits_of (by decide) (by decide) f.d.isLt rfl f.tail_lt
theorem Fits.poisqT0 (f : F0) : Fits.Statement (.poisqT0 f) := by
  intro _ e h; cases h; exact fits_of (by decide) (by decide) f.d.isLt rfl (Nat.one_pos)
theorem Fits.poisqT4 (f : F4) : Fits.Statement (.poisqT4 f) := by
  intro _ e h; cases h; exact fits_of (by decide) (by decide) f.d.isLt rfl f.tail_lt
theorem Fits.dqpushT2 (f : F2) : Fits.Statement (.dqpushT2 f) := by
  intro _ e h; cases h; exact fits_of (by decide) (by decide) f.d.isLt rfl f.tail_lt
theorem Fits.dqpushT4 (f : F4) : Fits.Statement (.dqpushT4 f) := by
  intro _ e h; cases h; exact fits_of (by decide) (by decide) f.d.isLt rfl f.tail_lt
theorem Fits.dqpopT2 (f : F2) : Fits.Statement (.dqpopT2 f) := by
  intro _ e h; cases h; exact fits_of (by decide) (by decide) f.d.isLt rfl f.tail_lt
theorem Fits.dqpopT4 (f : F4) : Fits.Statement (.dqpopT4 f) := by
  intro _ e h; cases h; exact fits_of (by decide) (by decide) f.d.isLt rfl f.tail_lt
theorem Fits.spawnT2 (f : F2) : Fits.Statement (.spawnT2 f) := by
  intro _ e h; cases h; exact fits_of (by decide) (by decide) f.d.isLt rfl f.tail_lt
theorem Fits.spawnT4 (f : F4) : Fits.Statement (.spawnT4 f) := by
  intro _ e h; cases h; exact fits_of (by decide) (by decide) f.d.isLt rfl f.tail_lt
theorem Fits.glnchT2 (f : F2) : Fits.Statement (.glnchT2 f) := by
  intro _ e h; cases h; exact fits_of (by decide) (by decide) f.d.isLt rfl f.tail_lt
theorem Fits.glnchT4 (f : F4) : Fits.Statement (.glnchT4 f) := by
  intro _ e h; cases h; exact fits_of (by decide) (by decide) f.d.isLt rfl f.tail_lt
theorem Fits.widf (f : F2) : Fits.Statement (.widf f) := by
  intro _ e h; cases h; exact fits_of (by decide) (by decide) f.d.isLt rfl f.tail_lt
theorem Fits.baraT0 (f : F0) : Fits.Statement (.baraT0 f) := by
  intro _ e h; cases h; exact fits_of (by decide) (by decide) f.d.isLt rfl (Nat.one_pos)
theorem Fits.baraT4 (f : F4) : Fits.Statement (.baraT4 f) := by
  intro _ e h; cases h; exact fits_of (by decide) (by decide) f.d.isLt rfl f.tail_lt
theorem Fits.barwT0 (f : F0) : Fits.Statement (.barwT0 f) := by
  intro _ e h; cases h; exact fits_of (by decide) (by decide) f.d.isLt rfl (Nat.one_pos)
theorem Fits.barwT4 (f : F4) : Fits.Statement (.barwT4 f) := by
  intro _ e h; cases h; exact fits_of (by decide) (by decide) f.d.isLt rfl f.tail_lt
theorem Fits.barT0 (f : F0) : Fits.Statement (.barT0 f) := by
  intro _ e h; cases h; exact fits_of (by decide) (by decide) f.d.isLt rfl (Nat.one_pos)
theorem Fits.barT4 (f : F4) : Fits.Statement (.barT4 f) := by
  intro _ e h; cases h; exact fits_of (by decide) (by decide) f.d.isLt rfl f.tail_lt
theorem Fits.sltwT2 (f : F2) : Fits.Statement (.sltwT2 f) := by
  intro _ e h; cases h; exact fits_of (by decide) (by decide) f.d.isLt rfl f.tail_lt
theorem Fits.sltwT4 (f : F4) : Fits.Statement (.sltwT4 f) := by
  intro _ e h; cases h; exact fits_of (by decide) (by decide) f.d.isLt rfl f.tail_lt
theorem Fits.sltrT2 (f : F2) : Fits.Statement (.sltrT2 f) := by
  intro _ e h; cases h; exact fits_of (by decide) (by decide) f.d.isLt rfl f.tail_lt
theorem Fits.sltrT4 (f : F4) : Fits.Statement (.sltrT4 f) := by
  intro _ e h; cases h; exact fits_of (by decide) (by decide) f.d.isLt rfl f.tail_lt
theorem Fits.cbinitT2 (f : F2) : Fits.Statement (.cbinitT2 f) := by
  intro _ e h; cases h; exact fits_of (by decide) (by decide) f.d.isLt rfl f.tail_lt
theorem Fits.cbinitT4 (f : F4) : Fits.Statement (.cbinitT4 f) := by
  intro _ e h; cases h; exact fits_of (by decide) (by decide) f.d.isLt rfl f.tail_lt
theorem Fits.cbarrT2 (f : F2) : Fits.Statement (.cbarrT2 f) := by
  intro _ e h; cases h; exact fits_of (by decide) (by decide) f.d.isLt rfl f.tail_lt
theorem Fits.cbarrT4 (f : F4) : Fits.Statement (.cbarrT4 f) := by
  intro _ e h; cases h; exact fits_of (by decide) (by decide) f.d.isLt rfl f.tail_lt
theorem Fits.cbwaitT2 (f : F2) : Fits.Statement (.cbwaitT2 f) := by
  intro _ e h; cases h; exact fits_of (by decide) (by decide) f.d.isLt rfl f.tail_lt
theorem Fits.cbwaitT4 (f : F4) : Fits.Statement (.cbwaitT4 f) := by
  intro _ e h; cases h; exact fits_of (by decide) (by decide) f.d.isLt rfl f.tail_lt
theorem Fits.cbphT2 (f : F2) : Fits.Statement (.cbphT2 f) := by
  intro _ e h; cases h; exact fits_of (by decide) (by decide) f.d.isLt rfl f.tail_lt
theorem Fits.cbphT4 (f : F4) : Fits.Statement (.cbphT4 f) := by
  intro _ e h; cases h; exact fits_of (by decide) (by decide) f.d.isLt rfl f.tail_lt
theorem Fits.faddT2 (f : F2) : Fits.Statement (.faddT2 f) := by
  intro _ e h; cases h; exact fits_of (by decide) (by decide) f.d.isLt rfl f.tail_lt
theorem Fits.faddT4 (f : F4) : Fits.Statement (.faddT4 f) := by
  intro _ e h; cases h; exact fits_of (by decide) (by decide) f.d.isLt rfl f.tail_lt
theorem Fits.fsubT2 (f : F2) : Fits.Statement (.fsubT2 f) := by
  intro _ e h; cases h; exact fits_of (by decide) (by decide) f.d.isLt rfl f.tail_lt
theorem Fits.fsubT4 (f : F4) : Fits.Statement (.fsubT4 f) := by
  intro _ e h; cases h; exact fits_of (by decide) (by decide) f.d.isLt rfl f.tail_lt
theorem Fits.fmulT2 (f : F2) : Fits.Statement (.fmulT2 f) := by
  intro _ e h; cases h; exact fits_of (by decide) (by decide) f.d.isLt rfl f.tail_lt
theorem Fits.fmulT4 (f : F4) : Fits.Statement (.fmulT4 f) := by
  intro _ e h; cases h; exact fits_of (by decide) (by decide) f.d.isLt rfl f.tail_lt
theorem Fits.ffma (f : F4) : Fits.Statement (.ffma f) := by
  intro _ e h; cases h; exact fits_of (by decide) (by decide) f.d.isLt rfl f.tail_lt
theorem Fits.fdivT2 (f : F2) : Fits.Statement (.fdivT2 f) := by
  intro _ e h; cases h; exact fits_of (by decide) (by decide) f.d.isLt rfl f.tail_lt
theorem Fits.fdivT4 (f : F4) : Fits.Statement (.fdivT4 f) := by
  intro _ e h; cases h; exact fits_of (by decide) (by decide) f.d.isLt rfl f.tail_lt
theorem Fits.fsqrtT2 (f : F2) : Fits.Statement (.fsqrtT2 f) := by
  intro _ e h; cases h; exact fits_of (by decide) (by decide) f.d.isLt rfl f.tail_lt
theorem Fits.fsqrtT4 (f : F4) : Fits.Statement (.fsqrtT4 f) := by
  intro _ e h; cases h; exact fits_of (by decide) (by decide) f.d.isLt rfl f.tail_lt
theorem Fits.fminT2 (f : F2) : Fits.Statement (.fminT2 f) := by
  intro _ e h; cases h; exact fits_of (by decide) (by decide) f.d.isLt rfl f.tail_lt
theorem Fits.fminT4 (f : F4) : Fits.Statement (.fminT4 f) := by
  intro _ e h; cases h; exact fits_of (by decide) (by decide) f.d.isLt rfl f.tail_lt
theorem Fits.fmaxT2 (f : F2) : Fits.Statement (.fmaxT2 f) := by
  intro _ e h; cases h; exact fits_of (by decide) (by decide) f.d.isLt rfl f.tail_lt
theorem Fits.fmaxT4 (f : F4) : Fits.Statement (.fmaxT4 f) := by
  intro _ e h; cases h; exact fits_of (by decide) (by decide) f.d.isLt rfl f.tail_lt
theorem Fits.fcmpT2 (f : F2) : Fits.Statement (.fcmpT2 f) := by
  intro _ e h; cases h; exact fits_of (by decide) (by decide) f.d.isLt rfl f.tail_lt
theorem Fits.fcmpT4 (f : F4) : Fits.Statement (.fcmpT4 f) := by
  intro _ e h; cases h; exact fits_of (by decide) (by decide) f.d.isLt rfl f.tail_lt
theorem Fits.fcvt (f : F4) : Fits.Statement (.fcvt f) := by
  intro _ e h; cases h; exact fits_of (by decide) (by decide) f.d.isLt rfl f.tail_lt
theorem Fits.fclsT2 (f : F2) : Fits.Statement (.fclsT2 f) := by
  intro _ e h; cases h; exact fits_of (by decide) (by decide) f.d.isLt rfl f.tail_lt
theorem Fits.fclsT4 (f : F4) : Fits.Statement (.fclsT4 f) := by
  intro _ e h; cases h; exact fits_of (by decide) (by decide) f.d.isLt rfl f.tail_lt
theorem Fits.ftldT2 (f : F2) : Fits.Statement (.ftldT2 f) := by
  intro _ e h; cases h; exact fits_of (by decide) (by decide) f.d.isLt rfl f.tail_lt
theorem Fits.ftldT4 (f : F4) : Fits.Statement (.ftldT4 f) := by
  intro _ e h; cases h; exact fits_of (by decide) (by decide) f.d.isLt rfl f.tail_lt
theorem Fits.enc8T2 (f : F2) : Fits.Statement (.enc8T2 f) := by
  intro _ e h; cases h; exact fits_of (by decide) (by decide) f.d.isLt rfl f.tail_lt
theorem Fits.enc8T4 (f : F4) : Fits.Statement (.enc8T4 f) := by
  intro _ e h; cases h; exact fits_of (by decide) (by decide) f.d.isLt rfl f.tail_lt
theorem Fits.dec8T2 (f : F2) : Fits.Statement (.dec8T2 f) := by
  intro _ e h; cases h; exact fits_of (by decide) (by decide) f.d.isLt rfl f.tail_lt
theorem Fits.dec8T4 (f : F4) : Fits.Statement (.dec8T4 f) := by
  intro _ e h; cases h; exact fits_of (by decide) (by decide) f.d.isLt rfl f.tail_lt
theorem Fits.vadd (f : F4) : Fits.Statement (.vadd f) := by
  intro _ e h; cases h; exact fits_of (by decide) (by decide) f.d.isLt rfl f.tail_lt
theorem Fits.vsub (f : F4) : Fits.Statement (.vsub f) := by
  intro _ e h; cases h; exact fits_of (by decide) (by decide) f.d.isLt rfl f.tail_lt
theorem Fits.vmul (f : F4) : Fits.Statement (.vmul f) := by
  intro _ e h; cases h; exact fits_of (by decide) (by decide) f.d.isLt rfl f.tail_lt
theorem Fits.vfma (f : F4) : Fits.Statement (.vfma f) := by
  intro _ e h; cases h; exact fits_of (by decide) (by decide) f.d.isLt rfl f.tail_lt
theorem Fits.vmin (f : F4) : Fits.Statement (.vmin f) := by
  intro _ e h; cases h; exact fits_of (by decide) (by decide) f.d.isLt rfl f.tail_lt
theorem Fits.vmax (f : F4) : Fits.Statement (.vmax f) := by
  intro _ e h; cases h; exact fits_of (by decide) (by decide) f.d.isLt rfl f.tail_lt
theorem Fits.vdiv (f : F4) : Fits.Statement (.vdiv f) := by
  intro _ e h; cases h; exact fits_of (by decide) (by decide) f.d.isLt rfl f.tail_lt
theorem Fits.vsqrt (f : F4) : Fits.Statement (.vsqrt f) := by
  intro _ e h; cases h; exact fits_of (by decide) (by decide) f.d.isLt rfl f.tail_lt
theorem Fits.vexp (f : F4) : Fits.Statement (.vexp f) := by
  intro _ e h; cases h; exact fits_of (by decide) (by decide) f.d.isLt rfl f.tail_lt
theorem Fits.vlog (f : F4) : Fits.Statement (.vlog f) := by
  intro _ e h; cases h; exact fits_of (by decide) (by decide) f.d.isLt rfl f.tail_lt
theorem Fits.vrcp (f : F4) : Fits.Statement (.vrcp f) := by
  intro _ e h; cases h; exact fits_of (by decide) (by decide) f.d.isLt rfl f.tail_lt
theorem Fits.vrsq (f : F4) : Fits.Statement (.vrsq f) := by
  intro _ e h; cases h; exact fits_of (by decide) (by decide) f.d.isLt rfl f.tail_lt
theorem Fits.vcvt (f : F4) : Fits.Statement (.vcvt f) := by
  intro _ e h; cases h; exact fits_of (by decide) (by decide) f.d.isLt rfl f.tail_lt
theorem Fits.vscl (f : F4) : Fits.Statement (.vscl f) := by
  intro _ e h; cases h; exact fits_of (by decide) (by decide) f.d.isLt rfl f.tail_lt
theorem Fits.vabs (f : F4) : Fits.Statement (.vabs f) := by
  intro _ e h; cases h; exact fits_of (by decide) (by decide) f.d.isLt rfl f.tail_lt
theorem Fits.vneg (f : F4) : Fits.Statement (.vneg f) := by
  intro _ e h; cases h; exact fits_of (by decide) (by decide) f.d.isLt rfl f.tail_lt
theorem Fits.viadd (f : F4) : Fits.Statement (.viadd f) := by
  intro _ e h; cases h; exact fits_of (by decide) (by decide) f.d.isLt rfl f.tail_lt
theorem Fits.visub (f : F4) : Fits.Statement (.visub f) := by
  intro _ e h; cases h; exact fits_of (by decide) (by decide) f.d.isLt rfl f.tail_lt
theorem Fits.vimul (f : F4) : Fits.Statement (.vimul f) := by
  intro _ e h; cases h; exact fits_of (by decide) (by decide) f.d.isLt rfl f.tail_lt
theorem Fits.vdot4 (f : F4) : Fits.Statement (.vdot4 f) := by
  intro _ e h; cases h; exact fits_of (by decide) (by decide) f.d.isLt rfl f.tail_lt
theorem Fits.vand (f : F4) : Fits.Statement (.vand f) := by
  intro _ e h; cases h; exact fits_of (by decide) (by decide) f.d.isLt rfl f.tail_lt
theorem Fits.vor (f : F4) : Fits.Statement (.vor f) := by
  intro _ e h; cases h; exact fits_of (by decide) (by decide) f.d.isLt rfl f.tail_lt
theorem Fits.vxor (f : F4) : Fits.Statement (.vxor f) := by
  intro _ e h; cases h; exact fits_of (by decide) (by decide) f.d.isLt rfl f.tail_lt
theorem Fits.vshl (f : F4) : Fits.Statement (.vshl f) := by
  intro _ e h; cases h; exact fits_of (by decide) (by decide) f.d.isLt rfl f.tail_lt
theorem Fits.vshr (f : F4) : Fits.Statement (.vshr f) := by
  intro _ e h; cases h; exact fits_of (by decide) (by decide) f.d.isLt rfl f.tail_lt
theorem Fits.unpk3 (f : F4) : Fits.Statement (.unpk3 f) := by
  intro _ e h; cases h; exact fits_of (by decide) (by decide) f.d.isLt rfl f.tail_lt
theorem Fits.vtas (f : F4) : Fits.Statement (.vtas f) := by
  intro _ e h; cases h; exact fits_of (by decide) (by decide) f.d.isLt rfl f.tail_lt
theorem Fits.vsel (f : F4) : Fits.Statement (.vsel f) := by
  intro _ e h; cases h; exact fits_of (by decide) (by decide) f.d.isLt rfl f.tail_lt
theorem Fits.vperm (f : F4) : Fits.Statement (.vperm f) := by
  intro _ e h; cases h; exact fits_of (by decide) (by decide) f.d.isLt rfl f.tail_lt
theorem Fits.vcmp (f : F4) : Fits.Statement (.vcmp f) := by
  intro _ e h; cases h; exact fits_of (by decide) (by decide) f.d.isLt rfl f.tail_lt
theorem Fits.vsat (f : F4) : Fits.Statement (.vsat f) := by
  intro _ e h; cases h; exact fits_of (by decide) (by decide) f.d.isLt rfl f.tail_lt
theorem Fits.vclz (f : F4) : Fits.Statement (.vclz f) := by
  intro _ e h; cases h; exact fits_of (by decide) (by decide) f.d.isLt rfl f.tail_lt
theorem Fits.vclaimT2 (f : F2) : Fits.Statement (.vclaimT2 f) := by
  intro _ e h; cases h; exact fits_of (by decide) (by decide) f.d.isLt rfl f.tail_lt
theorem Fits.vclaimT4 (f : F4) : Fits.Statement (.vclaimT4 f) := by
  intro _ e h; cases h; exact fits_of (by decide) (by decide) f.d.isLt rfl f.tail_lt
theorem Fits.vrelT0 (f : F0) : Fits.Statement (.vrelT0 f) := by
  intro _ e h; cases h; exact fits_of (by decide) (by decide) f.d.isLt rfl (Nat.one_pos)
theorem Fits.vrelT4 (f : F4) : Fits.Statement (.vrelT4 f) := by
  intro _ e h; cases h; exact fits_of (by decide) (by decide) f.d.isLt rfl f.tail_lt
theorem Fits.vradd (f : F4) : Fits.Statement (.vradd f) := by
  intro _ e h; cases h; exact fits_of (by decide) (by decide) f.d.isLt rfl f.tail_lt
theorem Fits.vrmax (f : F4) : Fits.Statement (.vrmax f) := by
  intro _ e h; cases h; exact fits_of (by decide) (by decide) f.d.isLt rfl f.tail_lt
theorem Fits.vrmin (f : F4) : Fits.Statement (.vrmin f) := by
  intro _ e h; cases h; exact fits_of (by decide) (by decide) f.d.isLt rfl f.tail_lt
theorem Fits.vscan (f : F4) : Fits.Statement (.vscan f) := by
  intro _ e h; cases h; exact fits_of (by decide) (by decide) f.d.isLt rfl f.tail_lt
theorem Fits.vgath (f : F4) : Fits.Statement (.vgath f) := by
  intro _ e h; cases h; exact fits_of (by decide) (by decide) f.d.isLt rfl f.tail_lt
theorem Fits.vscat (f : F4) : Fits.Statement (.vscat f) := by
  intro _ e h; cases h; exact fits_of (by decide) (by decide) f.d.isLt rfl f.tail_lt
theorem Fits.vmov (f : F4) : Fits.Statement (.vmov f) := by
  intro _ e h; cases h; exact fits_of (by decide) (by decide) f.d.isLt rfl f.tail_lt
theorem Fits.vfill (f : F4) : Fits.Statement (.vfill f) := by
  intro _ e h; cases h; exact fits_of (by decide) (by decide) f.d.isLt rfl f.tail_lt
theorem Fits.vmask (f : F4) : Fits.Statement (.vmask f) := by
  intro _ e h; cases h; exact fits_of (by decide) (by decide) f.d.isLt rfl f.tail_lt
theorem Fits.viota (f : F4) : Fits.Statement (.viota f) := by
  intro _ e h; cases h; exact fits_of (by decide) (by decide) f.d.isLt rfl f.tail_lt
theorem Fits.shldT2 (f : F2) : Fits.Statement (.shldT2 f) := by
  intro _ e h; cases h; exact fits_of (by decide) (by decide) f.d.isLt rfl f.tail_lt
theorem Fits.shldT4 (f : F4) : Fits.Statement (.shldT4 f) := by
  intro _ e h; cases h; exact fits_of (by decide) (by decide) f.d.isLt rfl f.tail_lt
theorem Fits.shstT2 (f : F2) : Fits.Statement (.shstT2 f) := by
  intro _ e h; cases h; exact fits_of (by decide) (by decide) f.d.isLt rfl f.tail_lt
theorem Fits.shstT4 (f : F4) : Fits.Statement (.shstT4 f) := by
  intro _ e h; cases h; exact fits_of (by decide) (by decide) f.d.isLt rfl f.tail_lt
theorem Fits.shset (f : F4) : Fits.Statement (.shset f) := by
  intro _ e h; cases h; exact fits_of (by decide) (by decide) f.d.isLt rfl f.tail_lt
theorem Fits.shget (f : F4) : Fits.Statement (.shget f) := by
  intro _ e h; cases h; exact fits_of (by decide) (by decide) f.d.isLt rfl f.tail_lt
theorem Fits.townT2 (f : F2) : Fits.Statement (.townT2 f) := by
  intro _ e h; cases h; exact fits_of (by decide) (by decide) f.d.isLt rfl f.tail_lt
theorem Fits.townT4 (f : F4) : Fits.Statement (.townT4 f) := by
  intro _ e h; cases h; exact fits_of (by decide) (by decide) f.d.isLt rfl f.tail_lt
theorem Fits.tgiveT2 (f : F2) : Fits.Statement (.tgiveT2 f) := by
  intro _ e h; cases h; exact fits_of (by decide) (by decide) f.d.isLt rfl f.tail_lt
theorem Fits.tgiveT4 (f : F4) : Fits.Statement (.tgiveT4 f) := by
  intro _ e h; cases h; exact fits_of (by decide) (by decide) f.d.isLt rfl f.tail_lt
theorem Fits.ttag (f : F4) : Fits.Statement (.ttag f) := by
  intro _ e h; cases h; exact fits_of (by decide) (by decide) f.d.isLt rfl f.tail_lt
theorem Fits.ttaskT2 (f : F2) : Fits.Statement (.ttaskT2 f) := by
  intro _ e h; cases h; exact fits_of (by decide) (by decide) f.d.isLt rfl f.tail_lt
theorem Fits.ttaskT4 (f : F4) : Fits.Statement (.ttaskT4 f) := by
  intro _ e h; cases h; exact fits_of (by decide) (by decide) f.d.isLt rfl f.tail_lt
theorem Fits.tqryT2 (f : F2) : Fits.Statement (.tqryT2 f) := by
  intro _ e h; cases h; exact fits_of (by decide) (by decide) f.d.isLt rfl f.tail_lt
theorem Fits.tqryT4 (f : F4) : Fits.Statement (.tqryT4 f) := by
  intro _ e h; cases h; exact fits_of (by decide) (by decide) f.d.isLt rfl f.tail_lt
theorem Fits.qpushT2 (f : F2) : Fits.Statement (.qpushT2 f) := by
  intro _ e h; cases h; exact fits_of (by decide) (by decide) f.d.isLt rfl f.tail_lt
theorem Fits.qpushT4 (f : F4) : Fits.Statement (.qpushT4 f) := by
  intro _ e h; cases h; exact fits_of (by decide) (by decide) f.d.isLt rfl f.tail_lt
theorem Fits.qpopT2 (f : F2) : Fits.Statement (.qpopT2 f) := by
  intro _ e h; cases h; exact fits_of (by decide) (by decide) f.d.isLt rfl f.tail_lt
theorem Fits.qpopT4 (f : F4) : Fits.Statement (.qpopT4 f) := by
  intro _ e h; cases h; exact fits_of (by decide) (by decide) f.d.isLt rfl f.tail_lt
theorem Fits.qstatT2 (f : F2) : Fits.Statement (.qstatT2 f) := by
  intro _ e h; cases h; exact fits_of (by decide) (by decide) f.d.isLt rfl f.tail_lt
theorem Fits.qstatT4 (f : F4) : Fits.Statement (.qstatT4 f) := by
  intro _ e h; cases h; exact fits_of (by decide) (by decide) f.d.isLt rfl f.tail_lt
theorem Fits.spld (f : F4) : Fits.Statement (.spld f) := by
  intro _ e h; cases h; exact fits_of (by decide) (by decide) f.d.isLt rfl f.tail_lt
theorem Fits.spst (f : F4) : Fits.Statement (.spst f) := by
  intro _ e h; cases h; exact fits_of (by decide) (by decide) f.d.isLt rfl f.tail_lt
theorem Fits.spupT0 (f : F0) : Fits.Statement (.spupT0 f) := by
  intro _ e h; cases h; exact fits_of (by decide) (by decide) f.d.isLt rfl (Nat.one_pos)
theorem Fits.spupT4 (f : F4) : Fits.Statement (.spupT4 f) := by
  intro _ e h; cases h; exact fits_of (by decide) (by decide) f.d.isLt rfl f.tail_lt
theorem Fits.spdnT0 (f : F0) : Fits.Statement (.spdnT0 f) := by
  intro _ e h; cases h; exact fits_of (by decide) (by decide) f.d.isLt rfl (Nat.one_pos)
theorem Fits.spdnT4 (f : F4) : Fits.Statement (.spdnT4 f) := by
  intro _ e h; cases h; exact fits_of (by decide) (by decide) f.d.isLt rfl f.tail_lt
theorem Fits.spmaxT0 (f : F0) : Fits.Statement (.spmaxT0 f) := by
  intro _ e h; cases h; exact fits_of (by decide) (by decide) f.d.isLt rfl (Nat.one_pos)
theorem Fits.spmaxT4 (f : F4) : Fits.Statement (.spmaxT4 f) := by
  intro _ e h; cases h; exact fits_of (by decide) (by decide) f.d.isLt rfl f.tail_lt
theorem Fits.spcvt (f : F4) : Fits.Statement (.spcvt f) := by
  intro _ e h; cases h; exact fits_of (by decide) (by decide) f.d.isLt rfl f.tail_lt
theorem Fits.spclr (f : F4) : Fits.Statement (.spclr f) := by
  intro _ e h; cases h; exact fits_of (by decide) (by decide) f.d.isLt rfl f.tail_lt
theorem Fits.spwld (f : F4) : Fits.Statement (.spwld f) := by
  intro _ e h; cases h; exact fits_of (by decide) (by decide) f.d.isLt rfl f.tail_lt
theorem Fits.spgst (f : F4) : Fits.Statement (.spgst f) := by
  intro _ e h; cases h; exact fits_of (by decide) (by decide) f.d.isLt rfl f.tail_lt
theorem Fits.spstatT2 (f : F2) : Fits.Statement (.spstatT2 f) := by
  intro _ e h; cases h; exact fits_of (by decide) (by decide) f.d.isLt rfl f.tail_lt
theorem Fits.spstatT4 (f : F4) : Fits.Statement (.spstatT4 f) := by
  intro _ e h; cases h; exact fits_of (by decide) (by decide) f.d.isLt rfl f.tail_lt
theorem Fits.lcopy (f : F4) : Fits.Statement (.lcopy f) := by
  intro _ e h; cases h; exact fits_of (by decide) (by decide) f.d.isLt rfl f.tail_lt
theorem Fits.lfill (f : F4) : Fits.Statement (.lfill f) := by
  intro _ e h; cases h; exact fits_of (by decide) (by decide) f.d.isLt rfl f.tail_lt
theorem Fits.lcancelT2 (f : F2) : Fits.Statement (.lcancelT2 f) := by
  intro _ e h; cases h; exact fits_of (by decide) (by decide) f.d.isLt rfl f.tail_lt
theorem Fits.lcancelT4 (f : F4) : Fits.Statement (.lcancelT4 f) := by
  intro _ e h; cases h; exact fits_of (by decide) (by decide) f.d.isLt rfl f.tail_lt
theorem Fits.lstatT2 (f : F2) : Fits.Statement (.lstatT2 f) := by
  intro _ e h; cases h; exact fits_of (by decide) (by decide) f.d.isLt rfl f.tail_lt
theorem Fits.lstatT4 (f : F4) : Fits.Statement (.lstatT4 f) := by
  intro _ e h; cases h; exact fits_of (by decide) (by decide) f.d.isLt rfl f.tail_lt
theorem Fits.prred (f : F4) : Fits.Statement (.prred f) := by
  intro _ e h; cases h; exact fits_of (by decide) (by decide) f.d.isLt rfl f.tail_lt
theorem Fits.prbc (f : F4) : Fits.Statement (.prbc f) := by
  intro _ e h; cases h; exact fits_of (by decide) (by decide) f.d.isLt rfl f.tail_lt
theorem Fits.prar (f : F4) : Fits.Statement (.prar f) := by
  intro _ e h; cases h; exact fits_of (by decide) (by decide) f.d.isLt rfl f.tail_lt
theorem Fits.prag (f : F4) : Fits.Statement (.prag f) := by
  intro _ e h; cases h; exact fits_of (by decide) (by decide) f.d.isLt rfl f.tail_lt
theorem Fits.nsendT2 (f : F2) : Fits.Statement (.nsendT2 f) := by
  intro _ e h; cases h; exact fits_of (by decide) (by decide) f.d.isLt rfl f.tail_lt
theorem Fits.nsendT4 (f : F4) : Fits.Statement (.nsendT4 f) := by
  intro _ e h; cases h; exact fits_of (by decide) (by decide) f.d.isLt rfl f.tail_lt
theorem Fits.npostT2 (f : F2) : Fits.Statement (.npostT2 f) := by
  intro _ e h; cases h; exact fits_of (by decide) (by decide) f.d.isLt rfl f.tail_lt
theorem Fits.npostT4 (f : F4) : Fits.Statement (.npostT4 f) := by
  intro _ e h; cases h; exact fits_of (by decide) (by decide) f.d.isLt rfl f.tail_lt
theorem Fits.rwriteT2 (f : F2) : Fits.Statement (.rwriteT2 f) := by
  intro _ e h; cases h; exact fits_of (by decide) (by decide) f.d.isLt rfl f.tail_lt
theorem Fits.rwriteT4 (f : F4) : Fits.Statement (.rwriteT4 f) := by
  intro _ e h; cases h; exact fits_of (by decide) (by decide) f.d.isLt rfl f.tail_lt
theorem Fits.rreadT2 (f : F2) : Fits.Statement (.rreadT2 f) := by
  intro _ e h; cases h; exact fits_of (by decide) (by decide) f.d.isLt rfl f.tail_lt
theorem Fits.rreadT4 (f : F4) : Fits.Statement (.rreadT4 f) := by
  intro _ e h; cases h; exact fits_of (by decide) (by decide) f.d.isLt rfl f.tail_lt
theorem Fits.ccwaitT2 (f : F2) : Fits.Statement (.ccwaitT2 f) := by
  intro _ e h; cases h; exact fits_of (by decide) (by decide) f.d.isLt rfl f.tail_lt
theorem Fits.ccwaitT4 (f : F4) : Fits.Statement (.ccwaitT4 f) := by
  intro _ e h; cases h; exact fits_of (by decide) (by decide) f.d.isLt rfl f.tail_lt
theorem Fits.ccrdT2 (f : F2) : Fits.Statement (.ccrdT2 f) := by
  intro _ e h; cases h; exact fits_of (by decide) (by decide) f.d.isLt rfl f.tail_lt
theorem Fits.ccrdT4 (f : F4) : Fits.Statement (.ccrdT4 f) := by
  intro _ e h; cases h; exact fits_of (by decide) (by decide) f.d.isLt rfl f.tail_lt
theorem Fits.ccsetT2 (f : F2) : Fits.Statement (.ccsetT2 f) := by
  intro _ e h; cases h; exact fits_of (by decide) (by decide) f.d.isLt rfl f.tail_lt
theorem Fits.ccsetT4 (f : F4) : Fits.Statement (.ccsetT4 f) := by
  intro _ e h; cases h; exact fits_of (by decide) (by decide) f.d.isLt rfl f.tail_lt
theorem Fits.nstatT0 (f : F0) : Fits.Statement (.nstatT0 f) := by
  intro _ e h; cases h; exact fits_of (by decide) (by decide) f.d.isLt rfl (Nat.one_pos)
theorem Fits.nstatT4 (f : F4) : Fits.Statement (.nstatT4 f) := by
  intro _ e h; cases h; exact fits_of (by decide) (by decide) f.d.isLt rfl f.tail_lt
theorem Fits.walkT2 (f : F2) : Fits.Statement (.walkT2 f) := by
  intro _ e h; cases h; exact fits_of (by decide) (by decide) f.d.isLt rfl f.tail_lt
theorem Fits.walkT4 (f : F4) : Fits.Statement (.walkT4 f) := by
  intro _ e h; cases h; exact fits_of (by decide) (by decide) f.d.isLt rfl f.tail_lt
theorem Fits.openT2 (f : F2) : Fits.Statement (.openT2 f) := by
  intro _ e h; cases h; exact fits_of (by decide) (by decide) f.d.isLt rfl f.tail_lt
theorem Fits.openT4 (f : F4) : Fits.Statement (.openT4 f) := by
  intro _ e h; cases h; exact fits_of (by decide) (by decide) f.d.isLt rfl f.tail_lt
theorem Fits.closeT2 (f : F2) : Fits.Statement (.closeT2 f) := by
  intro _ e h; cases h; exact fits_of (by decide) (by decide) f.d.isLt rfl f.tail_lt
theorem Fits.closeT4 (f : F4) : Fits.Statement (.closeT4 f) := by
  intro _ e h; cases h; exact fits_of (by decide) (by decide) f.d.isLt rfl f.tail_lt
theorem Fits.bind (f : F4) : Fits.Statement (.bind f) := by
  intro _ e h; cases h; exact fits_of (by decide) (by decide) f.d.isLt rfl f.tail_lt
theorem Fits.unbindT2 (f : F2) : Fits.Statement (.unbindT2 f) := by
  intro _ e h; cases h; exact fits_of (by decide) (by decide) f.d.isLt rfl f.tail_lt
theorem Fits.unbindT4 (f : F4) : Fits.Statement (.unbindT4 f) := by
  intro _ e h; cases h; exact fits_of (by decide) (by decide) f.d.isLt rfl f.tail_lt
theorem Fits.revokeT2 (f : F2) : Fits.Statement (.revokeT2 f) := by
  intro _ e h; cases h; exact fits_of (by decide) (by decide) f.d.isLt rfl f.tail_lt
theorem Fits.revokeT4 (f : F4) : Fits.Statement (.revokeT4 f) := by
  intro _ e h; cases h; exact fits_of (by decide) (by decide) f.d.isLt rfl f.tail_lt
theorem Fits.csrrT2 (f : F2) : Fits.Statement (.csrrT2 f) := by
  intro _ e h; cases h; exact fits_of (by decide) (by decide) f.d.isLt rfl f.tail_lt
theorem Fits.csrrT4 (f : F4) : Fits.Statement (.csrrT4 f) := by
  intro _ e h; cases h; exact fits_of (by decide) (by decide) f.d.isLt rfl f.tail_lt
theorem Fits.csrwT2 (f : F2) : Fits.Statement (.csrwT2 f) := by
  intro _ e h; cases h; exact fits_of (by decide) (by decide) f.d.isLt rfl f.tail_lt
theorem Fits.csrwT4 (f : F4) : Fits.Statement (.csrwT4 f) := by
  intro _ e h; cases h; exact fits_of (by decide) (by decide) f.d.isLt rfl f.tail_lt
theorem Fits.tretT2 (f : F2) : Fits.Statement (.tretT2 f) := by
  intro _ e h; cases h; exact fits_of (by decide) (by decide) f.d.isLt rfl f.tail_lt
theorem Fits.tretT4 (f : F4) : Fits.Statement (.tretT4 f) := by
  intro _ e h; cases h; exact fits_of (by decide) (by decide) f.d.isLt rfl f.tail_lt
theorem Fits.pmackT2 (f : F2) : Fits.Statement (.pmackT2 f) := by
  intro _ e h; cases h; exact fits_of (by decide) (by decide) f.d.isLt rfl f.tail_lt
theorem Fits.pmackT4 (f : F4) : Fits.Statement (.pmackT4 f) := by
  intro _ e h; cases h; exact fits_of (by decide) (by decide) f.d.isLt rfl f.tail_lt
theorem Fits.tshootT2 (f : F2) : Fits.Statement (.tshootT2 f) := by
  intro _ e h; cases h; exact fits_of (by decide) (by decide) f.d.isLt rfl f.tail_lt
theorem Fits.tshootT4 (f : F4) : Fits.Statement (.tshootT4 f) := by
  intro _ e h; cases h; exact fits_of (by decide) (by decide) f.d.isLt rfl f.tail_lt
theorem Fits.sstop (f : F4) : Fits.Statement (.sstop f) := by
  intro _ e h; cases h; exact fits_of (by decide) (by decide) f.d.isLt rfl f.tail_lt
theorem Fits.partwT2 (f : F2) : Fits.Statement (.partwT2 f) := by
  intro _ e h; cases h; exact fits_of (by decide) (by decide) f.d.isLt rfl f.tail_lt
theorem Fits.partwT4 (f : F4) : Fits.Statement (.partwT4 f) := by
  intro _ e h; cases h; exact fits_of (by decide) (by decide) f.d.isLt rfl f.tail_lt
theorem Fits.haltT0 (f : F0) : Fits.Statement (.haltT0 f) := by
  intro _ e h; cases h; exact fits_of (by decide) (by decide) f.d.isLt rfl (Nat.one_pos)
theorem Fits.haltT4 (f : F4) : Fits.Statement (.haltT4 f) := by
  intro _ e h; cases h; exact fits_of (by decide) (by decide) f.d.isLt rfl f.tail_lt
theorem Fits.attqT2 (f : F2) : Fits.Statement (.attqT2 f) := by
  intro _ e h; cases h; exact fits_of (by decide) (by decide) f.d.isLt rfl f.tail_lt
theorem Fits.attqT4 (f : F4) : Fits.Statement (.attqT4 f) := by
  intro _ e h; cases h; exact fits_of (by decide) (by decide) f.d.isLt rfl f.tail_lt
theorem Fits.reservedOpcode (f : FRaw) : Fits.Statement (.reservedOpcode f) := by
  intro hw e h
  cases h
  exact fits_raw (Bool.and_eq_true_iff.mp hw).2
theorem Fits.illegalOpcodeFf (f : FRaw) : Fits.Statement (.illegalOpcodeFf f) := by
  intro hw e h
  cases h
  exact fits_raw (Bool.and_eq_true_iff.mp hw).2
theorem Fits.groupCommit : ∀ a0 a1 a2, Fits.Statement (.groupCommit a0 a1 a2) := fun _ _ _ _ _ h => nomatch h
theorem Fits.commitStep5Resume : ∀ a0 a1, Fits.Statement (.commitStep5Resume a0 a1) := fun _ _ _ _ h => nomatch h
theorem Fits.resultReturn : ∀ a0 a1 a2, Fits.Statement (.resultReturn a0 a1 a2) := fun _ _ _ _ _ h => nomatch h
theorem Fits.lineFetch : ∀ a0 a1, Fits.Statement (.lineFetch a0 a1) := fun _ _ _ _ h => nomatch h
theorem Fits.messageDelivery : ∀ a0, Fits.Statement (.messageDelivery a0) := fun _ _ _ h => nomatch h
theorem Fits.handlerMessageArrival : ∀ a0, Fits.Statement (.handlerMessageArrival a0) := fun _ _ _ h => nomatch h
theorem Fits.handlerEntryTimeout : ∀ a0 a1, Fits.Statement (.handlerEntryTimeout a0 a1) := fun _ _ _ _ h => nomatch h
theorem Fits.slotRotationStart : ∀ a0, Fits.Statement (.slotRotationStart a0) := fun _ _ _ h => nomatch h
theorem Fits.channelDry : ∀ a0 a1, Fits.Statement (.channelDry a0 a1) := fun _ _ _ _ h => nomatch h
theorem Fits.loadReadStep : ∀ a0 a1 a2, Fits.Statement (.loadReadStep a0 a1 a2) := fun _ _ _ _ _ h => nomatch h
theorem Fits.writePerform : ∀ a0 a1 a2, Fits.Statement (.writePerform a0 a1 a2) := fun _ _ _ _ _ h => nomatch h
theorem Fits.homeApply : ∀ a0, Fits.Statement (.homeApply a0) := fun _ _ _ h => nomatch h
theorem Fits.atomicStep : ∀ a0 a1 a2, Fits.Statement (.atomicStep a0 a1 a2) := fun _ _ _ _ _ h => nomatch h
theorem Fits.frontierPropagation : ∀ a0, Fits.Statement (.frontierPropagation a0) := fun _ _ _ h => nomatch h
theorem Fits.extentAllocationWake : ∀ a0 a1 a2 a3, Fits.Statement (.extentAllocationWake a0 a1 a2 a3) := fun _ _ _ _ _ _ h => nomatch h
theorem Fits.heatSweep  : Fits.Statement (.heatSweep) := fun _ _ h => nomatch h
theorem Fits.extentMove : ∀ a0 a1 a2, Fits.Statement (.extentMove a0 a1 a2) := fun _ _ _ _ _ h => nomatch h
theorem Fits.weightRefreshWindow  : Fits.Statement (.weightRefreshWindow) := fun _ _ h => nomatch h
theorem Fits.scrubExtentClear : ∀ a0 a1, Fits.Statement (.scrubExtentClear a0 a1) := fun _ _ _ _ h => nomatch h
theorem Fits.vectorOpStart : ∀ a0 a1, Fits.Statement (.vectorOpStart a0 a1) := fun _ _ _ _ h => nomatch h
theorem Fits.vectorOpRetire : ∀ a0 a1, Fits.Statement (.vectorOpRetire a0 a1) := fun _ _ _ _ h => nomatch h
theorem Fits.tileZeroFillEnd : ∀ a0 a1, Fits.Statement (.tileZeroFillEnd a0 a1) := fun _ _ _ _ h => nomatch h
theorem Fits.tileTaskAccept : ∀ a0, Fits.Statement (.tileTaskAccept a0) := fun _ _ _ h => nomatch h
theorem Fits.tileTaskStart : ∀ a0 a1 a2, Fits.Statement (.tileTaskStart a0 a1 a2) := fun _ _ _ _ _ h => nomatch h
theorem Fits.tileTaskComplete : ∀ a0 a1 a2, Fits.Statement (.tileTaskComplete a0 a1 a2) := fun _ _ _ _ _ h => nomatch h
theorem Fits.trellisAccept : ∀ a0, Fits.Statement (.trellisAccept a0) := fun _ _ _ h => nomatch h
theorem Fits.trellisCommandStart : ∀ a0 a1 a2, Fits.Statement (.trellisCommandStart a0 a1 a2) := fun _ _ _ _ _ h => nomatch h
theorem Fits.trellisCommandRetire : ∀ a0 a1 a2, Fits.Statement (.trellisCommandRetire a0 a1 a2) := fun _ _ _ _ _ h => nomatch h
theorem Fits.trellisImageSwap : ∀ a0 a1, Fits.Statement (.trellisImageSwap a0 a1) := fun _ _ _ _ h => nomatch h
theorem Fits.ladleChunk : ∀ a0 a1, Fits.Statement (.ladleChunk a0 a1) := fun _ _ _ _ h => nomatch h
theorem Fits.pressChunk : ∀ a0 a1, Fits.Statement (.pressChunk a0 a1) := fun _ _ _ _ h => nomatch h
theorem Fits.netPacketSend : ∀ a0 a1 a2 a3, Fits.Statement (.netPacketSend a0 a1 a2 a3) := fun _ _ _ _ _ _ h => nomatch h
theorem Fits.netPacketArrival : ∀ a0 a1, Fits.Statement (.netPacketArrival a0 a1) := fun _ _ _ _ h => nomatch h
theorem Fits.netAckArrival : ∀ a0 a1, Fits.Statement (.netAckArrival a0 a1) := fun _ _ _ _ h => nomatch h
theorem Fits.netResendTimeout : ∀ a0 a1 a2 a3, Fits.Statement (.netResendTimeout a0 a1 a2 a3) := fun _ _ _ _ _ _ h => nomatch h
theorem Fits.netUnmatchedRetry : ∀ a0 a1 a2, Fits.Statement (.netUnmatchedRetry a0 a1 a2) := fun _ _ _ _ _ h => nomatch h
theorem Fits.completionCounterStep : ∀ a0, Fits.Statement (.completionCounterStep a0) := fun _ _ _ h => nomatch h
theorem Fits.placerPass : ∀ a0, Fits.Statement (.placerPass a0) := fun _ _ _ h => nomatch h
theorem Fits.launchEnd : ∀ a0, Fits.Statement (.launchEnd a0) := fun _ _ _ h => nomatch h
theorem Fits.stealRequest : ∀ a0, Fits.Statement (.stealRequest a0) := fun _ _ _ h => nomatch h
theorem Fits.stealAnswer : ∀ a0, Fits.Statement (.stealAnswer a0) := fun _ _ _ h => nomatch h
theorem Fits.stealBackoffExpiry : ∀ a0, Fits.Statement (.stealBackoffExpiry a0) := fun _ _ _ h => nomatch h
theorem Fits.migrationArrival : ∀ a0, Fits.Statement (.migrationArrival a0) := fun _ _ _ h => nomatch h
theorem Fits.nseAnswer : ∀ a0, Fits.Statement (.nseAnswer a0) := fun _ _ _ h => nomatch h
theorem Fits.shootdownReceipt : ∀ a0 a1, Fits.Statement (.shootdownReceipt a0 a1) := fun _ _ _ _ h => nomatch h
theorem Fits.shootdownAck : ∀ a0 a1, Fits.Statement (.shootdownAck a0 a1) := fun _ _ _ _ h => nomatch h
theorem Fits.frameWalk : ∀ a0, Fits.Statement (.frameWalk a0) := fun _ _ _ h => nomatch h
theorem Fits.frameOpen : ∀ a0, Fits.Statement (.frameOpen a0) := fun _ _ _ h => nomatch h
theorem Fits.frameRead : ∀ a0, Fits.Statement (.frameRead a0) := fun _ _ _ h => nomatch h
theorem Fits.frameWrite : ∀ a0, Fits.Statement (.frameWrite a0) := fun _ _ _ h => nomatch h
theorem Fits.frameMake : ∀ a0, Fits.Statement (.frameMake a0) := fun _ _ _ h => nomatch h
theorem Fits.frameClose : ∀ a0, Fits.Statement (.frameClose a0) := fun _ _ _ h => nomatch h
theorem Fits.frameRevoke : ∀ a0, Fits.Statement (.frameRevoke a0) := fun _ _ _ h => nomatch h
theorem Fits.frameBind : ∀ a0, Fits.Statement (.frameBind a0) := fun _ _ _ h => nomatch h
theorem Fits.frameUnbind : ∀ a0, Fits.Statement (.frameUnbind a0) := fun _ _ _ h => nomatch h
theorem Fits.contextCreate : ∀ a0 a1, Fits.Statement (.contextCreate a0 a1) := fun _ _ _ _ h => nomatch h
theorem Fits.contextEnd : ∀ a0, Fits.Statement (.contextEnd a0) := fun _ _ _ h => nomatch h
theorem Fits.queueGo : ∀ a0 a1, Fits.Statement (.queueGo a0 a1) := fun _ _ _ _ h => nomatch h
theorem Fits.queueCtlWrite : ∀ a0 a1 a2 a3, Fits.Statement (.queueCtlWrite a0 a1 a2 a3) := fun _ _ _ _ _ _ h => nomatch h
theorem Fits.queueHeaderRead : ∀ a0, Fits.Statement (.queueHeaderRead a0) := fun _ _ _ h => nomatch h
theorem Fits.packetParse : ∀ a0, Fits.Statement (.packetParse a0) := fun _ _ _ h => nomatch h
theorem Fits.pktLaunch : ∀ a0, Fits.Statement (.pktLaunch a0) := fun _ _ _ h => nomatch h
theorem Fits.pktGlaunch : ∀ a0, Fits.Statement (.pktGlaunch a0) := fun _ _ _ h => nomatch h
theorem Fits.pktWait : ∀ a0, Fits.Statement (.pktWait a0) := fun _ _ _ h => nomatch h
theorem Fits.pktSignal : ∀ a0, Fits.Statement (.pktSignal a0) := fun _ _ _ h => nomatch h
theorem Fits.pktCopy : ∀ a0, Fits.Statement (.pktCopy a0) := fun _ _ _ h => nomatch h
theorem Fits.pktIb : ∀ a0, Fits.Statement (.pktIb a0) := fun _ _ _ h => nomatch h
theorem Fits.pktReplay : ∀ a0, Fits.Statement (.pktReplay a0) := fun _ _ _ h => nomatch h
theorem Fits.pktBind : ∀ a0, Fits.Statement (.pktBind a0) := fun _ _ _ h => nomatch h
theorem Fits.pktNop : ∀ a0, Fits.Statement (.pktNop a0) := fun _ _ _ h => nomatch h
theorem Fits.ibGranuleFetch : ∀ a0, Fits.Statement (.ibGranuleFetch a0) := fun _ _ _ h => nomatch h
theorem Fits.parserCoreFault : ∀ a0, Fits.Statement (.parserCoreFault a0) := fun _ _ _ h => nomatch h
theorem Fits.supervisorMismatch  : Fits.Statement (.supervisorMismatch) := fun _ _ h => nomatch h
theorem Fits.supervisorCheckpoint  : Fits.Statement (.supervisorCheckpoint) := fun _ _ h => nomatch h
theorem Fits.setPartition : ∀ a0, Fits.Statement (.setPartition a0) := fun _ _ _ h => nomatch h
theorem Fits.removePartition : ∀ a0, Fits.Statement (.removePartition a0) := fun _ _ _ h => nomatch h
theorem Fits.activateFirmware : ∀ a0 a1 a2, Fits.Statement (.activateFirmware a0 a1 a2) := fun _ _ _ _ _ h => nomatch h
theorem Fits.sliceExpiry : ∀ a0, Fits.Statement (.sliceExpiry a0) := fun _ _ _ h => nomatch h
theorem Fits.stopAnnouncement : ∀ a0, Fits.Statement (.stopAnnouncement a0) := fun _ _ _ h => nomatch h
theorem Fits.syncStop : ∀ a0, Fits.Statement (.syncStop a0) := fun _ _ _ h => nomatch h
theorem Fits.flushToken : ∀ a0 a1, Fits.Statement (.flushToken a0 a1) := fun _ _ _ _ h => nomatch h
theorem Fits.partitionSave : ∀ a0 a1, Fits.Statement (.partitionSave a0 a1) := fun _ _ _ _ h => nomatch h
theorem Fits.partitionRestore : ∀ a0 a1, Fits.Statement (.partitionRestore a0 a1) := fun _ _ _ _ h => nomatch h
theorem Fits.partitionResume : ∀ a0, Fits.Statement (.partitionResume a0) := fun _ _ _ h => nomatch h
theorem Fits.graderSignature : ∀ a0 a1 a2 a3, Fits.Statement (.graderSignature a0 a1 a2 a3) := fun _ _ _ _ _ _ h => nomatch h
theorem Fits.fallowLeaseStart : ∀ a0, Fits.Statement (.fallowLeaseStart a0) := fun _ _ _ h => nomatch h
theorem Fits.fallowLeaseEnd : ∀ a0 a1, Fits.Statement (.fallowLeaseEnd a0 a1) := fun _ _ _ _ h => nomatch h
theorem Fits.channelLeaseWaitRecord : ∀ a0, Fits.Statement (.channelLeaseWaitRecord a0) := fun _ _ _ h => nomatch h
theorem Fits.scoreDecay : ∀ a0, Fits.Statement (.scoreDecay a0) := fun _ _ _ h => nomatch h
theorem Fits.pmackDeadlineExpiry : ∀ a0, Fits.Statement (.pmackDeadlineExpiry a0) := fun _ _ _ h => nomatch h
theorem Fits.duoVote : ∀ a0 a1, Fits.Statement (.duoVote a0 a1) := fun _ _ _ _ h => nomatch h
theorem Fits.duoThirdCopy : ∀ a0 a1, Fits.Statement (.duoThirdCopy a0 a1) := fun _ _ _ _ h => nomatch h
theorem Fits.quoteSign  : Fits.Statement (.quoteSign) := fun _ _ h => nomatch h
theorem Fits.powerOnBoot : ∀ a0 a1, Fits.Statement (.powerOnBoot a0 a1) := fun _ _ _ _ h => nomatch h
theorem Fits.mgmtRead : ∀ a0 a1 a2, Fits.Statement (.mgmtRead a0 a1 a2) := fun _ _ _ _ _ h => nomatch h
theorem Fits.packageReset  : Fits.Statement (.packageReset) := fun _ _ h => nomatch h
theorem Fits.thermalHoldEnter  : Fits.Statement (.thermalHoldEnter) := fun _ _ h => nomatch h
theorem Fits.thermalHoldExit  : Fits.Statement (.thermalHoldExit) := fun _ _ h => nomatch h
theorem Fits.thermalShutdown  : Fits.Statement (.thermalShutdown) := fun _ _ h => nomatch h
theorem Fits.ladleRequestAccept : ∀ a0, Fits.Statement (.ladleRequestAccept a0) := fun _ _ _ h => nomatch h
theorem Fits.pressCommandAccept : ∀ a0, Fits.Statement (.pressCommandAccept a0) := fun _ _ _ h => nomatch h
theorem Fits.netRequestAccept : ∀ a0, Fits.Statement (.netRequestAccept a0) := fun _ _ _ h => nomatch h
theorem Fits.powerLoss : ∀ a0, Fits.Statement (.powerLoss a0) := fun _ _ _ h => nomatch h

end Sys2Proof.Laws
end

