-- ==== Sys2Proof/Laws/Traps.lean ====
section
/-! SUPPORT. The other outcomes of an issue: a trap that joins the group, a false guard, a park. -/

namespace Sys2Proof.Machine

theorem Thread.groupTrap_trap (x : Thread) (cause sub : Nat) (info : Word) (b l : Bool) :
    (x.groupTrap cause sub info b l).grp.trap =
      some (x.grp.trap.getD { pos := x.grp.n, pc := x.pc, cause := cause, sub := sub, info := info }) := by
  unfold Thread.groupTrap
  by_cases h : x.grp.self.isSome ∧ x.grp.trap.isNone
  · simp only [h, and_self, if_true]; rfl
  · simp only [h, if_false, Thread.advance_grp]

theorem Thread.groupTrap_gv (x : Thread) (cause sub : Nat) (info : Word) (b l : Bool) (n : Nat) :
    (x.groupTrap cause sub info b l).gv n = x.gv n := by
  unfold Thread.groupTrap
  by_cases h : x.grp.self.isSome ∧ x.grp.trap.isNone
  · simp only [h, and_self, if_true]; rfl
  · simp only [h, if_false, Thread.advance_gv]; rfl

theorem Thread.groupTrap_pv (x : Thread) (cause sub : Nat) (info : Word) (b l : Bool) (n : Nat) :
    (x.groupTrap cause sub info b l).pv n = x.pv n := by
  unfold Thread.groupTrap
  by_cases h : x.grp.self.isSome ∧ x.grp.trap.isNone
  · simp only [h, and_self, if_true]; rfl
  · simp only [h, if_false, Thread.advance_pv]; rfl

/-- Replacing the issuing thread, its group open, changes nothing else. -/
theorem State.OnlyThread.of_opened (s : State) (y : Thread) :
    s.OnlyThread (s.opened.setThr s.curCore s.curThr y) s.curCore s.curThr := by
  refine ⟨rfl, ?_, ?_, ?_⟩
  · intro d h; simp only [State.opened, State.setThr_core_ne _ h]
  · simp [State.opened, State.setThr, Core.setThread]
  · intro j h; simp [State.opened, h]

/-- A trap of the issuing instruction joins its group. -/
theorem State.Traps.of_group (s : State) (cause sub : Nat) (info : Word) (b l : Bool) :
    s.Traps (s.opened.setThr s.curCore s.curThr (s.me.groupTrap cause sub info b l)) cause sub info := by
  refine ⟨State.OnlyThread.of_opened s _, ?_, ?_, ?_⟩
  · simp [Thread.groupTrap_trap]
  · intro n; simp [Thread.groupTrap_gv]
  · intro n; simp [Thread.groupTrap_pv]

/-- The same for an instruction that has read its sources (R53). -/
theorem State.Traps.of_read (s : State) (op : Nat) (fm : Form) (o : Opnd) (cause sub : Nat) (info : Word) (b l : Bool) :
    s.Traps (s.opened.setThr s.curCore s.curThr ((s.me.readBy op fm o).groupTrap cause sub info b l)) cause sub info := by
  refine ⟨State.OnlyThread.of_opened s _, ?_, ?_, ?_⟩
  · rw [State.setThr_thr]; simp only [and_self, if_true, Thread.groupTrap_trap]; rfl
  · intro n; rw [State.setThr_thr]; simp only [and_self, if_true, Thread.groupTrap_gv]; rfl
  · intro n; rw [State.setThr_thr]; simp only [and_self, if_true, Thread.groupTrap_pv]; rfl

/-- An instruction whose own effect is a trap. -/
theorem issue_trap {s : State} {op : Nat} {fm : Form} {o : Opnd} {va vb vc : Word} {body : Iss → Try Out} {cause sub : Nat}
    {info : Word} (h : s.Ready op fm o va vb vc) (hb : body (s.iss op fm o va vb vc) = .error (.trap cause sub info)) :
    ∃ t, issue op fm o body s = .next t ∧ s.Traps t cause sub info := by
  have hg := h.gate
  have hr := h.rules
  have hd := h.duo
  have hs := h.sources
  have hb' : body { s := s.opened, c := s.curCore, t := s.curThr, x := s.me, op := op, fm := fm, o := o
                    pos := s.me.grp.n, pc := s.me.pc, va := va, vb := vb, vc := vc } = .error (.trap cause sub info) := hb
  refine ⟨_, ?_, State.Traps.of_read s op fm o cause sub info o.s false⟩
  simp only [State.me, State.opened] at hg hr hd hs hb'
  simp only [issue, State.issue, State.me, State.opened, hg, hr, hd, hs]
  simp only [bind, Except.bind, Bool.false_eq_true, if_false, hb']

/-- An instruction that parks its thread. -/
theorem issue_park {s : State} {op : Nat} {fm : Form} {o : Opnd} {va vb vc : Word} {body : Iss → Try Out} {n : Nat}
    (h : s.Ready op fm o va vb vc) (hb : body (s.iss op fm o va vb vc) = .error (.park n)) :
    issue op fm o body s = .next (s.opened.setThr s.curCore s.curThr (s.me.park n)) := by
  have hg := h.gate
  have hr := h.rules
  have hd := h.duo
  have hs := h.sources
  have hb' : body { s := s.opened, c := s.curCore, t := s.curThr, x := s.me, op := op, fm := fm, o := o
                    pos := s.me.grp.n, pc := s.me.pc, va := va, vb := vb, vc := vc } = .error (.park n) := hb
  simp only [State.me, State.opened] at hg hr hd hs hb'
  simp only [issue, State.issue, State.me, State.opened, hg, hr, hd, hs]
  simp only [bind, Except.bind, Bool.false_eq_true, if_false, hb']

/-- A source that cannot be read: an empty register parks the thread, a poisoned one traps. -/
theorem issue_source {s : State} {op : Nat} {fm : Form} {o : Opnd} {body : Iss → Try Out} {e : NoGo}
    (hg : s.opened.gate s.curCore s.curThr op fm o = .go) (hr : s.me.groupRules op fm o = none)
    (hd : (s.me.duo && duoBarred op) = false) (hs : s.me.readSrcs op fm o = .error e) :
    issue op fm o body s = .next (match e with
      | .park n => s.opened.setThr s.curCore s.curThr (s.me.park n)
      | .hold => s.opened
      | .assist rec => (s.opened.assistRecord s.curCore s.curThr rec).setThr s.curCore s.curThr
          ((s.me.readBy op fm o).groupTrap 0x31 (if s.me.assist.isSome then 1 else 0) (assistPtr s.curCore s.curThr) o.s false)
      | .trap cause sub info =>
        s.opened.setThr s.curCore s.curThr ((s.me.readBy op fm o).groupTrap cause sub info o.s false)) := by
  simp only [State.me, State.opened] at hg hr hd hs
  simp only [issue, State.issue, State.me, State.opened, hg, hr, hd, hs]
  cases e <;> simp only [bind, Except.bind, Bool.false_eq_true, if_false]
  rfl

/-- Checks 3, 6 and 7 of R61 that trap. -/
theorem issue_gate {s : State} {op : Nat} {fm : Form} {o : Opnd} {body : Iss → Try Out} {cause sub : Nat} {info : Word}
    (hg : s.opened.gate s.curCore s.curThr op fm o = .trap cause sub info) :
    ∃ t, issue op fm o body s = .next t ∧ s.Traps t cause sub info := by
  refine ⟨_, ?_, State.Traps.of_group s cause sub info o.s false⟩
  simp only [State.me, State.opened] at hg
  simp only [issue, State.issue, State.me, State.opened, hg]

/-- Check 8 of R61 that traps. -/
theorem issue_rules {s : State} {op : Nat} {fm : Form} {o : Opnd} {body : Iss → Try Out} {cause sub : Nat} {info : Word}
    {l : Bool} (hg : s.opened.gate s.curCore s.curThr op fm o = .go)
    (hr : s.me.groupRules op fm o = some (cause, sub, info, l)) :
    ∃ t, issue op fm o body s = .next t ∧ s.Traps t cause sub info := by
  refine ⟨_, ?_, State.Traps.of_group s cause sub info o.s l⟩
  simp only [State.me, State.opened] at hg hr
  simp only [issue, State.issue, State.me, State.opened, hg, hr]

/-- A false guard: the instruction has no effect, and its group goes on or ends (R25, R51). -/
theorem issue_skip {s : State} {op : Nat} {fm : Form} {o : Opnd} {body : Iss → Try Out}
    (hg : s.opened.gate s.curCore s.curThr op fm o = .skip) :
    issue op fm o body s =
      .next (s.opened.setThr s.curCore s.curThr (s.me.advance o.s (s.me.following s.me.pc))) := by
  simp only [State.me, State.opened] at hg
  simp only [issue, State.issue, State.me, State.opened, hg]

/-- What an issued instruction's answer must agree on for its thread to hold the same. -/
theorem Thread.Does.congr {x y : Thread} {op : Nat} {fm : Form} {o : Opnd} {r q : Out} (h : x.Does y op fm o r)
    (hg : r.g = q.g) (hp : r.p = q.p) (hres : r.res = q.res) (hdefs : r.defs = q.defs) (hundo : r.undo = q.undo)
    (hgiven : r.given = q.given) (hfence : r.fence = q.fence) (hif : r.ifence = q.ifence) (hfx : r.fx = q.fx)
    (hj : r.jump = q.jump) (hpost : r.post = q.post) : x.Does y op fm o q := by
  obtain ⟨a, b, c, d, e, f, g, k, l, m, n, p1, p2, p3, p4, p5, p6, p7⟩ := h
  exact ⟨by rw [← hg]; exact a, by rw [← hg]; exact b, by rw [← hp]; exact c, by rw [← hres]; exact d,
    by rw [← hdefs]; exact e, f, g, by rw [← hundo]; exact k, by rw [← hgiven]; exact l, by rw [← hfence]; exact m,
    by rw [← hif]; exact n, by rw [← hfx]; exact p1, p2, p3, by rw [← hj]; exact p4, p5, by rw [← hpost]; exact p6, p7⟩

/-- An instruction that executes normally and claims nothing at issue: it does what its body answers, and any answer
that agrees with it in what the thread keeps. -/
theorem exec_does {i : Instr} {s : State} {op : Nat} {fm : Form} {o : Opnd} {va vb vc : Word} {r q : Out}
    (hv : i.view = some (op, fm, o)) (h : s.Ready op fm o va vb vc) (hb : bodyOf op (s.iss op fm o va vb vc) = .ok r)
    (hn : r.np = none) (hs : r.st = none) (hrd : r.keepsReads op fm o) (hq : q.st = none)
    (e : r.g = q.g ∧ r.p = q.p ∧ r.res = q.res ∧ r.defs = q.defs ∧ r.undo = q.undo ∧ r.given = q.given ∧ r.fence = q.fence
      ∧ r.ifence = q.ifence ∧ r.fx = q.fx ∧ r.jump = q.jump ∧ r.post = q.post) :
    ∃ t, exec i s = .next t ∧ s.Does t op fm o q := by
  obtain ⟨t, h1, h2⟩ := issue_ready_plain h hb hn hs hrd
  obtain ⟨e1, e2, e3, e4, e5, e6, e7, e8, e9, e10, e11⟩ := e
  have hf := h2.frame
  have ht := h2.thread
  rw [hs] at hf ht
  exact ⟨t, (exec_issue hv s).trans h1,
    ⟨by rw [hq]; exact hf, by rw [hq]; exact ht.congr e1 e2 e3 e4 e5 e6 e7 e8 e9 e10 e11⟩⟩

/-- An instruction whose body answers a trap. -/
theorem exec_traps {i : Instr} {s : State} {op : Nat} {fm : Form} {o : Opnd} {va vb vc : Word} {cause sub : Nat} {info : Word}
    (hv : i.view = some (op, fm, o)) (h : s.Ready op fm o va vb vc)
    (hb : bodyOf op (s.iss op fm o va vb vc) = .error (.trap cause sub info)) :
    ∃ t, exec i s = .next t ∧ s.Traps t cause sub info := by
  obtain ⟨t, h1, h2⟩ := issue_trap h hb
  exact ⟨t, (exec_issue hv s).trans h1, h2⟩

end Sys2Proof.Machine
end

