-- ==== Sys2Proof/Tests/Slice0.lean ====
section
/-! SUPPORT. Tests: ill-formed terms, words decoded bit by bit, a witness for every statement that has hypotheses, and
single steps of the events. Expected values are read or computed by hand from the rules named beside them. -/

open Sys2Proof Sys2Proof.Machine Sys2Proof.Spec

namespace Sys2Proof.Tests

set_option Elab.async false

/-! ### A small machine -/

/-- One thread, in context 2 with handle 1 open on a memory object of 64 KiB with every right. -/
def mini (th : Thread) (k : Core := {}) (dom : Nat := 0) (c : Nat := 0) (t : Nat := 0) : State :=
  { State.reset with
    curCore := c, curThr := t
    ctxs := [(2, { alive := true, dom := dom, owner := 1, hnd := [(1, { oid := 7, size := 65536, st := .valid, rights := 127 })] })]
    objs := [(7, { size := 65536, ext := [(0, {})] })]
    cores := [(c, { k with th := [(t, th)] })] }

/-- A ready thread with some registers. -/
def run (g : SMap Word) (full : BitVec 16 := 0xFFFF#16) : Thread := { st := 1, ctx := 2, g := g, full := full }

/-- A pointer into the object, with a block-scale and a format field above it. -/
def obj (off : Nat) (fmt : Nat := 0) (blg : Nat := 0) : Word := BitVec.ofNat 64 (2 ^ 58 * fmt + 2 ^ 55 * blg + 2 ^ 42 + off)

/-- A thread with nothing in its registers. -/
def idle : State := mini (run [])

/-- Heads and tails by their fields. -/
def t0 (d : BitVec 4) (s : Bool := false) : F0 := { s := s, p := false, d := d }
def t2 (d a b : BitVec 4) (m : BitVec 6 := 0) (s : Bool := false) : F2 := { s := s, p := false, d := d, a := a, b := b, la := false, lb := false, m := m }
def t4 (d a b c : BitVec 4) (m : BitVec 13 := 0) (s : Bool := false) (pg : BitVec 4 := 0) : F4 :=
  { s := s, p := false, d := d, a := a, b := b, c := c, pg := pg, la := false, lb := false, lc := false, m := m }
def t4b (d : BitVec 4) (disp : BitVec 16) : F4b := { s := false, p := false, d := d, disp := disp, pg := 0, m := 0 }
def t8 (d a : BitVec 4) (m : BitVec 7) (i : BitVec 48) : F8 := { s := false, p := false, d := d, a := a, pg := 0, la := false, m := m, i := i }

/-- The opcode of an instruction of a core. -/
def opOf (i : Instr) : Nat := (i.view.map (·.1)).getD 0x100

/-- A value that goes on. -/
def okB {α : Type} [BEq α] (x : Try α) (v : α) : Bool := match x with | .ok w => w == v | .error _ => false

/-- An instruction executes normally in a state, with these values of its g sources. -/
def readyB (i : Instr) (s : State) (a b c : Word) : Bool :=
  match i.view with
  | none => false
  | some (op, fm, o) =>
    decide (s.opened.gate s.curCore s.curThr op fm o = .go) && decide (s.me.groupRules op fm o = none)
      && !(s.me.duo && duoBarred op)
      && (match s.me.readSrcs op fm o with | .ok (x, y, z) => x == a && y == b && z == c | .error _ => false)
      && !s.me.grp.holdsSelf (mayUpdate op fm o)
      && !(mayUpdate op fm o && s.me.grp.blocked)

/-- What `readyB` finds is what the statements ask for. -/
theorem ready_of {i : Instr} {s : State} {a b c : Word} (h : readyB i s a b c = true) :
    ∃ op fm o, i.view = some (op, fm, o) ∧ s.Ready op fm o a b c := by
  unfold readyB at h
  split at h
  · exact absurd h (by simp)
  · next op fm o hv =>
    simp only [Bool.and_eq_true, decide_eq_true_eq, Bool.not_eq_true'] at h
    obtain ⟨⟨⟨⟨⟨h1, h2⟩, h3⟩, h4⟩, h5⟩, h6⟩ := h
    refine ⟨op, fm, o, hv, h1, h2, h3, ?_, h5, h6⟩
    split at h4
    · next x y z hr => simp only [Bool.and_eq_true, beq_iff_eq] at h4; obtain ⟨⟨rfl, rfl⟩, rfl⟩ := h4; exact hr
    · exact absurd h4 (by simp)

/-- An access passes, a store too. -/
def passesB (s : State) (p : Word) (n align right : Nat) : Bool :=
  match s.opened.translate s.curCore s.me.ctx (s.me.grp.givenBefore s.me.grp.n) p n align right with
  | .ok k => k.np.isNone && !(s.opened.core s.curCore).scbHit k.loc n && k.ws.isNone && k.z == 0
  | .error _ => false

/-- What `passesB` finds is what the statements ask for. -/
theorem passes_of {s : State} {p : Word} {n align right : Nat} (h : passesB s p n align right = true) :
    ∃ k, PassesW s p n align right k := by
  unfold passesB at h
  split at h
  · next k hk =>
    simp only [Bool.and_eq_true, Bool.not_eq_true', Option.isNone_iff_eq_none, beq_iff_eq] at h
    exact ⟨k, ⟨hk, h.1.1.1, h.1.1.2⟩, h.1.2, h.2⟩
  · exact absurd h (by simp)

/-- A register holds a value. -/
def holdsB (s : State) (n : Nat) (v : Word) : Bool := okB (s.me.readG n) v

/-- The exec of an instruction in a state goes on to a state with a property. -/
def goesB (i : Instr) (s : State) (p : State → Bool) : Bool := match exec i s with | .next t => p t | _ => false

/-! ### The statements about a core's instructions: a witness for each clause -/

theorem wit_NopHasNoEffect :
    readyB (.nop (t0 0)) idle 0 0 0 = true ∧ headAt [0#8, 0#8, 0#8, 0x80#8] 0 = some (0, 0)
      ∧ (t0 1).d ≠ 0 ∧ (0x1000 / 16 % 256 = 0x00 ∧ 0x1000 / 4096 % 4 ≠ 0) := by decide

/-- A code line of NOPs. -/
def nops : List Byte := (List.replicate 32 [0#8, 0x80#8]).flatten
/-- A thread whose buffer holds the line at 0, with the return address 4. -/
def jumper (g : SMap Word) : State := mini { run g with fb := [(0, nops)] }

/-- The line of a target is fetched, and its head is valid. -/
def codeB (s : State) (p : Word) : Bool :=
  decide (fpOff p % 2 = 0) && match s.opened.fetch s.curCore s.curThr p with
    | .line _ l => (headAt l (fpOff p % 64 / 2)).isSome
    | _ => false

theorem wit_TransfersJump :
    let s := jumper [(14, 4), (2, 6)]
    (readyB (.jmp (t4b 0 5)) s 0 0 0 && readyB (.jp (t4b 0 5)) s 0 0 0 && readyB (.jp (t4b 1 5)) s 0 0 0
      && readyB (.jnp (t4b 1 31)) s 0 0 0 && readyB (.jnp (t4b 0 31)) s 0 0 0 && readyB (.callT4b { t4b 0 31 with s := true }) s 0 0 0
      && readyB (.callT2 (t2 0 2 0 0 true)) s 6 0 0 && readyB (.retT0 (t0 0 true)) s 0 0 0 && holdsB s 14 4 && readyB (.jrT2 (t2 0 2 0 0 true)) s 6 0 0
      && s.me.readP 0 && !s.me.readP 1
      && decide (fpMove s.me.pc 62 = some 62) && codeB s 62 && codeB s 6 && codeB s 4) = true := by decide

theorem wit_LoopCounts :
    (readyB (.loop (t4b 3 5)) (jumper [(3, 1)]) 0 0 0 && holdsB (jumper [(3, 1)]) 3 1
      && readyB (.loop (t4b 3 5)) (jumper []) 0 0 0 && holdsB (jumper []) 3 0
      && decide (fpMove (jumper []).me.pc 10 = some 10) && codeB (jumper []) 10) = true := by decide

/-- A thread at the last head of 42 bits, with a buffer whose last head wants a tail that its line lacks. -/
def edge : State := mini { run [(2, 0x3FFFFFFFFFF), (14, 62)] with pc := 0x3FFFFFFFFFE, fb := [(0, (List.replicate 62 0#8) ++ [0#8, 0x20#8])] }

theorem wit_BadTargetsTrap :
    (readyB (.jmp (t4b 0 1)) edge 0 0 0 && decide (fpMove edge.me.pc 2 = none)
      && readyB (.jrT2 (t2 0 2 0 0 true)) edge 0x3FFFFFFFFFF 0 0 && decide (fpOff (fpCode 0x3FFFFFFFFFF) % 2 = 1)
      && readyB (.retT0 (t0 0 true)) edge 0 0 0 && holdsB edge 14 62
      && (match edge.opened.fetch 0 0 62 with | .line _ l => (headAt l 31).isNone | _ => false)
      && (match edge.opened.fetch 0 0 0x30000 with | .bad _ _ => true | _ => false)) = true := by decide

theorem wit_GroupSequels :
    (readyB (.yieldT0 (t0 0 true)) idle 0 0 0 && readyB (.yieldT4 (t4 0 0 0 0 0 true)) idle 0 0 0
      && readyB (.tendT0 (t0 0 true)) idle 0 0 0 && readyB (.tendT4 (t4 0 0 0 0 0 true)) idle 0 0 0
      && readyB (.trapT0 (t0 5 true)) idle 0 0 0 && readyB (.trapT4 (t4 0 2 0 0 9 true)) (mini (run [(2, 7)])) 7 0 0
      && readyB (.sysc (t4 0 2 0 0 9 true)) (mini (run [(2, 7)])) 7 0 0
      && readyB (.ifenceT0 (t0 0 true)) idle 0 0 0 && readyB (.waitfT0 (t0 0 true)) idle 0 0 0 && idle.me.isFull 0) = true := by decide

theorem wit_WaitfParks :
    let s := mini (run [] 0xFFF7#16)
    (readyB (.waitfT0 (t0 3 true)) s 0 0 0 && s.me.st != 2 && !s.me.isFull 3 && !s.me.isDue 3) = true := by decide

theorem wit_WaitfTraps :
    let s := mini { run [] 0xFFF7#16 with grp := { n := 1, res := [{ pos := 0, dest := .g 3, val := .load .zero none false }] } }
    (readyB (.waitfT0 (t0 3 true)) s 0 0 0 && s.me.st != 2 && !s.me.isFull 3 && s.me.isDue 3) = true := by decide

theorem wit_TrappingHeads :
    readyB (.brk (t0 15)) idle 0 0 0 = true ∧ reservedOp (0x0F0 / 16 % 256) = true ∧ 0x0FF0 / 16 % 256 = 0xFF
      ∧ (reservedOp 0x00 = false ∧ (decFind (0x00 * 4 + 3) (decRow 0)).isNone = true) := by decide

/-- Two registers at the edges of the numbers. -/
def two : State := mini (run [(2, 0x8000000000000000), (3, 0xFFFFFFFFFFFFFFFF)])

theorem wit_IntegerResults :
    ([Instr.addT2 (t2 1 2 3), .subT2 (t2 1 2 3), .mulT2 (t2 1 2 3), .mulhT2 (t2 1 2 3), .mulhnT2 (t2 1 2 3), .andT2 (t2 1 2 3),
      .orT2 (t2 1 2 3), .xorT2 (t2 1 2 3), .shlT2 (t2 1 2 3), .shrT2 (t2 1 2 3), .sarT2 (t2 1 2 3), .rotT2 (t2 1 2 3),
      .addT4 (t4 1 2 3 0), .rotT4 (t4 0 2 3 0)].all fun i => readyB i two 0x8000000000000000 0xFFFFFFFFFFFFFFFF 0
        && ((0x10 ≤ opOf i && opOf i ≤ 0x14) || (0x19 ≤ opOf i && opOf i ≤ 0x1F))) = true := by decide

theorem wit_DivisionResults :
    ([Instr.divT2 (t2 1 2 3), .divnT2 (t2 1 2 3), .remT2 (t2 1 2 3), .remnT4 (t4 1 2 3 0)].all fun i =>
      readyB i two 0x8000000000000000 0xFFFFFFFFFFFFFFFF 0 && (0x15 ≤ opOf i && opOf i ≤ 0x18)) = true
      ∧ readyB (.divT2 (t2 1 2 4)) two 0x8000000000000000 0 0 = true := by decide

theorem wit_ImmediateResults :
    ([Instr.addiT2 (t2 1 2 0 32), .andiT4 (t4 1 2 0 0 4096), .oriT8 (t8 1 2 0 0x800000000000), .xoriT2 (t2 1 2 0 63), .shliT2 (t2 1 2 0 63),
      .shriT2 (t2 1 2 0 63), .sariT4 (t4 1 2 0 0 63), .lih (t8 1 2 0 0xFFFF), .movT2 (t2 1 2 0), .clzT2 (t2 1 2 0),
      .popcT2 (t2 1 2 0), .bswapT2 (t2 1 2 0), .bfx (t4 1 2 0 0 0x1001)].all fun i => readyB i two 0x8000000000000000 0 0
        && (0x20 ≤ opOf i && opOf i ≤ 0x2F)) = true
      ∧ readyB (.li (t8 1 0 0 0x800000000000)) two 0 0 0 = true
      ∧ readyB (.selT2 (t2 1 2 3 8)) two 0x8000000000000000 0xFFFFFFFFFFFFFFFF 0 = true
      ∧ readyB (.bfi (t4 1 2 3 0 63)) two 0x8000000000000000 0xFFFFFFFFFFFFFFFF 0 = true := by decide

theorem wit_PredicateResults :
    ((List.range 12).all fun cc => readyB (.cmpT2 (t2 1 2 3 (BitVec.ofNat 6 cc))) two 0x8000000000000000 0xFFFFFFFFFFFFFFFF 0) = true
      ∧ readyB (.cmpiT4 (t4 1 2 0 0 0x1002)) two 0x8000000000000000 0 0 = true
      ∧ readyB (.cmpiT8 (t8 1 2 3 0x800000000000)) two 0x8000000000000000 0 0 = true
      ∧ readyB (.pandT2 (t2 1 0 2 1)) two 0 0 0 = true ∧ readyB (.porT2 (t2 1 0 2 2)) two 0 0 0 = true
      ∧ readyB (.pxorT4 (t4 1 0 2 0)) two 0 0 0 = true ∧ readyB (.pnotT2 (t2 1 0 0)) two 0 0 0 = true := by decide

theorem wit_PredicateMoves :
    readyB (.ptogT0 (t0 1)) two 0 0 0 = true ∧ readyB (.gtopT2 (t2 0 2 0)) two 0x8000000000000000 0 0 = true
      ∧ readyB (.gtopT4 (t4 0 2 0 0 0x80)) two 0x8000000000000000 0 0 = true := by decide

theorem wit_PointerResults :
    let s := mini (run [(2, 8191), (3, 0x3FFFFFFFFFF), (4, 8192), (5, 0x40000000000), (6, 1), (7, 0xFFFFFFFFFFFFFFFF)])
    (readyB (.pmkT2 (t2 1 2 3)) s 8191 0x3FFFFFFFFFF 0 && readyB (.pmkT4 (t4 1 4 3 0)) s 8192 0x3FFFFFFFFFF 0
      && readyB (.pmkT2 (t2 1 2 5)) s 8191 0x40000000000 0
      && readyB (.paddT2 (t2 1 3 6)) s 0x3FFFFFFFFFF 1 0 && readyB (.paddT4 (t4 1 6 7 0)) s 1 0xFFFFFFFFFFFFFFFF 0
      && readyB (.paddiT2 (t2 1 6 0 63)) s 1 0 0 && readyB (.psetfT2 (t2 1 7 0 63)) s 0xFFFFFFFFFFFFFFFF 0 0
      && readyB (.psetbT2 (t2 1 7 0 7)) s 0xFFFFFFFFFFFFFFFF 0 0 && readyB (.phndT2 (t2 1 7 0)) s 0xFFFFFFFFFFFFFFFF 0 0
      && readyB (.poffT2 (t2 1 7 0)) s 0xFFFFFFFFFFFFFFFF 0 0) = true := by decide

theorem wit_PchkAnswers :
    let s := mini (run [(2, obj 65528), (3, 8), (4, 0x30000)])
    (readyB (.pchk (t4 1 2 3 0 3)) s (obj 65528) 8 0 && readyB (.pchk (t4 1 4 3 0 1)) s 0x30000 8 0) = true := by decide

/-! ### Rows 4 and 5 -/

/-- A thread with pointers to the start and the end of its object, an index and data. -/
def mem4 : State := mini (run [(2, obj 0), (3, obj 65520), (4, 8190), (5, obj 64), (6, 0x1122334455667788), (7, obj 65280)])

theorem wit_LoadsIssue :
    (readyB (.ld (t4 1 3 0 0 3)) mem4 (obj 65520) 0 0 && decide (plainAddr { m := 3 } (obj 65520) 8 = some (obj 65520))
      && passesB mem4 (obj 65520) 8 8 0
      && readyB (.lds (t4 1 3 0 0 7)) mem4 (obj 65520) 0 0 && decide (fpMove (obj 65520) 8 = some (obj 65528))
      && readyB (.lda (t4 1 3 0 0 0x23)) mem4 (obj 65520) 0 0 && readyB (.ldp (t4 8 3 0 0 3)) mem4 (obj 65520) 0 0
      && passesB mem4 (obj 65520) 16 16 0 && readyB (.ldx (t4 1 2 4 0 3)) mem4 (obj 0) 8190 0
      && decide (fpMove (obj 0) (8190 * 8) = some (obj 65520)) && readyB (.cbphT2 (t2 1 3 0)) mem4 (obj 65520) 0 0
      && readyB (.ccrdT2 (t2 1 3 0)) mem4 (obj 65520) 0 0 && passesB mem4 (obj 65520) 8 8 3
      && readyB (.shldT2 (t2 1 5 0)) mem4 (obj 64) 0 0 && passesB mem4 (obj 64) 64 64 0) = true := by decide

theorem wit_StoresIssue :
    (readyB (.st (t4 6 3 0 0 3)) mem4 (obj 65520) 0 0 && holdsB mem4 6 0x1122334455667788 && passesB mem4 (obj 65520) 8 8 1
      && readyB (.st (t4 6 3 0 0 7)) mem4 (obj 65520) 0 0 && readyB (.stl (t4 6 3 0 0 0x23)) mem4 (obj 65520) 0 0
      && readyB (.stp (t4 6 3 0 0 3)) mem4 (obj 65520) 0 0 && holdsB mem4 7 (obj 65280) && passesB mem4 (obj 65520) 16 16 1
      && readyB (.stp (t4 0 3 0 0 3)) mem4 (obj 65520) 0 0 && holdsB mem4 0 0
      && readyB (.stx (t4 6 2 4 0 3)) mem4 (obj 0) 8190 0
      && readyB (.cbinitT2 (t2 0 5 4)) mem4 (obj 64) 8190 0 && passesB mem4 (obj 64) 32 32 1
      && readyB (.ccsetT2 (t2 0 3 4)) mem4 (obj 65520) 8190 0 && passesB mem4 (obj 65520) 8 8 3
      && readyB (.shstT2 (t2 1 5 0)) mem4 (obj 64) 0 0 && passesB mem4 (obj 64) 64 64 1) = true := by decide

/-- Typed pointers: F32, ternary, MXFP4 with its blocks of 8 elements, reserved. -/
def typed : State := mini (run [(2, obj 0 11), (3, obj 0 14), (4, obj 9 1 1), (5, obj 1 1 1), (6, 1), (7, 2), (8, obj 0 63), (9, obj 0 11 1), (10, obj 0)])

theorem wit_TypedAccessesIssue :
    (readyB (.ldt (t4 1 2 0 0)) typed (obj 0 11) 0 0 && okB (resolveFmt (obj 0 11) 0) 11 && passesB typed (obj 0 11) 4 4 0
      && readyB (.ldt (t4 1 2 0 0 0x40)) typed (obj 0 11) 0 0
      && readyB (.ldt (t4 1 4 0 0)) typed (obj 9 1 1) 0 0 && okB (resolveFmt (obj 9 1 1) 0) 1 && passesB typed (obj 9 1 1) 1 1 0
      && decide (fpOff (obj 9 1 1) % 9 = 0) && readyB (.ldt (t4 1 5 0 0)) typed (obj 1 1 1) 0 0 && passesB typed (obj 1 1 1) 1 1 0
      && readyB (.stt (t4 6 2 0 0)) typed (obj 0 11) 0 0 && holdsB typed 6 1 && passesB typed (obj 0 11) 4 4 1
      && readyB (.stt (t4 6 3 0 0 0x200)) typed (obj 0 14) 0 0 && okB (resolveFmt (obj 0 14) 0) 14 && passesB typed (obj 0 14) 1 1 1
      && readyB (.stt (t4 7 3 0 0)) typed (obj 0 14) 0 0 && holdsB typed 7 2
      && readyB (.stt (t4 6 5 0 0)) typed (obj 1 1 1) 0 0 && passesB typed (obj 1 1 1) 1 1 1
      && readyB (.stt (t4 6 4 0 0)) typed (obj 9 1 1) 0 0 && passesB typed (obj 9 1 1) 1 1 1) = true := by decide

/-- A block-scaled element on handle 0 whose scale byte lies below the tile that holds it. -/
theorem wit_TypedScaleByte :
    passesB typed (obj 0 1 1) 1 1 0 = true ∧ passesB typed (obj 0 1 1) 1 1 1 = true
      ∧ (let p : Word := BitVec.ofNat 64 (2 ^ 58 + 2 ^ 55 + 0x100000)
         let s := { mini (run [(2, p), (6, 1)]) with clus := [(0, { tiles := [(0, { own := .ctx 2 })] })] }
         readyB (.ldt (t4 1 2 0 0)) s p 0 0 && readyB (.stt (t4 6 2 0 0)) s p 0 0 && passesB s p 1 1 0 && passesB s p 1 1 1 && fpOff p % 9 == 4
           && region (fpOff p - 4) != region (fpOff p)) = true := by decide

theorem wit_TypedFormatsTrap :
    (readyB (.ldt (t4 1 2 0 0 12)) typed (obj 0 11) 0 0 && decide ((obj 0 11).toNat / 2 ^ 58 = 11)
      && readyB (.ldt (t4 1 10 0 0)) typed (obj 0) 0 0 && decide ((obj 0).toNat / 2 ^ 58 = 0)
      && readyB (.stt (t4 6 8 0 0)) typed (obj 0 63) 0 0 && holdsB typed 6 1 && fmtReserved 63
      && readyB (.ldt (t4 1 9 0 0)) typed (obj 0 11 1) 0 0 && !fmtReserved 11 && decide ((obj 0 11 1).toNat / 2 ^ 55 % 8 ≠ 0)) = true := by decide

theorem wit_AtomicsIssue :
    ([Instr.cas (t4 1 3 4 6 3 true), .swp (t4 1 3 4 0 3 true), .aadd (t4 1 3 4 0 3 true), .aand (t4 1 3 4 0 3 true), .aor (t4 1 3 4 0 3 true), .axor (t4 1 3 4 0 3 true),
      .amin (t4 1 3 4 0 3 true), .amax (t4 1 3 4 0 3 true), .afadd (t4 1 3 4 0 3 true)].all fun i =>
        (readyB i mem4 (obj 65520) 8190 0x1122334455667788 || readyB i mem4 (obj 65520) 8190 0) && (0x50 ≤ opOf i && opOf i ≤ 0x58)) = true
      ∧ passesB mem4 (obj 65520) 8 8 3 = true
      ∧ readyB (.cbarrT2 (t2 0 5 4)) mem4 (obj 64) 8190 0 = true ∧ passesB mem4 (obj 64) 32 32 3 = true := by decide

theorem wit_AtomicNewValues :
    (0xFFFFFFFF < 256 ^ 4 ∧ ((BitVec.ofNat 32 0xFFFFFFFF).toInt ≤ (BitVec.ofNat 32 0).toInt) ∧ ¬ (0xFFFFFFFF ≤ 0 % 256 ^ 4))
      ∧ (0xFFFFFFFFFFFFFFFF < 256 ^ 8 ∧ ¬ (0xFFFFFFFFFFFFFFFF ≤ 0 % 256 ^ 8)) := by decide

/-- A core on which a vector command of the thread is queued. -/
def queued : State := mini (run []) { vq := [{ e := { op := 0x90, core := 0, thr := 0, seq := 1 } }] }

theorem wit_FencesIssue :
    (readyB (.fenceT2 (t2 0 0 0 14)) idle 0 0 0 && readyB (.fenceT4 (t4 0 0 0 0 0)) idle 0 0 0 && readyB (.tfenceT2 (t2 0 0 0 1)) idle 0 0 0
      && readyB (.sbwaitT0 (t0 0)) idle 0 0 0 && !((idle.opened.pendingOf 0 0).any fun e => writesLater e.op)
      && readyB (.sbwaitT4 (t4 0 0 0 0)) queued 0 0 0 && ((queued.opened.pendingOf 0 0).any fun e => writesLater e.op)
      && queued.me.st != 2) = true := by decide

/-! ### Rows 6 to 8 -/

/-- Core 1 is core 1 of its partition; a thread names it, a core that is not in use, and its object. -/
def named : State :=
  let s := mini (run [(2, 1), (3, 0x500), (4, 7), (5, 0xFFF0), (6, 8), (7, obj 0), (8, 0x40), (9, 3), (10, 4)]) { ptag := 3 }
  { s with parts := [(3, { alive := true, map := [(1, 2)] })] }

/-- The same thread on the control core of its cluster. -/
def ctl : State := mini (run [(4, 7), (5, 0xFFF0), (6, 8), (9, 3), (10, 4)]) {} 0 8

theorem wit_MessagesIssue :
    (readyB (.send (t4 1 2 4 0)) named 1 7 0 && named.opened.coreNameOk 3 1 && readyB (.send (t4 15 3 4 0 7)) named 0x500 7 0
      && !named.opened.coreNameOk 3 0x500
      && readyB (.sendi (t8 1 2 7 0x800000000000)) named 1 0 0 && readyB (.emptyT0 (t0 1)) named 0 0 0
      && readyB (.emptyT4 (t4 15 2 0 0 1)) named 1 0 0 && readyB (.migrT2 (t2 0 2 0 0 true)) named 1 0 0
      && readyB (.mighT2 (t2 0 8 0 0 true)) named 0x40 0 0 && decide (fpHnd 0x40 = 0)
      && readyB (.mighT4 (t4 0 7 0 0 0 true)) named (obj 0) 0 0 && decide (fpHnd (obj 0) ≠ 0) && passesB named (obj 0) 1 1 6
      && readyB (.rcastT2 (t2 0 4 5)) ctl 7 0xFFF0 0 && readyB (.rcastT4 (t4 0 6 5 0)) ctl 8 0xFFF0 0
      && readyB (.chmapT2 (t2 0 9 5)) ctl 3 0xFFF0 0 && readyB (.chmapT4 (t4 0 10 5 0)) ctl 4 0xFFF0 0) = true := by decide

/-- A thread with a message in its mailbox, a full completion word, a tile and a Ladle command queued. -/
def busy : State :=
  let x := { run [(2, 63), (3, 64), (4, 1), (5, 0x11FFF), (6, 127)] with mbx := [{ reg := 5, val := 1, src := 0 }], poison := 0x80#16 }
  let e : Eff := { op := 0xE0, core := 0, thr := 0, seq := 1 }
  let s := mini x { q := [(2, [e])], shp := [(3, 5)], shadow := (List.range 32).map fun n => BitVec.ofNat 16 (0x8000 + n) }
  { s with clus := [(0, { tiles := [(1, { own := .ctx 2 }), (2, { own := .eng 9 })], roles := [(0, 9)]
                          ladle := [{ id := 1, e := e, total := 64 }] })] }

theorem wit_StatusReads :
    (readyB (.roleT0 (t0 1)) busy 0 0 0 && readyB (.roleT4 (t4 1 0 0 0)) ctl 0 0 0 && readyB (.mboxqT0 (t0 1)) busy 0 0 0
      && readyB (.poisqT0 (t0 1)) busy 0 0 0 && readyB (.sltrT2 (t2 1 2 0)) busy 63 0 0 && readyB (.sltrT4 (t4 1 3 0 0)) busy 64 0 0
      && readyB (.shget (t4 1 3 0 0 0x1800)) busy 0 0 0
      && readyB (.tqryT2 (t2 1 0 0 1)) busy 0 0 0 && readyB (.tqryT2 (t2 1 0 0 2)) busy 0 0 0
      && okB (busy.iss 0xC8 .t2 (t2 1 0 0 2).opnd 0 0 0).tileNo 2 && okB (busy.iss 0xC8 .t2 (t2 1 0 0 63).opnd 0 0 0).tileNo 63
      && readyB (.qstatT2 (t2 1 4 0)) busy 0 0 0 && readyB (.qstatT2 (t2 1 5 0)) busy 0 0 0
      && readyB (.spstatT2 (t2 1 4 0)) busy 1 0 0 && readyB (.spstatT2 (t2 1 5 0)) busy 0x11FFF 0 0
      && readyB (.lstatT2 (t2 1 6 0)) busy 127 0 0 && readyB (.nstatT0 (t0 1)) busy 0 0 0) = true := by decide

/-- A launch of two levels, of 5 and 3 bits, with extents 4 and 2, one group of 8 threads to a gang. -/
def twoLevels : List Byte :=
  leBytes 8 0 ++ leBytes 8 (2 * 2 ^ 36 + 3 * 2 ^ 6 + 5) ++ leBytes 2 4 ++ leBytes 2 2 ++ leBytes 8 0 ++ leBytes 2 1 ++ leBytes 1 8
/-- A thread of that launch, with a record in its core's deque. -/
def tasked : State :=
  let x := { run [(2, obj 65472), (3, 31), (4, 32), (5, 0x80F8), (6, 0x100), (7, obj 0), (8, 8), (9, 7)] with lid := 1, wid := 0xFF }
  { mini x { deque := [{ id := 1, task := {} }] } with launches := [(1, { hdr := twoLevels, ctx := 2 })] }
/-- A thread whose core's deque is full. -/
def stuffed : State := mini (run [(2, obj 0)]) { dqSlots := 64 }

theorem wit_TasksIssue :
    (readyB (.dqpushT2 (t2 0 2 0)) tasked (obj 65472) 0 0 && passesB tasked (obj 65472) 32 8 0
      && readyB (.spawnT2 (t2 0 2 0)) stuffed (obj 0) 0 0 && decide (64 ≤ (stuffed.core 0).deque.length + (stuffed.core 0).dqSlots)
      && readyB (.dqpopT2 (t2 1 2 0)) tasked (obj 65472) 0 0 && passesB tasked (obj 65472) 32 8 1
      && ((tasked.core 0).topRec).isSome && readyB (.dqpopT2 (t2 1 2 0)) stuffed (obj 0) 0 0 && ((stuffed.core 0).topRec).isNone
      && passesB stuffed (obj 0) 32 8 1
      && readyB (.glnchT2 (t2 1 2 0)) tasked (obj 65472) 0 0 && passesB tasked (obj 65472) 64 8 0
      && readyB (.widf (t2 1 0 0 1)) tasked 0 0 0 && readyB (.widf (t2 1 0 0 2)) tasked 0 0 0 && decide (hdrLevels twoLevels = 2)
      && readyB (.widf (t2 1 0 0 8)) tasked 0 0 0 && readyB (.widf (t2 1 0 0 10)) tasked 0 0 0 && readyB (.widf (t2 1 0 0 11)) tasked 0 0 0
      && readyB (.baraT0 (t0 3 true)) tasked 0 0 0 && readyB (.barwT0 (t0 2 true)) tasked 0 0 0 && readyB (.barT0 (t0 0 true)) tasked 0 0 0
      && decide (hdrGpg twoLevels * hdrTpg twoLevels % hdrGroup twoLevels 2 = 0)
      && readyB (.sltwT2 (t2 0 3 5)) tasked 31 0x80F8 0 && readyB (.sltwT2 (t2 0 4 5)) tasked 32 0x80F8 0
      && readyB (.sltwT4 (t4 0 3 6 0)) tasked 31 0x100 0 && readyB (.sltwT4 (t4 0 9 8 0)) tasked 7 8 0
      && readyB (.cbwaitT2 (t2 0 7 0 1 true)) tasked (obj 0) 0 0 && passesB tasked (obj 0) 32 32 0
      && readyB (.ccwaitT2 (t2 0 7 3 0 true)) tasked (obj 0) 31 0 && passesB tasked (obj 0) 8 8 3) = true := by decide

/-- A thread with the numbers 1, the largest single, the smallest normal single, a half, a quiet and a signalling NaN. -/
def floats (am : Bool := false) (ans : List (Nat × Word) := []) : State :=
  mini { run [(2, 0x3F800000), (3, 0x7F7FFFFF), (4, 0x00800000), (5, 0x3F000000), (6, 0x7FC00000), (7, 0x7F800001), (8, 0x3FF0000000000000),
    (9, obj 64512)] with answers := ans } { am := am, dtab := [(1, 0x1FC00)] }

theorem wit_FloatResults :
    ([Instr.faddT2 (t2 1 2 3), .fsubT2 (t2 1 2 3), .fmulT4 (t4 1 2 3 0), .fdivT2 (t2 1 2 3), .fminT2 (t2 1 2 3), .fmaxT4 (t4 1 2 3 0)].all
        fun i => readyB i (floats true) 0x3F800000 0x7F7FFFFF 0) = true
      ∧ readyB (.ffma (t4 1 2 3 4)) (floats) 0x3F800000 0x7F7FFFFF 0x00800000 = true
      ∧ readyB (.fsqrtT2 (t2 1 8 0 1)) (floats true) 0x3FF0000000000000 0 0 = true
      ∧ fmtF32.subnormal (fmtF32.round .rne (exactOf 0x80 .rne (fval fmtF32 0x3F800000) (fval fmtF32 0x7F7FFFFF) (fval fmtF32 0)).1).1 = false := by
  decide

theorem wit_SubnormalAssists :
    (readyB (.fmulT2 (t2 1 4 5)) (floats true) 0x00800000 0x3F000000 0 && (floats true).me.answers.isEmpty
      && readyB (.fmulT2 (t2 1 4 5)) (floats true [(0, 7)]) 0x00800000 0x3F000000 0
      && (floats true [(0, 7)]).me.answers.find? (fun w => w.1 == (floats true [(0, 7)]).me.grp.n) == some (0, 7)
      && fmtF32.subnormal (fmtF32.round .rne (exactOf 0x82 .rne (fval fmtF32 0x00800000) (fval fmtF32 0x3F000000) (fval fmtF32 0)).1).1) = true := by
  decide

theorem wit_RoundingKeepsRepresentable : 0xFFFF < 2 ^ fmtF16.width ∧ (fmtF16.decode 0x7C01).isNaN = true ∧ (fmtF16.decode 1).isNaN = false := by decide

theorem wit_FloatMovesAndTables :
    (readyB (.fcmpT2 (t2 1 6 2 4)) (floats) 0x7FC00000 0x3F800000 0 && readyB (.fcmpT4 (t4 0 7 2 0 0)) (floats) 0x7F800001 0x3F800000 0
      && readyB (.fcvt (t4 1 3 0 0 (11 + 64 * 5))) (floats) 0x7F7FFFFF 0 0
      && readyB (.fclsT2 (t2 1 2 0 0)) (floats) 0x3F800000 0 0 && readyB (.fclsT2 (t2 1 2 3 6)) (floats) 0x3F800000 0x7F7FFFFF 0
      && readyB (.ftldT2 (t2 0 9 0)) (floats) (obj 64512) 0 0 && passesB (floats) (obj 64512) 1024 64 0
      && readyB (.enc8T2 (t2 1 2 0)) (floats) 0x3F800000 0 0 && readyB (.dec8T2 (t2 1 2 0)) (floats) 0x3F800000 0 0
      && readyB (.dec8T2 (t2 1 2 0 1)) (floats) 0x3F800000 0 0 && !(fmtF32.decode (t8Word (floats.core 0).dtab 0)).isNaN) = true := by decide

/-! ### Rows 9 to B -/

/-- A thread with pointers of some formats to its object and a count of 2. -/
def vregs (fd fa fb : Nat) (n : Word := 2) : State := mini (run [(2, obj 0 fd), (3, obj 4096 fa), (4, obj 8192 fb), (5, n)])

/-- The whole of an operand passes. -/
def spanB (i : Iss) (k : VRole) (which : Nat) (p : Word) (size : Nat) (rd wr : Bool) : Bool :=
  if k.isPtr && k != .base then
    decide (vecSpan i.op (vecX i.op i.o.m) which p i.vc.toNat size ≤ 65536)
      && (match i.span p (vecSpan i.op (vecX i.op i.o.m) which p i.vc.toNat size) size rd wr with
          | .ok ok => ok.np.isNone
          | .error _ => false)
  else true

/-- A vector operation on two elements issues, in the form with modifier `m` and second source register `rb`. -/
def vecB (f : F4 → Instr) (m : BitVec 13) (fd fa fb : Nat) (rb : BitVec 4) : Bool :=
  let s := vregs fd fa fb
  let b : Word := if rb = 0 then 0 else obj 8192 fb
  readyB (f (t4 2 3 rb 5 m)) s (obj 4096 fa) b 2 && holdsB s 2 (obj 0 fd) && match (f (t4 2 3 rb 5 m)).view with
    | none => false
    | some (op, fm, o) =>
      let j := s.iss op fm o (obj 4096 fa) b 2
      decide (0x90 ≤ op) && decide (op ≤ 0xBB) && match vecFmts op o.m (obj 0 fd) (obj 4096 fa) b with
        | .error _ => false
        | .ok (e, y, z) =>
          let r := vecRow op (vecX op o.m)
          let n (k : VRole) := fmtSize (k.fmt e y z)
          !(op == 0xAD && vecX op o.m == 4 && fmtIsInt e) && (vecBadBlg op o.m (obj 0 fd) (obj 4096 fa) b e y z).isNone
            && spanB j r.d 0 (obj 0 fd) (n r.d) r.rw true && spanB j r.a 1 (obj 4096 fa) (n r.a) true false
            && spanB j r.b 2 b (n r.b) true false

theorem wit_VectorOpsIssue :
    ([Instr.vadd, .vsub, .vmul, .vfma, .vmin, .vmax, .vdiv].all fun f => vecB f 0x1C0 11 11 11 4) = true
      ∧ ([Instr.vsqrt, .vexp, .vlog, .vrcp, .vrsq, .vcvt, .vabs, .vneg, .vradd, .vrmax, .vrmin, .vscan, .vmov, .vfill, .viota].all
          fun f => vecB f 0 11 11 11 0) = true
      ∧ ([Instr.viadd, .visub, .vimul, .vand, .vor, .vxor, .vshl, .vshr, .vperm, .vgath, .vscat].all fun f => vecB f 0 5 5 5 4) = true
      ∧ ([Instr.vsat, .vclz].all fun f => vecB f 0 5 5 5 0) = true
      ∧ (vecB .vscl 0xC0 11 11 11 4 && vecB .vdot4 2 0 0 0 4 && vecB .unpk3 0 0 0 0 0 && vecB .vtas 5 0 0 0 4 && vecB .vcmp 0 0 11 11 4 && vecB .vsel 0 0 0 0 4
          && vecB .vmask 0 0 0 0 0) = true
      ∧ fpMove (obj 0 11) (vecNext 0x90 0 0 (obj 0 11) 2 4) = some (obj 8 11) := by decide

/-- The formats of a vector operation trap with a sub-code. -/
def fmtTrapB (f : F4 → Instr) (m : BitVec 13) (fd fa fb sub : Nat) : Bool :=
  let s := vregs fd fa fb
  readyB (f (t4 2 3 4 5 m)) s (obj 4096 fa) (obj 8192 fb) 2 && holdsB s 2 (obj 0 fd) && match (f (t4 2 3 4 5 m)).view with
    | none => false
    | some (op, _, o) => match vecFmts op o.m (obj 0 fd) (obj 4096 fa) (obj 8192 fb) with | .error (k, _) => k == sub | .ok _ => false

theorem wit_VectorOpsTrap :
    (fmtTrapB .vadd 12 11 11 11 1 && fmtTrapB .vadd 0 0 0 0 2 && fmtTrapB .vadd 0 63 63 63 0
      && readyB (.vadd (t4 2 3 4 5 0)) (vregs 11 11 11 16385) (obj 4096 11) (obj 8192 11) 16385
      && decide (65536 < vecSpan 0x90 0 0 (obj 0 11) 16385 4)
      && (vecRow 0x90 0).d.isPtr && (vecRow 0x90 0).d != .base
      && (vecBadBlg 0x90 0 (obj 0 11 1) (obj 4096 11) (obj 8192 11) 11 11 11) == some (obj 0 11 1)) = true := by decide

theorem wit_LanesIssue :
    (readyB (.vclaimT2 (t2 1 0 0 8)) (vregs 0 0 0) 0 0 0 && readyB (.vclaimT4 (t4 1 5 0 0 16)) (vregs 0 0 0) 2 0 0
      && readyB (.vrelT0 (t0 0)) (vregs 0 0 0) 0 0 0) = true := by decide

/-! ### Rows C to F -/

/-- A Trellis subtree of one leaf with weight 1; a transfer of two dimensions; one that says nothing. -/
def oneLeaf : BitVec 512 := BitVec.ofNat 512 (3 + 2 ^ 4 + 2 ^ 16 + 0x1FFF * 2 ^ 272)
def twoDims : BitVec 512 := BitVec.ofNat 512 (4 + 2 * 2 ^ 4 + 8 * 2 ^ 8 + 4 * 2 ^ 32 + 2 * 2 ^ 64 + 2 ^ 96 + 2 ^ 128)

/-- A thread with tiles of every owner, shape registers, completions and a Press group of 3 members under handle 2. -/
def eng : State :=
  let s := mini (run [(2, obj 0), (3, 8191), (4, 1), (5, obj 4096), (6, 2), (7, 0x2FFC0), (8, 2 * 2 ^ 42 + 192), (9, 2 * 2 ^ 42 + 256),
      (10, 2 ^ 40 + 1), (11, obj 1), (12, 0x10000000000)])
    { shp := [(1, oneLeaf), (2, twoDims), (4, 4)], comps := [(5, [{ seq := 1, word := some 9, thr := 0 }])] }
  { s with
    ctxs := [(2, { alive := true, owner := 1, hnd := [(1, { oid := 7, size := 65536, st := .valid, rights := 127 }), (2, { oid := 8, size := 256, st := .valid, rights := 127 })] })]
    objs := [(7, { size := 65536, ext := [(0, {})] }), (8, { size := 256, kind := .press 3 [], ext := [(0, {})] })]
    clus := [(0, { tiles := [(1, { own := .ctx 2 }), (2, { own := .eng 2 }), (3, { own := .ctx 9 })] })] }

/-- The tile that an instruction names. -/
def tileB (i : Instr) (s : State) (n : Nat) : Bool := match i.view with
  | none => false
  | some (op, fm, o) => readyB i s 0 0 0 && okB (s.iss op fm o 0 0 0).tileNo n

theorem wit_TilesIssue :
    (readyB (.shset (t4 1 4 0 0 0x1800)) eng 1 0 0 && readyB (.shset (t4 1 3 0 0 4)) eng 8191 0 0
      && tileB (.townT2 (t2 1 0 0 0)) eng 0 && tileB (.townT2 (t2 1 0 0 1)) eng 1 && tileB (.townT2 (t2 1 0 0 3)) eng 3
      && tileB (.townT4 (t4 1 0 0 0 0x81)) eng 1 && tileB (.townT4 (t4 1 0 0 0 0x83)) eng 3
      && tileB (.tgiveT2 (t2 0 0 0 1)) eng 1 && tileB (.tgiveT2 (t2 0 0 0 2)) eng 2 && tileB (.ttag (t4 0 0 0 0 0x481)) eng 1
      && eng.opened.ownsTile 0 2 1 && !eng.opened.ownsTile 0 2 2 && !eng.opened.ownsTile 0 2 3
      && decide (((eng.clu 0).tile 0).own = .free)) = true := by decide

/-- An SHSET that would name a reserved kind, alone and behind an SHLD of its group. -/
theorem wit_ShsetKind :
    (let s := { eng with cores := [(0, { (eng.core 0) with th := [(0, { eng.me with grp := { n := 1, res := [{ pos := 0, dest := .sh 1, val := .load .shape none false, done := true }] } })] })] }
     readyB (.shset (t4 1 3 0 0 0x1000)) eng 8191 0 0 && readyB (.shset (t4 1 3 0 0 0x1000)) s 8191 0 0
       && decide (5 ≤ shBits (shPut (eng.me.grp.shapeAfter 1 ((eng.core 0).shape 1)) 0 ((widthCode 8).getD 0) 8191) 0 4)) = true := by decide +kernel

/-- A tile that the group has handed over already. -/
theorem wit_TilesGiven :
    let s := { eng with cores := [(0, { th := [(0, { run [] with grp := { n := 1, given := [1] } })] })] }
    (tileB (.tgiveT2 (t2 0 0 0 1)) s 1 && (s.iss 0xC5 .t2 (t2 0 0 0 1).opnd 0 0 0).given.contains 1) = true := by decide

/-- A handle may be used with a right. -/
def handleB (s : State) (p : Word) (right : Nat) : Bool :=
  fpHnd p == 0 || (let d := s.desc s.me.ctx (fpHnd p)
    let e := s.extent d.oid (fpOff p / 2 ^ 18)
    s.stateAt s.me.ctx (fpHnd p) (stationOf e.die e.ch) == .valid && bit d.rights right)

/-- A whole range passes. -/
def wholeB (i : Iss) (p : Word) (n unit : Nat) (rd wr : Bool) : Bool :=
  match i.span p n unit rd wr with | .ok q => q.np.isNone | .error _ => false

theorem wit_CommandsIssue :
    (readyB (.ttaskT2 (t2 0 2 0)) eng (obj 0) 0 0 && passesB eng (obj 0) 128 64 0
      && readyB (.spupT0 (t0 1)) eng 0 0 0 && spBad oneLeaf == none && readyB (.spdnT0 (t0 1)) eng 0 0 0 && readyB (.spmaxT0 (t0 2)) eng 0 0 0
      && spBad twoDims == some 1
      && readyB (.spld (t4 0 2 3 4)) eng (obj 0) 8191 1 && readyB (.spst (t4 0 2 3 4)) eng (obj 0) 8191 1
      && readyB (.spwld (t4 0 2 3 4 1)) eng (obj 0) 8191 1 && readyB (.spgst (t4 0 2 3 4)) eng (obj 0) 8191 1
      && readyB (.spcvt (t4 0 0 3 4)) eng 0 8191 1 && readyB (.spclr (t4 0 0 3 6)) eng 0 8191 2 && readyB (.spclr (t4 0 0 3 0)) eng 0 8191 0
      && wholeB (eng.iss 0xD0 .t4 (t4 0 2 3 4).opnd (obj 0) 8191 1) (obj 0) 4 4 true false
      && wholeB (eng.iss 0xD1 .t4 (t4 0 2 3 4).opnd (obj 0) 8191 1) (obj 0) 4 4 false true
      && readyB (.lcopy (t4 5 2 3 0)) eng (obj 0) 8191 0 && handleB eng (obj 0) 0 && handleB eng (obj 4096) 1 && holdsB eng 5 (obj 4096)
      && readyB (.lcopy (t4 5 2 0 0 0x12)) eng (obj 0) 0 0 && !k4Bad twoDims && decide (k4Total twoDims ≤ 2 ^ 40)
      && readyB (.lfill (t4 5 2 10 0)) eng (obj 0) (2 ^ 40 + 1) 0 && readyB (.lfill (t4 5 4 0 0 0x11)) eng 1 0 0 && k4Bad oneLeaf) = true := by
  decide +kernel

theorem wit_PressAndNetwork :
    (readyB (.prred (t4 5 2 0 8)) eng (obj 0) 0 (2 * 2 ^ 42 + 192) && readyB (.prbc (t4 5 2 12 8 0)) eng (obj 0) 0x10000000000 (2 * 2 ^ 42 + 192)
      && readyB (.prar (t4 5 2 0 8)) eng (obj 0) 0 (2 * 2 ^ 42 + 192) && readyB (.prag (t4 5 2 0 8)) eng (obj 0) 0 (2 * 2 ^ 42 + 192)
      && (match eng.opened.checkHandle 2 (2 * 2 ^ 42 + 192) 64 64 4 with | .ok q => decide ((eng.obj (locId q.loc)).kind = .press 3 []) | .error _ => false)
      && readyB (.prred (t4 5 2 0 2)) eng (obj 0) 0 (obj 0)
      && readyB (.nsendT2 (t2 0 7 0)) eng 0x2FFC0 0 0 && passesB eng 0x2FFC0 64 64 0 && readyB (.npostT4 (t4 0 2 0 0)) eng (obj 0) 0 0
      && readyB (.rwriteT2 (t2 0 11 0)) eng (obj 1) 0 0 && readyB (.rreadT2 (t2 0 7 0)) eng 0x2FFC0 0 0) = true := by decide

theorem wit_QueueOpsIssue :
    (readyB (.qpushT2 (t2 4 2 0)) eng (obj 0) 0 0 && passesB eng (obj 0) 64 64 0 && readyB (.qpushT2 (t2 5 2 0)) eng (obj 0) 0 0
      && readyB (.qpopT2 (t2 1 5 0)) eng 0 0 0 && readyB (.qpopT2 (t2 1 7 0)) eng 0 0 0
      && ((SMap.get [] 5 (eng.core 0).comps).filter fun w => w.thr == 0 && w.word.isSome).length == 1 && eng.me.st != 2
      && readyB (.lcancelT2 (t2 0 4 0)) eng 1 0 0) = true := by decide

/-- The first handler thread of a supervisor's core, and that of a control core. -/
def sup (dom c : Nat) : State :=
  let s := mini (run [(2, obj 0), (3, 1), (4, 2), (5, 0x7F), (6, 0x100000000), (7, 63), (8, 64), (9, 6)]) {} dom c 7
  s

theorem wit_SystemIssue :
    (readyB (.walkT2 (t2 1 2 0 0 true)) (sup 2 0) (obj 0) 0 0 && readyB (.walkT4 (t4 1 2 4 0 0 true)) (sup 2 0) (obj 0) 2 0
      && readyB (.openT2 (t2 1 2 0 3 true)) (sup 2 0) (obj 0) 0 0 && readyB (.closeT2 (t2 0 2 0 0 true)) (sup 2 0) (obj 0) 0 0
      && readyB (.bind (t4 0 2 3 0 31)) (sup 2 0) (obj 0) 1 0 && readyB (.unbindT2 (t2 0 2 3)) (sup 2 0) (obj 0) 1 0
      && readyB (.revokeT2 (t2 0 3 0)) (sup 2 0) 1 0 0 && decide (fpHnd (1 : Word) = 0)
      && readyB (.revokeT2 (t2 0 2 0)) (sup 2 0) (obj 0) 0 0 && decide (((sup 2 0).desc (sup 2 0).me.ctx 1).st ≠ .invalid)
      && readyB (.revokeT4 (t4 0 3 4 0 1)) (sup 2 0) 1 2 0 && decide (((sup 2 0).desc 2 1).st ≠ .invalid)
      && readyB (.tretT2 (t2 0 9 3 1)) (sup 2 0) 6 1 0 && tretTarget 0 6 == some (0, 6)
      && readyB (.tretT2 (t2 0 5 3 3)) (sup 2 8) 0x7F 1 0 && tretTarget 8 0x7F == some (7, 7)
      && readyB (.tretT2 (t2 0 5 3 1)) (sup 2 0) 0x7F 1 0 && tretTarget 0 0x7F == none
      && readyB (.pmackT2 (t2 0 3 0)) (sup 2 0) 1 0 0 && readyB (.pmackT2 (t2 0 6 0)) (sup 2 0) 0x100000000 0 0
      && readyB (.tshootT2 (t2 0 2 0 8)) (sup 1 0) (obj 0) 0 0 && passesB (sup 1 0) (obj 0) 16 16 1
      && readyB (.tshootT2 (t2 0 2 0 5)) (sup 1 0) (obj 0) 0 0 && passesB (sup 1 0) (obj 0) 32 32 1
      && readyB (.sstop (t4 0 7 3 0 0)) (sup 2 0) 63 1 0 && readyB (.sstop (t4 0 8 3 0 1)) (sup 2 0) 64 1 0
      && readyB (.partwT2 (t2 0 3 4)) (sup 2 0) 1 2 0 && readyB (.haltT0 (t0 0)) (sup 2 0) 0 0 0
      && readyB (.attqT2 (t2 0 2 0)) (sup 0 0) (obj 0) 0 0 && passesB (sup 0 0) (obj 0) 64 64 0) = true := by decide

theorem wit_RevokeTraps :
    (let s := mini (run [(2, 0x2000), (3, 1), (4, 5 * 2 ^ 42), (6, 0x1000), (9, 5)]) {} 1 0 7
     readyB (.revokeT4 (t4 0 2 3 0 1)) s 0x2000 1 0 && readyB (.revokeT4 (t4 0 3 6 0 1)) s 1 0x1000 0 && readyB (.revokeT4 (t4 0 0 3 0 1)) s 0 1 0
       && s.opened.domOf 0 7 == 1 && readyB (.revokeT4 (t4 0 3 9 0 1)) s 1 5 0 && (s.ctx 5).owner != s.me.ctx
       && readyB (.revokeT2 (t2 0 4 0)) s (5 * 2 ^ 42) 0 0 && decide ((s.desc 2 5).st = .invalid)
       && readyB (.revokeT4 (t4 0 9 3 0 1)) (sup 2 0) 6 1 0 && decide (((sup 2 0).desc 1 6).st = .invalid)) = true := by decide

theorem wit_CsrAccess :
    (((List.range 16).all fun n => readyB (.csrrT4 (t4 1 0 0 0 (BitVec.ofNat 13 n))) (sup 0 0) 0 0 0) && readyB (.csrrT2 (t2 1 0 0 16)) (sup 0 0) 0 0 0
      && readyB (.csrwT2 (t2 0 3 0 15)) (sup 0 0) 1 0 0 && (sup 0 0).opened.csrMask 0 7 15 == none
      && readyB (.csrwT2 (t2 0 3 0 3)) (sup 2 0) 1 0 0 && (sup 2 0).opened.csrMask 0 7 3 == some 1
      && readyB (.csrwT4 (t4 0 8 0 0 3)) (sup 2 0) 64 0 0 && readyB (.csrwT4 (t4 0 3 0 0 0x804)) (sup 0 0) 1 0 0
      && readyB (.csrwT2 (t2 0 3 0 16)) (sup 0 0) 1 0 0) = true := by decide

/-! ### Decoding: words written out from R43 and R44, at least one for every row of the opcode map -/

/-- A head and a tail decode to an instruction. -/
noncomputable def readsB (h t : Nat) (i : Instr) : Bool := match decode h t with | .ok j => j == i | .error _ => false

/-- Row 0: BRK with code 15; RET that ends its group. -/
theorem test_row0 : readsB 0x00EF 0 (.brk (t0 15)) = true ∧ readsB 0x8050 0 (.retT0 (t0 0 true)) = true := by decide
/-- Rows 1 and 2: ADD g1, g2, g3 with a mark on g3; LI g5, 13 and LIH g1, 0xA3 as the spec prints them. -/
theorem test_rows_1_2 :
    readsB 0x1101 0x2340 (.addT2 { t2 1 2 3 with lb := true }) = true
      ∧ readsB 0x3275 0x000000000000000D (.li (t8 5 0 0 0xD)) = true
      ∧ readsB 0x2215 0x100000FF (.andiT4 (t4 5 1 0 0 0xFF)) = true := by decide
/-- Row 3: PADDI g5, g1, 0x40 and CMPI on 48 bits, as the spec prints them. -/
theorem test_row3 :
    readsB 0x23A5 0x10000040 (.paddiT4 (t4 5 1 0 0 0x40)) = true
      ∧ readsB 0x3311 0x50000000000000A3 (.cmpiT8 (t8 1 5 0 0xA3)) = true := by decide
/-- Rows 4 and 5: LD.8 g3, [g1] as the spec prints it; CAS with its guard and its three sources. -/
theorem test_rows_4_5 :
    readsB 0x2473 0x10000003 (.ldp (t4 3 1 0 0 3)) = true
      ∧ readsB 0xA501 0x24610003 (.cas (t4 1 2 4 6 3 true 1)) = true := by decide
/-- Rows 6 and 7: ROLE with S, SEND, BAR at level 0 and WIDF as a path. -/
theorem test_rows_6_7 :
    readsB 0x0651 0 (.roleT0 (t0 1)) = true ∧ readsB 0x2601 0x24000007 (.send (t4 1 2 4 0 7)) = true
      ∧ readsB 0x8770 0 (.barT0 (t0 0 true)) = true ∧ readsB 0x1741 0x000B (.widf (t2 1 0 0 11)) = true := by decide
/-- Row 8: FFMA at F64. -/
theorem test_row8 : readsB 0x2831 0x23400001 (.ffma (t4 1 2 3 4 1)) = true := by decide
/-- Rows 9 to B: VADD with every post-increment; UNPK3, VTAS and VRADD as the spec prints them. -/
theorem test_rows_9_B :
    readsB 0x2902 0x345001C0 (.vadd (t4 2 3 4 5 0x1C0)) = true
      ∧ readsB 0xAA98 0x50300000 (.unpk3 (t4 8 5 0 3 0 true)) = true
      ∧ readsB 0xAAA9 0x86300001 (.vtas (t4 9 8 6 3 1 true)) = true
      ∧ readsB 0x2B2C 0x90300005 (.vradd (t4 12 9 0 3 5)) = true ∧ readsB 0x1B0A 0x0008 (.vclaimT2 (t2 10 0 0 8)) = true := by decide
/-- Rows C and D: SHLD s1, SPLD, SPUP and SPCVT as the spec prints them. -/
theorem test_rows_C_D :
    readsB 0x1C01 0x1000 (.shldT2 (t2 1 1 0)) = true ∧ readsB 0x2D00 0x60500000 (.spld (t4 0 6 0 5)) = true
      ∧ readsB 0x0D21 0 (.spupT0 (t0 1)) = true ∧ readsB 0xAD80 0xC0D00000 (.spgst (t4 0 12 0 13 0 true)) = true := by decide
/-- Row E: LCOPY with STR and its shape register. -/
theorem test_rowE : readsB 0x2E05 0x23000012 (.lcopy (t4 5 2 3 0 0x12)) = true := by decide
/-- Row F: the words of its table of encodings, WALK to PMACK, without S. -/
theorem test_rowF :
    readsB 0x9F05 0x1000 (.walkT2 (t2 5 1 0 0 true)) = true ∧ readsB 0x9F17 0x5001 (.openT2 (t2 7 5 0 1 true)) = true
      ∧ readsB 0x9F20 0x7000 (.closeT2 (t2 0 7 0 0 true)) = true ∧ readsB 0x1F68 0x000C (.csrrT2 (t2 8 0 0 12)) = true
      ∧ readsB 0x2F70 0x50000407 (.csrwT4 (t4 0 5 0 0 0x407)) = true ∧ readsB 0x1F50 0x7000 (.revokeT2 (t2 0 7 0)) = true
      ∧ readsB 0x1F80 0x5000 (.tretT2 (t2 0 5 0)) = true ∧ readsB 0x1F90 0x5000 (.pmackT2 (t2 0 5 0)) = true := by decide
/-- Reserved heads have names of their own; a tail length that an opcode does not accept is refused. -/
theorem test_reserved_heads :
    readsB 0x00F0 0 (.reservedOpcode (FRaw.of 0x00F0 0)) = true ∧ readsB 0x0FF0 0 (.illegalOpcodeFf (FRaw.of 0x0FF0 0)) = true
      ∧ (match decode 0x0100 0 with | .ok _ => false | .error _ => true) = true := by decide
/-- A table word of 16 bits, and one of 32 whose head stands above its tail. -/
theorem test_table_words : decodeTableWord 16 0 = some (.nop (t0 0)) ∧ decodeTableWord 32 0x11012340 = some (.addT2 { t2 1 2 3 with lb := true }) := by
  decide

/-! ### Terms that are not well-formed, one for each check -/

theorem smoke_guard : (Instr.addT4 (t4 1 2 3 0 0 false 8)).wf = false := by decide
theorem smoke_unused_field : (Instr.addT4 (t4 1 2 3 1)).wf = false := by decide
theorem smoke_zero_register : (Instr.send (t4 0 2 4 0)).wf = false := by decide
theorem smoke_predicate_number : (Instr.pandT2 (t2 8 0 0)).wf = false := by decide
theorem smoke_queue_number : (Instr.qpopT2 (t2 1 8 0)).wf = false := by decide
theorem smoke_mark_on_zero : (Instr.addT2 { t2 1 0 3 with la := true }).wf = false := by decide
theorem smoke_reserved_modifier : (Instr.addT2 (t2 1 2 3 1)).wf = false := by decide
theorem smoke_reserved_value : (Instr.cmpT2 (t2 1 2 3 12)).wf = false := by decide
theorem smoke_post_increment : (Instr.ld (t4 2 2 0 0 7)).wf = false := by decide
theorem smoke_vector_marks : (Instr.vadd { t4 2 3 4 5 0x80 with la := true }).wf = false := by decide
theorem smoke_immediate : (Instr.movT2 (t2 1 2 0 1)).wf = false := by decide
theorem smoke_reserved_head : (Instr.reservedOpcode (FRaw.of 0x0100 0)).wf = false ∧ (Instr.illegalOpcodeFf (FRaw.of 0x00F0 0)).wf = false
    ∧ (Instr.reservedOpcode (FRaw.of 0x10F0 0x10000)).wf = false := by decide
theorem wit_Encoding :
    (Instr.cas (t4 1 2 4 6 3 true 1)).wf = true ∧ (encode (.cas (t4 1 2 4 6 3 true 1))) = some ⟨0xA501, 0x24610003⟩
      ∧ (Instr.li (t8 5 0 0 0xFFFFFFFFFFFF)).wf = true ∧ encode (.li (t8 5 0 0 0xFFFFFFFFFFFF)) = some ⟨0x3275, 0xFFFFFFFFFFFF⟩
      ∧ 0x3275 < 2 ^ 16 ∧ 0xFFFFFFFFFFFF < 256 ^ tlBytes 0x3275 := by decide

/-! ### The checks of every instruction -/

/-- A thread with an empty, a due and a poisoned register, and one result buffered. -/
def srcs : State := mini { run [(3, 7)] 0xFFF3#16 with poison := 0x20#16, grp := { n := 1, res := [{ pos := 0, dest := .g 3, val := .val 7, done := true }] } }

theorem wit_ChecksBeforeIssue :
    badGuard (t4 1 2 3 0 0 false 8).opnd = true
      ∧ (badGuard (t4 1 2 3 0 0 false 1).opnd = false ∧ idle.me.guard 1 = false)
      ∧ badForm 0x10 .t4 (t4 1 2 3 1).opnd = true
      ∧ (badForm 0x66 .t2 (t2 0 4 5).opnd = false ∧ isCC idle.curCore = false)
      ∧ (badForm 0x90 .t4 (t4 2 3 4 5).opnd = false ∧ isCC ctl.curCore = true)
      ∧ (badForm 0xFA .t2 (t2 0 2 0 5).opnd = false ∧ (idle.ctx idle.me.ctx).dom = 0)
      ∧ (badForm 0xFD .t0 (t0 0).opnd = false ∧ badForm 0xF5 .t4 (t4 0 3 4 0 1).opnd = false)
      ∧ (badForm 0xF8 .t2 (t2 0 9 3 1).opnd = false ∧ idle.curThr ≠ 7)
      ∧ (opOf (.bfx (t4 1 2 0 0 0x7F)) = 0x2E ∧ idle.me.guard 0 = true ∧ 0x7F % 64 + (0x7F / 64 % 64 + 1) > 64 ∧ badForm 0x2E .t4 (t4 1 2 0 0 0x7F).opnd = true)
      ∧ (opOf (.bfi (t4 1 2 3 0 0x1000)) = 0x2F ∧ Nat.testBit 0x1000 12 = true ∧ badForm 0x2F .t4 (t4 1 2 3 0 0x1000).opnd = true) := by decide

/-- A full group, a full group buffer, a full result buffer, and a group that has read g1 and g2. -/
def full (g : Group) (duo : Bool := false) : State := mini { run [] with grp := g, duo := duo }

theorem wit_GroupLimits :
    let goB (s : State) (op : Nat) (fm : Form) (o : Opnd) : Bool := decide (s.opened.gate s.curCore s.curThr op fm o = .go)
    (goB (full { n := 32 }) 0x10 .t2 (t2 1 2 3).opnd
      && goB (full { n := 16, nb := 16 }) 0x42 .t4 (t4 1 2 0 0 3).opnd && decide (16 < 16 + (costs 0x42 .t4 (t4 1 2 0 0 3).opnd).1)
      && goB (full { n := 8, nb := 8, nr := 8 }) 0x40 .t4 (t4 1 2 0 0 3).opnd && decide (8 < 8 + (costs 0x40 .t4 (t4 1 2 0 0 3).opnd).2)
      && goB idle 0x50 .t4 (t4 1 2 3 4 3).opnd && mustEnd 0x50
      && goB (full { n := 1, rd := [1] }) 0x10 .t2 (t2 1 2 3).opnd && singleWrites 0x10 .t2 (t2 1 2 3).opnd == [1]
      && goB (full {} true) 0x70 .t2 (t2 0 2 0).opnd && duoBarred 0x70) = true := by decide

theorem wit_SourcesMustBeFull :
    let goB (a : BitVec 4) : Bool :=
      let o := (t2 1 a 0).opnd
      decide (srcs.opened.gate 0 0 0x10 .t2 o = .go) && decide (srcs.me.groupRules 0x10 .t2 o = none)
    (goB 2 && goB 3 && goB 5 && !srcs.me.isFull 2 && !srcs.me.isDue 2 && !srcs.me.isFull 3 && srcs.me.isDue 3 && srcs.me.isFull 5
      && srcs.me.isPoison 5 && srcs.me.snap.isNone && srcs.me.st != 2 && (opInfo 0x10 .t2).any (fun k => k.a == .g)) = true := by decide

theorem wit_IssueFrame : (goesB (.addT2 (t2 1 2 3)) two (fun t => (t.thr 0 0).gv 1 == 0x7FFFFFFFFFFFFFFF)) = true := by decide

/-- Core 0's turn, at a line that begins with ADD g1, g2, g3; and an event of the schedule. -/
def turn (a : Act) : State :=
  { mini { run [(2, 5), (3, 6)] with fb := [(0, [0x01#8, 0x11#8] ++ List.replicate 60 0#8 ++ [0x00#8, 0x23#8])] } with
    agenda := [{ act := a, dt := 3 }] }

theorem wit_StepRunsDecodedInstruction :
    let s := turn (.turn 0)
    let s1 : State := { s with agenda := [], cyc := s.cyc + 3, pref := [], bad := [] }
    let q := s1.turnOf 0
    (!s.off && !s1.stopReached 0 && !(s1.core 0).isSealed && !(s1.core 0).halted && decide ((s1.core 0).pos < 32) && q.2 == some 0
      && (match (s1.setCore 0 (q.1.passTurn s1.cyc (some 0))).seek 0 0 64 with
          | .found _ line j => match encAt line j with
            | some e => !nb e.head 14 && readsB e.head e.tail (.addT2 (t2 1 2 3))
            | none => false
          | _ => false)) = true
      ∧ (match step s with | .next u => (u.thr 0 0).gv 1 == 11 && (u.thr 0 0).pc == 64 && u.cyc == 3 | _ => false) = true
      ∧ (match step (turn (.ev .thermalHoldExit)) with | .next u => u.agenda.isEmpty && u.cyc == 3 | _ => false) = true := by decide

/-- The placing of a word makes the next step run it. -/
theorem test_placed_word :
    (match step (State.reset.withFetchWord 32 0x2A7F1140) with | .next u => (u.thr 0 0).grp.n == 1 | _ => false) = true := by decide

theorem wit_Memory :
    idle.memWf ∧ ((idle.poke (locObj 7 3) [1#8, 0#8]).memWf ∧ SMap.get 0#8 (locObj 7 3) (idle.poke (locObj 7 3) [1#8, 0#8]).mem = 1#8
      ∧ SMap.get 0#8 (locObj 7 3) ((idle.poke (locObj 7 3) [1#8, 0#8]).zeroRange (locObj 7 0) 4).mem = 0#8) := by decide

/-! ### The events: a state for each clause of the statements, and what the step makes of it -/

/-- An outcome of an exec goes on to a state with a property. -/
def nextB (o : Host.Outcome State Fault Refusal) (p : State → Bool) : Bool := match o with | .next t => p t | _ => false

/-- A thread stands at its marker, with its group returned. -/
def atMarkerB (s : State) (c t : Nat) : Bool :=
  let x := s.thr c t
  decide (x.phase = .marker) && (x.st == 1 || x.st == 2) && !(s.core c).stopped && x.grp.returned
    && x.grp.defs.all (fun e => e.op != 0x63 && e.op != 0x64) && x.grp.np.isEmpty && x.grp.rind.isNone

/-- Nothing stops a thread after its commit. -/
def quietB (s : State) (c t : Nat) : Bool :=
  let x := s.thr c t
  decide (t < 7) && x.assist.isNone && ((s.core c).lateOf t).isNone && x.late.isEmpty && !x.duo && x.mbx.isEmpty

/-- A group at its marker with a trap. -/
def trapped (cause c t : Nat) : State :=
  let x : Thread := { run [(3, 9)] with phase := .marker, st := 2, prsn := 2, pc := 0x10A
                                        grp := { head := 0x104, n := 1, trap := some { pos := 0, pc := 0x104, cause := cause, sub := 2, info := 7 } } }
  { mini x {} 0 c t with launches := [(5, { hdr := [1#8], ctx := 2, cores := [0] })] }

theorem wit_TrapIsTaken :
    (atMarkerB (trapped 0x12 0 3) 0 3 && ((trapped 0x12 0 3).thr 0 3).grp.self.isNone
      && goesB (.groupCommit 0 3 none) (trapped 0x12 0 3) (fun u => (u.thr 0 3).st == 4 && (u.thr 0 3).resume == 0x104 && (u.thr 0 3).gv 3 == 9
          && decide (u.hmsgs = [{ dst := 0, msg := { g1 := msgG1 3 0 2 0x12, g2 := 0x104, g3 := 7, ctx := 2 } }]))
      && atMarkerB (trapped 0x31 0 3) 0 3
      && goesB (.groupCommit 0 3 none) (trapped 0x31 0 3) (fun u => (u.thr 0 3).st == 4
          && decide (u.hmsgs = [{ dst := 8, msg := { g1 := msgG1 3 4 0 0x31, g2 := 0x104, g3 := assistPtr 0 3, from_ := 1 } }]))
      && atMarkerB (trapped 0x12 0 7) 0 7 && !isCC 0 && ((trapped 0x12 0 7).core 0).tq.isEmpty && ((trapped 0x12 0 7).core 0).nq.isEmpty
      && goesB (.groupCommit 0 7 none) (trapped 0x12 0 7) (fun u => (u.thr 0 7).st == 0
          && decide (u.hmsgs = [{ dst := 8, msg := { g1 := msgG1 7 5 2 0x12, g2 := 0x104, g3 := 7, ctx := 2, from_ := 1 } }]))
      && atMarkerB (trapped 0x12 8 7) 8 7 && isCC 8 && (trapped 0x12 8 7).cores.all (fun r => ((trapped 0x12 8 7).core r.1).lateOf 7 == none)
      && goesB (.groupCommit 8 7 none) (trapped 0x12 8 7) (fun u => u.hmsgs.isEmpty && (u.launch 5).cause == 0xB6 && (u.launch 5).last == 0x12)) = true := by
  decide

/-- A clean group at its marker, with a result and a sequel. -/
def clean (post : Post) (res : List LRes := []) : State :=
  mini { run [(3, 9)] with phase := .marker, st := 2, prsn := 2, nextPc := 0x140, post := post, grp := { head := 0x104, n := 1, res := res } }

theorem wit_CleanCommits_1 :
    (let r : LRes := { pos := 0, dest := .g 4, val := .val 5, ret := true, done := true }
     let s := clean .none [r]
     atMarkerB s 0 0 && quietB s 0 0 && (s.thr 0 0).grp.trap.isNone && (s.thr 0 0).grp.defs.isEmpty && !(s.thr 0 0).grp.overwritten 0 4
       && goesB (.groupCommit 0 0 none) s fun u => (u.thr 0 0).gv 4 == 5 && (u.thr 0 0).gv 3 == 9 && (u.thr 0 0).pc == 0x140 && (u.thr 0 0).st == 1) = true := by decide
theorem wit_CleanCommits_2 :
    (let s := clean (.msg 0x08 5 0)
     atMarkerB s 0 0 && quietB s 0 0 && goesB (.groupCommit 0 0 none) s fun u => (u.thr 0 0).st == 4 && (u.thr 0 0).resume == 0x140
       && decide (u.hmsgs = [{ dst := 0, msg := { g1 := msgG1 0 0 5 0x08, g2 := 0x140, g3 := 0, ctx := 2 } }])) = true := by decide
theorem wit_CleanCommits_3 :
    (let s := clean .tend
     atMarkerB s 0 0 && quietB s 0 0 && ((s.core 0).topRec).isNone && !(s.thr 0 0).recast
       && goesB (.groupCommit 0 0 none) s fun u => (u.thr 0 0).st == 0 && decide ((u.thr 0 0).grp = {})) = true := by decide

/-- Two bytes of the object. -/
def two8 : List Nat := [locObj 7 0, locObj 7 1]

/-- A trap by an assist met while a vector operation of the thread has one outstanding: its group is replayed after it. -/
theorem wit_AssistLater :
    (let s := mini { run [(3, 9)] with phase := .marker, st := 2, grp := { head := 0x104, n := 1, trap := some { pos := 0, pc := 0x104, cause := 0x31, sub := 1, info := 0 } } }
     atMarkerB s 0 0 && (s.thr 0 0).grp.self.isNone
       && goesB (.groupCommit 0 0 none) s fun u => (u.thr 0 0).st == 1 && (u.thr 0 0).pc == 0x104 && (u.thr 0 0).gv 3 == 9 && u.hmsgs.isEmpty) = true := by decide

/-- A result that has returned. -/
def retd (d : Dest) (v : LVal) : LRes := { pos := 0, dest := d, val := v, ret := true, done := true }
/-- A clean group with a mark, a predicate and a shape result, flags, and a store. -/
theorem wit_Committed :
    (let s := mini { run [(3, 9)] with
       phase := .marker, st := 2, nextPc := 0x140
       grp := { head := 0x104, n := 2, marks := [(0, 3)], fx := [(0, 1)], res := [retd (.g 4) (.val 5), retd (.p 2) (.val 1), retd (.sh 1) (.shape 7)]
                defs := [{ op := 0x42, pos := 1, locs := two8, data := [5#8, 6#8], hnds := [1], ctx := 2 }] } }
     atMarkerB s 0 0 && (s.thr 0 0).grp.trap.isNone && (s.thr 0 0).mbx.isEmpty
       && goesB (.groupCommit 0 0 none) s fun u => (u.thr 0 0).gv 4 == 5 && !(u.thr 0 0).isFull 3 && (u.thr 0 0).pv 2 && (u.core 0).shape 1 == 7
         && (u.core 0).fxf == 1 && (u.thr 0 0).cq.map (·.data) == [[5#8, 6#8]] && u.oom.ws.isEmpty) = true := by decide +kernel

/-- Step 5 of thread 0 of core 0 stands at an effect. -/
def atStep5 (e : Eff) (x : Thread := run []) (k : Core := {}) (tile : Tile := {}) : State :=
  { mini { x with phase := .step5, s5 := [{ e with core := 0, thr := 0, ctx := 2, seq := 1 }], seq := 1, nextPc := 0x140 } k with
    clus := [(0, { tiles := [(1, tile)] })] }
/-- Step 5 goes on from the effect to a state with a property. -/
def takesB (s : State) (p : State → Bool) (i : Instr := .commitStep5Resume 0 0) : Bool :=
  goesB i s fun u => decide ((u.thr 0 0).phase = .issue) && (u.thr 0 0).s5.isEmpty && p u
/-- Step 5 waits for a reason in a state with a property. -/
def waitsB (s : State) (why : Nat) (p : State → Bool) (i : Instr := .commitStep5Resume 0 0) : Bool :=
  goesB i s fun u => decide ((u.thr 0 0).phase = .step5) && (u.thr 0 0).prsn == why && (u.thr 0 0).s5.length == 1 && p u

/-- The bytes of a table's entry, 512 bytes into table 0. -/
def tableWrite : CqE := { seq := 0, locs := [locObj oidTree 512], data := [1#8], hnd := 1, ctx := 2 }

/-- A store of two bytes. -/
def stEff (op : Nat) : Eff := { op := op, va := obj 64, locs := two8, data := [5#8, 6#8], hnds := [1] }

theorem wit_StoresDispatch :
    (takesB (atStep5 (stEff 0x42)) (fun u => (u.thr 0 0).cq.map (·.locs) == [two8] && u.oom.ws.isEmpty)
       && takesB (atStep5 { stEff 0x44 with sreg := 3 }) (fun u => (u.thr 0 0).cq.map (·.rel) == [some 2])
       && goesB (.commitStep5Resume 0 0) (atStep5 (stEff 0x42) { run [] with duo := true }) (fun u => (u.thr 0 0).log.length == 1 && (u.thr 0 0).cq.isEmpty)
       && takesB (atStep5 { op := 0x59, m := 8 }) (fun u => (u.thr 0 0).cq.map (·.code) == [2])
       && takesB (atStep5 { op := 0x5A }) (fun u => u.mem.isEmpty)
       && waitsB (atStep5 { op := 0x5A } { run [] with cq := [tableWrite] }) 0xD (fun u => (u.thr 0 0).cq.length == 1)) = true := by decide +kernel
theorem wit_SendDispatches :
    (let e : Eff := { op := 0x60, va := 1, vb := 9, m := 2, rd := 4 }
     let k : Core := { ptag := 3 }
     let on (s : State) : State := { s with parts := [(3, { alive := true, ctx := 2, map := [(0, 1), (1, 2)] })] }
     let s := on (atStep5 e (run []) k)
     s.phys (s.tagOf 0 0) 1 == some 1
       && waitsB s 3 (fun u => u.msgs.map (fun m => (m.dst, m.thr, m.reg, m.val)) == [(1, 2, 4, 9)])
       && waitsB (on (atStep5 e { run [] with cq := [{ kind := .fence, seq := 0 }] } k)) 3 (fun u => u.msgs.isEmpty)
       && takesB (on (atStep5 { e with st := 2 } (run []) k)) (fun u => u.msgs.isEmpty)) = true := by decide
theorem wit_RegistersDispatch :
    (takesB (atStep5 { op := 0x62, rd := 4 }) (fun u => !(u.thr 0 0).isFull 4 && (u.thr 0 0).isFull 5)
      && takesB (atStep5 { op := 0xF7, m := 7, va := 5, vb := 0xF }) (fun u => (u.core 0).vxe == 5)
      && takesB (atStep5 { op := 0x66, va := 2, vb := 0x8001 }) (fun u => SMap.get 0#16 2 (u.clu 0).roles == 0x8001)
      && takesB (atStep5 { op := 0x67, va := 1, vb := 7 }) (fun u => SMap.get 0#64 1 (u.clu 0).vec == 7)
      && takesB (atStep5 { op := 0x78, va := 5, vb := 0x8003 }) (fun u => (u.core 0).shadow.getD 5 0 == 0x8003)
      && takesB (atStep5 { op := 0xB1 } (run []) { grant := 16 }) (fun u => (u.core 0).grant == 0)
      && waitsB (atStep5 { op := 0x8B }) 0xF (fun u => (u.thr 0 0).s5.map (·.st) == [1])
      && takesB (atStep5 { op := 0x8B, st := 1, data := leBytes 4 9 }) (fun u => SMap.get 0#19 0 (u.core 0).dtab == 9)) = true := by decide +kernel
theorem wit_TilesDispatch :
    (let mine : Tile := { own := .ctx 2 }
     takesB (atStep5 { op := 0xC4, va := 1 } (run []) {} mine) (fun u => decide (((u.clu 0).tile 1).own = .free) && ((u.clu 0).tile 1).filling)
       && goesB (.commitStep5Resume 0 0) (atStep5 { op := 0xC4, va := 1 }) (fun u => u.hmsgs.any fun h => h.msg.g1.toNat % 256 == 0x20)
       && takesB (atStep5 { op := 0xC5, va := 1 } (run []) {} mine) (fun u => decide (((u.clu 0).tile 1).own = .eng 2))
       && waitsB (atStep5 { op := 0xC5, va := 1 } { run [] with cq := [{ seq := 0, locs := [tileLoc 0 1], data := [1#8] }] } {} mine) 0xF
           (fun u => decide (((u.clu 0).tile 1).own = .ctx 2))
       && takesB (atStep5 { op := 0xC6, va := 1, vb := 3 } (run []) {} mine) (fun u => ((u.clu 0).tile 1).tag == 3)) = true := by decide
theorem wit_CommandsDispatch :
    (let up : Eff := { op := 0xD2, vb := 0, vc := 1 }
     let st : Eff := { op := 0xD1, va := 0, vb := 0, vc := 1 }
     let full : Core := { q := [(1, List.replicate 16 up)] }
     let scb : Core := { scb := List.replicate 8 { lo := 64, hi := 65, thr := 1, seq := 0 } }
     isCommand up.op && (cmdSpan st).isSome
       && takesB (atStep5 { up with n := true }) (fun u => (SMap.get [] 1 (u.core 0).q).length == 1 && (SMap.get [] 5 (u.core 0).comps).map (·.thr) == [0])
       && waitsB (atStep5 up (run []) full) 0xE (fun u => (SMap.get [] 1 (u.core 0).q).length == 16)
       && waitsB (atStep5 st (run []) scb) 7 (fun u => (SMap.get [] 1 (u.core 0).q).isEmpty)) = true := by decide +kernel

/-- A handler's TRET in step 5, of thread 3 of its core. -/
def returning : State :=
  let e : Eff := { op := 0xF8, m := 1, va := 3, vb := 0x40, core := 0, thr := 7, ctx := 2, seq := 1 }
  let s := mini {} { th := [(3, { run [(3, 9)] with st := 4, resume := 0x80, fb := [(0, [1#8])] }), (7, { run [] with phase := .step5, s5 := [e], seq := 1, nextPc := 4 })] }
  { s with cores := [(0, { th := [(3, { run [(3, 9)] with st := 4, resume := 0x80, fb := [(0, [1#8])] }), (7, { run [] with phase := .step5, s5 := [e], seq := 1, nextPc := 4 })] })] }

theorem wit_HandlerReturns :
    (decide ((returning.thr 0 7).phase = .step5) && returning.drainedTo 0 7 1 && (returning.thr 0 3).st == 4
      && decide ((returning.thr 0 3).postponed = .none) && ((returning.core 0).lateOf 7).isNone
      && goesB (.commitStep5Resume 0 7) returning fun u => (u.thr 0 3).st == 1 && (u.thr 0 3).fb.isEmpty && (u.thr 0 3).gv 3 == 9
          && (u.thr 0 3).pc == 0x40 && decide ((u.thr 0 7).phase = .issue)) = true := by decide

/-- A group with a value and a load that has its bytes; then a thread whose line is in memory. -/
theorem wit_Returns_1 :
    (let r0 : LRes := { pos := 0, dest := .g 4, val := .val 5 }
     let r1 : LRes := { pos := 1, dest := .g 5, val := .load .zero none false, parts := [{ loc := locObj 7 0, size := 2, got := some [0x34#8, 0x12#8] }], done := true }
     let s := mini { run [] with grp := { n := 2, res := [r0, r1] } }
     s.inFlight 0 0 && goesB (.resultReturn 0 0 0) s (fun u => ((u.thr 0 0).grp.res[0]?).any (·.ret))
       && goesB (.resultReturn 0 0 1) s fun u => ((u.thr 0 0).grp.res[1]?).any fun r => r.ret && decide (r.val = .val 0x1234)) = true := by decide
/-- The rind of a result formed another exponent. -/
theorem wit_RindDiverges :
    (let r : LRes := { pos := 0, pc := 0x100, dest := .g 4, val := .val 0x3F800000, fmt := 11 }
     let s := mini { run [] with grp := { n := 1, res := [r] } }
     s.inFlight 0 0 && fmtF32.diverges 0x3F800000 0x40800000 && decide ((s.thr 0 0).phase = .issue)
       && goesB (.groupCommit 0 0 (some (0, 0x40800000))) s fun u => decide ((u.thr 0 0).grp.rind = some (0, 0x100))) = true := by decide
theorem wit_Returns_2 :
    (let s := mini { run [] with pc := obj 64 }
     (match s.fetch 0 0 (obj 64) with | .line _ _ => true | _ => false)
       && goesB (.lineFetch 0 0) s fun u => decide ((u.thr 0 0).line (obj 64) = some (List.replicate 64 0#8))) = true := by decide

/-- A thread with a load of two bytes, a store of two bytes or an atomic of four. -/
def loading : State := mini { run [] with grp := { n := 1, res := [{ pos := 0, dest := .g 4, val := .load .zero none false, parts := [{ loc := locObj 7 0, size := 2 }], hnd := 1 }] } }
def storing : State := mini { run [] with seq := 1, cq := [{ seq := 1, locs := two8, data := [5#8, 6#8], hnd := 1, ctx := 2 }] }
def adding : State :=
  mini { run [] with phase := .marker, st := 2, grp := { n := 1, res := [{ pos := 0, dest := .g 4, val := .atom 0x52 4 0 0 false 7 0, parts := [{ loc := locObj 7 0, size := 4 }], hnd := 1 }] } }
def written (applied : Bool) : State :=
  { idle with oom := { nextId := 2, nextEv := 2, ws := [{ id := 1, ev := 1, loc := locObj 7 0, val := 5, applied := applied }]
                       evs := [(1, {})], hl := if applied then [(locObj 7 0, 1)] else [] } }

theorem wit_MemoryEvents_1 :
    (((loading.thr 0 0).grp.openFences 0).isEmpty && (loading.storesOf 0 0 0 0).isEmpty && loading.mayPerform 0 0 0 ((loading.thr 0 0).grp.res[0]?.getD { pos := 0, dest := .none, val := .val 0 }) && !loading.goneLoc (locObj 7 0)
      && !loading.inWindow (locObj 7 0) && two8.all (fun l => !loading.zLoc l && (loading.oom.writes l).isEmpty)
      && goesB (.loadReadStep 0 0 0) loading fun u => ((u.thr 0 0).grp.res[0]?).any fun r => decide (r.parts = [{ loc := locObj 7 0, size := 2, got := some [0, 0] }])) = true := by decide
theorem wit_MemoryEvents_2 :
    (!storing.isSys (locObj 7 0) && storing.writeMay 0 0 1 two8 false && (two8.find? storing.goneLoc).isNone
      && ((storing.thr 0 0).cq[0]?).any (fun e => !storing.tileLost e)
      && goesB (.writePerform 0 0 0) storing fun u => (u.thr 0 0).cq.isEmpty && (u.oom.writes (locObj 7 1)).map (·.val) == [6#8] && u.mem.isEmpty) = true := by decide
theorem wit_MemoryEvents_3 :
    ((written false).oom.canApply 1 && goesB (.homeApply 1) (written false) fun u => !u.oom.canApply 1 && u.oom.ws.all (·.applied)) = true := by decide
theorem wit_MemoryEvents_4 :
    (adding.mayPerform 0 0 0 ((adding.thr 0 0).grp.res[0]?.getD { pos := 0, dest := .none, val := .val 0 })
      && adding.writeMay 0 0 1 (locs (locObj 7 0) 4) false && adding.atomicReady (agThread 0 0) (locs (locObj 7 0) 4) && ((adding.thr 0 0).grp.storesBefore 0 (locs (locObj 7 0) 4) false).isEmpty
      && goesB (.atomicStep 0 0 0) adding fun u => u.homeBytes (locs (locObj 7 0) 4) == [7#8, 0#8, 0#8, 0#8]
        && ((u.thr 0 0).grp.res[0]?).any fun r => r.done && decide (r.val = .val 0)) = true := by decide
theorem wit_MemoryEvents_5 :
    ((written true).oom.canPropagate 1 && (written true).oom.home (locObj 7 0) == 1
      && ((written true).viewsOf 1).isEmpty && !((written true).piecesWait (SMap.get {} 1 (written true).oom.evs).whole)
      && goesB (.frontierPropagation 1) (written true) fun u => SMap.get 0#8 (locObj 7 0) u.mem == 5 && u.oom.ws.isEmpty) = true
      ∧ ∀ g, (written true).oom.below 1 g = false := ⟨by decide, fun g => by simp [written, Oom.below]⟩

/-- An atomic whose group stores to its bytes first: the store performs, the atomic has not. -/
def storesFirst : State :=
  mini { run [] with phase := .marker, st := 2, grp := { n := 2, defs := [{ op := 0x42, pos := 0, locs := two8, data := [5#8, 6#8], hnds := [1], ctx := 2 }]
                                                         res := [{ pos := 1, dest := .g 4, val := .atom 0x52 4 0 0 false 7 0, parts := [{ loc := locObj 7 0, size := 4 }], hnd := 1 }] } }
theorem wit_MemoryEvents_6 :
    (storesFirst.mayPerform 0 0 0 ((storesFirst.thr 0 0).grp.res[0]?.getD { pos := 0, dest := .none, val := .val 0 })
      && ((storesFirst.thr 0 0).grp.storesBefore 1 (locs (locObj 7 0) 4) false).map (·.op) == [0x42]
      && storesFirst.writeMay 0 0 1 (locs (locObj 7 0) 4) true && storesFirst.writeMay 0 0 1 two8 true
      && goesB (.atomicStep 0 0 0) storesFirst fun u => ((u.thr 0 0).grp.storesBefore 1 (locs (locObj 7 0) 4) false).isEmpty
        && (u.thr 0 0).grp.res.map (·.done) == [false] && u.homeBytes two8 == [0#8, 0#8] && (u.oom.writes (locObj 7 1)).map (·.val) == [6#8]) = true := by decide
/-- A small machine with cores of its own. -/
def cores (l : List (Nat × Core)) : State := { idle with cores := l }

/-- A message for register 4 of thread 2 of core 1. -/
def mailed (k : Core) : State :=
  let e : Eff := { op := 0x60, core := 0, thr := 0, ctx := 2, seq := 1, st := 1 }
  { cores [(0, { th := [(0, { run [] with phase := .step5, s5 := [e], seq := 1 })] }), (1, k)] with
    msgs := [{ e := e, dst := 1, thr := 2, reg := 4, val := 9, src := 0, stamp := 0 }] }

theorem wit_MessageSealed :
    let s := mailed { isSealed := true }
    ((s.core 1).isSealed && goesB (.messageDelivery 0) s fun u => u.msgs.isEmpty && (u.thr 0 0).s5.any (fun e => e.st == 3 && e.ans == 0x41)) = true := by
  decide
theorem wit_MessageDelivered :
    let s := mailed { th := [(2, run [] 0xFFEF#16)] }
    (s.ejects 1 2 0 false && !(s.thr 1 2).isFull 4 && !(s.thr 1 2).isDue 4 && (s.thr 1 2).mbx.isEmpty
      && goesB (.messageDelivery 0) s fun u => u.msgs.isEmpty && (u.thr 1 2).gv 4 == 9 && (u.thr 1 2).isFull 4 && !(u.thr 1 2).isPoison 4) = true := by
  decide
theorem wit_MessageWaits :
    let s := mailed { th := [(2, { run [] with mbx := List.replicate 16 { reg := 4, val := 1, src := 3 } })] }
    (s.ejects 1 2 0 false && (s.thr 1 2).isFull 4 && goesB (.messageDelivery 0) s fun u => u.msgs.length == 1 && (u.thr 1 2).mbx.length == 16) = true := by
  decide

/-- A message for the handler of core 0; the context's handler stands at 0x200. -/
def posted (k : Core) (h : Word := 0x200) (now : Nat := 0) : State :=
  { cores [(0, k)] with
    cyc := 2 * now
    ctxs := [(2, { alive := true, owner := 1, handler := h })]
    hmsgs := [{ dst := 0, msg := { g1 := msgG1 3 0 0 0x12, g2 := 0x104, g3 := 7, ctx := 2 } }]
    launches := [(5, { hdr := [1#8], ctx := 2, cores := [0] })] }

theorem wit_HandlerSealed : goesB (.handlerMessageArrival 0) (posted { isSealed := true }) (fun u => u.hmsgs.isEmpty && (u.core 0).tq.isEmpty) = true := by
  decide
theorem wit_HandlerStarts :
    ((posted {}).handlerEntry 2 != 0 && goesB (.handlerMessageArrival 0) (posted {}) fun u => u.hmsgs.isEmpty && (u.core 0).tq.isEmpty
      && (u.thr 0 7).st == 1 && (u.thr 0 7).pc == 0x200 && (u.thr 0 7).ctx == 2 && (u.thr 0 7).gv 2 == 0x104 && (u.thr 0 7).gv 3 == 7
      && (u.thr 0 3).lcause == 0x12) = true := by decide
theorem wit_HandlerQueues :
    (let s := posted { th := [(7, run [])] }
     (s.thr 0 7).st != 0 && (s.thr 0 7).isFull 1
       && goesB (.handlerMessageArrival 0) s fun u => u.hmsgs.isEmpty && (u.core 0).tq.length == 1) = true := by decide
theorem wit_HandlerMissing :
    (let s := posted { tq := [{ g1 := msgG1 3 0 0 0x12, g2 := 0x104, g3 := 7, ctx := 2 }] } 0 850000
     s.handlerEntry 2 == 0 && (s.nextMsg 0 2).isSome && (s.thr 0 7).st == 0
       && goesB (.handlerEntryTimeout 0 2) s fun u => (u.launch 5).cause == 0xB6 && (u.launch 5).last == 0x12) = true := by decide
theorem wit_RotationStarts :
    (let s := cores [(0, { pos := 32, th := [(3, { run [] with yielded := true })] })]
     goesB (.slotRotationStart 0) s fun u => (u.core 0).pos == 0 && !(u.thr 0 3).yielded) = true := by decide
/-- Thread 2 of core 0 has the role that reads its channel from g5, and has waited for longer than 10 A-cycles. -/
theorem wit_ChannelDry :
    (let s : State := { cores [(0, { th := [(2, { run [] with st := 2, prsn := 1, parkReg := 5, dry := 10 })] })] with
                        clus := [(0, { roles := [(0, 0x8050#16)], rctmo := 10 })], cyc := 31 }
     (s.roleOf 0).toNat / 2 ^ 14 == 2 && roleInreg (s.roleOf 0) == 5 && goesB (.channelDry 0 2) s fun u => (u.thr 0 2).dryTold
       && decide (u.hmsgs = [{ dst := 8, msg := { g1 := msgG1 2 1 0 0x45, g2 := 0, g3 := 0x200, ctx := 2, from_ := 1 } }])) = true := by decide

/-- Thread 3 of core 0 on its way to core 1. -/
def moving (k : Core) : State :=
  let e : Eff := { op := 0x63, va := 1, core := 0, thr := 3, ctx := 2, seq := 1, st := 1 }
  let x : Thread := { run [(4, 9)] with phase := .step5, s5 := [e], seq := 1, nextPc := 0x140 }
  { cores [(0, { th := [(3, x)] }), (1, k)] with migs := [{ src := 0, thr := 3, dst := 1, stamp := 0, image := x, agent := [] }] }

theorem wit_MigrationRefused :
    goesB (.migrationArrival 0) (moving { isSealed := true })
      (fun u => u.migs.isEmpty && (u.thr 0 3).s5.any fun e => e.st == 3 && e.ans == 0x4100) = true := by decide
theorem wit_MigrationArrives :
    ((moving {}).core 1).freeCtx = some 0 ∧ quietB (moving {}) 0 3 = true ∧ ((moving {}).core 1).lateOf 0 = none
      ∧ goesB (.migrationArrival 0) (moving {}) (fun u => u.migs.isEmpty && (u.thr 1 0).st == 1 && (u.thr 1 0).pc == 0x140
          && (u.thr 1 0).gv 4 == 9 && (u.thr 0 3).st == 0) = true := by decide

/-- Core 0 is idle in a launch; core 1 of the same launch holds a record. -/
def thief (st : Steal) (alone : Bool := false) (deque : List DqRec := [{ id := 1, task := { entry := 0x80, a1 := 5, a3 := 6, a4 := 7 } }]) : State :=
  { cores ([(0, { lid := 5, tpc := 1, steal := st })] ++ if alone then [] else [(1, { lid := 5, tpc := 1, deque := deque })]) with
    launches := [(5, { hdr := [1#8], ctx := 2, cores := [0, 1] })] }

theorem wit_StealAsks :
    (((thief .idle).core 0).idleThief && (thief .idle).victims 0 == [1]
      && goesB (.stealRequest 0) (thief .idle) fun u => decide ((u.core 0).steal = .asking [1])) = true := by decide +kernel
theorem wit_StealWaits :
    ((thief .idle true).victims 0 == [] && goesB (.stealRequest 0) (thief .idle true) fun u => decide ((u.core 0).steal = .waiting)) = true := by
  decide +kernel
theorem wit_StealTakes :
    (((thief (.asking [1])).core 0).eligible.head? == some 0 && ((thief (.asking [1])).core 1).botRec.isSome
      && goesB (.stealAnswer 0) (thief (.asking [1])) fun u => decide ((u.core 0).steal = .idle) && (u.thr 0 0).st == 1 && (u.thr 0 0).pc == 0x80
          && (u.thr 0 0).gv 1 == 5 && (u.thr 0 0).gv 4 == 7 && (u.core 1).deque.isEmpty) = true := by decide
theorem wit_StealAsksOn :
    (let s := thief (.asking [1, 2]) false []
     ((s.core 1).botRec).isNone && goesB (.stealAnswer 0) s fun u => decide ((u.core 0).steal = .asking [2])) = true := by decide
theorem wit_StealBackoff : goesB (.stealBackoffExpiry 0) (thief .waiting) (fun u => decide ((u.core 0).steal = .idle)) = true := by decide

/-! Extents and tiles -/

/-- Object 7 with its first extent in some state, byte 5 of it set, and a thread that was dropped on it. -/
def land (e : Extent) : State :=
  { mini { run [] with st := 3, prsn := 4, drop := some { pos := 0, pc := 0, oid := 7, ext := 0, addr := 0 } } with
    objs := [(7, { size := 65536, isLazy := true, ext := [(0, e)] })], mem := [(locObj 7 5, 9#8)] }

/-- A channel of die 1 that is not its reserve. -/
theorem open_channel : ∃ ch, ch < 32 ∧ ch ≠ reserveCh 1 := by
  by_cases h : reserveCh 1 = 2
  · exact ⟨3, by decide, by omega⟩
  · exact ⟨2, by decide, fun e => h e.symm⟩
/-- Slot 3 of such a channel is free for the extent. -/
theorem land_placeFree (e : Extent) {ch : Nat} (h : ch < 32) (hr : ch ≠ reserveCh 1) :
    (land e).placeFree 7 0 { die := 1, ch := ch, slot := 3, ws := false } = true := by
  have hu : (land e).unit (unitCh 1 ch) = {} := rfl
  have hs : (land e).slotOk 1 ch 3 = true := by
    have hw : (land e).isWorn 1 ch 3 = false := rfl
    simp [State.slotOk, State.chCap, hu, hr, hw]
  have ho : (land e).objs = [(7, { size := 65536, isLazy := true, ext := [(0, e)] })] := rfl
  simp [State.placeFree, hs, ho, h]
theorem wit_ExtentAllocated : ∃ p : Place, p.ws = false ∧
    (let s := land { present := false, reported := true }
     (s.extent 7 0).present = false ∧ (s.thr 0 0).waitsFor 7 0 = true ∧ s.placeFree 7 0 p = true ∧ s.leastFilled p.die p.ch = true) := by
  obtain ⟨ch, h, hr⟩ := open_channel
  refine ⟨{ die := 1, ch := ch, slot := 3, ws := false }, rfl, rfl, by decide, land_placeFree _ h hr, ?_⟩
  have hu : (land { present := false, reported := true }).unit (unitCh 1 ch) = {} := rfl
  have hn : ∀ c, (land { present := false, reported := true }).extentsOn 1 c = [] := fun c => by rfl
  simp [State.leastFilled, hn, State.chCap, hu, hr]
theorem wit_ExtentMoves : ∃ p : Place, p.ws = false ∧ p.die = 1 ∧
    (let s := land { rheat := 3 }
     s.placeFree 7 0 p = true ∧ s.holdersOf 7 = [2] ∧ s.quiescent 2 = true ∧ (s.extent 7 0).mostUsed 1 = true ∧ (s.extent 7 0).die = 0) := by
  obtain ⟨ch, h, hr⟩ := open_channel
  exact ⟨{ die := 1, ch := ch, slot := 3, ws := false }, rfl, rfl, land_placeFree _ h hr, by decide, by decide, by decide, by decide⟩
theorem wit_ExtentRefused :
    goesB (.extentAllocationWake 7 0 { die := 1, ch := 2, slot := 3, ws := false } false) (land { present := false, reported := true }) (fun u =>
      (u.thr 0 0).st == 4 && (u.thr 0 0).resume == 0) = true := by decide
theorem wit_HeatSwept :
    goesB .heatSweep (land { rheat := 7, wheat := 4 }) (fun u => (u.extent 7 0).rheat == 3 && (u.extent 7 0).wheat == 2) = true := by decide
theorem wit_WeightsMoved :
    (let s := { land { rheat := 3 } with objs := [(7, { size := 65536, weight := true, ext := [(0, { rheat := 3 })] })] }
     goesB (.extentMove 7 0 { die := 1, ch := 2, slot := 3, ws := true }) s fun u => (u.extent 7 0).ws && (u.extent 7 0).rheat == 0) = true := by decide
theorem wit_WindowChanges :
    (let s : State := { cores [(0, { th := [(0, { run [] with phase := .marker, st := 2, prsn := 0x0A })] })] with cyc := 8000 }
     s.bankWin != s.bankNow && goesB .weightRefreshWindow s fun u => u.bankWin == u.bankNow && (u.thr 0 0).prsn == 0x0A) = true := by decide
theorem wit_Scrubbed :
    (let s : State := { land { z := true } with cores := [(0, { th := [(0, { run [] with st := 2, prsn := 8 })] })] }
     goesB (.scrubExtentClear 7 0) s fun u => !(u.extent 7 0).z && u.mem.isEmpty && (u.thr 0 0).st == 1) = true := by decide
theorem wit_PlaceScrubbed :
    (let s := { idle with scrub := [(3, 9, 2), (1, 5, 2)] }
     nextScrub s.idleScrub == some (1, 5, 2) && goesB (.scrubExtentClear 0 0) s fun u => u.scrub == [(3, 9, 2)]) = true := by decide
theorem wit_TileFilled :
    (let s : State := { idle with clus := [(0, { tiles := [(1, { own := .ctx 2, filling := true })] })], mem := [(tileLoc 0 1 + 5, 9#8)] }
     ((s.clu 0).tile 1).filling && goesB (.tileZeroFillEnd 0 1) s fun u => !((u.clu 0).tile 1).filling && u.mem.isEmpty) = true := by decide

/-! Engines -/

/-- A command of thread 0 of core 0 in context 2, at the head of a queue. -/
def command (q : Nat) (e : Eff) : State := cores [(0, { th := [(0, run [])], q := [(q, [e])] })]

/-- A vector operation that has read its operands. -/
def vop (started : Bool) : VOp :=
  { e := { op := 0x90, core := 0, thr := 0, ctx := 2, seq := 1, vd := obj 0 }, read := true, started := started, fl := 1
    out := [(locObj 7 0, [5#8, 6#8])] }

theorem wit_VectorStarts :
    (let s := cores [(0, { th := [(0, run [])], vq := [vop false] })]
     goesB (.vectorOpStart 0 0) s fun u => (u.core 0).vq.map (·.started) == [true]) = true := by decide
theorem wit_VectorRetires :
    (let s := cores [(0, { th := [(0, { run [] with seq := 1 })], vq := [vop true] })]
     s.writeMay 0 0 1 two8 false && !s.barredAt (s.ctxOf 0 0) (fpHnd (obj 0)) (locObj 7 0)
       && goesB (.vectorOpRetire 0 none) s fun u => (u.core 0).vq.isEmpty && (u.core 0).vxf == 1 && (u.oom.writes (locObj 7 1)).map (·.val) == [6#8]) = true := by
  decide

/-- A tile-task record: path 1, 32 by 32 by 32 on the tiles 1, 2 and 3, its barrier in the object. -/
def record : List Byte :=
  [1#8, 1#8, 2#8, 0#8] ++ leBytes 2 32 ++ leBytes 2 32 ++ leBytes 4 32 ++ [1#8, 2#8, 3#8, 0#8] ++ List.replicate 12 0#8
    ++ leBytes 2 9 ++ leBytes 2 0 ++ leBytes 8 (2 ^ 42 + 256) ++ List.replicate 88 0#8
/-- The command that names it. -/
def ttask : Eff := { op := 0xC7, core := 0, thr := 0, ctx := 2, seq := 1, va := obj 0, locs := [locObj 7 0], hnds := [1] }
/-- A cluster that holds the task, with its tiles handed to the Vats, or not. -/
def task (own : Owner) (vat : Nat) : State :=
  { cores [(0, { th := [(0, run [])], comps := [(5, [{ thr := 0, seq := 1 }])] })] with
    clus := [(0, { tiles := [(1, { own := own }), (2, { own := own }), (3, { own := own })]
                   sched := [{ e := ttask, bytes := record, vat := vat, noBar := true }] })] }

theorem wit_TaskAccepted :
    (let s := { command 0 ttask with mem := (record.zipIdx.filter (·.1 != 0#8)).map fun p => (locObj 7 0 + p.2, p.1) }
     s.memWf && s.cmdReady ttask && s.takesNext 0 0 ttask && !s.quiet 0 && !s.barredAt 2 1 (locObj 7 0)
       && (match (s.joinCmd (agVat 0) ttask).engRead (agVat 0) (locObj 7 0) 128 with | .bytes _ b => b == record | _ => false)
       && ({ e := ttask, bytes := record } : TTask).good []
       && goesB (.tileTaskAccept 0) s fun u => (SMap.get [] 0 (u.core 0).q).isEmpty && (u.clu 0).sched.map (·.bytes) == [record]) = true := by decide +kernel
theorem wit_TaskStarts :
    (let s := task (.eng 2) 0
     ((s.clu 0).sched.all fun j => ((s.clu 0).startCheck j).isNone && j.isReady && s.inShare j && j.barredVat != some 1 && (s.promisedOf j).isNone)
       && goesB (.tileTaskStart 0 0 1) s fun u => (u.clu 0).sched.map (·.vat) == [2]) = true := by decide
theorem wit_TaskStartFails :
    (let s := task (.ctx 2) 0
     ((s.clu 0).sched.all fun j => ((s.clu 0).startCheck j) == some (0x60, tilePtr 1))
       && goesB (.tileTaskStart 0 0 1) s fun u => (u.clu 0).sched.map (·.fault) == [some (0x60, tilePtr 1)]) = true := by decide
theorem wit_TaskCompletes :
    (let s := task (.eng 2) 1
     let j : TTask := { e := ttask, bytes := record, vat := 1, noBar := true }
     !(s.clu 0).rival 0 j && (s.tileOperands 0 j).isSome && (match s.reach 0 2 j.cbar 32 with | .at_ _ => true | _ => false)
       && (match s.engRead (agVat 0) (tileLoc 0 1) 4096 with
           | .bytes s1 x => (match s1.engRead (agVat 0) (tileLoc 0 2) 4096 with
             | .bytes s2 y => ((s2.writeRange (agVat 0) (tileLoc 0 3) (j.result x y []) []).endTile 0 0 j none).isSome
             | _ => false)
           | _ => false)) = true := by decide +kernel

theorem wit_TaskFails :
    (let j : TTask := { e := ttask, bytes := record, vat := 1, noBar := true }
     ((task (.ctx 2) 1).endTile 0 0 j (some (0x60, tilePtr 1))).isSome) = true := by decide +kernel

/-- A Trellis command of thread 0. -/
def spcvt : Eff := { op := 0xD5, core := 0, thr := 0, ctx := 2, seq := 1, vb := 0, vc := 1 }
def spup : Eff := { op := 0xD2, core := 0, thr := 0, ctx := 2, seq := 1, sh := oneLeaf }
/-- A Trellis that holds context 2's image, its entry 0 full. -/
def trellis (held : Nat) (w : TCmd) : State :=
  { cores [(0, { th := [(0, run [])] })] with
    clus := [(0, { trel := { held := held, win := [w], img := [(2, { val := [(0, 5#32)], full := [(0, true)] })] } })] }

theorem wit_TrellisAccepts :
    ((command 1 spcvt).cmdReady spcvt && (command 1 spcvt).takesNext 0 1 spcvt && goesB (.trellisAccept 0) (command 1 spcvt) fun u =>
      (u.clu 0).trel.win.length == 1 && (SMap.get [] 1 (u.core 0).q).isEmpty) = true := by decide
theorem wit_TrellisStarts :
    (needs spup).all (fun i => SMap.get false i (((trellis 3 { e := spup }).clu 0).trel.image 2).full) = true
      ∧ goesB (.trellisCommandStart 0 0 1) (trellis 3 { e := spup }) (fun u => (u.clu 0).trel.win.map (fun w => (w.started, w.tree)) == [(true, 2)]) = true := by
  decide +kernel
theorem wit_TrellisRetires :
    goesB (.trellisCommandRetire 0 0 none) (trellis 3 { e := { op := 0xD6, core := 0, thr := 0, ctx := 2, seq := 1, vb := 0, vc := 1 }, started := true }) (fun u =>
      (u.clu 0).trel.win.isEmpty && SMap.get false 0 ((u.clu 0).trel.image 2).full) = true := by decide
/-- SPLD and SPST of one entry, from the object and into it. -/
def spld (op : Nat) : Eff := { op := op, core := 0, thr := 0, ctx := 2, seq := 1, va := obj 0, vb := 0, vc := 1, locs := [locObj 7 0], hnds := [1] }
theorem wit_TrellisLoads :
    (let s := command 1 (spld 0xD0)
     s.cmdReady (spld 0xD0) && s.takesNext 0 1 (spld 0xD0) && !s.barredAt 2 1 (locObj 7 0)
       && (match (s.joinCmd (agTrellis 0) (spld 0xD0)).engRead (agTrellis 0) (locObj 7 0) (spElem 0xD0 0) with | .bytes _ _ => true | _ => false)
       && goesB (.trellisAccept 0) s fun u => (u.clu 0).trel.win.map (·.mem.length) == [4]) = true := by decide
theorem wit_TrellisStores :
    (let s := trellis 3 { e := spld 0xD1, started := true, mem := [5#8, 0#8, 0#8, 0#8] }
     !s.barredAt 2 1 (locObj 7 0) && !s.goneLoc (locObj 7 0) && s.writeMay 0 0 1 (locs (locObj 7 0) 4) false
       && goesB (.trellisCommandRetire 0 0 none) s fun u => (u.clu 0).trel.win.isEmpty && (u.oom.writes (locObj 7 0)).map (·.val) == [5#8]) = true := by decide
/-- SPLD fills its words one by one, the last as it retires. -/
theorem wit_TrellisFills :
    (let w : TCmd := { e := { spld 0xD0 with vb := 3, vc := 2 }, started := true, mem := [5#8, 0#8, 0#8, 0#8, 6#8, 0#8, 0#8, 0#8] }
     w.fills && ((trellis 3 w).core 0).vxe == 0
       && goesB (.trellisCommandStart 0 0 0) (trellis 3 w) (fun u => (u.clu 0).trel.win.map (·.prog) == [1]
         && SMap.get false 3 ((u.clu 0).trel.image 2).full && !SMap.get false 4 ((u.clu 0).trel.image 2).full)
       && goesB (.trellisCommandRetire 0 0 none) (trellis 3 { w with prog := 1 }) fun u => (u.clu 0).trel.win.isEmpty
         && SMap.get 0#32 4 ((u.clu 0).trel.image 2).val == 6 && !SMap.get false 3 ((u.clu 0).trel.image 2).full) = true := by decide
theorem wit_TrellisSwaps :
    goesB (.trellisImageSwap 0 2) (trellis 0 { e := spup }) (fun u => (u.clu 0).trel.held == 3) = true := by decide

/-- A Ladle copy of 16 bytes within the object. -/
def lcopy : Eff := { op := 0xE0, core := 0, thr := 0, ctx := 2, seq := 1, va := obj 0, vd := obj 4096, vb := 16 }
def ladle (r : LReq) : State := { cores [(0, { th := [(0, run [])] })] with clus := [(0, { ladle := [r] })], mem := [(locObj 7 3, 9#8)] }

theorem wit_LadleAccepts :
    ((command 2 lcopy).cmdReady lcopy && goesB (.ladleRequestAccept 0) (command 2 lcopy) fun u =>
      (SMap.get [] 2 (u.core 0).q).isEmpty && (u.clu 0).ladle.map (fun r => (r.id, r.total)) == [(1, 16)]) = true := by decide
theorem wit_LadleCancels :
    goesB (.ladleChunk 0 0) (ladle { id := 1, e := lcopy, total := 16, cancel := true }) (fun u => (u.clu 0).ladle.all fun r => decide (r.ended = .cancelled)) = true := by
  decide
theorem wit_LadleFaults :
    (let s := ladle { id := 1, e := { lcopy with va := obj 65528 }, total := 16 }
     (match s.chkChunk { id := 1, e := { lcopy with va := obj 65528 }, total := 16 } with | .fault c _ => c == 0x11 | _ => false)
       && goesB (.ladleChunk 0 0) s fun u => (u.clu 0).ladle.all (fun r => decide (r.ended = .err 0x11)) && u.hmsgs.map (·.msg.g1) == [msgG1 0 2 0x11 0x63]) = true := by
  decide
theorem wit_LadleMoves :
    (let r : LReq := { id := 1, e := lcopy, total := 16 }
     let s := ladle r
     (match s.chkChunk r with | .ok rd _ => (s.readAll (agLadle 0) rd).isSome | _ => false)
       && goesB (.ladleChunk 0 0) s fun u => (u.clu 0).ladle.all (fun r => decide (r.ended = .done) && r.prog == 16)
            && (u.oom.writes (locObj 7 4099)).map (·.val) == [9#8]) = true := by decide

/-- A member's collective of a Press group of `n` members, and its die. -/
def prar (rank : Nat) (op : Nat) (vb : Word) : PMem :=
  { e := { op := op, core := 0, thr := 0, ctx := 2, seq := 1, va := obj 0, vd := obj 0, vb := vb, rd := rank, locs := [locObj 8 0] }, grp := 8, rank := rank, k := 1 }
def press (n : Nat) (l : List PMem) : State :=
  { cores [(0, { th := [(0, run [])], q := [(3, (l.map (·.e)).take 1)] })] with
    objs := [(7, { size := 65536, ext := [(0, {})] }), (8, { size := 256, kind := .press n [], ext := [(0, {})] })]
    dies := [(0, { press := l })] }

theorem wit_PressAccepts :
    (let s := press 1 [prar 0 0xE6 1]
     let e := (prar 0 0xE6 1).e
     s.cmdReady e && (match (s.joinCmd (agPress 0) e).engRead (agPress 0) (locObj 8 0 + 8) 8 with | .bytes _ _ => true | _ => false)
       && goesB (.pressCommandAccept 0) s fun u => (SMap.get [] 3 (u.core 0).q).isEmpty && (u.die 0).press.length == 2) = true := by decide
theorem wit_PressDiffers :
    (let s := press 2 [prar 0 0xE6 1, prar 1 0xE6 2]
     (s.pressAll 8 1).length == s.pressMembers 8 && (prar 0 0xE6 1).shape != (prar 1 0xE6 2).shape
       && goesB (.pressChunk 0 0) s fun u => (u.die 0).press.isEmpty) = true := by decide
theorem wit_PressMoves :
    (let m := prar 0 0xE4 2
     let s := { press 1 [m] with mem := [(locObj 7 4, 9#8)] }
     (s.pressAll 8 1).map (·.rank) == [0] && (s.pressAll 8 1).length == 1 && m.rank == m.root && decide (m.prog < m.count)
       && (match s.chkRange 0 2 (obj 0) (0 : Nat) 8 false with | .ok rd => (s.readAll (agPress 0) rd).isSome | _ => false)
       && (match s.chkRange 0 2 (obj 0) (0 : Nat) 8 true with | .ok _ => true | _ => false)
       && goesB (.pressChunk 0 0) s fun u => (u.die 0).press.isEmpty && (u.oom.writes (locObj 7 4)).map (·.val) == [9#8]) = true := by decide +kernel

/-! The network -/

/-- A SEND of 2 bytes as a request, and a post. -/
def nsend (p : PktSt := {}) : NReq :=
  { id := 1, e := { op := 0xE8, core := 0, thr := 0, ctx := 2, seq := 1 }, op := 1, len := 2, lptr := obj 0, peer := 77, tag := 5
    pkts := if p = {} then [] else [(0, p)], total := 1 }
def npost : NReq := { id := 1, e := { op := 0xE9, core := 0, thr := 0, ctx := 2, seq := 1 }, op := 2, len := 64, lptr := obj 0, peer := 77, tag := 5 }
def net (r : NReq) (cyc : Nat := 100000) : State :=
  { cores [(0, { th := [(0, run [])], comps := [(5, [{ thr := 0, seq := 1 }])] })] with
    dies := [(0, { net := [r], netNext := 2 })], mem := [(locObj 7 1, 9#8)], cyc := cyc }

/-- The source of the message reads. -/
def sourceB (s : State) : Bool := match s.chkRange 0 2 (obj 0) (0 : Nat) 2 false with | .ok rd => (s.readAll (agNet 0) rd).isSome | _ => false

theorem wit_NetAccepts :
    (let e : Eff := { op := 0xE8, core := 0, thr := 0, ctx := 2, seq := 1, data := leBytes 4 1 ++ leBytes 4 2 ++ leBytes 8 (2 ^ 42) ++ leBytes 8 77 ++ leBytes 8 5 ++ List.replicate 32 0#8 }
     (command 4 e).cmdReady e && goesB (.netRequestAccept 0) (command 4 e) fun u => (SMap.get [] 4 (u.core 0).q).isEmpty
       && (u.die 0).net.map (fun r => (r.op, r.len, r.peer, r.tag)) == [(1, 2, 77, 5)]) = true := by decide
theorem wit_NetSends :
    ((net nsend).netFree 0 nsend && sourceB (net nsend) && (nsend.pkt 0).sends == 0
      && goesB (.netPacketSend 0 0 0 false) (net nsend) fun u => u.pkts.map (fun p => (p.2.dst, p.2.msg, p.2.data)) == [(77, 1, [0#8, 9#8])]) = true := by
  decide
/-- A packet for the port of context 2 on die 0. -/
def packet : NetPkt := { kind := .send, src := 77, dst := portName 0 2, msg := 3, idx := 0, len := 2, tag := 5, ticket := 0, roff := 0, data := [5#8, 6#8] }
theorem wit_NetArrives :
    (net npost).portOf packet.dst = some (0, 2) ∧ pktWhole packet = true ∧ bit packet.tag.toNat 63 = false ∧ packet.len ≤ npost.len
      ∧ npost.peer = packet.src ∧ npost.tag = packet.tag ∧ (net npost).stopReached 0 = false
      ∧ ∃ wr, (net npost).chkRange 0 2 (obj 0) (0 : Nat) 2 true = .ok wr := by
  refine ⟨?_, by decide, by decide, by decide, rfl, rfl, by decide, _, rfl⟩
  show List.find? _ ((0, 2) :: _) = some (0, 2)
  simp [packet]
theorem wit_NetAcks :
    ((nsend { sends := 1 }).total == 1 && !((nsend { sends := 1 }).pkt 0).done && (nsend { sends := 1 }).op == 1) = true ∧ (0x73 : Nat) > 1 := by decide
theorem wit_NetResends :
    ((nsend { sends := 8 }).due 0 100000 && goesB (.netResendTimeout 0 0 0 false) (net (nsend { sends := 8 })) fun u => (u.die 0).net.map (·.cause) == [0x71]) = true
      ∧ ((nsend { sends := 7 }).due 0 100000 && sourceB (net (nsend { sends := 7 }))
          && goesB (.netResendTimeout 0 0 0 true) (net (nsend { sends := 7 })) fun u => (u.die 0).net.map (fun r => (r.pkt 0).sends) == [8]) = true := by decide
theorem wit_NetRetries :
    (((nsend { sends := 1, last := 83000, refused := true }).pkt 0).refused && sourceB (net (nsend { sends := 1, last := 83000, refused := true }))
      && goesB (.netUnmatchedRetry 0 0 false) (net (nsend { sends := 1, last := 83000, refused := true })) fun u =>
          (u.die 0).net.map (fun r => ((r.pkt 0).refused, (r.pkt 0).sends)) == [(false, 2)]) = true := by decide
theorem wit_CounterSteps :
    (let s := { cores [(0, { th := [(0, run [])] })] with owed := [{ ctr := obj 64, ctx := 2, core := 0, thr := 0, cause := 0x71 }] }
     (match s.reach 0 2 (obj 64) 8 with | .at_ l => l == locObj 7 64 | _ => false) && s.atomicReady 0 (locs (locObj 7 64) 8)
       && goesB (.completionCounterStep 0) s fun u => u.owed.isEmpty && u.homeBytes (locs (locObj 7 64) 8) == [0, 0, 0, 0, 0, 0, 1, 0x71]) = true := by decide

/-! Names, handles and frames -/

/-- The host's tree: /a, /m (an object), /tenant/ctx/003, and handles 1 on the object and 2 on the make object of /a. -/
def world : State :=
  { idle with
    ctxs := [(1, { alive := true, dom := 1, root := 2, hnd := [(1, { oid := 7, size := 65536, st := .valid, rights := 127 }),
                 (2, { oid := 9, size := 1024, st := .valid, rights := 127 }),
                 (3, { oid := 10, size := 64, st := .valid, rights := 1 })] }),
             (3, { alive := true, owner := 1, root := 10 })]
    nodes := [(2, { type := 1, ctx := 1, kids := [(nameOf ['a'], 4), (nameOf ['m'], 8), (nameOf ['t', 'e', 'n', 'a', 'n', 't'], 5)] }),
              (4, { type := 1, ctx := 1 }), (5, { type := 1, ctx := 1, kids := [(nameOf ['c', 't', 'x'], 6)] }),
              (6, { type := 1, ctx := 1, kids := [(hexName 3 3, 7)] }), (7, { type := 1, ctx := 1 }), (8, { type := 2, ctx := 1, oid := 7, grants := [(1, 127)] }),
              (10, { type := 1, ctx := 3 })]
    nodeNext := 11
    objs := [(7, { size := 65536, owner := 1, ext := [(0, {})] }), (9, { kind := .make 4, size := 1024 }), (10, { kind := .listing 7, size := 64 })]
    mem := [(locObj 7 3, 9#8)] }

/-- A frame of the host in its own context. -/
def frame (type flags : Nat) (token arg : Word) (payload : List Byte) (len : Nat := payload.length) : Frame :=
  { type := BitVec.ofNat 8 type, flags := BitVec.ofNat 8 flags, len := BitVec.ofNat 16 len, ctx := 1, seq := 5, token := token, arg := arg
    rest := 0, payload := payload, peer := none }

/-- A good frame of a type. -/
def hostB (f : Frame) (type : Nat) : Bool := !frameBad f && f.type.toNat == type && f.ctx.toNat == 1 && f.peer.isNone

/-- How the NSE answers a frame's request: 0, or the cause of a refusal. -/
def asked (f : Frame) (e : Eff) : Option Nat :=
  let r : HubReq := { e := e, seq := world.hubNext, frame := some f, ctx := 1 }
  match ({ world with hub := [r], hubNext := world.hubNext + 1 } : State).hubDo 0 r with
  | .ok _ _ => some 0
  | .no _ c _ _ => some c
  | _ => none

/-- The last reply has a status. -/
def repliesB (u : State) (n : Nat) : Bool := u.hub.isEmpty && u.replies.map (fun r => (r.seq, r.status)) == [(5, n)]

theorem wit_FrameWalk :
    (let f := frame 1 0 0 0 (nameOf ['/', 'a'] ++ [0#8])
     let g := frame 1 0 0 0 (nameOf ['/', 'b'] ++ [0#8])
     hostB f 1 && (framePath f.payload).isSome && asked f { op := 0xF0, vb := 0 } == some 0 && goesB (.frameWalk f) world (repliesB · 0)
       && hostB g 1 && (framePath g.payload).isSome && asked g { op := 0xF0, vb := 0 } == some 0xB0 && goesB (.frameWalk g) world (repliesB · 0xB0)) = true := by
  decide +kernel
theorem wit_FrameRefused :
    (let f := { frame 1 0 0 0 (nameOf ['/', 'a'] ++ [0#8]) with rest := 1 }
     let g := { frame 1 0 0 0 (nameOf ['/', 'a'] ++ [0#8]) with ctx := 9 }
     let h := frame 1 0 0 0 (nameOf ['/', 'a'])
     frameBad f && goesB (.frameWalk f) world (repliesB · 0x80)
       && !frameBad g && (match world.frameCtx g with | .error q => q == (0x06, 1) | .ok _ => false) && goesB (.frameWalk g) world (repliesB · 0x06)
       && hostB h 1 && (framePath h.payload).isNone && goesB (.frameWalk h) world (repliesB · 0xB2)) = true := by decide +kernel
/-- A frame of a tenant context that the host created. -/
theorem wit_FrameServes : Serves world { frame 1 0 0 0 (nameOf ['/', 'a'] ++ [0#8]) with ctx := 3 } 1 world 3 := ⟨by decide, rfl, rfl⟩
theorem wit_FrameOpensPath :
    (let f := frame 2 1 (world.token 1 2) 0 (nameOf ['m'] ++ [0#8])
     hostB f 2 && !world.isCreate f && framePath f.payload == some (nameOf ['m'])
       && (match world.resolve 1 (some f.token) (nameOf ['m']) with | .ok _ t => t == world.token 1 8 | _ => false)
       && goesB (.frameOpen f) world (repliesB · 0)) = true := by decide +kernel
theorem wit_FrameOpen :
    (let f := frame 2 1 (world.token 1 8) 0 []
     let g := frame 2 1 0 0 []
     hostB f 2 && !world.isCreate f && asked f { op := 0xF1, va := f.token, vb := 0, m := 1 } == some 0 && goesB (.frameOpen f) world (repliesB · 0)
       && hostB g 2 && asked g { op := 0xF1, va := 0, vb := 0, m := 1 } == some 0xB0 && goesB (.frameOpen g) world (repliesB · 0xB0)) = true := by decide +kernel
theorem wit_FrameBind :
    (let f := frame 6 0 (world.token 1 4) (world.token 1 7) []
     hostB f 6 && asked f { op := 0xF3, m := 0, va := f.token, vb := f.arg } == some 0
       && goesB (.frameBind f) world (fun u => repliesB u 0 && u.binds.length == 1)
       && asked (frame 6 0 0 0 []) { op := 0xF3, m := 0 } == some 0xB0) = true := by decide +kernel
theorem wit_FrameUnbind :
    (let f := frame 6 0x80 (world.token 1 4) (world.token 1 7) []
     hostB f 6 && (asked f { op := 0xF4, va := f.token, vb := f.arg }).any (· != 0)
       && goesB (.frameUnbind f) world (fun u => u.replies.length == 1)) = true := by decide +kernel
theorem wit_FrameClose :
    (let f := frame 5 0 (obj 0) 0 []
     hostB f 5 && decide ((world.desc 1 1).st = .valid)
       && goesB (.frameClose f) world fun u => decide ((u.desc 1 1).st = .invalid) && u.shoots.map (fun q => (q.ctx, q.hnd, q.close)) == [(1, 1, true)]) = true := by
  decide +kernel
theorem wit_FrameRevoke :
    (let f := frame 5 1 (obj 0) 0 []
     hostB f 5 && (world.ends f).isNone
       && goesB (.frameRevoke f) world fun u => decide ((u.desc 1 1).st = .revoking) && u.shoots.map (fun q => (q.ctx, q.hnd, q.close)) == [(1, 1, false)]) = true := by
  decide +kernel
theorem wit_FrameRevokesForeign :
    (let f := frame 5 3 (obj 0) 3 []
     let s := world.modCtx 3 fun k => { k with hnd := [(1, { oid := 7, size := 65536, st := .valid, rights := 127 })] }
     hostB f 5 && (s.ends f).isNone && (s.ctx 3).alive && (s.ctx 3).dom == 0 && (s.ctx 3).owner == 1 && decide ((s.desc 3 1).st = .valid)
       && goesB (.frameRevoke f) s fun u => decide ((u.desc 3 1).st = .revoking) && u.shoots.map (·.ctx) == [3]) = true := by decide +kernel
theorem wit_FrameRead :
    (let f := frame 3 0 (obj 2) 0 [] 2
     hostB f 3 && (world.makeOf 1 f).isNone && (match world.frameSpan 1 f rRead with | .ok k => k.np.isNone | .error _ => false)
       && goesB (.frameRead f) world fun u => u.replies.map (·.data) == [[0#8, 9#8]]) = true := by decide +kernel
theorem wit_FrameWrite :
    (let f := frame 4 0 (obj 2) 0 [5#8, 6#8]
     hostB f 4 && (world.makeOf 1 f).isNone && (match world.frameSpan 1 f rWrite with | .ok k => k.np.isNone && (world.obj (locId k.loc)).kind.isMem | .error _ => false)
       && goesB (.frameWrite f) world fun u => (u.oom.writes (locObj 7 3)).map (·.val) == [6#8] && u.replies.map (·.status) == [0]) = true := by decide +kernel
theorem wit_FrameWriteWeights :
    (let f := frame 4 0 (obj 2) 0 [5#8, 6#8]
     let s := { world with objs := [(7, { size := 65536, owner := 1, ext := [(0, { ws := true })] })], launches := [(5, { hdr := [1#8], ctx := 1, cores := [0] })] }
     hostB f 4 && (match s.frameSpan 1 f rWrite with | .ok k => k.np.isNone && k.ws.isSome && !(s.holdersOf (locId k.loc)).all s.quiescent | .error _ => false)
       && goesB (.frameWrite f) s (repliesB · 0x22)) = true := by decide +kernel
theorem wit_FrameWritesHandler :
    (let f := frame 4 0 (obj 8) 0 (leBytes 8 0x200)
     let s := { world with objs := [(7, { size := 16, owner := 1, kind := .file 0 3 })] }
     hostB f 4 && (s.makeOf 1 f).isNone && (match s.frameSpan 1 f rWrite with | .ok k => !(s.obj (locId k.loc)).kind.isMem | .error _ => false)
       && goesB (.frameWrite f) s fun u => repliesB u 0 && (u.ctx 3).handler == 0x200) = true := by decide +kernel
theorem wit_FrameMake :
    (let f := frame 4 0 (BitVec.ofNat 64 (2 * 2 ^ 42)) 0 (nameOf ['x'])
     hostB f 4 && world.makeOf 1 f == some 4 && bit (world.desc 1 2).rights rWrite
       && goesB (.frameMake f) world fun u => u.replies.map (·.status) == [0] && (u.node 4).kids.map (·.1) == [nameOf ['x']]) = true := by decide +kernel
theorem wit_ContextCreate :
    (let f := frame 2 0x40 (world.token 1 6) 0 []
     !frameBad f && world.isCreate f && world.idFree 2 && world.tenantDir == some 6) = true := by decide +kernel
theorem wit_ContextEnd :
    (let f := frame 5 1 (BitVec.ofNat 64 (3 * 2 ^ 42)) 0 []
     let at_ (n : Nat) : State := world.modCtx 3 fun k => { k with ending := n }
     !frameBad f && world.ends f == some 3 && goesB (.contextEnd f) world (fun u => (u.ctx 3).ending == 1)
       && (at_ 1).stands 3 && goesB (.contextEnd f) (at_ 1) (fun u => (u.ctx 3).ending == 2)
       && (at_ 2).ends f == some 3 && goesB (.contextEnd f) (at_ 2) (fun u => !(u.ctx 3).alive && (u.ctx 3).ending == 3)
       && (at_ 3).ends f == some 3 && goesB (.contextEnd f) (at_ 3) fun u => (u.ctx 3).ending == 4 && u.replies.map (·.status) == [0]) = true := by decide +kernel

/-- A plot-map acknowledgement that waits for the NSE. -/
def acking (v : Word) : State :=
  let e : Eff := { op := 0xF9, va := v, core := 0, thr := 0, ctx := 2, seq := 1 }
  { cores [(0, { th := [(0, { run [] with phase := .step5, seq := 1, s5 := [{ e with st := 1 }] })] })] with
    hub := [{ e := e, seq := 1, ctx := 2 }], pmVer := 4 }
/-- A shoot-down of handle 1 of context 2. -/
def shooting (toReach toAck : List Nat) : State :=
  { cores [] with
    ctxs := [(2, { alive := true, hnd := [(1, { oid := 7, st := .revoking })] })]
    shoots := [{ ctx := 2, hnd := 1, toReach := toReach, toAck := toAck, entry := false }] }

theorem wit_NseAnswers :
    goesB (.nseAnswer 0) (acking 3) (fun u => u.hub.isEmpty && (u.ctx 2).pmver == 3) = true
      ∧ goesB (.nseAnswer 0) (acking 5) (fun u => u.hub.isEmpty && (u.ctx 2).pmver == 0 && (u.thr 0 0).s5.any fun e => e.st == 3 && e.ans == 5 && e.vb == 0xA500) = true := by
  decide
theorem wit_EntryDropped :
    (let s := { shooting [] [] with shoots := [{ ctx := 4096, hnd := 1, toReach := [3], toAck := [3], entry := true, loc := locObj (oidTree + 7) 0 }]
                                    stale := [{ loc := locObj (oidTree + 7) 0, left := [3, 4] }] }
     goesB (.shootdownReceipt 0 3) s fun u => u.stale.map (·.left) == [[4]] && u.shoots.map (·.toReach) == [[]]) = true := by decide +kernel
theorem wit_Shootdown :
    (goesB (.shootdownReceipt 0 3) (shooting [3, 4] [3, 4]) (fun u => u.shoots.map (·.toReach) == [[4]])
      && !(shooting [] [3, 4]).passed 2 1 3 && goesB (.shootdownAck 0 3) (shooting [] [3, 4]) (fun u => u.shoots.map (·.toAck) == [[4]])
      && goesB (.shootdownAck 0 3) (shooting [] [3]) fun u => u.shoots.isEmpty && decide ((u.desc 2 1).st = .revoked)) = true := by decide

/-! Queues and launches -/

/-- The CRC of R354 on the digits 1 to 9: the check value of the CRC with this polynomial, start and order. -/
theorem test_crc16 : crc16 (nameOf ['1', '2', '3', '4', '5', '6', '7', '8', '9']) = 0x29B1 := by decide +kernel

/-- A packet of a type: its fields from byte 8 on, and its CHECK. -/
def pkt (t : Nat) (body : List Byte) : List Byte :=
  let h := [BitVec.ofNat 8 t, 0#8, 1#8, 0#8, 0#8]
  let b := body ++ List.replicate (56 - body.length) 0#8
  h ++ leBytes 2 (crc16 (h ++ [0#8, 0#8, 0#8] ++ b)) ++ [0#8] ++ b

/-- Queue 0 of context 2 with some packets; its ring, its control block, and the object. -/
def que (k : Queue) (mem : List Host.Cell := []) : State :=
  { idle with
    objs := [(7, { size := 65536, owner := 2, ext := [(0, {})] }), (20, { kind := .ring 8192, size := 1024, ext := [(0, {})] }), (21, { kind := .ctl 8192, size := 64 }),
             (22, { kind := .err 8192, size := 64 })]
    queues := [(8192, { k with ctx := 2, ring := 20, ctl := 21, err := 22, alive := true })]
    mem := mem }
/-- The bytes of a list as cells. -/
def cellsAt (l : Nat) (b : List Byte) : List Host.Cell := (b.zipIdx.filter (·.1 != 0#8)).map fun p => (l + p.2, p.1)

theorem wit_QueueGo :
    (let s := que { state := 2 } (cellsAt (locObj 21 0x20) [4#8])
     (s.poke (locObj 21 0x18) (leBytes 8 0)).ctlWord 8192 8 == 0 && ((s.poke (locObj 21 0x18) (leBytes 8 0)).queueConfig 8192).isSome
       && goesB (.queueGo 8192 0) s fun u => (u.queue 8192).state == 0 && (u.queue 8192).c == 0) = true := by decide +kernel
theorem wit_QueueCtl :
    goesB (.queueCtlWrite 8192 0x28 9 false) (que {}) (fun u => u.ctlWord 8192 0x28 == 9) = true
      ∧ goesB (.queueCtlWrite 8192 8 9 true) (que {}) (fun u => u.replies.map (·.status) == [0x12]) = true := by decide +kernel
theorem wit_HeaderRead :
    (let s := que { state := 0 } (cellsAt (locObj 20 0) (pkt 9 []))
     let ls := locs (s.unitLoc 8192 0) 8
     !s.goneLoc (s.unitLoc 8192 0) && ls.all (fun l => (s.oom.writes l).isEmpty && !s.zLoc l) && hdrValid (wordAt (ls.map s.base) 0) 0
       && goesB (.queueHeaderRead 8192) s fun u => (u.queue 8192).valid && (u.queue 8192).hdr == wordAt (pkt 9 []) 0) = true := by decide +kernel
/-- A queue with a NOP packet in its ring, its header fetched; its CHECK may be wrong. -/
def nopInRing (wrong : Bool) : State :=
  let b := if wrong then (pkt 9 []).set 5 0xFF#8 else pkt 9 []
  que { state := 0, valid := true, hdr := wordAt (pkt 9 []) 0 } (cellsAt (locObj 20 0) b)
/-- The first unit of the ring is read, with a CHECK that stands or not. -/
def ringB (s : State) (stands : Bool) : Bool := match s.ringBytes 8192 0 1 with | .ok _ b => checkOk b == stands | _ => false
/-- The packet of the first unit is parsed. -/
def parsesB (s : State) : Bool :=
  match s.ringBytes 8192 0 1 with
  | .ok s1 b => (match s1.parseAll 8192 b 0 { idx := 0, tag := 1, bytes := [] } with | .ok _ _ => true | _ => false)
  | _ => false
theorem wit_PacketParse :
    ringB (nopInRing false) true = true ∧ parsesB (nopInRing false) = true
      ∧ goesB (.packetParse 8192) (nopInRing false) (fun u => (u.queue 8192).pkts.map (·.tag) == [1] && (u.queue 8192).c == 1) = true :=
  ⟨by decide +kernel, by decide +kernel, by decide +kernel⟩
theorem wit_PacketBadCheck :
    ringB (nopInRing true) false = true
      ∧ goesB (.packetParse 8192) (nopInRing true) (fun u => (u.queue 8192).state == 1 && (u.queue 8192).irq && (u.queue 8192).c == 0) = true :=
  ⟨by decide +kernel, by decide +kernel⟩

/-- A launch header of one thread, with its counter in the object. -/
def oneThread : List Byte :=
  leBytes 8 (2 ^ 42) ++ leBytes 8 (2 ^ 36 + 1) ++ leBytes 2 1 ++ List.replicate 10 0#8 ++ leBytes 2 1 ++ [1#8, 1#8, 4#8] ++ List.replicate 23 0#8
    ++ leBytes 8 (2 ^ 42 + 64)
/-- A packet that the queue has parsed. -/
def parsed (t : Nat) (body : List Byte) (started : Bool := true) (prog : Nat := 0) : Pkt := { idx := 0, tag := 1, bytes := pkt t body, started := started, prog := prog }
/-- A queue that holds one packet. -/
def holding (p : Pkt) (mem : List Host.Cell := []) : State := que { pkts := [p], state := 0 } mem

theorem wit_PktLaunch :
    (let p := { parsed 1 [] false with body := oneThread }
     let s := holding p
     ((s.queue 8192).next 1 (s.queue 8192).mayStart).isSome
       && (match (s.startPkt 8192 p).submit 2 (s.queueTag 8192) 8192 oneThread 0 0 false with | (_, n, l) => n == 0 && l == 1)
       && goesB (.pktLaunch 8192) s (fun u => (u.launch 1).waiting && decide ((u.launch 1).pkt = some (8192, 1)))
       && ((holding { parsed 2 [] false with body := oneThread }).queue 8192 |>.next 2 ((s).mayStart 8192)).isSome
       && goesB (.pktGlaunch 8192) (holding { parsed 2 [] false with body := oneThread }) fun u => (u.launch 1).waiting) = true := by decide +kernel
theorem wit_PktLaunchEnds :
    (let s := { holding { parsed 1 [] with lids := [5] } with launches := [(5, { hdr := oneThread, ended := true })] }
     ((s.queue 8192).next 1 (s.queue 8192).mayStart).isNone && goesB (.pktLaunch 8192) s fun u => (u.queue 8192).pkts.isEmpty) = true := by decide +kernel
theorem wit_PktWait :
    (let s := holding (parsed 3 (leBytes 8 (2 ^ 42 + 64) ++ leBytes 8 2)) (cellsAt (locObj 7 64) [2#8])
     (match s.reach 0 2 (2 ^ 42 + 64) 8 with | .at_ l => l == locObj 7 64 | _ => false)
       && goesB (.pktWait 8192) s fun u => (u.queue 8192).pkts.isEmpty) = true := by decide +kernel
theorem wit_PktSignal :
    (let s := holding (parsed 4 (leBytes 8 (2 ^ 42 + 64)))
     goesB (.pktSignal 8192) s (fun u => u.owed.map (·.ctr) == [2 ^ 42 + 64] && (u.queue 8192).pkts.map (·.prog) == [1])
       && goesB (.pktSignal 8192) (holding (parsed 4 (leBytes 8 (2 ^ 42 + 64)) true 1)) fun u => (u.queue 8192).pkts.isEmpty) = true := by decide +kernel
theorem wit_PktStarts :
    (goesB (.pktSignal 8192) (holding (parsed 4 (leBytes 8 (2 ^ 42 + 64)) false)) (fun u => (u.queue 8192).pkts.map (·.started) == [true])
      && goesB (.pktCopy 8192) (holding (parsed 5 (leBytes 8 (2 ^ 42 + 64) ++ leBytes 8 (2 ^ 42) ++ leBytes 8 4) false))
        fun u => (u.queue 8192).pkts.map (·.started) == [true]) = true := by decide +kernel
theorem wit_PktCopy :
    (let s := holding (parsed 5 (leBytes 8 (2 ^ 42 + 64) ++ leBytes 8 (2 ^ 42) ++ leBytes 8 4)) (cellsAt (locObj 7 1) [9#8])
     (match s.chkRange 0 2 (2 ^ 42) (0 : Nat) 4 false with | .ok rd => (s.readAll (agQueue 8192) rd).isSome | _ => false)
       && (match s.chkRange 0 2 (2 ^ 42 + 64) (0 : Nat) 4 true with | .ok _ => true | _ => false)
       && goesB (.pktCopy 8192) s fun u => (u.oom.writes (locObj 7 65)).map (·.val) == [9#8] && (u.queue 8192).pkts.isEmpty) = true := by decide +kernel
theorem wit_PktIb :
    (goesB (.pktIb 8192) (holding (parsed 6 (leBytes 8 (2 ^ 42) ++ leBytes 8 64) false)) (fun u => (u.queue 8192).pkts.map (·.started) == [true])
      && goesB (.pktIb 8192) (holding (parsed 6 (leBytes 8 (2 ^ 42) ++ leBytes 8 64) true 64)) fun u => (u.queue 8192).pkts.isEmpty) = true := by decide +kernel
theorem wit_PktReplay :
    (let b := leBytes 8 (2 ^ 42) ++ leBytes 16 0 ++ leBytes 8 (2 ^ 42 + 64)
     goesB (.pktReplay 8192) (holding { parsed 7 b false with slots := 1 }) (fun u => (u.queue 8192).pkts.map (·.started) == [true])
      && goesB (.pktReplay 8192) (holding { parsed 7 b with slots := 1 }) fun u => (u.queue 8192).pkts.isEmpty && u.owed.map (·.ctr) == [2 ^ 42 + 64]) = true := by
  decide +kernel
theorem wit_PktBind :
    (let s := { world with queues := [(8192, { pkts := [parsed 8 (word8 (world.token 1 4) ++ word8 (world.token 1 7)) false], ctx := 1, alive := true })] }
     goesB (.pktBind 8192) s fun u => (u.queue 8192).pkts.isEmpty && u.binds.length == 1) = true := by decide +kernel
theorem wit_PktNop :
    goesB (.pktNop 8192) (holding (parsed 9 [] false)) (fun u => (u.queue 8192).pkts.isEmpty && u.journal.map (·.done) == [false, true]) = true := by decide +kernel
theorem wit_Granule :
    (let s := holding (parsed 6 (leBytes 8 (2 ^ 42 + 64) ++ leBytes 8 64)) (cellsAt (locObj 7 65) [9#8])
     ((s.queue 8192).buffer).isSome && (match s.checkHandle 2 (2 ^ 42 + 64) 64 1 rRead with | .ok w => w.np.isNone | .error _ => false)
       && goesB (.ibGranuleFetch 8192) s fun u => (SMap.get [] 0 (u.queue 8192).granules).getD 65 0#8 == 9) = true := by decide +kernel
theorem wit_ParserFault : goesB (.parserCoreFault 8192) (que { state := 0, valid := true }) (fun u => !(u.queue 8192).valid && u.parserFaults == 1) = true := by
  decide +kernel
theorem wit_PlacerPass :
    (let s := { idle with
                  parts := [(3, { alive := true, ctx := 2 })]
                  launches := [(5, { hdr := oneThread, ctx := 2, tag := 3, queue := 8192, waiting := true })] }
     (s.part 3).running && (State.placePromised 3 s.passFuel (s.queuesOf 3 true) s).queuesOf 3 false == [8192]
       && goesB (.placerPass 3) s fun u => (u.part 3).cls0 == 8193) = true := by decide +kernel
theorem wit_LaunchEnd :
    (let s := { cores [(0, { lid := 5, tpc := 1 })] with launches := [(5, { hdr := oneThread, ctx := 2, placed := 1, cores := [0] })] }
     hdrGangs oneThread == 1 && s.released 5 0 && !s.runsAnywhere 5
       && goesB (.launchEnd 5) s fun u => (u.launch 5).ended && (u.core 0).lid == 0 && u.owed.map (·.ctr) == [2 ^ 42 + 64]) = true := by decide +kernel

/-! Partitions and firmware -/

/-- A request of the host to the supervisor. -/
def req (op tag : Nat) (cores : Word := 0) : SupReq :=
  { unit := [BitVec.ofNat 8 op, 0#8, BitVec.ofNat 8 tag, if op = 1 then 1#8 else 0#8] ++ leBytes 2 1 ++ [1#8, 2#8] ++ word8 cores ++ List.replicate 48 0#8 }
/-- The small machine with a partition that maps core 0. -/
def parted (p : Part_) (k : Core := { ptag := 3, th := [(0, run [])] }) : State :=
  { cores [(0, k)] with parts := [(3, { p with alive := true, ctx := 2, map := [(0, 1)], names := [0] })] }
/-- An image with a signature block over nothing else, of security version 1. -/
def image : List Byte := leBytes 8 0 ++ leBytes 8 1 ++ List.replicate 3376 0#8

theorem wit_SetPartition :
    (let r := req 1 5 (2 ^ 42)
     let s := { idle with
       ctxs := [(1, { alive := true, hnd := [(1, { oid := 7, size := 65536, st := .valid, rights := 1 })] })], objs := [(7, { size := 65536, ext := [(0, {})] })]
       mem := cellsAt (locObj 7 0) [3#8] }
     !supBad r && s.hostCtx r.ctx && (match s.readBitmap r.cores with
         | .names s0 names => names == [0, 1] && !(s0.part 5).alive && (mapNames (s0.usableFor r.tag { slice := r.slice, vats := r.vats, trees := r.trees }) names).isSome
         | _ => false)
       && goesB (.setPartition r) s fun u => (u.part 5).alive && (u.part 5).running && (u.part 5).ctx == 1 && (u.part 5).vats == 1
          && (u.part 5).names == [0, 1] && u.supRing.map (fun l => l.take 3) == [[1#8, 0#8, 5#8]]) = true := by decide +kernel
theorem wit_RemovePartition :
    (let r := req 2 3
     !supBad r && ((parted { slice := 200 }).part 3).alive) = true
      ∧ goesB (.removePartition (req 2 3)) (parted { slice := 200 }) (fun u => decide ((u.part 3).pending = some (req 2 3)) && u.supRing.map (·.getD 1 9#8) == [0#8]) = true
      ∧ (!(parted {}).busyPart 3 && goesB (.removePartition (req 2 3)) (parted {}) fun u => !(u.part 3).alive) = true := by decide +kernel
/-- A saved partition of an older version. -/
def savedAs (ver : Nat) : State :=
  { idle with
    parts := [(3, { alive := true, ctx := 2, running := false, saved := true, map := [(0, 1)], names := [0] })]
    saves := [(3, { ctx := 2, ver := ver, pool := true, cores := [{ name := 0, phys := 0, body := { th := [(0, run [])] } }] })] }
theorem wit_ActivateFirmware :
    (let img := List.replicate 3 image
     !supBad (req 3 3) && (([1, 2, 4].zip img).all fun p => idle.imageOk p.1 p.2) && (idle.unsupported [4, 5]).isEmpty
       && goesB (.activateFirmware (req 3 3) [4, 5] img) idle (fun u => u.restorable == [4, 5] && u.supRing.map (·.getD 1 9#8) == [0#8])
       && goesB (.activateFirmware (req 3 3) [4, 5] [[], image, image]) idle (fun u => u.restorable == [3, 4] && u.supRing.map (·.getD 1 9#8) == [0x80#8])
       && goesB (.activateFirmware (req 3 3) [4, 5] img) { savedAs 3 with deferred := some [4, 5] } (fun u => u.restorable == [4, 5] && u.deferred.isNone)
       && !((savedAs 3).unsupported [4, 5]).isEmpty
       && goesB (.activateFirmware (req 3 3) [4, 5] img) (savedAs 3) fun u => u.restorable == [3, 4] && u.deferred == some [4, 5]
          && u.supRing.map (·.getD 1 9#8) == [0x90#8]) = true := by decide +kernel
theorem wit_SliceExpiry :
    (let s := { parted { slice := 100, pending := some (req 2 3) } with dtimeBase := 85000 }
     decide (0 + 100 * 850 ≤ s.dtime) && goesB (.sliceExpiry 3) s fun u => u.stops.map (fun q => (q.core, q.target, q.time)) == [(false, 3, s.dtime + 34000)]) = true := by decide +kernel
/-- A stop of partition 3, at one of its stages. -/
def stopping (q : Stop) : State := { parted {} with stops := [q] }
theorem wit_Announcement :
    goesB (.stopAnnouncement 0) (stopping { core := false, target := 3, time := 0 }) (fun u => u.stops.map (·.announced) == [true]) = true := by decide +kernel
theorem wit_SyncStop :
    (let q : Stop := { core := false, target := 3, time := 0, announced := true }
     (stopping q).stopCores q == [0] && ((stopping q).captureAll [0]).isSome
       && goesB (.syncStop 0) (stopping q) fun u => (u.core 0).stopped && u.stops.map (·.stopped) == [true]) = true := by decide +kernel
theorem wit_FlushToken :
    (let q : Stop := { core := false, target := 3, time := 0, announced := true, stopped := true }
     let m : Msg := { e := { op := 0x60, core := 0, thr := 0, ctx := 2, seq := 1, st := 1 }, dst := 0, thr := 2, reg := 4, val := 9, src := 0, stamp := 3 }
     let s := { stopping q with msgs := [m] }
     s.flushes q 0 m.dst m.stamp && goesB (.flushToken 0 0) s fun u => u.msgs.isEmpty && u.stops.map (fun w => (w.flushed, w.msgs.length)) == [([0], 1)]) = true := by
  decide +kernel
theorem wit_PartitionSave :
    (let q : Stop := { core := false, target := 3, time := 0, announced := true, stopped := true, flushed := [0] }
     let s := stopping q
     s.saveReady q (s.savedPlace [0] [0] 2)
       && goesB (.partitionSave 0 []) s fun u => !(u.part 3).running && (u.part 3).saved && u.stops.isEmpty && decide (u.core 0 = {})) = true := by decide +kernel
theorem wit_PartitionRestore :
    (let s := savedAs 4
     mayRestore (s.usableFor 3 (s.part 3)) [0] [(0, 0)] [(0, 1)] && s.inTurn 3 && s.restorable.contains 4 && s.tilesFree [(0, 1)] (SMap.get {} 3 s.saves)
       && goesB (.partitionRestore 3 [(0, 1)]) s (fun u => (u.core 1).stopped && !(u.part 3).saved && decide (SMap.get {} 3 u.saves = {}))
       && (let s2 := { parted {} {} with saves := [(64, { pool := true, cores := [{ name := 0, phys := 0, body := { ptag := 3 } }] })] }
           mayRestore s2.unmapped [0] [(0, 0)] [(0, 1)] && goesB (.partitionRestore 64 [(0, 1)]) s2 fun u => decide (SMap.get {} 64 u.saves = {}))) = true := by decide +kernel
theorem wit_PartitionResume :
    (goesB (.partitionResume 3) (parted { running := false } { ptag := 3, stopped := true }) (fun u => (u.part 3).running && !(u.core 0).stopped)
      && goesB (.partitionResume 64) (parted {} { ptag := 3, stopped := true }) fun u => !(u.core 0).stopped) = true := by decide +kernel
theorem wit_PmackDeadline :
    (let s := { parted {} with dtimeBase := 900000, ctxs := [(2, { alive := true, owner := 1, due := [(1, 0)] })] }
     decide ((s.ctx 2).due.find? (fun d => decide (d.2 + 850000 ≤ s.dtime)) = some (1, 0)) && s.partsOf 2 == [3]
       && goesB (.pmackDeadlineExpiry 2) s fun u => (u.ctx 2).overdue == 1 && u.stops.map (fun q => (q.core, q.target)) == [(false, 3)]) = true := by decide +kernel

/-! Reliability, boot and the platform -/

theorem wit_Grader :
    (let w := unitCh 0 1
     let four : List (Nat × Nat × Nat) := [(0, 7, 1), (0, 7, 2), (0, 7, 3)]
     let s := { idle with grader := [(1, four)] }
     (gradeOf [(0, 7, 1)] 0 7 1).isNone && goesB (.graderSignature 1 0 7 1) idle (fun u => decide (SMap.get [] 1 u.grader = [(0, 7, 1)]))
       && ((gradeOf (four ++ [(0, 7, 4)]) 0 7 4).map (·.1)) == some 2
       && goesB (.graderSignature 1 0 7 4) s fun u => (SMap.get [] 1 u.grader).isEmpty && (u.unit w).score == 4) = true := by decide +kernel
theorem wit_LeaseStart :
    (let d := 4 * 2 ^ 28 + 2
     let v := unitIn 2 0 1
     idle.leaseOpen d && unitKind d == 4 && goesB (.fallowLeaseStart d) idle (fun u => (u.unit d).state == 2 && u.leases.map (fun l => (l.unit, l.state)) == [(d, 1)])
       && idle.leaseOpen v && unitKind v == 2
       && goesB (.fallowLeaseStart v) idle fun u => (u.clu 0).vatsOff == [1] && (u.unit v).state == 2) = true := by decide +kernel
theorem wit_LeaseEnd :
    (let d := 4 * 2 ^ 28 + 2
     let s := { idle with leases := [{ unit := d, state := 1, start := 0, stop := 0, sig := 0 }], dtimeBase := 4250000 }
     decide (leaseLen d ≤ s.dtime) && goesB (.fallowLeaseEnd d true) s (fun u => (u.unit d).state == 0 && u.leases.map (·.state) == [2, 0])
       && goesB (.fallowLeaseEnd d false) s fun u => (u.unit d).score == 128 && u.leases.map (·.state) == [3, 0]) = true := by decide +kernel
theorem wit_ChannelWait :
    (let s := { idle with reserveGone := List.range 8, units := [(unitCh 0 1, { due := true })], objs := [(7, { size := 65536, ext := [(0, { ch := 1 })] })] }
     s.leaseDue (unitCh 0 1) && (s.clearChannel 0 1).isNone && goesB (.channelLeaseWaitRecord (unitCh 0 1)) s fun u => u.times.map (fun r => (r.reason, r.val)) == [(2, unitCh 0 1)]) = true := by
  decide +kernel
theorem wit_ScoreDecay :
    (let s := { idle with units := [(unitCore 0, { score := 5 })], dtimeBase := 3060000000000 }
     goesB (.scoreDecay (unitCore 0)) s fun u => (u.unit (unitCore 0)).score == 4) = true := by decide +kernel

/-- A copy of a duo task that waits with a log. -/
def voter (v : Word) : Core := { ptag := 3, lid := 5, th := [(0, { run [] with st := 2, duo := true, voteWait := true, log := [(2 ^ 55 + obj 64, v)] })] }
/-- Copies on cores 0 and 16, and a third core, 32. -/
def duo (a b : Word) (c : Core := { ptag := 3 }) (thirds : SMap Nat := []) : State :=
  { cores [(0, voter a), (16, voter b), (32, c)] with
    launches := [(5, { hdr := [1#8], ctx := 2, tag := 3, cores := [0, 16], copies := [(0, 16)], thirds := thirds })]
    parts := [(3, { alive := true, ctx := 2, map := [(0, 1), (16, 17), (32, 33)] })] }
theorem wit_DuoVote :
    (votesEqual ((duo 9 9).thr 0 0) ((duo 9 9).thr 16 0) && (duo 9 9).logMay 0 0 && (duo 9 9).logSettled 0 0 && (duo 9 9).logSettled 16 0 && !((duo 9 9).thr 0 0).atTend
      && goesB (.duoVote 5 0) (duo 9 9) (fun u => (u.oom.writes (locObj 7 64)).map (·.val) == [9#8] && (u.thr 0 0).log.isEmpty && (u.thr 16 0).st == 1)
      && !votesEqual ((duo 9 8).thr 0 0) ((duo 9 8).thr 16 0) && (duo 9 8).thirdCore ((duo 9 8).launch 5) 0 16 == some 32
      && goesB (.duoVote 5 0) (duo 9 8) fun u => SMap.get 0 0 (u.launch 5).thirds == 33 && (u.thr 32 0).st == 1 && (u.thr 32 0).duo) = true := by decide +kernel
theorem wit_DuoThird :
    (let s := duo 9 8 (voter 9) [(0, 33)]
     votesEqual (s.thr 32 0) (s.thr 0 0) && s.logMay 0 0 && s.logSettled 32 0
       && (let p := { s with launches := [(5, { s.launch 5 with passed := [(0, 1)] })] }
           !(p.thr 32 0).atTend && goesB (.duoThirdCopy 5 0) p fun u => (u.thr 32 0).log.isEmpty && (u.thr 32 0).st == 1 && u.oom.ws.isEmpty
             && SMap.get 0 0 (u.launch 5).passed3 == 1)
       && goesB (.duoThirdCopy 5 0) s fun u => (u.thr 0 0).log.isEmpty && (u.thr 16 0).st == 1 && (u.unit (unitCore 16)).score == 32) = true := by decide +kernel
theorem wit_QuoteSign :
    (let s := { idle with quotes := [{ nonce := List.replicate 32 1#8, ptr := obj 4096, cc := obj 64, ctx := 2, core := 0, thr := 0, head := 0 }] }
     (match s.chkRange 0 2 (obj 4096) (0 : Nat) 4096 true with | .ok _ => true | _ => false) && goesB .quoteSign s fun u => u.quotes.isEmpty) = true := by decide +kernel
/-- A package in reset whose flash holds a record with one unit. -/
def boots : State := { State.reset with flash := [{ ctr := 1, ver := 3, units := [(unitCh 0 2, { state := 4 })] }], flashCtr := 1 }
theorem wit_PowerOnBoot :
    (!boots.slotsClosed && boots.bootStage == 0
      && (match bootFrom true imageSlots (List.replicate 12 image) { boots.cold with bootCount := 1 } with | .on _ => true | _ => false)
      && goesB (.powerOnBoot (List.replicate 12 image) true) boots (fun u => u.slotsClosed && u.bootStage == 8)
      && (match bootFrom true imageSlots [image, image] { boots.cold with bootCount := 1 } with | .stop _ n => n == 1 | _ => false)
      && goesB (.powerOnBoot [image, image] true) boots fun u => !u.slotsClosed && u.bootStage == 2) = true := by decide +kernel
theorem wit_ThermalHold :
    goesB .thermalHoldEnter idle (fun u => u.hold && u.times.length == 1) = true ∧ goesB .thermalHoldExit { idle with hold := true } (fun u => !u.hold) = true := by decide
theorem wit_ThermalShutdown :
    goesB .thermalShutdown { idle with launches := [(5, { hdr := [1#8] })] } (fun u => u.cut && !u.off && (u.launch 5).cause == 0xA0 && !(u.launch 5).waiting) = true := by decide
theorem wit_PowerLoss : goesB (.powerLoss true) { boots with flashCtr := 1 } (fun u => u.off && u.flashCtr == 0 && u.flash.length == 1) = true := by decide

end Sys2Proof.Tests
end

section
/-! SUPPORT. Loads and stores at issue: what an access that passes its check leaves due (R139 to R145, R174, R211, R238). -/

namespace Sys2Proof.Machine

open Sys2Proof.Spec

/-! ### The readings of the statements and of the model -/

theorem mbit_eq_bit (o : Opnd) (n : Nat) : mbit o n = bit o.m n := Nat.testBit_eq_decide_div_mod_eq

/-- A field read as two's complement is the signed value of the word of its width. -/
theorem toInt_ofNat_eq_sx (w n : Nat) (hw : 0 < w) : (BitVec.ofNat w n).toInt = sx w n := by
  have h2 : 2 ^ w = 2 * 2 ^ (w - 1) := (mul_pow_sub_one hw.ne' 2).symm
  have hlt : 2 * (n % 2 ^ w) < 2 ^ w ↔ n % 2 ^ w < 2 ^ (w - 1) := by omega
  simp only [BitVec.toInt_eq_toNat_cond, BitVec.toNat_ofNat, hlt, sx]
  push_cast
  rfl

theorem sx_bits (w n lo : Nat) : sx w (bits n lo w) = sx w (n / 2 ^ lo) := by
  simp only [sx, bits, Nat.mod_mod]

@[simp] theorem length_leBytes (n v : Nat) : (leBytes n v).length = n := by
  induction n generalizing v with
  | zero => rfl
  | succ n ih => simp only [leBytes, List.length_cons, ih]

@[simp] theorem length_locs (l n : Nat) : (locs l n).length = n := by simp only [locs, List.length_map, List.length_range]

/-! ### The parts of an access -/

section
variable {s : State} {op : Nat} {fm : Form} {o : Opnd} {a b c : Word} {p : Word} {n al right : Nat} {k : Ok}

theorem present_of_passes (h : Passes s p n al right k) : k.np = none := h.2.1

theorem present_of_passesW (h : PassesW s p n al right k) : k.np = none := present_of_passes h.1

/-- The check of an access that passes, as its instruction finds it (R140, R319). -/
theorem Iss.check_of_passes (h : Passes s p n al right k) : (s.iss op fm o a b c).check p n al right = .ok k := by
  obtain ⟨ht, -, hscb⟩ := h
  simp only [Iss.check, Iss.given, State.iss, ht, hscb, Bool.false_eq_true, if_false]

/-- The check of a store or an atomic that passes (R148, R320). -/
theorem Iss.checkW_of_passesW (h : PassesW s p n al right k) : (s.iss op fm o a b c).checkW p n al right = .ok k := by
  obtain ⟨hp, hws, hz⟩ := h
  simp only [Iss.checkW, check_of_passes hp, bind, Except.bind, pure, Except.pure, present_of_passes hp, Option.isSome_none, hws, hz,
    ne_eq, not_true_eq_false, Bool.false_eq_true, if_false]

/-- A body goes on with what a passing check answers. -/
theorem check_bind {α : Type} (h : Passes s p n al right k) (f : Ok → Try α) :
    ((s.iss op fm o a b c).check p n al right >>= f) = f k := by rw [Iss.check_of_passes h]; rfl

theorem checkW_bind {α : Type} (h : PassesW s p n al right k) (f : Ok → Try α) :
    ((s.iss op fm o a b c).checkW p n al right >>= f) = f k := by rw [Iss.checkW_of_passesW h]; rfl

/-- A register read beside the sources (R39, R40). -/
theorem readG_bind {α : Type} {j : Nat} {v : Word} (h : Holds s j v) (f : Word → Try α) : (s.me.readG j >>= f) = f v := by
  rw [show s.me.readG j = .ok v from h]; rfl

theorem moved_bind {α : Type} {d : Int} {q : Word} (h : fpMove p d = some q) (f : Word → Try α) : (moved p d >>= f) = f q := by
  rw [moved, h]; rfl

/-- The address of a plain access: the base where it is incremented afterwards, else the base moved (R141). -/
theorem addr_bind {α : Type} (h : plainAddr o a n = some p) (f : Word → Try α) :
    (if bit o.m 2 = true then pure a >>= f else (s.iss op fm o a b c).dispAddr n >>= f) = f p := by
  rw [plainAddr, mbit_eq_bit] at h
  split
  · next hb =>
    rw [if_pos hb, Option.some.injEq] at h
    rw [h]; rfl
  · next hb =>
    rw [if_neg hb, toInt_ofNat_eq_sx 10 _ (by decide)] at h
    rw [Iss.dispAddr, sx_bits]
    exact moved_bind h f

/-- What a plain access owes its base: the base `n` bytes on where the modifier asks for a post-increment, else nothing
(R24, R141). -/
def PostInc (o : Opnd) (a : Word) (n : Nat) (due : List LRes) : Prop :=
  if mbit o 2 then ∃ q, fpMove a n = some q ∧ due = valRes o.a q else due = []

/-- The post-increment of a plain access that passes. -/
theorem postInc_bind {α : Type} {due : List LRes} (h : PostInc o a n due) (f : List LRes → Try α) :
    (if bit o.m 2 = true then (s.iss op fm o a b c).bump a n >>= f else pure [] >>= f) = f due := by
  rw [PostInc, mbit_eq_bit] at h
  split
  · next hb =>
    rw [if_pos hb] at h
    obtain ⟨q, hq, rfl⟩ := h
    simp only [Iss.bump, hq]; rfl
  · next hb =>
    rw [if_neg hb] at h
    rw [h]; rfl

/-- What holds with every post-increment holds without one and with the one that is asked for. -/
theorem PostInc.split {R : List LRes → Prop} (h : ∀ due, PostInc o a n due → R due) :
    (mbit o 2 = false → R []) ∧ (mbit o 2 = true → ∀ q, fpMove a n = some q → R (valRes o.a q)) :=
  ⟨fun hb => h _ (by simp only [PostInc, hb, Bool.false_eq_true, if_false]),
    fun hb q hq => h _ (by rw [PostInc, if_pos hb]; exact ⟨q, hq, rfl⟩)⟩

/-! ### From the body of an access to what its instruction leaves -/

variable {i : Instr}

/-- A load whose extent is present: the results of its body are due beside its post-increment. -/
theorem issues_loads (hv : i.view = some (op, fm, o)) (hr : s.Ready op fm o a b c) (hw : singleWrites op fm o = [])
    (hk : k.np = none) {t : Bool} {rs due : List LRes}
    (hb : bodyOf op (s.iss op fm o a b c) = .ok (Iss.loads p k t rs { res := due })) :
    Issues i s op fm o { res := due ++ rs.map fun x => { x with hnd := k.hnd, ptr := p } } := by
  rw [Iss.loads, hk] at hb
  exact exec_does hv hr hb rfl rfl (Out.keepsReads_of_writes hw _) rfl ⟨rfl, rfl, rfl, rfl, rfl, rfl, rfl, rfl, rfl, rfl, rfl⟩

/-- The same for the loads that may increment their base. -/
theorem issues_plainLoads (hv : i.view = some (op, fm, o)) (hr : s.Ready op fm o a b c) (hw : singleWrites op fm o = [])
    (hk : k.np = none) {t : Bool} {rs : List LRes}
    (hb : ∀ due, PostInc o a n due → bodyOf op (s.iss op fm o a b c) = .ok (Iss.loads p k t rs { res := due })) :
    (mbit o 2 = false → Issues i s op fm o { res := rs.map fun x => { x with hnd := k.hnd, ptr := p } })
    ∧ (mbit o 2 = true → ∀ q, fpMove a n = some q →
        Issues i s op fm o { res := valRes o.a q ++ rs.map fun x => { x with hnd := k.hnd, ptr := p } }) :=
  PostInc.split (R := fun due => Issues i s op fm o { res := due ++ rs.map fun x => { x with hnd := k.hnd, ptr := p } })
    fun due hd => issues_loads hv hr hw hk (hb due hd)

/-- A store whose extent is present: its bytes are deferred to the locations from its first one on, and nothing else is,
beside its post-increment. -/
theorem issues_stores (hv : i.view = some (op, fm, o)) (hr : s.Ready op fm o a b c) (hw : singleWrites op fm o = [])
    (hk : k.np = none) {due : List LRes} {bytes : List Byte} {sreg : Nat} {rd : List Nat}
    (hb : bodyOf op (s.iss op fm o a b c) = .ok (Iss.stores p k
      { op := op, locs := locs k.loc bytes.length, data := bytes, sreg := sreg } { res := due, rd := rd })) :
    Issues i s op fm o { defers { dueStore op k p bytes with sreg := sreg } with res := due } := by
  rw [Iss.stores, hk] at hb
  refine exec_does hv hr hb rfl rfl (Out.keepsReads_of_writes hw _) rfl ⟨rfl, rfl, rfl, ?_, rfl, rfl, rfl, rfl, rfl, rfl, rfl⟩
  simp only [List.nil_append, length_locs]
  rfl

/-- The same for the stores that may increment their base. -/
theorem issues_plainStores (hv : i.view = some (op, fm, o)) (hr : s.Ready op fm o a b c) (hw : singleWrites op fm o = [])
    (hk : k.np = none) {bytes : List Byte} {rd : List Nat}
    (hb : ∀ due, PostInc o a n due → bodyOf op (s.iss op fm o a b c) = .ok (Iss.stores p k
      { op := op, locs := locs k.loc bytes.length, data := bytes } { res := due, rd := rd })) :
    (mbit o 2 = false → Issues i s op fm o (defers (dueStore op k p bytes)))
    ∧ (mbit o 2 = true → ∀ q, fpMove a n = some q →
        Issues i s op fm o { defers (dueStore op k p bytes) with res := valRes o.a q }) :=
  PostInc.split (R := fun due => Issues i s op fm o { defers (dueStore op k p bytes) with res := due })
    fun due hd => issues_stores hv hr hw hk (hb due hd)

end

/-! ### The bodies of the loads -/

section
variable {s : State} {op : Nat} {fm : Form} {o : Opnd} {a b c : Word} {p : Word} {k : Ok} {due : List LRes}

/-- LD and LDS (R141). -/
theorem load_body (signed : Bool) (hp : plainAddr o a (accessSize o) = some p)
    (hk : Passes s p (accessSize o) (accessSize o) rRead k) (hd : PostInc o a (accessSize o) due) :
    load signed (s.iss op fm o a b c) = .ok (Iss.loads p k (o.d == 0)
      [{ pos := 0, dest := gDest o.d, val := .load (if signed then .sign else .zero) none k.side
         parts := [{ loc := k.loc, size := accessSize o }] }] { res := due }) :=
  (addr_bind hp _).trans <| (check_bind hk _).trans <| postInc_bind hd _

/-- LDA (R143). -/
theorem opLda_body (hk : Passes s a (accessSize o) (accessSize o) rRead k) :
    opLda (s.iss op fm o a b c) = .ok (Iss.loads a k (o.d == 0)
      [{ pos := 0, dest := gDest o.d, val := .load .zero (some (o.m / 8 % 8)) k.side
         parts := [{ loc := k.loc, size := accessSize o }] }] {}) :=
  check_bind hk _

/-- LDP: the two halves (R144). -/
theorem opLdp_body (hp : plainAddr o a 16 = some p) (hk : Passes s p 16 16 rRead k) (hd : PostInc o a 16 due) :
    opLdp (s.iss op fm o a b c) = .ok (Iss.loads p k false
      [{ pos := 0, dest := gDest o.d, val := .load .zero none k.side, parts := [{ loc := k.loc, size := 8 }] },
       { pos := 0, dest := gDest (o.d + 1), val := .load .zero none k.side, parts := [{ loc := k.loc + 8, size := 8 }] }]
      { res := due }) :=
  (addr_bind hp _).trans <| (check_bind hk _).trans <| postInc_bind hd _

/-- LDX: the base moved by the index in units of the access size (R145). -/
theorem opLdx_body (hp : fpMove a (b.toInt * accessSize o) = some p)
    (hk : Passes s p (accessSize o) (accessSize o) rRead k) :
    opLdx (s.iss op fm o a b c) = .ok (Iss.loads p k (o.d == 0)
      [{ pos := 0, dest := gDest o.d, val := .load (if bit o.m 2 then .sign else .zero) none k.side
         parts := [{ loc := k.loc, size := accessSize o }] }] {}) :=
  (moved_bind hp _).trans <| check_bind hk _

/-- CBPH (R175). -/
theorem opCbph_body (hk : Passes s a 16 16 rRead k) :
    opCbph (s.iss op fm o a b c) = .ok (Iss.loads a k false
      [{ pos := 0, dest := gDest o.d, val := .load .cbph none k.side, parts := recParts k.loc 16 }] {}) :=
  check_bind hk _

/-- CCRD (R238). -/
theorem opCcrd_body (hk : Passes s a 8 8 rAtomic k) :
    opCcrd (s.iss op fm o a b c) = .ok (Iss.loads a k (o.d == 0)
      [{ pos := 0, dest := gDest o.d, val := .load .zero none k.side, parts := [{ loc := k.loc, size := 8 }] }] {}) :=
  check_bind hk _

/-- SHLD (R211). -/
theorem opShld_body (hk : Passes s a 64 64 rRead k) :
    opShld (s.iss op fm o a b c) = .ok (Iss.loads a k false
      [{ pos := 0, dest := .sh o.d, val := .load .shape none k.side, parts := recParts k.loc 64 }] {}) :=
  check_bind hk _

/-! ### The bodies of the stores -/

variable {v w : Word}

/-- ST (R141). -/
theorem opSt_body (hv : Holds s o.d v) (hp : plainAddr o a (accessSize o) = some p)
    (hk : PassesW s p (accessSize o) (accessSize o) rWrite k) (hd : PostInc o a (accessSize o) due) :
    opSt (s.iss op fm o a b c) = .ok (Iss.stores p k
      { op := 0x42, locs := locs k.loc (accessSize o), data := leBytes (accessSize o) v.toNat } { res := due, rd := [o.d] }) :=
  (readG_bind hv _).trans <| (addr_bind hp _).trans <| (checkW_bind hk _).trans <| postInc_bind hd _

/-- STL: its scope is kept plus one (R143). -/
theorem opStl_body (hv : Holds s o.d v) (hk : PassesW s a (accessSize o) (accessSize o) rWrite k) :
    opStl (s.iss op fm o a b c) = .ok (Iss.stores a k
      { op := 0x44, locs := locs k.loc (accessSize o), data := leBytes (accessSize o) v.toNat, sreg := o.m / 8 % 8 + 1 }
      { rd := [o.d] }) :=
  (readG_bind hv _).trans <| checkW_bind hk _

/-- STP: with register 0 both halves are zero (R144). -/
theorem opStp_body (hv : Holds s o.d v) (hw : if o.d = 0 then w = 0 else Holds s (o.d + 1) w) (hp : plainAddr o a 16 = some p)
    (hk : PassesW s p 16 16 rWrite k) (hd : PostInc o a 16 due) :
    opStp (s.iss op fm o a b c) = .ok (Iss.stores p k
      { op := 0x48, locs := locs k.loc 16, data := leBytes 8 v.toNat ++ leBytes 8 w.toNat }
      { res := due, rd := if o.d = 0 then [] else [o.d, o.d + 1] }) := by
  have upper {α : Type} (f : Word → Try α) : (if o.d = 0 then pure 0 >>= f else s.me.readG (o.d + 1) >>= f) = f w := by
    split at hw
    · next hz => rw [if_pos hz, hw]; rfl
    · next hz => rw [if_neg hz]; exact readG_bind hw f
  exact (readG_bind hv _).trans <| (upper _).trans <| (addr_bind hp _).trans <| (checkW_bind hk _).trans <| postInc_bind hd _

/-- STX (R145). -/
theorem opStx_body (hv : Holds s o.d v) (hp : fpMove a (b.toInt * accessSize o) = some p)
    (hk : PassesW s p (accessSize o) (accessSize o) rWrite k) :
    opStx (s.iss op fm o a b c) = .ok (Iss.stores p k
      { op := 0x4A, locs := locs k.loc (accessSize o), data := leBytes (accessSize o) v.toNat } { rd := [o.d] }) :=
  (readG_bind hv _).trans <| (moved_bind hp _).trans <| checkW_bind hk _

/-- CBINIT (R174). -/
theorem opCbinit_body (hk : PassesW s a 32 32 rWrite k) :
    opCbinit (s.iss op fm o a b c) = .ok (Iss.stores a k
      { op := 0x7A, locs := locs k.loc 32, data := leBytes 4 b.toNat ++ List.replicate 28 0#8 } {}) :=
  checkW_bind hk _

/-- CCSET (R238). -/
theorem opCcset_body (hk : PassesW s a 8 8 rAtomic k) :
    opCcset (s.iss op fm o a b c) = .ok (Iss.stores a k { op := 0xEE, locs := locs k.loc 8, data := leBytes 8 b.toNat } {}) :=
  checkW_bind hk _

/-- SHST: the shape register as it stands at issue (R211). -/
theorem opShst_body (hk : PassesW s a 64 64 rWrite k) :
    opShst (s.iss op fm o a b c) = .ok (Iss.stores a k
      { op := 0xC1, locs := locs k.loc 64, data := leBytes 64 ((s.opened.core s.curCore).shape o.d).toNat } {}) :=
  checkW_bind hk _

end

/-- Opening the group of the issuing thread leaves the shape registers. -/
theorem State.opened_shape (s : State) (n : Nat) : (s.opened.core s.curCore).shape n = (s.core s.curCore).shape n :=
  (congrArg (fun k : Core => k.shape n) (s.setThr_core_rest s.curCore s.curThr s.me) :)

/-! ### The statements -/

/-- Settles O18: each load's body answers `Iss.loads` at the address the rules give. -/
theorem loadsIssue : Obligations.LoadsIssue := by
  unfold Obligations.LoadsIssue
  intro i s op fm o a b c hv hr n cv
  refine ⟨?_, ?_, ?_, ?_, ?_, ?_, ?_⟩
  · rintro (rfl | rfl) p k hp hk
    · exact issues_plainLoads hv hr rfl (present_of_passes hk) fun _ => load_body false hp hk
    · exact issues_plainLoads hv hr rfl (present_of_passes hk) fun _ => load_body true hp hk
  · rintro rfl k hk
    exact issues_loads hv hr rfl (present_of_passes hk) (opLda_body hk)
  · rintro rfl p k hp hk
    exact issues_plainLoads hv hr rfl (present_of_passes hk) fun _ => opLdp_body hp hk
  · rintro rfl p k hp hk
    have hcv : cv = if bit o.m 2 then .sign else .zero := by simp [cv, mbit_eq_bit]
    rw [hcv]
    exact issues_loads hv hr rfl (present_of_passes hk) (opLdx_body hp hk)
  · rintro rfl k hk
    exact issues_loads hv hr rfl (present_of_passes hk) (opCbph_body hk)
  · rintro rfl k hk
    exact issues_loads hv hr rfl (present_of_passes hk) (opCcrd_body hk)
  · rintro rfl k hk
    exact issues_loads hv hr rfl (present_of_passes hk) (opShld_body hk)

/-- Settles O19: each store's body answers `Iss.stores` with its bytes at the address the rules give. -/
theorem storesIssue : Obligations.StoresIssue := by
  unfold Obligations.StoresIssue
  intro i s op fm o a b c v w hv hr n
  refine ⟨?_, ?_, ?_, ?_, ?_, ?_, ?_⟩
  · rintro rfl hd p k hp hk
    exact issues_plainStores hv hr rfl (present_of_passesW hk) fun _ hi => by
      rw [length_leBytes]; exact opSt_body hd hp hk hi
  · rintro rfl hd k hk
    exact issues_stores hv hr rfl (present_of_passesW hk) (by rw [length_leBytes]; exact opStl_body hd hk)
  · rintro rfl hd hw p k hp hk
    exact issues_plainStores hv hr rfl (present_of_passesW hk) fun _ hi => opStp_body hd hw hp hk hi
  · rintro rfl hd p k hp hk
    exact issues_stores hv hr rfl (present_of_passesW hk) (by rw [length_leBytes]; exact opStx_body hd hp hk)
  · rintro rfl k hk
    exact issues_stores hv hr rfl (present_of_passesW hk) (opCbinit_body hk)
  · rintro rfl k hk
    exact issues_stores hv hr rfl (present_of_passesW hk) (opCcset_body hk)
  · rintro rfl k hk
    rw [← State.opened_shape]
    exact issues_stores hv hr rfl (present_of_passesW hk) (opShst_body hk)

end Sys2Proof.Machine
end

section
/-! SUPPORT. Vector operations at issue: the one body of rows 9 to B where its checks pass (R186 to R200). -/

namespace Sys2Proof.Machine

open Sys2Proof.Spec

/-- A body goes on with the value of a part that passes. -/
theorem try_bind {α β : Type} {x : Try α} {v : α} (h : x = .ok v) (f : α → Try β) : (x >>= f) = f v := by rw [h]; rfl

/-- Opening the group of the issuing thread leaves the rounding mode. -/
theorem State.opened_frm (s : State) : (s.opened.core s.curCore).frm = (s.core s.curCore).frm :=
  (congrArg (fun k : Core => k.frm) (s.setThr_core_rest s.curCore s.curThr s.me) :)

/-- The vector operations that read memory have one body. -/
theorem bodyOf_eq_vec {op : Nat} (h : 0x90 ≤ op ∧ op ≤ 0xBB ∧ op ≠ 0xB0 ∧ op ≠ 0xB1) : bodyOf op = vec := by
  rcases (by omega : (0x90 ≤ op ∧ op ≤ 0xAF) ∨ (0xB2 ≤ op ∧ op ≤ 0xBB)) with ⟨hl, hu⟩ | ⟨hl, hu⟩ <;> interval_cases op <;> rfl

/-- Above WIDF, 0x74, no opcode writes a register at once (R50). -/
theorem singleWrites_of_ge {op : Nat} (h : 0x75 ≤ op) (fm : Form) (o : Opnd) : singleWrites op fm o = [] := by
  unfold singleWrites
  repeat rw [if_neg (by omega)]

/-! ### The operands -/

section
variable {i : Iss} {k : VRole} {w : Nat} {p : Word} {size : Nat} {rd wr : Bool} {ok : Ok}

/-- The span of an operand that passes, 0 for one that has none. -/
theorem spanOk_le (h : SpanOk i k w p size rd wr ok) :
    (if (k.isPtr && k != .base) = true then vecSpan i.op (vecX i.op i.o.m) w p i.vc.toNat size else 0) ≤ 65536 := by
  unfold SpanOk at h
  split at h
  · next hk => rw [if_pos hk]; exact h.1
  · next hk => rw [if_neg hk]; exact Nat.zero_le _

theorem present_of_spanOk (h : SpanOk i k w p size rd wr ok) : ok.np = none := by
  unfold SpanOk at h
  split at h
  · exact h.2.2
  · rw [h]

/-- The check of an operand that passes (R187). -/
theorem check_of_spanOk (h : SpanOk i k w p size rd wr ok) :
    (if (k.isPtr && k != .base) = true then
        i.span p (if (k.isPtr && k != .base) = true then vecSpan i.op (vecX i.op i.o.m) w p i.vc.toNat size else 0) size rd wr
      else pure { loc := 0 }) = .ok ok := by
  unfold SpanOk at h
  split at h
  · next hk => rw [if_pos hk, if_pos hk, h.2.1]
  · next hk => rw [if_neg hk, h]; rfl

/-- The post-increment of an operand that passes (R186). -/
theorem bump_of_bumpOk {on : Bool} {reg : Nat} {due : List LRes} (h : BumpOk i on reg w p size due) :
    (if on = true then
        match fpMove p (vecNext i.op (vecX i.op i.o.m) w p i.vc.toNat size) with
        | none => trap 0x17 0 p
        | some q => pure (valRes reg q)
      else pure []) = .ok due := by
  unfold BumpOk at h
  split at h
  · next hon =>
    obtain ⟨q, hq, rfl⟩ := h
    rw [if_pos hon, hq]; rfl
  · next hon => rw [if_neg hon, h]; rfl

end

/-- The formats that a vector operation resolves (R188). -/
theorem vecFmts_bind {α : Type} {op m : Nat} {d a b : Word} {t : Nat × Nat × Nat} (h : vecFmts op m d a b = .ok t)
    (f : Nat × Nat × Nat → Try α) :
    (match vecFmts op m d a b with
      | .error (sub, p) => trap 0x15 sub p >>= f
      | .ok t => .ok t >>= f) = f t := by
  rw [h]; rfl

/-- A vector operation that passes its checks: `d` is the value of its D register, `e`, `y` and `z` are its formats, the
`k`s the answers of its operands' checks and the `b`s its post-increments (R186 to R188). -/
structure VecPasses (i : Iss) (d : Word) (e y z : Nat) (kd ka kb : Ok) (bd ba bb : List LRes) : Prop where
  reads : i.x.readG i.o.d = .ok d
  formats : vecFmts i.op i.o.m d i.va i.vb = .ok (e, y, z)
  condition : ¬ (i.op = 0xAD ∧ vecX i.op i.o.m = 4 ∧ fmtIsInt e = true)
  scales : vecBadBlg i.op i.o.m d i.va i.vb e y z = none
  spanD : SpanOk i (vecRow i.op (vecX i.op i.o.m)).d 0 d (fmtSize ((vecRow i.op (vecX i.op i.o.m)).d.fmt e y z))
    (vecRow i.op (vecX i.op i.o.m)).rw true kd
  spanA : SpanOk i (vecRow i.op (vecX i.op i.o.m)).a 1 i.va (fmtSize ((vecRow i.op (vecX i.op i.o.m)).a.fmt e y z)) true false ka
  spanB : SpanOk i (vecRow i.op (vecX i.op i.o.m)).b 2 i.vb (fmtSize ((vecRow i.op (vecX i.op i.o.m)).b.fmt e y z)) true false kb
  bumpD : BumpOk i (vecPI i.op i.o.m).1 i.o.d 0 d (fmtSize ((vecRow i.op (vecX i.op i.o.m)).d.fmt e y z)) bd
  bumpA : BumpOk i (vecPI i.op i.o.m).2.1 i.o.a 1 i.va (fmtSize ((vecRow i.op (vecX i.op i.o.m)).a.fmt e y z)) ba
  bumpB : BumpOk i (vecPI i.op i.o.m).2.2 i.o.b 2 i.vb (fmtSize ((vecRow i.op (vecX i.op i.o.m)).b.fmt e y z)) bb

/-- The effect that a vector operation defers. -/
def vecEff (i : Iss) (d : Word) (e y z : Nat) (kd ka kb : Ok) : Eff :=
  { op := i.op, m := i.o.m, rd := i.o.d, vd := d, va := i.va, vb := i.vb, vc := i.vc, locs := [kd.loc, ka.loc, kb.loc]
    hnds := [kd.hnd, ka.hnd, kb.hnd], chk := vecChecks i.op i.o d i.va i.vb i.vc.toNat e y z
    rm := (i.s.core i.c).frm.toNat % 4 }

/-- The body of a vector operation that passes its checks. -/
theorem vec_body {i : Iss} {d : Word} {e y z : Nat} {kd ka kb : Ok} {bd ba bb : List LRes}
    (h : VecPasses i d e y z kd ka kb bd ba bb) :
    vec i = .ok { res := bd ++ ba ++ bb, rd := [i.o.d], defs := [vecEff i d e y z kd ka kb] } := by
  refine (try_bind h.reads _).trans ((vecFmts_bind h.formats _).trans ((if_neg h.condition).trans ?_))
  simp only [h.scales]
  refine (if_neg ?_).trans ((try_bind (check_of_spanOk h.spanD) _).trans ((try_bind (check_of_spanOk h.spanA) _).trans
    ((try_bind (check_of_spanOk h.spanB) _).trans ((try_bind (bump_of_bumpOk h.bumpD) _).trans
    ((try_bind (bump_of_bumpOk h.bumpA) _).trans ((try_bind (bump_of_bumpOk h.bumpB) _).trans ?_))))))
  · simp only [gt_iff_lt, not_or, not_lt]
    exact ⟨spanOk_le h.spanD, spanOk_le h.spanA, spanOk_le h.spanB⟩
  · simp only [List.find?, present_of_spanOk h.spanD, present_of_spanOk h.spanA, present_of_spanOk h.spanB, Option.isSome_none]
    rw [vecEff, vecChecks]
    congr 4
    refine List.filterMap_congr fun x _ => ?_
    split
    · next hx => exact (if_pos hx).symm
    · next hx => exact (if_neg hx).symm

/-- Settles O33: rows 9 to B have one body, which defers one operation once its checks have passed. -/
theorem vectorOpsIssue : Obligations.VectorOpsIssue := by
  unfold Obligations.VectorOpsIssue
  intro i s op fm o a b c d e y z kd ka kb bd ba bb hv hr hop hd r j size hf hc hb sd sa sb pd pa pb
  have hbody : bodyOf op j = _ := (congrFun (bodyOf_eq_vec hop) j).trans
    (vec_body (i := j) ⟨hd, hf, hc, hb, sd, sa, sb, pd, pa, pb⟩)
  refine exec_does hv hr hbody rfl rfl (Out.keepsReads_of_writes (singleWrites_of_ge (by omega) fm o) _) rfl
    ⟨rfl, rfl, rfl, ?_, rfl, rfl, rfl, rfl, rfl, rfl, rfl⟩
  rw [← State.opened_frm]; rfl

end Sys2Proof.Machine
end

section
/-! SUPPORT. The checks of R61 that come before an instruction's own, as the gate decides them. -/

namespace Sys2Proof.Machine

open Sys2Proof.Spec

/-! ### The gate of the issuing thread -/

@[simp] theorem State.opened_thr (s : State) : s.opened.thr s.curCore s.curThr = s.me := by simp [State.opened]

/-- The checks 3 and 5 to 7 of R61, as the issuing thread meets them. -/
theorem State.opened_gate (s : State) (op : Nat) (fm : Form) (o : Opnd) :
    s.opened.gate s.curCore s.curThr op fm o =
      if badGuard o then .trap 0x07 0 (lineOff s.me.pc)
      else if !s.me.guard o.pg then .skip
      else if badForm op fm o then .trap 0x07 0 (formInfo op o s.me.pc)
      else (s.opened.barred s.curCore s.curThr op o).elim .go fun sub => .trap 0x06 sub (lineOff s.me.pc) := by
  simp only [State.gate, State.opened_thr]
  cases s.opened.barred s.curCore s.curThr op o <;> rfl

/-- The domain of the issuing thread's context. -/
theorem State.opened_domOf (s : State) : s.opened.domOf s.curCore s.curThr = (s.ctx s.me.ctx).dom := by
  simp only [State.domOf, State.ctxOf, State.opened_thr]; rfl

/-- Opening the group of the issuing thread leaves its core's partition. -/
theorem State.opened_ptag (s : State) : (s.opened.core s.curCore).ptag = (s.core s.curCore).ptag :=
  (congrArg (fun k : Core => k.ptag) (s.setThr_core_rest s.curCore s.curThr s.me) :)

/-- The g3 of a bad form, in the fields of BFX and BFI (R128). -/
theorem formInfo_eq (op : Nat) (o : Opnd) (pc : Word) :
    formInfo op o pc = if (op = 0x2E ∨ op = 0x2F) ∧ 64 < o.m % 64 + (o.m / 64 % 64 + 1) then 0 else lineOff pc := by
  simp [formInfo, bits, Nat.add_assoc]

/-! ### Bad forms -/

theorem badForm_of_badValue {op : Nat} {fm : Form} {o : Opnd} (h : badValue op fm o = true) : badForm op fm o = true := by
  unfold badForm
  split
  · rfl
  · rw [h, Bool.or_true]

/-- A modifier bit outside the mask of its entry. -/
theorem badForm_of_testBit {op : Nat} {fm : Form} {o : Opnd} {k : OpInfo} {n : Nat} (hk : opInfo op fm = some k)
    (hm : k.mm.testBit n = false) (ho : o.m.testBit n = true) : badForm op fm o = true := by
  have hne : (o.m &&& k.mm) ≠ o.m := fun h => by
    have hb := congrArg (Nat.testBit · n) h
    simp [Nat.testBit_and, hm, ho] at hb
  simp [badForm, hk, hne]

/-- A field of BFX or BFI that leaves bit 63 (R128). -/
theorem badForm_of_field {op : Nat} {o : Opnd} (fm : Form) (hop : op = 0x2E ∨ op = 0x2F)
    (h : o.m % 64 + (o.m / 64 % 64 + 1) > 64) : badForm op fm o = true := by
  have hb : decide (bits o.m 0 6 + bits o.m 6 6 + 1 > 64) = true := by simpa [bits, Nat.add_assoc] using h
  rcases hop with rfl | rfl <;> exact badForm_of_badValue hb

/-- BFI has no sign bit (R128). -/
theorem badForm_bfi {o : Opnd} (fm : Form) (h : mbit o 12 = true) : badForm 0x2F fm o = true := by
  cases fm
  case t4 => exact badForm_of_testBit (k := ⟨0x2F, .t4, .g, .g, .g, .no, 0xFFF, 0x0⟩) rfl rfl h
  all_goals rfl

/-! ### Privilege -/

section
variable {i : Instr} {s : State} {op : Nat} {fm : Form} {o : Opnd}

/-- An instruction that the gate refuses. -/
theorem exec_gate_trap {cause sub : Nat} {info : Word} (hv : i.view = some (op, fm, o))
    (h : s.opened.gate s.curCore s.curThr op fm o = .trap cause sub info) : Trapped i s cause sub info := by
  obtain ⟨t, h1, h2⟩ := issue_gate h
  exact ⟨t, (exec_issue hv s).trans h1, h2⟩

/-- An instruction of good form that its thread may not issue. -/
theorem exec_barred {sub : Nat} (hv : i.view = some (op, fm, o)) (hg : badGuard o = false) (ht : s.me.guard o.pg = true)
    (hf : badForm op fm o = false) (h : s.opened.barred s.curCore s.curThr op o = some sub) :
    Trapped i s 0x06 sub (lineOff s.me.pc) :=
  exec_gate_trap hv (by simp [State.opened_gate, hg, ht, hf, h])

end

/-- Settles O41: the gate decides each check, in the order of R61. -/
theorem checksBeforeIssue : Obligations.ChecksBeforeIssue := by
  unfold Obligations.ChecksBeforeIssue
  intro i s op fm o hv
  refine ⟨fun hg => exec_gate_trap hv (by simp [State.opened_gate, hg]), fun hg ht => ?_, fun hg ht => ⟨fun hf => ?_, ?_, fun hf => ?_⟩⟩
  · have hs : s.opened.gate s.curCore s.curThr op fm o = .skip := by simp [State.opened_gate, hg, ht]
    refine ⟨_, (exec_issue hv s).trans (issue_skip hs), State.OnlyThread.of_opened s _, ?_⟩
    simp only [State.setThr_thr, and_self, if_true]
    exact ⟨Thread.advance_gv _ _ _, Thread.advance_pv _ _ _, Thread.advance_grp _ _ _, Thread.advance_pc _ _ _,
      Thread.advance_phase _ _ _⟩
  · rw [← formInfo_eq]
    exact exec_gate_trap hv (by simp [State.opened_gate, hg, ht, hf])
  · rintro hop (h | ⟨rfl, h⟩)
    · exact badForm_of_field fm hop h
    · exact badForm_bfi fm h
  · have bar {sub : Nat} (h : s.opened.barred s.curCore s.curThr op o = some sub) := exec_barred hv hg ht hf h
    simp only [State.barred, State.opened_domOf, State.opened_ptag] at bar
    refine ⟨?_, ?_, ?_, ?_, ?_, ?_, ?_⟩
    · intro hop hc
      exact bar (by simp [hop, hc])
    · intro hc h1 h2 h3 h4 h5
      exact bar (by rw [if_neg (by omega), if_pos ⟨hc, h1, h2, h3, h4, h5⟩])
    · rintro rfl hd
      exact bar (by simp [hd])
    · rintro hop hd
      exact bar (by rcases hop with rfl | rfl | rfl <;> simp [hd])
    · rintro rfl hm hd
      exact bar (by rw [mbit_eq_bit] at hm; simp [hd, hm])
    · rintro rfl ht
      exact bar (by simp [ht])
    · rintro rfl hd hp
      exact bar (by simp [hd, hp])

end Sys2Proof.Machine
end

section
/-! SUPPORT. Decoder and encoder: every row of the decoder reads back what the encoder writes, and the encoder writes
back what a row reads (R41, R43, R44, R59, R60). -/

namespace Sys2Proof

/-! ### The decoder on an encoded head -/

/-- A head of an opcode with instructions decodes by the row of its opcode and tail length. -/
theorem decode_mkHead {s p : Bool} {tl op d : Nat} (t : Nat) {f : Nat → Nat → Instr} (htl : tl < 4) (hop : op < 256) (hd : d < 16)
    (hff : op ≠ 0xFF) (hr : reservedOp op = false) (hf : decFind (op * 4 + tl) (decRow (op / 16)) = some f) :
    decode (mkHead s p tl op d) t = .ok (f (mkHead s p tl op d) (tailMod tl t)) := by
  simp only [decode, mkHead_op s p htl hop hd, mkHead_tl s p htl hop hd, hff, hr, hf, if_false, Bool.false_eq_true]

/-- A tail that fits its head is all of what the decoder keeps of it. -/
theorem FRaw.tailMod_tail (f : FRaw) (h : f.fits = true) : tailMod f.tl.toNat f.tail.toNat = f.tail.toNat := by
  have ht := f.tl.isLt
  have hx := f.tail.isLt
  unfold fits at h
  revert h
  generalize f.tl.toNat = n at ht
  rcases n with _ | _ | _ | _ | n
  · simpa [tailMod] using Eq.symm
  · simp +contextual [tailMod, Nat.mod_eq_of_lt]
  · simp +contextual [tailMod, Nat.mod_eq_of_lt]
  · simpa [tailMod] using Nat.mod_eq_of_lt hx
  · omega

/-- A head that names no instruction gives its fields back. -/
theorem FRaw.of_mkHead (f : FRaw) : FRaw.of (mkHead f.s f.p f.tl.toNat f.op.toNat f.d.toNat) f.tail.toNat = f := by
  obtain ⟨s, p, tl, op, d, tail⟩ := f
  have ht := tl.isLt; have ho := op.isLt; have hd := d.isLt
  simp only [FRaw.of, mkHead_s s p ht ho hd, mkHead_p s p ht ho hd, FRaw.mk.injEq, true_and]
  exact ⟨ofNat_toNat (mkHead_tl s p ht ho hd), ofNat_toNat (mkHead_op s p ht ho hd), ofNat_toNat (mkHead_d s p ht ho hd),
    ofNat_toNat (Nat.mod_eq_of_lt tail.isLt)⟩

/-- The decoder on the encoding of a head that names no instruction. -/
theorem decode_raw (f : FRaw) (hf : f.fits = true) (h : f.op.toNat = 0xFF ∨ reservedOp f.op.toNat = true) :
    decode (mkHead f.s f.p f.tl.toNat f.op.toNat f.d.toNat) f.tail.toNat =
      .ok (if f.op.toNat = 0xFF then .illegalOpcodeFf f else .reservedOpcode f) := by
  simp only [decode, mkHead_op f.s f.p f.tl.isLt f.op.isLt f.d.isLt, mkHead_tl f.s f.p f.tl.isLt f.op.isLt f.d.isLt,
    f.tailMod_tail hf, f.of_mkHead]
  split
  · rfl
  · next hff => rw [if_pos (h.resolve_left hff)]

/-- Settles O1: each constructor is the value of the decoder's row at its opcode and tail length, and each form gives its
fields back. -/
theorem decodeOfEncode : Obligations.DecodeOfEncode := by
  unfold Obligations.DecodeOfEncode
  intro i e hw he
  cases i
  case reservedOpcode f =>
    cases he
    simp only [Instr.wf, Bool.and_eq_true] at hw
    obtain ⟨hr, hf⟩ := hw
    have hff : f.op.toNat ≠ 0xFF := fun h => absurd hr (by rw [h]; decide)
    rw [decode_raw f hf (.inr hr), if_neg hff]
  case illegalOpcodeFf f =>
    cases he
    simp only [Instr.wf, Bool.and_eq_true, beq_iff_eq] at hw
    obtain ⟨hr, hf⟩ := hw
    have hff : f.op.toNat = 0xFF := congrArg BitVec.toNat hr
    rw [decode_raw f hf (.inl hff), if_pos hff]
  all_goals cases he
  all_goals
    refine (decode_mkHead _ (by decide) (by decide) (BitVec.isLt _) (by decide) rfl rfl).trans (congrArg _ ?_)
    simp only [F0.of_mkHead, F2.of_mkHead, F4.of_mkHead, F4b.of_mkHead, F8.of_mkHead, Nat.reduceLT]

/-! ### The encoder on a decoded head -/

theorem b2n_nb (n k : Nat) : b2n (nb n k) = n / 2 ^ k % 2 := by
  unfold b2n nb
  rcases Nat.mod_two_eq_zero_or_one (n / 2 ^ k) with h | h <;> rw [h] <;> rfl

/-- The key of a head in the decoder's rows: four times its opcode, and its tail length. -/
def rowKey (h : Nat) : Nat := h / 16 % 256 * 4 + h / 4096 % 4

theorem mkHead_fields {h tl op : Nat} (hh : h < 2 ^ 16) (htl : tl < 4) (hk : rowKey h = op * 4 + tl) :
    mkHead (nb h 15) (nb h 14) tl op (BitVec.ofNat 4 h).toNat = h := by
  unfold rowKey at hk
  have hop : h / 16 % 256 = op := by omega
  have htl : h / 4096 % 4 = tl := by omega
  simp only [mkHead, b2n_nb, BitVec.toNat_ofNat]
  omega

theorem F2.tail_of (h : Nat) {t : Nat} (ht : t < 256 ^ 2) : (F2.of h t).tail = t := by
  simp only [F2.tail, F2.of, b2n_nb, BitVec.toNat_ofNat]; omega
theorem F4.tail_of (h : Nat) {t : Nat} (ht : t < 256 ^ 4) : (F4.of h t).tail = t := by
  simp only [F4.tail, F4.of, b2n_nb, BitVec.toNat_ofNat]; omega
theorem F4b.tail_of (h : Nat) {t : Nat} (ht : t < 256 ^ 4) : (F4b.of h t).tail = t := by
  simp only [F4b.tail, F4b.of, BitVec.toNat_ofNat]; omega
theorem F8.tail_of (h : Nat) {t : Nat} (ht : t < 256 ^ 8) : (F8.of h t).tail = t := by
  simp only [F8.tail, F8.of, b2n_nb, BitVec.toNat_ofNat]; omega

/-- A word that the decoder finds at a key: its head has the key, and its tail the length that the head gives it. -/
structure AtKey (k h t : Nat) : Prop where
  head : h < 2 ^ 16
  tail : t < 256 ^ tlBytes h
  key : rowKey h = k

theorem AtKey.tail_lt {op tl h t n : Nat} (w : AtKey (op * 4 + tl) h t) (htl : tl < 4)
    (hn : n = if tl = 0 then 0 else if tl = 1 then 2 else if tl = 2 then 4 else 8) : t < 256 ^ n := by
  have e : h / 4096 % 4 = tl := by have := w.key; unfold rowKey at this; omega
  have hw := w.tail
  rw [tlBytes, e] at hw
  rcases tl with _ | _ | _ | _ | k
  all_goals exact hn ▸ hw

section
variable {op h t : Nat}

theorem AtKey.enc_t0 (w : AtKey (op * 4 + 0) h t) :
    Enc.mk (mkHead (F0.of h t).s (F0.of h t).p 0 op (F0.of h t).d.toNat) 0 = ⟨h, t⟩ :=
  congrArg₂ Enc.mk (mkHead_fields w.head (by decide) w.key) (Nat.lt_one_iff.1 (w.tail_lt (n := 0) (by decide) rfl)).symm
theorem AtKey.enc_t2 (w : AtKey (op * 4 + 1) h t) :
    Enc.mk (mkHead (F2.of h t).s (F2.of h t).p 1 op (F2.of h t).d.toNat) (F2.of h t).tail = ⟨h, t⟩ :=
  congrArg₂ Enc.mk (mkHead_fields w.head (by decide) w.key) (F2.tail_of h (w.tail_lt (by decide) rfl))
theorem AtKey.enc_t4 (w : AtKey (op * 4 + 2) h t) :
    Enc.mk (mkHead (F4.of h t).s (F4.of h t).p 2 op (F4.of h t).d.toNat) (F4.of h t).tail = ⟨h, t⟩ :=
  congrArg₂ Enc.mk (mkHead_fields w.head (by decide) w.key) (F4.tail_of h (w.tail_lt (by decide) rfl))
theorem AtKey.enc_t4b (w : AtKey (op * 4 + 2) h t) :
    Enc.mk (mkHead (F4b.of h t).s (F4b.of h t).p 2 op (F4b.of h t).d.toNat) (F4b.of h t).tail = ⟨h, t⟩ :=
  congrArg₂ Enc.mk (mkHead_fields w.head (by decide) w.key) (F4b.tail_of h (w.tail_lt (by decide) rfl))
theorem AtKey.enc_t8 (w : AtKey (op * 4 + 3) h t) :
    Enc.mk (mkHead (F8.of h t).s (F8.of h t).p 3 op (F8.of h t).d.toNat) (F8.of h t).tail = ⟨h, t⟩ :=
  congrArg₂ Enc.mk (mkHead_fields w.head (by decide) w.key) (F8.tail_of h (w.tail_lt (by decide) rfl))

end

/-- The encoder writes back what a row of the decoder reads. -/
def DecRow.WritesBack (r : DecRow) : Prop := ∀ h t, AtKey r.1 h t → encode (r.2 h t) = some ⟨h, t⟩

theorem decRow_writesBack (n : Nat) : ∀ r ∈ decRow n, DecRow.WritesBack r := by
  unfold decRow
  split
  case h_17 => simp
  all_goals
    simp only [decRow0, decRow1, decRow2, decRow3, decRow4, decRow5, decRow6, decRow7, decRow8, decRow9, decRowA, decRowB,
      decRowC, decRowD, decRowE, decRowF, List.forall_mem_cons, List.not_mem_nil, false_imp_iff, implies_true, and_true]
    repeat' apply And.intro
    all_goals
      refine fun h t w => (congrArg some ?_ : some _ = some _)
      simp only [AtKey.enc_t0, AtKey.enc_t2, AtKey.enc_t4, AtKey.enc_t4b, AtKey.enc_t8, Nat.reduceMul, Nat.reduceAdd, w]

/-- A row that is found stands in its table at its key. -/
theorem mem_of_decFind {k : Nat} {f : Nat → Nat → Instr} : ∀ {l : List DecRow}, decFind k l = some f → (k, f) ∈ l
  | [], h => nomatch h
  | (k', g) :: l, h => by
    rw [decFind] at h
    split at h
    · next hk => subst hk; cases h; exact List.mem_cons_self
    · exact List.mem_cons_of_mem _ (mem_of_decFind h)

theorem encode_raw {h t : Nat} (hh : h < 2 ^ 16) (ht : t < 256 ^ tlBytes h) :
    some (Enc.mk (mkHead (FRaw.of h t).s (FRaw.of h t).p (FRaw.of h t).tl.toNat (FRaw.of h t).op.toNat (FRaw.of h t).d.toNat)
      (FRaw.of h t).tail.toNat) = some ⟨h, t⟩ := by
  have h64 : t < 2 ^ 64 := lt_of_lt_of_le ht (by unfold tlBytes; split <;> decide)
  have hhead : mkHead (nb h 15) (nb h 14) (BitVec.ofNat 2 (h / 4096)).toNat (BitVec.ofNat 8 (h / 16)).toNat (BitVec.ofNat 4 h).toNat = h := by
    refine mkHead_fields hh (BitVec.isLt _) ?_
    simp only [rowKey, BitVec.toNat_ofNat]
  exact congrArg some (congrArg₂ Enc.mk hhead (Nat.mod_eq_of_lt h64))

/-- The decoder keeps all of a tail that fits its head. -/
theorem tailMod_of_fits {h t : Nat} (ht : t < 256 ^ tlBytes h) : tailMod (h / 4096 % 4) t = t := by
  have h4 : h / 4096 % 4 < 4 := Nat.mod_lt _ (by decide)
  unfold tlBytes at ht
  generalize h / 4096 % 4 = tl at ht h4
  rcases tl with _ | _ | _ | _ | n
  · exact (Nat.lt_one_iff.1 ht).symm
  · exact Nat.mod_eq_of_lt ht
  · exact Nat.mod_eq_of_lt ht
  · exact Nat.mod_eq_of_lt ht
  · omega

/-- Settles O2: the row that the decoder finds writes back the word that it reads. -/
theorem encodeOfDecode : Obligations.EncodeOfDecode := by
  unfold Obligations.EncodeOfDecode
  intro h t i hh ht hd
  simp only [decode, tailMod_of_fits ht] at hd
  split at hd
  · cases hd; exact encode_raw hh ht
  · split at hd
    · cases hd; exact encode_raw hh ht
    · split at hd
      · next f hf =>
        cases hd
        exact decRow_writesBack _ _ (mem_of_decFind hf) h t ⟨hh, ht, rfl⟩
      · cases hd

/-- Settles O3: each word stands at its row, and its fields are numbers. -/
theorem decodedWords : Obligations.DecodedWords := by
  unfold Obligations.DecodedWords
  exact ⟨rfl, rfl, rfl, rfl, rfl, rfl⟩

end Sys2Proof
end

section
/-! SUPPORT. Row 0: transfers of control, waits and heads that name no instruction (R47, R59 to R61, R112 to R121). -/

namespace Sys2Proof.Machine

open Sys2Proof.Spec

/-- Replacing a thread changes nothing else. -/
theorem State.OnlyThread.of_setThr (s : State) (c k : Nat) (y : Thread) : s.OnlyThread (s.setThr c k y) c k := by
  refine ⟨rfl, fun d h => State.setThr_core_ne _ h _ _, State.setThr_core_rest .., fun j h => ?_⟩
  simp [h]

/-- A head that traps before every other check (R61). -/
theorem State.Traps.of_setThr (s : State) (cause sub : Nat) (info : Word) (b l : Bool) :
    s.Traps (s.setThr s.curCore s.curThr (s.me.groupTrap cause sub info b l)) cause sub info := by
  refine ⟨State.OnlyThread.of_setThr .., ?_, fun n => ?_, fun n => ?_⟩
  · simp [Thread.groupTrap_trap]
  · simp [Thread.groupTrap_gv]
  · simp [Thread.groupTrap_pv]

/-- Settles O10: BRK's body is its trap, a head without an instruction traps before the guard, and the decoder names such
heads by their opcode alone. -/
theorem trappingHeads : Obligations.TrappingHeads := by
  unfold Obligations.TrappingHeads
  refine ⟨fun f s a b c hr => exec_traps (i := .brk f) rfl hr rfl, fun f s => ⟨_, rfl, State.Traps.of_setThr ..⟩,
    fun f s => ⟨_, rfl, State.Traps.of_setThr ..⟩, fun h t hr => ?_, fun h t hff => ?_, fun h t => ?_, rfl⟩
  · have hff : h / 16 % 256 ≠ 0xFF := fun e => absurd hr (by rw [e]; decide)
    exact ⟨_, by simp only [decode, hff, hr, if_false, if_true]; rfl⟩
  · exact ⟨_, by simp only [decode, hff, if_true]; rfl⟩
  · simp only [decode]
    by_cases hff : h / 16 % 256 = 0xFF
    · simp [hff]
    · cases hr : reservedOp (h / 16 % 256)
      · cases hf : decFind (h / 16 % 256 * 4 + h / 4096 % 4) (decRow (h / 16 % 256 / 16)) <;> simp [hff]
      · simp [hff]

end Sys2Proof.Machine
end

section
/-! SUPPORT. Transfers of control and waits (R39, R47, R112 to R114, R121). -/

namespace Sys2Proof.Machine

open Sys2Proof.Spec

/-- An access passes through a station: of the state only the extent entries change (R315). -/
theorem State.heat_cases (s : State) (a l : Nat) (w : Bool) : s.heat a l w = s ∨ ∃ oid x e, s.heat a l w = s.setExtent oid x e := by
  unfold State.heat
  split
  · exact .inr ⟨_, _, _, rfl⟩
  · exact .inl rfl

@[simp] theorem State.heat_thr (s : State) (a l : Nat) (w : Bool) (c t : Nat) : (s.heat a l w).thr c t = s.thr c t := by
  obtain h | ⟨_, _, _, h⟩ := s.heat_cases a l w
  · rw [h]
  · rw [h]; rfl

/-- The fetch buffer of a thread once a line has joined it: its two latest lines (R106). -/
def Thread.withLine (x : Thread) (base : Word) (l : List Byte) : Thread :=
  { x with fb := (x.fb ++ [(base, l)]).drop ((x.fb.length + 1) - 2) }

/-- What an agent has seen joins its view. -/
def State.saw (s : State) (a : Nat) (ids : List Nat) : State := { s with oom := s.oom.see a ids }

/-- A read step joins what it took to its agent's view. -/
theorem State.lineEv_saw {s s1 : State} {busy : Nat → Bool} {a : Nat} {ls : List Nat} {l : List Byte}
    (h : s.lineEv busy a ls = some (s1, l)) : ∃ ids, s1 = s.saw a ids := by
  unfold State.lineEv at h
  generalize s.linePicks busy a ls = q at h
  cases q with
  | none => cases h
  | some p => exact ⟨p, ((Prod.mk.injEq ..).mp ((Option.some.injEq ..).mp h)).1.symm⟩

/-- A line is in the buffer already, or a read step brings it there and passes its extent's station (R47, R106, R315). -/
theorem State.fetch_line {s s1 : State} {c t : Nat} {p : Word} {l : List Byte} (h : s.fetch c t p = .line s1 l) :
    ((s.thr c t).line p = some l ∧ s1 = s) ∨
    ((s.thr c t).line p = none ∧ ∃ ids loc, s1 = ((s.saw (agThread c t) ids).heat (agThread c t) loc false).modThr c t
      fun y => y.withLine (fpWith p (fpOff p / 64 * 64)) l) := by
  dsimp only [State.fetch] at h
  generalize (s.thr c t).line p = held at h ⊢
  generalize s.translate c (s.thr c t).ctx [] (fpWith p (fpOff p / 64 * 64)) 64 64 rExec = q at h
  cases held with
  | some l0 => 
    obtain ⟨hs, rfl⟩ := (Fetched.line.injEq ..).mp h
    exact .inl ⟨rfl, hs.symm⟩
  | none =>
    refine .inr ⟨rfl, ?_⟩
    cases q with
    | error e => cases h
    | ok k =>
      dsimp only at h
      generalize he : s.lineEv s.piecesWait (agThread c t) (locs k.loc 64) = r at h
      generalize k.np = np at h
      cases np with
      | some e => cases h
      | none =>
        cases r with
        | none => cases h
        | some r =>
          obtain ⟨s2, l2⟩ := r
          obtain ⟨ids, rfl⟩ := State.lineEv_saw he
          obtain ⟨hs, rfl⟩ := (Fetched.line.injEq ..).mp h
          exact ⟨ids, k.loc, hs.symm⟩

/-- A line fetch changes its own thread in its fetch buffer alone. -/
theorem State.fetch_thread {s s1 : State} {c t : Nat} {p : Word} {l : List Byte} (h : s.fetch c t p = .line s1 l) :
    ∃ fb, s1.thr c t = { s.thr c t with fb := fb } := by
  obtain ⟨_, rfl⟩ | ⟨_, ids, loc, rfl⟩ := State.fetch_line h
  · exact ⟨_, rfl⟩
  · rw [State.modThr, State.setThr_thr, if_pos ⟨rfl, rfl⟩, State.heat_thr]
    exact ⟨_, rfl⟩

section
variable {i : Instr} {s : State} {op : Nat} {fm : Form} {o : Opnd} {va vb vc : Word}

/-- The same as `exec_does` where the instruction claims something at issue that leaves the thread at its place in its group. -/
theorem exec_does_claim {r q : Out} {s1 : State}
    (hv : i.view = some (op, fm, o)) (h : s.Ready op fm o va vb vc) (hb : bodyOf op (s.iss op fm o va vb vc) = .ok r)
    (hn : r.np = none) (hs : r.st = some s1) (hq : q.st = some s1) (hrd : r.keepsReads op fm o)
    (hx : (s1.thr s.curCore s.curThr).grp.n = s.me.grp.n) (hc : (s1.thr s.curCore s.curThr).pc = s.me.pc)
    (e : r.g = q.g ∧ r.p = q.p ∧ r.res = q.res ∧ r.defs = q.defs ∧ r.undo = q.undo ∧ r.given = q.given ∧ r.fence = q.fence
      ∧ r.ifence = q.ifence ∧ r.fx = q.fx ∧ r.jump = q.jump ∧ r.post = q.post) : Issues i s op fm o q := by
  obtain ⟨t, h1, h2⟩ := issue_ready h hb hn hrd (by rw [hs]; exact hx) (by rw [hs]; exact hc)
  obtain ⟨e1, e2, e3, e4, e5, e6, e7, e8, e9, e10, e11⟩ := e
  have hf := h2.frame
  have ht := h2.thread
  rw [hs] at hf ht
  exact ⟨t, (exec_issue hv s).trans h1, by rw [hq]; exact hf, by rw [hq]; exact ht.congr e1 e2 e3 e4 e5 e6 e7 e8 e9 e10 e11⟩

/-- A taken branch whose target is a valid head (R47, R112). -/
theorem jump_of_codeAt {p : Word} {s1 : State} {r : Out} (h : CodeAt s p s1) :
    (s.iss op fm o va vb vc).jump p r = .ok { r with jump := some p, st := some s1 } := by
  obtain ⟨he, l, hf, hh⟩ := h
  have hf' : s.opened.fetch s.curCore s.curThr p = .line s1 l := hf
  have ok : headOk p l = true := by simp [headOk, he, Option.isSome_iff_ne_none, hh]
  simp only [Iss.jump, State.iss, he, hf', ok]
  rfl

/-- A branch whose target is bad (R47, R112). -/
theorem jump_odd {p : Word} {r : Out} (h : fpOff p % 2 = 1) : (s.iss op fm o va vb vc).jump p r = trap 0x03 0 p := if_pos h

theorem jump_bad {p : Word} {r : Out} {cause sub : Nat} (he : fpOff p % 2 = 0)
    (h : s.opened.fetch s.curCore s.curThr p = .bad cause sub) :
    (s.iss op fm o va vb vc).jump p r = trap cause sub (faultPtr cause p) := by
  simp only [Iss.jump, State.iss, he, h]
  rfl

theorem jump_noHead {p : Word} {r : Out} {s1 : State} {l : List Byte} (he : fpOff p % 2 = 0)
    (h : s.opened.fetch s.curCore s.curThr p = .line s1 l) (hh : headAt l (fpOff p % 64 / 2) = none) :
    (s.iss op fm o va vb vc).jump p r = trap 0x03 0 p := by
  have ok : headOk p l = false := by simp [headOk, hh]
  simp only [Iss.jump, State.iss, he, h, ok]
  rfl

/-- An instruction whose body is a taken branch goes on at its target. -/
theorem issues_jump {p : Word} {s1 : State} {r : Out} (hv : i.view = some (op, fm, o)) (hr : s.Ready op fm o va vb vc)
    (hb : bodyOf op (s.iss op fm o va vb vc) = (s.iss op fm o va vb vc).jump p r) (h : CodeAt s p s1)
    (hn : r.np = none) (hrd : r.keepsReads op fm o) : Issues i s op fm o { r with rd := [], jump := some p, st := some s1 } := by
  have ⟨_, _, hf, _⟩ := h
  obtain ⟨fb, hx⟩ := State.fetch_thread hf
  rw [State.opened_thr] at hx
  exact exec_does_claim hv hr (hb.trans (jump_of_codeAt h)) hn rfl rfl hrd (by rw [hx]) (by rw [hx])
    ⟨rfl, rfl, rfl, rfl, rfl, rfl, rfl, rfl, rfl, rfl, rfl⟩

/-- The target of a direct branch (R112). -/
theorem disp_bind {α : Type} {p : Word} (h : fpMove s.me.pc (2 * (BitVec.ofNat 16 o.i).toInt) = some p) (f : Word → Try α) :
    ((s.iss op fm o va vb vc).disp >>= f) = f p := by
  rw [toInt_ofNat_eq_sx 16 _ (by decide)] at h
  simp only [Iss.disp, State.iss, h]
  rfl

theorem disp_none {α : Type} (h : fpMove s.me.pc (2 * (BitVec.ofNat 16 o.i).toInt) = none) (f : Word → Try α) :
    ((s.iss op fm o va vb vc).disp >>= f) = trap 0x17 0 s.me.pc := by
  rw [toInt_ofNat_eq_sx 16 _ (by decide)] at h
  simp only [Iss.disp, State.iss, h]
  rfl

/-! ### The bodies of the transfers -/

/-- JP and JNP: the target is formed before the predicate is looked at (R112). -/
theorem branchIf_body {p : Word} (want : Bool) (h : fpMove s.me.pc (2 * (BitVec.ofNat 16 o.i).toInt) = some p) :
    branchIf want (s.iss op fm o va vb vc) =
      if s.me.readP o.d = want then (s.iss op fm o va vb vc).jump p { rd := [16 + o.d] } else .ok { rd := [16 + o.d] } := by
  exact (disp_bind h _).trans (if_congr beq_iff_eq rfl rfl)

/-- CALL in its register form (R113). -/
theorem opCall_t2 : opCall (s.iss op .t2 o va vb vc) = (s.iss op .t2 o va vb vc).jump (fpCode va) { g := [(14, after s)] } := rfl

/-- RET (R114). -/
theorem opRet_body {v : Word} (h : Holds s 14 v) :
    opRet (s.iss op fm o va vb vc) = (s.iss op fm o va vb vc).jump (fpCode v) { rd := [14] } := readG_bind h _

/-- A branch writes no register at once (R50). -/
theorem singleWrites_branch (h : op < 0x10) (h4 : op ≠ 0x04) (fm : Form) (o : Opnd) : singleWrites op fm o = [] := by
  unfold singleWrites
  repeat rw [if_neg (by omega)]

/-- Settles O5: each transfer's body is a jump to its target. -/
theorem transfersJump : Obligations.TransfersJump := by
  unfold Obligations.TransfersJump
  intro i s op fm o a b c hv hr
  have quiet (h : op < 0x10) (h4 : op ≠ 0x04) (r : Out) : r.keepsReads op fm o :=
    Out.keepsReads_of_writes (singleWrites_branch h h4 fm o) r
  refine ⟨fun p hp => ⟨?_, ?_, ?_, ?_⟩, ?_, ?_, ?_⟩
  · rintro rfl s1 hc
    exact issues_jump hv hr (disp_bind hp _) hc rfl (quiet (by decide) (by decide) _)
  · rintro rfl
    refine ⟨fun ht s1 hc => ?_, fun hf => ?_⟩
    · exact issues_jump hv hr ((branchIf_body true hp).trans (if_pos ht)) hc rfl (quiet (by decide) (by decide) _)
    · exact exec_does hv hr ((branchIf_body true hp).trans (if_neg (by simp [hf]))) rfl rfl (quiet (by decide) (by decide) _) rfl
        ⟨rfl, rfl, rfl, rfl, rfl, rfl, rfl, rfl, rfl, rfl, rfl⟩
  · rintro rfl
    refine ⟨fun hf s1 hc => ?_, fun ht => ?_⟩
    · exact issues_jump hv hr ((branchIf_body false hp).trans (if_pos hf)) hc rfl (quiet (by decide) (by decide) _)
    · exact exec_does hv hr ((branchIf_body false hp).trans (if_neg (by simp [ht]))) rfl rfl (quiet (by decide) (by decide) _) rfl
        ⟨rfl, rfl, rfl, rfl, rfl, rfl, rfl, rfl, rfl, rfl, rfl⟩
  · rintro rfl rfl s1 hc
    exact issues_jump (r := { g := [(14, after s)] }) hv hr (disp_bind hp _) hc rfl (Out.keepsReads_of_rd rfl _ _ _)
  · rintro rfl rfl s1 hc
    exact issues_jump (r := { g := [(14, after s)] }) hv hr opCall_t2 hc rfl (Out.keepsReads_of_rd rfl _ _ _)
  · rintro rfl v hg s1 hc
    exact issues_jump hv hr (opRet_body hg) hc rfl (quiet (by decide) (by decide) _)
  · rintro rfl s1 hc
    exact issues_jump hv hr rfl hc rfl (quiet (by decide) (by decide) _)

/-- A transfer whose target is bad traps with what the check of the target answers (R47). -/
theorem badTarget_traps {p : Word} {r : Out} (hv : i.view = some (op, fm, o)) (hr : s.Ready op fm o va vb vc)
    (hb : bodyOf op (s.iss op fm o va vb vc) = (s.iss op fm o va vb vc).jump p r) :
    (fpOff p % 2 = 1 → Trapped i s 0x03 0 p)
    ∧ (∀ cause sub, fpOff p % 2 = 0 → s.opened.fetch s.curCore s.curThr p = .bad cause sub →
        Trapped i s cause sub (faultPtr cause p))
    ∧ (∀ s1 l, fpOff p % 2 = 0 → s.opened.fetch s.curCore s.curThr p = .line s1 l → headAt l (fpOff p % 64 / 2) = none →
        Trapped i s 0x03 0 p) :=
  ⟨fun h => exec_traps hv hr (hb.trans (jump_odd h)), fun _ _ he h => exec_traps hv hr (hb.trans (jump_bad he h)),
    fun _ _ he h hh => exec_traps hv hr (hb.trans (jump_noHead he h hh))⟩

/-- Settles O7: a displacement out of range traps before its predicate is looked at, and every indirect transfer is a jump. -/
theorem badTargetsTrap : Obligations.BadTargetsTrap := by
  unfold Obligations.BadTargetsTrap
  intro i s op fm o a b c hv hr
  refine ⟨?_, ?_⟩
  · rintro (rfl | rfl | rfl | ⟨rfl, rfl⟩) hp
    all_goals exact exec_traps hv hr (disp_none hp _)
  · rintro p (⟨rfl | ⟨rfl, rfl⟩, rfl⟩ | ⟨rfl, v, hg, rfl⟩)
    · exact badTarget_traps (r := {}) hv hr rfl
    · exact badTarget_traps hv hr opCall_t2
    · exact badTarget_traps hv hr (opRet_body hg)

/-- Settles O9: WAITF's body looks at the full bit, then at what is due. -/
theorem waitfParks : Obligations.WaitfParks := by
  unfold Obligations.WaitfParks
  intro i s fm o a b c hv hr hst hfull
  have body : bodyOf 0x0D (s.iss 0x0D fm o a b c) =
      if s.me.isDue o.d = true then trap 0x46 0 (BitVec.ofNat 64 o.d) else .error (.park (0x0B + 256 * o.d)) :=
    if_neg (by rw [show (s.iss 0x0D fm o a b c).x.isFull (s.iss 0x0D fm o a b c).o.d = false from hfull]; decide)
  refine ⟨fun hd => exec_traps hv hr (body.trans (if_pos hd)), fun hd => ?_⟩
  refine ⟨_, (exec_issue hv s).trans (issue_park hr (body.trans (if_neg (by simp [hd])))), State.OnlyThread.of_opened s _, ?_⟩
  have hreg : (0x0B + 256 * o.d) / 256 = o.d := by omega
  have hrsn : (0x0B + 256 * o.d) % 256 = 0x0B := by omega
  simp [Thread.park, hst, hreg, hrsn]

end

end Sys2Proof.Machine
end

section
/-! SUPPORT. What the body of a CPU instruction answers: no single-cycle result and no claim, for all but those of R50 and those
that claim at issue. -/

namespace Sys2Proof.Machine

open Sys2Proof.Spec

/-! ### Answers of a check or a body -/

/-- The answer meets `P`, an assist's record meets `A`, and any other refusal is allowed. -/
def Try.Always {α : Type} (A : List Byte → Prop) (P : α → Prop) : Try α → Prop
  | .ok a => P a
  | .error (.assist rec) => A rec
  | .error _ => True

section
variable {α β : Type} {A : List Byte → Prop} {P : α → Prop}

@[simp] theorem Try.always_ok {a : α} : Try.Always A P (.ok a) ↔ P a := .rfl
@[simp] theorem Try.always_pure {a : α} : Try.Always A P (pure a) ↔ P a := .rfl
@[simp] theorem Try.always_trap (cause sub : Nat) (info : Word) : Try.Always A P (trap cause sub info) := trivial
@[simp] theorem Try.always_park (n : Nat) : Try.Always A P (.error (.park n)) := trivial
@[simp] theorem Try.always_hold : Try.Always A P (.error .hold) := trivial
@[simp] theorem Try.always_assist {l : List Byte} : Try.Always A P (.error (.assist l)) ↔ A l := .rfl

@[simp] theorem Try.always_ite {c : Prop} [Decidable c] {m n : Try α} :
    Try.Always A P (if c then m else n) ↔ (c → Try.Always A P m) ∧ (¬ c → Try.Always A P n) := by
  split <;> simp [*]

@[simp] theorem Try.always_bind {Q : β → Prop} {m : Try α} {f : α → Try β} :
    Try.Always A Q (m >>= f) ↔ Try.Always A (fun a => Try.Always A Q (f a)) m := by
  cases m with
  | ok a => exact .rfl
  | error e => cases e <;> exact .rfl

@[simp] theorem Try.always_map {Q : β → Prop} {m : Try α} {f : α → β} :
    Try.Always A Q (f <$> m) ↔ Try.Always A (fun a => Q (f a)) m := by
  cases m with
  | ok a => exact .rfl
  | error e => cases e <;> exact .rfl

theorem Try.Always.imp {m : Try α} {Q : α → Prop} (h : m.Always A P) (hq : ∀ a, P a → Q a) : m.Always A Q := by
  cases m with
  | ok a => exact hq a h
  | error e => cases e <;> exact h

end

/-! ### The checks of an access end in no assist -/

section
variable {A : List Byte → Prop} {i : Iss}

@[simp] theorem always_readG {P : Word → Prop} {x : Thread} {n : Nat} (h : ∀ v, P v) : (x.readG n).Always A P := by
  simp only [Thread.readG]
  simp [h]

@[simp] theorem always_check {P : Ok → Prop} {p : Word} {n a r : Nat} (h : ∀ k, P k) : (i.check p n a r).Always A P := by
  unfold Iss.check
  split <;> simp [h]

@[simp] theorem always_checkW {P : Ok → Prop} {p : Word} {n a r : Nat} (h : ∀ k, P k) : (i.checkW p n a r).Always A P := by
  unfold Iss.checkW
  simp only [Try.always_bind]
  refine always_check fun k => ?_
  split
  · exact h k
  · split <;> simp [h]

@[simp] theorem always_moved {P : Word → Prop} {p : Word} {d : Int} (h : ∀ q, P q) : (moved p d).Always A P := by
  unfold moved
  split <;> simp [h]

@[simp] theorem always_dispAddr {P : Word → Prop} {size : Nat} (h : ∀ q, P q) : (i.dispAddr size).Always A P := always_moved h

@[simp] theorem always_bump {P : List LRes → Prop} {p : Word} {n : Nat} (h : ∀ q, P q) : (i.bump p n).Always A P := by
  unfold Iss.bump
  split <;> simp [h]

@[simp] theorem always_resolveFmt {P : Nat → Prop} {p : Word} {m : Nat} (h : ∀ f, P f) : (resolveFmt p m).Always A P := by
  simp only [resolveFmt]
  simp [h]

@[simp] theorem always_typed {P : Nat × Ok × Option Nat → Prop} {w : Bool} (h : ∀ r, P r) : (i.typed w).Always A P := by
  unfold Iss.typed
  simp [h]

end

/-! ### Bodies that write nothing at once and claim nothing -/

/-- No single-cycle result and no claim. -/
def Out.Quiet (r : Out) : Prop := r.g = [] ∧ r.p = [] ∧ r.st = none

/-- The answer, if there is one, is quiet, and there is no assist. -/
def Try.Quiet (m : Try Out) : Prop := ∀ A : List Byte → Prop, m.Always A Out.Quiet

@[simp] theorem Out.quiet_mk {g : List (Nat × Word)} {p : List (Nat × Bool)} {res : List LRes} {defs : List Eff}
    {np : Option (Nat × Nat × Word)} {touch : Bool} {jump : Option Word} {fx vx : Nat} {rd : List Nat} {post : Option Post}
    {given : List Nat} {fence : Option Nat} {undo : List Undo} {ifence lost : Bool} {st : Option State} :
    (Out.mk g p res defs np touch jump fx vx rd post given fence undo ifence lost st).Quiet ↔ g = [] ∧ p = [] ∧ st = none := .rfl

@[simp] theorem Out.quiet_loads {p : Word} {k : Ok} {t : Bool} {rs : List LRes} {r : Out} : (Iss.loads p k t rs r).Quiet ↔ r.Quiet := by
  unfold Iss.loads
  split <;> rfl

@[simp] theorem Out.quiet_stores {p : Word} {k : Ok} {e : Eff} {r : Out} : (Iss.stores p k e r).Quiet ↔ r.Quiet := by
  unfold Iss.stores
  split <;> rfl

section
variable {A : List Byte → Prop} {i : Iss}

theorem opLd_quiet : (opLd i).Quiet := fun _ => by simp [opLd, load]
theorem opLds_quiet : (opLds i).Quiet := fun _ => by simp [opLds, load]
theorem opSt_quiet : (opSt i).Quiet := fun _ => by simp [opSt]
theorem opLdt_quiet : (opLdt i).Quiet := fun _ => by simp [opLdt]

theorem opStt_quiet : (opStt i).Quiet := by
  intro A
  unfold opStt
  refine Try.always_bind.mpr (always_readG fun v => Try.always_bind.mpr (always_typed fun r => ?_))
  obtain ⟨f, k, sc⟩ := r
  cases sc <;> simp

theorem opStp_quiet : (opStp i).Quiet := fun _ => by simp [opStp]

end

section
variable {α β : Type} {A : List Byte → Prop} {P : α → Prop}

/-- Whatever a step answers, what follows it meets `Q`. -/
theorem Try.Always.bind {Q : β → Prop} {m : Try α} {f : α → Try β} (hm : m.Always A fun _ => True) (hf : ∀ a, (f a).Always A Q) :
    (m >>= f).Always A Q := Try.always_bind.mpr (Try.Always.imp hm fun a _ => hf a)

/-- A check before the rest of a body. -/
theorem Try.Always.unless {c : Prop} [Decidable c] {cause sub : Nat} {info : Word} {f : Unit → Try α} (h : (f ()).Always A P) :
    Try.Always A P (if c then (trap cause sub info >>= f) else f ()) := by
  simp [h]
end
section
variable {A : List Byte → Prop} {i : Iss}

theorem span_plain {p : Word} {n size : Nat} {rd wr : Bool} : (i.span p n size rd wr).Always A fun _ => True := by
  unfold Iss.span
  extract_lets one rest
  have hone (r : Nat) : (one r).Always A fun _ => True := by
    unfold one
    split <;> simp
  refine .unless (.bind (hone _) fun k => ?_)
  extract_lets passed pending stale aligned
  have hpending (u : Unit) : (pending u).Always A fun _ => True := by simp [pending, passed]
  have hstale (u : Unit) : (stale u).Always A fun _ => True := by
    unfold stale
    split
    · simp
    · exact hpending ()
  have haligned (u : Unit) : (aligned u).Always A fun _ => True := .unless (hstale ())
  split
  · exact .bind (hone _) fun _ => haligned ()
  · exact haligned ()

theorem vec_quiet : (vec i).Quiet := by
  intro A
  unfold vec
  refine .bind (by simp) fun v => ?_
  extract_lets n spanned rest
  have hrest (f : Nat × Nat × Nat) : (rest f).Always A Out.Quiet := by
    unfold rest
    split
    next e y z _ =>
    extract_lets size span check bump ops sized scaled
    have hcheck (k : VRole) (w : Nat) (p : Word) (rd wr : Bool) : (check k w p rd wr).Always A fun _ => True := by
      unfold check
      split
      · exact span_plain
      · trivial
    have hbump (on : Bool) (r : Nat) (k : VRole) (w : Nat) (p : Word) : (bump on r k w p).Always A fun _ => True := by
      unfold bump
      split
      · split <;> simp
      · simp
    have hops (u : Unit) : (ops u).Always A Out.Quiet := by
      refine .bind (hcheck ..) fun kd => .bind (hcheck ..) fun ka => .bind (hcheck ..) fun kb => ?_
      split
      next pd pa pb _ =>
      refine .bind (hbump ..) fun b1 => .bind (hbump ..) fun b2 => .bind (hbump ..) fun b3 => ?_
      split <;> simp
    have hsized (u : Unit) : (sized u).Always A Out.Quiet := .unless (hops ())
    have hscaled (u : Unit) : (scaled u).Always A Out.Quiet := by
      unfold scaled
      split
      · simp
      · exact hsized ()
    exact .unless (hscaled ())
  split
  · simp
  · exact hrest _

@[simp] theorem always_span {P : Ok → Prop} {p : Word} {n size : Nat} {rd wr : Bool} (h : ∀ k, P k) : (i.span p n size rd wr).Always A P :=
  span_plain.imp fun k _ => h k

@[simp] theorem always_longG {v : Word} : (longG i v).Always A Out.Quiet := by simp [longG]

/-! #### Rows 0, 1 and 3 -/
theorem opNop_quiet : (opNop i).Quiet := fun _ => by simp [opNop]
theorem opYield_quiet : (opYield i).Quiet := fun _ => by simp [opYield]
theorem opTend_quiet : (opTend i).Quiet := fun _ => by simp [opTend]
theorem opTrap_quiet : (opTrap i).Quiet := fun _ => by simp [opTrap]
theorem opSysc_quiet : (opSysc i).Quiet := fun _ => by simp [opSysc]
theorem opIfence_quiet : (opIfence i).Quiet := fun _ => by simp [opIfence]
theorem opWaitf_quiet : (opWaitf i).Quiet := fun _ => by simp [opWaitf]
theorem opBrk_quiet : (opBrk i).Quiet := fun _ => by simp [opBrk]
theorem divide_quiet {f : Word → Word → Word} : (divide f i).Quiet := fun _ => by simp [divide]
theorem opPchk_quiet : (opPchk i).Quiet := fun _ => by simp [opPchk]

/-! #### Rows 4 and 5 -/
theorem opLda_quiet : (opLda i).Quiet := fun _ => by simp [opLda]
theorem opStl_quiet : (opStl i).Quiet := fun _ => by simp [opStl]
theorem opLdp_quiet : (opLdp i).Quiet := fun _ => by simp [opLdp]
theorem opLdx_quiet : (opLdx i).Quiet := fun _ => by simp [opLdx]
theorem opStx_quiet : (opStx i).Quiet := fun _ => by simp [opStx]
theorem atomic_quiet : (atomic i).Quiet := fun _ => by simp [atomic]
theorem opFence_quiet : (opFence i).Quiet := fun _ => by simp [opFence]
theorem opTfence_quiet : (opTfence i).Quiet := fun _ => by simp [opTfence]

/-! #### Rows 6 and 7 -/
@[simp] theorem always_coreName {P : Unit → Prop} {w : Word} (h : ∀ k, P k) : (i.coreName w).Always A P := by simp [Iss.coreName, h]
@[simp] theorem always_level {P : Unit → Prop} (h : ∀ k, P k) : i.level.Always A P := by simp [Iss.level, h]
theorem opSend_quiet : (opSend i).Quiet := fun _ => by simp [opSend]
theorem opSendi_quiet : (opSendi i).Quiet := fun _ => by simp [opSendi]
theorem opEmpty_quiet : (opEmpty i).Quiet := fun _ => by simp [opEmpty]
theorem opMigr_quiet : (opMigr i).Quiet := fun _ => by simp [opMigr]
theorem opMigh_quiet : (opMigh i).Quiet := by
  intro A
  unfold opMigh
  split
  · simp
  · refine .bind (by simp) fun k => ?_
    split <;> simp
theorem opRole_quiet : (opRole i).Quiet := fun _ => by simp [opRole]
theorem opRcast_quiet : (opRcast i).Quiet := fun _ => by simp [opRcast]
theorem opChmap_quiet : (opChmap i).Quiet := fun _ => by simp [opChmap]
theorem opMboxq_quiet : (opMboxq i).Quiet := fun _ => by simp [opMboxq]
theorem opPoisq_quiet : (opPoisq i).Quiet := fun _ => by simp [opPoisq]
theorem opBara_quiet : (opBara i).Quiet := fun _ => by simp [opBara]
theorem opBarw_quiet : (opBarw i).Quiet := fun _ => by simp [opBarw]
theorem opBar_quiet : (opBar i).Quiet := fun _ => by simp [opBar]
theorem opSltw_quiet : (opSltw i).Quiet := fun _ => by simp [opSltw]
theorem opSltr_quiet : (opSltr i).Quiet := fun _ => by simp [opSltr]
theorem opCbinit_quiet : (opCbinit i).Quiet := fun _ => by simp [opCbinit]
theorem opCbarr_quiet : (opCbarr i).Quiet := fun _ => by simp [opCbarr]
theorem opCbwait_quiet : (opCbwait i).Quiet := fun _ => by simp [opCbwait]
theorem opCbph_quiet : (opCbph i).Quiet := fun _ => by simp [opCbph]

/-! #### Row 8 -/
@[simp] theorem fres_quiet {f : Fmt} {b : Bool} {r : Nat × Nat} : (i.fres f b r).Always (fun l => l.length = 64) Out.Quiet := by
  unfold Iss.fres
  extract_lets sub
  refine Try.always_ite.mpr ⟨fun _ => ?_, fun _ => ?_⟩
  · split
    · simp
    · simp [Iss.assistRec, lowBytes, length_leBytes]
  · simp

@[simp] theorem Out.quiet_ringed {f : Fmt} {r : Out} : (r.ringed f).Quiet ↔ r.Quiet := .rfl
@[simp] theorem Try.map_eq {α β : Type} (m : Try α) (f : α → β) : m.map f = f <$> m := rfl

theorem farith_quiet {op : RM → Num → Num → Num × Nat} : (farith op i).Always (fun l => l.length = 64) Out.Quiet := fres_quiet
theorem fring_quiet {op : RM → Num → Num → Num × Nat} : (fring op i).Always (fun l => l.length = 64) Out.Quiet := by
  simpa [fring] using farith_quiet
theorem opFadd_quiet : (opFadd i).Always (fun l => l.length = 64) Out.Quiet := fring_quiet
theorem opFsub_quiet : (opFsub i).Always (fun l => l.length = 64) Out.Quiet := fring_quiet
theorem opFmul_quiet : (opFmul i).Always (fun l => l.length = 64) Out.Quiet := fring_quiet
theorem opFdiv_quiet : (opFdiv i).Always (fun l => l.length = 64) Out.Quiet := farith_quiet
theorem opFfma_quiet : (opFfma i).Always (fun l => l.length = 64) Out.Quiet := by simp [opFfma]
theorem opFsqrt_quiet : (opFsqrt i).Always (fun l => l.length = 64) Out.Quiet := by simp [opFsqrt]
theorem fpick_quiet {b : Bool} : (fpick b i).Always (fun l => l.length = 64) Out.Quiet := by simp [fpick]
theorem opFmin_quiet : (opFmin i).Always (fun l => l.length = 64) Out.Quiet := fpick_quiet
theorem opFmax_quiet : (opFmax i).Always (fun l => l.length = 64) Out.Quiet := fpick_quiet
theorem opFcmp_quiet : (opFcmp i).Quiet := fun _ => by simp [opFcmp]
theorem opFcvt_quiet : (opFcvt i).Always (fun l => l.length = 64) Out.Quiet := by simp [opFcvt]
theorem opFcls_quiet : (opFcls i).Always (fun l => l.length = 64) Out.Quiet := by simp [opFcls]
theorem opFtld_quiet : (opFtld i).Quiet := by
  intro A
  refine .bind (by simp) fun k => ?_
  simp only [Try.always_pure]
  split <;> simp
theorem opEnc8_quiet : (opEnc8 i).Quiet := fun _ => by simp [opEnc8]
theorem opDec8_quiet : (opDec8 i).Always (fun l => l.length = 64) Out.Quiet := by simp [opDec8]

/-! #### Rows B to E -/
theorem opVclaim_quiet : (opVclaim i).Quiet := fun _ => by simp [opVclaim]
theorem opVrel_quiet : (opVrel i).Quiet := fun _ => by simp [opVrel]
theorem opShld_quiet : (opShld i).Quiet := fun _ => by simp [opShld]
theorem opShst_quiet : (opShst i).Quiet := fun _ => by simp [opShst]
theorem opShset_quiet : (opShset i).Quiet := fun _ => by simp [opShset]
theorem opShget_quiet : (opShget i).Quiet := fun _ => by simp [opShget]
@[simp] theorem always_tileNo {P : Nat → Prop} (h : ∀ n, P n) : i.tileNo.Always A P := by simp [Iss.tileNo, h]
@[simp] theorem always_mustOwn {P : Unit → Prop} {n : Nat} (h : ∀ u, P u) : (i.mustOwn n).Always A P := by simp [Iss.mustOwn, h]
theorem opTgive_quiet : (opTgive i).Quiet := fun _ => by simp [opTgive]
theorem opTtag_quiet : (opTtag i).Quiet := fun _ => by simp [opTtag]
theorem opTqry_quiet : (opTqry i).Quiet := fun _ => by simp [opTqry]
theorem opQpush_quiet : (opQpush i).Quiet := by
  intro A
  unfold opQpush
  extract_lets rest
  refine .unless ?_
  refine .bind (always_check fun _ => trivial) fun k => ?_
  split <;> simp
theorem opQpop_quiet : (opQpop i).Quiet := by
  intro A
  unfold opQpop
  extract_lets
  split <;> simp
theorem opQstat_quiet : (opQstat i).Quiet := fun _ => by simp [opQstat]
theorem opSpstat_quiet : (opSpstat i).Quiet := fun _ => by simp [opSpstat]
theorem opLcancel_quiet : (opLcancel i).Quiet := fun _ => by simp [opLcancel]
theorem opLstat_quiet : (opLstat i).Quiet := by
  intro A
  unfold opLstat
  extract_lets tag waits held
  refine Try.always_ite.mpr ⟨fun _ => always_longG, fun _ => ?_⟩
  cases held with
  | none => exact always_longG
  | some r => exact always_longG
theorem opNstat_quiet : (opNstat i).Quiet := fun _ => by simp [opNstat]
theorem opCcwait_quiet : (opCcwait i).Quiet := fun _ => by simp [opCcwait]
theorem opCcrd_quiet : (opCcrd i).Quiet := fun _ => by simp [opCcrd]
theorem opCcset_quiet : (opCcset i).Quiet := fun _ => by simp [opCcset]

/-! #### Row F -/
theorem opWalk_quiet : (opWalk i).Quiet := fun _ => by simp [opWalk]
theorem opOpen_quiet : (opOpen i).Quiet := fun _ => by simp [opOpen]
theorem opClose_quiet : (opClose i).Quiet := fun _ => by simp [opClose]
theorem opBind_quiet : (opBind i).Quiet := fun _ => by simp [opBind]
theorem opUnbind_quiet : (opUnbind i).Quiet := fun _ => by simp [opUnbind]
theorem opRevoke_quiet : (opRevoke i).Quiet := fun _ => by simp [opRevoke]
theorem opCsrr_quiet : (opCsrr i).Quiet := by
  intro A
  unfold opCsrr
  split <;> simp
theorem opCsrw_quiet : (opCsrw i).Quiet := by
  intro A
  unfold opCsrw
  extract_lets
  split
  · simp
  · split <;> simp
theorem opTret_quiet : (opTret i).Quiet := by
  intro A
  unfold opTret
  split <;> simp
theorem opPmack_quiet : (opPmack i).Quiet := fun _ => by simp [opPmack]
theorem opTshoot_quiet : (opTshoot i).Quiet := by
  intro A
  refine .bind (by simp) fun k => ?_
  split <;> simp
theorem opSstop_quiet : (opSstop i).Quiet := fun _ => by simp [opSstop]
theorem opPartw_quiet : (opPartw i).Quiet := fun _ => by simp [opPartw]
theorem opHalt_quiet : (opHalt i).Quiet := fun _ => by simp [opHalt]

/-! #### Engine commands -/
@[simp] theorem always_handleRight {P : Unit → Prop} {p : Word} {r : Nat} (h : ∀ u, P u) : (i.handleRight p r).Always A P := by
  unfold Iss.handleRight
  extract_lets
  split
  · simp [h]
  · split <;> simp [h]

theorem ttask_quiet {k : Cmd} : (i.ttask k).Quiet := by
  intro A
  refine .bind (by simp) fun k => ?_
  split <;> simp
theorem subtree_quiet {k : Cmd} : (i.subtree k).Quiet := by
  intro A
  unfold Iss.subtree
  extract_lets
  split <;> simp
theorem scratch_quiet {k : Cmd} : (i.scratch k).Quiet := by
  intro A
  unfold Iss.scratch
  extract_lets n sz wr p rest
  refine .unless (Try.always_ite.mpr ⟨fun _ => by simp, fun _ => .bind span_plain fun r => ?_⟩)
  split <;> simp
theorem ladle_quiet {k : Cmd} : (i.ladle k).Quiet := fun _ => by simp [Iss.ladle]
theorem press_quiet {k : Cmd} : (i.press k).Quiet := by
  intro A
  unfold Iss.press
  split
  · simp
  · simp
theorem netReq_quiet {k : Cmd} : (i.netReq k).Quiet := fun _ => by simp [Iss.netReq]
theorem command_quiet {k : Cmd} : (i.command k).Quiet := by
  unfold Iss.command
  split
  · exact ttask_quiet
  iterate 3 exact subtree_quiet
  iterate 2 exact ladle_quiet
  iterate 4 exact press_quiet
  iterate 4 exact netReq_quiet
  · exact scratch_quiet

@[simp] theorem Out.quiet_rd {r : Out} {l : List Nat} : ({ r with rd := l } : Out).Quiet ↔ r.Quiet := .rfl

theorem opCommand_quiet : (opCommand i).Quiet := by
  intro A
  unfold opCommand
  extract_lets ptr rest
  have hrest (v : Word) : (rest v).Always A Out.Quiet := by
    refine Try.always_bind.mpr ((command_quiet A).imp fun r hr => ?_)
    rw [Try.always_pure]
    split
    · exact Out.quiet_rd.mpr hr
    · exact hr
  clear_value rest
  simp [hrest]
end

end Sys2Proof.Machine
end

section
/-! SUPPORT. The frame of an instruction at issue (R50, R55, R72): a relation between the states before and after that
holds of each claim, of an assist's record and of an update of the issuing thread, and composes. -/

namespace Sys2Proof.Machine

open Sys2Proof.Spec

/-! ### The frame -/

/-- What an instruction of opcode `op` by thread `k` of core `c` leaves as it was, its own thread apart. -/
structure State.Frame (s t : State) (op c k : Nat) : Prop where
  thr : ∀ j, j ≠ k → t.thr c j = s.thr c j
  cores : ∀ d, d ≠ c → t.core d = s.core d
  core : { t.core c with
    th := (s.core c).th, deque := (s.core c).deque, dqSlots := (s.core c).dqSlots } = s.core c
  pkg : { t with
    cores := s.cores, clus := s.clus, mem := s.mem, objs := s.objs
    oom := { t.oom with fr := s.oom.fr, ws := s.oom.ws, hl := s.oom.hl } } = s
  clus : op ≠ 0xC4 → t.clus = s.clus
  objs : 0x10 ≤ op → t.objs = s.objs
  obj : ∀ oid, { t.obj oid with ext := (s.obj oid).ext } = s.obj oid
  mem : op / 16 ≠ 8 → t.mem = s.mem ∧ t.oom.ws = s.oom.ws ∧ t.oom.hl = s.oom.hl
  byte : ∀ l, l < locObj oidAssist (assistOff c k) ∨ locObj oidAssist (assistOff c k) + 64 ≤ l →
    SMap.get 0#8 l t.mem = SMap.get 0#8 l s.mem ∧ t.oom.writes l = s.oom.writes l ∧ t.oom.home l = s.oom.home l

section
variable {s t u : State} {op c k : Nat}

theorem State.Frame.refl (s : State) (op c k : Nat) : s.Frame s op c k :=
  ⟨fun _ _ => rfl, fun _ _ => rfl, rfl, rfl, fun _ => rfl, fun _ => rfl, fun _ => rfl, fun _ => ⟨rfl, rfl, rfl⟩, fun _ _ => ⟨rfl, rfl, rfl⟩⟩

theorem State.Frame.trans (h : s.Frame t op c k) (g : t.Frame u op c k) : s.Frame u op c k where
  thr j hj := (g.thr j hj).trans (h.thr j hj)
  cores d hd := (g.cores d hd).trans (h.cores d hd)
  core := (congrArg (fun q : Core => { q with
    th := (s.core c).th, deque := (s.core c).deque, dqSlots := (s.core c).dqSlots }) g.core).trans h.core
  pkg := (congrArg (fun q : State => { q with
    cores := s.cores, clus := s.clus, mem := s.mem, objs := s.objs
    oom := { q.oom with fr := s.oom.fr, ws := s.oom.ws, hl := s.oom.hl } }) g.pkg).trans h.pkg
  clus ho := (g.clus ho).trans (h.clus ho)
  objs ho := (g.objs ho).trans (h.objs ho)
  obj oid := (congrArg (fun q : Obj => { q with ext := (s.obj oid).ext }) (g.obj oid)).trans (h.obj oid)
  mem ho := by
    obtain ⟨g1, g2, g3⟩ := g.mem ho
    obtain ⟨h1, h2, h3⟩ := h.mem ho
    exact ⟨g1.trans h1, g2.trans h2, g3.trans h3⟩
  byte l hl := by
    obtain ⟨g1, g2, g3⟩ := g.byte l hl
    obtain ⟨h1, h2, h3⟩ := h.byte l hl
    exact ⟨g1.trans h1, g2.trans h2, g3.trans h3⟩

/-- A change of the core in its threads and its deque alone. -/
theorem State.Frame.of_modCore (s : State) (op : Nat) {c k : Nat} {f : Core → Core} (ht : ∀ j, j ≠ k → (f (s.core c)).thread j = (s.core c).thread j)
    (hf : { f (s.core c) with th := (s.core c).th, deque := (s.core c).deque, dqSlots := (s.core c).dqSlots } = s.core c) :
    s.Frame (s.modCore c f) op c k where
  thr j hj := by simp [State.thr, ht j hj]
  cores d hd := by simp [hd]
  core := by simpa using hf
  pkg := rfl
  clus _ := rfl
  objs _ := rfl
  obj _ := rfl
  mem _ := ⟨rfl, rfl, rfl⟩
  byte _ _ := ⟨rfl, rfl, rfl⟩

/-- An update of the issuing thread. -/
theorem State.Frame.of_setThr (s : State) (op c k : Nat) (y : Thread) : s.Frame (s.setThr c k y) op c k :=
  .of_modCore s op (fun j hj => by simp [hj]) rfl

/-- A tile of a cluster claimed (R214). -/
theorem State.Frame.of_modClu (s : State) (c k cl : Nat) (f : Cluster → Cluster) : s.Frame (s.modClu cl f) 0xC4 c k where
  thr _ _ := rfl
  cores _ _ := rfl
  core := rfl
  pkg := rfl
  clus h := absurd rfl h
  objs _ := rfl
  obj _ := rfl
  mem _ := ⟨rfl, rfl, rfl⟩
  byte _ _ := ⟨rfl, rfl, rfl⟩

/-- Writes join an agent's view. -/
theorem State.Frame.of_saw (s : State) (op c k a : Nat) (ids : List Nat) : s.Frame (s.saw a ids) op c k :=
  ⟨fun _ _ => rfl, fun _ _ => rfl, rfl, rfl, fun _ => rfl, fun _ => rfl, fun _ => rfl, fun _ => ⟨rfl, rfl, rfl⟩, fun _ _ => ⟨rfl, rfl, rfl⟩⟩

/-- An access through an extent's station (R315). -/
theorem State.Frame.of_heat (s : State) {op : Nat} (h : op < 0x10) (c k a l : Nat) (w : Bool) : s.Frame (s.heat a l w) op c k := by
  obtain e | ⟨oid, x, v, e⟩ := s.heat_cases a l w
  · rw [e]; exact .refl ..
  · rw [e]
    refine ⟨fun _ _ => rfl, fun _ _ => rfl, rfl, rfl, fun _ => rfl, fun ho => absurd ho (by omega), fun i => ?_,
      fun _ => ⟨rfl, rfl, rfl⟩, fun _ _ => ⟨rfl, rfl, rfl⟩⟩
    by_cases hi : i = oid
    · subst hi; simp [State.setExtent]
    · simp [State.setExtent, hi]

/-- Bytes stored at other locations leave a byte of memory (R95). -/
theorem get_foldl_set_ne {l : Nat} (rows : List (Nat × Byte)) (h : ∀ r ∈ rows, r.1 ≠ l) (m : SMap Byte) :
    SMap.get 0#8 l (rows.foldl (fun m (x, b) => SMap.set 0#8 x b m) m) = SMap.get 0#8 l m := by
  induction rows generalizing m with
  | nil => rfl
  | cons r rows ih =>
    rw [List.foldl_cons, ih (fun q hq => h q (List.mem_cons_of_mem _ hq))]
    exact SMap.get_set_ne _ (h r List.mem_cons_self).symm _ _

/-- Entries dropped at other keys leave an entry of a map. -/
theorem SMap.get_filter_key {α : Type} (d : α) {k : Nat} {p : Nat → Bool} (hp : p k = true) (m : SMap α) :
    SMap.get d k (m.filter fun r => p r.1) = SMap.get d k m := by
  induction m with
  | nil => rfl
  | cons r m ih =>
    obtain ⟨j, v⟩ := r
    rw [List.filter_cons]
    by_cases hj : k = j
    · subst hj; simp [hp, SMap.get]
    · split <;> simp [SMap.get, hj, ih]

/-- An assist's record is written in its own place (R72, R73). -/
theorem State.Frame.of_assistRecord (s : State) {op : Nat} (ho : op / 16 = 8) (c k : Nat) {rec : List Byte} (hr : rec.length = 64) :
    s.Frame (s.assistRecord c k rec) op c k := by
  unfold State.assistRecord
  split
  · exact .refl ..
  · refine ⟨fun _ _ => rfl, fun _ _ => rfl, rfl, rfl, fun _ => rfl, fun _ => rfl, fun _ => rfl, fun h => absurd ho h, fun l hl => ⟨?_, ?_, ?_⟩⟩
    · refine get_foldl_set_ne _ (fun r hm => ?_) _
      have := (List.of_mem_zip hm).1
      simp only [locs, List.mem_map, List.mem_range] at this
      omega
    · simp only [State.poke, Oom.writes, List.filter_filter]
      refine List.filter_congr fun w _ => ?_
      by_cases hw : w.loc = l
      · subst hw; simp; omega
      · simp [hw]
    · exact SMap.get_filter_key 0 (p := fun x => !(locObj oidAssist (assistOff c k) ≤ x && x < locObj oidAssist (assistOff c k) + rec.length)) (by simp; omega) _

end

end Sys2Proof.Machine
end

section
/-! SUPPORT. What every body answers: its single-cycle results lie among those of R50, and its claims in the frame. -/

namespace Sys2Proof.Machine

open Sys2Proof.Spec

/-- The single-cycle results of an answer are those of its opcode, and what it claims lies in the frame and changes no
register of the thread (R50). -/
structure Out.Framed (op : Nat) (i : Iss) (r : Out) : Prop where
  g : ∀ w ∈ r.g, w.1 ∈ singleWrites op i.fm i.o
  p : ∀ w ∈ r.p, w.1 % 8 = 0 ∨ 16 + w.1 % 8 ∈ singleWrites op i.fm i.o
  claim : ∀ s1, r.st = some s1 → i.s.Frame s1 op i.c i.t
    ∧ (∀ n, (s1.thr i.c i.t).gv n = (i.s.thr i.c i.t).gv n) ∧ ∀ n, (s1.thr i.c i.t).pv n = (i.s.thr i.c i.t).pv n

/-- An answer to an instruction: framed, or an assist of row 8 with a record of 64 bytes. -/
def Try.Framed (op : Nat) (i : Iss) (m : Try Out) : Prop := m.Always (fun l => op / 16 = 8 ∧ l.length = 64) (Out.Framed op i)

section
variable {op : Nat} {i : Iss}

theorem Out.Quiet.framed {r : Out} (h : r.Quiet) : r.Framed op i := by
  obtain ⟨hg, hp, hs⟩ := h
  exact ⟨by simp [hg], by simp [hp], by simp [hs]⟩

theorem Try.Framed.of_quiet {m : Try Out} (h : m.Quiet) : m.Framed op i :=
  (h _).imp fun _ => Out.Quiet.framed

/-- A body of row 8. -/
theorem Try.Framed.of_float {m : Try Out} (ho : op / 16 = 8) (h : m.Always (fun l => l.length = 64) Out.Quiet) : m.Framed op i := by
  unfold Try.Framed
  cases m with
  | ok r => exact Out.Quiet.framed h
  | error e => cases e with
    | assist l => exact ⟨ho, h⟩
    | _ => trivial

/-- An answer that only writes registers. -/
theorem Out.Framed.of_writes {r : Out} (hg : ∀ w ∈ r.g, w.1 ∈ singleWrites op i.fm i.o)
    (hp : ∀ w ∈ r.p, w.1 % 8 = 0 ∨ 16 + w.1 % 8 ∈ singleWrites op i.fm i.o) (hs : r.st = none) : r.Framed op i :=
  ⟨hg, hp, by simp [hs]⟩

/-! ### Single-cycle results -/

/-- The single-cycle destination of an opcode is gD. -/
def writesG (op : Nat) : Prop := ∀ fm o, singleWrites op fm o = if o.d = 0 then [] else [o.d]

theorem Out.Framed.of_gd (h : writesG op) {r : Out} {v : Word} (hg : r.g = if i.o.d = 0 then [] else [(i.o.d, v)])
    (hp : r.p = []) (hs : r.st = none) : r.Framed op i := by
  refine .of_writes (fun w hw => ?_) (by simp [hp]) hs
  rw [hg] at hw
  rw [h]
  by_cases hd : i.o.d = 0 <;> simp_all

theorem framed_oneG (h : writesG op) (v : Word) : (oneG i v).Framed op i := Out.Framed.of_gd h rfl rfl rfl

/-- The single-cycle destination of an opcode is pD. -/
def writesP (op : Nat) : Prop := ∀ fm o, singleWrites op fm o = if o.d % 8 = 0 then [] else [16 + o.d % 8]

theorem framed_oneP (h : writesP op) (v : Bool) (rd : List Nat) : (oneP i v rd).Framed op i := by
  refine Out.Framed.of_writes (by simp) (fun w hw => ?_) rfl
  obtain rfl : w = (i.o.d, v) := List.mem_singleton.mp hw
  rw [h]
  by_cases hd : i.o.d % 8 = 0 <;> simp [hd]

theorem framed_trap (cause sub : Nat) (info : Word) : (trap cause sub info : Try Out).Framed op i := trivial

theorem framed_compare (h : writesP op) (b : Word) (m : Nat) : (compare i b m).Framed op i := by
  unfold compare
  extract_lets
  split <;> exact framed_oneP h _ _

theorem framed_pmove (h : writesG op) (d : Int) : (pmove i d).Framed op i := by
  unfold pmove
  split
  · exact framed_trap ..
  · exact framed_oneG h _

theorem framed_opGtop : (opGtop i).Framed 0x37 i := by
  refine Out.Framed.of_writes (by simp) (fun w hw => .inr ?_) rfl
  obtain ⟨n, hn, rfl⟩ := List.mem_map.mp hw
  have hlt : n < 8 := List.mem_range.mp (List.mem_filter.mp hn).1
  rw [Nat.mod_eq_of_lt hlt]
  exact List.mem_map.mpr ⟨n, hn, rfl⟩

theorem framed_opPmk : (opPmk i).Framed 0x38 i := by
  refine Try.always_ite.mpr ⟨fun _ => framed_trap .., fun _ => Try.always_ite.mpr ⟨fun _ => framed_trap .., fun _ => ?_⟩⟩
  exact framed_oneG (fun _ _ => rfl) _

theorem framed_opWidf : (opWidf i).Framed 0x74 i := by
  have wr : writesG 0x74 := fun _ _ => rfl
  unfold opWidf
  extract_lets
  split
  · exact Try.always_ite.mpr ⟨fun _ => framed_trap .., fun _ => framed_oneG wr _⟩
  · exact Try.always_ite.mpr ⟨fun _ => framed_trap .., fun _ => framed_oneG wr _⟩

/-! ### Claims -/

/-- A branch claims the fetch of its target's line (R106, R315). -/
theorem framed_jump (ho : op < 0x10) (p : Word) {r : Out} (hr : r.Framed op i) (hn : r.st = none) : (i.jump p r).Framed op i := by
  unfold Iss.jump
  refine Try.always_ite.mpr ⟨fun _ => framed_trap .., fun _ => ?_⟩
  split
  · exact framed_trap ..
  · trivial
  · exact ⟨by simp, hr.p, by simp [hn]⟩
  · next s1 l hf =>
    refine Try.always_ite.mpr ⟨fun _ => ⟨hr.g, hr.p, fun s2 hs => ?_⟩, fun _ => framed_trap ..⟩
    obtain rfl : s1 = s2 := Option.some.inj hs
    obtain ⟨fb, hx⟩ := State.fetch_thread hf
    refine ⟨?_, fun n => by rw [hx]; rfl, fun n => by rw [hx]; rfl⟩
    obtain ⟨_, rfl⟩ | ⟨_, ids, loc, rfl⟩ := State.fetch_line hf
    · exact .refl ..
    · exact ((State.Frame.of_saw ..).trans (.of_heat _ ho ..)).trans (.of_setThr ..)

theorem always_disp {A : List Byte → Prop} : i.disp.Always A fun _ => True := by
  unfold Iss.disp
  split <;> simp

theorem framed_opJmp : (opJmp i).Framed 0x01 i := .bind always_disp fun p => framed_jump (by decide) p (Out.Quiet.framed ⟨rfl, rfl, rfl⟩) rfl

theorem framed_branchIf (want : Bool) (ho : op < 0x10) : (branchIf want i).Framed op i := by
  refine .bind always_disp fun p => Try.always_ite.mpr ⟨fun _ => ?_, fun _ => ?_⟩
  · exact framed_jump ho p (Out.Quiet.framed ⟨rfl, rfl, rfl⟩) rfl
  · exact Out.Quiet.framed ⟨rfl, rfl, rfl⟩

theorem framed_opCall : (opCall i).Framed 0x04 i := by
  have target (p : Word) : (i.jump p { g := [(14, i.next)] }).Framed 0x04 i :=
    framed_jump (by decide) p (.of_writes (by simp [singleWrites]) (by simp) rfl) rfl
  exact Try.always_ite.mpr ⟨fun _ => .bind always_disp target, fun _ => target _⟩

theorem framed_opRet : (opRet i).Framed 0x05 i :=
  .bind (always_readG fun _ => trivial) fun p => framed_jump (by decide) _ (Out.Quiet.framed ⟨rfl, rfl, rfl⟩) rfl

theorem framed_opJr : (opJr i).Framed 0x06 i := framed_jump (by decide) _ (Out.Quiet.framed ⟨rfl, rfl, rfl⟩) rfl

theorem framed_opLoop : (opLoop i).Framed 0x07 i := by
  refine .bind (always_readG fun _ => trivial) fun v => Try.always_ite.mpr ⟨fun _ => ?_, fun _ => ?_⟩
  · exact Out.Quiet.framed ⟨rfl, rfl, rfl⟩
  · exact .bind always_disp fun p => framed_jump (by decide) p (Out.Quiet.framed ⟨rfl, rfl, rfl⟩) rfl

/-- A claim in the threads and the deque of the core. -/
theorem Out.Framed.of_claim {r : Out} (hg : r.g = []) (hp : r.p = []) {s1 : State} (hs : r.st = some s1) (hf : i.s.Frame s1 op i.c i.t)
    (hx : ∀ n, (s1.thr i.c i.t).gv n = (i.s.thr i.c i.t).gv n) (hy : ∀ n, (s1.thr i.c i.t).pv n = (i.s.thr i.c i.t).pv n) :
    r.Framed op i := by
  refine ⟨by simp [hg], by simp [hp], fun s2 h2 => ?_⟩
  obtain rfl : s1 = s2 := Option.some.inj (hs.symm.trans h2)
  exact ⟨hf, hx, hy⟩

theorem framed_opSbwait : (opSbwait i).Framed 0x5B i := by
  refine Try.always_ite.mpr ⟨fun _ => trivial, fun _ => ?_⟩
  refine Out.Framed.of_claim rfl rfl rfl ((State.Frame.of_saw ..).trans (.of_setThr ..)) (fun n => ?_) (fun n => ?_)
  · rw [State.modThr, State.setThr_thr, if_pos ⟨rfl, rfl⟩]; rfl
  · rw [State.modThr, State.setThr_thr, if_pos ⟨rfl, rfl⟩]; rfl

/-- A record read at issue, with a claim. -/
theorem framed_record (n a : Nat) (d : Dest) (e : Eff) {claim : State → State} (u : List Undo) (hf : i.s.Frame (claim i.s) op i.c i.t)
    (hx : (claim i.s).thr i.c i.t = i.s.thr i.c i.t) : (i.record n a d e claim u).Framed op i := by
  refine .bind (always_check fun _ => trivial) fun k => ?_
  split
  · exact Out.Quiet.framed ⟨rfl, rfl, rfl⟩
  · exact Out.Framed.of_claim rfl rfl rfl hf (fun n => by rw [hx]) (fun n => by rw [hx])

/-- A claim on the core's deque leaves its threads. -/
theorem framed_push : (push i).Framed op i := by
  refine Try.always_ite.mpr ⟨fun _ => framed_trap .., fun _ => framed_record _ _ _ _ _ (.of_modCore _ _ (fun _ _ => rfl) rfl) ?_⟩
  simp only [State.thr, State.modCore_core, if_true]
  rfl

theorem framed_opDqpop : (opDqpop i).Framed op i := by
  refine .bind (always_checkW fun _ => trivial) fun k => ?_
  split
  · exact Out.Quiet.framed ⟨rfl, rfl, rfl⟩
  split
  · exact Out.Quiet.framed ⟨rfl, rfl, rfl⟩
  · refine Out.Framed.of_claim rfl rfl rfl (.of_modCore _ _ (fun _ _ => rfl) rfl) (fun n => ?_) (fun n => ?_)
    · simp only [State.thr, State.modCore_core, if_true]; rfl
    · simp only [State.thr, State.modCore_core, if_true]; rfl

theorem framed_opGlnch : (opGlnch i).Framed op i := framed_record _ _ _ _ _ (.refl ..) rfl
theorem framed_opAttq : (opAttq i).Framed op i := framed_record _ _ _ _ _ (.refl ..) rfl

theorem framed_opTown : (opTown i).Framed 0xC4 i := by
  refine .bind (always_tileNo fun _ => trivial) fun n => Try.always_ite.mpr ⟨fun _ => ?_, fun _ => Try.always_ite.mpr ⟨fun _ => ?_, fun _ => ?_⟩⟩
  · exact .bind (always_mustOwn fun _ => trivial) fun _ => Out.Quiet.framed ⟨rfl, rfl, rfl⟩
  · exact Out.Framed.of_claim rfl rfl rfl (.of_modClu ..) (fun _ => rfl) (fun _ => rfl)
  · exact Out.Quiet.framed ⟨rfl, rfl, rfl⟩

end

section
variable {op : Nat} {i : Iss}

/-! ### Row by row -/

/-- The single-cycle integer operations of rows 1 and 2 write gD (R50). -/
theorem writesG_integer (h : (0x10 ≤ op ∧ op ≤ 0x14) ∨ (0x19 ≤ op ∧ op ≤ 0x2F)) : writesG op := by
  intro fm o
  unfold singleWrites
  rw [if_neg (by omega), if_pos h]

/-- PTOG and the pointer operations of row 3 write gD (R50). -/
theorem writesG_pointer (h : op = 0x36 ∨ (0x38 ≤ op ∧ op ≤ 0x3E)) : writesG op := by
  intro fm o
  unfold singleWrites
  repeat rw [if_neg (by omega)]
  rw [if_pos (by omega)]

/-- The compares and the predicate logic of row 3 write pD (R50). -/
theorem writesP_logic (h : 0x30 ≤ op ∧ op ≤ 0x35) : writesP op := by
  intro fm o
  unfold singleWrites
  repeat rw [if_neg (by omega)]
  rw [if_pos (by omega)]

theorem bodyOf_framed_0 (h : op < 0x10) : (bodyOf op i).Framed op i := by
  interval_cases op
  exacts [.of_quiet (opNop_quiet (i := i)), framed_opJmp, framed_branchIf true h, framed_branchIf false h, framed_opCall, framed_opRet,
    framed_opJr, framed_opLoop, .of_quiet (opYield_quiet (i := i)), .of_quiet (opTend_quiet (i := i)), .of_quiet opTrap_quiet,
    .of_quiet opSysc_quiet, .of_quiet (opIfence_quiet (i := i)), .of_quiet opWaitf_quiet,
    .of_quiet opBrk_quiet, Out.Quiet.framed ⟨rfl, rfl, rfl⟩]

theorem bodyOf_framed_1 (h : 0x10 ≤ op ∧ op < 0x20) : (bodyOf op i).Framed op i := by
  by_cases hd : 0x15 ≤ op ∧ op ≤ 0x18
  · obtain ⟨hl, hu⟩ := hd
    interval_cases op <;> exact .of_quiet divide_quiet
  · have hw : writesG op := writesG_integer (by omega)
    obtain ⟨hl, hu⟩ := h
    interval_cases op
    iterate 5 exact framed_oneG hw _
    iterate 4 exact absurd (by decide) hd
    iterate 7 exact framed_oneG hw _

theorem bodyOf_framed_2 (h : 0x20 ≤ op ∧ op < 0x30) : (bodyOf op i).Framed op i := by
  have hw : writesG op := writesG_integer (by omega)
  obtain ⟨hl, hu⟩ := h
  interval_cases op
  iterate 10 exact framed_oneG hw _
  · exact Out.Framed.of_gd hw rfl rfl rfl
  iterate 5 exact framed_oneG hw _

theorem bodyOf_framed_3 (h : 0x30 ≤ op ∧ op < 0x40) : (bodyOf op i).Framed op i := by
  obtain ⟨hl, hu⟩ := h
  interval_cases op
  iterate 2 exact framed_compare (writesP_logic (by decide)) _ _
  iterate 4 exact framed_oneP (writesP_logic (by decide)) _ _
  · exact Out.Framed.of_gd (writesG_pointer (by decide)) rfl rfl rfl
  · exact framed_opGtop
  · exact framed_opPmk
  iterate 2 exact framed_pmove (writesG_pointer (by decide)) _
  iterate 4 exact framed_oneG (writesG_pointer (by decide)) _
  · exact .of_quiet opPchk_quiet

theorem bodyOf_framed_4 (h : 0x40 ≤ op ∧ op < 0x50) : (bodyOf op i).Framed op i := by
  obtain ⟨hl, hu⟩ := h
  interval_cases op
  exacts [.of_quiet opLd_quiet, .of_quiet opLds_quiet, .of_quiet opSt_quiet, .of_quiet opLda_quiet,
    .of_quiet opStl_quiet, .of_quiet opLdt_quiet, .of_quiet opStt_quiet, .of_quiet opLdp_quiet,
    .of_quiet opStp_quiet, .of_quiet opLdx_quiet, .of_quiet opStx_quiet, Out.Quiet.framed ⟨rfl, rfl, rfl⟩,
    Out.Quiet.framed ⟨rfl, rfl, rfl⟩, Out.Quiet.framed ⟨rfl, rfl, rfl⟩, Out.Quiet.framed ⟨rfl, rfl, rfl⟩,
    Out.Quiet.framed ⟨rfl, rfl, rfl⟩]

theorem bodyOf_framed_5 (h : 0x50 ≤ op ∧ op < 0x60) : (bodyOf op i).Framed op i := by
  obtain ⟨hl, hu⟩ := h
  interval_cases op
  iterate 9 exact .of_quiet atomic_quiet
  · exact .of_quiet opFence_quiet
  · exact .of_quiet opTfence_quiet
  · exact framed_opSbwait
  iterate 4 exact Out.Quiet.framed ⟨rfl, rfl, rfl⟩

theorem bodyOf_framed_6 (h : 0x60 ≤ op ∧ op < 0x70) : (bodyOf op i).Framed op i := by
  obtain ⟨hl, hu⟩ := h
  interval_cases op
  exacts [.of_quiet opSend_quiet, .of_quiet opSendi_quiet, .of_quiet opEmpty_quiet, .of_quiet opMigr_quiet, .of_quiet opMigh_quiet,
    .of_quiet opRole_quiet, .of_quiet opRcast_quiet, .of_quiet opChmap_quiet, .of_quiet opMboxq_quiet, .of_quiet opPoisq_quiet,
    Out.Quiet.framed ⟨rfl, rfl, rfl⟩, Out.Quiet.framed ⟨rfl, rfl, rfl⟩, Out.Quiet.framed ⟨rfl, rfl, rfl⟩,
    Out.Quiet.framed ⟨rfl, rfl, rfl⟩, Out.Quiet.framed ⟨rfl, rfl, rfl⟩, Out.Quiet.framed ⟨rfl, rfl, rfl⟩]

theorem bodyOf_framed_7 (h : 0x70 ≤ op ∧ op < 0x80) : (bodyOf op i).Framed op i := by
  obtain ⟨hl, hu⟩ := h
  interval_cases op
  exacts [framed_push, framed_opDqpop, framed_push, framed_opGlnch, framed_opWidf, .of_quiet opBara_quiet, .of_quiet opBarw_quiet,
    .of_quiet opBar_quiet, .of_quiet opSltw_quiet, .of_quiet opSltr_quiet, .of_quiet opCbinit_quiet, .of_quiet opCbarr_quiet,
    .of_quiet opCbwait_quiet, .of_quiet opCbph_quiet, Out.Quiet.framed ⟨rfl, rfl, rfl⟩, Out.Quiet.framed ⟨rfl, rfl, rfl⟩]

theorem bodyOf_framed_8 (h : 0x80 ≤ op ∧ op < 0x90) : (bodyOf op i).Framed op i := by
  obtain ⟨hl, hu⟩ := h
  interval_cases op
  · exact .of_float (by decide) opFadd_quiet
  · exact .of_float (by decide) opFsub_quiet
  · exact .of_float (by decide) opFmul_quiet
  · exact .of_float (by decide) opFfma_quiet
  · exact .of_float (by decide) opFdiv_quiet
  · exact .of_float (by decide) opFsqrt_quiet
  · exact .of_float (by decide) opFmin_quiet
  · exact .of_float (by decide) opFmax_quiet
  · exact .of_quiet opFcmp_quiet
  · exact .of_float (by decide) opFcvt_quiet
  · exact .of_float (by decide) opFcls_quiet
  · exact .of_quiet opFtld_quiet
  · exact .of_quiet opEnc8_quiet
  · exact .of_float (by decide) opDec8_quiet
  iterate 2 exact Out.Quiet.framed ⟨rfl, rfl, rfl⟩

theorem bodyOf_framed_vec (h : 0x90 ≤ op ∧ op < 0xC0) : (bodyOf op i).Framed op i := by
  by_cases hv : op ≤ 0xBB ∧ op ≠ 0xB0 ∧ op ≠ 0xB1
  · rw [bodyOf_eq_vec ⟨h.1, hv⟩]
    exact .of_quiet vec_quiet
  · obtain rfl | rfl | hr : op = 0xB0 ∨ op = 0xB1 ∨ 0xBC ≤ op := by omega
    · exact .of_quiet opVclaim_quiet
    · exact .of_quiet (opVrel_quiet (i := i))
    · obtain ⟨_, hu⟩ := h
      interval_cases op <;> exact Out.Quiet.framed ⟨rfl, rfl, rfl⟩

theorem bodyOf_framed_c (h : 0xC0 ≤ op ∧ op < 0xD0) : (bodyOf op i).Framed op i := by
  obtain ⟨hl, hu⟩ := h
  interval_cases op
  exacts [.of_quiet opShld_quiet, .of_quiet opShst_quiet, .of_quiet opShset_quiet, .of_quiet opShget_quiet, framed_opTown,
    .of_quiet opTgive_quiet, .of_quiet opTtag_quiet, .of_quiet opCommand_quiet, .of_quiet opTqry_quiet, .of_quiet opQpush_quiet,
    .of_quiet opQpop_quiet, .of_quiet opQstat_quiet, Out.Quiet.framed ⟨rfl, rfl, rfl⟩, Out.Quiet.framed ⟨rfl, rfl, rfl⟩,
    Out.Quiet.framed ⟨rfl, rfl, rfl⟩, Out.Quiet.framed ⟨rfl, rfl, rfl⟩]

theorem bodyOf_framed_d (h : 0xD0 ≤ op ∧ op < 0xE0) : (bodyOf op i).Framed op i := by
  obtain ⟨hl, hu⟩ := h
  interval_cases op
  iterate 9 exact .of_quiet opCommand_quiet
  · exact .of_quiet opSpstat_quiet
  iterate 6 exact Out.Quiet.framed ⟨rfl, rfl, rfl⟩

theorem bodyOf_framed_e (h : 0xE0 ≤ op ∧ op < 0xF0) : (bodyOf op i).Framed op i := by
  obtain ⟨hl, hu⟩ := h
  interval_cases op
  iterate 2 exact .of_quiet opCommand_quiet
  · exact .of_quiet opLcancel_quiet
  · exact .of_quiet opLstat_quiet
  iterate 8 exact .of_quiet opCommand_quiet
  exacts [.of_quiet opCcwait_quiet, .of_quiet opCcrd_quiet, .of_quiet opCcset_quiet, .of_quiet opNstat_quiet]

theorem bodyOf_framed_f (h : 0xF0 ≤ op ∧ op < 0x100) : (bodyOf op i).Framed op i := by
  obtain ⟨hl, hu⟩ := h
  interval_cases op
  exacts [.of_quiet opWalk_quiet, .of_quiet opOpen_quiet, .of_quiet opClose_quiet, .of_quiet opBind_quiet, .of_quiet opUnbind_quiet,
    .of_quiet opRevoke_quiet, .of_quiet opCsrr_quiet, .of_quiet opCsrw_quiet, .of_quiet opTret_quiet, .of_quiet opPmack_quiet,
    .of_quiet opTshoot_quiet, .of_quiet opSstop_quiet, .of_quiet opPartw_quiet, .of_quiet (opHalt_quiet (i := i)), framed_opAttq,
    Out.Quiet.framed ⟨rfl, rfl, rfl⟩]

/-- Every opcode's body answers in the frame. -/
theorem bodyOf_framed (h : op < 0x100) : (bodyOf op i).Framed op i := by
  obtain h | h | h | h | h | h | h | h | h | h | h | h | h | h : op < 0x10 ∨ (0x10 ≤ op ∧ op < 0x20) ∨ (0x20 ≤ op ∧ op < 0x30)
      ∨ (0x30 ≤ op ∧ op < 0x40) ∨ (0x40 ≤ op ∧ op < 0x50) ∨ (0x50 ≤ op ∧ op < 0x60) ∨ (0x60 ≤ op ∧ op < 0x70)
      ∨ (0x70 ≤ op ∧ op < 0x80) ∨ (0x80 ≤ op ∧ op < 0x90) ∨ (0x90 ≤ op ∧ op < 0xC0) ∨ (0xC0 ≤ op ∧ op < 0xD0)
      ∨ (0xD0 ≤ op ∧ op < 0xE0) ∨ (0xE0 ≤ op ∧ op < 0xF0) ∨ (0xF0 ≤ op ∧ op < 0x100) := by omega
  exacts [bodyOf_framed_0 h, bodyOf_framed_1 h, bodyOf_framed_2 h, bodyOf_framed_3 h, bodyOf_framed_4 h, bodyOf_framed_5 h,
    bodyOf_framed_6 h, bodyOf_framed_7 h, bodyOf_framed_8 h, bodyOf_framed_vec h, bodyOf_framed_c h, bodyOf_framed_d h,
    bodyOf_framed_e h, bodyOf_framed_f h]

end

end Sys2Proof.Machine
end

section
/-! SUPPORT. The issue of an instruction in its frame, whatever comes of it. -/

namespace Sys2Proof.Machine

open Sys2Proof.Spec

/-- The opcode of an instruction fits its byte. -/
theorem view_op_lt {i : Instr} {op : Nat} {fm : Form} {o : Opnd} (h : i.view = some (op, fm, o)) : op < 0x100 := by
  cases i <;> cases h <;> decide

/-- What the state becomes of the answer of a body (R50 to R57). -/
def State.afterBody (s : State) (op : Nat) (fm : Form) (o : Opnd) : Try Out → State
  | .error (.park n) => s.opened.setThr s.curCore s.curThr (s.me.park n)
  | .error .hold => s.opened
  | .error (.assist rec) => (s.opened.assistRecord s.curCore s.curThr rec).setThr s.curCore s.curThr
      ((s.me.readBy op fm o).groupTrap 0x31 (if s.me.assist.isSome then 1 else 0) (assistPtr s.curCore s.curThr) o.s false)
  | .error (.trap cause sub info) => s.opened.setThr s.curCore s.curThr ((s.me.readBy op fm o).groupTrap cause sub info o.s false)
  | .ok r =>
    if s.me.grp.holdsSelf (selfUpdates op fm o r) then s.opened
    else if selfUpdates op fm o r && s.me.grp.blocked then s.opened.setThr s.curCore s.curThr s.me.cutHere
    else
      let s1 := r.st.getD s.opened
      s1.setThr s.curCore s.curThr ((s1.thr s.curCore s.curThr).accept (s1.core s.curCore) s.cyc (s.iss op fm o 0 0 0) r)

section
variable {s : State} {op : Nat} {fm : Form} {o : Opnd} {body : Iss → Try Out} {va vb vc : Word}

/-- An instruction that has passed the checks of R61 and has read its sources. -/
theorem issue_answer (hg : s.opened.gate s.curCore s.curThr op fm o = .go) (hr : s.me.groupRules op fm o = none)
    (hd : (s.me.duo && duoBarred op) = false) (hs : s.me.readSrcs op fm o = .ok (va, vb, vc)) :
    issue op fm o body s = .next (s.afterBody op fm o (body (s.iss op fm o va vb vc))) := by
  simp only [State.iss]
  simp only [State.me, State.opened] at hg hr hd hs
  simp only [issue, State.issue, State.me, State.opened, hg, hr, hd, hs]
  simp only [bind, Except.bind, Bool.false_eq_true, if_false]
  generalize body _ = m
  cases m with
  | ok r => rfl
  | error e => cases e <;> rfl

/-- An instruction whose sources cannot be read (R39, R40). -/
theorem issue_unread {e : NoGo} (hg : s.opened.gate s.curCore s.curThr op fm o = .go) (hr : s.me.groupRules op fm o = none)
    (hd : (s.me.duo && duoBarred op) = false) (hs : s.me.readSrcs op fm o = .error e) :
    issue op fm o body s = .next (s.afterBody op fm o (.error e)) := by
  rw [issue_source hg hr hd hs]
  cases e <;> rfl

/-- Reading sources ends in no assist. -/
theorem framed_readSrcs {x : Thread} {e : NoGo} {i : Iss} (hs : x.readSrcs op fm o = .error e) : Try.Framed op i (.error e) := by
  have h : (x.readSrcs op fm o).Always (fun _ => False) fun _ => True := by
    unfold Thread.readSrcs
    split <;> simp
  rw [hs] at h
  cases e with
  | assist l => exact h.elim
  | _ => trivial

/-- A restricted opcode in a duo copy (R138). -/
theorem issue_duo (hg : s.opened.gate s.curCore s.curThr op fm o = .go) (hr : s.me.groupRules op fm o = none)
    (hd : (s.me.duo && duoBarred op) = true) :
    ∃ t, issue op fm o body s = .next t ∧ s.Traps t 0x07 8 (lineOff s.me.pc) := by
  refine ⟨_, ?_, State.Traps.of_read s op fm o 0x07 8 (lineOff s.me.pc) o.s false⟩
  simp only [State.me, State.opened] at hg hr hd
  simp only [issue, State.issue, State.me, State.opened, hg, hr, hd]
  simp only [bind, Except.bind, if_true, trap]
end

/-! ### Registers and predicates of the issuing thread -/

/-- Writes at other places leave a place. -/
theorem lastWrite_of_ne {α : Type} {l : List (Nat × α)} {n : Nat} (h : ∀ w ∈ l, w.1 ≠ n) (old : α) : lastWrite l n old = old := by
  induction l generalizing old with
  | nil => rfl
  | cons w l ih =>
    rw [lastWrite, List.foldl_cons, if_neg (h w List.mem_cons_self)]
    exact ih (fun v hv => h v (List.mem_cons_of_mem _ hv)) old

/-- A thread with the g registers and the predicates that `x` has, places in `w` apart. -/
def Thread.KeepsBut (x y : Thread) (w : List Nat) : Prop :=
  (∀ n, n < 16 → n ∉ w → y.gv n = x.gv n) ∧ ∀ n, n < 8 → 16 + n ∉ w → y.pv n = x.pv n

section
variable {x y z : Thread} {w : List Nat}

theorem Thread.KeepsBut.of_eq (hg : ∀ n, y.gv n = x.gv n) (hp : ∀ n, y.pv n = x.pv n) : x.KeepsBut y w :=
  ⟨fun n _ _ => hg n, fun n _ _ => hp n⟩

theorem Thread.KeepsBut.trans (h : x.KeepsBut y w) (g : y.KeepsBut z w) : x.KeepsBut z w :=
  ⟨fun n hn hw => (g.1 n hn hw).trans (h.1 n hn hw), fun n hn hw => (g.2 n hn hw).trans (h.2 n hn hw)⟩

theorem Thread.KeepsBut.of_setGs {l : List (Nat × Word)} (h : ∀ v ∈ l, v.1 ∈ w) (x : Thread) : x.KeepsBut (x.setGs l) w := by
  refine ⟨fun n _ hw => ?_, fun n _ _ => Thread.setGs_pv ..⟩
  rw [Thread.setGs_gv]
  split
  · next h0 => simp [Thread.gv, h0]
  · exact lastWrite_of_ne (fun v hv (e : v.1 = n) => hw (e ▸ h v hv)) _

theorem Thread.KeepsBut.of_setPs {l : List (Nat × Bool)} (h : ∀ v ∈ l, v.1 % 8 = 0 ∨ 16 + v.1 % 8 ∈ w) (x : Thread) :
    x.KeepsBut (x.setPs l) w := by
  refine ⟨fun n _ _ => Thread.setPs_gv .., fun n hn hw => ?_⟩
  rw [Thread.setPs_pv _ _ _ hn]
  by_cases h0 : n = 0
  · subst h0; simp [Thread.pv]
  · rw [lastWrite_of_ne]
    · simp [h0]
    · intro v hv e
      obtain ⟨u, hu, rfl⟩ := List.mem_map.mp hv
      obtain hz | hz := h u hu
      · exact h0 (e.symm.trans hz)
      · exact hw (e ▸ hz)

/-- The turns that a subnormal costs touch no register. -/
theorem Thread.KeepsBut.of_loseTurns (b : Bool) (k : Core) (cyc t : Nat) (x : Thread) :
    x.KeepsBut (if b then x.loseTurns k cyc t else x) w := by
  have h := Thread.loseTurns_keeps x k cyc t b
  have hg (n : Nat) := congrArg (fun y => Thread.gv y n) h
  have hp (n : Nat) := congrArg (fun y => Thread.pv y n) h
  exact .of_eq hg hp

theorem Thread.KeepsBut.of_advance (s : Bool) (p : Word) (x : Thread) : x.KeepsBut (x.advance s p) w :=
  .of_eq (Thread.advance_gv x s p) (Thread.advance_pv x s p)

/-- An accepted instruction writes at once what its answer says. -/
theorem Thread.KeepsBut.of_accept {r : Out} (hg : ∀ v ∈ r.g, v.1 ∈ w) (hp : ∀ v ∈ r.p, v.1 % 8 = 0 ∨ 16 + v.1 % 8 ∈ w)
    (x : Thread) (k : Core) (cyc : Nat) (i : Iss) : x.KeepsBut (x.accept k cyc i r) w := by
  have seen : x.KeepsBut (x.seeMsgs (gRegs (srcRegs i.op i.fm i.o ++ r.rd))) w := .of_eq (Thread.seeMsgs_gv _ _) (Thread.seeMsgs_pv _ _)
  refine ((seen.trans (.of_setGs hg ((Thread.seeMsgs _ _).keepOld r.g))).trans (.of_setPs hp _)).trans ?_
  unfold Thread.accept
  extract_lets y0 y1 y2 y3 y4
  have h4 : y2.KeepsBut y4 w := .of_loseTurns r.lost k cyc i.t y3
  refine Thread.KeepsBut.trans h4 ?_
  clear_value y4
  split
  · exact .of_advance ..
  · extract_lets z
    split
    · exact .of_eq (fun _ => rfl) (fun _ => rfl)
    · exact .of_advance _ _ z

end

/-! ### The frame of an issue -/

section
variable {i : Instr} {s : State} {op : Nat} {fm : Form} {o : Opnd}

/-- The whole frame: that of the state, and the registers that the instruction does not write at once (R50). -/
def State.Issued (s t : State) (op : Nat) (fm : Form) (o : Opnd) : Prop :=
  s.Frame t op s.curCore s.curThr ∧ s.me.KeepsBut (t.thr s.curCore s.curThr) (singleWrites op fm o)

theorem State.Frame.of_onlyThread {t : State} {c k : Nat} (h : s.OnlyThread t c k) : s.Frame t op c k := by
  have hcore := congrArg (fun q : Core => { q with deque := (s.core c).deque, dqSlots := (s.core c).dqSlots }) h.core
  have hpkg := congrArg (fun q : State => { q with
    clus := s.clus, mem := s.mem, objs := s.objs
    oom := { q.oom with fr := s.oom.fr, ws := s.oom.ws, hl := s.oom.hl } }) h.rest
  have hclus := congrArg State.clus h.rest
  have hobjs := congrArg State.objs h.rest
  have hmem := congrArg State.mem h.rest
  have hoom := congrArg State.oom h.rest
  dsimp only at hclus hobjs hmem hoom
  exact ⟨h.threads, h.cores, hcore, hpkg, fun _ => hclus, fun _ => hobjs, fun oid => by rw [State.obj, State.obj, hobjs],
    fun _ => ⟨hmem, by rw [hoom], by rw [hoom]⟩, fun l _ => ⟨by rw [hmem], by rw [hoom], by rw [hoom]⟩⟩

theorem State.Issued.of_traps {t : State} {cause sub : Nat} {info : Word} (h : s.Traps t cause sub info) : s.Issued t op fm o :=
  ⟨.of_onlyThread h.frame, .of_eq h.regs h.preds⟩

/-- The issuing thread takes a new state, beside what the instruction has claimed. -/
theorem State.Issued.of_setThr {u : State} (hu : s.Frame u op s.curCore s.curThr) {y : Thread} (hy : s.me.KeepsBut y (singleWrites op fm o)) :
    s.Issued (u.setThr s.curCore s.curThr y) op fm o :=
  ⟨hu.trans (.of_setThr ..), by rw [State.setThr_thr, if_pos ⟨rfl, rfl⟩]; exact hy⟩

theorem State.Frame.of_opened (s : State) (op : Nat) : s.Frame s.opened op s.curCore s.curThr := .of_setThr ..

theorem State.Issued.of_opened : s.Issued s.opened op fm o := .of_setThr (.refl ..) (.of_eq (fun _ => rfl) (fun _ => rfl))

/-- A body that answers in the frame leaves the state in it. -/
theorem State.Issued.of_answer {j : Iss} (hs : j.s = s.opened) (hc : j.c = s.curCore) (ht : j.t = s.curThr) (hf : j.fm = fm) (ho : j.o = o)
    {m : Try Out} (hm : m.Framed op j) : s.Issued (s.afterBody op fm o m) op fm o := by
  have hx : s.opened.thr s.curCore s.curThr = s.me := by simp [State.opened]
  unfold State.afterBody
  cases m with
  | error e => cases e with
    | park n =>
      refine .of_setThr (.of_opened ..) ?_
      unfold Thread.park
      split <;> exact .of_eq (fun _ => rfl) (fun _ => rfl)
    | hold => exact .of_opened
    | assist rec =>
      exact .of_setThr ((State.Frame.of_opened ..).trans (.of_assistRecord _ hm.1 _ _ hm.2))
        (.of_eq (fun _ => Thread.groupTrap_gv ..) (fun _ => Thread.groupTrap_pv ..))
    | trap cause sub info =>
      exact .of_setThr (.of_opened ..) (.of_eq (fun _ => Thread.groupTrap_gv ..) (fun _ => Thread.groupTrap_pv ..))
  | ok r =>
    obtain ⟨hg, hp, hst⟩ := hm
    rw [hs, hc, ht] at hst
    rw [hf, ho] at hg hp
    dsimp only
    split
    · exact .of_opened
    split
    · exact .of_setThr (.of_opened ..) (.of_eq (fun _ => rfl) (fun _ => rfl))
    cases h1 : r.st with
    | none => exact .of_setThr (.of_opened ..) (by rw [Option.getD_none, hx]; exact .of_accept hg hp ..)
    | some s1 =>
      obtain ⟨hfr, h2, h3⟩ := hst s1 h1
      rw [hx] at h2 h3
      exact .of_setThr ((State.Frame.of_opened ..).trans hfr) ((Thread.KeepsBut.of_eq h2 h3).trans (.of_accept hg hp ..))

/-- Whatever comes of its issue, an instruction stays in its frame: a refusal by a check, a source that cannot be read, or
the answer of its body. -/
theorem exec_issued (hv : i.view = some (op, fm, o)) {t : State} (ht : exec i s = .next t) : s.Issued t op fm o := by
  have keep {u : State} (hu : exec i s = .next u) (h : s.Issued u op fm o) : s.Issued t op fm o := by
    rw [ht] at hu
    obtain rfl := (Host.Outcome.next.injEq ..).mp hu
    exact h
  rw [exec_issue hv s] at keep
  cases hg : s.opened.gate s.curCore s.curThr op fm o with
  | trap cause sub info =>
    obtain ⟨u, hu, hx⟩ := issue_gate (body := bodyOf op) hg
    exact keep hu (.of_traps hx)
  | skip => exact keep (issue_skip hg) (.of_setThr (.of_opened ..) (.of_advance ..))
  | go =>
    cases hr : s.me.groupRules op fm o with
    | some r =>
      obtain ⟨cause, sub, info, l⟩ := r
      obtain ⟨u, hu, hx⟩ := issue_rules (body := bodyOf op) hg hr
      exact keep hu (.of_traps hx)
    | none =>
      cases hd : s.me.duo && duoBarred op with
      | true =>
        obtain ⟨u, hu, hx⟩ := issue_duo (body := bodyOf op) hg hr hd
        exact keep hu (.of_traps hx)
      | false =>
        cases hs : s.me.readSrcs op fm o with
        | error e => exact keep (issue_unread hg hr hd hs) (.of_answer (j := s.iss op fm o 0 0 0) rfl rfl rfl rfl rfl (framed_readSrcs hs))
        | ok v =>
          obtain ⟨va, vb, vc⟩ := v
          have hb : (bodyOf op (s.iss op fm o va vb vc)).Framed op (s.iss op fm o va vb vc) := bodyOf_framed (view_op_lt hv)
          generalize hm : bodyOf op (s.iss op fm o va vb vc) = m at hb
          refine keep ((issue_answer hg hr hd hs).trans ?_) (.of_answer rfl rfl rfl rfl rfl hb)
          rw [hm]
          rfl
/-- Settles O44: the frame of an issue, clause by clause. -/
theorem issueFrame : Obligations.IssueFrame := by
  unfold Obligations.IssueFrame
  intro i s t op fm o hv ht
  obtain ⟨hf, hg, hp⟩ := exec_issued hv ht
  exact ⟨hg, hp, hf.thr, hf.cores, hf.core, hf.pkg, hf.clus, hf.objs, hf.obj, hf.mem, hf.byte⟩

end

end Sys2Proof.Machine
end

section
/-! SUPPORT. The limits of a group (R51 to R53), sources that cannot be read (R38 to R40), and the control and status
registers (R252 to R254). -/

namespace Sys2Proof.Machine

open Sys2Proof.Spec

section
variable {i : Instr} {s : State} {op : Nat} {fm : Form} {o : Opnd} {cause sub : Nat} {info : Word}

/-! ### Check 8 of R61 -/

/-- A trap of check 8, for the instruction. -/
theorem exec_rules_trap {l : Bool} (hv : i.view = some (op, fm, o)) (hg : s.opened.gate s.curCore s.curThr op fm o = .go)
    (hr : s.me.groupRules op fm o = some (cause, sub, info, l)) : Trapped i s cause sub info := by
  obtain ⟨t, h1, h2⟩ := issue_rules (body := bodyOf op) hg hr
  exact ⟨t, (exec_issue hv s).trans h1, h2⟩

/-- The registers that a single-cycle result of a group may not overwrite (R53). -/
def Thread.heldReg (x : Thread) (o : Opnd) (r : Nat) : Bool :=
  x.grp.rd.contains r || x.grp.marks.any (fun m => m.2 == r) || (marksOf o).contains r

theorem Thread.groupRules_eq (x : Thread) : x.groupRules op fm o =
    if x.grp.n ≥ 32 then some (0x0C, 0, lineOff x.pc, true)
    else if x.grp.nb + (costs op fm o).1 + (marksOf o).length > 16 then some (0x0D, 1, lineOff x.pc, true)
    else if x.grp.nr + (costs op fm o).2 > 8 then some (0x0D, 2, lineOff x.pc, true)
    else if mustEnd op && !o.s then some (0x05, 0, lineOff x.pc, false)
    else ((singleWrites op fm o).find? (x.heldReg o)).map fun r => (0x04, 0, BitVec.ofNat 64 r, false) := by
  generalize hq : (singleWrites op fm o).find? (x.heldReg o) = q
  have hq' : (singleWrites op fm o).find? (fun r =>
      x.grp.rd.contains r || x.grp.marks.any (fun m => m.2 == r) || (marksOf o).contains r) = q := hq
  simp only [Thread.groupRules, hq']
  cases q <;> rfl

/-- Settles O42: the limits in their order, then the registers that the group has read, then the duo restriction. -/
theorem groupLimits : Obligations.GroupLimits := by
  unfold Obligations.GroupLimits
  intro i s op fm o hv hg
  have rules := Thread.groupRules_eq (op := op) (fm := fm) (o := o) s.me
  refine ⟨fun h => exec_rules_trap hv hg (rules.trans (if_pos h)), fun hn => ?_⟩
  rw [if_neg (Nat.not_le.mpr hn)] at rules
  refine ⟨fun h => exec_rules_trap hv hg (rules.trans (if_pos h)), fun hb => ?_⟩
  rw [if_neg (Nat.not_lt.mpr hb)] at rules
  refine ⟨fun h => exec_rules_trap hv hg (rules.trans (if_pos h)), fun hr => ?_⟩
  rw [if_neg (Nat.not_lt.mpr hr)] at rules
  refine ⟨fun he hs => exec_rules_trap hv hg (rules.trans (if_pos (by simp [he, hs]))), fun he => ?_⟩
  rw [if_neg (by obtain h | h := he <;> simp [h])] at rules
  refine ⟨fun r hw hr => ?_, fun hw hd hb => ?_⟩
  · have held : s.me.heldReg o r = true := by obtain h | h := hr <;> simp [Thread.heldReg, h]
    exact exec_rules_trap (l := false) hv hg (rules.trans (by simp [hw, held]))
  · have free : (singleWrites op fm o).find? (s.me.heldReg o) = none := by
      refine List.find?_eq_none.mpr fun r hr => ?_
      obtain ⟨h1, h2, h3⟩ := hw r hr
      simpa [Thread.heldReg, h1, h2] using fun p hp => h3 (p, r) hp rfl
    rw [free] at rules
    obtain ⟨t, h1, h2⟩ := issue_duo (body := bodyOf op) hg rules (by simp [hd, hb])
    exact ⟨t, (exec_issue hv s).trans h1, h2⟩

/-! ### Sources that cannot be read -/

/-- A g source in field A that cannot be read stops the reading of the sources (R46). -/
theorem readSrcs_error {x : Thread} {e : NoGo} (ha : (opInfo op fm).any (fun k => k.a == .g) = true) (h : x.readG o.a = .error e) :
    x.readSrcs op fm o = .error e := by
  unfold Thread.readSrcs
  cases hk : opInfo op fm with
  | none => simp [hk] at ha
  | some k =>
    have hg : (k.a == .g) = true := by simpa [hk] using ha
    simp only [hg, if_true, h]
    rfl

/-- An instruction whose source traps. -/
theorem exec_source_trap (hv : i.view = some (op, fm, o)) (hg : s.opened.gate s.curCore s.curThr op fm o = .go)
    (hr : s.me.groupRules op fm o = none) (hd : (s.me.duo && duoBarred op) = false)
    (hs : s.me.readSrcs op fm o = .error (.trap cause sub info)) : Trapped i s cause sub info :=
  ⟨_, (exec_issue hv s).trans (issue_source hg hr hd hs), State.Traps.of_read ..⟩

/-- What a g source answers outside a pair (R39, R40). -/
theorem readG_eq {x : Thread} {n : Nat} (h0 : n ≠ 0) (hs : x.snap = none) : x.readG n =
    if !x.isFull n then (if x.isDue n then trap 0x46 0 (BitVec.ofNat 64 n) else .error (.park (0x01 + 256 * n)))
    else if x.isPoison n then trap 0x40 0 (BitVec.ofNat 64 n)
    else .ok (x.inGroup n) := by
  simp only [Thread.readG, Thread.src, hs, h0, if_false]

/-- Settles O43: the reading of field A answers a park or a trap. -/
theorem sourcesMustBeFull : Obligations.SourcesMustBeFull := by
  unfold Obligations.SourcesMustBeFull
  intro i s op fm o hv hg hr hd ha h0 hs
  have read := readG_eq h0 hs
  refine ⟨fun hf hdue hst => ?_, fun hf hdue => ?_, fun hf hp => ?_⟩
  · have hpark : s.me.readG o.a = .error (.park (0x01 + 256 * o.a)) := by simp [read, hf, hdue]
    rw [exec_issue hv s, issue_source hg hr hd (readSrcs_error ha hpark)]
    have hreg : (0x01 + 256 * o.a) / 256 = o.a := by omega
    have hrsn : (0x01 + 256 * o.a) % 256 = 0x01 := by omega
    simp only [Thread.park, hst, if_false, hreg, hrsn]
  · have ht : s.me.readG o.a = trap 0x46 0 (BitVec.ofNat 64 o.a) := by simp [read, hf, hdue]
    exact exec_source_trap hv hg hr hd (readSrcs_error ha ht)
  · have ht : s.me.readG o.a = trap 0x40 0 (BitVec.ofNat 64 o.a) := by simp [read, hf, hp]
    exact exec_source_trap hv hg hr hd (readSrcs_error ha ht)

end

/-! ### Control and status registers -/

section
variable {s : State} {n : Nat}

/-- A register of the table of R253 reads as something. -/
theorem csr_isSome (s : State) (c t : Nat) (h : n < 16) : ∃ v, s.csr c t n = some v := by
  interval_cases n <;> exact ⟨_, rfl⟩

theorem csr_none (s : State) (c t : Nat) (h : 16 ≤ n) : s.csr c t n = none := by
  unfold State.csr
  split
  iterate 16 omega
  rfl

/-- Opening a group leaves the core but for its threads. -/
theorem State.opened_core (s : State) : { s.opened.core s.curCore with th := (s.core s.curCore).th } = s.core s.curCore :=
  State.setThr_core_rest ..

theorem State.opened_logical (s : State) : s.opened.logical s.curCore = s.logical s.curCore := by
  simp only [State.logical, State.opened_ptag]
  rfl

/-- What the registers of R253 hold for the issuing thread. -/
theorem csr_values (s : State) {v : Word} (h : s.opened.csr s.curCore s.curThr n = some v) :
    let k := s.core s.curCore
    let x := s.me
    (n = 0 → v = BitVec.ofNat 64
        (x.lcause % 256 * 2 ^ 24 + (if x.st = 2 then x.prsn else 0) * 2 ^ 16 + (if x.duo = true then 8 else 0) + x.st))
    ∧ (n = 1 → v = BitVec.ofNat 64 s.dtime) ∧ (n = 2 → v = BitVec.ofNat 64 s.cyc)
    ∧ (n = 3 → v = BitVec.ofNat 64 ((s.ctx x.ctx).dom * 2 + if k.am = true then 1 else 0))
    ∧ (n = 4 → v = k.frm) ∧ (n = 5 → v = k.fxf) ∧ (n = 6 → v = k.vxf) ∧ (n = 7 → v = k.vxe)
    ∧ (n = 8 → v = BitVec.ofNat 64 (s.ctx x.ctx).pmver) ∧ (n = 9 → v = BitVec.ofNat 64 s.wswin)
    ∧ (n = 10 → v.toNat = x.ctx % 2 ^ 12) ∧ (n = 11 → v = BitVec.ofNat 64 k.ptag)
    ∧ (n = 12 → v = BitVec.ofNat 64 (s.logical s.curCore)) ∧ (n = 13 → v = BitVec.ofNat 64 (s.curCore * 2 ^ 16 + s.curThr))
    ∧ (n = 14 → v.toNat = (s.clu (clusterOf s.curCore)).rctmo.toNat) ∧ (n = 15 → v = s.gage) := by
  have core {α : Type} (f : Core → α) (hf : ∀ q : Core, f { q with th := (s.core s.curCore).th } = f q) :
      f (s.opened.core s.curCore) = f (s.core s.curCore) := by
    rw [← hf, s.opened_core]
  have hx : (s.opened.core s.curCore).thread s.curThr = s.me := s.opened_thr
  have ham := core Core.am fun _ => rfl
  have hfrm := core Core.frm fun _ => rfl
  have hfxf := core Core.fxf fun _ => rfl
  have hvxf := core Core.vxf fun _ => rfl
  have hvxe := core Core.vxe fun _ => rfl
  have hptag := s.opened_ptag
  have hlog := s.opened_logical
  have get {w : Word} (hw : s.opened.csr s.curCore s.curThr n = some w) : v = w := Option.some.inj (h.symm.trans hw)
  refine ⟨?_, ?_, ?_, ?_, ?_, ?_, ?_, ?_, ?_, ?_, ?_, ?_, ?_, ?_, ?_, ?_⟩ <;> rintro rfl <;> rw [get rfl]
  · rw [hx]
    cases s.me.duo <;> rfl
  · rfl
  · rfl
  · rw [hx, ham]
    cases (s.core s.curCore).am <;> rfl
  · exact hfrm
  · exact hfxf
  · exact hvxf
  · exact hvxe
  · rw [hx]
    rfl
  · rfl
  · rw [hx, BitVec.toNat_ofNat]
    exact Nat.mod_eq_of_lt (by omega)
  · rw [hptag]
  · rw [hlog]
  · exact BitVec.toNat_setWidth_of_le (by decide)
  · rfl

/-! #### The bodies of CSRR and CSRW -/

section
variable {op : Nat} {fm : Form} {o : Opnd} {va vb vc v : Word} {mask : Nat}

theorem opCsrr_some (h : s.opened.csr s.curCore s.curThr (o.m % 1024) = some v) :
    opCsrr (s.iss op fm o va vb vc) = longG (s.iss op fm o va vb vc) v := by
  simp only [opCsrr, State.iss, h]

theorem opCsrr_none (h : s.opened.csr s.curCore s.curThr (o.m % 1024) = none) :
    opCsrr (s.iss op fm o va vb vc) = trap 0x07 12 (lineOff s.me.pc) := by
  simp only [opCsrr, State.iss, h]

theorem opCsrw_none (h : s.opened.csr s.curCore s.curThr (o.m % 1024) = none) :
    opCsrw (s.iss op fm o va vb vc) = trap 0x07 12 (lineOff s.me.pc) := by
  simp only [opCsrw, State.iss, h, Option.isNone_none, if_true]

theorem opCsrw_some (h : s.opened.csr s.curCore s.curThr (o.m % 1024) = some v) :
    opCsrw (s.iss op fm o va vb vc) = match s.opened.csrMask s.curCore s.curThr (o.m % 1024) with
      | none => trap 0x06 4 (lineOff s.me.pc)
      | some mask =>
        if (va &&& ~~~ BitVec.ofNat 64 (csrKnown (o.m % 1024) mask)) ≠ 0 then trap 0x07 0 (lineOff s.me.pc)
        else .ok (defers { op := 0xF7, m := o.m, va := va &&& BitVec.ofNat 64 mask, vb := BitVec.ofNat 64 mask }) := by
  simp only [opCsrw, State.iss, h, Option.isNone_some, Bool.false_eq_true, if_false]
  cases s.opened.csrMask s.curCore s.curThr (o.m % 1024) <;> rfl

end

/-- Settles O40: the bodies of CSRR and CSRW, and what the registers hold. -/
theorem csrAccess : Obligations.CsrAccess := by
  unfold Obligations.CsrAccess
  intro i s op fm o a b c hv hr n k x
  refine ⟨?_, ?_, ?_⟩
  · rintro (rfl | rfl) hn
    · exact exec_traps hv hr (opCsrr_none (csr_none _ _ _ hn))
    · exact exec_traps hv hr (opCsrw_none (csr_none _ _ _ hn))
  · rintro rfl hn
    obtain ⟨v, hcsr⟩ := csr_isSome s.opened s.curCore s.curThr hn
    exact ⟨v, exec_does hv hr (opCsrr_some hcsr) rfl rfl (Out.keepsReads_of_rd rfl _ _ _) rfl
      ⟨rfl, rfl, rfl, rfl, rfl, rfl, rfl, rfl, rfl, rfl, rfl⟩, csr_values s hcsr⟩
  · rintro rfl hn
    obtain ⟨v, hcsr⟩ := csr_isSome s.opened s.curCore s.curThr hn
    refine ⟨fun hm => exec_traps hv hr ((opCsrw_some hcsr).trans (by rw [hm]; rfl)), fun mask hm => ⟨fun ha => ?_, fun ha => ?_⟩⟩
    · exact exec_traps hv hr ((opCsrw_some hcsr).trans (by rw [hm]; exact if_pos ha))
    · exact exec_does hv hr ((opCsrw_some hcsr).trans (by rw [hm]; exact if_neg (not_not_intro ha))) rfl rfl
        (Out.keepsReads_of_rd rfl _ _ _) rfl ⟨rfl, rfl, rfl, rfl, rfl, rfl, rfl, rfl, rfl, rfl, rfl⟩

end

end Sys2Proof.Machine
end

section
/-! SUPPORT. A step of the schedule (R34, R37, R41, R42), and the state at reset (R35, R66 to R69, R161, R213, R253, R254). -/

namespace Sys2Proof.Machine

open Sys2Proof.Spec

/-! ### The step around an instruction -/

section
variable {ex : Exec} {s s1 s2 : State} {c t : Nat} {k : Core} {line : List Byte} {j : Nat} {e : Enc} {i : Instr}

/-- An event of the schedule, while the package has power. -/
theorem State.move_event {a : Sched} {rest : List Sched} (h : s.agenda = a :: rest) (ha : a.act = .ev i) (ho : s.off = false)
    (hc : s.cut = false) : s.move ex = ex i (({ s with agenda := rest } : State).begins a) := by
  simp only [State.move, h, ha, ho, hc, Bool.false_and, Bool.or_self, Bool.false_eq_true, if_false]

/-- A core's turn in the schedule, while the package has power. -/
theorem State.move_turn {a : Sched} {rest : List Sched} (h : s.agenda = a :: rest) (ha : a.act = .turn c) (ho : s.off = false)
    (hc : s.cut = false) : s.move ex = (({ s with agenda := rest } : State).begins a).turn ex c := by
  simp only [State.move, h, ha, ho, hc, Bool.false_and, Bool.or_self, Bool.false_eq_true, if_false]

/-- What a turn leaves of the outcome of its thread's issue: a thread that has parked on an empty register takes the time
(R163). -/
def dried (c t : Nat) : Host.Outcome State Fault Refusal → Host.Outcome State Fault Refusal
  | .next u => .next (u.markDry c t)
  | r => r

/-- A turn whose entry names a thread. -/
theorem State.turn_some (hstop : s.stopReached c = false) (hseal : (s.core c).isSealed = false) (hhalt : (s.core c).halted = false)
    (hpos : (s.core c).pos < 32) (hk : s.turnOf c = (k, some t)) :
    s.turn ex c = dried c t ((s.setCore c (k.passTurn s.cyc (some t))).issueThread ex c t) := by
  simp only [State.turn, hstop, hseal, hhalt, Nat.not_le.mpr hpos, hk, Bool.or_self, Bool.false_eq_true, if_false]
  generalize (s.setCore c (k.passTurn s.cyc (some t))).issueThread ex c t = r
  cases r <;> rfl

/-- A thread that finds an unpaired head runs what the head decodes to. -/
theorem State.issueThread_found (hs : s.seek c t 64 = .found s2 line j) (he : encAt line j = some e) (hp : nb e.head 14 = false)
    (hd : decode e.head e.tail = .ok i) : s.issueThread ex c t = ex i { s2 with curCore := c, curThr := t } := by
  simp only [State.issueThread, hs, State.runAt, he, hp, Bool.not_false, Bool.true_or, if_true, State.runHead, hd]

end

/-- Settles O45: the schedule's entry, the turn of its core, and the head that the turn's thread finds. -/
theorem stepRunsDecodedInstruction : Obligations.StepRunsDecodedInstruction := by
  unfold Obligations.StepRunsDecodedInstruction
  refine ⟨fun s a rest i ha hi ho hc => ?_, ?_⟩
  · exact State.move_event ha hi ho hc
  · rintro s s1 s2 a rest c t k line j e i ha hact ho hc rfl hstop hseal hhalt hpos hk hs he hp hd
    rw [step, State.move_turn ha hact ho hc, State.turn_some hstop hseal hhalt hpos hk, State.issueThread_found hs he hp hd]
    generalize exec i _ = r
    cases r <;> rfl

/-! ### Reset -/

/-- A thread at reset is one that nothing has changed. -/
theorem reset_thr (c t : Nat) : State.reset.thr c t = {} := rfl

/-- Settles O46: nothing is listed at reset, so every unit is at its default. -/
theorem resetState : Obligations.ResetState := by
  unfold Obligations.ResetState
  refine ⟨fun c t => ⟨rfl, fun n => ?_, fun n hn => ?_, fun n => ?_, rfl, rfl⟩,
    fun c => ⟨fun k hk => ?_, rfl, rfl, rfl, rfl, rfl, rfl, rfl, rfl⟩,
    fun cl n => ⟨rfl, rfl, rfl⟩, rfl, rfl, ?_, fun q => rfl, fun n => rfl, fun l => rfl⟩
  · rw [reset_thr]
    unfold Thread.gv
    split <;> rfl
  · rw [reset_thr]
    interval_cases n <;> rfl
  · rw [reset_thr]
    simp [Thread.isPoison]
  · change slotsReset[k]? = _
    simp [slotsReset, hk]
  · decide

end Sys2Proof.Machine
end

section
/-! SUPPORT. Partitions, stops, saves and firmware (R58, R256, R367 to R374, R380, R381, R397): what each event leaves. -/

namespace Sys2Proof.Machine

open Sys2Proof.Spec

/-- What no step of a fold changes is the same after it. -/
theorem foldl_same {σ α β : Type} (p : σ → β) {f : σ → α → σ} (h : ∀ s a, p (f s a) = p s) (l : List α) (s : σ) :
    p (l.foldl f s) = p s :=
  List.foldlRecOn (motive := fun u => p u = p s) l f rfl fun b hb a _ => (h b a).trans hb

/-- What one step of a fold brings about, and the others keep, holds after it. -/
theorem foldl_brings {σ α : Type} (P : σ → Prop) {f : σ → α → σ} (keep : ∀ s a, P s → P (f s a)) {l : List α} {a : α} (ha : a ∈ l)
    (bring : ∀ s, P (f s a)) (s : σ) : P (l.foldl f s) := by
  induction l generalizing s with
  | nil => cases ha
  | cons b l ih =>
    rcases List.mem_cons.mp ha with rfl | h
    · exact List.foldlRecOn (motive := P) l f (bring s) fun u hu b _ => keep u b hu
    · exact ih h _

section
variable (s : State)

@[simp] theorem State.answerSup_part (r : SupReq) (n i : Nat) : (s.answerSup r n).part i = s.part i := rfl

@[simp] theorem State.answerSup_restorable (r : SupReq) (n : Nat) : (s.answerSup r n).restorable = s.restorable := rfl

@[simp] theorem State.answerSup_deferred (r : SupReq) (n : Nat) : (s.answerSup r n).deferred = s.deferred := rfl

@[simp] theorem State.answerSup_supRing (r : SupReq) (n : Nat) :
    (s.answerSup r n).supRing = s.supRing ++ [r.unit.set 1 (BitVec.ofNat 8 n)] := rfl

/-! ### Cores that start or stop issuing -/

/-- Every core of a list starts, or stops, issuing. -/
theorem foldl_stopped {α : Type} (l : List α) (core : α → Nat) (b : Bool) {a : α} (ha : a ∈ l) :
    ((l.foldl (fun st q => st.modCore (core q) fun w => { w with stopped := b }) s).core (core a)).stopped = b := by
  refine foldl_brings (P := fun st => (st.core (core a)).stopped = b) (fun st q h => ?_) ha (fun st => ?_) s
  · simp only [State.modCore_core]
    split
    · rfl
    · exact h
  · simp only [State.modCore_core, if_true]

/-- Starting or stopping cores changes nothing else. -/
theorem foldl_stopped_rest {α β : Type} (p : State → β) (h : ∀ (s : State) c f, p (s.modCore c f) = p s) (l : List α) (core : α → Nat)
    (b : Bool) : p (l.foldl (fun st q => st.modCore (core q) fun w => { w with stopped := b }) s) = p s :=
  foldl_same p (fun st _ => h st ..) l s

/-! ### Set-up and removal (R368) -/

@[simp] theorem State.partw_supRing (tag name phys : Nat) (v : Bool) : (s.partw tag name phys v).supRing = s.supRing := by
  simp only [State.partw]
  split <;> split <;> rfl

@[simp] theorem State.mapAll_supRing (tag : Nat) (l : List (Nat × Nat)) : (s.mapAll tag l).supRing = s.supRing :=
  foldl_same State.supRing (fun st (p : Nat × Nat) => State.partw_supRing st tag p.1 p.2 true) l s

/-- What a set-up leaves in the partition's record, and what its answer adds to the ring. -/
theorem State.setShares_part (r : SupReq) (names : List Nat) : (s.setShares r names).part r.tag
    = { s.part r.tag with
        alive := true, ctx := r.ctx, weight := r.flags, vats := r.vats, trees := r.trees, slice := r.slice, save := r.save
        names := names, pending := none, want := []
        turn := if (s.part r.tag).alive then (s.part r.tag).turn else s.lastTurn + 1 } := by
  simp [State.setShares]

@[simp] theorem State.setShares_supRing (r : SupReq) (names : List Nat) : (s.setShares r names).supRing = s.supRing := rfl

theorem State.dropPart_part (tag : Nat) : (s.dropPart tag).part tag = {} := by
  simp only [State.dropPart, State.modCtx_part]
  exact SMap.get_set_self ..

/-- A removal with nothing left to wait for is carried out. -/
theorem State.settlePending_removal {tag : Nat} {r : SupReq} (hp : (s.part tag).pending = some r) (hr : r.op = 2)
    (hb : s.busyPart tag = false) : s.settlePending tag = s.dropPart tag := by
  simp [State.settlePending, hp, hr, hb]

theorem State.settlePending_none {tag : Nat} (hp : (s.part tag).pending = none) : s.settlePending tag = s := by
  simp [State.settlePending, hp]

/-! ### Firmware (R381) -/

@[simp] theorem State.measure_supRing (i : Nat) (x : List Byte) : (s.measure i x).supRing = s.supRing := rfl

@[simp] theorem State.loadImage_supRing (i : Nat) (x : List Byte) : (s.loadImage i x).supRing = s.supRing := by
  simp only [State.loadImage, State.measure_supRing]

@[simp] theorem State.newFirmware_restorable (vers : List Nat) (img : List (List Byte)) : (s.newFirmware vers img).restorable = vers := rfl
@[simp] theorem State.newFirmware_deferred (vers : List Nat) (img : List (List Byte)) : (s.newFirmware vers img).deferred = none := rfl
@[simp] theorem State.newFirmware_supRing (vers : List Nat) (img : List (List Byte)) : (s.newFirmware vers img).supRing = s.supRing := by
  simp only [State.newFirmware, State.deriveKey, State.loadImage_supRing, State.measure_supRing]

end

/-! ### Saves (R373 to R378) -/

section
variable (s : State)

/-- The end of a thread's log changes no other core. -/
theorem State.dropLog_core {c d : Nat} (h : d ≠ c) (t : Nat) : (s.dropLog c t).core d = s.core d := by
  simp only [State.dropLog]
  split
  · rfl
  · simp [State.modThr, State.setThr_core_ne, h]

theorem State.dropLogs_core {c d : Nat} (h : d ≠ c) : (s.dropLogs c).core d = s.core d :=
  foldl_same (fun st : State => st.core d) (fun st t => st.dropLog_core h t) _ s

/-- What the end of a log keeps, as a projection of the state. -/
theorem State.dropLog_rest {β : Type} (p : State → β) (hc : ∀ (s : State) cl f, p (s.modClu cl f) = p s)
    (ht : ∀ (s : State) c t f, p (s.modThr c t f) = p s) (c t : Nat) : p (s.dropLog c t) = p s := by
  simp only [State.dropLog]
  split
  · rfl
  · rw [ht, hc]

/-- The cores of a save are as nothing has changed them. -/
theorem State.freeCores_core {cs : List Nat} {c : Nat} (hc : c ∈ cs) : (s.freeCores_ cs).core c = {} := by
  refine foldl_brings (P := fun st : State => st.core c = {}) (fun st d h => ?_) hc (fun st => by simp) s
  simp only [State.setCore_core]
  split
  · rfl
  · rw [st.dropLogs_core ‹_›, h]

/-- What a save's end keeps, as a projection of the state. -/
theorem State.freeCores_rest {β : Type} (p : State → β) (hk : ∀ (s : State) c k, p (s.setCore c k) = p s)
    (hc : ∀ (s : State) cl f, p (s.modClu cl f) = p s) (ho : ∀ (s : State) o, p { s with oom := o } = p s) (cs : List Nat) :
    p (s.freeCores_ cs) = p s := by
  have hl (s : State) (c : Nat) : p (s.dropLogs c) = p s :=
    foldl_same p (fun st t => st.dropLog_rest p hc (fun s c t f => hk s c _) c t) _ s
  simp only [State.freeCores_]
  rw [ho]
  exact foldl_same p (fun st c => (hk _ _ _).trans (hl st c)) cs s

@[simp] theorem State.writeSave_stops (v : Save) (tag : Nat) (p : Word) : (s.writeSave v tag p).1.stops = s.stops := by
  simp only [State.writeSave]
  split
  · rfl
  · split <;> rfl

/-! ### Resumes (R256, R373) -/

@[simp] theorem State.notifyCtx_cores (x cause sub : Nat) (info : Word) (old : State) :
    (s.notifyCtx x cause sub info old).cores = s.cores :=
  foldl_same State.cores (fun st tag => foldl_same State.cores (fun st2 cl => by dsimp only; split <;> rfl) _ st) _ s

@[simp] theorem State.notifyCtx_parts (x cause sub : Nat) (info : Word) (old : State) :
    (s.notifyCtx x cause sub info old).parts = s.parts :=
  foldl_same State.parts (fun st tag => foldl_same State.parts (fun st2 cl => by dsimp only; split <;> rfl) _ st) _ s

@[simp] theorem State.renewDue_cores (x stop : Nat) : (s.renewDue x stop).cores = s.cores := by
  simp only [State.renewDue]
  split <;> simp [State.recompute]

@[simp] theorem State.renewDue_parts (x stop : Nat) : (s.renewDue x stop).parts = s.parts := by
  simp only [State.renewDue]
  split <;> simp [State.recompute]

@[simp] theorem State.renewDue_part (x stop i : Nat) : (s.renewDue x stop).part i = s.part i := by
  simp only [State.part, State.renewDue_parts]

@[simp] theorem State.renewDue_core (x stop i : Nat) : (s.renewDue x stop).core i = s.core i := by
  simp only [State.core, State.renewDue_cores]

end

/-! ### The events -/

section
variable {s : State}

theorem setPartition_sets {s0 : State} {r : SupReq} {names : List Nat} {l : List (Nat × Nat)} (hop : r.op = 1) (hb : supBad r = false)
    (hx : s.hostCtx r.ctx = true) (hn : s.readBitmap r.cores = .names s0 names) (ha : (s0.part r.tag).alive = false)
    (hm : mapNames (s0.usableFor r.tag { slice := r.slice, vats := r.vats, trees := r.trees }) names = some l) :
    exec (.setPartition r) s
      = .next ((((s0.mapAll r.tag l).setShares r names).modPart r.tag fun p => { p with running := true, since := s.dtime }).answerSup r 0) := by
  show execSetPartition r s = _
  simp only [execSetPartition, hop, hb, hx, hn, ha, hm]
  simp

theorem removePartition_of {r : SupReq} (hop : r.op = 2) (hb : supBad r = false) (ha : (s.part r.tag).alive = true) :
    exec (.removePartition r) s = .next (let s1 := (s.modPart r.tag fun p => { p with pending := some r }).answerSup r 0
      if (s.part r.tag).slice = 0 then s1.settlePending r.tag else s1) := by
  show execRemovePartition r s = _
  simp [execRemovePartition, hop, hb, ha]

/-- Firmware whose images are good is activated, or deferred. -/
theorem activateFirmware_of {r : SupReq} {vers : List Nat} {img : List (List Byte)} (hop : r.op = 3) (hb : supBad r = false)
    (hl : img.length = 3) (hv : vers ≠ []) (hi : (([1, 2, 4].zip img).all fun p => s.imageOk p.1 p.2) = true) (hf : r.flags = 0) :
    exec (.activateFirmware r vers img) s = .next (
      if (s.unsupported vers).isEmpty then (s.newFirmware vers img).answerSup r 0
      else if s.deferred = some vers then
        (((s.unsupported vers).foldl (fun st q => st.convert q.1 (vers.headD 4) q.2) s).newFirmware vers img).answerSup r 0
      else ({ s with deferred := some vers } : State).answerSup r 0x90) := by
  show execActivateFirmware r vers img s = _
  have hz : bit 0 0 = false := rfl
  simp only [execActivateFirmware, hop, hb, hl, List.isEmpty_eq_false_iff.mpr hv, hi, hf, hz]
  simp only [ne_eq, not_true, decide_false, Bool.not_true, Bool.or_self, Bool.false_eq_true, if_false]
  split_ifs <;> rfl

/-- A request for firmware that its checks refuse. -/
theorem activateFirmware_bad {r : SupReq} {vers : List Nat} {img : List (List Byte)} (hop : r.op = 3)
    (h : supBad r = true ∨ img.length ≠ 3 ∨ (([1, 2, 4].zip img).all fun p => s.imageOk p.1 p.2) = false) :
    exec (.activateFirmware r vers img) s = .next (s.answerSup r 0x80) := by
  show execActivateFirmware r vers img s = _
  rcases h with h | h | h <;> simp [execActivateFirmware, hop, h]

theorem stopTail_of {q : Stop} {k : Nat} (h : s.stops[k]? = some q) (w : Stop) : (s.setStop k w).stops[k]? = some w := by
  obtain ⟨hk, -⟩ := List.getElem?_eq_some_iff.mp h
  simp [State.setStop, hk]

theorem partitionResume_core {c : Nat} (hr : (s.part (s.core c).ptag).running = true)
    (hk : ∀ k ∈ s.stops, (k.core = false ∨ k.target ≠ c) ∧ (k.core = true ∨ k.stopped = false ∨ k.target ≠ (s.core c).ptag)) :
    exec (.partitionResume (c + 64)) s = .next (s.modCore c fun w => { w with stopped := false }) := by
  have hn : s.stops.any (fun k => (k.core && k.target == c) || (!k.core && k.stopped && k.target == (s.core c).ptag)) = false := by
    rw [List.any_eq_false]
    intro k hm
    obtain ⟨h1, h2⟩ := hk k hm
    simp only [Bool.or_eq_true, Bool.and_eq_true, beq_iff_eq, Bool.not_eq_true', not_or, not_and]
    exact ⟨fun hc ht => h1.elim (by simp [hc]) (· ht), fun hc ht => by
      rcases h2 with h | h | h
      · simp [hc.1] at h
      · simp [hc.2] at h
      · exact h ht⟩
  show execPartitionResume (c + 64) s = _
  simp [execPartitionResume, hn, hr]

/-- A partition that has run for its slice, with a change pending, is to stop. -/
theorem sliceExpiry_of {tag : Nat} (ha : (s.part tag).alive = true) (hr : (s.part tag).running = true) (hs : (s.part tag).slice ≠ 0)
    (ht : (s.part tag).since + (s.part tag).slice * 850 ≤ s.dtime) (hp : (s.part tag).pending ≠ none)
    (hn : ∀ k ∈ s.stops, k.core = true ∨ k.target ≠ tag) :
    exec (.sliceExpiry tag) s = .next { s with stops := s.stops ++ [{ core := false, target := tag, time := s.dtime + 34000 }] } := by
  have hno : s.stops.any (fun k => !k.core && k.target == tag) = false := by
    rw [List.any_eq_false]
    intro k hm
    rcases hn k hm with h | h <;> simp [h]
  show execSliceExpiry tag s = _
  simp [execSliceExpiry, ha, hr, hs, Nat.not_lt.mpr ht, Option.isSome_iff_ne_none.mpr hp, hno]

/-- The cores of a stop stop once every thread of theirs can be captured. -/
theorem syncStop_of {s1 : State} {k : Nat} {q : Stop} (hq : s.stops[k]? = some q) (ha : q.announced = true) (hs : q.stopped = false)
    (ht : q.time ≤ s.dtime) (hc : s.captureAll (s.stopCores q) = some s1) :
    exec (.syncStop k) s = .next (((s.stopCores q).foldl (fun st c => st.modCore c fun w => { w with stopped := true }) s1).setStop k
      { q with stopped := true }) := by
  show execSyncStop k s = _
  simp [execSyncStop, hq, ha, hs, Nat.not_lt.mpr ht, hc]

/-- A partition whose cores resume. -/
theorem partitionResume_starts {tag : Nat} (ht : tag < 64) (ha : (s.part tag).alive = true) (hs : (s.part tag).saved = false)
    (hm : (s.part tag).map ≠ []) (hr : (s.part tag).running = false) (hp : (s.part tag).pending = none) :
    exec (.partitionResume tag) s = .next ((((s.part tag).cores.foldl (fun st c => st.modCore c fun w => { w with stopped := false }) s).modPart
      tag fun w => { w with running := true, since := s.dtime }).renewDue (s.part tag).ctx (s.part tag).since) := by
  show execPartitionResume tag s = _
  simp only [execPartitionResume, Nat.not_le.mpr ht, ha, hs, List.isEmpty_eq_false_iff.mpr hm, hr, if_false, Bool.not_true,
    Bool.or_self, Bool.false_eq_true]
  rw [State.settlePending_none _ (by
    simp only [State.modPart_part, if_true]
    exact (foldl_same (fun st : State => (st.part tag).pending) (by intros; rfl) ..).trans hp)]

/-- A stop's cores are saved, and free again. -/
theorem partitionSave_of {k : Nat} {bad : List Nat} {q : Stop} (hq : s.stops[k]? = some q) (hc : q.core = false)
    (hr : s.saveReady q (s.savedPlace (s.stopCores q) ((s.stopCores q).map clusterOf).dedup (s.part q.target).ctx) = true) :
    Goes (.partitionSave k bad) s fun u => (u.part q.target).running = false ∧ (u.part q.target).saved = true
      ∧ u.stops = s.stops.eraseIdx k ∧ ∀ c ∈ s.stopCores q, u.core c = {} := by
  unfold Goes
  show ∃ t, execPartitionSave k bad s = _ ∧ _
  simp only [execPartitionSave, hq, hc, hr, Bool.not_true, Bool.false_eq_true, if_false]
  refine ⟨_, rfl, ?_, ?_, ?_, fun c hm => ?_⟩
  · simp only [State.modPart_part, if_true]
  · simp only [State.modPart_part, if_true]
  · simp only [State.modPart_stops]
    rw [State.freeCores_rest _ State.stops (fun _ _ _ => rfl) (fun _ _ _ => rfl) (fun _ _ => rfl)]
    dsimp only
    split <;> simp [State.damaged]
  · exact State.freeCores_core _ hm

/-- The last of a restore: the save is gone, and the cores wait for the resume. -/
def State.restored (v : State) (tag : Nat) (cores : List (Nat × Nat)) : State :=
  let u := v.modPart tag fun w => { w with saved := false }
  cores.foldl (fun (st : State) q => st.modCore q.2 fun w => { w with stopped := true }) { u with saves := SMap.set {} tag {} u.saves }

theorem State.restored_stopped (v : State) (tag : Nat) {cores : List (Nat × Nat)} {q : Nat × Nat} (h : q ∈ cores) :
    ((v.restored tag cores).core q.2).stopped = true :=
  foldl_stopped _ cores Prod.snd true h

theorem State.restored_saved (v : State) (tag : Nat) (cores : List (Nat × Nat)) : ((v.restored tag cores).part tag).saved = false := by
  refine (foldl_stopped_rest _ (fun st : State => (st.part tag).saved) (fun _ _ _ => rfl) cores Prod.snd true).trans ?_
  have h := congrArg Part_.saved ((v.modPart_part tag tag fun w => { w with saved := false }).trans (if_pos rfl))
  exact h

theorem State.restored_saves (v : State) (tag : Nat) (cores : List (Nat × Nat)) : SMap.get {} tag (v.restored tag cores).saves = {} := by
  simp only [State.restored]
  rw [foldl_stopped_rest _ State.saves (fun _ _ _ => rfl) cores Prod.snd true]
  exact SMap.get_set_self ..

/-- A partition that may be restored now is. -/
theorem partitionRestore_of {tag : Nat} {cores : List (Nat × Nat)} (ht : tag < 64) (ha : (s.part tag).alive = true)
    (hr : (s.part tag).running = false) (hm : (s.part tag).map = [] ∨ (s.part tag).saved = true)
    (hmay : mayRestore (s.usableFor tag (s.part tag)) (s.part tag).names ((SMap.get {} tag s.saves).cores.map fun c => (c.name, c.phys)) cores = true)
    (hturn : s.inTurn tag = true)
    (hsave : (s.part tag).saved = true → (SMap.get {} tag s.saves).ver ∈ s.restorable
      ∧ s.tilesFree (cores.filterMap fun q => (((SMap.get {} tag s.saves).cores.map fun c => (c.name, c.phys)).find? fun o => o.1 == q.1).map
          fun o => (o.2, q.2)) (SMap.get {} tag s.saves) = true) :
    ∃ v : State, exec (.partitionRestore tag cores) s = .next (v.restored tag cores) := by
  have hmap : (!(s.part tag).map.isEmpty && !(s.part tag).saved) = false := by
    rcases hm with h | h <;> simp [h]
  have hold : ((s.part tag).saved && (!s.restorable.contains (SMap.get {} tag s.saves).ver || !s.tilesFree (cores.filterMap fun q =>
      (((SMap.get {} tag s.saves).cores.map fun c => (c.name, c.phys)).find? fun o => o.1 == q.1).map fun o => (o.2, q.2))
        (SMap.get {} tag s.saves))) = false := by
    cases h : (s.part tag).saved with
    | false => rfl
    | true =>
      obtain ⟨hv, htl⟩ := hsave h
      simp only [List.contains_iff_mem.mpr hv, htl, Bool.not_true, Bool.or_self, Bool.and_false]
  show ∃ v : State, execPartitionRestore tag cores s = _
  simp only [execPartitionRestore, Nat.not_le.mpr ht, ha, hr, hmap, hmay, hturn, hold, if_false, Bool.not_true, Bool.or_self,
    Bool.false_eq_true]
  exact ⟨_, rfl⟩

/-- The save of a single core goes back to its core, and is gone. -/
theorem partitionRestore_core {tag : Nat} {x : SecCore} {r : Nat × Nat} (ht : 64 ≤ tag) (hx : (SMap.get {} tag s.saves).cores = [x])
    (hmay : mayRestore s.unmapped [x.name] [(x.name, x.phys)] [r] = true) :
    Goes (.partitionRestore tag [r]) s fun u => SMap.get {} tag u.saves = {} := by
  unfold Goes
  show ∃ t, execPartitionRestore tag [r] s = _ ∧ _
  simp only [execPartitionRestore, ht, hx, hmay, if_true, List.map_cons, List.map_nil, List.isEmpty_cons, Bool.not_true, Bool.or_self,
    Bool.false_eq_true, if_false, State.restoreCore]
  exact ⟨_, rfl, SMap.get_set_self ..⟩

/-- An overdue context is suspended, and its partitions are to stop. -/
theorem pmackDeadlineExpiry_of {x v d : Nat} (hd : (s.ctx x).due.find? (fun d => decide (d.2 + 850000 ≤ s.dtime)) = some (v, d))
    (ho : (s.ctx x).overdue = 0) (hr : ∃ t ∈ s.partsOf x, (s.part t).running = true) :
    Goes (.pmackDeadlineExpiry x) s fun u => (u.ctx x).overdue = v
      ∧ ∀ t ∈ s.partsOf x, (s.part t).running = true → ∃ q ∈ u.stops, q.core = false ∧ q.target = t := by
  obtain ⟨t0, hm0, hr0⟩ := hr
  have hne : ((s.partsOf x).filter fun t => (s.part t).running).isEmpty = false :=
    List.isEmpty_eq_false_iff.mpr (List.ne_nil_of_mem (List.mem_filter.mpr ⟨hm0, hr0⟩))
  unfold Goes
  show ∃ t, execPmackDeadlineExpiry x s = _ ∧ _
  simp only [execPmackDeadlineExpiry, hd, ho, hne, ne_eq, not_true, decide_false, Bool.or_self, Bool.false_eq_true, if_false]
  refine ⟨_, rfl, by simp, fun t hm hrun => ?_⟩
  simp only [State.modCtx_stops, State.suspend, List.mem_append, List.mem_map, List.mem_filter]
  by_cases hs : s.stops.any (fun q => !q.core && q.target == t) = true
  · obtain ⟨q, hq, hqt⟩ := List.any_eq_true.mp hs
    simp only [Bool.and_eq_true, Bool.not_eq_true', beq_iff_eq] at hqt
    exact ⟨q, .inl hq, hqt⟩
  · exact ⟨_, .inr ⟨t, ⟨⟨hm, hrun⟩, by simpa using hs⟩, rfl⟩, rfl, rfl⟩

/-- The token of a die takes its packets out of the way. -/
theorem flushToken_of {k d : Nat} {q : Stop} (hq : s.stops[k]? = some q) (hs : q.stopped = true) (hf : d ∉ q.flushed)
    (hd : ∃ c ∈ s.stopCores q, dieOf c = d) :
    Goes (.flushToken k d) s fun u => (∃ w, u.stops[k]? = some w ∧ w.flushed = d :: q.flushed)
      ∧ ∀ m ∈ s.msgs, m.fw = false → s.flushes q d m.dst m.stamp = true → m ∉ u.msgs := by
  unfold Goes
  show ∃ t, execFlushToken k d s = _ ∧ _
  have hc : ((s.stopCores q).map dieOf).contains d = true := by simpa using hd
  have hn : q.flushed.contains d = false := by simpa using hf
  simp only [execFlushToken, hq, hs, hn, hc, Bool.not_true, Bool.or_self, Bool.false_eq_true, if_false]
  refine ⟨_, rfl, ⟨_, stopTail_of (q := q) ?_ _, rfl⟩, fun m hm hfw hfl hin => ?_⟩
  · rw [← hq]
    dsimp only
    exact congrArg (·[k]?) (foldl_same State.stops (by intros; rfl) _ s)
  · obtain ⟨-, hno⟩ := List.mem_filter.mp hin
    simp [hfw, hfl] at hno

end

/-- Settles O59: an event at a time, each from the equation of its own step. -/
theorem partitionEvents : Obligations.PartitionEvents := by
  unfold Obligations.PartitionEvents
  refine ⟨?_, ?_, ?_, ?_, ?_, ?_, ?_, ?_, ?_, ?_, ?_, ?_⟩
  · intro s s0 r names l hop hb hx hn ha hm
    refine ⟨_, setPartition_sets hop hb hx hn ha hm, ?_⟩
    simp [State.setShares_part]
  · refine fun s r hop hb ha => ⟨fun hs => ⟨_, removePartition_of hop hb ha, ?_⟩, fun hs hbusy => ⟨_, removePartition_of hop hb ha, ?_⟩⟩
    · simp [hs]
    · simp only [hs, if_true]
      rw [State.settlePending_removal (r := r) _ (by simp) hop ?_, State.dropPart_part]
      rw [← hbusy]
      simp only [State.busyPart, State.answerSup_part, State.modPart_part, if_true]
      rfl
  · intro s r vers img hop hb hl hv hi hf
    refine ⟨fun hu => ⟨_, activateFirmware_of hop hb hl hv hi hf, ?_⟩, fun hu hd => ⟨_, activateFirmware_of hop hb hl hv hi hf, ?_⟩,
      fun hu hd => ⟨_, activateFirmware_of hop hb hl hv hi hf, ?_⟩⟩
    · simp [hu]
    · simp [hu, hd]
    · simp only [List.isEmpty_eq_false_iff.mpr hu, Bool.false_eq_true, if_false, hd, if_true]
      exact ⟨rfl, rfl, _, rfl⟩
  · intro s r vers img hop h
    exact ⟨_, activateFirmware_bad hop h, rfl⟩
  · exact fun s tag ha hr hs ht hp hn => ⟨_, sliceExpiry_of ha hr hs ht hp hn, rfl⟩
  · intro s k q hq ha
    refine ⟨s.setStop k { q with announced := true }, ?_, stopTail_of hq _, rfl, rfl⟩
    show execStopAnnouncement k s = _
    simp [execStopAnnouncement, hq, ha]
  · refine fun s s1 k q hq ha hs ht hc => ⟨_, syncStop_of hq ha hs ht hc, fun c hm => foldl_stopped _ _ id true hm, fun h => ?_⟩
    refine stopTail_of (q := q) ?_ _
    exact (foldl_stopped_rest s1 (fun st : State => st.stops[k]?) (fun _ _ _ => rfl) _ id true).trans h
  · exact fun s k d q hq hs hf hd => flushToken_of hq hs hf hd
  · exact fun s k bad q hq hc hr => partitionSave_of hq hc hr
  · refine fun s tag cores => ⟨fun ht ha hr hm hmay hturn hsave => ?_, ?_⟩
    · obtain ⟨v, hv⟩ := partitionRestore_of ht ha hr hm hmay hturn hsave
      exact ⟨_, hv, fun q hq => v.restored_stopped tag hq, v.restored_saved tag cores, v.restored_saves tag cores⟩
    · rintro x r ht hx rfl hmay
      exact partitionRestore_core ht hx (by simpa only [hx, List.map_cons, List.map_nil] using hmay)
  · refine fun s tag => ⟨fun ht ha hs hm hr hp => ⟨_, partitionResume_starts ht ha hs hm hr hp, ?_, fun c hc => ?_⟩, ?_⟩
    · simp
    · rw [State.renewDue_core]
      exact foldl_stopped s _ id false hc
    · rintro c rfl hr hk
      exact ⟨_, partitionResume_core hr hk, by simp⟩
  · exact fun s x v d hd ho hr => pmackDeadlineExpiry_of hd ho hr

end Sys2Proof.Machine
end

section
/-! SUPPORT. What arrives at a thread's registers, and what a thread's change leaves of the state (R38, R99). -/

namespace Sys2Proof

/-- A change of every value that keeps the default changes the value at each key. -/
theorem SMap.get_mapVal {α : Type} {d : α} {f : α → α} (hd : f d = d) (k : Nat) (m : SMap α) :
    SMap.get d k (m.map fun r => (r.1, f r.2)) = f (SMap.get d k m) := by
  induction m with
  | nil => exact hd.symm
  | cons r t ih =>
    simp only [List.map_cons, SMap.get]
    split
    · rfl
    · exact ih

/-- A value that is not the default is listed. -/
theorem SMap.mem_of_get_ne {α : Type} {d : α} {k : Nat} {m : SMap α} (h : SMap.get d k m ≠ d) : (k, SMap.get d k m) ∈ m := by
  induction m with
  | nil => exact absurd rfl h
  | cons r t ih =>
    simp only [SMap.get] at h ⊢
    split
    · rename_i hk
      subst hk
      exact List.mem_cons_self
    · rw [if_neg ‹_›] at h
      exact List.mem_cons_of_mem _ (ih h)

namespace Machine

/-! ### The marks of a register -/

section
variable (x : Thread)

theorem oneBit_getLsbD (w n i : Nat) : (oneBit w n).getLsbD i = (decide (i < w) && decide (i = n)) := by
  simp only [oneBit, BitVec.getLsbD_ofNat, Nat.testBit_two_pow]
  congr 1
  simp [eq_comm]

/-- A register's value after a delivery. -/
theorem Thread.fill_gv (n i : Nat) (v : Word) (vs : List View) (src : Nat) (p : Bool) :
    (x.fill n v vs src p).gv i = if i = n ∧ n ≠ 0 then v else x.gv i := by
  by_cases hi : i = 0
  · subst hi
    simp [Thread.gv, eq_comm]
  · simp only [Thread.gv, Thread.fill, hi, if_false, SMap.get_set]
    by_cases hn : i = n
    · subst hn; simp [hi]
    · simp [hn]

theorem Thread.fill_isFull (n i : Nat) (v : Word) (vs : List View) (src : Nat) (p : Bool) :
    (x.fill n v vs src p).isFull i = (x.isFull i || (decide (i < 16) && decide (i = n))) := by
  simp only [Thread.isFull, Thread.fill, BitVec.getLsbD_or, oneBit_getLsbD, Bool.or_assoc]

/-- A mask that leaves out one bit. -/
theorem andNot_oneBit_getLsbD (v : BitVec 16) (n i : Nat) : (v &&& ~~~ oneBit 16 n).getLsbD i = (v.getLsbD i && !decide (i = n)) := by
  by_cases hi : i < 16
  · simp only [BitVec.getLsbD_and, BitVec.getLsbD_not, oneBit_getLsbD, hi, decide_true, Bool.true_and]
  · simp only [BitVec.getLsbD_of_ge _ i (Nat.not_lt.mp hi), Bool.false_and]

theorem Thread.fill_isPoison (n : Nat) (v : Word) (vs : List View) (src : Nat) :
    (x.fill n v vs src false).isPoison n = false := by
  simp only [Thread.isPoison, Thread.fill, Bool.false_eq_true, if_false, andNot_oneBit_getLsbD, decide_true, Bool.not_true, Bool.and_false]

theorem Thread.emptyG_isFull {n : Nat} (hn : n ≠ 0) (i : Nat) : (x.emptyG n).isFull i = (x.isFull i && !decide (i = n)) := by
  simp only [Thread.emptyG, hn, if_false, Thread.isFull, andNot_oneBit_getLsbD]
  by_cases hi : i = 0
  · subst hi; simp [hn.symm]
  · simp only [beq_eq_false_iff_ne.mpr hi, Bool.false_or]

theorem Thread.emptyG_isPoison {n : Nat} (hn : n ≠ 0) (i : Nat) : (x.emptyG n).isPoison i = (x.isPoison i && !decide (i = n)) := by
  simp only [Thread.emptyG, hn, if_false, Thread.isPoison, andNot_oneBit_getLsbD, Bool.and_assoc]

@[simp] theorem Thread.emptyG_zero : x.emptyG 0 = x := rfl

@[simp] theorem Thread.emptyG_gv (n i : Nat) : (x.emptyG n).gv i = x.gv i := by
  unfold Thread.emptyG
  split <;> rfl

end

/-! ### A thread alone changes -/

section
variable {s t u : State} {c k : Nat}

theorem State.OnlyThread.refl (s : State) (c k : Nat) : s.OnlyThread s c k := ⟨rfl, fun _ _ => rfl, rfl, fun _ _ => rfl⟩

theorem State.OnlyThread.trans (h : s.OnlyThread t c k) (g : t.OnlyThread u c k) : s.OnlyThread u c k where
  rest := by
    have e := congrArg (fun q : State => { q with cores := s.cores }) g.rest
    exact e.trans h.rest
  cores := fun d hd => (g.cores d hd).trans (h.cores d hd)
  core := by
    have e := congrArg (fun q : Core => { q with th := (s.core c).th }) g.core
    exact e.trans h.core
  threads := fun j hj => (g.threads j hj).trans (h.threads j hj)

theorem State.OnlyThread.of_modThr (s : State) (c k : Nat) (f : Thread → Thread) : s.OnlyThread (s.modThr c k f) c k where
  rest := State.setThr_rest ..
  cores := fun _ hd => State.setThr_core_ne _ hd ..
  core := State.setThr_core_rest ..
  threads := fun j hj => by simp [hj]

/-- What the rest of the state holds is as it was. -/
theorem State.OnlyThread.same {β : Type} (h : s.OnlyThread t c k) (p : State → β) (hp : ∀ (q : State) k, p { q with cores := k } = p q) :
    p t = p s := by
  have e := congrArg p h.rest
  rw [hp] at e
  exact e

/-- Every thread but the one is as it was. -/
theorem State.OnlyThread.thr (h : s.OnlyThread t c k) {i j : Nat} (hne : ¬ (i = c ∧ j = k)) : t.thr i j = s.thr i j := by
  by_cases hi : i = c
  · subst hi
    exact h.threads j fun hj => hne ⟨rfl, hj⟩
  · rw [State.thr, h.cores i hi, State.thr]

/-- What a core holds beside its threads is as it was. -/
theorem State.OnlyThread.coreSame {β : Type} (h : s.OnlyThread t c k) (p : Core → β) (hp : ∀ (q : Core) th, p { q with th := th } = p q)
    (i : Nat) : p (t.core i) = p (s.core i) := by
  by_cases hi : i = c
  · subst hi
    have e := congrArg p h.core
    rw [hp] at e
    exact e
  · rw [h.cores i hi]

end

/-- A change of a core beside its threads changes no thread. -/
theorem State.modCore_thr (s : State) (c : Nat) {f : Core → Core} (h : ∀ q, (f q).th = q.th) (i j : Nat) :
    (s.modCore c f).thr i j = s.thr i j := by
  simp only [State.thr, Core.thread, State.modCore_core]
  split
  · subst i; rw [h]
  · rfl

/-! ### Views joined -/

/-- A thread that joins views gains in what it has seen alone. -/
theorem State.joinViews_eq (s : State) (a scope : Nat) (vs : List View) : ∃ o, s.joinViews a scope vs = { s with oom := o } := by
  refine List.foldlRecOn (motive := fun u : State => ∃ o, u = { s with oom := o }) vs _ ⟨s.oom, rfl⟩ ?_
  rintro u ⟨o, rfl⟩ v -
  simp only [State.joinView]
  split
  · exact ⟨_, rfl⟩
  · exact ⟨o, rfl⟩

theorem State.joinEvents_eq (s : State) (a scope : Nat) (evs : List Nat) : ∃ o, s.joinEvents a scope evs = { s with oom := o } := by
  refine List.foldlRecOn (motive := fun u : State => ∃ o, u = { s with oom := o }) evs _ ⟨s.oom, rfl⟩ ?_
  rintro u ⟨o, rfl⟩ e -
  obtain ⟨o', h⟩ := State.joinViews_eq { s with oom := o } a scope (State.viewsOf { s with oom := o } e)
  exact ⟨o', h⟩

/-! ### Messages move in (R38) -/

/-- A thread after messages have moved into it: registers that were empty may have filled, and it may have woken. -/
structure Thread.Took (x y : Thread) : Prop where
  rest : ∃ g f p r l w n a m, y = { x with
    g := g, full := f, poison := p, rviews := r, lastSrc := l, yielded := w, prsn := n, st := a, mbx := m }
  kept : ∀ n, x.isFull n = true → y.isFull n = true ∧ y.gv n = x.gv n

section
variable {x y z : Thread}

theorem Thread.Took.refl (x : Thread) : x.Took x := ⟨⟨_, _, _, _, _, _, _, _, _, rfl⟩, fun _ h => ⟨h, rfl⟩⟩

theorem Thread.Took.trans (h : x.Took y) (g : y.Took z) : x.Took z where
  rest := by
    obtain ⟨_, _, _, _, _, _, _, _, _, rfl⟩ := h.rest
    obtain ⟨_, _, _, _, _, _, _, _, _, rfl⟩ := g.rest
    exact ⟨_, _, _, _, _, _, _, _, _, rfl⟩
  kept := fun n hn => by
    obtain ⟨hf, hv⟩ := h.kept n hn
    obtain ⟨gf, gv⟩ := g.kept n hf
    exact ⟨gf, gv.trans hv⟩

theorem Thread.Took.of_mbx (x : Thread) (l : List Mbx) : x.Took { x with mbx := l } :=
  ⟨⟨_, _, _, _, _, _, _, _, _, rfl⟩, fun _ h => ⟨h, rfl⟩⟩

/-- A message fills a register that is empty. -/
theorem Thread.Took.of_take {m : Mbx} (h : x.isFull m.reg = false) : x.Took (x.take m) where
  rest := ⟨_, _, _, _, _, _, _, _, _, rfl⟩
  kept := fun n hn => by
    have hne : n ≠ m.reg := fun e => by rw [e, h] at hn; exact Bool.noConfusion hn
    rw [Thread.take, Thread.fill_isFull, Thread.fill_gv, hn, if_neg (fun e => hne e.1)]
    exact ⟨rfl, rfl⟩

/-- What messages do not change of a thread. -/
theorem Thread.Took.same {β : Type} (h : x.Took y) (p : Thread → β)
    (hp : ∀ (q : Thread) g f v r l w n a m, p { q with
      g := g, full := f, poison := v, rviews := r, lastSrc := l, yielded := w, prsn := n, st := a, mbx := m } = p q) : p y = p x := by
  obtain ⟨_, _, _, _, _, _, _, _, _, rfl⟩ := h.rest
  exact hp ..

end

/-- A state after messages have moved into a thread. -/
structure State.Filled (s u : State) (c t : Nat) : Prop where
  only : s.OnlyThread u c t
  took : (s.thr c t).Took (u.thr c t)

section
variable {s t u : State} {c k : Nat}

theorem State.Filled.trans (h : s.Filled t c k) (g : t.Filled u c k) : s.Filled u c k := ⟨h.only.trans g.only, h.took.trans g.took⟩

theorem State.Filled.of_modThr {f : Thread → Thread} (h : (s.thr c k).Took (f (s.thr c k))) : s.Filled (s.modThr c k f) c k :=
  ⟨.of_modThr .., by simpa using h⟩

theorem State.mayMove_empty {m : Mbx} (h : s.mayMove c k m = true) : (s.thr c k).isFull m.reg = false := by
  simp only [State.mayMove, Bool.and_eq_true, Bool.not_eq_true'] at h
  exact h.1.1.1

theorem State.moveIn_filled (c k : Nat) (l : List Mbx) :
    ∀ (s : State) (seen : List Nat) (keep : List Mbx), s.Filled (s.moveIn c k l seen keep) c k := by
  induction l with
  | nil => exact fun s seen keep => .of_modThr (.of_mbx ..)
  | cons m l ih =>
    intro s seen keep
    simp only [State.moveIn]
    split
    · rename_i h
      exact .trans (.of_modThr (.of_take (State.mayMove_empty (Bool.and_eq_true_iff.mp h).2))) (ih ..)
    · exact ih ..

/-- The mailbox of a thread that is no handler moves in. -/
theorem State.settleMbx_filled (h : k ≠ 7) (s : State) (c : Nat) : s.Filled (s.settleMbx c k) c k := by
  simp only [State.settleMbx, if_neg h]
  exact State.moveIn_filled ..

/-- Nothing moves in where nothing waits. -/
theorem State.settleMbx_nil (h : k ≠ 7) {s : State} (hm : (s.thr c k).mbx = []) :
    s.settleMbx c k = s.modThr c k fun x => { x with mbx := [] } := by
  simp [State.settleMbx, h, hm, State.moveIn]

end

end Machine
end Sys2Proof
end

section
/-! SUPPORT. What a wake-up, a handler's message and a freed thread leave of the state (R56, R117, R170, R197, R281 to R284). -/

namespace Sys2Proof.Machine

/-! ### Barriers and lanes (R170, R197) -/

/-- What the end of a barrier's wait, or the completion of a phase, leaves: memory, the handlers' queues and every thread that
waits at no barrier. -/
structure State.Wakes (s u : State) : Prop where
  mem : u.mem = s.mem
  launches : u.launches = s.launches
  hmsgs : u.hmsgs = s.hmsgs
  migs : u.migs = s.migs
  tq : ∀ d, (u.core d).tq = (s.core d).tq
  nq : ∀ d, (u.core d).nq = (s.core d).nq
  thr : ∀ d j, (∀ l, (s.thr d j).phase ≠ .barrier l) → u.thr d j = s.thr d j

section
variable {s t u : State} {c k : Nat}

theorem State.Wakes.refl (s : State) : s.Wakes s := ⟨rfl, rfl, rfl, rfl, fun _ => rfl, fun _ => rfl, fun _ _ _ => rfl⟩

theorem State.Wakes.trans (h : s.Wakes t) (g : t.Wakes u) : s.Wakes u where
  mem := g.mem.trans h.mem
  launches := g.launches.trans h.launches
  hmsgs := g.hmsgs.trans h.hmsgs
  migs := g.migs.trans h.migs
  tq := fun d => (g.tq d).trans (h.tq d)
  nq := fun d => (g.nq d).trans (h.nq d)
  thr := fun d j hp => by
    have e := h.thr d j hp
    rw [g.thr d j (by rw [e]; exact hp), e]

theorem State.Wakes.of_oom (s : State) (o : Oom) : s.Wakes { s with oom := o } :=
  ⟨rfl, rfl, rfl, rfl, fun _ => rfl, fun _ => rfl, fun _ _ _ => rfl⟩

theorem State.Wakes.of_joinViews (s : State) (a scope : Nat) (vs : List View) : s.Wakes (s.joinViews a scope vs) := by
  obtain ⟨o, h⟩ := s.joinViews_eq a scope vs
  rw [h]
  exact .of_oom s o

theorem State.Wakes.of_modCore (s : State) (c : Nat) {f : Core → Core} (ht : (f (s.core c)).th = (s.core c).th)
    (hq : (f (s.core c)).tq = (s.core c).tq) (hn : (f (s.core c)).nq = (s.core c).nq) : s.Wakes (s.modCore c f) := by
  refine ⟨rfl, rfl, rfl, rfl, fun d => ?_, fun d => ?_, fun d j _ => ?_⟩
  · simp only [State.modCore_core]; split <;> simp_all
  · simp only [State.modCore_core]; split <;> simp_all
  · simp only [State.thr, Core.thread, State.modCore_core]; split <;> simp_all

theorem State.Wakes.of_modThr {l : Nat} (h : (s.thr c k).phase = .barrier l) (f : Thread → Thread) : s.Wakes (s.modThr c k f) := by
  have o := State.OnlyThread.of_modThr s c k f
  refine ⟨rfl, rfl, rfl, rfl, fun d => o.coreSame Core.tq (fun _ _ => rfl) d, fun d => o.coreSame Core.nq (fun _ _ => rfl) d,
    fun d j hp => o.thr ?_⟩
  rintro ⟨rfl, rfl⟩
  exact hp l h

theorem State.Wakes.of_barWake (s : State) (c k lvl : Nat) : s.Wakes (s.barWake c k lvl) := by
  simp only [State.barWake]
  split
  · rename_i h
    simp only [Bool.and_eq_true, beq_iff_eq] at h
    have hv := State.Wakes.of_joinViews s (agThread c k) (barScope lvl) (s.phaseViews c k lvl ((s.thr c k).bar lvl).count)
    refine hv.trans (.of_modThr (l := lvl) ?_ _)
    obtain ⟨o, e⟩ := s.joinViews_eq (agThread c k) (barScope lvl) (s.phaseViews c k lvl ((s.thr c k).bar lvl).count)
    rw [e]
    exact h.1.1
  · exact .refl s

theorem State.Wakes.of_fold {α : Type} {f : State → α → State} (h : ∀ (s : State) a, s.Wakes (f s a)) (l : List α) (s : State) :
    s.Wakes (l.foldl f s) :=
  List.foldlRecOn (motive := fun u => s.Wakes u) l f (.refl s) fun u hu a _ => hu.trans (h u a)

theorem State.Wakes.of_barWakeAll (s : State) (l : Nat) : s.Wakes (s.barWakeAll l) := by
  refine .of_fold (fun u a => ?_) _ s
  obtain ⟨c, t⟩ := a
  dsimp only
  split
  · exact .of_barWake ..
  · exact .refl u

theorem State.Wakes.of_raiseLane (s : State) (c : Nat) : s.Wakes (s.raiseLane c) := by
  simp only [State.raiseLane]
  split
  · exact .of_modCore s c rfl rfl rfl
  · exact .refl s

theorem State.Wakes.of_phaseComplete (s : State) (c k lvl : Nat) : s.Wakes (s.phaseComplete c k lvl) := by
  simp only [State.phaseComplete]
  split
  · exact .of_modCore s c rfl rfl rfl
  · exact .of_fold (fun u d => .of_raiseLane u d) _ s

end

/-! ### Messages for handlers (R281 to R284) -/

theorem Core.lateOf_none {k : Core} {t : Nat} :
    k.lateOf t = none ↔ ∀ m ∈ k.tq, ¬ (m.late = true ∧ m.ready = false ∧ m.g1.toNat / 2 ^ 24 % 8 = t) := by
  simp only [Core.lateOf, List.find?_eq_none, Bool.and_eq_true, Bool.not_eq_true', beq_iff_eq, and_assoc]

/-- What the messages of the handlers' queues leave as they move: memory, the launches, the packets; no handler thread comes to
have a late fault that it had not, and where `q` holds no message for a handler sets out. -/
structure State.Still (q : Prop) (s u : State) : Prop where
  mem : u.mem = s.mem
  launches : u.launches = s.launches
  hmsgs : q → u.hmsgs = s.hmsgs
  migs : u.migs = s.migs
  lates : ∀ d, (s.core d).lateOf 7 = none → (u.core d).lateOf 7 = none

/-- What they leave outside the handler thread of core `c`: the other cores' queues, and a thread that waits at no barrier but
for its LCAUSE. -/
structure State.Stirs (c : Nat) (s u : State) : Prop where
  tq : ∀ d, d ≠ c → (u.core d).tq = (s.core d).tq
  thr : ∀ d j, (∀ l, (s.thr d j).phase ≠ .barrier l) → ¬ (d = c ∧ j = 7) → ∃ n, u.thr d j = { s.thr d j with lcause := n }

section
variable {s t u : State} {c k : Nat} {q : Prop}

theorem State.Still.refl (s : State) : State.Still q s s := ⟨rfl, rfl, fun _ => rfl, rfl, fun _ h => h⟩

theorem State.Still.trans (h : State.Still q s t) (g : State.Still q t u) : State.Still q s u where
  mem := g.mem.trans h.mem
  launches := g.launches.trans h.launches
  hmsgs := fun hq => (g.hmsgs hq).trans (h.hmsgs hq)
  migs := g.migs.trans h.migs
  lates := fun d hd => g.lates d (h.lates d hd)

theorem State.Stirs.refl (c : Nat) (s : State) : State.Stirs c s s := ⟨fun _ _ => rfl, fun _ _ _ _ => ⟨_, rfl⟩⟩

theorem State.Stirs.trans (h : State.Stirs c s t) (g : State.Stirs c t u) : State.Stirs c s u where
  tq := fun d hd => (g.tq d hd).trans (h.tq d hd)
  thr := fun d j hp hne => by
    obtain ⟨n, e⟩ := h.thr d j hp hne
    obtain ⟨m, e'⟩ := g.thr d j (by rw [e]; exact hp) hne
    exact ⟨m, by rw [e', e]⟩

theorem State.Wakes.still (h : s.Wakes u) : State.Still q s u :=
  ⟨h.mem, h.launches, fun _ => h.hmsgs, h.migs, fun d hd => by rw [Core.lateOf, h.tq d]; exact hd⟩

theorem State.Wakes.stirs (h : s.Wakes u) : State.Stirs c s u :=
  ⟨fun d _ => h.tq d, fun d j hp _ => ⟨(s.thr d j).lcause, h.thr d j hp⟩⟩

/-- A core that a message leaves: its trap queue has lost some, and a thread's LCAUSE may have changed. -/
structure Core.Gave (k q : Core) : Prop where
  tq : ∀ m ∈ q.tq, ∃ w ∈ k.tq, m.late = w.late ∧ (m.ready = w.ready ∨ m.ready = true) ∧ m.g1 = w.g1
  thr : ∀ j, ∃ n, q.thread j = { k.thread j with lcause := n }

theorem Core.Gave.of_tq {q p : Core} (ht : p.th = q.th) (h : ∀ m ∈ p.tq, ∃ w ∈ q.tq, m.late = w.late ∧ (m.ready = w.ready ∨
    m.ready = true) ∧ m.g1 = w.g1) :
    q.Gave p := ⟨h, fun j => ⟨(q.thread j).lcause, by rw [Core.thread, ht]; rfl⟩⟩

theorem Core.Gave.refl (k : Core) : k.Gave k := .of_tq rfl fun m hm => ⟨m, hm, rfl, .inl rfl, rfl⟩

theorem Core.Gave.trans {k q p : Core} (h : k.Gave q) (g : q.Gave p) : k.Gave p where
  tq := fun m hm => by
    obtain ⟨w, hw, hl, hr, hg⟩ := g.tq m hm
    obtain ⟨v, hv, hl', hr', hg'⟩ := h.tq w hw
    refine ⟨v, hv, hl.trans hl', ?_, hg.trans hg'⟩
    rcases hr with hr | hr
    · rw [hr]; exact hr'
    · exact .inr hr
  thr := fun j => by
    obtain ⟨n, e⟩ := h.thr j
    obtain ⟨m, e'⟩ := g.thr j
    exact ⟨m, by rw [e', e]⟩

theorem Core.Gave.lateOf {q p : Core} (h : q.Gave p) {t : Nat} (hl : q.lateOf t = none) : p.lateOf t = none := by
  rw [Core.lateOf_none] at hl ⊢
  rintro m hm ⟨ha, hr, hg⟩
  obtain ⟨w, hw, hla, hre, hge⟩ := h.tq m hm
  refine hl w hw ⟨hla ▸ ha, ?_, hge ▸ hg⟩
  rcases hre with e | e
  · exact e ▸ hr
  · rw [e] at hr; exact Bool.noConfusion hr

theorem State.Still.of_modCore (s : State) (c : Nat) {f : Core → Core} (h : (s.core c).Gave (f (s.core c))) : State.Still q s (s.modCore c f) := by
  refine ⟨rfl, rfl, fun _ => rfl, rfl, fun d hd => ?_⟩
  simp only [State.modCore_core]
  split
  · subst d; exact h.lateOf hd
  · exact hd

theorem State.Stirs.of_modCore (s : State) (c : Nat) {f : Core → Core} (h : (s.core c).Gave (f (s.core c))) :
    State.Stirs c s (s.modCore c f) := by
  refine ⟨fun d hd => by simp [hd], fun d j _ _ => ?_⟩
  simp only [State.thr, State.modCore_core]
  split
  · subst d; exact h.thr j
  · exact ⟨_, rfl⟩

theorem State.Still.of_modThr (s : State) (c k : Nat) (f : Thread → Thread) : State.Still q s (s.modThr c k f) := by
  refine ⟨rfl, rfl, fun _ => rfl, rfl, fun d hd => ?_⟩
  rw [Core.lateOf, (State.OnlyThread.of_modThr s c k f).coreSame Core.tq (fun _ _ => rfl) d]
  exact hd

theorem State.Stirs.of_modThr (s : State) (c : Nat) (f : Thread → Thread) : State.Stirs c s (s.modThr c 7 f) :=
  ⟨fun d hd => by rw [State.modThr, State.setThr_core_ne _ hd], fun d j _ hne => ⟨(s.thr d j).lcause, (State.OnlyThread.of_modThr s c 7 f).thr hne⟩⟩

theorem Core.Gave.of_tellLost (k : Core) (now x : Nat) : k.Gave (k.tellLost now x) := by
  refine .of_tq ?_ fun m hm => ⟨m, ?_, rfl, .inl rfl, rfl⟩
  · simp only [Core.tellLost]
    split <;> split <;> rfl
  · have e : (k.tellLost now x).tq = k.tq := by
      simp only [Core.tellLost]
      split <;> split <;> rfl
    rw [e] at hm
    exact hm

theorem Core.Gave.told {k q : Core} (h : k.Gave q) {now x : Nat} : k.Gave (q.tellLost now x) := h.trans (.of_tellLost ..)

theorem Core.Gave.of_filter (k : Core) (p : HMsg → Bool) : k.Gave { k with tq := k.tq.filter p } :=
  .of_tq rfl fun w hw => ⟨w, (List.mem_filter.mp hw).1, rfl, .inl rfl, rfl⟩

/-- The core with a thread's LCAUSE written. -/
def Core.withLcause (k : Core) (t n : Nat) : Core := k.setThread t { k.thread t with lcause := n }

theorem Core.Gave.of_lcause (k : Core) (t n : Nat) : k.Gave (k.withLcause t n) := by
  refine ⟨fun m hm => ⟨m, hm, rfl, .inl rfl, rfl⟩, fun j => ?_⟩
  simp only [Core.withLcause, Core.setThread_thread]
  split
  · subst j; exact ⟨n, rfl⟩
  · exact ⟨_, rfl⟩

/-- What a message that leaves its queue changes of the core. -/
def Core.gives (k : Core) (now x : Nat) (m : HMsg) : Core :=
  (if k.tq.contains m then
    ({ k with tq := k.tq.erase m } : Core).withLcause (m.g1.toNat / 2 ^ 24 % 8) (m.g1.toNat % 256)
  else { k with nq := SMap.set [] x ((SMap.get [] x k.nq).erase m) k.nq }).tellLost now x

theorem Core.Gave.of_gives (k : Core) (now x : Nat) (m : HMsg) : k.Gave (k.gives now x m) := by
  refine .told ?_
  split
  · have h : k.Gave { k with tq := k.tq.erase m } := .of_tq rfl fun w hw => ⟨w, List.mem_of_mem_erase hw, rfl, .inl rfl, rfl⟩
    exact h.trans (.of_lcause ..)
  · exact .of_tq rfl fun w hw => ⟨w, hw, rfl, .inl rfl, rfl⟩

theorem State.takeMsg_eq (s : State) (c x : Nat) (m : HMsg) : s.takeMsg c x m = (s.told m).modCore c fun k => k.gives s.dtime x m := by
  have e : (s.told m).core c = s.core c := by
    simp only [State.told]
    split <;> rfl
  simp only [State.modCore, e, State.takeMsg, Core.gives, Core.withLcause]
  split <;> rfl

theorem State.told_still (s : State) (m : HMsg) : State.Still q s (s.told m) := by
  simp only [State.told]
  split
  · exact ⟨rfl, rfl, fun _ => rfl, rfl, fun _ h => h⟩
  · exact .refl s

theorem State.told_stirs (s : State) (c : Nat) (m : HMsg) : State.Stirs c s (s.told m) := by
  simp only [State.told]
  split
  · exact ⟨fun _ _ => rfl, fun _ _ _ _ => ⟨_, rfl⟩⟩
  · exact .refl c s

theorem State.takeMsg_still (s : State) (c x : Nat) (m : HMsg) : State.Still q s (s.takeMsg c x m) := by
  rw [State.takeMsg_eq]
  exact (s.told_still m).trans (.of_modCore _ c (.of_gives ..))

theorem State.takeMsg_stirs (s : State) (c x : Nat) (m : HMsg) : State.Stirs c s (s.takeMsg c x m) := by
  rw [State.takeMsg_eq]
  exact (s.told_stirs c m).trans (.of_modCore _ c (.of_gives ..))

theorem Core.Gave.of_rest {k q : Core} (ht : q.th = k.th) (hq : q.tq = k.tq) : k.Gave q :=
  .of_tq ht fun m hm => ⟨m, hq ▸ hm, rfl, .inl rfl, rfl⟩

theorem State.haltWake_still (s u : State) (c : Nat) : State.Still q u (s.haltWake u c) := by
  simp only [State.haltWake]
  split
  · exact .of_modCore u c (.of_rest rfl rfl)
  · exact .refl u

theorem State.haltWake_stirs (s u : State) (c : Nat) : State.Stirs c u (s.haltWake u c) := by
  simp only [State.haltWake]
  split
  · exact .of_modCore u c (.of_rest rfl rfl)
  · exact .refl c u

/-- A message moves into t7, or none does. -/
theorem State.pump_cases (s : State) (c : Nat) : s.pump c = s
    ∨ ∃ (u : State) (f : Thread → Thread), (∀ q, State.Still q s u) ∧ State.Stirs c s u ∧ s.pump c = s.haltWake (u.modThr c 7 f) c := by
  simp only [State.pump]
  split
  · split
    · exact .inl rfl
    · split
      · exact .inl rfl
      · have hk (k : Core) (a b : Nat) : k.Gave { k with serving := a, served := b } := .of_rest rfl rfl
        exact .inr ⟨_, _, fun _ => (s.takeMsg_still ..).trans (.of_modCore _ c (hk ..)), (s.takeMsg_stirs ..).trans (.of_modCore _ c (hk ..)), rfl⟩
  · split
    · split
      · exact .inl rfl
      · exact .inr ⟨_, _, fun _ => s.takeMsg_still .., s.takeMsg_stirs .., rfl⟩
    · exact .inl rfl

theorem State.pump_still (s : State) (c : Nat) : State.Still q s (s.pump c) := by
  rcases s.pump_cases c with h | ⟨u, f, hu, -, h⟩
  · rw [h]; exact .refl s
  · rw [h]; exact (hu q).trans (.trans (.of_modThr ..) (State.haltWake_still ..))

theorem State.pump_stirs (s : State) (c : Nat) : State.Stirs c s (s.pump c) := by
  rcases s.pump_cases c with h | ⟨u, f, -, hu, h⟩
  · rw [h]; exact .refl c s
  · rw [h]; exact hu.trans (.trans (.of_modThr ..) (State.haltWake_stirs ..))

/-! ### Late faults and freed threads (R117, R284) -/

/-- A late fault of a thread below the handler becomes deliverable. -/
theorem Core.Gave.of_ready (k : Core) (m : HMsg) (now : Nat) :
    k.Gave { k with tq := k.tq.map fun w => if w.id = m.id then { w with ready := true, since := now } else w } := by
  refine .of_tq rfl fun v hv => ?_
  obtain ⟨w, hw, rfl⟩ := List.mem_map.mp hv
  refine ⟨w, hw, ?_⟩
  split
  · exact ⟨rfl, .inr rfl, rfl⟩
  · exact ⟨rfl, .inl rfl, rfl⟩

theorem State.readyLate_still (s : State) (c k : Nat) (h : q → k ≠ 7) (m : HMsg) : State.Still q s (s.readyLate c k m) := by
  simp only [State.readyLate]
  split
  · rename_i hk
    refine .trans (t := s.modCore c fun k => ({ k with tq := k.tq.filter fun w => w.id != m.id } : Core).tellLost s.dtime m.ctx)
      (.of_modCore s c (Core.Gave.of_filter ..).told) ?_
    exact ⟨rfl, rfl, fun hq => absurd hk (h hq), rfl, fun _ hl => hl⟩
  · exact .trans (.of_modCore s c (.of_ready ..)) (State.pump_still ..)

theorem State.readyLate_stirs (s : State) (c : Nat) {k : Nat} (hk : k ≠ 7) (m : HMsg) : State.Stirs c s (s.readyLate c k m) := by
  simp only [State.readyLate, if_neg hk]
  exact .trans (.of_modCore s c (.of_ready ..)) (State.pump_stirs ..)

/-- Without a late fault that has not stopped the thread, none becomes deliverable. -/
theorem State.endLates_none (h : (s.core c).lateOf k = none) : s.endLates c k = s := by
  have e : (s.core c).tq.filter (fun m => m.late && !m.ready && m.g1.toNat / 2 ^ 24 % 8 == k) = [] := by
    rw [List.filter_eq_nil_iff]
    intro m hm
    simpa [and_assoc] using Core.lateOf_none.mp h m hm
  simp only [State.endLates, e, List.foldl_nil]

theorem State.endLates_still (s : State) (c k : Nat) (h : q → k = 7 → (s.core c).lateOf 7 = none) : State.Still q s (s.endLates c k) := by
  by_cases hq : q ∧ k = 7
  · obtain ⟨hq, rfl⟩ := hq
    rw [State.endLates_none (h hq rfl)]
    exact .refl s
  · exact List.foldlRecOn (motive := fun u => State.Still q s u) _ _ (.refl s) fun u hu m _ =>
      hu.trans (u.readyLate_still c k (fun h hk => hq ⟨h, hk⟩) m)

theorem State.endLates_stirs (s : State) (c : Nat) {k : Nat} (hk : k ≠ 7) : State.Stirs c s (s.endLates c k) :=
  List.foldlRecOn (motive := fun u => State.Stirs c s u) _ _ (.refl c s) fun u hu m _ => hu.trans (u.readyLate_stirs c hk m)

theorem Core.Gave.of_holdWaits (k : Core) (now x : Nat) : k.Gave (k.holdWaits now x) := by
  refine .of_tq rfl fun v hv => ?_
  obtain ⟨w, hw, rfl⟩ := List.mem_map.mp hv
  refine ⟨w, hw, ?_⟩
  split <;> exact ⟨rfl, .inl rfl, rfl⟩

/-- The end of a log changes the thread's LOGTILE alone, beside the cluster's tiles. -/
theorem State.dropLog_thr (s : State) (c k i j : Nat) : (s.dropLog c k).thr i j
    = if i = c ∧ j = k then { s.thr c k with logTile := 0 } else s.thr i j := by
  simp only [State.dropLog]
  split
  · rename_i h
    split
    · rename_i hij
      obtain ⟨rfl, rfl⟩ := hij
      rw [← h]
    · rfl
  · simp

/-- The thread is released, and its phases may complete: what a freed thread's state is before the handlers' messages move. -/
def State.releases (s : State) (c k : Nat) : State :=
  let levels := s.openLevels c k
  let s1 := (s.dropLog c k).modThr c k fun x => x.release
  (levels.foldl (fun st lvl =>
    if s1.phaseDone c k lvl (s1.topPhase c k lvl) then st.phaseComplete c k lvl else st) s1).barWakeAll (s.thr c k).lid

theorem State.freeThread_eq (s : State) (c k : Nat) : s.freeThread c k
    = if k = 7 then (((s.releases c k).endLates c k).modCore c fun q => q.holdWaits s.dtime q.serving).pump c
      else (s.releases c k).endLates c k := rfl

/-- Between its release and the rest of a freed thread's end, no thread changes that waits at no barrier. -/
theorem State.releases_wakes (s : State) (c k : Nat) : ((s.dropLog c k).modThr c k fun x => x.release).Wakes (s.releases c k) := by
  refine .trans (.of_fold (fun u lvl => ?_) _ _) (.of_barWakeAll ..)
  split
  · exact .of_phaseComplete ..
  · exact .refl u

theorem State.dropLog_still (s : State) (c k : Nat) : State.Still q s (s.dropLog c k) := by
  simp only [State.dropLog]
  split
  · exact .refl s
  · exact .trans (t := s.modClu _ _) ⟨rfl, rfl, fun _ => rfl, rfl, fun _ h => h⟩ (.of_modThr ..)

theorem State.releases_still (s : State) (c k : Nat) : State.Still q s (s.releases c k) :=
  (s.dropLog_still c k).trans (.trans (.of_modThr ..) (s.releases_wakes c k).still)

/-- A freed thread is in STATE 0, with nothing of its group left. -/
theorem State.releases_thr (s : State) (c k : Nat) : (s.releases c k).thr c k = { s.thr c k with logTile := 0 }.release := by
  have h : ((s.dropLog c k).modThr c k fun x => x.release).thr c k = { s.thr c k with logTile := 0 }.release := by
    simp only [State.modThr_thr, State.dropLog_thr, and_self, if_true]
  rw [(s.releases_wakes c k).thr c k, h]
  rw [h]
  exact fun _ e => Phase.noConfusion e

/-- A thread becomes free without a message setting out, where no late fault of a handler thread waits. -/
theorem State.freeThread_still (s : State) (c k : Nat) (h : q → k = 7 → (s.core c).lateOf 7 = none) : State.Still q s (s.freeThread c k) := by
  have hr := (s.releases_still c k).trans (State.endLates_still _ c k fun hq hk => (s.releases_still (q := q) c k).lates c (h hq hk))
  rw [State.freeThread_eq]
  split
  · exact hr.trans (.trans (.of_modCore _ c (.of_holdWaits ..)) (State.pump_still ..))
  · exact hr

/-- The end of a thread below the handler changes no other thread but one that waits at a barrier, or t7. -/
theorem State.freeThread_stirs (s : State) (c : Nat) {k : Nat} (hk : k ≠ 7) :
    State.Stirs c ((s.dropLog c k).modThr c k fun x => x.release) (s.freeThread c k) := by
  rw [State.freeThread_eq, if_neg hk]
  exact (s.releases_wakes c k).stirs.trans (State.endLates_stirs _ c hk)

theorem State.freeThread_thr (s : State) (c : Nat) {k : Nat} (hk : k ≠ 7) :
    ∃ n, (s.freeThread c k).thr c k = { { s.thr c k with logTile := 0 }.release with lcause := n } := by
  rw [State.freeThread_eq, if_neg hk]
  obtain ⟨n, h⟩ := (State.endLates_stirs (s.releases c k) c hk).thr c k (by rw [State.releases_thr]; exact fun _ e => Phase.noConfusion e)
    fun e => hk e.2
  exact ⟨n, by rw [h, State.releases_thr]⟩

end

end Sys2Proof.Machine
end

section
/-! SUPPORT. A group with a trap at its commit (R55, R56, R72, R280, R282, R284, R285): what its discard gives back, and the
exception that is taken. -/

namespace Sys2Proof.Machine

open Sys2Proof.Spec

/-! ### The end of a context's kernel on a cluster (R282) -/

/-- The launches of a context with a core on a cluster end with the unhandled cause. -/
def State.endsOn (s : State) (cl x cause : Nat) : State :=
  (s.launches.filter fun r => r.2.ctx == x && !r.2.ended && r.2.cores.any fun c => clusterOf c == cl).foldl
    (fun st r => st.modLaunch r.1 fun k => { k with cause := 0xB6, last := cause, waiting := false }) s

section
variable {s : State} {cl x cause : Nat}

theorem State.endsOn_rest {β : Type} (p : State → β) (h : ∀ (s : State) l f, p (s.modLaunch l f) = p s) : p (s.endsOn cl x cause) = p s :=
  foldl_same p (fun _ _ => h ..) _ s

theorem State.endsOn_launch {l d : Nat} (hx : (s.launch l).ctx = x) (he : (s.launch l).ended = false) (hd : d ∈ (s.launch l).cores)
    (hc : clusterOf d = cl) : ((s.endsOn cl x cause).launch l).cause = 0xB6 ∧ ((s.endsOn cl x cause).launch l).last = cause := by
  have hmem : (l, s.launch l) ∈ s.launches := SMap.mem_of_get_ne fun e => by
    rw [State.launch, e] at hd
    exact List.not_mem_nil hd
  have hsel : (l, s.launch l) ∈ s.launches.filter fun r => r.2.ctx == x && !r.2.ended && r.2.cores.any fun c => clusterOf c == cl := by
    refine List.mem_filter.mpr ⟨hmem, ?_⟩
    simp only [hx, he, beq_self_eq_true, Bool.not_false, Bool.true_and, List.any_eq_true, beq_iff_eq]
    exact ⟨d, hd, hc⟩
  refine foldl_brings (P := fun st : State => (st.launch l).cause = 0xB6 ∧ (st.launch l).last = cause) (fun st r h => ?_) hsel
    (fun st => ?_) s
  · simp only [State.modLaunch_launch]
    split
    · exact ⟨rfl, rfl⟩
    · exact h
  · simp only [State.modLaunch_launch, if_true, and_self]

/-- A core without its records and without a context's messages. -/
def Core.loses (k : Core) (x : Nat) : Core :=
  { k with due7 := none, deque := [], tq := k.tq.filter (fun m => m.ctx != x), nq := SMap.set [] x [] k.nq }

/-- Once its launches have ended, the rest of a kernel's end on a cluster changes no launch. -/
theorem State.endKernelOn_still {q : Prop} (h : q → ∀ d, clusterOf d = cl → (s.core d).lateOf 7 = none) :
    State.Still q (s.endsOn cl x cause) (s.endKernelOn cl x cause) := by
  have hcore (d : Nat) : (s.endsOn cl x cause).core d = s.core d := State.endsOn_rest (fun st => st.core d) fun _ _ _ => rfl
  refine List.foldlRecOn (motive := fun u => State.Still q (s.endsOn cl x cause) u) _ _ (.refl _) fun u hu r hr => ?_
  obtain ⟨c, k⟩ := r
  have hc : clusterOf c = cl := by simpa using (List.mem_filter.mp hr).2
  have hg (k : Core) : k.Gave ((k.loses x).tellLost s.dtime x) :=
    (Core.Gave.of_tq (q := k) (p := k.loses x) rfl fun w hw => ⟨w, (List.mem_filter.mp hw).1, rfl, .inl rfl, rfl⟩).told
  have h1 := hu.trans (.of_modCore u c (f := fun k => (k.loses x).tellLost s.dtime x) (hg (u.core c)))
  refine List.foldlRecOn (motive := fun v => State.Still q (s.endsOn cl x cause) v) _ _ h1 fun v hv t _ => ?_
  obtain ⟨t, y⟩ := t
  dsimp only
  split
  · exact hv.trans (v.freeThread_still c t fun hq _ => hv.lates c (by rw [hcore]; exact h hq c hc))
  · exact hv

theorem State.endKernelOn_launch {l d : Nat} (hx : (s.launch l).ctx = x) (he : (s.launch l).ended = false) (hd : d ∈ (s.launch l).cores)
    (hc : clusterOf d = cl) : ((s.endKernelOn cl x cause).launch l).cause = 0xB6 ∧ ((s.endKernelOn cl x cause).launch l).last = cause := by
  have h := (State.endKernelOn_still (q := False) (s := s) (cl := cl) (x := x) (cause := cause) False.elim).launches
  simp only [State.launch, h]
  exact State.endsOn_launch hx he hd hc

end

/-! ### What a discarded group gives back (R56) -/

section
variable {s t u : State} {c k : Nat}

/-- Claims that return change no thread, and no queue of a handler. -/
structure State.Returns (s u : State) : Prop where
  mem : u.mem = s.mem
  oom : u.oom = s.oom
  hmsgs : u.hmsgs = s.hmsgs
  core : ∀ d, ∃ l n, u.core d = { s.core d with deque := l, dqSlots := n }

theorem State.Returns.refl (s : State) : s.Returns s := ⟨rfl, rfl, rfl, fun _ => ⟨_, _, rfl⟩⟩

theorem State.Returns.trans (h : s.Returns t) (g : t.Returns u) : s.Returns u where
  mem := g.mem.trans h.mem
  oom := g.oom.trans h.oom
  hmsgs := g.hmsgs.trans h.hmsgs
  core := fun d => by
    obtain ⟨_, _, e⟩ := h.core d
    obtain ⟨l, n, e'⟩ := g.core d
    exact ⟨l, n, by rw [e', e]⟩

theorem State.Returns.of_modCore (s : State) (c : Nat) {f : Core → Core} (h : ∃ l n, f (s.core c) = { s.core c with deque := l, dqSlots := n }) :
    s.Returns (s.modCore c f) := by
  refine ⟨rfl, rfl, rfl, fun d => ?_⟩
  simp only [State.modCore_core]
  split
  · subst d; exact h
  · exact ⟨_, _, rfl⟩

theorem State.giveBack_returns (s : State) (c : Nat) (u : Undo) : s.Returns (s.giveBack c u) := by
  cases u with
  | tile n => exact ⟨rfl, rfl, rfl, fun _ => ⟨_, _, rfl⟩⟩
  | slot => exact .of_modCore s c (f := fun k => { k with dqSlots := k.dqSlots - 1 }) ⟨_, _, rfl⟩
  | record id =>
    exact .of_modCore s c (f := fun k => { k with deque := k.deque.map fun r => if r.id = id then { r with res := 0 } else r }) ⟨_, _, rfl⟩
  | grant n => exact .refl s
  | launch l => exact ⟨rfl, rfl, rfl, fun _ => ⟨_, _, rfl⟩⟩

theorem State.giveBack_launch (s : State) (c : Nat) {u : Undo} {l : Nat} (h : u ≠ .launch l) : (s.giveBack c u).launch l = s.launch l := by
  cases u with
  | launch m => exact SMap.get_set_ne _ (fun e => h (by rw [e])) ..
  | _ => rfl

/-- The claims of a thread's group return. -/
def State.returned (s : State) (c k : Nat) : State := (s.thr c k).grp.undo.foldl (fun st u => st.giveBack c u.2) s

theorem State.returned_returns (s : State) (c k : Nat) : s.Returns (s.returned c k) :=
  List.foldlRecOn (motive := fun u => s.Returns u) _ _ (.refl s) fun u hu v _ => hu.trans (u.giveBack_returns c v.2)

theorem State.returned_launch {l : Nat} (h : ∀ v ∈ (s.thr c k).grp.undo, v.2 ≠ .launch l) : (s.returned c k).launch l = s.launch l :=
  List.foldlRecOn (motive := fun u : State => u.launch l = s.launch l) _ _ rfl fun u hu v hv => (u.giveBack_launch c (h v hv)).trans hu

/-- The thread with nothing of its group. -/
def Thread.noGroup (x : Thread) : Thread := { x with grp := {}, post := .none, s5 := [], snap := none }

theorem State.dropGroup_eq (s : State) (c k : Nat) : s.dropGroup c k = (s.returned c k).modThr c k Thread.noGroup := rfl

/-- A state in which a thread's group has been discarded: registers that were empty may have filled. -/
structure State.Discarded (s u : State) (c k : Nat) : Prop where
  mem : u.mem = s.mem
  oom : u.oom = s.oom
  hmsgs : u.hmsgs = s.hmsgs
  tq : ∀ d, (u.core d).tq = (s.core d).tq
  nq : ∀ d, (u.core d).nq = (s.core d).nq
  took : (s.thr c k).noGroup.Took (u.thr c k)
  launch : ∀ l, (∀ v ∈ (s.thr c k).grp.undo, v.2 ≠ .launch l) → u.launch l = s.launch l

theorem State.dropGroup_discarded (s : State) (c k : Nat) : s.Discarded (s.dropGroup c k) c k := by
  have r := s.returned_returns c k
  have o := State.OnlyThread.of_modThr (s.returned c k) c k Thread.noGroup
  have ht : (s.returned c k).thr c k = s.thr c k := by
    obtain ⟨_, _, e⟩ := r.core c
    rw [State.thr, e]; rfl
  rw [State.dropGroup_eq]
  refine ⟨r.mem, r.oom, r.hmsgs, fun d => (o.coreSame Core.tq (fun _ _ => rfl) d).trans ?_,
    fun d => (o.coreSame Core.nq (fun _ _ => rfl) d).trans ?_, ?_, fun l hl => State.returned_launch hl⟩
  · obtain ⟨_, _, e⟩ := r.core d
    rw [e]
  · obtain ⟨_, _, e⟩ := r.core d
    rw [e]
  · rw [State.modThr_thr, if_pos ⟨rfl, rfl⟩, ht]
    exact .refl _

theorem State.discardOnly_discarded (s : State) (c k : Nat) : s.Discarded (s.discardOnly c k) c k := by
  have d := s.dropGroup_discarded c k
  simp only [State.discardOnly]
  split
  · exact d
  · have f := State.settleMbx_filled ‹k ≠ 7› (s.dropGroup c k) c
    refine ⟨(f.only.same State.mem fun _ _ => rfl).trans d.mem, (f.only.same State.oom fun _ _ => rfl).trans d.oom,
      (f.only.same State.hmsgs fun _ _ => rfl).trans d.hmsgs, fun i => (f.only.coreSame Core.tq (fun _ _ => rfl) i).trans (d.tq i),
      fun i => (f.only.coreSame Core.nq (fun _ _ => rfl) i).trans (d.nq i), d.took.trans f.took,
      fun l hl => (f.only.same (fun q => q.launch l) fun _ _ => rfl).trans (d.launch l hl)⟩

/-! ### The commit of a group with a trap -/

theorem Group.faultAt_trap {g : Group} {tr : GTrap} (h : g.trap = some tr) : g.faultAt.isSome = true := by
  simp only [Group.faultAt, h, Option.map_some]
  generalize minPos _ (g.rind.map (·.1)) = r
  cases r <;> rfl

theorem Group.cutAt_none {g : Group} (h : g.self = none) : g.cutAt = none := by simp [Group.cutAt, h]

/-- A group without a migration has no refusal of one. -/
theorem State.checkMig_eq {g : Group} (h : ∀ e ∈ g.defs, e.op ≠ 0x63 ∧ e.op ≠ 0x64) (s : State) (c k : Nat) : s.checkMig c k g = g := by
  have hf : g.defs.find? (fun e => e.op == 0x63 || e.op == 0x64) = none := by
    rw [List.find?_eq_none]
    intro e he
    simpa using h e he
  simp only [State.checkMig, hf]

/-- A group at its marker goes on to step 2. -/
theorem groupCommit_of (h : AtMarker s c k) : exec (.groupCommit c k none) s = .next (s.commit c k) := by
  obtain ⟨hp, hw, hr, hret, -, -, -⟩ := h
  have hst : ((s.thr c k).st ≠ 1 && (s.thr c k).st ≠ 2) = false := by rcases hw with e | e <;> simp [e]
  show execGroupCommit c k none s = _
  simp only [execGroupCommit, hp, hst, hr, hret, ne_eq, not_true, decide_false, Bool.not_true, Bool.or_self, Bool.false_eq_true, if_false]

theorem State.commit_trap {tr : GTrap} (h : AtMarker s c k) (ht : (s.thr c k).grp.trap = some tr) (hs : (s.thr c k).grp.self = none) :
    s.commit c k = (s.discardOnly c k).takeTrap c k tr.pos tr.cause tr.sub (s.thr c k).grp.head tr.info (s.thr c k).grp.head := by
  have hb : (s.thr c k).grp.blocked = true := Group.faultAt_trap ht
  simp only [State.commit, State.checkMig_eq h.stays, h.present, List.foldl_nil, Group.cutAt_none hs, hb, if_true, State.discardGroup, ht]

/-! ### The exceptions that are taken (R280, R282, R284, R285) -/

theorem State.dropMate_single (h : (s.thr c k).duo = false) : s.dropMate c k = s := by simp [State.dropMate, h]

/-- The thread stops for its handler. -/
def Thread.stopped (x : Thread) (resume : Word) : Thread :=
  { x with st := 4, prsn := 0, resume := resume, grp := {}, phase := .issue, s5 := [], late := [], post := .none, snap := none }

/-- A thread stopped for its handler keeps its registers and its commit queue. -/
theorem Thread.stopped_keeps (x : Thread) (resume : Word) : (∀ n, (x.stopped resume).gv n = x.gv n) ∧ (∀ n, (x.stopped resume).pv n = x.pv n)
    ∧ (x.stopped resume).cq = x.cq :=
  ⟨fun _ => rfl, fun _ => rfl, rfl⟩

/-- A scalar assist is taken. -/
theorem State.takeTrap_assist {pos sub : Nat} {pc info resume : Word} (hs : sub ≠ 1) :
    s.takeTrap c k pos 0x31 sub pc info resume = (s.modThr c k fun x => { x with pc := resume }).assistThread c k pos pc := by
  simp only [State.takeTrap, if_true, if_neg hs]

/-- A scalar assist behind one of a vector operation. -/
theorem State.takeTrap_later {pos : Nat} {pc info resume : Word} :
    s.takeTrap c k pos 0x31 1 pc info resume = (s.modThr c k fun x => { x with pc := resume }).assistLater c k pc := by
  simp only [State.takeTrap, if_true]

/-- A trap of a thread below the handler. -/
theorem State.takeTrap_low {pos cause sub : Nat} {pc info resume : Word} (hk : k ≠ 7) (hc : cause ≠ 0x31) (hd : (s.thr c k).duo = false) :
    s.takeTrap c k pos cause sub pc info resume
      = ((s.modThr c k fun x => { x with pc := resume }).sendHandler c
          { g1 := msgG1 k 0 sub cause, g2 := pc, g3 := info, ctx := (s.thr c k).ctx }).modThr c k (Thread.stopped · resume) := by
  simp only [State.takeTrap, if_neg hc]
  rw [State.dropMate_single (by simpa using hd)]
  simp only [State.trapThread, State.trapMsg, if_neg hk, State.modThr_thr, and_self, if_true]
  rfl

/-- A trap of a handler thread. -/
theorem State.takeTrap_high {pos cause sub : Nat} {pc info resume : Word} (hc : cause ≠ 0x31) (hd : (s.thr c 7).duo = false) :
    s.takeTrap c 7 pos cause sub pc info resume
      = ((s.modThr c 7 fun x => { x with pc := resume }).handlerFault c cause sub pc info (s.thr c 7).ctx).freeThread c 7 := by
  simp only [State.takeTrap, if_neg hc]
  rw [State.dropMate_single (by simpa using hd)]
  simp only [State.trapThread, State.trapMsg, if_true, State.modThr_thr, and_self]

@[simp] theorem State.sendHandler_thr (s : State) (d : Nat) (m : HMsg) (i j : Nat) : (s.sendHandler d m).thr i j = s.thr i j := rfl
@[simp] theorem State.sendHandler_hmsgs (s : State) (d : Nat) (m : HMsg) : (s.sendHandler d m).hmsgs = s.hmsgs ++ [{ dst := d, msg := m }] := rfl
@[simp] theorem State.sendHandler_mem (s : State) (d : Nat) (m : HMsg) : (s.sendHandler d m).mem = s.mem := rfl
@[simp] theorem State.sendHandler_oom (s : State) (d : Nat) (m : HMsg) : (s.sendHandler d m).oom = s.oom := rfl
@[simp] theorem State.sendHandler_core (s : State) (d : Nat) (m : HMsg) (i : Nat) : (s.sendHandler d m).core i = s.core i := rfl

/-- The full registers of a thread whose group has been discarded hold what they held. -/
theorem State.Discarded.regs (h : s.Discarded u c k) {n : Nat} (hn : (s.thr c k).isFull n = true) : (u.thr c k).gv n = (s.thr c k).gv n :=
  (h.took.kept n hn).2

end

end Sys2Proof.Machine

namespace Sys2Proof.Machine

open Sys2Proof.Spec

section
variable {s u : State} {c t : Nat} {tr : GTrap}

/-- A free handler thread takes no message from empty queues. -/
theorem State.pump_idle (hs : (s.thr c 7).st = 0) (hq : (s.core c).tq = []) (hn : (s.core c).nq = []) : s.pump c = s := by
  have h : s.nextCtx c = none := by simp [State.nextCtx, Core.waiting, hq, hn]
  simp only [State.pump, hs, if_true, h]

/-- A handler thread with empty queues becomes free, and stays so. -/
theorem State.freeThread_handler (hq : (s.core c).tq = []) (hn : (s.core c).nq = []) :
    s.freeThread c 7 = (s.releases c 7).modCore c fun q => q.holdWaits s.dtime q.serving := by
  have hkeep {β : Type} (p : Core → β) (hp : ∀ (q : Core) th, p { q with th := th } = p q) :
      p (((s.dropLog c 7).modThr c 7 fun x => x.release).core c) = p (s.core c) :=
    ((State.OnlyThread.of_modThr _ c 7 _).coreSame p hp c).trans (s.dropLog_rest (fun st => p (st.core c)) (fun _ _ _ => rfl)
      (fun st i j f => (State.OnlyThread.of_modThr st i j f).coreSame p hp c) c 7)
  have hrq : ((s.releases c 7).core c).tq = [] := ((s.releases_wakes c 7).tq c).trans ((hkeep Core.tq fun _ _ => rfl).trans hq)
  have hrn : ((s.releases c 7).core c).nq = [] := ((s.releases_wakes c 7).nq c).trans ((hkeep Core.nq fun _ _ => rfl).trans hn)
  rw [State.freeThread_eq, if_pos rfl, State.endLates_none (by simp [Core.lateOf, hrq])]
  refine State.pump_idle ?_ ?_ ?_
  · rw [State.modCore_thr _ c (f := fun q => q.holdWaits s.dtime q.serving) (fun _ => rfl), s.releases_thr]
    rfl
  · simp [Core.holdWaits, hrq]
  · simp [Core.holdWaits, hrn]

/-- A trap of the handler thread of a compute core with empty queues: its message goes to the control core, and it is free. -/
theorem State.takeTrap_compute {pos cause sub : Nat} {pc info resume : Word} (hcc : isCC c = false) (hc : cause ≠ 0x31)
    (hd : (s.thr c 7).duo = false) (hq : (s.core c).tq = []) (hn : (s.core c).nq = []) :
    ((s.takeTrap c 7 pos cause sub pc info resume).thr c 7).st = 0 ∧ (s.takeTrap c 7 pos cause sub pc info resume).mem = s.mem
      ∧ (s.takeTrap c 7 pos cause sub pc info resume).hmsgs = s.hmsgs ++ [{ dst := ccOf c, msg :=
          { g1 := msgG1 7 5 sub cause, g2 := pc, g3 := info, ctx := (s.thr c 7).ctx, from_ := c + 1 } }] := by
  have ho := State.OnlyThread.of_modThr s c 7 fun y => { y with pc := resume }
  rw [State.takeTrap_high hc hd]
  simp only [State.handlerFault, hcc, Bool.false_eq_true, if_false]
  generalize hw : (s.modThr c 7 fun y => { y with pc := resume }).sendHandler _ _ = w
  have hwm : w.mem = s.mem := by rw [← hw]; rfl
  have hwh : w.hmsgs = s.hmsgs ++ [{ dst := ccOf c, msg :=
      { g1 := msgG1 7 5 sub cause, g2 := pc, g3 := info, ctx := (s.thr c 7).ctx, from_ := c + 1 } }] := by rw [← hw]; rfl
  have hwc {β : Type} (p : Core → β) (hp : ∀ (q : Core) th, p { q with th := th } = p q) : p (w.core c) = p (s.core c) := by
    rw [← hw]
    exact ho.coreSame p hp c
  have hr := State.releases_still (q := True) w c 7
  rw [State.freeThread_handler ((hwc Core.tq fun _ _ => rfl).trans hq) ((hwc Core.nq fun _ _ => rfl).trans hn),
    State.modCore_thr _ c (f := fun q => q.holdWaits w.dtime q.serving) (fun _ => rfl), State.releases_thr]
  exact ⟨rfl, hr.mem.trans hwm, (hr.hmsgs trivial).trans hwh⟩

/-- A trap of a control core's handler thread ends its context's launches on the cluster. -/
theorem State.takeTrap_control {pos cause sub : Nat} {pc info resume : Word} (hcc : isCC c = true) (hc : cause ≠ 0x31)
    (hd : (s.thr c 7).duo = false) (hl : ∀ d, clusterOf d = clusterOf c → (s.core d).lateOf 7 = none) :
    (s.takeTrap c 7 pos cause sub pc info resume).mem = s.mem ∧ (s.takeTrap c 7 pos cause sub pc info resume).hmsgs = s.hmsgs
      ∧ ∀ l, (s.launch l).ctx = (s.thr c 7).ctx → (s.launch l).ended = false → (∃ d ∈ (s.launch l).cores, clusterOf d = clusterOf c) →
        ((s.takeTrap c 7 pos cause sub pc info resume).launch l).cause = 0xB6
          ∧ ((s.takeTrap c 7 pos cause sub pc info resume).launch l).last = cause := by
  rw [State.takeTrap_high hc hd]
  simp only [State.handlerFault, hcc, if_true]
  generalize hw : (s.modThr c 7 fun y => { y with pc := resume }).modThr c 7 (fun y => { y with lcause := cause }) = w
  have hwm : w.mem = s.mem := by rw [← hw]; rfl
  have hwh : w.hmsgs = s.hmsgs := by rw [← hw]; rfl
  have hwk (l : Nat) : w.launch l = s.launch l := by rw [← hw]; rfl
  have hwl (d : Nat) (hdc : clusterOf d = clusterOf c) : (w.core d).lateOf 7 = none := by
    have e : (w.core d).tq = (s.core d).tq := by
      rw [← hw]
      exact ((State.OnlyThread.of_modThr _ c 7 _).coreSame Core.tq (fun _ _ => rfl) d).trans
        ((State.OnlyThread.of_modThr s c 7 _).coreSame Core.tq (fun _ _ => rfl) d)
    rw [Core.lateOf, e]
    exact hl d hdc
  have hk := State.endKernelOn_still (q := True) (x := (s.thr c 7).ctx) (cause := cause) fun _ => hwl
  have hke := hk.lates c (by rw [State.endsOn_rest (fun st => st.core c) fun _ _ _ => rfl]; exact hwl c rfl)
  have hf := State.freeThread_still (q := True) (w.endKernelOn (clusterOf c) (s.thr c 7).ctx cause) c 7 fun _ _ => hke
  refine ⟨?_, ?_, ?_⟩
  · exact hf.mem.trans (hk.mem.trans ((State.endsOn_rest State.mem fun _ _ _ => rfl).trans hwm))
  · exact (hf.hmsgs trivial).trans ((hk.hmsgs trivial).trans ((State.endsOn_rest State.hmsgs fun _ _ _ => rfl).trans hwh))
  · rintro l hx he ⟨d, hdm, hdc⟩
    rw [State.launch, hf.launches]
    exact State.endKernelOn_launch (s := w) (by rw [hwk]; exact hx) (by rw [hwk]; exact he) (by rw [hwk]; exact hdm) hdc

end

/-- Settles O50: the group is discarded, and its exception is taken. -/
theorem trapIsTaken : Obligations.TrapIsTaken := by
  unfold Obligations.TrapIsTaken
  intro s c t tr hm htr hself x
  have hd := s.discardOnly_discarded c t
  have hgo : exec (.groupCommit c t none) s
      = .next ((s.discardOnly c t).takeTrap c t tr.pos tr.cause tr.sub x.grp.head tr.info x.grp.head) :=
    (groupCommit_of hm).trans (congrArg _ (State.commit_trap hm htr hself))
  have hduo : ((s.discardOnly c t).thr c t).duo = x.duo := hd.took.same Thread.duo fun _ _ _ _ _ _ _ _ _ _ => rfl
  have hctx : ((s.discardOnly c t).thr c t).ctx = x.ctx := hd.took.same Thread.ctx fun _ _ _ _ _ _ _ _ _ _ => rfl
  have hcq : ((s.discardOnly c t).thr c t).cq = x.cq := hd.took.same Thread.cq fun _ _ _ _ _ _ _ _ _ _ => rfl
  have hpv (n : Nat) : ((s.discardOnly c t).thr c t).pv n = x.pv n := hd.took.same (Thread.pv · n) fun _ _ _ _ _ _ _ _ _ _ => rfl
  have has : ((s.discardOnly c t).thr c t).assist = x.assist := hd.took.same Thread.assist fun _ _ _ _ _ _ _ _ _ _ => rfl
  refine ⟨fun ht hc hdu => ?_, fun hc hsub => ?_, fun hc hsub => ?_, ?_, ?_⟩
  · refine ⟨_, hgo.trans (congrArg _ (State.takeTrap_low (Nat.ne_of_lt ht) hc (hduo.trans hdu))), ?_⟩
    obtain ⟨kg, kp, kq⟩ := Thread.stopped_keeps { (s.discardOnly c t).thr c t with pc := x.grp.head } x.grp.head
    simp only [State.modThr_thr, and_self, if_true, State.modThr_mem, State.modThr_oom, State.modThr_hmsgs, State.sendHandler_thr,
      State.sendHandler_mem, State.sendHandler_oom, State.sendHandler_hmsgs, hd.mem, hd.oom, hd.hmsgs, hctx, and_true]
    exact ⟨rfl, rfl, fun n hn => (kg n).trans (hd.regs hn), fun n => (kp n).trans (hpv n), kq.trans hcq, rfl⟩
  · rw [hc, State.takeTrap_assist hsub] at hgo
    refine ⟨_, hgo, ?_⟩
    simp only [State.assistThread, State.notify, State.modThr_thr, and_self, if_true, State.modThr_mem, State.modThr_oom, State.modThr_hmsgs,
      State.sendHandler_thr, State.sendHandler_mem, State.sendHandler_oom, State.sendHandler_hmsgs, hd.mem, hd.oom, hd.hmsgs, true_and, and_true]
    exact ⟨fun n hn => hd.regs hn, hcq⟩
  · rw [hc, hsub, State.takeTrap_later] at hgo
    refine ⟨_, hgo, ?_⟩
    simp only [State.assistLater, State.modThr_thr, and_self, if_true, State.modThr_mem, State.modThr_hmsgs, hd.mem, hd.hmsgs, has, true_and, and_true]
    exact fun n hn => hd.regs hn
  · rintro rfl hcc hc hdu hq hn
    obtain ⟨hst, hmem, hmsg⟩ := State.takeTrap_compute (pos := tr.pos) (sub := tr.sub) (pc := x.grp.head) (info := tr.info)
      (resume := x.grp.head) hcc hc (hduo.trans hdu) ((hd.tq c).trans hq) ((hd.nq c).trans hn)
    rw [hctx, hd.hmsgs] at hmsg
    exact ⟨_, hgo, hst, hmem.trans hd.mem, hmsg⟩
  · rintro rfl hcc hc hdu hl
    obtain ⟨hmem, hmsg, hlaunch⟩ := State.takeTrap_control (pos := tr.pos) (sub := tr.sub) (pc := x.grp.head) (info := tr.info)
      (resume := x.grp.head) hcc hc (hduo.trans hdu) fun d hdc => by rw [Core.lateOf, hd.tq d]; exact hl d hdc
    refine ⟨_, hgo, hmem.trans hd.mem, hmsg.trans hd.hmsgs, fun l hx he hcl hu => hlaunch l ?_ ?_ ?_⟩
    · rw [hd.launch l hu, hctx]; exact hx
    · rw [hd.launch l hu]; exact he
    · rw [hd.launch l hu]; exact hcl

end Sys2Proof.Machine
end

section
/-! SUPPORT. What arrives at threads and cores (R36, R38, R156, R280 to R283, R303, R304). -/

namespace Sys2Proof.Machine

open Sys2Proof.Spec

section
variable {s t u : State} {c k : Nat}

/-! ### Messages (R38, R156) -/

/-- A sender that is told of its message keeps all but its waiting effects. -/
theorem State.tell_thr (s : State) (m : Eff) (f : Eff → Eff) (i j : Nat) : ∃ l, (s.tell m f).thr i j = { s.thr i j with s5 := l } := by
  simp only [State.tell, State.modThr_thr]
  split
  · rename_i h
    obtain ⟨rfl, rfl⟩ := h
    exact ⟨_, rfl⟩
  · exact ⟨_, rfl⟩

/-- The effect that waits is the one changed. -/
theorem State.tell_mem (f : Eff → Eff) {m : Eff} (hs : m.st = 1) (hm : m ∈ (s.thr m.core m.thr).s5) :
    f m ∈ ((s.tell m f).thr m.core m.thr).s5 := by
  simp only [State.tell, State.modThr_thr, and_self, if_true]
  exact List.mem_map.mpr ⟨m, hm, if_pos ⟨rfl, hs⟩⟩

/-- A register that is empty and not due may take a message, at a thread that is no handler. -/
theorem State.mayMove_low {m : Mbx} (hf : (s.thr c k).isFull m.reg = false) (hd : (s.thr c k).isDue m.reg = false) (hk : k ≠ 7) :
    s.mayMove c k m = true := by
  simp [State.mayMove, hf, hd, hk]

theorem State.deliver_fill {m : Mbx} (hf : (s.thr c k).isFull m.reg = false) (hd : (s.thr c k).isDue m.reg = false) (hk : k ≠ 7)
    (hm : (s.thr c k).mbx = []) : s.deliver c k m = some (s.modThr c k fun y => y.take m) := by
  simp [State.deliver, State.mayMove_low hf hd hk, hm, hk]

/-- A message for a full register of a thread whose mailbox is full waits. -/
theorem State.deliver_full {m : Mbx} (hc : isCC c = false) (hf : (s.thr c k).isFull m.reg = true) (hm : 16 ≤ (s.thr c k).mbx.length) :
    s.deliver c k m = none := by
  have hl : ¬ ((s.thr c k).mbx.length < 16) := Nat.not_lt.mpr hm
  simp [State.deliver, State.mayMove, hf, hc, hl]

/-- The message in place `k` is off the mesh. -/
def State.dropMsg (s : State) (k : Nat) : State := { s with msgs := s.msgs.eraseIdx k }

/-- What the mailbox of a compute core's thread holds of a message. -/
def Msg.box (m : Msg) : Mbx := { reg := m.reg, val := m.val, src := m.src, views := m.views, poison := m.poison, ctx := 0 }

section
variable {m : Msg} (hm : s.msgs[k]? = some m)
include hm

theorem messageDelivery_sealed (hs : (s.core m.dst).isSealed = true) : exec (.messageDelivery k) s
    = .next ((s.dropMsg k).tell m.e fun e => { e with st := 3, ans := 0x41 }) := by
  show execMessageDelivery k s = _
  simp only [execMessageDelivery, hm, hs, if_true]
  rfl

variable (hs : (s.core m.dst).isSealed = false) (ht : (s.core m.dst).stopped = false) (hh : s.heldCore m.dst = false)
  (he : s.ejects m.dst m.thr m.stamp m.fw = true) (hc : isCC m.dst = false)
include hs ht hh he hc

theorem messageDelivery_full (hd : (s.dropMsg k).deliver m.dst m.thr m.box = none) : exec (.messageDelivery k) s = .next s := by
  unfold State.dropMsg Msg.box at hd
  show execMessageDelivery k s = _
  simp only [execMessageDelivery, hm, hs, ht, hh, he, hc, Bool.false_eq_true, if_false, Bool.or_self, Bool.not_true, hd]

theorem messageDelivery_lands (hk : m.thr ≠ 7) {w : State} (hd : (s.dropMsg k).deliver m.dst m.thr m.box = some w) :
    exec (.messageDelivery k) s = .next (w.tell m.e fun e => { e with st := 2 }) := by
  unfold State.dropMsg Msg.box at hd
  show execMessageDelivery k s = _
  simp only [execMessageDelivery, hm, hs, ht, hh, he, hc, Bool.false_eq_true, if_false, Bool.or_self, Bool.not_true, hd, if_neg hk]

theorem messageDelivery_fills (hf : (s.thr m.dst m.thr).isFull m.reg = false) (hd : (s.thr m.dst m.thr).isDue m.reg = false) (hk : m.thr < 7)
    (hb : (s.thr m.dst m.thr).mbx = []) :
    ∃ u l, exec (.messageDelivery k) s = .next u ∧ u.msgs = s.msgs.eraseIdx k
      ∧ u.thr m.dst m.thr = { (s.thr m.dst m.thr).take m.box with s5 := l } := by
  have h7 := Nat.ne_of_lt hk
  obtain ⟨l, hl⟩ := State.tell_thr ((s.dropMsg k).modThr m.dst m.thr fun y => y.take m.box) m.e
    (fun e => { e with st := 2 }) m.dst m.thr
  refine ⟨_, l, messageDelivery_lands hm hs ht hh he hc h7 (State.deliver_fill (s := s.dropMsg k) (m := m.box) hf hd h7 hb), rfl,
    hl.trans ?_⟩
  simp only [State.modThr_thr, and_self, if_true]
  rfl

theorem messageDelivery_waits (hf : (s.thr m.dst m.thr).isFull m.reg = true) (hb : 16 ≤ (s.thr m.dst m.thr).mbx.length) :
    exec (.messageDelivery k) s = .next s :=
  messageDelivery_full hm hs ht hh he hc (State.deliver_full (s := s.dropMsg k) (m := m.box) hc hf hb)

end

/-- What a message has filled. -/
theorem Thread.take_box {x : Thread} {m : Msg} (hr : m.reg ≠ 0) (hl : m.reg < 16) (hp : m.poison = false) (l : List Eff) :
    let y : Thread := { x.take m.box with s5 := l }
    y.gv m.reg = m.val ∧ y.isFull m.reg = true ∧ y.isPoison m.reg = false ∧ ∀ n, n ≠ m.reg → y.gv n = x.gv n := by
  have hg (n : Nat) : (x.take m.box).gv n = if n = m.reg ∧ m.reg ≠ 0 then m.val else x.gv n := Thread.fill_gv ..
  refine ⟨?_, ?_, ?_, fun n hn => ?_⟩
  · exact (hg m.reg).trans (if_pos ⟨rfl, hr⟩)
  · have hf : (x.take m.box).isFull m.reg = _ := Thread.fill_isFull ..
    exact hf.trans (by simp [hl, Msg.box])
  · show (x.fill m.box.reg m.box.val m.box.views m.box.src m.poison).isPoison m.reg = false
    rw [hp]
    exact Thread.fill_isPoison ..
  · exact (hg n).trans (if_neg fun e => hn e.1)

/-! ### Messages for handlers (R281 to R283) -/

/-- The message for a handler in place `k` is off the mesh. -/
def State.dropHmsg (s : State) (k : Nat) : State := { s with hmsgs := s.hmsgs.eraseIdx k }

/-- A message in its core's queue since the domain time of its arrival. -/
def HMsg.stamped (m : HMsg) (now : Nat) : HMsg := { m with since := now }

@[simp] theorem State.queueTrap_tq (d : Nat) (m : HMsg) : ((s.queueTrap d m).core d).tq = (s.core d).tq ++ [m.stamped s.dtime] := by
  simp [State.queueTrap, HMsg.stamped]

@[simp] theorem State.queueTrap_nq (d i : Nat) (m : HMsg) : ((s.queueTrap d m).core i).nq = (s.core i).nq := by
  simp only [State.queueTrap, State.modCore_core]
  split
  · subst i; rfl
  · rfl

@[simp] theorem State.queueTrap_thr (d i j : Nat) (m : HMsg) : (s.queueTrap d m).thr i j = s.thr i j := by
  refine State.modCore_thr s d (f := fun q => { q with tq := q.tq ++ [m.stamped s.dtime] }) ?_ i j
  exact fun _ => rfl

section
variable {h : HTrans} (hm : s.hmsgs[k]? = some h)
include hm

theorem handlerMessageArrival_sealed (hs : (s.core h.dst).isSealed = true) :
    exec (.handlerMessageArrival k) s = .next { s with hmsgs := s.hmsgs.eraseIdx k } := by
  show execHandlerMessageArrival k s = _
  simp only [execHandlerMessageArrival, hm, hs, if_true]

theorem handlerMessageArrival_trap (hs : (s.core h.dst).isSealed = false) (ht : (s.core h.dst).stopped = false)
    (hh : s.heldCore h.dst = false) (hz : h.msg.g1.toNat / 2 ^ 16 % 256 = 0) : exec (.handlerMessageArrival k) s
      = .next (((s.dropHmsg k).queueTrap h.dst h.msg).pump h.dst) := by
  show execHandlerMessageArrival k s = _
  simp only [execHandlerMessageArrival, hm, hs, ht, hh, hz, Bool.false_eq_true, if_false, Bool.or_self, if_true]
  rfl

end

/-- A core whose t7 is busy takes no message while g1 is full. -/
theorem State.pump_busy (hs : (s.thr c 7).st ≠ 0) (hf : (s.thr c 7).isFull 1 = true) : s.pump c = s := by
  have hr : (s.thr c 7).roomForMsg = false := by simp [Thread.roomForMsg, hf]
  simp only [State.pump, if_neg hs, hr, Bool.false_eq_true, if_false]

section
variable {m : HMsg} (hq : (s.core c).tq = [m]) (hn : (s.core c).nq = []) (hr : m.ready = true)
include hq hr

theorem State.nextMsg_only : s.nextMsg c m.ctx = some m := by
  simp [State.nextMsg, hq, hr]

include hn

theorem State.nextCtx_only (he : s.handlerEntry m.ctx ≠ 0) : s.nextCtx c = some m.ctx := by
  have hw : (s.core c).waiting = [m.ctx] := by simp [Core.waiting, hq, hn]
  have hok : (s.core c).waiting.filter (fun x => s.handlerEntry x != 0 && (s.nextMsg c x).isSome) = [m.ctx] := by
    simp [hw, State.nextMsg_only hq hr]
    exact he
  simp only [State.nextCtx, hok, List.filter_cons, List.filter_nil]
  by_cases hg : m.ctx > (s.core c).serving <;> simp [hg]

end

/-- The only message of a core's queues leaves them empty, with LCAUSE written. -/
theorem Core.gives_only {q : Core} {m : HMsg} (hq : q.tq = [m]) (now x : Nat) :
    (q.gives now x m).tq = [] ∧ ∀ j, (q.gives now x m).thread j
      = if j = m.g1.toNat / 2 ^ 24 % 8 then { q.thread j with lcause := m.g1.toNat % 256 } else q.thread j := by
  have ht (k : Core) : (k.tellLost now x).tq = k.tq ∧ (k.tellLost now x).th = k.th := by
    simp only [Core.tellLost]
    split <;> split <;> exact ⟨rfl, rfl⟩
  have hc : q.tq.contains m = true := by simp [hq]
  simp only [Core.gives, hc, if_true]
  refine ⟨?_, fun j => ?_⟩
  · rw [(ht _).1]
    show q.tq.erase m = []
    simp [hq]
  · rw [Core.thread, (ht _).2]
    show ((Core.withLcause _ _ _).thread j) = _
    rw [Core.withLcause, Core.setThread_thread]
    split
    · rename_i e
      rw [e]
      rfl
    · rfl


/-- A halted core that issues again keeps its threads and queues. -/
theorem State.haltWake_thr (s v : State) (c i j : Nat) : (s.haltWake v c).thr i j = v.thr i j := by
  simp only [State.haltWake]
  split
  · exact State.modCore_thr v c (f := fun k => { k with halted := false }) (fun _ => rfl) i j
  · rfl

theorem State.haltWake_rest {β : Type} (p : State → β) (h : ∀ (s : State) c, p (s.modCore c fun k => { k with halted := false }) = p s)
    (s v : State) (c : Nat) : p (s.haltWake v c) = p v := by
  simp only [State.haltWake]
  split
  · exact h v c
  · rfl

/-- A register of a list that leaves zeros out. -/
theorem get_nonzero_cons (n k : Nat) (v : Word) (l : List (Nat × Word)) :
    SMap.get 0#64 n (((k, v) :: l).filter fun p => p.2 != 0#64)
      = if n = k ∧ v ≠ 0#64 then v else SMap.get 0#64 n (l.filter fun p => p.2 != 0#64) := by
  by_cases hv : v = 0#64 <;> simp [hv, SMap.get]

/-- The registers of a started task. -/
theorem Thread.start_regs (x : Thread) (r : TaskRec) (vs : List View) :
    (x.start r vs).gv 1 = r.a1 ∧ (x.start r vs).gv 3 = r.a3 ∧ (x.start r vs).gv 4 = r.a4 := by
  refine ⟨?_, ?_, ?_⟩ <;>
  · simp only [Thread.start, Thread.gv, get_nonzero_cons, List.filter_nil, SMap.get, OfNat.ofNat_ne_zero, OfNat.one_ne_ofNat,
      OfNat.ofNat_ne_one, one_ne_zero, Nat.reduceEqDiff, if_false, true_and, false_and, ite_not]
    split
    · exact Eq.symm ‹_›
    · rfl

@[simp] theorem State.told_core (m : HMsg) (i : Nat) : (s.told m).core i = s.core i := by
  simp only [State.told]
  split <;> rfl

@[simp] theorem State.told_hmsgs (m : HMsg) : (s.told m).hmsgs = s.hmsgs := by
  simp only [State.told]
  split <;> rfl

/-- The thread that a handler's message starts, before it starts. -/
def State.handlerThread (s : State) (c cx : Nat) (y : Thread) : Thread :=
  { (if !isCC c && (s.core c).lid != 0 && (s.launch (s.core c).lid).ctx == cx then y.joinLaunch (s.core c) else y) with ctx := cx }

theorem State.handlerThread_lcause (cx : Nat) (y : Thread) : (s.handlerThread c cx y).lcause = y.lcause := by
  simp only [State.handlerThread, Thread.joinLaunch]
  split
  · split <;> rfl
  · rfl

/-- The only message of a core's queues starts its t7 at its context's handler entry. -/
theorem State.pump_starts {m : HMsg} (hs : (s.thr c 7).st = 0) (hq : (s.core c).tq = [m]) (hn : (s.core c).nq = [])
    (hr : m.ready = true) (he : s.handlerEntry m.ctx ≠ 0) :
    let u := s.pump c
    u.hmsgs = s.hmsgs ∧ (u.core c).tq = [] ∧ (u.thr c 7).st = 1 ∧ (u.thr c 7).pc = fpCode (s.handlerEntry m.ctx) ∧ (u.thr c 7).ctx = m.ctx
      ∧ (u.thr c 7).gv 1 = m.g1 ∧ (u.thr c 7).gv 2 = m.g2 ∧ (u.thr c 7).gv 3 = m.g3
      ∧ (u.thr c (m.g1.toNat / 2 ^ 24 % 8)).lcause = m.g1.toNat % 256 := by
  obtain ⟨htq, hth⟩ := Core.gives_only hq s.dtime m.ctx
  have hp : s.pump c = s.haltWake
      (((s.takeMsg c m.ctx m).modCore c fun k => { k with serving := m.ctx, served := s.dtime }).modThr c 7 fun y =>
        ((s.handlerThread c m.ctx y).start { entry := s.handlerEntry m.ctx, a1 := m.g1, a3 := m.g3 } []).setG 2 m.g2) c := by
    simp only [State.pump, hs, if_true, State.nextCtx_only hq hn hr he, State.nextMsg_only hq hr]
    rfl
  generalize hw : (s.takeMsg c m.ctx m).modCore c (fun k => { k with serving := m.ctx, served := s.dtime }) = w at hp
  have hwc : (w.core c).tq = [] ∧ ∀ j, w.thr c j = ((s.core c).gives s.dtime m.ctx m).thread j := by
    rw [← hw, State.takeMsg_eq]
    simp only [State.thr, Core.thread, State.modCore_core, if_true, State.told_core, htq, true_and, implies_true]
  have hwh : w.hmsgs = s.hmsgs := by
    rw [← hw, State.takeMsg_eq]
    exact State.told_hmsgs m
  obtain ⟨h1, h3, -⟩ := Thread.start_regs (s.handlerThread c m.ctx (w.thr c 7)) { entry := s.handlerEntry m.ctx, a1 := m.g1, a3 := m.g3 } []
  have ho := State.OnlyThread.of_modThr w c 7 fun y =>
    ((s.handlerThread c m.ctx y).start { entry := s.handlerEntry m.ctx, a1 := m.g1, a3 := m.g3 } []).setG 2 m.g2
  have hut := ho.coreSame Core.tq (fun _ _ => rfl) c
  simp only [hp, State.haltWake_thr, State.haltWake_rest State.hmsgs fun _ _ => rfl, State.modThr_thr, and_self, if_true, Thread.setG_gv]
  refine ⟨hwh, ?_, by simp [Thread.start], by simp [Thread.start], ?_, h1, rfl, h3, ?_⟩
  · rw [State.haltWake_rest (fun v => (v.core c).tq) (fun v d => ?_), hut, hwc.1]
    simp only [State.modCore_core]
    split
    · subst c; rfl
    · rfl
  · simp [Thread.start, State.handlerThread]
  · have hl : (w.thr c (m.g1.toNat / 2 ^ 24 % 8)).lcause = m.g1.toNat % 256 := by rw [hwc.2, hth, if_pos rfl]
    split
    · rename_i h7
      rw [h7.2] at hl
      rw [Thread.setG_lcause]
      exact (State.handlerThread_lcause ..).trans hl
    · exact hl

section
variable {x : Nat} {m : HMsg} (he : s.handlerEntry x = 0) (hm : s.nextMsg c x = some m)
  (ht : (s.thr c 7).st = 0 ∨ (s.thr c 7).ctx = x) (hd : m.since + 850000 ≤ s.dtime)
include he hm ht hd

/-- A message without a handler entry ends its context's kernel on the cluster, once LCAUSE may have been written. -/
theorem handlerEntryTimeout_of : ∃ w : State, exec (.handlerEntryTimeout c x) s = .next (w.endKernelOn (clusterOf c) x (m.g1.toNat % 256))
    ∧ w.launches = s.launches := by
  have hbusy : ¬ (s.handlerEntry x ≠ 0 ∨ ((s.thr c 7).st ≠ 0 ∧ (s.thr c 7).ctx ≠ x)) := by
    rintro (h | ⟨h, h'⟩)
    · exact h he
    · exact ht.elim h h'
  show ∃ w : State, execHandlerEntryTimeout c x s = _ ∧ _
  simp only [execHandlerEntryTimeout, if_neg hbusy, hm, if_neg (Nat.not_lt.mpr hd)]
  have hl (a j : Nat) (f : Thread → Thread) : (if a = 0 then s else s.modThr (a - 1) j f).launches = s.launches := by split <;> rfl
  exact ⟨_, rfl, hl ..⟩

end

/-! ### Rotations (R36, R302, R303) -/

theorem State.activate_mem (s : State) (c : Nat) : (s.activate c).mem = s.mem := by
  simp only [State.activate]
  split
  · rfl
  · split
    · rfl
    · split <;> rfl

theorem State.arbitrate_mem (s : State) (c : Nat) : (s.arbitrate c).mem = s.mem := by
  simp only [State.arbitrate]
  split <;> rfl

theorem State.takeLog_mem (s : State) (c t : Nat) : (s.takeLog c t).mem = s.mem := by
  simp only [State.takeLog]
  split
  · rfl
  · split <;> rfl

theorem State.joinViews_mem (s : State) (a scope : Nat) (vs : List View) : (s.joinViews a scope vs).mem = s.mem := by
  obtain ⟨o, h⟩ := s.joinViews_eq a scope vs
  rw [h]

theorem State.joinViews_core (s : State) (a scope : Nat) (vs : List View) (i : Nat) : (s.joinViews a scope vs).core i = s.core i := by
  obtain ⟨o, h⟩ := s.joinViews_eq a scope vs
  rw [h]
  rfl

theorem State.startEighth_mem (s : State) (c : Nat) : (s.startEighth c).mem = s.mem := by
  simp only [State.startEighth]
  split
  · rfl
  · split
    · rfl
    · simp only [State.launchThread, State.takeLog_mem, State.joinViews_mem, State.modThr_mem, State.modCore_mem]

theorem State.startTask_mem (s : State) (c t : Nat) (r : TaskRec) (vs : List View) : (s.startTask c t r vs).mem = s.mem := by
  simp only [State.startTask, State.joinViews_mem, State.modThr_mem]

theorem State.startRecords_mem (s : State) (c : Nat) : (s.startRecords c).mem = s.mem := by
  refine foldl_same State.mem (fun v t => ?_) _ s
  split
  · simp only [State.startTask_mem, State.modCore_mem]
  · rfl

theorem slotRotationStart_of (hp : 32 ≤ (s.core c).pos) (hs : (s.core c).stopped = false) :
    exec (.slotRotationStart c) s = .next (s.rotate c) := by
  show execSlotRotationStart c s = _
  simp [execSlotRotationStart, hs, Nat.not_lt.mpr hp]

/-- After a rotation begins, no thread of the core counts as having yielded. -/
theorem State.rotate_core (s : State) (c : Nat) : ((s.rotate c).core c).pos = 0 ∧ ∀ t, ((s.rotate c).thr c t).yielded = false := by
  have h (v : State) : let u := v.modCore c fun k => { k with pos := 0, th := k.th.map fun r => (r.1, { r.2 with yielded := false }) }
      (u.core c).pos = 0 ∧ ∀ t, (u.thr c t).yielded = false := by
    simp only [State.thr, Core.thread, State.modCore_core, if_true, true_and]
    intro t
    rw [SMap.get_mapVal (f := fun y : Thread => { y with yielded := false }) rfl]
  exact h _

/-! ### Stealing (R303, R304) and dry channels (R163) -/

/-- The core in a state of its stealing. -/
def State.steals (s : State) (c : Nat) (st : Steal) : State := s.modCore c fun q => { q with steal := st }

@[simp] theorem State.steals_steal (st : Steal) : ((s.steals c st).core c).steal = st := by simp [State.steals]

theorem stealRequest_none (hs : (s.core c).steal = .idle) (hi : (s.core c).idleThief = true) (hv : s.victims c = []) :
    exec (.stealRequest c) s = .next (s.steals c .waiting) := by
  show execStealRequest c s = _
  simp only [execStealRequest, hs, hi, decide_true, Bool.and_self, if_true, hv]
  rfl

theorem stealRequest_asks (hs : (s.core c).steal = .idle) (hi : (s.core c).idleThief = true) (hv : s.victims c ≠ []) :
    exec (.stealRequest c) s = .next (s.steals c (.asking (s.victims c))) := by
  show execStealRequest c s = _
  simp only [execStealRequest, hs, hi, decide_true, Bool.and_self, if_true, State.steals]

section
variable {v : Nat} {vs : List Nat} (hs : (s.core c).steal = .asking (v :: vs)) (ht : (s.core v).ptag = (s.core c).ptag)
  {k : Nat} (hk : (s.core c).eligible.head? = some k) (hc : s.stopReached c = false) (hv : s.stopReached v = false)
include hs ht hk hc hv

theorem stealAnswer_takes {r : DqRec} (hr : (s.core v).botRec = some r) : exec (.stealAnswer c) s
    = .next (((s.steals c .idle).modCore v fun q => q.dropRec r.id).startTask c k r.task r.views) := by
  show execStealAnswer c s = _
  simp only [execStealAnswer, hs, ht, hk, hc, hv, hr, Bool.or_self, Bool.false_eq_true, if_false, if_true]
  rfl

theorem stealAnswer_asks (hr : (s.core v).botRec = none) (hne : vs ≠ []) : exec (.stealAnswer c) s = .next (s.steals c (.asking vs)) := by
  have he : vs.isEmpty = false := by cases vs <;> simp_all
  show execStealAnswer c s = _
  simp only [execStealAnswer, hs, ht, hk, hc, hv, hr, he, Bool.or_self, Bool.false_eq_true, if_false, if_true]
  rfl

end

/-- The thread that a task record starts on, before it starts. -/
def State.taskThread (s : State) (c : Nat) (x : Thread) : Thread :=
  { x.joinLaunch (s.core c) with ctx := if x.lid = (s.core c).lid then x.ctx else (s.launch (s.core c).lid).ctx }

/-- A task record that starts on a thread, beside what the thread has seen. -/
theorem State.startTask_keeps (s : State) (c t : Nat) (r : TaskRec) (vs : List View) :
    let u := s.startTask c t r vs
    (u.thr c t).st = 1 ∧ (u.thr c t).pc = fpCode r.entry ∧ (u.thr c t).gv 1 = r.a1 ∧ (u.thr c t).gv 3 = r.a3
      ∧ (u.thr c t).gv 4 = r.a4 ∧ ∀ d, (u.core d).deque = (s.core d).deque ∧ (u.core d).steal = (s.core d).steal := by
  have hu : s.startTask c t r vs = (s.modThr c t fun x => (s.taskThread c x).start r []).joinViews (agThread c t) 5 vs := rfl
  have ht : (s.startTask c t r vs).thr c t = (s.taskThread c (s.thr c t)).start r [] := by
    rw [hu, State.thr, State.joinViews_core]
    exact (State.modThr_thr ..).trans (if_pos ⟨rfl, rfl⟩)
  have hc (d : Nat) {β : Type} (p : Core → β) (hp : ∀ (q : Core) th, p { q with th := th } = p q) :
      p ((s.startTask c t r vs).core d) = p (s.core d) := by
    rw [hu, State.joinViews_core]
    exact (State.OnlyThread.of_modThr ..).coreSame p hp d
  obtain ⟨h1, h3, h4⟩ := Thread.start_regs (s.taskThread c (s.thr c t)) r []
  simp only [ht]
  exact ⟨rfl, rfl, h1, h3, h4, fun d => ⟨hc d Core.deque fun _ _ => rfl, hc d Core.steal fun _ _ => rfl⟩⟩

theorem channelDry_of (hcc : isCC c = false) (hs : (s.thr c k).st = 2) (hp : (s.thr c k).prsn = 0x01) (hd : (s.thr c k).dryTold = false)
    (hl : (s.clu (clusterOf c)).rctmo.toNat ≠ 0) (hr : (s.roleOf c).toNat / 2 ^ 14 = 2) (hi : roleInreg (s.roleOf c) ≠ 0)
    (hg : (s.thr c k).parkReg = roleInreg (s.roleOf c)) (hw : (s.thr c k).dry + 2 * (s.clu (clusterOf c)).rctmo.toNat < s.cyc) :
    exec (.channelDry c k) s = .next ((s.notify (ccOf c) 1 0x45 0 k 0 (BitVec.ofNat 64 (coreIx c + k * 256)) (s.thr c k).ctx (c + 1)).modThr c k
      fun y => { y with dryTold := true }) := by
  have hb : bits (s.roleOf c).toNat 14 2 = 2 := by
    unfold bits
    rw [hr]
    rfl
  show execChannelDry c k s = _
  simp [execChannelDry, hcc, hs, hp, hd, hl, hb, hi, hg, Nat.not_le.mpr hw]

end

end Sys2Proof.Machine
end

section
/-! SUPPORT. A group's end without a stop (R55 step 6), and a thread that migrates (R159). -/

namespace Sys2Proof.Machine

open Sys2Proof.Spec

section
variable {s t u : State} {c k : Nat}

/-! ### Step 6 (R55) -/

/-- The thread issues again at the head after its marker. -/
def Thread.finished (y : Thread) : Thread :=
  { y with
    st := 1, prsn := 0, phase := .issue, s5 := [], late := [], post := .none, pc := y.nextPc, snap := none
    fb := if y.grp.ifence then [] else y.fb, grp := {} }

theorem State.step5_done (h : (s.thr c k).s5 = []) : s.step5 c k = s.finish c k := by
  simp only [State.step5, State.runS5, h]

/-- Nothing stops a thread after its commit: neither an assist, nor a late fault, nor a full log. -/
theorem State.afterCommit_none (ha : (s.thr c k).assist = none) (hl : (s.core c).lateOf k = none) (hd : (s.thr c k).duo = false) :
    s.afterCommit c k .none = s := by
  have hs : s.stopAfter c k .none = s := by simp [State.stopAfter, ha, hl]
  simp [State.afterCommit, hs, State.logFull, hd]

/-- A commit whose effects have all been accepted ends in its sequel. -/
theorem State.finish_accepted (h7 : k ≠ 7) (hm : (s.thr c k).mbx = []) (hl : (s.thr c k).late = []) :
    s.finish c k = ((s.modThr c k Thread.finished).modThr c k fun x => { x with mbx := [] }).afterCommit c k (s.thr c k).post := by
  have hb : ((s.modThr c k Thread.finished).thr c k).mbx = [] := by
    simp only [State.modThr_thr, and_self, if_true]
    exact hm
  have hf : s.finish c k = match (s.thr c k).late with
      | l :: ls => ((s.modThr c k Thread.finished).settleMbx c k).afterRefusal c k l (ls.length + 1) (s.thr c k).post
      | [] => ((s.modThr c k Thread.finished).settleMbx c k).afterCommit c k (s.thr c k).post := by
    simp only [State.finish]
    generalize (s.thr c k).late = r
    cases r <;> rfl
  rw [hf, hl, State.settleMbx_nil h7 hb]

theorem State.finish_none (h7 : k ≠ 7) (hm : (s.thr c k).mbx = []) (hl : (s.thr c k).late = []) (ha : (s.thr c k).assist = none)
    (hf : (s.core c).lateOf k = none) (hd : (s.thr c k).duo = false) (hp : (s.thr c k).post = .none) :
    s.finish c k = (s.modThr c k Thread.finished).modThr c k fun x => { x with mbx := [] } := by
  rw [State.finish_accepted h7 hm hl, hp]
  refine State.afterCommit_none ?_ ?_ ?_
  · rw [State.modThr_thr, if_pos ⟨rfl, rfl⟩, State.modThr_thr, if_pos ⟨rfl, rfl⟩]
    exact ha
  · have e := ((State.OnlyThread.of_modThr s c k Thread.finished).trans (.of_modThr _ c k fun x => { x with mbx := [] })).coreSame
      Core.tq (fun _ _ => rfl) c
    rw [Core.lateOf, e]
    exact hf
  · rw [State.modThr_thr, if_pos ⟨rfl, rfl⟩, State.modThr_thr, if_pos ⟨rfl, rfl⟩]
    exact hd

/-! ### Migration (R159) -/

/-- The migration in place `k` is off the mesh. -/
def State.dropMig (s : State) (k : Nat) : State := { s with migs := s.migs.eraseIdx k }

/-- The thread is on its new core, where what it has written and seen goes with it (R94, R159). -/
def State.arrives (s : State) (m : Mig) (u : Nat) : State :=
  let a := agThread m.dst u
  let s1 := s.modThr m.dst u fun y => y.arrive (s.thr m.src m.thr) a
  { s1 with oom := { s1.oom with
    evs := s1.oom.evs.map fun r => (r.1, if r.2.agent = agThread m.src m.thr then { r.2 with agent := a } else r.2)
    fr := SMap.set [] (agThread m.src m.thr) [] (SMap.set [] (agThread m.dst u) (s.oom.front (agThread m.src m.thr)) s1.oom.fr) } }

/-- The thread's old context, which belongs to no launch any longer, is free. -/
def State.leaves (s : State) (c k : Nat) : State := (s.modThr c k fun x => { x with lid := 0 }).freeThread c k

section
variable {m : Mig} (hm : s.migs[k]? = some m)
include hm

theorem migrationArrival_sealed {e : Eff} (he : (s.thr m.src m.thr).s5 = [e]) (hs : (s.core m.dst).isSealed = true) :
    Goes (.migrationArrival k) s fun v => v.migs = s.migs.eraseIdx k ∧ (v.thr m.src m.thr).s5 = [{ e with st := 3, ans := 0x4100 }] := by
  show ∃ v, execMigrationArrival k s = _ ∧ _
  simp only [execMigrationArrival, hm, hs, if_true]
  refine ⟨_, rfl, rfl, ?_⟩
  simp only [State.modThr_thr, and_self, if_true]
  show (match (s.thr m.src m.thr).s5 with | [] => [] | e :: l => _) = _
  rw [he]
  rfl

theorem migrationArrival_moves {u : Nat} (hs : (s.core m.dst).isSealed = false) (ht : (s.core m.dst).stopped = false)
    (hh : s.heldCore m.dst = false) (hc : isCC m.dst = false) (hp : (s.core m.dst).ptag = m.stamp) (hu : (s.core m.dst).freeCtx = some u) :
    ∃ w : State, exec (.migrationArrival k) s = .next (w.step5 m.dst u)
      ∧ w.cores = (((s.dropMig k).arrives m u).leaves m.src m.thr).cores ∧ w.migs = (((s.dropMig k).arrives m u).leaves m.src m.thr).migs := by
  have he : s.ejects m.dst 0 m.stamp (s.domOf m.src m.thr == 2) = true := by simp [State.ejects, hc, hp]
  show ∃ w : State, execMigrationArrival k s = _ ∧ _
  simp only [execMigrationArrival, hm, hs, ht, hh, he, hu, Bool.false_eq_true, if_false, Bool.or_self, Bool.not_true]
  refine ⟨_, rfl, ?_⟩
  split
  · exact ⟨rfl, rfl⟩
  · exact ⟨rfl, rfl⟩

end

/-- Once a thread of another core is free, the arrived one stands as it was but for its LCAUSE. -/
theorem State.leaves_other (s : State) {d : Nat} (hd : d ≠ c) (h7 : k ≠ 7) (j : Nat) (hp : ∀ l, (s.thr d j).phase ≠ .barrier l) :
    ((s.leaves c k).core d).tq = (s.core d).tq ∧ ∃ n, (s.leaves c k).thr d j = { s.thr d j with lcause := n } := by
  have hs := State.freeThread_stirs (s.modThr c k fun x => { x with lid := 0 }) c h7
  have hc : (((s.modThr c k fun x => { x with lid := 0 }).dropLog c k).modThr c k fun x => x.release).core d = s.core d := by
    rw [State.modThr, State.setThr_core_ne _ hd, State.dropLog_core _ hd, State.modThr, State.setThr_core_ne _ hd]
  have ht : (((s.modThr c k fun x => { x with lid := 0 }).dropLog c k).modThr c k fun x => x.release).thr d j = s.thr d j := by
    rw [State.thr, hc, State.thr]
  refine ⟨(hs.tq d hd).trans (congrArg Core.tq hc), ?_⟩
  obtain ⟨n, h⟩ := hs.thr d j (by rw [ht]; exact hp) fun e => hd e.1
  exact ⟨n, by rw [State.leaves, h, ht]⟩

theorem State.leaves_free (s : State) (h7 : k ≠ 7) : ((s.leaves c k).thr c k).st = 0 := by
  obtain ⟨n, h⟩ := State.freeThread_thr (s.modThr c k fun x => { x with lid := 0 }) c h7
  rw [State.leaves, h]
  rfl

theorem Core.freeCtx_some {q : Core} {u : Nat} (h : q.freeCtx = some u) : u < 7 := by
  have hm := List.mem_of_find?_eq_some h
  exact List.mem_range.mp hm

/-- A thread that nothing stops goes on, on its new core, at the head after its marker. -/
theorem State.arrives_goesOn {m : Mig} {u : Nat} {e : Eff} {w : State} (hu : u < 7) (hne : m.src ≠ m.dst) (hq : Quiet s m.src m.thr)
    (hs : (s.thr m.src m.thr).s5 = [e]) (hp : (s.thr m.src m.thr).post = .none) (hl : (s.core m.dst).lateOf u = none)
    (hb : (s.thr m.dst u).mbx = []) (hw : w.cores = ((s.arrives m u).leaves m.src m.thr).cores) :
    let x := s.thr m.src m.thr
    let v := w.step5 m.dst u
    v.migs = w.migs ∧ (v.thr m.dst u).st = 1 ∧ (v.thr m.dst u).phase = .issue ∧ (v.thr m.dst u).pc = x.nextPc
      ∧ (∀ n, (v.thr m.dst u).gv n = x.gv n) ∧ (∀ n, (v.thr m.dst u).pv n = x.pv n) ∧ (v.thr m.src m.thr).st = 0 := by
  obtain ⟨hlow, has, -, hla, hdu, -⟩ := hq
  have h7 := Nat.ne_of_lt hlow
  have ha : (s.arrives m u).thr m.dst u = (s.thr m.dst u).arrive (s.thr m.src m.thr) (agThread m.dst u) :=
    (State.modThr_thr s m.dst u m.dst u fun y => y.arrive (s.thr m.src m.thr) (agThread m.dst u)).trans (if_pos ⟨rfl, rfl⟩)
  obtain ⟨htq, n, hn⟩ := (s.arrives m u).leaves_other (c := m.src) (k := m.thr) hne.symm h7 u (by rw [ha]; exact fun _ e => Phase.noConfusion e)
  have hcore (d : Nat) : w.core d = ((s.arrives m u).leaves m.src m.thr).core d := by rw [State.core, hw, State.core]
  have hthr (d j : Nat) : w.thr d j = ((s.arrives m u).leaves m.src m.thr).thr d j := by rw [State.thr, hcore, State.thr]
  have hx : w.thr m.dst u = { (s.thr m.dst u).arrive (s.thr m.src m.thr) (agThread m.dst u) with lcause := n } := by rw [hthr, hn, ha]
  have hlate : (w.core m.dst).lateOf u = none := by
    have hq : ((s.arrives m u).core m.dst).tq = (s.core m.dst).tq :=
      (State.OnlyThread.of_modThr s m.dst u fun y => y.arrive (s.thr m.src m.thr) (agThread m.dst u)).coreSame Core.tq (fun _ _ => rfl) m.dst
    rw [Core.lateOf, hcore, htq, hq]
    exact hl
  have hstep : w.step5 m.dst u = (w.modThr m.dst u Thread.finished).modThr m.dst u fun x => { x with mbx := [] } := by
    rw [State.step5_done, State.finish_none (Nat.ne_of_lt hu) ?_ ?_ ?_ hlate ?_ ?_]
    · rw [hx]; exact hb
    · rw [hx]; exact hla
    · rw [hx]; exact has
    · rw [hx]; exact hdu
    · rw [hx]; exact hp
    · rw [hx]; show (s.thr m.src m.thr).s5.tail = []; rw [hs]; rfl
  have hsrc : ¬ (m.src = m.dst ∧ m.thr = u) := fun e => hne e.1
  simp only [hstep, State.modThr_thr, and_self, if_true, if_neg hsrc, hx]
  refine ⟨rfl, rfl, rfl, rfl, fun _ => rfl, fun _ => rfl, ?_⟩
  rw [hthr]
  exact State.leaves_free _ h7

end

/-- Settles O53: what arrives at threads and cores, event by event. -/
theorem threadEvents_hold : Obligations.ThreadEvents := by
  unfold Obligations.ThreadEvents
  refine ⟨fun s k m hm => ⟨fun hs h1 hmem => ?_, fun hs ht hh he hc hr hl => ⟨fun hf hd hlow hb hp => ?_, fun hf hb => ?_⟩⟩,
    fun s k h hm => ⟨fun hs => ?_, fun hs ht hh hz hrd hq hn => ⟨fun h0 he => ?_, fun h0 hf => ?_⟩⟩,
    fun s c x m he hm ht hd => ?_, fun s c hp hs => ?_, fun s c t hc hs hp hd => ?_,
    fun s k u m e hm he => ⟨fun hs => ?_, fun hs ht hh hc hp hu hne hq hpo hl hb => ?_⟩,
    fun s c hs hi => ?_, fun s c v t vs hs hne ht hk hc hv => ⟨fun r hr => ?_, fun hr hne => ?_⟩, fun s c hs => ?_⟩
  · exact ⟨_, messageDelivery_sealed hm hs, rfl, State.tell_mem (s := s.dropMsg k) (fun e => { e with st := 3, ans := 0x41 }) h1 hmem⟩
  · obtain ⟨u, l, hgo, hmsgs, hthr⟩ := messageDelivery_fills hm hs ht hh he hc hf hd hlow hb
    obtain ⟨hg, hfu, hpo, hrest⟩ := Thread.take_box (x := s.thr m.dst m.thr) hr hl hp l
    rw [← hthr] at hg hfu hpo hrest
    exact ⟨u, hgo, hmsgs, hg, hfu, hpo, hrest⟩
  · exact messageDelivery_waits hm hs ht hh he hc hf hb
  · exact handlerMessageArrival_sealed hm hs
  · have hqt : (((s.dropHmsg k).queueTrap h.dst h.msg).core h.dst).tq = [h.msg.stamped s.dtime] :=
      (State.queueTrap_tq ..).trans (congrArg (· ++ [h.msg.stamped s.dtime]) hq)
    have hnq : (((s.dropHmsg k).queueTrap h.dst h.msg).core h.dst).nq = [] := (State.queueTrap_nq ..).trans hn
    have hst : (((s.dropHmsg k).queueTrap h.dst h.msg).thr h.dst 7).st = 0 := (congrArg Thread.st (State.queueTrap_thr ..)).trans h0
    exact ⟨_, handlerMessageArrival_trap hm hs ht hh hz, State.pump_starts (m := h.msg.stamped s.dtime) hst hqt hnq hrd he⟩
  · have hx := State.queueTrap_thr (s := s.dropHmsg k) h.dst h.dst 7 h.msg
    have hpump : ((s.dropHmsg k).queueTrap h.dst h.msg).pump h.dst = (s.dropHmsg k).queueTrap h.dst h.msg :=
      State.pump_busy (by rw [hx]; exact h0) (by rw [hx]; exact hf)
    refine ⟨_, (handlerMessageArrival_trap hm hs ht hh hz).trans (congrArg _ hpump), rfl, ?_⟩
    exact (State.queueTrap_tq ..).trans (congrArg (· ++ [h.msg.stamped s.dtime]) hq)
  · obtain ⟨w, hgo, hw⟩ := handlerEntryTimeout_of he hm ht hd
    refine ⟨_, hgo, fun l hx hend ⟨d, hdm, hdc⟩ => ?_⟩
    have hl : w.launch l = s.launch l := by rw [State.launch, hw, State.launch]
    exact State.endKernelOn_launch (s := w) (by rw [hl]; exact hx) (by rw [hl]; exact hend) (by rw [hl]; exact hdm) hdc
  · obtain ⟨h0, hy⟩ := s.rotate_core c
    refine ⟨_, slotRotationStart_of hp hs, h0, hy, ?_⟩
    simp only [State.rotate, State.modCore_mem, State.startRecords_mem, State.startEighth_mem, State.arbitrate_mem, State.activate_mem]
  · intro lim hlim hr hi hg hw
    refine ⟨_, channelDry_of hc hs hp hd hlim hr hi hg hw, ?_, rfl⟩
    simp only [State.modThr_thr, and_self, if_true]
  · exact migrationArrival_sealed hm he hs
  · obtain ⟨w, hgo, hcores, hmigs⟩ := migrationArrival_moves hm hs ht hh hc hp hu
    obtain ⟨hm', hrest⟩ := State.arrives_goesOn (s := s.dropMig k) (Core.freeCtx_some hu) hne ⟨hq.low, hq.assist, hq.late, hq.accepted, hq.single, hq.mail⟩
      he hpo hl hb hcores
    refine ⟨_, hgo, hm'.trans (hmigs.trans ?_), hrest⟩
    exact (State.freeThread_still (q := False) _ m.src m.thr False.elim).migs
  · refine (em (s.victims c = [])).elim (fun hv => ?_) fun hv => ?_
    · exact ⟨_, stealRequest_none hs hi hv, fun _ => State.steals_steal _, fun h => absurd hv h⟩
    · exact ⟨_, stealRequest_asks hs hi hv, fun h => absurd h hv, fun _ => State.steals_steal _⟩
  · obtain ⟨hst, hpc, h1, h3, h4, hcore⟩ := State.startTask_keeps ((s.steals c .idle).modCore v fun q => q.dropRec r.id) c t r.task r.views
    refine ⟨_, stealAnswer_takes hs ht hk hc hv hr, ?_, hst, hpc, h1, h3, h4, ?_⟩
    · rw [(hcore c).2, State.modCore_core, if_neg hne.symm, State.steals_steal]
    · rw [(hcore v).1, State.modCore_core, if_pos rfl]
      intro q hq
      simpa using (List.mem_filter.mp hq).2
  · exact ⟨_, stealAnswer_asks hs ht hk hc hv hr hne, State.steals_steal _⟩
  · refine ⟨s.steals c .idle, ?_, State.steals_steal _⟩
    show execStealBackoffExpiry c s = _
    simp only [execStealBackoffExpiry, hs, decide_true, Bool.true_or, if_true]
    rfl

end Sys2Proof.Machine
end

section
/-! SUPPORT. Step 5 of a commit takes one effect at a time (R55, R157). -/

namespace Sys2Proof.Machine

open Sys2Proof.Spec

section
variable {s u w : State} {c t : Nat} {e : Eff} {es : List Eff}

/-! ### One effect -/

/-- A state in which step 5 of a thread stands as it did. -/
structure State.SameStep (s u : State) (c t : Nat) : Prop where
  s5 : (u.thr c t).s5 = (s.thr c t).s5
  phase : (u.thr c t).phase = (s.thr c t).phase
  runs : (u.core c).stopped = (s.core c).stopped

theorem commitStep5Resume_of (hp : (s.thr c t).phase = .step5) (hr : (s.core c).stopped = false) :
    exec (.commitStep5Resume c t) s = .next (s.step5 c t) := by
  show execCommitStep5Resume c t s = _
  simp [execCommitStep5Resume, hp, hr]

/-- An effect that no stop has saved undispatched takes no check again. -/
theorem State.effectChecked_fresh (h : e.again = false) (s : State) (c t : Nat) : s.effectChecked c t e = s.effect c t e := by
  simp only [State.effectChecked, State.recheck, State.relocate, h, Bool.not_false, if_true]

section
variable (h : AtStep5 s c t e es)
include h

theorem step5_accepts {s1 : State} (he : s.effect c t e = .done s1) :
    s.step5 c t = State.runS5 c t (es.length + 1) (s1.modThr c t (·.popEff)) := by
  simp only [State.step5, h.head, List.length_cons]
  rw [State.runS5]
  simp only [h.head, State.effectChecked_fresh h.fresh, he]

theorem step5_refused {s1 : State} {cause sub : Nat} {info : Word} (he : s.effect c t e = .refuse s1 cause sub info) :
    s.step5 c t = State.runS5 c t (es.length + 1) (s1.modThr c t fun x => (x.refuse e cause sub info).popEff) := by
  simp only [State.step5, h.head, List.length_cons]
  rw [State.runS5]
  simp only [h.head, State.effectChecked_fresh h.fresh, he]

theorem step5_stalls {s1 : State} {prsn : Nat} (he : s.effect c t e = .stall s1 prsn) :
    s.step5 c t = s1.modThr c t fun x => x.stallIn prsn := by
  simp only [State.step5, h.head, List.length_cons]
  rw [State.runS5]
  simp only [h.head, State.effectChecked_fresh h.fresh, he]

/-- Step 5 goes on from a state in which the effect is done with. -/
theorem goesOn_of {P : State → Prop} (hs : s.step5 c t = State.runS5 c t (es.length + 1) w) (h5 : (w.thr c t).s5 = es)
    (hp : (w.thr c t).phase = .step5) (hr : (w.core c).stopped = false) (hP : P w) : GoesOn s c t es P := by
  refine ⟨w, ?_, hp, h5, hP⟩
  rw [commitStep5Resume_of h.phase h.runs, commitStep5Resume_of hp hr, hs, State.step5, h5]

theorem goesOn_done {s1 : State} {P : State → Prop} (he : s.effect c t e = .done s1) (hs : s.SameStep s1 c t)
    (hP : P (s1.modThr c t (·.popEff))) : GoesOn s c t es P := by
  refine goesOn_of h (step5_accepts h he) ?_ ?_ ?_ hP
  · simp only [State.modThr_thr, and_self, if_true, Thread.popEff, hs.s5, h.head, List.tail_cons]
  · simp only [State.modThr_thr, and_self, if_true, Thread.popEff, hs.phase, h.phase]
  · exact ((State.OnlyThread.of_modThr s1 c t (·.popEff)).coreSame Core.stopped (fun _ _ => rfl) c).trans (hs.runs.trans h.runs)

theorem goesOn_refused {s1 : State} {cause sub : Nat} {info : Word} {P : State → Prop} (he : s.effect c t e = .refuse s1 cause sub info)
    (hs : s.SameStep s1 c t) (hP : P (s1.modThr c t fun x => (x.refuse e cause sub info).popEff)) : GoesOn s c t es P := by
  refine goesOn_of h (step5_refused h he) ?_ ?_ ?_ hP
  · simp only [State.modThr_thr, and_self, if_true, Thread.popEff, Thread.refuse, hs.s5, h.head, List.tail_cons]
  · simp only [State.modThr_thr, and_self, if_true, Thread.popEff, Thread.refuse, hs.phase, h.phase]
  · exact ((State.OnlyThread.of_modThr s1 c t fun x => (x.refuse e cause sub info).popEff).coreSame Core.stopped (fun _ _ => rfl) c).trans
      (hs.runs.trans h.runs)

theorem waitsIn_stall {s1 : State} {prsn : Nat} {l : List Eff} {P : State → Prop} (hz : prsn ≠ 0) (he : s.effect c t e = .stall s1 prsn)
    (hl : (s1.thr c t).s5 = l) (hp : (s1.thr c t).phase = .step5) (hst : (s1.thr c t).st = (s.thr c t).st) (hm : s1.mem = s.mem)
    (hP : P (s1.modThr c t fun x => x.stallIn prsn)) : WaitsIn s c t prsn l P := by
  refine ⟨_, (commitStep5Resume_of h.phase h.runs).trans (congrArg _ (step5_stalls h he)), ?_, ?_, ?_, fun hne => ?_, hm, hP⟩
  all_goals simp only [State.modThr_thr, and_self, if_true, Thread.stallIn, if_neg hz]
  · split
    · exact hl
    · exact hl
  · split
    · exact hp
    · exact hp
  · split
    · assumption
    · rfl
  · rw [hst, if_neg hne]

end

/-! ### What an effect leaves -/

/-- Memory, the ordering machine, the thread's g registers and every other core stand. -/
def State.Keeps (s w : State) (c t : Nat) : Prop :=
  w.mem = s.mem ∧ w.oom = s.oom ∧ (∀ n, (w.thr c t).gv n = (s.thr c t).gv n) ∧ ∀ d, d ≠ c → w.core d = s.core d

theorem State.Keeps.refl (s : State) (c t : Nat) : s.Keeps s c t := ⟨rfl, rfl, fun _ => rfl, fun _ _ => rfl⟩

theorem State.Keeps.trans (h : s.Keeps u c t) (g : u.Keeps w c t) : s.Keeps w c t :=
  ⟨g.1.trans h.1, g.2.1.trans h.2.1, fun n => (g.2.2.1 n).trans (h.2.2.1 n), fun d hd => (g.2.2.2 d hd).trans (h.2.2.2 d hd)⟩

theorem State.Keeps.of_modThr (s : State) (c t : Nat) {f : Thread → Thread} (h : ∀ x n, (f x).gv n = x.gv n) : s.Keeps (s.modThr c t f) c t :=
  ⟨rfl, rfl, fun n => by simp only [State.modThr_thr, and_self, if_true, h], fun _ hd => State.setThr_core_ne _ hd ..⟩

theorem State.Keeps.of_modCore (s : State) (c t : Nat) {f : Core → Core} (h : ∀ k, (f k).th = k.th) : s.Keeps (s.modCore c f) c t :=
  ⟨rfl, rfl, fun n => by rw [State.modCore_thr s c h], fun d hd => by simp [hd]⟩

/-- The effect is done with, and the registers stand. -/
theorem State.Keeps.pop (h : s.Keeps u c t) : s.Keeps (u.modThr c t (·.popEff)) c t := h.trans (.of_modThr _ c t fun _ _ => rfl)

theorem Thread.stallIn_gv (x : Thread) (p n : Nat) : (x.stallIn p).gv n = x.gv n := by
  simp only [Thread.stallIn]
  split
  · rfl
  · split <;> rfl

theorem State.Keeps.stall (h : s.Keeps u c t) (p : Nat) : s.Keeps (u.modThr c t fun x => x.stallIn p) c t :=
  h.trans (.of_modThr _ c t fun x n => x.stallIn_gv p n)

theorem State.Keeps.refuse (h : s.Keeps u c t) (e : Eff) (cause sub : Nat) (info : Word) :
    s.Keeps (u.modThr c t fun x => (x.refuse e cause sub info).popEff) c t :=
  h.trans (.of_modThr _ c t fun _ _ => rfl)

theorem State.SameStep.refl (s : State) (c t : Nat) : s.SameStep s c t := ⟨rfl, rfl, rfl⟩

theorem State.SameStep.of_modThr (s : State) (c t : Nat) {f : Thread → Thread} (h5 : ∀ x, (f x).s5 = x.s5) (hp : ∀ x, (f x).phase = x.phase) :
    s.SameStep (s.modThr c t f) c t :=
  ⟨by simp only [State.modThr_thr, and_self, if_true, h5], by simp only [State.modThr_thr, and_self, if_true, hp],
    (State.OnlyThread.of_modThr s c t f).coreSame Core.stopped (fun _ _ => rfl) c⟩

theorem State.SameStep.of_modCore (s : State) (c t : Nat) {f : Core → Core} (h : ∀ k, (f k).th = k.th) (hs : ∀ k, (f k).stopped = k.stopped) :
    s.SameStep (s.modCore c f) c t :=
  ⟨by rw [State.modCore_thr s c h], by rw [State.modCore_thr s c h], by simp only [State.modCore_core, if_true, hs]⟩

end

end Sys2Proof.Machine
end

section
/-! SUPPORT. What each deferred effect does at step 5 (R55, R95, R99, R151, R156, R158, R204, R214, R252). -/

namespace Sys2Proof.Machine

open Sys2Proof.Spec

section
variable {s : State} {c t : Nat} {e : Eff} {es : List Eff}

/-! ### Stores and fences (R95, R99, R151, R394) -/

/-- The scope of a release that a store carries. -/
def Eff.scopeOf (e : Eff) : Option Nat := if e.op = 0x44 then some (e.sreg - 1) else none

theorem State.effect_store (h : e.op ∈ [0x42, 0x44, 0x46, 0x48, 0x4A, 0x7A, 0xC1, 0xEE]) (s : State) (c t : Nat) :
    s.effect c t e = .done (s.storeEff c t e e.scopeOf) := by
  simp only [List.mem_cons, List.not_mem_nil, or_false] at h
  rcases h with h | h | h | h | h | h | h | h <;> simp [State.effect, Eff.scopeOf, h]

/-- A store of at most a doubleword is one entry of the commit queue. -/
theorem storePieces_one (h0 : 0 < e.locs.length) (h8 : e.locs.length ≤ 8) (hd : e.data.length = e.locs.length) (rel : Option Nat) :
    storePieces e rel = [{ seq := e.seq, locs := e.locs, data := e.data, rel := rel, hnd := e.hnds.headD 0, ctx := e.ctx }] := by
  have hn : (e.locs.length + 7) / 8 = 1 := by omega
  have h64 : e.locs.length ≠ 64 := by omega
  simp only [storePieces, hn, if_neg h64, List.range_one, List.map_cons, List.map_nil, Nat.mul_zero, List.drop_zero, List.take_of_length_le h8,
    List.take_of_length_le (hd ▸ h8)]

/-- The entries of a store in the commit queue of a thread. -/
def Thread.storesOf (x : Thread) (e : Eff) : List CqE := (storePieces e e.scopeOf).map fun p => { p with lid := x.lid }

theorem stores_dispatch (h : AtStep5 s c t e es) (ho : e.op ∈ [0x42, 0x44, 0x46, 0x48, 0x4A, 0x7A, 0xC1, 0xEE]) :
    GoesOn s c t es fun w => s.Keeps w c t
      ∧ ((s.thr c t).duo = false → (w.thr c t).cq = (s.thr c t).cq ++ (s.thr c t).storesOf e)
      ∧ ((s.thr c t).duo = true → (w.thr c t).log = (s.thr c t).log ++ logPieces e.va e.data ∧ (w.thr c t).cq = (s.thr c t).cq) := by
  refine goesOn_done h (State.effect_store ho s c t) (.of_modThr s c t ?_ ?_) ⟨(State.Keeps.of_modThr s c t ?_).pop, fun hd => ?_, fun hd => ?_⟩
  · intro x; split <;> rfl
  · intro x; split <;> rfl
  · intro x n; split <;> rfl
  · simp only [State.storeEff, State.modThr_thr, and_self, if_true, hd, Bool.false_eq_true, if_false]
    rfl
  · simp only [State.storeEff, State.modThr_thr, and_self, if_true, hd]
    exact ⟨rfl, rfl⟩

theorem fence_dispatches (h : AtStep5 s c t e es) (ho : e.op = 0x59) (hm : e.m % 4 = 0 ∨ e.m % 4 = 2) :
    GoesOn s c t es fun w => s.Keeps w c t
      ∧ (w.thr c t).cq = (s.thr c t).cq ++ [{ kind := .fence, seq := e.seq, code := e.m / 4 % 8 }] := by
  have he : s.effect c t e = .done (s.modThr c t fun x => { x with cq := x.cq ++ [{ kind := .fence, seq := e.seq, code := bits e.m 2 3 }] }) := by
    rcases hm with hm | hm <;> simp [State.effect, ho, State.fenceEff, hm]
  refine goesOn_done h he (.of_modThr s c t (fun _ => rfl) fun _ => rfl) ⟨.pop (.of_modThr s c t (by intros; rfl)), ?_⟩
  simp only [State.modThr_thr, and_self, if_true]
  rfl

theorem tableFence_dispatches (h : AtStep5 s c t e es) (ho : e.op = 0x5A) :
    (s.tableBusy c t e.seq = false → GoesOn s c t es fun w => s.Keeps w c t)
      ∧ (s.tableBusy c t e.seq = true → WaitsIn s c t 0x0D (e :: es) fun w => s.Keeps w c t) := by
  refine ⟨fun hb => ?_, fun hb => ?_⟩
  · have he : s.effect c t e = .done s := by simp [State.effect, ho, hb]
    exact goesOn_done h he (.refl s c t) (State.Keeps.refl s c t).pop
  · have he : s.effect c t e = .stall s 0x0D := by simp [State.effect, ho, hb]
    exact waitsIn_stall h (by decide) he h.head h.phase rfl rfl ((State.Keeps.refl s c t).stall _)

/-! ### SEND and EMPTY (R101, R156, R158) -/

/-- The message of a SEND. -/
def State.sendMsg (s : State) (c t : Nat) (e : Eff) (d : Nat) : Msg :=
  { e := e, dst := d, thr := e.m % 8, reg := e.rd, val := e.vb, src := s.logical c + 1, stamp := s.tagOf c t
    fw := s.domOf c t == 2, views := match (s.thr c t).rel.getLast? with | some v => [v] | none => [] }

/-- The head of step 5 waits for its answer. -/
theorem State.modHead_s5 (h : (s.thr c t).s5 = e :: es) (f : Eff → Eff) : ((s.modHead c t f).thr c t).s5 = f e :: es := by
  simp only [State.modHead, State.modThr_thr, and_self, if_true, h]

theorem State.modHead_keeps (s : State) (c t : Nat) (f : Eff → Eff) : s.Keeps (s.modHead c t f) c t := .of_modThr s c t fun _ _ => rfl

theorem send_dispatches (h : AtStep5 s c t e es) (ho : e.op = 0x60) :
    (e.st = 0 → (s.thr c t).holdsFence = true → WaitsIn s c t 0x03 (e :: es) fun u => u.msgs = s.msgs)
      ∧ (e.st = 0 → (s.thr c t).holdsFence = false → ∀ d, s.phys (s.tagOf c t) e.va.toNat = some d →
          WaitsIn s c t 0x03 ({ e with st := 1 } :: es) fun u => s.Keeps u c t ∧ u.msgs = s.msgs ++ [s.sendMsg c t e d])
      ∧ (e.st = 2 → GoesOn s c t es fun w => s.Keeps w c t) := by
  refine ⟨fun h0 hf => ?_, fun h0 hf d hd => ?_, fun h2 => ?_⟩
  · have he : s.effect c t e = .stall s 0x03 := by simp [State.effect, ho, State.sendEff, h0, hf]
    exact waitsIn_stall h (by decide) he h.head h.phase rfl rfl rfl
  · have he : s.effect c t e = .stall (({ s with msgs := s.msgs ++ [s.sendMsg c t e d] } : State).modHead c t fun w => { w with st := 1 }) 0x03 := by
      simp only [State.effect, ho, State.sendEff, h0, hf, hd, Bool.false_eq_true, if_false]
      rfl
    have hk : s.Keeps (({ s with msgs := s.msgs ++ [s.sendMsg c t e d] } : State).modHead c t fun w => { w with st := 1 }) c t :=
      State.modHead_keeps { s with msgs := s.msgs ++ [s.sendMsg c t e d] } c t _
    refine waitsIn_stall h (by decide) he (State.modHead_s5 h.head _) ?_ ?_ rfl ⟨hk.stall _, rfl⟩
    · simp only [State.modHead, State.modThr_thr, and_self, if_true]
      exact h.phase
    · simp only [State.modHead, State.modThr_thr, and_self, if_true]
      rfl
  · have he : s.effect c t e = .done s := by simp [State.effect, ho, State.sendEff, h2]
    exact goesOn_done h he (.refl s c t) (State.Keeps.refl s c t).pop

/-- The thread after EMPTY. -/
def Thread.empties (x : Thread) (e : Eff) : Thread :=
  let y := x.emptyG e.rd
  if e.n && e.rd != 0 then { y with exs := SMap.set 0 e.rd (e.va.toNat + 1) y.exs } else y

theorem Thread.empties_same {β : Type} (p : Thread → β) (hp : ∀ (y : Thread) f q m, p { y with full := f, poison := q, exs := m } = p y) (x : Thread)
    (e : Eff) :
    p (x.empties e) = p x := by
  simp only [Thread.empties, Thread.emptyG]
  split <;> split
  · exact hp x x.full x.poison _
  · exact hp x _ _ _
  · rfl
  · exact hp x _ _ x.exs

theorem Thread.empties_marks (x : Thread) {e : Eff} (hr : e.rd ≠ 0) (n : Nat) :
    (x.empties e).isFull n = (x.isFull n && !decide (n = e.rd)) ∧ (x.empties e).isPoison n = (x.isPoison n && !decide (n = e.rd)) := by
  have h : (x.empties e).isFull n = (x.emptyG e.rd).isFull n ∧ (x.empties e).isPoison n = (x.emptyG e.rd).isPoison n := by
    simp only [Thread.empties]
    split
    · exact ⟨rfl, rfl⟩
    · exact ⟨rfl, rfl⟩
  rw [h.1, h.2]
  exact ⟨x.emptyG_isFull hr n, x.emptyG_isPoison hr n⟩

theorem empty_dispatches (h : AtStep5 s c t e es) (ho : e.op = 0x62) (hr : 0 < e.rd) (h7 : t < 7) (hm : (s.thr c t).mbx = []) :
    GoesOn s c t es fun w => s.Keeps w c t ∧ (w.thr c t).isFull e.rd = false ∧ (w.thr c t).isPoison e.rd = false
      ∧ ∀ n, n ≠ e.rd → (w.thr c t).isFull n = (s.thr c t).isFull n := by
  have hmb : ((s.modThr c t (·.empties e)).thr c t).mbx = [] := by
    simp only [State.modThr_thr, and_self, if_true]
    exact (Thread.empties_same Thread.mbx (fun _ _ _ _ => rfl) _ e).trans hm
  have he : s.effect c t e = .done ((s.modThr c t (·.empties e)).modThr c t fun x => { x with mbx := [] }) := by
    rw [← State.settleMbx_nil (Nat.ne_of_lt h7) hmb]
    simp only [State.effect, ho, State.emptyEff]
    rfl
  have hx : ((s.modThr c t (·.empties e)).modThr c t fun x => { x with mbx := [] }).thr c t = { (s.thr c t).empties e with mbx := [] } := by
    simp only [State.modThr_thr, and_self, if_true]
  have hfull (n : Nat) := (s.thr c t).empties_marks (Nat.pos_iff_ne_zero.mp hr) n
  refine goesOn_done h he ⟨?_, ?_, ?_⟩ ⟨State.Keeps.pop (.trans (.of_modThr s c t fun x n => ?_) (.of_modThr _ c t fun _ _ => rfl)), ?_, ?_, fun n hn => ?_⟩
  · rw [hx]; exact Thread.empties_same Thread.s5 (fun _ _ _ _ => rfl) _ e
  · rw [hx]; exact Thread.empties_same Thread.phase (fun _ _ _ _ => rfl) _ e
  · exact ((State.OnlyThread.of_modThr s c t (·.empties e)).trans (.of_modThr _ c t fun x => { x with mbx := [] })).coreSame Core.stopped (fun _ _ => rfl) c
  · exact Thread.empties_same (Thread.gv · n) (fun _ _ _ _ => rfl) x e
  · rw [State.modThr_thr, if_pos ⟨rfl, rfl⟩, hx]
    exact (hfull e.rd).1.trans (by simp)
  · rw [State.modThr_thr, if_pos ⟨rfl, rfl⟩, hx]
    exact (hfull e.rd).2.trans (by simp)
  · rw [State.modThr_thr, if_pos ⟨rfl, rfl⟩, hx]
    exact (hfull n).1.trans (by simp [hn])

end

end Sys2Proof.Machine
end

section
/-! SUPPORT. What the deferred effects on a core's and a cluster's registers do at step 5 (R76, R161, R162, R172, R204, R213, R214,
R252). -/

namespace Sys2Proof.Machine

open Sys2Proof.Spec

section
variable {s : State} {c t : Nat} {e : Eff} {es : List Eff}

/-- A cluster's change leaves threads, cores and memory. -/
theorem State.Keeps.of_modClu (s : State) (c t cl : Nat) (f : Cluster → Cluster) : s.Keeps (s.modClu cl f) c t :=
  ⟨rfl, rfl, fun _ => rfl, fun _ _ => rfl⟩

theorem State.SameStep.of_modClu (s : State) (c t cl : Nat) (f : Cluster → Cluster) : s.SameStep (s.modClu cl f) c t := ⟨rfl, rfl, rfl⟩

/-- What the core holds beside its threads, once the effect is done with. -/
theorem State.pop_core {β : Type} (u : State) (c t : Nat) (p : Core → β) (hp : ∀ (q : Core) th, p { q with th := th } = p q) (i : Nat) :
    p ((u.modThr c t (·.popEff)).core i) = p (u.core i) := (State.OnlyThread.of_modThr u c t (·.popEff)).coreSame p hp i

theorem State.stall_core {β : Type} (u : State) (c t n : Nat) (p : Core → β) (hp : ∀ (q : Core) th, p { q with th := th } = p q) (i : Nat) :
    p ((u.modThr c t fun x => x.stallIn n).core i) = p (u.core i) := (State.OnlyThread.of_modThr u c t fun x => x.stallIn n).coreSame p hp i

/-! ### CSRW (R252 to R254) -/

/-- The value that CSRW leaves in its register. -/
def Eff.csrVal (e : Eff) (old : Word) : Word := csrNew (bits e.m 10 2) old e.va e.vb

/-- A flag as a word. -/
theorem ofNat_b2n (b : Bool) : (BitVec.ofNat 64 (b2n b) : Word) = if b = true then 1 else 0 := by cases b <;> rfl

/-- CSRW writes the register of its number and no other. -/
theorem State.csrWrite_regs (s : State) (c : Nat) (e : Eff) :
    let u := s.csrWrite c e
    let k := s.core c
    (u.core c).frm = (if e.m % 1024 = 4 then e.csrVal k.frm else k.frm)
      ∧ (u.core c).fxf = (if e.m % 1024 = 5 then e.csrVal k.fxf else k.fxf)
      ∧ (u.core c).vxf = (if e.m % 1024 = 6 then e.csrVal k.vxf else k.vxf)
      ∧ (u.core c).vxe = (if e.m % 1024 = 7 then e.csrVal k.vxe else k.vxe)
      ∧ (u.core c).am = (if e.m % 1024 = 3 then e.csrVal (if k.am = true then 1 else 0) != 0 else k.am)
      ∧ u.gage = (if e.m % 1024 = 15 then e.csrVal s.gage else s.gage)
      ∧ (u.clu (clusterOf c)).rctmo = (if e.m % 1024 = 14 then (e.csrVal ((s.clu (clusterOf c)).rctmo.zeroExtend 64)).setWidth 32
          else (s.clu (clusterOf c)).rctmo) := by
  simp only [State.csrWrite]
  split <;> simp_all [Eff.csrVal, ofNat_b2n]
  exact ⟨rfl, rfl, rfl, rfl, rfl, rfl⟩

theorem State.csrWrite_keeps (s : State) (c t : Nat) (e : Eff) : s.Keeps (s.csrWrite c e) c t ∧ s.SameStep (s.csrWrite c e) c t := by
  have hm {f : Core → Core} (h : ∀ k, (f k).th = k.th) (hs : ∀ k, (f k).stopped = k.stopped) :
      s.Keeps (s.modCore c f) c t ∧ s.SameStep (s.modCore c f) c t := ⟨.of_modCore s c t h, .of_modCore s c t h hs⟩
  simp only [State.csrWrite]
  split
  · exact hm (by intros; rfl) (by intros; rfl)
  · exact hm (by intros; rfl) (by intros; rfl)
  · exact hm (by intros; rfl) (by intros; rfl)
  · exact hm (by intros; rfl) (by intros; rfl)
  · exact hm (by intros; rfl) (by intros; rfl)
  · exact ⟨.of_modClu .., .of_modClu ..⟩
  · exact ⟨⟨rfl, rfl, fun _ => rfl, fun _ _ => rfl⟩, ⟨rfl, rfl, rfl⟩⟩
  · exact ⟨.refl .., .refl ..⟩

theorem csrw_dispatches (h : AtStep5 s c t e es) (ho : e.op = 0xF7) :
    GoesOn s c t es fun w => s.Keeps w c t
      ∧ (w.core c).frm = (if e.m % 1024 = 4 then e.csrVal (s.core c).frm else (s.core c).frm)
      ∧ (w.core c).fxf = (if e.m % 1024 = 5 then e.csrVal (s.core c).fxf else (s.core c).fxf)
      ∧ (w.core c).vxf = (if e.m % 1024 = 6 then e.csrVal (s.core c).vxf else (s.core c).vxf)
      ∧ (w.core c).vxe = (if e.m % 1024 = 7 then e.csrVal (s.core c).vxe else (s.core c).vxe)
      ∧ (w.core c).am = (if e.m % 1024 = 3 then e.csrVal (if (s.core c).am = true then 1 else 0) != 0 else (s.core c).am)
      ∧ w.gage = (if e.m % 1024 = 15 then e.csrVal s.gage else s.gage)
      ∧ (w.clu (clusterOf c)).rctmo = (if e.m % 1024 = 14 then (e.csrVal ((s.clu (clusterOf c)).rctmo.zeroExtend 64)).setWidth 32
          else (s.clu (clusterOf c)).rctmo) := by
  have he : s.effect c t e = .done (s.csrWrite c e) := by simp [State.effect, State.unitEff, isCommand, State.sysEffect, ho]
  obtain ⟨hk, hs⟩ := s.csrWrite_keeps c t e
  obtain ⟨h4, h5, h6, h7, h3, hg, hr⟩ := s.csrWrite_regs c e
  refine goesOn_done h he hs ⟨hk.pop, ?_, ?_, ?_, ?_, ?_, hg, hr⟩
  · exact (State.pop_core _ c t Core.frm (fun _ _ => rfl) c).trans h4
  · exact (State.pop_core _ c t Core.fxf (fun _ _ => rfl) c).trans h5
  · exact (State.pop_core _ c t Core.vxf (fun _ _ => rfl) c).trans h6
  · exact (State.pop_core _ c t Core.vxe (fun _ _ => rfl) c).trans h7
  · exact (State.pop_core _ c t Core.am (fun _ _ => rfl) c).trans h3

/-! ### Role tables and slot tables (R36, R161, R162, R172) -/

/-- A thread of a core that has a new role. -/
def Thread.recasts (x : Thread) : Thread := if x.st = 0 then x else { x with recast := true }

/-- The threads of a core that has a new role. -/
theorem State.recasts_thr (s : State) (d i j : Nat) : (s.modCore d fun k => { k with th := k.th.map fun r => (r.1, r.2.recasts) }).thr i j
    = if i = d then (s.thr i j).recasts else s.thr i j := by
  simp only [State.thr, Core.thread, State.modCore_core]
  split
  · subst i
    exact SMap.get_mapVal (f := Thread.recasts) rfl j _
  · rfl

/-- A role entry written. -/
def Cluster.setRole (k : Cluster) (n : Nat) (v : BitVec 16) : Cluster := { k with roles := SMap.set 0 n v k.roles }

theorem rcast_dispatches (h : AtStep5 s c t e es) (ho : e.op = 0x66) :
    GoesOn s c t es fun w => w.mem = s.mem ∧ w.oom = s.oom
      ∧ (∀ n, SMap.get 0#16 n (w.clu (clusterOf c)).roles
          = if n = e.va.toNat % 8 then e.vb.setWidth 16 else SMap.get 0#16 n (s.clu (clusterOf c)).roles)
      ∧ ∀ k, (s.thr (clusterOf c * 16 + e.va.toNat % 8) k).st ≠ 0 → (w.thr (clusterOf c * 16 + e.va.toNat % 8) k).recast = true := by
  have he : s.effect c t e = .done ((s.modClu (clusterOf c) (·.setRole (e.va.toNat % 8) (e.vb.setWidth 16))).modCore
      (clusterOf c * 16 + e.va.toNat % 8) fun k => { k with th := k.th.map fun r => (r.1, r.2.recasts) }) := by
    simp only [State.effect, ho, State.castEff]
    rfl
  generalize hd : clusterOf c * 16 + e.va.toNat % 8 = d at he ⊢
  have hthr := State.recasts_thr (s.modClu (clusterOf c) (·.setRole (e.va.toNat % 8) (e.vb.setWidth 16))) d
  have hx {β : Type} (p : Thread → β) (hp : ∀ (x : Thread) b, p { x with recast := b } = p x) (x : Thread) : p x.recasts = p x := by
    simp only [Thread.recasts]
    split
    · rfl
    · exact hp ..
  refine goesOn_done h he ⟨?_, ?_, ?_⟩ ⟨rfl, rfl, fun n => ?_, fun k hk => ?_⟩
  · rw [hthr]
    split
    · exact hx Thread.s5 (fun _ _ => rfl) _
    · rfl
  · rw [hthr]
    split
    · exact hx Thread.phase (fun _ _ => rfl) _
    · rfl
  · simp only [State.modCore_core]
    split
    · subst c; rfl
    · rfl
  · have hv := State.modClu_clu s (clusterOf c) (clusterOf c) (·.setRole (e.va.toNat % 8) (e.vb.setWidth 16))
    rw [if_pos rfl] at hv
    exact (congrArg (fun k : Cluster => SMap.get 0#16 n k.roles) hv).trans (SMap.get_set ..)
  · have hr : ((((s.modClu (clusterOf c) (·.setRole (e.va.toNat % 8) (e.vb.setWidth 16))).modCore d fun k =>
        { k with th := k.th.map fun r => (r.1, r.2.recasts) }).thr d k).recast = true) := by
      have hk' : ((s.thr d k).recasts).recast = true := by rw [Thread.recasts, if_neg hk]
      rw [hthr, if_pos rfl]
      exact hk'
    simp only [State.modThr_thr]
    split
    · rename_i e
      obtain ⟨rfl, rfl⟩ := e
      exact hr
    · exact hr

theorem chmap_dispatches (h : AtStep5 s c t e es) (ho : e.op = 0x67) :
    GoesOn s c t es fun w => s.Keeps w c t
      ∧ ∀ n, SMap.get 0#64 n (w.clu (clusterOf c)).vec = if n = e.va.toNat % 4 then e.vb else SMap.get 0#64 n (s.clu (clusterOf c)).vec := by
  have he : s.effect c t e = .done (s.modClu (clusterOf c) fun k => { k with vec := SMap.set 0 (e.va.toNat % 4) e.vb k.vec }) := by
    simp only [State.effect, ho, State.castEff]
    rfl
  refine goesOn_done h he (.of_modClu ..) ⟨(State.Keeps.of_modClu ..).pop, fun n => ?_⟩
  have hv := State.modClu_clu s (clusterOf c) (clusterOf c) fun k => { k with vec := SMap.set 0 (e.va.toNat % 4) e.vb k.vec }
  rw [if_pos rfl] at hv
  exact (congrArg (fun k : Cluster => SMap.get 0#64 n k.vec) hv).trans (SMap.get_set ..)

theorem sltw_dispatches (h : AtStep5 s c t e es) (ho : e.op = 0x78) :
    GoesOn s c t es fun w => s.Keeps w c t ∧ (w.core c).active = (s.core c).active
      ∧ (w.core c).shadow = (s.core c).shadow.set (e.va.toNat % 32) (e.vb.setWidth 16) := by
  have he : s.effect c t e = .done (s.modCore c fun k => { k with shadow := k.shadow.set (e.va.toNat % 32) (e.vb.setWidth 16) }) := by
    simp only [State.effect, ho]
  refine goesOn_done h he (.of_modCore s c t (fun _ => rfl) fun _ => rfl) ⟨.pop (.of_modCore s c t (by intros; rfl)), ?_, ?_⟩
  · exact (State.pop_core _ c t Core.active (fun _ _ => rfl) c).trans (by simp)
  · exact (State.pop_core _ c t Core.shadow (fun _ _ => rfl) c).trans (by simp)

theorem vrel_dispatches (h : AtStep5 s c t e es) (ho : e.op = 0xB1) : GoesOn s c t es fun w => s.Keeps w c t ∧ (w.core c).grant = 0 := by
  have he : s.effect c t e = .done (s.modCore c fun k => { k with grant := 0 }) := by
    simp only [State.effect, ho]
  exact goesOn_done h he (.of_modCore s c t (fun _ => rfl) fun _ => rfl)
    ⟨.pop (.of_modCore s c t (by intros; rfl)), (State.pop_core _ c t Core.grant (fun _ _ => rfl) c).trans (by simp)⟩

/-! ### Tiles (R103, R213, R214) -/

theorem Cluster.setTile_tile (k : Cluster) (n i : Nat) (w : Tile) : (k.setTile n w).tile i = if i = n then w else k.tile i := by
  simp only [Cluster.setTile, Cluster.tile, SMap.get_set]

/-- A tile effect with what it does to the tile. -/
theorem State.effect_tile (ho : e.op = 0xC4 ∨ e.op = 0xC5 ∨ e.op = 0xC6) (hn : s.ownsTile (clusterOf c) e.ctx e.va.toNat = false) :
    s.effect c t e = .refuse s 0x20 0 (tilePtr e.va.toNat) := by
  rcases ho with ho | ho | ho <;> simp [State.effect, ho, State.tileEff, hn]

theorem tile_refused (h : AtStep5 s c t e es) (ho : e.op = 0xC4 ∨ e.op = 0xC5 ∨ e.op = 0xC6)
    (hn : s.ownsTile (clusterOf c) e.ctx e.va.toNat = false) :
    GoesOn s c t es fun w => s.Keeps w c t ∧ w.clus = s.clus
      ∧ (w.thr c t).late = (s.thr c t).late ++ [{ cause := 0x20, sub := 0, info := tilePtr e.va.toNat }] := by
  refine goesOn_refused h (State.effect_tile ho hn) (.refl s c t) ⟨(State.Keeps.refl s c t).refuse .., rfl, ?_⟩
  simp only [State.modThr_thr, and_self, if_true]
  rfl

/-- A tile's place in the cluster's state. -/
theorem tile_set (h : AtStep5 s c t e es) {n : Nat} {w : Tile} {f : Cluster → Cluster} (hf : f (s.clu (clusterOf c)) = (s.clu (clusterOf c)).setTile n w)
    (he : s.effect c t e = .done (s.modClu (clusterOf c) f)) :
    GoesOn s c t es fun u => s.Keeps u c t ∧ (u.clu (clusterOf c)).tile n = w := by
  refine goesOn_done h he (.of_modClu ..) ⟨(State.Keeps.of_modClu ..).pop, ?_⟩
  have hv := State.modClu_clu s (clusterOf c) (clusterOf c) f
  rw [if_pos rfl, hf] at hv
  exact (congrArg (fun k : Cluster => k.tile n) hv).trans ((Cluster.setTile_tile ..).trans (if_pos rfl))

section
variable (h : AtStep5 s c t e es) (hn : s.ownsTile (clusterOf c) e.ctx e.va.toNat = true)
include h hn

theorem town_frees (ho : e.op = 0xC4) :
    GoesOn s c t es fun w => s.Keeps w c t ∧ (w.clu (clusterOf c)).tile e.va.toNat
      = { (s.clu (clusterOf c)).tile e.va.toNat with own := .free, filling := true } := by
  refine tile_set h rfl ?_ (f := fun k => k.setTile e.va.toNat { k.tile e.va.toNat with own := .free, filling := true })
  simp only [State.effect, ho, State.tileEff, hn, if_true]
  rfl

theorem ttag_tags (ho : e.op = 0xC6) :
    GoesOn s c t es fun w => s.Keeps w c t ∧ (w.clu (clusterOf c)).tile e.va.toNat
      = { (s.clu (clusterOf c)).tile e.va.toNat with tag := e.vb.toNat } := by
  refine tile_set h rfl ?_ (f := fun k => k.setTile e.va.toNat { k.tile e.va.toNat with tag := e.vb.toNat })
  simp only [State.effect, ho, State.tileEff, hn, if_true]

theorem tgive_waits (ho : e.op = 0xC5) (hb : s.tileBusy c t e.seq e.va.toNat = true) :
    WaitsIn s c t 0x0F (e :: es) fun w => s.Keeps w c t := by
  have he : s.effect c t e = .stall s 0x0F := by simp [State.effect, ho, State.tileEff, hn, State.giveEff, hb]
  exact waitsIn_stall h (by decide) he h.head h.phase rfl rfl ((State.Keeps.refl s c t).stall _)

theorem tgive_gives (ho : e.op = 0xC5) (hb : s.tileBusy c t e.seq e.va.toNat = false) :
    GoesOn s c t es fun w => w.mem = s.mem ∧ (w.clu (clusterOf c)).tile e.va.toNat
      = { (s.clu (clusterOf c)).tile e.va.toNat with own := .eng e.ctx } := by
  obtain ⟨o, he⟩ : ∃ o, s.effect c t e = .done { s.modClu (clusterOf c) (fun k => k.setTile e.va.toNat { k.tile e.va.toNat with own := .eng e.ctx })
      with oom := o } := by
    simp only [State.effect, ho, State.tileEff, hn, if_true, State.giveEff, hb, Bool.false_eq_true, if_false]
    exact ⟨_, rfl⟩
  refine goesOn_done h he ⟨rfl, rfl, rfl⟩ ⟨rfl, ?_⟩
  have hv := State.modClu_clu s (clusterOf c) (clusterOf c) fun k => k.setTile e.va.toNat { k.tile e.va.toNat with own := .eng e.ctx }
  rw [if_pos rfl] at hv
  exact (congrArg (fun k : Cluster => k.tile e.va.toNat) hv).trans ((Cluster.setTile_tile ..).trans (if_pos rfl))

end

/-! ### FTLD and engine commands (R76, R204 to R206) -/

/-- A table filled place by place. -/
theorem get_tableOf {l : List Byte} {n : Nat} (hn : n < 256) : SMap.get 0#19 n (tableOf l) = BitVec.ofNat 19 (leAt l (4 * n) 4) := by
  have h (k : Nat) : ∀ n, n < k → SMap.get 0#19 n
      ((List.range k).foldl (fun m i => SMap.set 0 i (BitVec.ofNat 19 (leAt l (4 * i) 4)) m) ([] : SMap (BitVec 19)))
        = BitVec.ofNat 19 (leAt l (4 * n) 4) := by
    induction k with
    | zero => exact fun n hn => absurd hn (Nat.not_lt_zero n)
    | succ k ih =>
      intro n hn
      rw [List.range_succ, List.foldl_append, List.foldl_cons, List.foldl_nil]
      refine (SMap.get_set ..).trans ?_
      split
      · rename_i e
        rw [e]
      · exact ih n (by omega)
  exact h 256 n hn

theorem ftld_dispatches (h : AtStep5 s c t e es) (ho : e.op = 0x8B) :
    (e.st = 0 → WaitsIn s c t 0x0F ({ e with st := 1 } :: es) fun w => s.Keeps w c t)
      ∧ (e.st ≠ 0 → GoesOn s c t es fun w => s.Keeps w c t
          ∧ ∀ n, n < 256 → SMap.get 0#19 n (w.core c).dtab = BitVec.ofNat 19 (leAt e.data (4 * n) 4)) := by
  refine ⟨fun h0 => ?_, fun h0 => ?_⟩
  · have he : s.effect c t e = .stall (s.modHead c t fun w => { w with st := 1 }) 0x0F := by
      simp only [State.effect, ho, h0, if_true]
    refine waitsIn_stall h (by decide) he (State.modHead_s5 h.head _) ?_ ?_ rfl ((s.modHead_keeps c t _).stall _)
    · simp only [State.modHead, State.modThr_thr, and_self, if_true, h.phase]
    · simp only [State.modHead, State.modThr_thr, and_self, if_true]
  · have he : s.effect c t e = .done (s.modCore c fun k => { k with dtab := tableOf e.data }) := by
      simp only [State.effect, ho, if_neg h0]
    refine goesOn_done h he (.of_modCore s c t (fun _ => rfl) fun _ => rfl) ⟨.pop (.of_modCore s c t (by intros; rfl)), fun n hn => ?_⟩
    have hd : ((s.modCore c fun k => { k with dtab := tableOf e.data }).core c).dtab = tableOf e.data := by simp
    exact (congrArg (SMap.get 0#19 n) ((State.pop_core _ c t Core.dtab (fun _ _ => rfl) c).trans hd)).trans (get_tableOf hn)

/-- The core once a command has entered its queue register. -/
def Core.enters (p : Core) (e : Eff) (t now : Nat) : Core :=
  { p with
    q := SMap.set [] (cmdReg e.op) (SMap.get [] (cmdReg e.op) p.q ++ [{ e with arr := now }]) p.q
    comps := if e.n then SMap.set [] (compReg (cmdReg e.op)) (SMap.get [] (compReg (cmdReg e.op)) p.comps ++ [{ thr := t, seq := e.seq, word := none }]) p.comps
      else p.comps
    scb := match cmdSpan e with | some (lo, hi) => p.scb ++ [{ lo := lo, hi := hi, thr := t, seq := e.seq }] | none => p.scb }

theorem State.effect_command (ho : isCommand e.op = true) (s : State) (c t : Nat) : s.effect c t e = s.cmdDispatch c t e := by
  have hu : s.effect c t e = s.unitEff c t e := by
    unfold State.effect
    split <;> simp_all [isCommand]
  rw [hu, State.unitEff, if_pos ho]

section
variable (h : AtStep5 s c t e es) (ho : isCommand e.op = true)
include h ho

theorem command_noRoom (hr : ¬ ((SMap.get [] (cmdReg e.op) (s.core c).q).length < 16
      ∧ (e.n = true → (SMap.get [] (compReg (cmdReg e.op)) (s.core c).comps).length < 32))) :
    WaitsIn s c t 0x0E (e :: es) fun u => s.Keeps u c t ∧ (u.core c).q = (s.core c).q := by
  have he : s.effect c t e = .stall s 0x0E := by
    rw [State.effect_command ho]
    simp only [State.cmdDispatch]
    by_cases hq : (SMap.get [] (cmdReg e.op) (s.core c).q).length ≥ 16
    · rw [if_pos hq]
    · have hn : e.n = true ∧ (SMap.get [] (compReg (cmdReg e.op)) (s.core c).comps).length ≥ 32 := by
        simp only [not_and, Classical.not_imp, Nat.not_lt] at hr
        exact hr (Nat.not_le.mp hq)
      rw [if_neg hq, if_pos hn]
  exact waitsIn_stall h (by decide) he h.head h.phase rfl rfl ⟨(State.Keeps.refl s c t).stall _, State.stall_core s c t _ Core.q (fun _ _ => rfl) c⟩

variable (hq : (SMap.get [] (cmdReg e.op) (s.core c).q).length < 16)
  (hn : e.n = true → (SMap.get [] (compReg (cmdReg e.op)) (s.core c).comps).length < 32)
include hq hn

theorem command_scoreboard (hs : (cmdSpan e).isSome = true) (hb : 8 ≤ (s.core c).scb.length) :
    WaitsIn s c t 0x07 (e :: es) fun u => s.Keeps u c t ∧ (u.core c).q = (s.core c).q := by
  have he : s.effect c t e = .stall s 0x07 := by
    rw [State.effect_command ho]
    simp only [State.cmdDispatch]
    rw [if_neg (Nat.not_le.mpr hq), if_neg (fun k => Nat.not_le.mpr (hn k.1) k.2), if_pos ⟨hs, hb⟩]
  exact waitsIn_stall h (by decide) he h.head h.phase rfl rfl ⟨(State.Keeps.refl s c t).stall _, State.stall_core s c t _ Core.q (fun _ _ => rfl) c⟩

theorem command_enters (hs : (cmdSpan e).isSome = true → (s.core c).scb.length < 8) :
    GoesOn s c t es fun w => s.Keeps w c t
      ∧ SMap.get [] (cmdReg e.op) (w.core c).q = SMap.get [] (cmdReg e.op) (s.core c).q ++ [{ e with arr := s.cyc }]
      ∧ (e.n = true → SMap.get [] (compReg (cmdReg e.op)) (w.core c).comps
          = SMap.get [] (compReg (cmdReg e.op)) (s.core c).comps ++ [{ thr := t, seq := e.seq, word := none }]) := by
  have hc : (((s.modCore c (·.enters e t s.cyc)).core c)) = (s.core c).enters e t s.cyc := by simp
  obtain ⟨u, he, hu, hk, hsame⟩ : ∃ u, s.effect c t e = .done u ∧ u.core c = (s.core c).enters e t s.cyc ∧ s.Keeps u c t ∧ s.SameStep u c t := by
    rw [State.effect_command ho]
    simp only [State.cmdDispatch]
    rw [if_neg (Nat.not_le.mpr hq), if_neg (fun k => Nat.not_le.mpr (hn k.1) k.2), if_neg (fun k => Nat.not_le.mpr (hs k.1) k.2)]
    have hk := State.Keeps.of_modCore s c t (f := (·.enters e t s.cyc)) fun _ => rfl
    have hsame := State.SameStep.of_modCore s c t (f := (·.enters e t s.cyc)) (fun _ => rfl) fun _ => rfl
    have hall (out : List Nat) : let u := if out.isEmpty then s.modCore c (·.enters e t s.cyc)
          else (s.modCore c (·.enters e t s.cyc)).modImg (clusterOf c) e.ctx fun g => g.clear out
        u.core c = (s.core c).enters e t s.cyc ∧ s.Keeps u c t ∧ s.SameStep u c t := by
      dsimp only
      split
      · exact ⟨hc, hk, hsame⟩
      · exact ⟨hc, hk.trans (.of_modClu ..), ⟨hsame.s5, hsame.phase, hsame.runs⟩⟩
    exact ⟨_, rfl, hall _⟩
  refine goesOn_done h he hsame ⟨hk.pop, ?_, fun hen => ?_⟩
  · rw [State.pop_core u c t Core.q (fun _ _ => rfl) c, hu]
    exact (SMap.get_set ..).trans (if_pos rfl)
  · rw [State.pop_core u c t Core.comps (fun _ _ => rfl) c, hu]
    simp only [Core.enters, hen, if_true]
    exact (SMap.get_set ..).trans (if_pos rfl)

end

end

end Sys2Proof.Machine
end

section
/-! SUPPORT. Each deferred effect with what it does, together (R55), and the thread's registers after step 3 (R38, R50, R55). -/

namespace Sys2Proof.Machine

open Sys2Proof.Spec

section
variable {s w : State} {c t : Nat} {es : List Eff} {P Q : State → Prop}

theorem goesOn_mono (h : GoesOn s c t es P) (hpq : ∀ w, P w → Q w) : GoesOn s c t es Q := by
  obtain ⟨w, he, hp, h5, hw⟩ := h
  exact ⟨w, he, hp, h5, hpq w hw⟩

theorem waitsIn_mono {n : Nat} {l : List Eff} (h : WaitsIn s c t n l P) (hpq : ∀ w, P w → Q w) : WaitsIn s c t n l Q := by
  obtain ⟨w, he, h5, hp, hst, hpr, hm, hw⟩ := h
  exact ⟨w, he, h5, hp, hst, hpr, hm, hpq w hw⟩

/-- Step 5 dispatches each deferred effect. -/
theorem effectsDispatch : EffectsDispatch := by
  unfold EffectsDispatch
  intro s c t e es h
  refine ⟨fun ho => ?_, fun ho hm => fence_dispatches h ho hm, fun ho => tableFence_dispatches h ho, fun ho => ?_, fun ho hr hr' h7 hm => ?_,
    fun ho => csrw_dispatches h ho, fun ho => rcast_dispatches h ho, fun ho => chmap_dispatches h ho, fun ho => sltw_dispatches h ho,
    fun ho => ⟨fun hn => tile_refused h ho hn, fun hn => ⟨fun ho => town_frees h hn ho, fun ho hb => tgive_waits h hn ho hb,
      fun ho hb => tgive_gives h hn ho hb, fun ho => ttag_tags h hn ho⟩⟩,
    fun ho => ftld_dispatches h ho, fun ho => vrel_dispatches h ho, fun ho => ⟨fun hr => command_noRoom h ho hr,
      fun hr hs hb => command_scoreboard h ho hr.1 hr.2 hs hb, fun hr hs => command_enters h ho hr.1 hr.2 hs⟩⟩
  · refine goesOn_mono (stores_dispatch h ho) fun w ⟨hk, hcq, hlog⟩ => ⟨hk, hcq, fun hd h0 h8 hl => ?_, hlog⟩
    rw [hcq hd, Thread.storesOf, storePieces_one h0 h8 hl]
    rfl
  · obtain ⟨hf, hs, h2⟩ := send_dispatches h ho
    exact ⟨hf, fun h0 hn d hd => waitsIn_mono (hs h0 hn d hd) fun u ⟨hk, hm⟩ => ⟨hk, _, hm, rfl, rfl, rfl, rfl, rfl, rfl⟩, h2⟩
  · exact goesOn_mono (empty_dispatches h ho hr h7 hm) fun w ⟨hk, hf, hp, hrest⟩ => ⟨hk, hf, hp, fun n _ hn => hrest n hn⟩

end

end Sys2Proof.Machine
end

section
/-! SUPPORT. Step 3 of a commit (R55): the walk over a group's positions, what it keeps and what it brings. -/

namespace Sys2Proof.Machine

/-! ### Walks over the positions of a group -/

/-- What one element of a list brings stands at the end, where the others of the list keep it. -/
theorem foldl_brings_mem {σ α : Type} (P : σ → Prop) {f : σ → α → σ} {l : List α} {a : α} (ha : a ∈ l) (brings : ∀ s, P (f s a))
    (keep : ∀ s, ∀ b ∈ l, P s → P (f s b)) (s : σ) : P (l.foldl f s) := by
  obtain ⟨l₁, l₂, rfl⟩ := List.append_of_mem ha
  rw [List.foldl_append, List.foldl_cons]
  exact List.foldlRecOn l₂ f (brings _) fun u hu b hb => keep u b (List.mem_append_right _ (List.mem_cons_of_mem _ hb)) hu

/-- What one place of a range brings stands at the end, where the later ones keep it. -/
theorem foldl_range_brings {σ : Type} (P : σ → Prop) {f : σ → Nat → σ} {n p : Nat} (hp : p < n) (brings : ∀ s, P (f s p))
    (keep : ∀ s q, p < q → P s → P (f s q)) (s : σ) : P ((List.range n).foldl f s) := by
  induction n with
  | zero => exact absurd hp (Nat.not_lt_zero p)
  | succ n ih =>
    rw [List.range_succ, List.foldl_append, List.foldl_cons, List.foldl_nil]
    rcases Nat.lt_succ_iff_lt_or_eq.mp hp with h | rfl
    · exact keep _ n h (ih h)
    · exact brings _

section
variable {σ : Type} (M : σ → Nat × Nat → σ) (R : σ → LRes → σ) (g : Group)

/-- One position of a group: its marks, then its results. -/
def groupWalkAt (s : σ) (pos : Nat) : σ :=
  (g.res.filter fun r => r.pos == pos).foldl R ((g.marks.filter fun m => m.1 == pos).foldl M s)

/-- The positions of a group in order. -/
def groupWalk (s : σ) : σ := (List.range g.n).foldl (groupWalkAt M R g) s

variable {M R g} (P : σ → Prop)

theorem groupWalkAt_keeps {pos : Nat} {s : σ} (hm : ∀ s, ∀ m ∈ g.marks, m.1 = pos → P s → P (M s m)) (hr : ∀ s, ∀ r ∈ g.res, P s → P (R s r))
    (h : P s) : P (groupWalkAt M R g s pos) := by
  refine List.foldlRecOn _ R (List.foldlRecOn _ M h fun u hu m hmem => ?_) fun u hu r hmem => ?_
  · obtain ⟨hin, hpos⟩ := List.mem_filter.mp hmem
    exact hm u m hin (by simpa using hpos) hu
  · exact hr u r (List.mem_filter.mp hmem).1 hu

/-- What every mark and every result keeps stands at the end. -/
theorem groupWalk_keeps {s : σ} (hm : ∀ s, ∀ m ∈ g.marks, P s → P (M s m)) (hr : ∀ s, ∀ r ∈ g.res, P s → P (R s r)) (h : P s) :
    P (groupWalk M R g s) :=
  List.foldlRecOn _ _ h fun _ hu _ _ => groupWalkAt_keeps P (fun u m hin _ => hm u m hin) hr hu

/-- What a mark brings stands at the end, where every mark and every result keeps it. -/
theorem groupWalk_marks {m : Nat × Nat} (hin : m ∈ g.marks) (hlt : m.1 < g.n) (brings : ∀ s, P (M s m))
    (hm : ∀ s, ∀ m ∈ g.marks, P s → P (M s m)) (hr : ∀ s, ∀ r ∈ g.res, P s → P (R s r)) (s : σ) : P (groupWalk M R g s) := by
  refine foldl_range_brings P hlt (fun u => ?_) (fun u q _ hu => groupWalkAt_keeps P (fun u m hin _ => hm u m hin) hr hu) s
  refine List.foldlRecOn _ R (foldl_brings_mem P (List.mem_filter.mpr ⟨hin, by simp⟩) brings
    (fun v k hk => hm v k (List.mem_filter.mp hk).1) u) fun v hv r hmem => hr v r (List.mem_filter.mp hmem).1 hv

/-- What a result brings stands at the end, where every result and every later mark keeps it. -/
theorem groupWalk_writes {r : LRes} (hin : r ∈ g.res) (hlt : r.pos < g.n) (brings : ∀ s, P (R s r))
    (hm : ∀ s, ∀ m ∈ g.marks, r.pos < m.1 → P s → P (M s m)) (hr : ∀ s, ∀ r ∈ g.res, P s → P (R s r)) (s : σ) : P (groupWalk M R g s) := by
  refine foldl_range_brings P hlt (fun u => ?_) (fun u q hq hu => groupWalkAt_keeps P (fun u m hin hp => hm u m hin (hp ▸ hq)) hr hu) s
  exact foldl_brings_mem P (List.mem_filter.mpr ⟨hin, by simp⟩) brings (fun v k hk => hr v k (List.mem_filter.mp hk).1) _

end

/-! ### A thread's registers and predicates -/

section
variable (x : Thread)

theorem Thread.setG_isPoison (n i : Nat) (v : Word) : (x.setG n v).isPoison i = (x.isPoison i && !decide (i = n)) := by
  by_cases hn : n = 0
  · subst hn
    by_cases hi : i = 0
    · subst hi; simp
    · simp [Thread.setG, hi]
  · simp only [Thread.setG, if_neg hn, Thread.isPoison, andNot_oneBit_getLsbD, Bool.and_assoc]

@[simp] theorem Thread.setP_gv (n i : Nat) (v : Bool) : (x.setP n v).gv i = x.gv i := by simp [Thread.gv]
@[simp] theorem Thread.setP_isFull (n i : Nat) (v : Bool) : (x.setP n v).isFull i = x.isFull i := by simp [Thread.isFull]
@[simp] theorem Thread.setP_isPoison (n i : Nat) (v : Bool) : (x.setP n v).isPoison i = x.isPoison i := by simp [Thread.isPoison]
@[simp] theorem Thread.setG_pv (n i : Nat) (v : Word) : (x.setG n v).pv i = x.pv i := by simp [Thread.pv]

@[simp] theorem Thread.emptyG_pv (n i : Nat) : (x.emptyG n).pv i = x.pv i := by
  unfold Thread.emptyG
  split <;> rfl

/-- What a result leaves in its thread's registers. -/
def LRes.writes (r : LRes) (g : Group) (x : Thread) : Thread :=
  match r.dest, r.val with
  | .g n, .val v => if g.overwritten r.pos n then x else x.setG n v
  | .p n, .val v => if g.overwritten r.pos (16 + n % 8) then x else x.setP n (v != 0)
  | _, _ => x

section
variable {r : LRes} {g : Group} {n : Nat}

/-- A result that goes to no g register or predicate `n` leaves it. -/
theorem LRes.writes_gv (h : r.dest ≠ .g n) : (r.writes g x).gv n = x.gv n := by
  unfold LRes.writes
  split
  · rename_i hd _
    split
    · rfl
    · rw [Thread.setG_gv, if_neg fun e => h (by rw [hd, e.1])]
  · split
    · rfl
    · simp
  · rfl

theorem LRes.writes_marks (h : r.dest ≠ .g n) (hn : n < 16) :
    (r.writes g x).isFull n = x.isFull n ∧ (r.writes g x).isPoison n = x.isPoison n := by
  unfold LRes.writes
  split
  · rename_i m v hd _
    have hne : m ≠ n := fun e => h (by rw [hd, e])
    split
    · exact ⟨rfl, rfl⟩
    · rw [Thread.setG_isFull x m n v hn, Thread.setG_isPoison]
      simp [hne, hne.symm]
  · split
    · exact ⟨rfl, rfl⟩
    · simp
  · exact ⟨rfl, rfl⟩

theorem LRes.writes_pv (h : ∀ m, r.dest = .p m → m % 8 ≠ n) (hn : n < 8) : (r.writes g x).pv n = x.pv n := by
  unfold LRes.writes
  split
  · split
    · rfl
    · simp
  · rename_i m v hd _
    split
    · rfl
    · rw [Thread.setP_pv x m n (v != 0) hn, if_neg (h m hd)]
      by_cases h0 : n = 0
      · subst h0; simp
      · simp [h0]
  · rfl

/-- A result that nothing overwrites is in its register. -/
theorem LRes.writes_g {v : Word} (hd : r.dest = .g n) (hv : r.val = .val v) (ho : g.overwritten r.pos n = false) : r.writes g x = x.setG n v := by
  simp [LRes.writes, hd, hv, ho]

theorem LRes.writes_p {m : Nat} {v : Word} (hd : r.dest = .p m) (hv : r.val = .val v) (ho : g.overwritten r.pos (16 + m % 8) = false) :
    r.writes g x = x.setP m (v != 0) := by
  simp [LRes.writes, hd, hv, ho]

end

end

/-! ### The state in step 3 -/

/-- A mark empties its register. -/
def State.markAt (s : State) (c t : Nat) (m : Nat × Nat) : State := s.modThr c t fun x => x.emptyG m.2

/-- A result enters its register. -/
def State.resAt (s : State) (c t : Nat) (g : Group) (r : LRes) : State := (s.writeRes c t g r).popComp c t r

/-- A state in which a thread's registers, and its core's shape registers and completions, alone have changed. -/
structure State.Wrote (s u : State) (c t : Nat) : Prop where
  rest : { u with cores := s.cores } = s
  core : ∃ th sh h q, u.core c = { s.core c with th := th, shp := sh, hold := h, comps := q }
  thr : ∃ a b d e f i j, u.thr c t = { s.thr c t with
    g := a, full := b, poison := d, rviews := e, exs := f, lastSrc := i, pr := j }

section
variable {s u w : State} {c t : Nat}

theorem State.Wrote.refl (s : State) (c t : Nat) : s.Wrote s c t := ⟨rfl, ⟨_, _, _, _, rfl⟩, ⟨_, _, _, _, _, _, _, rfl⟩⟩

theorem State.Wrote.trans (h : s.Wrote u c t) (g : u.Wrote w c t) : s.Wrote w c t where
  rest := (congrArg (fun q : State => { q with cores := s.cores }) g.rest).trans h.rest
  core := by
    obtain ⟨_, _, _, _, e⟩ := h.core
    obtain ⟨_, _, _, _, e'⟩ := g.core
    exact ⟨_, _, _, _, e'.trans (by rw [e])⟩
  thr := by
    obtain ⟨_, _, _, _, _, _, _, e⟩ := h.thr
    obtain ⟨_, _, _, _, _, _, _, e'⟩ := g.thr
    exact ⟨_, _, _, _, _, _, _, e'.trans (by rw [e])⟩

theorem State.Wrote.of_modThr (s : State) (c t : Nat) {f : Thread → Thread} (h : ∃ a b d e k i j, f (s.thr c t) = { s.thr c t with
    g := a, full := b, poison := d, rviews := e, exs := k, lastSrc := i, pr := j }) : s.Wrote (s.modThr c t f) c t where
  rest := State.setThr_rest ..
  core := by
    have e := congrArg (fun q : Core => { q with th := ((s.modThr c t f).core c).th }) (State.OnlyThread.of_modThr s c t f).core
    exact ⟨_, _, _, _, e⟩
  thr := by simpa using h

theorem State.Wrote.of_modCore (s : State) (c t : Nat) {f : Core → Core} (h : ∃ sh k q, f (s.core c) = { s.core c with shp := sh, hold := k, comps := q }) :
    s.Wrote (s.modCore c f) c t := by
  obtain ⟨_, _, _, e⟩ := h
  have hc : (s.modCore c f).core c = f (s.core c) := by simp
  refine ⟨rfl, ⟨_, _, _, _, hc.trans e⟩, ?_⟩
  have ht : (s.modCore c f).thr c t = s.thr c t := by rw [State.thr, hc, e]; rfl
  exact ⟨_, _, _, _, _, _, _, ht⟩

theorem State.Wrote.same {β : Type} (h : s.Wrote u c t) (p : State → β) (hp : ∀ (q : State) k, p { q with cores := k } = p q) : p u = p s := by
  have e := congrArg p h.rest
  rw [hp] at e
  exact e

theorem State.Wrote.coreSame {β : Type} (h : s.Wrote u c t) (p : Core → β) (hp : ∀ (q : Core) a b d e, p { q with
    th := a, shp := b, hold := d, comps := e } = p q) : p (u.core c) = p (s.core c) := by
  obtain ⟨_, _, _, _, e⟩ := h.core
  rw [e, hp]

theorem State.Wrote.thrSame {β : Type} (h : s.Wrote u c t) (p : Thread → β) (hp : ∀ (x : Thread) a b d e f i j, p { x with
    g := a, full := b, poison := d, rviews := e, exs := f, lastSrc := i, pr := j } = p x) : p (u.thr c t) = p (s.thr c t) := by
  obtain ⟨_, _, _, _, _, _, _, e⟩ := h.thr
  rw [e, hp]

theorem State.markAt_thr (s : State) (c t : Nat) (m : Nat × Nat) : (s.markAt c t m).thr c t = (s.thr c t).emptyG m.2 := by
  simp only [State.markAt, State.modThr_thr, and_self, if_true]

end

end Sys2Proof.Machine
end

section
/-! SUPPORT. Steps 3 and 4 of a clean group's commit, and its registers after them (R38, R50, R55, R68). -/

namespace Sys2Proof.Machine

open Sys2Proof.Spec

section
variable {s u w : State} {c t : Nat}

theorem State.markAt_wrote (s : State) (c t : Nat) (m : Nat × Nat) : s.Wrote (s.markAt c t m) c t := by
  refine .of_modThr s c t ?_
  unfold Thread.emptyG
  split
  · exact ⟨_, _, _, _, _, _, _, rfl⟩
  · exact ⟨_, _, _, _, _, _, _, rfl⟩

theorem State.writeRes_wrote (s : State) (c t : Nat) (g : Group) (r : LRes) : s.Wrote (s.writeRes c t g r) c t := by
  have hg (n : Nat) (v : Word) : ∃ a b d e k i j, (s.thr c t).setG n v = { s.thr c t with
      g := a, full := b, poison := d, rviews := e, exs := k, lastSrc := i, pr := j } := by
    unfold Thread.setG
    split
    · exact ⟨_, _, _, _, _, _, _, rfl⟩
    · exact ⟨_, _, _, _, _, _, _, rfl⟩
  have hp (n : Nat) (v : Bool) : ∃ a b d e k i j, (s.thr c t).setP n v = { s.thr c t with
      g := a, full := b, poison := d, rviews := e, exs := k, lastSrc := i, pr := j } := by
    unfold Thread.setP
    split
    · exact ⟨_, _, _, _, _, _, _, rfl⟩
    · exact ⟨_, _, _, _, _, _, _, rfl⟩
  unfold State.writeRes
  split
  · split
    · exact .refl s c t
    · exact .of_modThr s c t (hg ..)
  · split
    · exact .refl s c t
    · exact .of_modThr s c t (hp ..)
  · exact .of_modCore s c t ⟨_, _, _, rfl⟩
  · exact .of_modCore s c t ⟨_, _, _, rfl⟩
  · exact .refl s c t

theorem State.popComp_wrote (s : State) (c t : Nat) (r : LRes) : s.Wrote (s.popComp c t r) c t := by
  unfold State.popComp
  split
  · exact .of_modCore s c t ⟨_, _, _, rfl⟩
  · exact .refl s c t

theorem State.resAt_wrote (s : State) (c t : Nat) (g : Group) (r : LRes) : s.Wrote (s.resAt c t g r) c t :=
  (s.writeRes_wrote c t g r).trans (State.popComp_wrote ..)

theorem State.popComp_thr (s : State) (c t : Nat) (r : LRes) : (s.popComp c t r).thr c t = s.thr c t := by
  unfold State.popComp
  split
  · exact State.modCore_thr s c (by intros; rfl) c t
  · rfl

theorem State.popComp_shape (s : State) (c t : Nat) (r : LRes) (n : Nat) : ((s.popComp c t r).core c).shape n = (s.core c).shape n := by
  unfold State.popComp
  split
  · simp [Core.shape]
  · rfl

theorem State.writeRes_thr (s : State) (c t : Nat) (g : Group) (r : LRes) : (s.writeRes c t g r).thr c t = r.writes g (s.thr c t) := by
  unfold State.writeRes
  split
  · rename_i hd hv
    simp only [LRes.writes, hd, hv]
    split
    · rfl
    · simp
  · rename_i hd hv
    simp only [LRes.writes, hd, hv]
    split
    · rfl
    · simp
  · rename_i hd hv
    simp only [LRes.writes, hd, hv]
    exact State.modCore_thr s c (by intros; rfl) c t
  · rename_i hd hv
    simp only [LRes.writes, hd, hv]
    exact State.modCore_thr s c (by intros; rfl) c t
  · rename_i hg hp _ _
    unfold LRes.writes
    split
    · exact absurd ‹_› (hg _ _ ‹_›)
    · exact absurd ‹_› (hp _ _ ‹_›)
    · rfl

theorem State.resAt_thr (s : State) (c t : Nat) (g : Group) (r : LRes) : (s.resAt c t g r).thr c t = r.writes g (s.thr c t) :=
  (State.popComp_thr ..).trans (State.writeRes_thr ..)

/-- A shape register that is no result's destination stands. -/
theorem State.writeRes_shape (s : State) (c t : Nat) (g : Group) {r : LRes} {n : Nat} (h : r.dest ≠ .sh n) :
    ((s.writeRes c t g r).core c).shape n = (s.core c).shape n := by
  have hc (f : Thread → Thread) : ((s.modThr c t f).core c).shape n = (s.core c).shape n :=
    (State.OnlyThread.of_modThr s c t f).coreSame (Core.shape · n) (fun _ _ => rfl) c
  have hs (m : Nat) (hd : r.dest = .sh m) (v : BitVec 512) (k : Core) : SMap.get 0 n (SMap.set 0 m v k.shp) = SMap.get 0 n k.shp :=
    (SMap.get_set ..).trans (if_neg fun e => h (by rw [hd, e]))
  unfold State.writeRes
  split
  · split
    · rfl
    · exact hc _
  · split
    · rfl
    · exact hc _
  · rename_i m v hd _
    simp only [State.modCore_core, if_true, Core.shape]
    exact hs m hd v _
  · rename_i m lo k v hd _
    simp only [State.modCore_core, if_true, Core.shape]
    exact hs m hd _ _
  · rfl

theorem State.resAt_shape_ne (s : State) (c t : Nat) (g : Group) {r : LRes} {n : Nat} (h : r.dest ≠ .sh n) :
    ((s.resAt c t g r).core c).shape n = (s.core c).shape n := (State.popComp_shape ..).trans (s.writeRes_shape c t g h)

/-- A shape that has been read enters its register. -/
theorem State.resAt_shape (s : State) (c t : Nat) (g : Group) {r : LRes} {n : Nat} {v : BitVec 512} (hd : r.dest = .sh n) (hv : r.val = .shape v) :
    ((s.resAt c t g r).core c).shape n = v := by
  refine (State.popComp_shape ..).trans ?_
  simp only [State.writeRes, hd, hv, State.modCore_core, if_true, Core.shape]
  exact (SMap.get_set ..).trans (if_pos rfl)

/-! ### The registers after step 3 -/

/-- A group's registers written, position by position. -/
def State.writesAll (s : State) (c t : Nat) (g : Group) : State := groupWalk (fun st m => st.markAt c t m) (fun st r => st.resAt c t g r) g s

section
variable (s) (c t : Nat) (g : Group)

theorem State.writesAll_wrote : s.Wrote (s.writesAll c t g) c t :=
  groupWalk_keeps (fun u : State => s.Wrote u c t) (fun u m _ h => h.trans (u.markAt_wrote c t m)) (fun u r _ h => h.trans (u.resAt_wrote c t g r)) (.refl s c t)

variable {g} {n : Nat}

theorem State.writesAll_gv (h : ∀ r ∈ g.res, r.dest ≠ .g n) : ((s.writesAll c t g).thr c t).gv n = (s.thr c t).gv n := by
  refine groupWalk_keeps (fun u : State => (u.thr c t).gv n = (s.thr c t).gv n) (fun u m _ hu => ?_) (fun u r hr hu => ?_) rfl
  · rw [State.markAt_thr, Thread.emptyG_gv, hu]
  · rw [State.resAt_thr, LRes.writes_gv _ (h r hr), hu]

/-- A register without a mark and without a result keeps its marks. -/
theorem State.writesAll_marks (hn : n < 16) (h : ∀ r ∈ g.res, r.dest ≠ .g n) (hm : ∀ m ∈ g.marks, m.2 ≠ n) :
    ((s.writesAll c t g).thr c t).isFull n = (s.thr c t).isFull n ∧ ((s.writesAll c t g).thr c t).isPoison n = (s.thr c t).isPoison n := by
  refine groupWalk_keeps (fun u : State => (u.thr c t).isFull n = (s.thr c t).isFull n ∧ (u.thr c t).isPoison n = (s.thr c t).isPoison n)
    (fun u m hin hu => ?_) (fun u r hr hu => ?_) ⟨rfl, rfl⟩
  · rw [State.markAt_thr]
    by_cases h0 : m.2 = 0
    · rw [h0, Thread.emptyG_zero]; exact hu
    · rw [Thread.emptyG_isFull _ h0, Thread.emptyG_isPoison _ h0]
      simpa [(hm m hin).symm] using hu
  · obtain ⟨hf, hp⟩ := LRes.writes_marks (u.thr c t) (g := g) (h r hr) hn
    rw [State.resAt_thr, hf, hp]
    exact hu

/-- A register with a last-read mark and no result is empty. -/
theorem State.writesAll_emptied (hn : n < 16) (h0 : n ≠ 0) (h : ∀ r ∈ g.res, r.dest ≠ .g n) (hm : ∃ m ∈ g.marks, m.2 = n ∧ m.1 < g.n) :
    ((s.writesAll c t g).thr c t).isFull n = false ∧ ((s.writesAll c t g).thr c t).isPoison n = false := by
  obtain ⟨m, hin, hmn, hlt⟩ := hm
  refine groupWalk_marks (fun u : State => (u.thr c t).isFull n = false ∧ (u.thr c t).isPoison n = false) hin hlt (fun u => ?_) (fun u k _ hu => ?_)
    (fun u r hr hu => ?_) s
  · rw [State.markAt_thr, hmn, Thread.emptyG_isFull _ h0, Thread.emptyG_isPoison _ h0]
    simp
  · rw [State.markAt_thr]
    by_cases hk : k.2 = 0
    · rw [hk, Thread.emptyG_zero]; exact hu
    · rw [Thread.emptyG_isFull _ hk, Thread.emptyG_isPoison _ hk, hu.1, hu.2]
      simp
  · obtain ⟨hf, hp⟩ := LRes.writes_marks (u.thr c t) (g := g) (h r hr) hn
    rw [State.resAt_thr, hf, hp]
    exact hu

/-- The results of a register that agree leave their value. -/
theorem State.writesAll_val {v : Word} (h0 : n ≠ 0) (hex : ∃ r ∈ g.res, r.dest = .g n ∧ r.val = .val v)
    (h : ∀ r ∈ g.res, r.dest = .g n → r.val = .val v ∧ r.pos < g.n ∧ g.overwritten r.pos n = false) : ((s.writesAll c t g).thr c t).gv n = v := by
  obtain ⟨r, hin, hd, -⟩ := hex
  have hset (u : State) (q : LRes) (hq : q ∈ g.res) (hqd : q.dest = .g n) : ((u.resAt c t g q).thr c t).gv n = v := by
    obtain ⟨hv, -, ho⟩ := h q hq hqd
    rw [State.resAt_thr, LRes.writes_g _ hqd hv ho, Thread.setG_gv, if_pos ⟨rfl, h0⟩]
  refine groupWalk_writes (fun u : State => (u.thr c t).gv n = v) hin (h r hin hd).2.1 (fun u => hset u r hin hd) (fun u m _ _ hu => ?_) (fun u q hq hu => ?_) s
  · rw [State.markAt_thr, Thread.emptyG_gv, hu]
  · by_cases hqd : q.dest = .g n
    · exact hset u q hq hqd
    · rw [State.resAt_thr, LRes.writes_gv _ hqd, hu]

/-- The results of a register that agree, behind its marks, leave it full and without poison. -/
theorem State.writesAll_filled {v : Word} (hn : n < 16) (hex : ∃ r ∈ g.res, r.dest = .g n ∧ r.val = .val v)
    (h : ∀ r ∈ g.res, r.dest = .g n → r.val = .val v ∧ r.pos < g.n ∧ g.overwritten r.pos n = false ∧ ∀ m ∈ g.marks, m.2 = n → m.1 ≤ r.pos) :
    ((s.writesAll c t g).thr c t).isFull n = true ∧ ((s.writesAll c t g).thr c t).isPoison n = false := by
  obtain ⟨r, hin, hd, -⟩ := hex
  have hset (u : State) (q : LRes) (hq : q ∈ g.res) (hqd : q.dest = .g n) :
      ((u.resAt c t g q).thr c t).isFull n = true ∧ ((u.resAt c t g q).thr c t).isPoison n = false := by
    obtain ⟨hv, -, ho, -⟩ := h q hq hqd
    rw [State.resAt_thr, LRes.writes_g _ hqd hv ho, Thread.setG_isFull _ _ _ _ hn, Thread.setG_isPoison]
    simp
  obtain ⟨-, hlt, -, hmk⟩ := h r hin hd
  refine groupWalk_writes (fun u : State => (u.thr c t).isFull n = true ∧ (u.thr c t).isPoison n = false) hin hlt (fun u => hset u r hin hd)
    (fun u m hm hlt hu => ?_) (fun u q hq hu => ?_) s
  · have hne : m.2 ≠ n := fun e => Nat.not_le.mpr hlt (hmk m hm e)
    rw [State.markAt_thr]
    by_cases hz : m.2 = 0
    · rw [hz, Thread.emptyG_zero]; exact hu
    · rw [Thread.emptyG_isFull _ hz, Thread.emptyG_isPoison _ hz, hu.1, hu.2]
      simp [hne.symm]
  · by_cases hqd : q.dest = .g n
    · exact hset u q hq hqd
    · obtain ⟨hf, hp⟩ := LRes.writes_marks (u.thr c t) (g := g) hqd hn
      rw [State.resAt_thr, hf, hp]
      exact hu

theorem State.writesAll_pv (hn : n < 8) (h : ∀ r ∈ g.res, ∀ m, r.dest = .p m → m % 8 ≠ n) :
    ((s.writesAll c t g).thr c t).pv n = (s.thr c t).pv n := by
  refine groupWalk_keeps (fun u : State => (u.thr c t).pv n = (s.thr c t).pv n) (fun u m _ hu => ?_) (fun u r hr hu => ?_) rfl
  · rw [State.markAt_thr, Thread.emptyG_pv, hu]
  · rw [State.resAt_thr, LRes.writes_pv _ (h r hr) hn, hu]

theorem State.writesAll_pval {v : Word} (h0 : 0 < n) (hn : n < 8) (hex : ∃ r ∈ g.res, r.dest = .p n ∧ r.val = .val v)
    (h : ∀ r ∈ g.res, ∀ m, r.dest = .p m → m % 8 = n → r.val = .val v ∧ r.pos < g.n ∧ g.overwritten r.pos (16 + n) = false) :
    ((s.writesAll c t g).thr c t).pv n = (v != 0) := by
  obtain ⟨r, hin, hd, -⟩ := hex
  have hset (u : State) (q : LRes) (hq : q ∈ g.res) (m : Nat) (hqd : q.dest = .p m) (hm : m % 8 = n) : ((u.resAt c t g q).thr c t).pv n = (v != 0) := by
    obtain ⟨hv, -, ho⟩ := h q hq m hqd hm
    rw [State.resAt_thr, LRes.writes_p _ hqd hv (by rw [hm]; exact ho), Thread.setP_pv _ _ _ _ hn, if_pos hm]
    simp [Nat.ne_of_gt h0]
  have hn8 : n % 8 = n := Nat.mod_eq_of_lt hn
  refine groupWalk_writes (fun u : State => (u.thr c t).pv n = (v != 0)) hin (h r hin n hd hn8).2.1 (fun u => hset u r hin n hd hn8) (fun u m _ _ hu => ?_)
    (fun u q hq hu => ?_) s
  · rw [State.markAt_thr, Thread.emptyG_pv, hu]
  · by_cases hqd : ∃ m, q.dest = .p m ∧ m % 8 = n
    · obtain ⟨m, hqd, hm⟩ := hqd
      exact hset u q hq m hqd hm
    · rw [State.resAt_thr, LRes.writes_pv _ (fun m hm he => hqd ⟨m, hm, he⟩) hn, hu]

theorem State.writesAll_shape {v : BitVec 512} (hex : ∃ r ∈ g.res, r.dest = .sh n ∧ r.val = .shape v)
    (h : ∀ r ∈ g.res, r.dest = .sh n → r.val = .shape v ∧ r.pos < g.n) : ((s.writesAll c t g).core c).shape n = v := by
  obtain ⟨r, hin, hd, hv⟩ := hex
  refine groupWalk_writes (fun u : State => (u.core c).shape n = v) hin (h r hin hd).2 (fun u => u.resAt_shape c t g hd hv) (fun u m _ _ hu => ?_)
    (fun u q hq hu => ?_) s
  · exact ((State.OnlyThread.of_modThr u c t fun x => x.emptyG m.2).coreSame (Core.shape · n) (fun _ _ => rfl) c).trans hu
  · by_cases hqd : q.dest = .sh n
    · exact u.resAt_shape c t g hqd (h q hq hqd).1
    · rw [State.resAt_shape_ne _ _ _ _ hqd, hu]

end

end

end Sys2Proof.Machine
end

section
/-! SUPPORT. A clean group's commit from its marker to step 5 (R55, R68, R99). -/

namespace Sys2Proof.Machine

open Sys2Proof.Spec

section
variable {s u w : State} {c t : Nat}

/-! ### The joins of the group's fences (R99) -/

/-- A state in which a thread has joined views for fences of its group. -/
structure State.Joined (s u : State) (c t : Nat) : Prop where
  rest : { u with cores := s.cores, oom := s.oom } = s
  core : ∃ th, u.core c = { s.core c with th := th }
  thr : ∃ f, u.thr c t = { s.thr c t with grp := { (s.thr c t).grp with fences := f } }

theorem State.Joined.refl (s : State) (c t : Nat) : s.Joined s c t := ⟨rfl, ⟨_, rfl⟩, ⟨_, rfl⟩⟩

theorem State.Joined.trans (h : s.Joined u c t) (g : u.Joined w c t) : s.Joined w c t where
  rest := (congrArg (fun q : State => { q with cores := s.cores, oom := s.oom }) g.rest).trans h.rest
  core := by
    obtain ⟨_, e⟩ := h.core
    obtain ⟨_, e'⟩ := g.core
    exact ⟨_, e'.trans (by rw [e])⟩
  thr := by
    obtain ⟨_, e⟩ := h.thr
    obtain ⟨_, e'⟩ := g.thr
    exact ⟨_, e'.trans (by rw [e])⟩

theorem State.Joined.of_oom (s : State) (o : Oom) (c t : Nat) : s.Joined { s with oom := o } c t := ⟨rfl, ⟨_, rfl⟩, ⟨_, rfl⟩⟩

theorem State.Joined.of_modThr (s : State) (c t : Nat) {f : Thread → Thread}
    (h : ∃ l, f (s.thr c t) = { s.thr c t with grp := { (s.thr c t).grp with fences := l } }) : s.Joined (s.modThr c t f) c t where
  rest := (congrArg (fun q : State => { q with oom := s.oom }) (State.OnlyThread.of_modThr s c t f).rest)
  core := by
    have e := congrArg (fun q : Core => { q with th := ((s.modThr c t f).core c).th }) (State.OnlyThread.of_modThr s c t f).core
    exact ⟨_, e⟩
  thr := by simpa using h

theorem State.joinFence_joined (s : State) (c t : Nat) (f : GFence) : s.Joined (s.joinFence c t f) c t := by
  obtain ⟨o, h⟩ := s.joinEvents_eq (agThread c t) f.scope (s.thr c t).seen
  have h1 : s.Joined (s.joinEvents (agThread c t) f.scope (s.thr c t).seen) c t := by
    rw [h]
    exact .of_oom s o c t
  obtain ⟨o', h'⟩ := (s.joinEvents (agThread c t) f.scope (s.thr c t).seen).joinViews_eq (agThread c t) f.scope f.msgs
  have h2 : s.Joined ((s.joinEvents (agThread c t) f.scope (s.thr c t).seen).joinViews (agThread c t) f.scope f.msgs) c t := by
    rw [h']
    exact h1.trans (.of_oom _ o' c t)
  have e : s.joinFence c t f = ((s.joinEvents (agThread c t) f.scope (s.thr c t).seen).joinViews (agThread c t) f.scope f.msgs).modThr c t
      fun x => { x with grp := { x.grp with fences := x.grp.fences.map fun h => if h.pos = f.pos then { h with joined := true } else h } } := rfl
  rw [e]
  exact h2.trans (.of_modThr _ c t ⟨_, rfl⟩)

theorem State.joinFences_joined (s : State) (c t n : Nat) : s.Joined (s.joinFences c t n) c t :=
  List.foldlRecOn (motive := fun u => s.Joined u c t) _ _ (.refl s c t) fun u hu f _ => hu.trans (u.joinFence_joined c t f)

theorem State.Joined.same {β : Type} (h : s.Joined u c t) (p : State → β) (hp : ∀ (q : State) k o, p { q with cores := k, oom := o } = p q) :
    p u = p s := by
  have e := congrArg p h.rest
  rw [hp] at e
  exact e

/-! ### Steps 3 and 4 (R55, R68) -/

/-- The thread as it enters step 3, its effects numbered. -/
def Thread.enters (x : Thread) (c t : Nat) (g : Group) (post : Post) : Thread :=
  { x with
    phase := .step5, st := 1, prsn := 0, s5 := x.effects c t g, seq := x.seq + g.defs.length, post := post
    grp := { ifence := g.ifence }, answers := [], rinds := 0 }

/-- The core with the group's flags, and the lanes of its last claim. -/
def Core.flagged (k : Core) (g : Group) : Core :=
  { k with fxf := flInto k.fxf (flAll g.fx), vxf := flInto k.vxf (flAll g.vx), grant := g.lastGrant.getD k.grant }

/-- The state before step 3, and after step 4. -/
def State.beforeStep3 (s : State) (c t : Nat) (g : Group) (post : Post) : State := (s.joinFences c t g.n).modThr c t (·.enters c t g post)
def State.afterStep4 (s : State) (c t : Nat) (g : Group) (post : Post) : State :=
  ((s.beforeStep3 c t g post).writesAll c t g).modCore c (·.flagged g)

theorem State.commitGroup_eq (s : State) (c t : Nat) (g : Group) (post : Post) :
    s.commitGroup c t g post = ((s.afterStep4 c t g post).settleMbx c t).step5 c t := rfl

section
variable (s) (c t : Nat) (g : Group) (post : Post)

theorem State.beforeStep3_thr : ∃ f, (s.beforeStep3 c t g post).thr c t
    = ({ s.thr c t with grp := { (s.thr c t).grp with fences := f } } : Thread).enters c t g post := by
  obtain ⟨f, e⟩ := (s.joinFences_joined c t g.n).thr
  refine ⟨f, ?_⟩
  simp only [State.beforeStep3, State.modThr_thr, and_self, if_true, e]

/-- What steps 3 and 4 leave of the state, of the core and of the thread. -/
theorem State.afterStep4_same {β : Type} (p : State → β) (hp : ∀ (q : State) k o, p { q with cores := k, oom := o } = p q) :
    p (s.afterStep4 c t g post) = p s := by
  have hk (q : State) k : p { q with cores := k } = p q := hp q k q.oom
  have h1 := (s.joinFences_joined c t g.n).same p hp
  have h2 := (State.OnlyThread.of_modThr (s.joinFences c t g.n) c t (·.enters c t g post)).same p hk
  have h3 := ((s.beforeStep3 c t g post).writesAll_wrote c t g).same p hk
  exact (hk _ _).trans (h3.trans (h2.trans h1))

theorem State.afterStep4_core {β : Type} (p : Core → β) (hp : ∀ (q : Core) a b d e x y z, p { q with
    th := a, shp := b, hold := d, comps := e, fxf := x, vxf := y, grant := z } = p q) :
    p ((s.afterStep4 c t g post).core c) = p (s.core c) := by
  obtain ⟨th, h1⟩ := (s.joinFences_joined c t g.n).core
  have h2 := (State.OnlyThread.of_modThr (s.joinFences c t g.n) c t (·.enters c t g post)).coreSame p
    (fun q th => hp q th q.shp q.hold q.comps q.fxf q.vxf q.grant) c
  have h3 := ((s.beforeStep3 c t g post).writesAll_wrote c t g).coreSame p fun q a b d e => hp q a b d e q.fxf q.vxf q.grant
  have h4 : (s.afterStep4 c t g post).core c = (((s.beforeStep3 c t g post).writesAll c t g).core c).flagged g := by simp [State.afterStep4]
  have h5 : p ((s.joinFences c t g.n).core c) = p (s.core c) := by
    rw [h1]
    exact hp (s.core c) th (s.core c).shp (s.core c).hold (s.core c).comps (s.core c).fxf (s.core c).vxf (s.core c).grant
  rw [h4]
  exact (hp (((s.beforeStep3 c t g post).writesAll c t g).core c) _ _ _ _ _ _ _).trans (h3.trans (h2.trans h5))

theorem State.afterStep4_thr : (s.afterStep4 c t g post).thr c t = ((s.beforeStep3 c t g post).writesAll c t g).thr c t :=
  State.modCore_thr _ c (f := (·.flagged g)) (fun _ => rfl) c t

end

/-! ### A clean group (R55) -/

/-- A group at its marker without a trap commits whole. -/
theorem State.commit_clean (h : AtMarker s c t) (ht : (s.thr c t).grp.trap = none) :
    s.commit c t = s.commitGroup c t (s.thr c t).grp (s.thr c t).post := by
  have hf : (s.thr c t).grp.faultAt = none := by simp [Group.faultAt, ht, h.present, h.agrees, minPos]
  have hc : (s.thr c t).grp.cutAt = none := by simp [Group.cutAt, hf]
  have hb : (s.thr c t).grp.blocked = false := by simp [Group.blocked, hf]
  simp only [State.commit, State.checkMig_eq h.stays, h.present, List.foldl_nil, hc, hb, Bool.false_eq_true, if_false]

/-- What stands where a clean group's step 5 begins, at a thread below the handler without a waiting message. -/
structure State.AtStep5Of (s w : State) (c t : Nat) : Prop where
  same : ∀ {β : Type} (p : State → β), (∀ (q : State) k o, p { q with cores := k, oom := o } = p q) → p w = p s
  core : ∀ {β : Type} (p : Core → β), (∀ (q : Core) a b d e x y z, p { q with
    th := a, shp := b, hold := d, comps := e, fxf := x, vxf := y, grant := z } = p q) → p (w.core c) = p (s.core c)
  thr : ∃ f, ∀ {β : Type} (p : Thread → β), (∀ (x : Thread) a b d e k i j m, p { x with
      g := a, full := b, poison := d, rviews := e, exs := k, lastSrc := i, pr := j, mbx := m } = p x) →
    p (w.thr c t) = p (({ s.thr c t with grp := { (s.thr c t).grp with fences := f } } : Thread).enters c t (s.thr c t).grp (s.thr c t).post)

/-- The state in which a clean group's step 5 begins. -/
def State.step5Of (s : State) (c t : Nat) : State :=
  (s.afterStep4 c t (s.thr c t).grp (s.thr c t).post).modThr c t fun x => { x with mbx := [] }

theorem State.step5Of_at (s : State) (c t : Nat) : s.AtStep5Of (s.step5Of c t) c t := by
  obtain ⟨f, hf⟩ := s.beforeStep3_thr c t (s.thr c t).grp (s.thr c t).post
  refine ⟨fun p hp => ?_, fun p hp => ?_, f, fun p hp => ?_⟩
  · exact ((State.OnlyThread.of_modThr _ c t fun x => { x with mbx := [] }).same p fun q k => hp q k q.oom).trans (s.afterStep4_same c t _ _ p hp)
  · exact ((State.OnlyThread.of_modThr _ c t fun x => { x with mbx := [] }).coreSame p
      (fun q th => hp q th q.shp q.hold q.comps q.fxf q.vxf q.grant) c).trans (s.afterStep4_core c t _ _ p hp)
  · have h1 : (s.step5Of c t).thr c t = { (s.afterStep4 c t (s.thr c t).grp (s.thr c t).post).thr c t with mbx := [] } := by
      simp only [State.step5Of, State.modThr_thr, and_self, if_true]
    have h2 := ((s.beforeStep3 c t (s.thr c t).grp (s.thr c t).post).writesAll_wrote c t (s.thr c t).grp).thrSame p
      fun x a b d e k i j => hp x a b d e k i j x.mbx
    rw [h1, State.afterStep4_thr, ← hf]
    exact (hp (((s.beforeStep3 c t (s.thr c t).grp (s.thr c t).post).writesAll c t (s.thr c t).grp).thr c t) _ _ _ _ _ _ _ []).trans h2

/-- The commit of a clean group goes on in step 5. -/
theorem groupCommit_step5 (h : AtMarker s c t) (ht : (s.thr c t).grp.trap = none) (h7 : t < 7) (hm : (s.thr c t).mbx = []) :
    exec (.groupCommit c t none) s = .next ((s.step5Of c t).step5 c t) := by
  obtain ⟨f, hf⟩ := s.beforeStep3_thr c t (s.thr c t).grp (s.thr c t).post
  have hb : ((s.afterStep4 c t (s.thr c t).grp (s.thr c t).post).thr c t).mbx = [] := by
    rw [State.afterStep4_thr]
    refine (((s.beforeStep3 c t (s.thr c t).grp (s.thr c t).post).writesAll_wrote c t (s.thr c t).grp).thrSame Thread.mbx
      fun _ _ _ _ _ _ _ _ => rfl).trans ?_
    rw [hf]
    exact hm
  rw [groupCommit_of h, State.commit_clean h ht, State.commitGroup_eq, State.settleMbx_nil (Nat.ne_of_lt h7) hb]
  rfl

/-- Step 3 has written the group's results. -/
theorem State.step5Of_committed (s : State) (c t : Nat) : Committed s (s.step5Of c t) c t := by
  have hx : (s.step5Of c t).thr c t
      = { ((s.beforeStep3 c t (s.thr c t).grp (s.thr c t).post).writesAll c t (s.thr c t).grp).thr c t with mbx := [] } := by
    simp only [State.step5Of, State.modThr_thr, and_self, if_true, State.afterStep4_thr]
  obtain ⟨f, hf⟩ := s.beforeStep3_thr c t (s.thr c t).grp (s.thr c t).post
  have hcore {β : Type} (p : Core → β) (hp : ∀ (q : Core) th, p { q with th := th } = p q) : p ((s.step5Of c t).core c)
      = p ((((s.beforeStep3 c t (s.thr c t).grp (s.thr c t).post).writesAll c t (s.thr c t).grp).core c).flagged (s.thr c t).grp) := by
    refine ((State.OnlyThread.of_modThr _ c t fun x => { x with mbx := [] }).coreSame p hp c).trans ?_
    simp only [State.afterStep4, State.modCore_core, if_true]
  have hfl {β : Type} (p : Core → β) (hp : ∀ (q : Core) a b d e, p { q with th := a, shp := b, hold := d, comps := e } = p q) :
      p (((s.beforeStep3 c t (s.thr c t).grp (s.thr c t).post).writesAll c t (s.thr c t).grp).core c) = p (s.core c) := by
    obtain ⟨th, h1⟩ := (s.joinFences_joined c t (s.thr c t).grp.n).core
    refine (((s.beforeStep3 c t (s.thr c t).grp (s.thr c t).post).writesAll_wrote c t (s.thr c t).grp).coreSame p hp).trans ?_
    refine ((State.OnlyThread.of_modThr _ c t fun x => x.enters c t (s.thr c t).grp (s.thr c t).post).coreSame p
      (fun q th => hp q th q.shp q.hold q.comps) c).trans ?_
    rw [h1]
    exact hp (s.core c) th (s.core c).shp (s.core c).hold (s.core c).comps
  unfold Committed
  simp only [hx, hcore (Core.shape · _) fun _ _ => rfl, hcore Core.fxf fun _ _ => rfl, hcore Core.vxf fun _ _ => rfl]
  generalize hv : s.beforeStep3 c t (s.thr c t).grp (s.thr c t).post = v at hf hfl
  have hg (n : Nat) : (v.thr c t).gv n = (s.thr c t).gv n ∧ (v.thr c t).isFull n = (s.thr c t).isFull n
      ∧ (v.thr c t).isPoison n = (s.thr c t).isPoison n ∧ (v.thr c t).pv n = (s.thr c t).pv n := by
    rw [hf]
    exact ⟨rfl, rfl, rfl, rfl⟩
  refine ⟨fun n hn hr => ⟨?_, fun hm => ?_, fun h0 hm => ?_⟩, fun n v' h0 hn hex hr => ?_, fun n hn hr => ?_, fun n v' h0 hn hex hr => ?_,
    fun n v' hex hr => ?_, ?_, ?_⟩
  · exact (v.writesAll_gv c t hr).trans (hg n).1
  · obtain ⟨h1, h2⟩ := v.writesAll_marks c t hn hr hm
    exact ⟨h1.trans (hg n).2.1, h2.trans (hg n).2.2.1⟩
  · exact v.writesAll_emptied c t hn h0 hr hm
  · have hval := v.writesAll_val c t (Nat.pos_iff_ne_zero.mp h0) hex fun r hin hd => ⟨(hr r hin hd).1, (hr r hin hd).2.1, (hr r hin hd).2.2.1⟩
    obtain ⟨h1, h2⟩ := v.writesAll_filled c t hn hex hr
    exact ⟨hval, h1, h2⟩
  · exact (v.writesAll_pv c t hn hr).trans (hg n).2.2.2
  · exact v.writesAll_pval c t h0 hn hex hr
  · exact v.writesAll_shape c t hex hr
  · exact congrArg (flInto · (flAll (s.thr c t).grp.fx)) (hfl Core.fxf fun _ _ _ _ _ => rfl)
  · exact congrArg (flInto · (flAll (s.thr c t).grp.vx)) (hfl Core.vxf fun _ _ _ _ _ => rfl)

end

end Sys2Proof.Machine
end

section
/-! SUPPORT. A clean group from its marker to its sequel (R55, R116 to R118). -/

namespace Sys2Proof.Machine

open Sys2Proof.Spec

section
variable {s w : State} {c t : Nat}

/-- A g register that no result of the group goes to keeps its value. -/
theorem State.step5Of_gv {n : Nat} (h : ∀ r ∈ (s.thr c t).grp.res, r.dest ≠ .g n) : ((s.step5Of c t).thr c t).gv n = (s.thr c t).gv n := by
  obtain ⟨f, hf⟩ := s.beforeStep3_thr c t (s.thr c t).grp (s.thr c t).post
  simp only [State.step5Of, State.modThr_thr, and_self, if_true, State.afterStep4_thr]
  refine (State.writesAll_gv _ c t h).trans ?_
  rw [hf]
  rfl

theorem State.step5Of_val {n : Nat} {v : Word} (h0 : n ≠ 0) (hex : ∃ r ∈ (s.thr c t).grp.res, r.dest = .g n ∧ r.val = .val v)
    (h : ∀ r ∈ (s.thr c t).grp.res, r.dest = .g n → r.val = .val v ∧ r.pos < (s.thr c t).grp.n ∧ (s.thr c t).grp.overwritten r.pos n = false) :
    ((s.step5Of c t).thr c t).gv n = v := by
  simp only [State.step5Of, State.modThr_thr, and_self, if_true, State.afterStep4_thr]
  exact State.writesAll_val _ c t h0 hex h

theorem State.step5Of_mbx (s : State) (c t : Nat) : ((s.step5Of c t).thr c t).mbx = [] := by
  simp only [State.step5Of, State.modThr_thr, and_self, if_true]

/-- A clean group's commit goes on as its step 5. -/
theorem groupCommit_resumes (h : AtMarker s c t) (ht : (s.thr c t).grp.trap = none) (h7 : t < 7) (hm : (s.thr c t).mbx = []) :
    exec (.groupCommit c t none) s = exec (.commitStep5Resume c t) (s.step5Of c t) ∧ ((s.step5Of c t).thr c t).phase = .step5
      ∧ ((s.step5Of c t).thr c t).s5 = (s.thr c t).effects c t (s.thr c t).grp ∧ ((s.step5Of c t).thr c t).post = (s.thr c t).post := by
  obtain ⟨-, hcore, f, hthr⟩ := s.step5Of_at c t
  have hp := hthr Thread.phase fun _ _ _ _ _ _ _ _ _ => rfl
  have hr : ((s.step5Of c t).core c).stopped = false := (hcore Core.stopped fun _ _ _ _ _ _ _ _ => rfl).trans h.runs
  refine ⟨?_, hp, hthr Thread.s5 fun _ _ _ _ _ _ _ _ _ => rfl, hthr Thread.post fun _ _ _ _ _ _ _ _ _ => rfl⟩
  rw [groupCommit_step5 h ht h7 hm, commitStep5Resume_of hp hr]

section
variable (h : AtMarker s c t) (hq : Quiet s c t) (ht : (s.thr c t).grp.trap = none) (hd : (s.thr c t).grp.defs = [])
include h hq ht hd

/-- A quiet thread's group without a deferred effect ends in its sequel. -/
theorem groupCommit_accepted : exec (.groupCommit c t none) s
    = .next (State.afterCommit (((s.step5Of c t).modThr c t Thread.finished).modThr c t fun x => { x with mbx := [] }) c t (s.thr c t).post) := by
  obtain ⟨-, -, f, hthr⟩ := s.step5Of_at c t
  have h5 : ((s.step5Of c t).thr c t).s5 = [] := (hthr Thread.s5 fun _ _ _ _ _ _ _ _ _ => rfl).trans (by simp [Thread.enters, Thread.effects, hd])
  have hl : ((s.step5Of c t).thr c t).late = [] := (hthr Thread.late fun _ _ _ _ _ _ _ _ _ => rfl).trans hq.accepted
  have hp : ((s.step5Of c t).thr c t).post = (s.thr c t).post := hthr Thread.post fun _ _ _ _ _ _ _ _ _ => rfl
  rw [groupCommit_step5 h ht hq.low hq.mail, State.step5_done h5, State.finish_accepted (Nat.ne_of_lt hq.low) (s.step5Of_mbx c t) hl, hp]

end

/-- The state once a quiet thread's group has committed. -/
def State.committed (s : State) (c t : Nat) : State := ((s.step5Of c t).modThr c t Thread.finished).modThr c t fun x => { x with mbx := [] }

theorem State.committed_thr (s : State) (c t : Nat) : (s.committed c t).thr c t = { ((s.step5Of c t).thr c t).finished with mbx := [] } := by
  simp only [State.committed, State.modThr_thr, and_self, if_true]

theorem State.committed_same {β : Type} (s : State) (c t : Nat) (p : State → β) (hp : ∀ (q : State) k o, p { q with cores := k, oom := o } = p q) :
    p (s.committed c t) = p s :=
  (((State.OnlyThread.of_modThr _ c t Thread.finished).trans (.of_modThr _ c t fun x => { x with mbx := [] })).same p
    fun q k => hp q k q.oom).trans ((s.step5Of_at c t).same p hp)

theorem State.committed_core {β : Type} (s : State) (c t : Nat) (p : Core → β) (hp : ∀ (q : Core) a b d e x y z, p { q with
    th := a, shp := b, hold := d, comps := e, fxf := x, vxf := y, grant := z } = p q) : p ((s.committed c t).core c) = p (s.core c) :=
  (((State.OnlyThread.of_modThr _ c t Thread.finished).trans (.of_modThr _ c t fun x => { x with mbx := [] })).coreSame p
    (fun q th => hp q th q.shp q.hold q.comps q.fxf q.vxf q.grant) c).trans ((s.step5Of_at c t).core p hp)

theorem State.committed_gv (s : State) (c t n : Nat) : ((s.committed c t).thr c t).gv n = ((s.step5Of c t).thr c t).gv n := by
  rw [State.committed_thr]
  rfl

theorem State.committed_issues (s : State) (c t : Nat) : ((s.committed c t).thr c t).st = 1 ∧ ((s.committed c t).thr c t).phase = .issue
    ∧ ((s.committed c t).thr c t).pc = (s.thr c t).nextPc ∧ ((s.committed c t).thr c t).grp = {} := by
  obtain ⟨-, -, f, hthr⟩ := s.step5Of_at c t
  rw [State.committed_thr]
  exact ⟨rfl, rfl, hthr Thread.nextPc fun _ _ _ _ _ _ _ _ _ => rfl, rfl⟩

section
variable (hq : Quiet s c t)
include hq

/-- A quiet thread is so still. -/
theorem State.committed_quiet : ((s.committed c t).thr c t).assist = none ∧ ((s.committed c t).core c).lateOf t = none
    ∧ ((s.committed c t).thr c t).duo = false := by
  obtain ⟨-, -, f, hthr⟩ := s.step5Of_at c t
  rw [State.committed_thr]
  refine ⟨(hthr Thread.assist fun _ _ _ _ _ _ _ _ _ => rfl).trans hq.assist, ?_, (hthr Thread.duo fun _ _ _ _ _ _ _ _ _ => rfl).trans hq.single⟩
  rw [Core.lateOf, s.committed_core c t Core.tq fun _ _ _ _ _ _ _ _ => rfl]
  exact hq.late

theorem State.committed_tend (hr : (s.thr c t).recast = false) (hn : (s.core c).topRec = none) :
    ((s.committed c t).afterCommit c t .tend).mem = s.mem ∧ (((s.committed c t).afterCommit c t .tend).thr c t).st = 0
      ∧ (((s.committed c t).afterCommit c t .tend).thr c t).grp = {} := by
  obtain ⟨-, -, f, hthr⟩ := s.step5Of_at c t
  have h7 := Nat.ne_of_lt hq.low
  have hrc : ((s.committed c t).thr c t).recast = false := by
    rw [State.committed_thr]
    exact (hthr Thread.recast fun _ _ _ _ _ _ _ _ _ => rfl).trans hr
  have htop : ((s.committed c t).core c).topRec = none := (s.committed_core c t Core.topRec fun _ _ _ _ _ _ _ _ => rfl).trans hn
  have he : (s.committed c t).endTask c t = (s.committed c t).freeThread c t := by
    simp only [State.endTask, hrc, htop, ite_self, Bool.false_and, Bool.false_eq_true, if_false]
  have ha : (s.committed c t).afterCommit c t .tend = ((s.committed c t).freeThread c t).endLates c t := by
    simp only [State.afterCommit, State.endWith, (State.committed_quiet hq).2.2, Bool.false_eq_true, if_false, he]
  obtain ⟨n, hf⟩ := (s.committed c t).freeThread_thr c h7
  obtain ⟨m, hl⟩ := (State.endLates_stirs ((s.committed c t).freeThread c t) c h7).thr c t (by rw [hf]; exact fun _ e => Phase.noConfusion e)
    fun e => h7 e.2
  have hmem := ((State.freeThread_still (q := False) (s.committed c t) c t False.elim).trans
    (State.endLates_still ((s.committed c t).freeThread c t) c t False.elim)).mem
  rw [ha]
  refine ⟨hmem.trans (s.committed_same c t State.mem fun _ _ _ => rfl), ?_, ?_⟩
  · rw [hl, hf]; rfl
  · rw [hl, hf]; rfl

end

/-- The sequels of a quiet thread's group (R116 to R118). -/
theorem groupCommit_sequels (h : AtMarker s c t) (hq : Quiet s c t) (ht : (s.thr c t).grp.trap = none) (hd : (s.thr c t).grp.defs = []) :
    let x := s.thr c t
    (x.post = .none →
      Goes (.groupCommit c t none) s fun u =>
        (u.thr c t).st = 1 ∧ (u.thr c t).phase = .issue ∧ (u.thr c t).pc = x.nextPc ∧ (u.thr c t).grp = {} ∧ u.mem = s.mem
        ∧ (∀ n, (∀ r ∈ x.grp.res, r.dest ≠ .g n) → (u.thr c t).gv n = x.gv n)
        ∧ (∀ n v, n ≠ 0 → (∃ r ∈ x.grp.res, r.dest = .g n ∧ r.val = .val v) →
            (∀ r ∈ x.grp.res, r.dest = .g n → r.val = .val v ∧ r.pos < x.grp.n ∧ x.grp.overwritten r.pos n = false) →
            (u.thr c t).gv n = v))
    ∧ (∀ cause sub info, (cause = 0x08 ∨ cause = 0x09) → x.post = .msg cause sub info → x.grp.res = [] → x.grp.marks = [] →
      Goes (.groupCommit c t none) s fun u =>
        (u.thr c t).st = 4 ∧ (u.thr c t).resume = x.nextPc ∧ (∀ n, (u.thr c t).gv n = x.gv n)
        ∧ u.hmsgs = s.hmsgs ++ [{ dst := c, msg := { g1 := msgG1 t 0 sub cause, g2 := x.nextPc, g3 := info, ctx := x.ctx } }])
    ∧ (x.post = .tend → x.recast = false → (s.core c).topRec = none →
      Goes (.groupCommit c t none) s fun u => (u.thr c t).st = 0 ∧ (u.thr c t).grp = {} ∧ u.mem = s.mem) := by
  intro x
  obtain ⟨ha, hl, hdu⟩ := State.committed_quiet hq
  have hgo : exec (.groupCommit c t none) s = .next ((s.committed c t).afterCommit c t x.post) := groupCommit_accepted h hq ht hd
  have hc := s.committed_thr c t
  obtain ⟨-, -, f, hthr⟩ := s.step5Of_at c t
  have hnp : ((s.step5Of c t).thr c t).nextPc = x.nextPc := hthr Thread.nextPc fun _ _ _ _ _ _ _ _ _ => rfl
  have hcx : ((s.committed c t).thr c t).ctx = x.ctx := by
    rw [hc]
    exact hthr Thread.ctx fun _ _ _ _ _ _ _ _ _ => rfl
  refine ⟨fun hp => ?_, fun cause sub info hcs hp hr hm => ?_, fun hp hr hn => ?_⟩
  · rw [hp, State.afterCommit_none ha hl hdu] at hgo
    obtain ⟨hst, hph, hpc, hg⟩ := s.committed_issues c t
    exact ⟨_, hgo, hst, hph, hpc, hg, s.committed_same c t State.mem fun _ _ _ => rfl, fun n hn => (s.committed_gv c t n).trans (State.step5Of_gv hn),
      fun n v h0 hex hr => (s.committed_gv c t n).trans (State.step5Of_val h0 hex hr)⟩
  · have hne : cause ≠ 0x31 := by rcases hcs with rfl | rfl <;> decide
    have hgo' : exec (.groupCommit c t none) s = .next ((s.committed c t).takeTrap c t 0 cause sub x.nextPc info x.nextPc) := by
      rw [hgo, hp]
      simp only [State.afterCommit]
      have hn : ((s.committed c t).thr c t).nextPc = x.nextPc := by rw [hc]; exact hnp
      rw [hn]
    rw [State.takeTrap_low (Nat.ne_of_lt hq.low) hne hdu] at hgo'
    refine ⟨_, hgo', ?_⟩
    simp only [State.modThr_thr, and_self, if_true, State.modThr_hmsgs, State.sendHandler_thr, State.sendHandler_hmsgs]
    rw [hcx, s.committed_same c t State.hmsgs fun _ _ _ => rfl]
    refine ⟨rfl, rfl, fun n => ?_, rfl⟩
    exact (s.committed_gv c t n).trans (State.step5Of_gv fun r hin => absurd (hr ▸ hin) List.not_mem_nil)
  · rw [hp] at hgo
    obtain ⟨hmem, hst, hg⟩ := State.committed_tend hq hr hn
    exact ⟨_, hgo, hst, hg, hmem⟩

end

end Sys2Proof.Machine
end

section
/-! SUPPORT. A TRET that step 5 takes (R255), the return of a result (R55, R90), and the fetch of a line (R41, R106). -/

namespace Sys2Proof.Machine

open Sys2Proof.Spec

section
variable {s u w : State} {c t : Nat}

/-! ### A mailbox that settles (R38, R281) -/

/-- A core that runs its t7 gives it messages into registers alone. -/
theorem State.pump_live {β : Type} (p : Thread → β) (hp : ∀ (x : Thread) g f v r l b n a m i, p { x with
      g := g, full := f, poison := v, rviews := r, lastSrc := l, yielded := b, prsn := n, st := a, mbx := m, lcause := i } = p x)
    (hs : (s.thr c 7).st ≠ 0) : p ((s.pump c).thr c 7) = p (s.thr c 7) := by
  have hfill (x : Thread) (n : Nat) (v : Word) (vs : List View) (src : Nat) (b : Bool) : p (x.fill n v vs src b) = p x :=
    hp x _ _ _ _ _ _ _ _ x.mbx x.lcause
  have htake (m : HMsg) (cx : Nat) : p ((s.takeMsg c cx m).thr c 7) = p (s.thr c 7) := by
    obtain ⟨n, e⟩ := (Core.Gave.of_gives (s.core c) s.dtime cx m).thr 7
    have hc : (s.takeMsg c cx m).thr c 7 = { s.thr c 7 with lcause := n } := by
      rw [State.takeMsg_eq]
      simp only [State.thr, State.modCore_core, if_true, State.told_core]
      exact e
    rw [hc]
    exact hp (s.thr c 7) _ _ _ _ _ _ _ _ _ n
  simp only [State.pump, if_neg hs]
  split
  · split
    · rfl
    · rw [State.haltWake_thr, State.modThr_thr, if_pos ⟨rfl, rfl⟩, hfill, hfill, hfill]
      exact htake _ _
  · rfl

/-- What a mailbox that settles keeps of its thread: all that no message touches. -/
theorem State.settleMbx_same {β : Type} (p : Thread → β) (hp : ∀ (x : Thread) g f v r l b n a m i, p { x with
      g := g, full := f, poison := v, rviews := r, lastSrc := l, yielded := b, prsn := n, st := a, mbx := m, lcause := i } = p x)
    (hs : (s.thr c t).st ≠ 0) : p ((s.settleMbx c t).thr c t) = p (s.thr c t) := by
  have hin (v : State) (l : List Mbx) : p ((v.moveIn c t l [] []).thr c t) = p (v.thr c t) :=
    (State.moveIn_filled c t l v [] []).took.same p fun x g f q r l b n a m => hp x g f q r l b n a m x.lcause
  by_cases h7 : t = 7
  · subst h7
    simp only [State.settleMbx, if_true]
    rw [State.haltWake_thr, hin]
    exact State.pump_live p hp hs
  · simp only [State.settleMbx, if_neg h7]
    exact hin ..

/-- Every other thread that waits at no barrier keeps all but its LCAUSE. -/
theorem State.settleMbx_other {d k : Nat} (hne : ¬ (d = c ∧ k = t)) (hp : ∀ l, (s.thr d k).phase ≠ .barrier l) :
    ∃ n, (s.settleMbx c t).thr d k = { s.thr d k with lcause := n } := by
  by_cases h7 : t = 7
  · subst h7
    simp only [State.settleMbx, if_true]
    obtain ⟨n, h⟩ := (s.pump_stirs c).thr d k hp hne
    exact ⟨n, by rw [State.haltWake_thr, (State.moveIn_filled ..).only.thr hne, h]⟩
  · simp only [State.settleMbx, if_neg h7]
    exact ⟨(s.thr d k).lcause, (State.moveIn_filled ..).only.thr hne⟩

theorem State.settleMbx_lateOf (h : (s.core c).lateOf t = none) : ((s.settleMbx c t).core c).lateOf t = none := by
  have hin (v : State) (l : List Mbx) : (v.core c).lateOf t = none → ((v.moveIn c t l [] []).core c).lateOf t = none := by
    intro hv
    rw [Core.lateOf, (State.moveIn_filled c t l v [] []).only.coreSame Core.tq (fun _ _ => rfl) c]
    exact hv
  by_cases h7 : t = 7
  · subst h7
    simp only [State.settleMbx, if_true]
    exact (State.haltWake_still (q := False) ..).lates c (hin _ _ ((s.pump_still (q := False) c).lates c h))
  · simp only [State.settleMbx, if_neg h7]
    exact hin _ _ h

/-- A commit that nothing stops and whose effects have been accepted leaves its thread at its next head, and every other thread
that waits at no barrier with all but its LCAUSE. -/
theorem State.finish_other {d k : Nat} (hl : (s.thr c t).late = []) (hpo : (s.thr c t).post = .none) (ha : (s.thr c t).assist = none)
    (hf : (s.core c).lateOf t = none) (hd : (s.thr c t).duo = false) (hne : ¬ (d = c ∧ k = t)) (hp : ∀ l, (s.thr d k).phase ≠ .barrier l) :
    ((s.finish c t).thr c t).phase = .issue ∧ ∃ n, (s.finish c t).thr d k = { s.thr d k with lcause := n } := by
  have hx : (s.modThr c t Thread.finished).thr c t = (s.thr c t).finished := by simp only [State.modThr_thr, and_self, if_true]
  have hs : ((s.modThr c t Thread.finished).thr c t).st ≠ 0 := by rw [hx]; exact Nat.one_ne_zero
  have hlate : ((s.modThr c t Thread.finished).core c).lateOf t = none := by
    rw [Core.lateOf, (State.OnlyThread.of_modThr s c t Thread.finished).coreSame Core.tq (fun _ _ => rfl) c]
    exact hf
  have hfin : s.finish c t = (s.modThr c t Thread.finished).settleMbx c t := by
    have h0 : s.finish c t = ((s.modThr c t Thread.finished).settleMbx c t).afterCommit c t .none := by
      simp only [State.finish, hl, hpo]
      rfl
    rw [h0]
    refine State.afterCommit_none ?_ (State.settleMbx_lateOf hlate) ?_
    · rw [State.settleMbx_same Thread.assist (fun _ _ _ _ _ _ _ _ _ _ _ => rfl) hs, hx]; exact ha
    · rw [State.settleMbx_same Thread.duo (fun _ _ _ _ _ _ _ _ _ _ _ => rfl) hs, hx]; exact hd
  have hother : (s.modThr c t Thread.finished).thr d k = s.thr d k := (State.OnlyThread.of_modThr s c t Thread.finished).thr hne
  rw [hfin]
  refine ⟨?_, ?_⟩
  · rw [State.settleMbx_same Thread.phase (fun _ _ _ _ _ _ _ _ _ _ _ => rfl) hs, hx]; rfl
  · obtain ⟨n, h⟩ := State.settleMbx_other (s := s.modThr c t Thread.finished) hne (by rw [hother]; exact hp)
    exact ⟨n, by rw [h, hother]⟩

/-! ### TRET (R255) -/

/-- A trapped thread that is ready again. -/
def Thread.resumed (y : Thread) (pc : Word) : Thread := { y with st := 1, prsn := 0, pc := fpCode pc, fb := [], grp := {}, phase := .issue }

section
variable {e : Eff} {d k : Nat}

/-- TRET in mode 0 or 1 makes its target ready. -/
theorem State.effect_tret (ho : e.op = 0xF8) (hdr : s.drainedTo c t e.seq = true) (hd : e.va.toNat / 8 = d) (hk : e.va.toNat % 8 = k)
    (hst : (s.thr d k).st = 4) (hp : (s.thr d k).postponed = .none) (hdu : (s.thr d k).duo = false) (hm : e.m = 0 ∨ e.m = 1) :
    ∃ vs, s.effect c t e = .done ((s.modThr d k fun y => y.resumed (if e.m = 0 then (s.thr d k).resume else e.vb)).joinViews (agThread d k) 5 vs) := by
  have he : s.effect c t e = s.doTret c t e := by simp [State.effect, State.unitEff, isCommand, State.sysEffect, ho]
  have hr (pc : Word) (vs : List View) : s.tretReady d k pc vs = (s.modThr d k fun y => y.resumed pc).joinViews (agThread d k) 5 vs := by
    simp only [State.tretReady, hp]
    rfl
  refine ⟨[s.viewFrom (agThread c t) 4], ?_⟩
  rw [he]
  rcases hm with hm | hm <;> simp [State.doTret, hdr, hd, hk, hm, hst, hdu, hr]

theorem tret_resumes (h : AtStep5 s c t e []) (hl : (s.thr c t).late = []) (hpo : (s.thr c t).post = .none) (ha : (s.thr c t).assist = none)
    (hf : (s.core c).lateOf t = none) (hdu : (s.thr c t).duo = false) (ho : e.op = 0xF8) (hdr : s.drainedTo c t e.seq = true)
    (hd : e.va.toNat / 8 = d) (hk : e.va.toNat % 8 = k) (hne : ¬ (d = c ∧ k = t)) (hst : (s.thr d k).st = 4)
    (hp : (s.thr d k).postponed = .none) (hdd : (s.thr d k).duo = false) (hm : e.m = 0 ∨ e.m = 1) :
    Goes (.commitStep5Resume c t) s fun u =>
      (u.thr d k).st = 1 ∧ (u.thr d k).fb = [] ∧ (∀ n, (u.thr d k).gv n = (s.thr d k).gv n)
      ∧ (u.thr d k).pc = fpCode (if e.m = 0 then (s.thr d k).resume else e.vb) ∧ (u.thr c t).phase = .issue := by
  obtain ⟨vs, he⟩ := State.effect_tret ho hdr hd hk hst hp hdd hm
  generalize hpc : (if e.m = 0 then (s.thr d k).resume else e.vb) = pc at he ⊢
  have hne' : ¬ (c = d ∧ t = k) := fun e => hne ⟨e.1.symm, e.2.symm⟩
  have hcore (i : Nat) : ((s.modThr d k fun y => y.resumed pc).joinViews (agThread d k) 5 vs).core i = (s.modThr d k fun y => y.resumed pc).core i :=
    State.joinViews_core ..
  have hthr (i j : Nat) : ((s.modThr d k fun y => y.resumed pc).joinViews (agThread d k) 5 vs).thr i j = (s.modThr d k fun y => y.resumed pc).thr i j := by
    rw [State.thr, hcore, State.thr]
  generalize hw : ((s.modThr d k fun y => y.resumed pc).joinViews (agThread d k) 5 vs) = v at he hcore hthr
  have hv : v.thr c t = s.thr c t := by rw [hthr, State.modThr_thr, if_neg hne']
  have hx : (v.modThr c t (·.popEff)).thr c t = { s.thr c t with s5 := [] } := by
    simp only [State.modThr_thr, and_self, if_true, hv, Thread.popEff, h.head, List.tail_cons]
  have hy : (v.modThr c t (·.popEff)).thr d k = (s.thr d k).resumed pc := by
    rw [State.modThr_thr, if_neg hne, hthr, State.modThr_thr, if_pos ⟨rfl, rfl⟩]
  have hstep : s.step5 c t = (v.modThr c t (·.popEff)).finish c t := by
    rw [step5_accepts h he, List.length_nil, State.runS5]
    simp only [hx]
  have hlate : ((v.modThr c t (·.popEff)).core c).lateOf t = none := by
    rw [Core.lateOf, State.pop_core v c t Core.tq (fun _ _ => rfl) c, hcore,
      (State.OnlyThread.of_modThr s d k fun y => y.resumed pc).coreSame Core.tq (fun _ _ => rfl) c]
    exact hf
  obtain ⟨hph, n, hn⟩ := State.finish_other (s := v.modThr c t (·.popEff)) (d := d) (k := k) (by rw [hx]; exact hl) (by rw [hx]; exact hpo)
    (by rw [hx]; exact ha) hlate (by rw [hx]; exact hdu) hne (by rw [hy]; exact fun _ e => Phase.noConfusion e)
  rw [hy] at hn
  refine ⟨_, (commitStep5Resume_of h.phase h.runs).trans (congrArg _ hstep), ?_⟩
  dsimp only
  rw [hn]
  exact ⟨rfl, rfl, fun _ => rfl, rfl, hph⟩

end

/-! ### Results and lines (R41, R55, R90, R106) -/

/-- A result that has returned with a value. -/
def LRes.returns (r : LRes) (v : LVal) : LRes := { r with val := v, parts := [], ret := true, done := true }

theorem Thread.settle_grp (x : Thread) : x.settle.grp = x.grp := by
  unfold Thread.settle Thread.wake
  split <;> rfl

/-- The thread once a result has returned. -/
theorem State.setRet_thr (s : State) (c t k : Nat) (r : LRes) (v : LVal) : (s.setRet c t k r v).thr c t
    = ({ s.thr c t with grp := { (s.thr c t).grp with res := (s.thr c t).grp.res.set k (r.returns v) } } : Thread).settle := by
  simp only [State.setRet, State.setRes, State.modGrp, State.modThr_thr, and_self, if_true]
  rfl

section
variable {k : Nat} {r q : LRes}

theorem State.setRet_res (h : (s.thr c t).grp.res[k]? = some q) (r : LRes) (v : LVal) :
    ((s.setRet c t k r v).thr c t).grp.res[k]? = some (r.returns v) := by
  have hk : k < (s.thr c t).grp.res.length := (List.getElem?_eq_some_iff.mp h).1
  rw [State.setRet_thr, Thread.settle_grp]
  simp [hk]

variable (hr : (s.thr c t).grp.res[k]? = some r) (hret : r.ret = false) (hf : s.inFlight c t = true)
include hr hret hf

theorem resultReturn_val {v : Word} (hv : r.val = .val v) : exec (.resultReturn c t k) s = .next (s.setRet c t k r (.val v)) := by
  show execResultReturn c t k s = _
  simp only [execResultReturn, hr, hret, hf, hv, Bool.not_true, Bool.or_self, Bool.false_eq_true, if_false]

theorem resultReturn_load {a : Option Nat} {b : Bool} (hv : r.val = .load .zero a b) (hd : r.done = true) :
    exec (.resultReturn c t k) s = .next (s.setRet c t k r (.val (BitVec.ofNat 64 (leNat (gotBytes r.parts))))) := by
  show execResultReturn c t k s = _
  simp only [execResultReturn, hr, hret, hf, hv, hd, Bool.not_true, Bool.or_self, Bool.false_eq_true, if_false, if_true, State.retLoad]

/-- A group that meets a divergence at an instruction. -/
def Group.diverge (g : Group) (r : LRes) (v w : Word) : Group :=
  if g.rind.all fun p => decide (r.pos < p.1) then { g with rind := some (r.pos, r.pc), rindBits := [v, w] } else g

/-- A result whose rind diverges marks its group, which still issues. -/
theorem groupCommit_diverges {v w : Word} (hv : r.val = .val v) (hfm : r.fmt ≠ 0) (hp : (s.thr c t).phase = .issue)
    (hn : (s.thr c t).grp.rind = none) (hself : (s.thr c t).grp.self = none)
    (hdv : (if r.fmt = 12 then fmtF64 else fmtF32).diverges v.toNat w.toNat = true) :
    Goes (.groupCommit c t (some (k, w))) s fun u =>
      (u.thr c t).grp.rind = some (r.pos, r.pc) ∧ u.mem = s.mem ∧ (u.thr c t).grp.res[k]? = some (r.returns (.val v)) := by
  have hs0 : s.rindReturn c t k w = ((s.modGrp c t (·.diverge r v w)).setRet c t k r (.val v)).modThr c t fun x => x.cutFor r := by
    simp only [State.rindReturn, hr, hv, hret, hf, Bool.not_true, Bool.or_self, Bool.false_eq_true, if_false, State.retRind, hfm, ne_eq, not_false_eq_true,
      hdv, and_self, if_true]
    rfl
  have hg : (s.thr c t).grp.diverge r v w = { (s.thr c t).grp with rind := some (r.pos, r.pc), rindBits := [v, w] } := by simp [Group.diverge, hn]
  have h1 : (s.modGrp c t (·.diverge r v w)).thr c t = { s.thr c t with grp := { (s.thr c t).grp with rind := some (r.pos, r.pc), rindBits := [v, w] } } := by
    simp only [State.modGrp, State.modThr_thr, and_self, if_true, hg]
  generalize ho : s.modGrp c t (·.diverge r v w) = m at hs0 h1
  have hm : m.mem = s.mem := by rw [← ho]; rfl
  have h2 : (m.setRet c t k r (.val v)).thr c t = { m.thr c t with grp := { (m.thr c t).grp with res := (m.thr c t).grp.res.set k (r.returns (.val v)) } } := by
    rw [State.setRet_thr, Thread.settle, if_neg]
    rintro ⟨hph, -⟩
    rw [h1] at hph
    exact Phase.noConfusion (hp.symm.trans hph)
  have h3 : (s.rindReturn c t k w).thr c t = (m.setRet c t k r (.val v)).thr c t := by
    rw [hs0, State.modThr_thr, if_pos ⟨rfl, rfl⟩, Thread.cutFor, if_neg]
    rintro ⟨-, hcut⟩
    rw [h2, h1] at hcut
    simp [Group.cutAt, hself] at hcut
  have hph : ((s.rindReturn c t k w).thr c t).phase ≠ .marker := by
    rw [h3, h2, h1]
    exact fun e => Phase.noConfusion (hp.symm.trans e)
  refine ⟨s.rindReturn c t k w, ?_, ?_, ?_, ?_⟩
  · show execGroupCommit c t (some (k, w)) s = _
    simp [execGroupCommit, hph]
  · rw [h3, h2, h1]
  · rw [hs0]
    exact hm
  · rw [h3]
    refine State.setRet_res (q := r) ?_ r _
    rw [h1]
    exact hr

end

/-- A line that the buffer lacked is in it once it has joined. -/
theorem Thread.withLine_line {x : Thread} {p : Word} (h : x.line p = none) (l : List Byte) :
    (x.withLine (fpWith p (fpOff p / 64 * 64)) l).line p = some l := by
  have hn : ∀ r ∈ x.fb, ¬ (r.1 == fpWith p (fpOff p / 64 * 64)) = true := by
    simpa [Thread.line] using h
  have hd : x.fb.length + 1 - 2 ≤ x.fb.length := by omega
  simp only [Thread.line, Thread.withLine]
  rw [List.drop_append_of_le_length hd, List.find?_append, List.find?_eq_none.mpr fun r hr => hn r (List.mem_of_mem_drop hr)]
  simp

theorem lineFetch_line {u : State} {l : List Byte} (hs : (s.thr c t).st = 1) (hp : (s.thr c t).phase = .issue) (hr : (s.core c).stopped = false)
    (h : s.fetch c t (s.thr c t).pc = .line u l) :
    exec (.lineFetch c t) s = .next u ∧ (u.thr c t).line (s.thr c t).pc = some l := by
  refine ⟨?_, ?_⟩
  · show execLineFetch c t s = _
    simp [execLineFetch, hs, hp, hr, h]
  · obtain ⟨hl, rfl⟩ | ⟨hl, ids, loc, rfl⟩ := State.fetch_line h
    · exact hl
    · rw [State.modThr_thr, if_pos ⟨rfl, rfl⟩, State.heat_thr]
      exact Thread.withLine_line hl l

end

/-- Settles O51: a clean group's registers, its effects one by one, its sequels, TRET, and what returns to a group. -/
theorem cleanCommits : Obligations.CleanCommits := by
  unfold Obligations.CleanCommits
  refine ⟨fun s c t h ht h7 hm => ?_, effectsDispatch, fun s c t h hq ht hd => groupCommit_sequels h hq ht hd,
    fun s c t e hp hr h5 hl hpo ha hf hdu ho hag hdr hne hst hpp hdd hm => ?_, fun s c t k r hr hret hf => ⟨fun v hv => ?_, fun a b hv hd => ?_,
      fun v w hv hfm hp hn hs hdv => ?_⟩, fun s u c t l hs hp hr h => lineFetch_line hs hp hr h⟩
  · obtain ⟨hgo, hph, h5, hpo⟩ := groupCommit_resumes h ht h7 hm
    exact ⟨s.step5Of c t, hgo, hph, h5, hpo, (s.step5Of_at c t).same State.mem fun _ _ _ => rfl, s.step5Of_committed c t⟩
  · exact tret_resumes ⟨hp, hr, h5, hag⟩ hl hpo ha hf hdu ho hdr rfl rfl (fun e => hne.elim (· e.1) (· e.2)) hst hpp hdd hm
  · refine ⟨_, resultReturn_val hr hret hf hv, ?_, rfl⟩
    rw [State.setRet_res hr, ← hv]
    rfl
  · exact ⟨_, resultReturn_load hr hret hf hv hd, State.setRet_res hr r _⟩
  · obtain ⟨u, hgo, hrind, hmem, hres⟩ := groupCommit_diverges hr hret hf hv hfm hp hn hs hdv
    refine ⟨u, hgo, hrind, hmem, ?_⟩
    rw [hres, ← hv]
    rfl

end Sys2Proof.Machine
end

section
/-! SUPPORT. What a format holds, its rounding keeps (R65, R67, R70). -/

namespace Sys2Proof.Machine

open Sys2Proof.Spec

/-- A mantissa at the exponent of its rounding is exact (R67). -/
@[simp] theorem roundAt_self (rm : RM) (neg : Bool) (m : Nat) (e : Int) : roundAt rm neg m e e false = (m, false) := by
  simp [roundAt]

section
variable (f : Fmt) (rm : RM) (neg : Bool)

/-- A subnormal value stands at the least exponent of the format and stays there. -/
theorem Fmt.round_subnormal {m : Nat} (h0 : m ≠ 0) (hm : m < 2 ^ f.fb) :
    f.round rm (.fin neg m (f.emin - f.fb) false) = (f.signBit neg + m, 0) := by
  have hlog : m.log2 < f.fb := (Nat.log2_lt h0).mpr hm
  have hq : max ((m.log2 : Int) + (f.emin - f.fb) - f.fb) (f.emin - f.fb) = f.emin - f.fb := by omega
  have htop : m ≠ 2 ^ (f.fb + 1) := by omega
  simp [Fmt.round, h0, hq, htop, hm]

/-- A normal value has its leading bit at the place `fb` and stays at its exponent. -/
theorem Fmt.round_normal {fr ex : Nat} (hfr : fr < 2 ^ f.fb) (h0 : ex ≠ 0) (hex : ex < f.emax) :
    f.round rm (.fin neg (fr + 2 ^ f.fb) ((ex : Int) - f.bias - f.fb) false) = (f.signBit neg + ex * 2 ^ f.fb + fr, 0) := by
  have hlog : (fr + 2 ^ f.fb).log2 = f.fb := (Nat.log2_eq_iff (by omega)).mpr ⟨by omega, by omega⟩
  have hq : max ((ex : Int) - f.bias - f.fb) (f.emin - f.fb) = (ex : Int) - f.bias - f.fb := by
    unfold Fmt.emin; omega
  have htop : fr + 2 ^ f.fb ≠ 2 ^ (f.fb + 1) := by omega
  simp [Fmt.round, hlog, hq, htop, Nat.not_le.mpr hex]

/-- The sign bit in place, from the top of a word. -/
theorem Fmt.signBit_of_lt {q : Nat} (hq : q < 2) : f.signBit (decide (q % 2 = 1)) = q * 2 ^ (f.eb + f.fb) := by
  interval_cases q <;> simp [Fmt.signBit]

/-- A word of a format is its sign, its exponent and its fraction in place. -/
theorem Fmt.word_of_fields {w : Nat} (hw : w < 2 ^ f.width) :
    f.signBit (decide (w / 2 ^ (f.eb + f.fb) % 2 = 1)) + w / 2 ^ f.fb % 2 ^ f.eb * 2 ^ f.fb + w % 2 ^ f.fb = w := by
  have hhi := Nat.div_add_mod w (2 ^ f.fb)
  have hlo := Nat.div_add_mod (w / 2 ^ f.fb) (2 ^ f.eb)
  rw [Nat.div_div_eq_div_mul, ← pow_add, add_comm f.fb] at hlo
  have htop : w / 2 ^ (f.eb + f.fb) < 2 := by
    rw [Nat.div_lt_iff_lt_mul (by positivity), ← pow_succ']
    rwa [Fmt.width, add_assoc, add_comm] at hw
  calc f.signBit (decide (w / 2 ^ (f.eb + f.fb) % 2 = 1)) + w / 2 ^ f.fb % 2 ^ f.eb * 2 ^ f.fb + w % 2 ^ f.fb
      = 2 ^ f.fb * (2 ^ f.eb * (w / 2 ^ (f.eb + f.fb)) + w / 2 ^ f.fb % 2 ^ f.eb) + w % 2 ^ f.fb := by
        rw [f.signBit_of_lt htop, pow_add]; ring
    _ = w := by rw [hlo, hhi]

end

/-- What a word of a format stands for rounds to that word, and a NaN to the canonical one. -/
theorem Fmt.round_decode (f : Fmt) (rm : RM) {w : Nat} (hw : w < 2 ^ f.width) :
    f.round rm (f.decode w) = if (f.decode w).isNaN then (f.qnan, 0) else (w, 0) := by
  have hfr : w % 2 ^ f.fb < 2 ^ f.fb := Nat.mod_lt _ (by positivity)
  have hex : w / 2 ^ f.fb % 2 ^ f.eb < 2 ^ f.eb := Nat.mod_lt _ (by positivity)
  have hword := f.word_of_fields hw
  unfold Fmt.decode
  generalize decide (w / 2 ^ (f.eb + f.fb) % 2 = 1) = neg, w / 2 ^ f.fb % 2 ^ f.eb = ex, w % 2 ^ f.fb = fr at *
  dsimp only
  split
  · next hmax =>
    split
    · next h0 => simp [Fmt.round, Num.isNaN, Fmt.infinity, ← hword, hmax, h0]
    · simp [Fmt.round, Num.isNaN]
  · next hmax =>
    split
    · next h0 =>
      by_cases hz : fr = 0
      · simp [Fmt.round, Num.isNaN, ← hword, h0, hz]
      · simp [f.round_subnormal rm neg hz hfr, Num.isNaN, ← hword, h0]
    · next h0 =>
      have hlt : ex < f.emax := by unfold Fmt.emax at *; omega
      simp [f.round_normal rm neg hfr h0 hlt, Num.isNaN, ← hword]

/-- Settles O31, for the four formats as for any other. -/
theorem roundingKeepsRepresentable : Obligations.RoundingKeepsRepresentable := by
  unfold Obligations.RoundingKeepsRepresentable
  intro f rm w _ hw
  exact f.round_decode rm hw

end Sys2Proof.Machine
end

section
/-! SUPPORT. Typed accesses at issue: the format they resolve, their element, its block's scale byte, and what each of their
checks answers (R63, R79, R146, R147, R310). -/

namespace Sys2Proof.Machine

open Sys2Proof.Spec

/-- Opening the group of the issuing thread leaves the decode table. -/
theorem State.opened_dtab (s : State) : (s.opened.core s.curCore).dtab = (s.core s.curCore).dtab :=
  (congrArg (fun k : Core => k.dtab) s.opened_core :)

/-- The low bits of a field. -/
theorem bits_low (n w : Nat) : bits n 0 w = n % 2 ^ w := by simp [bits]

/-- A body ends where a part of it traps. -/
theorem trap_bind {α β : Type} {x : Try α} {cause sub : Nat} {info : Word} (h : x = trap cause sub info) (f : α → Try β) :
    (x >>= f) = trap cause sub info := by rw [h]; rfl

/-- A body ends at a check that fails. -/
theorem unless_traps {α : Type} {c : Prop} [Decidable c] {cause sub : Nat} {info : Word} (h : c) (f : PUnit → Try α) :
    (if c then (trap cause sub info >>= f) else f ⟨⟩) = trap cause sub info := if_pos h

/-! ### The format of a typed access (R63) -/

section
variable {p : Word} {m f : Nat}

/-- A pointer and a modifier that name different formats. -/
theorem resolveFmt_of_ne (hp : fpFmt p ≠ 0) (hm : m ≠ 0) (h : fpFmt p ≠ m) : resolveFmt p m = trap 0x15 1 p :=
  if_pos ⟨hp, hm, h⟩

/-- Neither names a format. -/
theorem resolveFmt_of_zero (hp : fpFmt p = 0) (hm : m = 0) : resolveFmt p m = trap 0x15 2 p := by simp [resolveFmt, hp, hm]

/-- The format that the pointer, the modifier, or both name. -/
theorem resolveFmt_of_named (hf : f = fpFmt p ∨ f = m) (h0 : f ≠ 0) (h : fpFmt p = 0 ∨ m = 0 ∨ fpFmt p = m) :
    resolveFmt p m = if fmtReserved f then trap 0x15 0 p
      else if fpBlg p ≠ 0 ∧ f ≠ 1 ∧ f ≠ 2 ∧ f ≠ 16 then trap 0x15 3 p else .ok f := by
  have hone : (if fpFmt p = 0 then m else fpFmt p) = f := by split <;> omega
  have hsame : ¬ (fpFmt p ≠ 0 ∧ m ≠ 0 ∧ fpFmt p ≠ m) := by omega
  simp only [resolveFmt, hone, hsame, h0, if_false]

/-- Only U8, I8 and T8 elements are block-scaled. -/
theorem scalable_of_resolveFmt (h : resolveFmt p m = .ok f) (hs : fpBlg p ≠ 0) : f = 1 ∨ f = 2 ∨ f = 16 := by
  unfold resolveFmt at h
  dsimp only at h
  generalize (if fpFmt p = 0 then m else fpFmt p) = r at h
  split_ifs at h <;> cases h
  omega

end

/-! ### The element of a typed access -/

/-- The element at `p` passes the check of a store, or that of a load (R146). -/
def ElemPasses (wr : Bool) (s : State) (p : Word) (n : Nat) (k : Ok) : Prop :=
  if wr then PassesW s p n n rWrite k else Passes s p n n rRead k

/-- The scale byte and the element of a block lie in different regions of handle 0 (R310). -/
def BlockApart (p : Word) : Prop := fpHnd p = 0 ∧ region (fpOff p - blockPos p (fpOff p)) ≠ region (fpOff p)

section
variable {s : State} {op : Nat} {fm : Form} {o : Opnd} {a b c : Word} {f : Nat} {k q : Ok} {wr : Bool}

theorem present_of_elemPasses {n : Nat} (h : ElemPasses wr s a n k) : k.np = none := by
  cases wr
  · exact present_of_passes h
  · exact present_of_passesW h

theorem elem_bind {α : Type} {n : Nat} (h : ElemPasses wr s a n k) (g : Ok → Try α) :
    (if wr = true then (s.iss op fm o a b c).checkW a n n rWrite >>= g else (s.iss op fm o a b c).check a n n rRead >>= g) = g k := by
  cases wr
  · exact check_bind h g
  · exact checkW_bind h g

/-- The access ends where its format does (R63). -/
theorem typed_of_fmt {sub : Nat} (h : resolveFmt a (o.m % 64) = trap 0x15 sub a) :
    (s.iss op fm o a b c).typed wr = trap 0x15 sub a :=
  trap_bind (by rw [bits_low]; exact h) _

/-- The modifier's format as the body reads it. -/
theorem field_fmt (hf : resolveFmt a (o.m % 64) = .ok f) : resolveFmt a (bits o.m 0 6) = .ok f := by rw [bits_low]; exact hf

/-- Only a TERN5 element has a digit (R146). -/
theorem no_digit (hd : f = 14 ∨ o.m / 128 % 8 = 0) : ¬ (f ≠ 14 ∧ bits o.m 7 3 ≠ 0) := fun h => h.2 (hd.resolve_left h.1)

variable (hf : resolveFmt a (o.m % 64) = .ok f) (hd : f = 14 ∨ o.m / 128 % 8 = 0)
include hf hd

/-- An element that has no scale byte (R146). -/
theorem typed_of_unscaled (hs : fpBlg a = 0) (hk : ElemPasses wr s a (fmtSize f) k) :
    (s.iss op fm o a b c).typed wr = .ok (f, k, none) :=
  (try_bind (field_fmt hf) _).trans <| (if_neg (no_digit hd)).trans <| (if_neg fun h => h.1 hs).trans <|
    (elem_bind hk _).trans <| if_pos hs

/-- A block in two regions (R310). -/
theorem typed_of_apart (hs : fpBlg a ≠ 0) (h : BlockApart a) : (s.iss op fm o a b c).typed wr = trap 0x23 1 a :=
  (try_bind (field_fmt hf) _).trans <| (if_neg (no_digit hd)).trans <| unless_traps ⟨hs, h⟩ _

/-- An access that names the scale byte itself (R79). -/
theorem typed_of_scaleByte (hs : fpBlg a ≠ 0) (hj : blockPos a (fpOff a) = 0) (hk : ElemPasses wr s a (fmtSize f) k) :
    (s.iss op fm o a b c).typed wr = trap 0x16 0 a := by
  refine (try_bind (field_fmt hf) _).trans <| (if_neg (no_digit hd)).trans <| (if_neg ?_).trans <|
    (elem_bind hk _).trans <| (if_neg hs).trans <| unless_traps hj _
  exact fun h => h.2.2 (by show region (fpOff a - blockPos a (fpOff a)) = region (fpOff a); rw [hj, Nat.sub_zero])

/-- An element with its block's scale byte (R79). -/
theorem typed_of_scaled (hs : fpBlg a ≠ 0) (hj : blockPos a (fpOff a) ≠ 0) (hb : ¬ BlockApart a)
    (hk : ElemPasses wr s a (fmtSize f) k)
    (hq : Passes s (fpWith a (fpOff a - blockPos a (fpOff a))) 1 1 (if wr then rWrite else rRead) q) :
    (s.iss op fm o a b c).typed wr = .ok (f, k, some q.loc) := by
  refine (try_bind (field_fmt hf) _).trans <| (if_neg (no_digit hd)).trans <| (if_neg fun h => hb h.2).trans <|
    (elem_bind hk _).trans <| (if_neg hs).trans <| (if_neg hj).trans <| (check_bind hq _).trans ?_
  have hnp : (if k.np.isSome = true then k.np else q.np) = k.np := by
    rw [present_of_elemPasses hk, present_of_passes hq]; rfl
  rw [hnp]; rfl

end

/-! ### The bodies of LDT and STT -/

/-- What a typed access owes its base: the base on the next element where the modifier asks for a post-increment, else
nothing (R24, R146). -/
def TypedInc (o : Opnd) (a : Word) (n : Nat) (due : List LRes) : Prop :=
  if mbit o 6 then ∃ q, fpMove a (nextElem a n) = some q ∧ due = valRes o.a q else due = []

/-- The decode table that a typed access uses: a T8 element's (R77). -/
def typedTab (s : State) (f : Nat) : SMap (BitVec 19) := if f = 16 then (s.core s.curCore).dtab else []

section
variable {s : State} {op : Nat} {fm : Form} {o : Opnd} {a b c v : Word} {f n : Nat} {k : Ok} {due : List LRes}
  {sc : Option Nat}

theorem typedInc_bind {α : Type} (h : TypedInc o a n due) (g : List LRes → Try α) :
    (if bit o.m 6 = true then (s.iss op fm o a b c).bump a (nextElem a n) >>= g else pure [] >>= g) = g due := by
  rw [TypedInc, mbit_eq_bit] at h
  split
  · next hb =>
    rw [if_pos hb] at h
    obtain ⟨q, hq, rfl⟩ := h
    simp only [Iss.bump, hq]; rfl
  · next hb =>
    rw [if_neg hb] at h
    rw [h]; rfl

theorem opLdt_traps {cause sub : Nat} (h : (s.iss op fm o a b c).typed false = trap cause sub a) :
    opLdt (s.iss op fm o a b c) = trap cause sub a := trap_bind h _

theorem opStt_traps (hv : Holds s o.d v) {cause sub : Nat} (h : (s.iss op fm o a b c).typed true = trap cause sub a) :
    opStt (s.iss op fm o a b c) = trap cause sub a := (readG_bind hv _).trans (trap_bind h _)

/-- LDT (R146, R147). -/
theorem opLdt_body (ht : (s.iss op fm o a b c).typed false = .ok (f, k, sc)) (hi : TypedInc o a (fmtSize f) due) :
    opLdt (s.iss op fm o a b c) = .ok (Iss.loads a k (o.d == 0)
      [{ pos := 0, dest := gDest o.d
         val := .load (.fmt f sc.isSome (o.m / 128 % 8) ((s.core s.curCore).frm.toNat % 4) (typedTab s f)) none k.side
         parts := { loc := k.loc, size := fmtSize f } :: sc.toList.map fun l => { loc := l, size := 1 } }] { res := due }) := by
  refine (try_bind ht _).trans <| (typedInc_bind hi _).trans ?_
  rw [typedTab, ← State.opened_frm, ← State.opened_dtab]
  cases sc <;> rfl

/-- STT ends at a value that is no trit (R84, R147). -/
theorem opStt_of_noTrit (hv : Holds s o.d v) (ht : (s.iss op fm o a b c).typed true = .ok (f, k, sc))
    (h : f = 14 ∧ (v.toInt < -1 ∨ v.toInt > 1)) : opStt (s.iss op fm o a b c) = trap 0x32 1 a :=
  (readG_bind hv _).trans <| (try_bind ht _).trans <| unless_traps h _

/-- The element that STT writes where there is no scale byte, with its flags (R84, R146). -/
def storedElem (s : State) (o : Opnd) (f : Nat) (v : Word) : Nat × Nat :=
  if f = 14 then (ternByte (o.m / 128 % 8) v.toInt, 0)
  else ofReg (typedTab s f) f (RM.of ((s.core s.curCore).frm.toNat % 4)) v.toNat

/-- STT of an element without a scale byte (R146, R147). -/
theorem opStt_unscaled_body (hv : Holds s o.d v) (ht : (s.iss op fm o a b c).typed true = .ok (f, k, none))
    (hok : ¬ (f = 14 ∧ (v.toInt < -1 ∨ v.toInt > 1))) (hi : TypedInc o a (fmtSize f) due) :
    opStt (s.iss op fm o a b c) = .ok (Iss.stores a k
      { op := 0x46, locs := locs k.loc (fmtSize f), data := leBytes (fmtSize f) (storedElem s o f v).1 }
      { res := due, rd := [o.d], fx := (storedElem s o f v).2
        lost := k.np.isNone && subnormalElem f false (storedElem s o f v).1 v.toNat }) := by
  refine (readG_bind hv _).trans <| (try_bind ht _).trans <| (if_neg hok).trans <| (typedInc_bind hi _).trans ?_
  rw [storedElem, typedTab, ← State.opened_frm, ← State.opened_dtab]
  rfl

/-- STT of an element with a scale byte, which it reads before it knows its own (R80, R147). -/
theorem opStt_scaled_body {l : Nat} (hv : Holds s o.d v) (ht : (s.iss op fm o a b c).typed true = .ok (f, k, some l))
    (hok : ¬ (f = 14 ∧ (v.toInt < -1 ∨ v.toInt > 1))) (hi : TypedInc o a (fmtSize f) due) (hk : k.np = none) :
    opStt (s.iss op fm o a b c) = .ok (Iss.stores a k { op := 0x46, locs := locs k.loc 1 }
      { res := due ++ [dueLoad .none (.stt f ((s.core s.curCore).frm.toNat % 4) (typedTab s f) v) none { k with side := false } a
          [{ loc := l, size := 1 }]]
        rd := [o.d] }) := by
  refine (readG_bind hv _).trans <| (try_bind ht _).trans <| (if_neg hok).trans <| (typedInc_bind hi _).trans ?_
  rw [typedTab, ← State.opened_frm, ← State.opened_dtab]
  simp only [hk, Option.isSome_none, Bool.false_eq_true, if_false]
  rfl

end

/-! ### From the bodies to what the instructions leave -/

section
variable {i : Instr} {s : State} {op : Nat} {fm : Form} {o : Opnd} {a b c v : Word} {f n : Nat} {k : Ok}

/-- What holds with every post-increment holds without one and with the one that is asked for. -/
theorem TypedInc.split {r : Out} (h : ∀ due, TypedInc o a n due → Issues i s op fm o { r with res := due ++ r.res }) :
    (mbit o 6 = false → Issues i s op fm o r)
    ∧ (mbit o 6 = true → ∀ q, fpMove a (nextElem a n) = some q → Issues i s op fm o { r with res := valRes o.a q ++ r.res }) :=
  ⟨fun hb => h [] (by simp only [TypedInc, hb, Bool.false_eq_true, if_false]),
    fun hb q hq => h _ (by rw [TypedInc, if_pos hb]; exact ⟨q, hq, rfl⟩)⟩

/-- LDT whose access passes: its element, and its block's scale byte, are due (R146, R147). -/
theorem issues_ldt (hv : i.view = some (0x45, fm, o)) (hr : s.Ready 0x45 fm o a b c) (hk : k.np = none) {sc : Option Nat}
    (ht : (s.iss 0x45 fm o a b c).typed false = .ok (f, k, sc)) {due : List LRes} (hi : TypedInc o a (fmtSize f) due) :
    Issues i s 0x45 fm o { res := due ++
      [dueLoad (gDest o.d) (.fmt f sc.isSome (o.m / 128 % 8) ((s.core s.curCore).frm.toNat % 4) (typedTab s f)) none k a
        ({ loc := k.loc, size := fmtSize f } :: sc.toList.map fun l => { loc := l, size := 1 })] } :=
  issues_loads hv hr rfl hk (opLdt_body ht hi)

/-- STT of an element without a scale byte defers its bytes and sets the flags of its conversion (R146, R147). -/
theorem issues_stt_unscaled (hv : i.view = some (0x46, fm, o)) (hr : s.Ready 0x46 fm o a b c) (hk : k.np = none)
    (hw : Holds s o.d v) (ht : (s.iss 0x46 fm o a b c).typed true = .ok (f, k, none))
    (hok : ¬ (f = 14 ∧ (v.toInt < -1 ∨ v.toInt > 1))) {due : List LRes} (hi : TypedInc o a (fmtSize f) due) :
    Issues i s 0x46 fm o { defers (dueStore 0x46 k a (leBytes (fmtSize f) (storedElem s o f v).1)) with
      res := due ++ [], fx := (storedElem s o f v).2 } := by
  have hb := opStt_unscaled_body hw ht hok hi
  rw [Iss.stores, hk] at hb
  refine exec_does hv hr hb rfl rfl (Out.keepsReads_of_writes rfl _) rfl
    ⟨rfl, rfl, (List.append_nil _).symm, ?_, rfl, rfl, rfl, rfl, rfl, rfl, rfl⟩
  simp only [List.nil_append, length_locs, defers, dueStore, length_leBytes]
  rfl

/-- STT of an element with a scale byte defers its store without bytes, and the read that will give them is due (R80, R147). -/
theorem issues_stt_scaled (hv : i.view = some (0x46, fm, o)) (hr : s.Ready 0x46 fm o a b c) (hk : k.np = none)
    (hw : Holds s o.d v) {l : Nat} (ht : (s.iss 0x46 fm o a b c).typed true = .ok (f, k, some l))
    (hok : ¬ (f = 14 ∧ (v.toInt < -1 ∨ v.toInt > 1))) {due : List LRes} (hi : TypedInc o a (fmtSize f) due) :
    Issues i s 0x46 fm o { defers { dueStore 0x46 k a [0#8] with data := [] } with
      res := due ++ [dueLoad .none (.stt f ((s.core s.curCore).frm.toNat % 4) (typedTab s f) v) none { k with side := false } a
          [{ loc := l, size := 1 }]] } := by
  have hb := opStt_scaled_body hw ht hok hi hk
  rw [Iss.stores, hk] at hb
  exact exec_does hv hr hb rfl rfl (Out.keepsReads_of_writes rfl _) rfl ⟨rfl, rfl, rfl, rfl, rfl, rfl, rfl, rfl, rfl, rfl, rfl⟩

end

/-! ### The statements -/

/-- The step to the next element, as the statement writes it (R146). -/
theorem nextElem_eq (a : Word) (n : Nat) :
    nextElem a n = if fpBlg a ≠ 0 then (if blockPos a (fpOff a) = blockLen a then 2 else 1) else n := by
  unfold nextElem
  split <;> simp_all

/-- Settles O20: the checks of a typed access in their order, and the two bodies behind them. -/
theorem typedAccessesIssue : Obligations.TypedAccessesIssue := by
  unfold Obligations.TypedAccessesIssue
  intro i s op fm o a b c v f k q hv hr hf hd n rm tab len at_ scaled step bump el sc apart
  have hstep : step = nextElem a n := by rw [nextElem_eq]; rfl
  have hbump {r : Out} (h : ∀ due, TypedInc o a n due → Issues i s op fm o { r with res := due ++ r.res }) : bump r := by
    obtain ⟨h0, h1⟩ := TypedInc.split h
    exact ⟨h0, hstep ▸ h1⟩
  constructor
  · rintro rfl hk
    have hel : ElemPasses false s a n k := hk
    have hnp := present_of_passes hk
    refine ⟨fun hs hj => ?_, fun hs => ?_, fun hs _ hap => ?_, fun hs hj hap hq => ?_⟩
    · exact exec_traps hv hr (opLdt_traps (typed_of_scaleByte hf hd hs hj hel))
    · exact hbump fun due hi => issues_ldt hv hr hnp (typed_of_unscaled hf hd (not_not.mp hs) hel) hi
    · exact exec_traps hv hr (opLdt_traps (typed_of_apart hf hd hs hap))
    · exact hbump fun due hi => issues_ldt hv hr hnp (typed_of_scaled hf hd hs hj hap hel hq) hi
  · rintro rfl hw hk
    have hel : ElemPasses true s a n k := hk
    have hnp := present_of_passesW hk
    have unscaled (h : f = 14) : fpBlg a = 0 := by
      by_contra hs
      have := scalable_of_resolveFmt hf hs
      omega
    refine ⟨fun hs hj => ?_, fun h14 hbad => ?_, fun h14 hlo hhi => ?_, fun h14 hs => ?_, fun _ hs _ hap => ?_,
      fun h14 hs hj hap hq => ?_⟩
    · exact exec_traps hv hr (opStt_traps hw (typed_of_scaleByte hf hd hs hj hel))
    · exact exec_traps hv hr (opStt_of_noTrit hw (typed_of_unscaled hf hd (unscaled h14) hel) ⟨h14, hbad⟩)
    · have hstored : storedElem s o f v = (ternByte (o.m / 128 % 8) v.toInt, 0) := if_pos h14
      refine hbump fun due hi => ?_
      have h := issues_stt_unscaled hv hr hnp hw (typed_of_unscaled hf hd (unscaled h14) hel) (by omega) hi
      rwa [hstored] at h
    · have hstored : storedElem s o f v = ofReg tab f (RM.of rm) v.toNat := if_neg h14
      rw [← hstored]
      exact hbump fun due hi =>
        issues_stt_unscaled hv hr hnp hw (typed_of_unscaled hf hd (not_not.mp hs) hel) (fun e => h14 e.1) hi
    · exact exec_traps hv hr (opStt_traps hw (typed_of_apart hf hd hs hap))
    · exact hbump fun due hi => issues_stt_scaled hv hr hnp hw (typed_of_scaled hf hd hs hj hap hel hq) (fun e => h14 e.1) hi

/-- A typed access that traps over its format. -/
theorem typed_trapped {i : Instr} {s : State} {op : Nat} {fm : Form} {o : Opnd} {a b c : Word} (hv : i.view = some (op, fm, o))
    (hr : s.Ready op fm o a b c) (hop : op = 0x45 ∨ (op = 0x46 ∧ ∃ v, Holds s o.d v)) {sub : Nat}
    (h : resolveFmt a (o.m % 64) = trap 0x15 sub a) : Trapped i s 0x15 sub a := by
  obtain rfl | ⟨rfl, v, hw⟩ := hop
  · exact exec_traps hv hr (opLdt_traps (typed_of_fmt h))
  · exact exec_traps hv hr (opStt_traps hw (typed_of_fmt h))

/-- Settles O21: each of these is a case of the format's resolution, before any other check of the access. -/
theorem typedFormatsTrap : Obligations.TypedFormatsTrap := by
  unfold Obligations.TypedFormatsTrap
  intro i s op fm o a b c hv hr hop pf mf
  refine ⟨fun hp hm h => ?_, fun hp hm => ?_, fun f hf h0 h => ⟨fun hres => ?_, fun hres hs h1 h2 h16 => ?_⟩⟩
  · exact typed_trapped hv hr hop (resolveFmt_of_ne hp hm h)
  · exact typed_trapped hv hr hop (resolveFmt_of_zero hp hm)
  · exact typed_trapped hv hr hop ((resolveFmt_of_named hf h0 h).trans (if_pos hres))
  · exact typed_trapped hv hr hop ((resolveFmt_of_named hf h0 h).trans <|
      (if_neg (hres ▸ Bool.false_ne_true)).trans (if_pos ⟨hs, h1, h2, h16⟩))

end Sys2Proof.Machine
end

section
/-! SUPPORT. Row 8 at issue: the one shape of its arithmetic, what an assist leaves, and the moves and tables (R71 to R78, R177 to
R185). -/

namespace Sys2Proof.Machine

open Sys2Proof.Spec

/-- Opening the group of the issuing thread leaves the assist mode. -/
theorem State.opened_am (s : State) : (s.opened.core s.curCore).am = (s.core s.curCore).am :=
  (congrArg (fun k : Core => k.am) s.opened_core :)

/-- Opening the group of the issuing thread leaves the enabled conditions. -/
theorem State.opened_vxe (s : State) : (s.opened.core s.curCore).vxe = (s.core s.curCore).vxe :=
  (congrArg (fun k : Core => k.vxe) s.opened_core :)

/-! ### The operands of row 8 -/

/-- The format that bit 0 of the modifier names (R178). -/
theorem fOf_eq (o : Opnd) : fOf o.m = fmtOf8 o := by rw [fOf, fmtOf8, mbit_eq_bit]

section
variable {s : State} {op : Nat} {fm : Form} {o : Opnd} {a b c : Word} {f : Fmt} {sub0 : Bool} {r : Nat × Nat}

/-- The rounding mode in force (R66). -/
theorem Iss.rm_eq (s : State) (op : Nat) (fm : Form) (o : Opnd) (a b c : Word) :
    (s.iss op fm o a b c).rm = RM.of (s.core s.curCore).frm.toNat := by
  rw [← State.opened_frm]; rfl

/-! ### A result, an assist's answer, an assist (R71 to R73) -/

/-- A result that is no subnormal, or whose subnormal the hardware completes, is due (R71). -/
theorem fres_of_delivered (h : ((s.core s.curCore).am && f.subnormal r.1) = false) :
    (s.iss op fm o a b c).fres f sub0 r =
      .ok { res := valRes o.d (BitVec.ofNat 64 r.1), fx := r.2, lost := f.subnormal r.1 || sub0 } := by
  rw [← State.opened_am] at h
  exact if_neg (h ▸ Bool.false_ne_true)

variable (ham : (s.core s.curCore).am = true) (hsub : f.subnormal r.1 = true)
include ham hsub

/-- In assist mode the handler's answer for this place of the group is the result (R72). -/
theorem fres_of_answered {n : Nat} {v : Word} (h : s.me.answers.find? (fun w => w.1 == s.me.grp.n) = some (n, v)) :
    (s.iss op fm o a b c).fres f sub0 r = .ok { res := valRes o.d v, fx := r.2 } := by
  rw [← State.opened_am] at ham
  refine (if_pos (by rw [hsub, Bool.and_true]; exact ham)).trans ?_
  simp only [State.iss, h]

/-- In assist mode a subnormal result that has no answer is the handler's (R72, R73). -/
theorem fres_of_unanswered (h : s.me.answers.find? (fun w => w.1 == s.me.grp.n) = none) :
    (s.iss op fm o a b c).fres f sub0 r = .error (.assist ((s.iss op fm o a b c).assistRec f)) := by
  rw [← State.opened_am] at ham
  refine (if_pos (by rw [hsub, Bool.and_true]; exact ham)).trans ?_
  simp only [State.iss, h]

end

/-! ### One shape of the instructions that deliver a number -/

/-- An answer whose results are marked as an adder's or a multiplier's where the opcode is one's (R90). -/
def Out.marked (op : Nat) (o : Opnd) (r : Out) : Out := { r with res := Spec.ringed op o r.res }

/-- FADD, FSUB, FMUL and FFMA mark their results. -/
theorem Out.marked_of_le {op : Nat} (h : op ≤ 0x83) (o : Opnd) : Out.marked op o = Out.ringed (fOf o.m) := by
  funext r
  rw [fOf_eq]
  cases hb : mbit o 0 <;> simp [Out.marked, Out.ringed, Spec.ringed, h, fmtOf8, hb, fmtF32, fmtF64]

/-- No later opcode marks any. -/
theorem Out.marked_of_gt {op : Nat} (h : 0x83 < op) (o : Opnd) (m : Try Out) : m.map (Out.marked op o) = m := by
  have hid : Out.marked op o = id := by
    funext r
    simp [Out.marked, Spec.ringed, Nat.not_le.mpr h]
  rw [hid]
  cases m <;> rfl

section
variable {s : State} {op : Nat} {fm : Form} {o : Opnd} {a b c : Word}

/-- The instruction delivers a number in the format of its modifier, whatever turns its subnormal operands cost (R71). -/
def Delivers (i : Iss) (n : Nat × Nat) (m : Try Out) : Prop := ∃ sub0, m = i.fres (fOf i.o.m) sub0 n

/-- The mode in which an operation of row 8 rounds: FMIN and FMAX round nothing (R180). -/
def Iss.mode (i : Iss) : RM := if i.op = 0x86 ∨ i.op = 0x87 then RM.rne else i.rm

/-- The number that the arithmetic of row 8 forms (R180). -/
def Iss.arith (i : Iss) : Nat × Nat :=
  (fOf i.o.m).op2 i.mode (exactOf i.op i.mode (fval (fOf i.o.m) i.va) (fval (fOf i.o.m) i.vb) (fval (fOf i.o.m) i.vc))

/-- The spec's number of FADD to FMAX is the model's arithmetic. -/
theorem floatOf_arith (h : 0x80 ≤ op ∧ op ≤ 0x87) : floatOf s op o a b c = (s.iss op fm o a b c).arith := by
  have hcls : op ≠ 0x8A := by omega
  have hdec : op ≠ 0x8D := by omega
  simp only [floatOf, hcls, hdec, if_false, ← Iss.rm_eq s op fm o a b c, ← fOf_eq]
  rfl

theorem delivers_arith (h : 0x80 ≤ op ∧ op ≤ 0x87) {m : Try Out} {sub0 : Bool}
    (hm : m = (s.iss op fm o a b c).fres (fOf o.m) sub0 (s.iss op fm o a b c).arith) :
    Delivers (s.iss op fm o a b c) (floatOf s op o a b c) m := ⟨sub0, by rw [hm, floatOf_arith h]; rfl⟩

/-- The sign bit of an operand (R183). -/
theorem bit_of_operand (w : Word) {n : Nat} (h : 0 < n) : bit (w.toNat % 2 ^ n) (n - 1) = w.getLsbD (n - 1) := by
  rw [bit, ← Nat.testBit_eq_decide_div_mod_eq, Nat.testBit_mod_two_pow, decide_eq_true (Nat.sub_lt h Nat.one_pos), Bool.true_and]
  rfl

theorem fmtOf8_width_pos (o : Opnd) : 0 < (fmtOf8 o).width := by rw [Fmt.width]; omega

/-- FCLS delivers its operand under the sign it names (R183). -/
theorem opFcls_delivers : Delivers (s.iss 0x8A fm o a b c) (floatOf s 0x8A o a b c) (opFcls (s.iss 0x8A fm o a b c)) := by
  refine ⟨_, congrArg (Iss.fres _ _ _) ?_⟩
  have hdvd : 2 ^ ((fmtOf8 o).width - 1) ∣ 2 ^ (fmtOf8 o).width := pow_dvd_pow 2 (Nat.sub_le ..)
  have hsb : bit b.toNat ((fmtOf8 o).width - 1) = b.getLsbD ((fmtOf8 o).width - 1) := by
    rw [bit, ← Nat.testBit_eq_decide_div_mod_eq]; rfl
  show (a.toNat % 2 ^ (fOf o.m).width % 2 ^ ((fOf o.m).width - 1) + _, 0) = _
  simp only [State.iss, fOf_eq, Nat.mod_mod_of_dvd _ hdvd, bit_of_operand a (fmtOf8_width_pos o), hsb]
  rfl

/-- DEC8 delivers its code's element, an F32 word or the same value in F64 (R185). -/
theorem opDec8_delivers : Delivers (s.iss 0x8D fm o a b c) (floatOf s 0x8D o a b c) (opDec8 (s.iss 0x8D fm o a b c)) := by
  refine ⟨_, congrArg (Iss.fres _ _ _) ?_⟩
  simp only [State.iss, State.opened_dtab, ← mbit_eq_bit]
  unfold floatOf
  dsimp only
  generalize t8Word (s.core s.curCore).dtab (a.toNat % 256) = w
  cases mbit o 0
  · simp
  · cases fmtF32.decode w <;> simp [Num.isNaN]

/-- FADD to FMAX, FCLS and DEC8 deliver the number of the spec, an adder's and a multiplier's marked (R180, R183, R185). -/
theorem float_body (hop : (0x80 ≤ op ∧ op ≤ 0x87) ∨ op = 0x8A ∨ op = 0x8D) (s : State) (fm : Form) (o : Opnd) (a b c : Word) :
    ∃ sub0, bodyOf op (s.iss op fm o a b c) =
      ((s.iss op fm o a b c).fres (fmtOf8 o) sub0 (floatOf s op o a b c)).map (Out.marked op o) := by
  suffices h : ∃ m, bodyOf op (s.iss op fm o a b c) = m.map (Out.marked op o)
      ∧ Delivers (s.iss op fm o a b c) (floatOf s op o a b c) m by
    obtain ⟨m, hb, sub0, rfl⟩ := h
    rw [← fOf_eq]
    exact ⟨sub0, hb⟩
  obtain h | rfl | rfl := hop
  · obtain hle | hgt := le_or_gt op 0x83
    · suffices h : ∃ m, bodyOf op (s.iss op fm o a b c) = m.map (Out.ringed (fOf o.m))
          ∧ Delivers (s.iss op fm o a b c) (floatOf s op o a b c) m by rwa [Out.marked_of_le hle]
      obtain ⟨hl, -⟩ := h
      interval_cases op <;> exact ⟨_, rfl, delivers_arith (by decide) rfl⟩
    · refine ⟨_, (Out.marked_of_gt hgt o _).symm, ?_⟩
      obtain ⟨-, hu⟩ := h
      interval_cases op <;> exact delivers_arith (by decide) rfl
  · exact ⟨_, (Out.marked_of_gt (by decide) o _).symm, opFcls_delivers⟩
  · exact ⟨_, (Out.marked_of_gt (by decide) o _).symm, opDec8_delivers⟩

end

/-! ### What such an instruction leaves -/

/-- An instruction of row 8 whose body answers results, effects and flags alone, beside the turns it costs. -/
theorem issues_row8 {i : Instr} {s : State} {op : Nat} {fm : Form} {o : Opnd} {a b c : Word} (hv : i.view = some (op, fm, o))
    (hr : s.Ready op fm o a b c) (hop : 0x80 ≤ op) {res : List LRes} {defs : List Eff} {fx : Nat} {lost : Bool}
    (hb : bodyOf op (s.iss op fm o a b c) = .ok { res := res, defs := defs, fx := fx, lost := lost }) :
    Issues i s op fm o { res := res, defs := defs, fx := fx } :=
  exec_does hv hr hb rfl rfl (Out.keepsReads_of_writes (singleWrites_of_ge (by omega) fm o) _) rfl
    ⟨rfl, rfl, rfl, rfl, rfl, rfl, rfl, rfl, rfl, rfl, rfl⟩

section
variable {i : Instr} {s : State} {op : Nat} {fm : Form} {o : Opnd} {a b c : Word}
  (hv : i.view = some (op, fm, o)) (hr : s.Ready op fm o a b c) (hop : (0x80 ≤ op ∧ op ≤ 0x87) ∨ op = 0x8A ∨ op = 0x8D)
include hv hr hop

/-- The number of the instruction is due where no assist is (R179, R180). -/
theorem issues_float (h : ((s.core s.curCore).am && (fmtOf8 o).subnormal (floatOf s op o a b c).1) = false) :
    Issues i s op fm o
      { res := Spec.ringed op o (valRes o.d (BitVec.ofNat 64 (floatOf s op o a b c).1)), fx := (floatOf s op o a b c).2 } := by
  obtain ⟨sub0, hb⟩ := float_body hop s fm o a b c
  rw [fres_of_delivered h] at hb
  exact issues_row8 hv hr (by omega) hb

variable (ham : (s.core s.curCore).am = true) (hsub : (fmtOf8 o).subnormal (floatOf s op o a b c).1 = true)
include ham hsub

/-- The handler's answer for the place of the instruction is its result (R72). -/
theorem issues_assisted {n : Nat} {v : Word} (h : s.me.answers.find? (fun w => w.1 == s.me.grp.n) = some (n, v)) :
    Issues i s op fm o { res := Spec.ringed op o (valRes o.d v), fx := (floatOf s op o a b c).2 } := by
  obtain ⟨sub0, hb⟩ := float_body hop s fm o a b c
  rw [fres_of_answered ham hsub h] at hb
  exact issues_row8 hv hr (by omega) hb

/-- Without an answer the instruction ends in an assist with its record (R72, R73). -/
theorem exec_assist (h : s.me.answers.find? (fun w => w.1 == s.me.grp.n) = none) :
    exec i s = .next (s.afterBody op fm o (.error (.assist ((s.iss op fm o a b c).assistRec (fmtOf8 o))))) := by
  obtain ⟨sub0, hb⟩ := float_body hop s fm o a b c
  rw [fres_of_unanswered ham hsub h] at hb
  rw [exec_issue hv, issue_answer hr.gate hr.rules hr.duo hr.sources, hb]
  rfl

end

/-! ### The assist's record and its trap (R73) -/

section
variable {s : State} {op : Nat} {fm : Form} {o : Opnd} {a b c : Word} {f : Fmt} {rec : List Byte}

theorem assistRec_length : ((s.iss op fm o a b c).assistRec f).length = 64 := by
  simp [Iss.assistRec, lowBytes]

theorem assistRec_head : ((s.iss op fm o a b c).assistRec f).headD 0#8 = BitVec.ofNat 8 op := rfl

/-- The group of an assisted instruction traps 0x31 with the record's address. -/
theorem afterBody_assist_trap : ((s.afterBody op fm o (.error (.assist rec))).thr s.curCore s.curThr).grp.trap =
    some (s.me.grp.trap.getD { pos := s.me.grp.n, pc := s.me.pc, cause := 0x31, sub := if s.me.assist.isSome = true then 1 else 0
                               info := assistPtr s.curCore s.curThr }) := by
  rw [State.afterBody, State.setThr_thr]
  simp only [and_self, if_true, Thread.groupTrap_trap]
  rfl

/-- The record is written unless an earlier trap of the group or another assist of the thread stands. -/
theorem afterBody_assist_mem : (s.afterBody op fm o (.error (.assist rec))).mem =
    (if s.me.grp.trap.isSome = true ∨ s.me.assist.isSome = true then s
      else s.poke (locObj oidAssist (assistOff s.curCore s.curThr)) rec).mem := by
  show (s.opened.assistRecord s.curCore s.curThr rec).mem = _
  rw [State.assistRecord, State.opened_thr]
  simp only [Bool.or_eq_true]
  split <;> rfl

end

/-- Settles O29: an assist's answer is the result, and without one the group holds the assist's trap. -/
theorem subnormalAssists : Obligations.SubnormalAssists := by
  unfold Obligations.SubnormalAssists
  intro i s op fm o a b c hv hr hop ham r hsub
  refine ⟨fun n v h => issues_assisted hv hr hop ham hsub h, fun h => ?_⟩
  exact ⟨_, _, exec_assist hv hr hop ham hsub h, afterBody_assist_trap, assistRec_length, assistRec_head, afterBody_assist_mem⟩

/-! ### FCMP, FCVT, FTLD and ENC8 -/

/-- A compare's predicate and its flag (R181). -/
theorem fcmp_eq (cond : Nat) (x y : Num) : fcmp cond x y = (fcmpIs cond x y, if fcmpInvalid cond x y = true then flNV else 0) := by
  simp only [fcmp, fcmpIs, fcmpInvalid, Bool.or_eq_true, beq_iff_eq]
  rfl

section
variable {s : State} {op : Nat} {fm : Form} {o : Opnd} {a b c : Word}

/-- FCMP: its predicate is due (R181). -/
theorem opFcmp_body (s : State) (op : Nat) (fm : Form) (o : Opnd) (a b c : Word) : ∃ lost, opFcmp (s.iss op fm o a b c) = .ok
    { res := if o.d % 8 = 0 then [] else
        [{ pos := 0, dest := .p o.d
           val := .val (if fcmpIs (o.m / 2 % 8) (fval (fmtOf8 o) a) (fval (fmtOf8 o) b) then 1 else 0), done := true }]
      fx := if fcmpInvalid (o.m / 2 % 8) (fval (fmtOf8 o) a) (fval (fmtOf8 o) b) then flNV else 0
      lost := lost } := by
  rw [← fOf_eq, opFcmp, fcmp_eq]
  exact ⟨_, rfl⟩

/-- The result of FCVT in its destination's format, with its flags (R182). -/
def converted (s : State) (o : Opnd) (a : Word) : Nat × Nat :=
  fcvt (o.m % 64) (o.m / 64 % 64) (RM.of (s.core s.curCore).frm.toNat) (a.toNat % 2 ^ fmtBits (o.m % 64))

/-- The cases of FCVT: a saturation, a result that may be assisted, and any other. -/
theorem opFcvt_eq (s : State) (op : Nat) (fm : Form) (o : Opnd) (a b c : Word) : ∃ sub, opFcvt (s.iss op fm o a b c) =
    if flHas (converted s o a).2 flSPOV && flHas (s.core s.curCore).vxe.toNat flSPOV then trap 0x33 0 0
    else if fmtIsFloat (o.m / 64 % 64) then
      if (s.core s.curCore).am && decide (11 ≤ o.m / 64 % 64) then
        (s.iss op fm o a b c).fres (fmtOf (o.m / 64 % 64)) sub (converted s o a)
      else .ok { res := valRes o.d (BitVec.ofNat 64 (fcvtWrite (o.m / 64 % 64) (converted s o a).1)), fx := (converted s o a).2
                 lost := sub || (fmtOf (o.m / 64 % 64)).subnormal (converted s o a).1 }
    else .ok { res := valRes o.d (BitVec.ofNat 64 (fcvtWrite (o.m / 64 % 64) (converted s o a).1)), fx := (converted s o a).2
               lost := sub } := by
  have hconv : fcvt (bits o.m 0 6) (bits o.m 6 6) (s.iss op fm o a b c).rm (a.toNat % 2 ^ fmtBits (bits o.m 0 6))
      = converted s o a := by
    rw [bits_low, Iss.rm_eq]; rfl
  rw [← hconv, ← State.opened_vxe, ← State.opened_am]
  exact ⟨_, rfl⟩

/-- FCVT whose SP32 saturation is enabled (R69, R182). -/
theorem opFcvt_of_saturated (hfl : flHas (converted s o a).2 flSPOV = true)
    (hvxe : flHas (s.core s.curCore).vxe.toNat flSPOV = true) : opFcvt (s.iss op fm o a b c) = trap 0x33 0 0 := by
  obtain ⟨sub, h⟩ := opFcvt_eq s op fm o a b c
  rw [h, hfl, hvxe]
  rfl

/-- Only I32 results are widened (R182). -/
theorem fcvtWrite_of_le {dst : Nat} (h : 11 ≤ dst) (w : Nat) : fcvtWrite dst w = w := by
  have hne : dst ≠ 5 := by omega
  simp [fcvtWrite, hne]

/-- FCVT that delivers its result (R182). -/
theorem opFcvt_body (hfl : flHas (converted s o a).2 flSPOV = false ∨ flHas (s.core s.curCore).vxe.toNat flSPOV = false)
    (ham : ((s.core s.curCore).am && (fmtIsFloat (o.m / 64 % 64) && (decide (11 ≤ o.m / 64 % 64)
      && (fmtOf (o.m / 64 % 64)).subnormal (converted s o a).1))) = false) :
    ∃ lost, opFcvt (s.iss op fm o a b c) = .ok
      { res := valRes o.d (BitVec.ofNat 64 (fcvtWrite (o.m / 64 % 64) (converted s o a).1)), fx := (converted s o a).2
        lost := lost } := by
  obtain ⟨sub, h⟩ := opFcvt_eq s op fm o a b c
  have hgoes : ¬ (flHas (converted s o a).2 flSPOV && flHas (s.core s.curCore).vxe.toNat flSPOV) = true := by
    obtain hno | hno := hfl <;> simp [hno]
  rw [h, if_neg hgoes]
  split
  · next hfloat =>
    split
    · next hassist =>
      rw [Bool.and_eq_true, decide_eq_true_eq] at hassist
      rw [hfloat, decide_eq_true hassist.2, Bool.true_and, Bool.true_and] at ham
      rw [fres_of_delivered ham, fcvtWrite_of_le hassist.2]
      exact ⟨_, rfl⟩
    · exact ⟨_, rfl⟩
  · exact ⟨_, rfl⟩

/-- FTLD: its 256 loads are due, and its table at the commit (R184). -/
theorem opFtld_body {q : Ok} (hq : Passes s a 1024 64 rRead q) : opFtld (s.iss op fm o a b c) = .ok
    { res := [dueLoad .none (.record 0x8B) none { q with side := false } a
        ((List.range 256).map fun j => { loc := q.loc + 4 * j, size := 4 })]
      defs := [{ op := 0x8B }] } := by
  refine (check_bind hq _).trans ?_
  rw [present_of_passes hq]
  rfl

/-- ENC8: the code of its operand is due (R78, R185). -/
theorem opEnc8_body (s : State) (op : Nat) (fm : Form) (o : Opnd) (a b c : Word) : ∃ lost, opEnc8 (s.iss op fm o a b c) = .ok
    { res := valRes o.d (BitVec.ofNat 64 (t8Encode (s.core s.curCore).dtab (fval (fmtOf8 o) a)).1)
      fx := (t8Encode (s.core s.curCore).dtab (fval (fmtOf8 o) a)).2, lost := lost } := by
  rw [← fOf_eq, ← State.opened_dtab]
  exact ⟨_, rfl⟩

end

/-- FCLS and DEC8 set no flag (R183, R185). -/
theorem floatOf_flags {s : State} {op : Nat} {o : Opnd} {a b c : Word} (hop : op = 0x8A ∨ op = 0x8D) :
    (floatOf s op o a b c).2 = 0 := by
  obtain rfl | rfl := hop <;> rfl

/-- Settles O32: each body by the rules of its section. -/
theorem floatMovesAndTables : Obligations.FloatMovesAndTables := by
  unfold Obligations.FloatMovesAndTables
  intro i s op fm o a b c hv hr f k
  refine ⟨?_, ?_, fun hop h => ?_, ?_, ?_⟩
  · rintro rfl
    obtain ⟨lost, hb⟩ := opFcmp_body s 0x88 fm o a b c
    exact issues_row8 hv hr (by decide) hb
  · rintro rfl
    refine ⟨fun hfl hvxe => exec_traps hv hr (opFcvt_of_saturated hfl hvxe), fun hfl ham => ?_⟩
    obtain ⟨lost, hb⟩ := opFcvt_body (op := 0x89) (fm := fm) (b := b) (c := c) hfl ham
    exact issues_row8 hv hr (by decide) hb
  · have hi := issues_float hv hr (.inr hop) h
    have hm : ¬ op ≤ 0x83 := by omega
    rwa [floatOf_flags hop, Spec.ringed, if_neg hm] at hi
  · rintro rfl q hq
    exact issues_row8 hv hr (by decide) (opFtld_body hq)
  · rintro rfl
    obtain ⟨lost, hb⟩ := opEnc8_body s 0x8C fm o a b c
    exact issues_row8 hv hr (by decide) hb

end Sys2Proof.Machine
end

section
/-! SUPPORT. The canonical form of memory (R97), kept by every operation of the package: most leave memory as it is
(`f_mem`), and those that write keep its form (`f_memWf`). Here the operations on the state, the deliveries, the units and the
placer. -/

namespace Sys2Proof.Machine

/-- Every next state that an outcome answers has its memory in canonical form. -/
def LeavesWf : Host.Outcome State Fault Refusal → Prop
  | .next t => Memory.wf t.mem
  | _ => True

@[simp] theorem leavesWf_next {t : State} : LeavesWf (.next t) ↔ Memory.wf t.mem := .rfl
@[simp] theorem leavesWf_fault {f : Fault} : LeavesWf (.fault f) := trivial
@[simp] theorem leavesWf_refused {r : Refusal} : LeavesWf (.refused r) := trivial

@[simp] theorem leavesWf_ite {c : Prop} [Decidable c] {a b : Host.Outcome State Fault Refusal} :
    LeavesWf (if c then a else b) ↔ if c then LeavesWf a else LeavesWf b := by
  split <;> exact .rfl

theorem leavesWf_ite_of {c : Prop} [Decidable c] {a b : Host.Outcome State Fault Refusal} (ha : LeavesWf a) (hb : LeavesWf b) :
    LeavesWf (if c then a else b) := by
  split
  · exact ha
  · exact hb

/-- A fold whose steps leave memory leaves it. -/
@[simp] theorem foldl_mem {α : Type} {f : State → α → State} (h : ∀ s a, (f s a).mem = s.mem) (l : List α) (s : State) :
    (l.foldl f s).mem = s.mem := foldl_same State.mem h l s

/-- The same beside another result. -/
@[simp] theorem foldl_fst_mem {α β : Type} {f : State × β → α → State × β} (h : ∀ p a, (f p a).1.mem = p.1.mem) (l : List α)
    (p : State × β) : (l.foldl f p).1.mem = p.1.mem := foldl_same (fun p => p.1.mem) h l p

@[simp] theorem ite_mem {c : Prop}
    [Decidable c] {s t : State} : (if c then s else t).mem = if c then s.mem else t.mem := apply_ite ..

@[simp] theorem memWf_ite {c : Prop} [Decidable c] {m n : List Host.Cell} :
    Memory.wf (if c then m else n) = if c then Memory.wf m else Memory.wf n := apply_ite ..

/-! ### Ops -/

@[simp] theorem State.setExtent_mem (s : State) (oid x : Nat) (e : Extent) : (s.setExtent oid x e).mem = s.mem := rfl

@[simp] theorem State.put_mem (s : State) (a : Nat) (ls : List Nat) (bs : List Byte) (carried : List View) (rel : Option Nat)
    : (s.put a ls bs carried rel).mem = s.mem := rfl

theorem State.lineEv_mem {s : State} {busy : Nat → Bool} {a : Nat} {ls : List Nat} {r : State × List Byte}
    (h : s.lineEv busy a ls = some r) : r.1.mem = s.mem := by
  unfold State.lineEv at h
  split at h
  · cases h
  · cases h; rfl

@[simp] theorem State.readEv_mem (s : State) (a : Nat) (ls : List Nat) : (s.readEv a ls).1.mem = s.mem := rfl

@[simp] theorem State.writeRange_mem (s : State) (a l : Nat) (bs : List Byte) (carried : List View) :
    (s.writeRange a l bs carried).mem = s.mem := by
  unfold State.writeRange
  refine foldl_mem (fun _ _ => ?_) _ _
  rfl

@[simp] theorem State.joinView_mem (s : State) (a scope : Nat) (v : View) : (s.joinView a scope v).mem = s.mem := by
  simp [State.joinView]

@[simp] theorem State.joinEvents_mem (s : State) (a scope : Nat) (evs : List Nat) : (s.joinEvents a scope evs).mem = s.mem := by
  simp [State.joinEvents, State.joinViews_mem]

@[simp] theorem State.takeViews_mem (s : State) (a : Nat) (vs : List View) : (s.takeViews a vs).mem = s.mem := by
  simp [State.takeViews, State.joinViews_mem]

@[simp] theorem State.atomicStep_mem (s : State) (a : Nat) (ls : List Nat) (acq rel : Option Nat) (carried : List View)
    (new : Option (List Byte)) : (s.atomicStep a ls acq rel carried new).1.mem = s.mem := by
  simp only [State.atomicStep]
  repeat' split
  all_goals simp

@[simp] theorem State.asWhole_mem (s : State) (whole since : Nat) : (s.asWhole whole since).mem = s.mem := rfl

@[simp] theorem State.asPiece_mem (s : State) (whole : Nat) : (s.asPiece whole).mem = s.mem := by
  simp [State.asPiece]

@[simp] theorem State.notify_mem (s : State) (dst cls cause sub thr : Nat) (pc info : Word) (ctx from_ : Nat)
    : (s.notify dst cls cause sub thr pc info ctx from_).mem = s.mem := rfl

/-! ### Handlers -/

@[simp] theorem State.told_mem (s : State) (m : HMsg) : (s.told m).mem = s.mem := by
  simp [State.told]

@[simp] theorem State.takeMsg_mem (s : State) (c x : Nat) (m : HMsg) : (s.takeMsg c x m).mem = s.mem := by
  simp [State.takeMsg]

@[simp] theorem State.haltWake_mem (s0 s1 : State) (d : Nat)
    : (s0.haltWake s1 d).mem = s1.mem := (State.haltWake_still (q := False) s0 s1 d).mem

@[simp] theorem State.pump_mem (s : State) (c : Nat) : (s.pump c).mem = s.mem := by
  simp only [State.pump]
  repeat' split
  all_goals simp

@[simp] theorem State.pumpCtx_mem (s : State) (x : Nat) : (s.pumpCtx x).mem = s.mem := by
  simp [State.pumpCtx]

/-! ### Objects -/

@[simp] theorem State.storeDesc_mem (s : State) (x h off : Nat) (bs : List Byte) : (s.storeDesc x h off bs).mem = s.mem := by
  simp [State.storeDesc]

@[simp] theorem State.storeLeaf_mem (s : State) (oid x off : Nat) (bs : List Byte) : (s.storeLeaf oid x off bs).mem = s.mem := by
  simp [State.storeLeaf]

@[simp] theorem State.storeInterior_mem (s : State) (oid k i off : Nat) (bs : List Byte)
    : (s.storeInterior oid k i off bs).mem = s.mem := rfl

@[simp] theorem State.storeEntry_mem (s : State) (l : Nat) (bs : List Byte) : (s.storeEntry l bs).mem = s.mem := by
  simp [State.storeEntry]

@[simp] theorem State.restartWaits_mem (s : State) (x : Nat) : (s.restartWaits x).mem = s.mem := rfl

@[simp] theorem State.storeFile_mem (s : State) (oid off : Nat) (bs : List Byte) : (s.storeFile oid off bs).mem = s.mem := by
  unfold State.storeFile
  split <;> simp

@[simp] theorem State.storeSys_mem (s : State) (l : Nat) (bs : List Byte) : (s.storeSys l bs).mem = s.mem := by
  simp [State.storeSys]

@[simp] theorem State.putMem_mem (s : State) (a : Nat) (ls : List Nat) (bs : List Byte) (carried : List View) (rel : Option Nat)
    : (s.putMem a ls bs carried rel).mem = s.mem := by
  simp [State.putMem]

@[simp] theorem State.writeAt_mem (s : State) (a l : Nat) (bs : List Byte) (carried : List View)
    : (s.writeAt a l bs carried).mem = s.mem := by
  simp [State.writeAt]

@[simp] theorem State.heat_mem (s : State) (a l : Nat) (write : Bool) : (s.heat a l write).mem = s.mem := by
  simp [State.heat]

@[simp] theorem State.report_mem (s : State) (oid x die : Nat) : (s.report oid x die).mem = s.mem := rfl

/-! ### Deliver -/

@[simp] theorem State.barWake_mem (s : State) (c t lvl : Nat)
    : (s.barWake c t lvl).mem = s.mem := (State.Wakes.of_barWake s c t lvl).mem

@[simp] theorem State.barWakeAll_mem (s : State) (lid : Nat)
    : (s.barWakeAll lid).mem = s.mem := (State.Wakes.of_barWakeAll s lid).mem

@[simp] theorem State.raiseLane_mem (s : State) (c : Nat) : (s.raiseLane c).mem = s.mem := by
  simp [State.raiseLane]

@[simp] theorem State.phaseComplete_mem (s : State) (c t lvl : Nat) : (s.phaseComplete c t lvl).mem = s.mem := by
  simp [State.phaseComplete]

@[simp] theorem State.arriveBar_mem (s : State) (c t lvl : Nat) : (s.arriveBar c t lvl).mem = s.mem := by
  simp [State.arriveBar]

@[simp] theorem State.moveIn_mem (s : State) (c t : Nat) (ms : List Mbx) (seen : List Nat) (keep : List Mbx) :
    (s.moveIn c t ms seen keep).mem = s.mem := by
  induction ms generalizing s seen keep with
  | nil => rfl
  | cons m ms ih =>
    unfold State.moveIn
    split <;> simp [ih]

@[simp] theorem State.settleMbx_mem (s : State) (c t : Nat) : (s.settleMbx c t).mem = s.mem := by
  simp [State.settleMbx]

theorem State.deliver_mem {s u : State} {c t : Nat} {m : Mbx} (h : s.deliver c t m = some u) : u.mem = s.mem := by
  simp only [State.deliver] at h
  split at h
  · rw [← Option.some.inj h]; simp
  · split at h
    · rw [← Option.some.inj h]; rfl
    · cases h

@[simp] theorem State.readyLate_mem (s : State) (c t : Nat) (m : HMsg) : (s.readyLate c t m).mem = s.mem := by
  simp [State.readyLate]

@[simp] theorem State.endLates_mem (s : State) (c t : Nat) : (s.endLates c t).mem = s.mem := by
  simp [State.endLates]

@[simp] theorem State.dropLog_mem (s : State) (c t : Nat) : (s.dropLog c t).mem = s.mem := by
  unfold State.dropLog
  split <;> simp

@[simp] theorem State.freeThread_mem (s : State) (c t : Nat) : (s.freeThread c t).mem = s.mem := by
  simp [State.freeThread]

@[simp] theorem State.endTask_mem (s : State) (c t : Nat) : (s.endTask c t).mem = s.mem := by
  simp only [State.endTask]
  split
  · rfl
  · split <;> simp [State.startTask_mem]

@[simp] theorem State.endKernelOn_mem (s : State) (cl x cause : Nat) : (s.endKernelOn cl x cause).mem = s.mem := by
  unfold State.endKernelOn
  refine (foldl_mem (fun st r => ?_) _ _).trans (foldl_mem (fun _ _ => ?_) _ _)
  · simp
  · rfl

@[simp] theorem State.handlerFault_mem (s : State) (c cause sub : Nat) (pc info : Word) (x : Nat)
    : (s.handlerFault c cause sub pc info x).mem = s.mem := by
  simp [State.handlerFault]

@[simp] theorem State.trapMsg_mem (s : State) (c t cause sub : Nat) (pc info : Word)
    : (s.trapMsg c t cause sub pc info).mem = s.mem := by
  simp [State.trapMsg]

@[simp] theorem State.trapThread_mem (s : State) (c t cause sub : Nat) (pc info resume : Word)
    : (s.trapThread c t cause sub pc info resume).mem = s.mem := by
  simp [State.trapThread]

@[simp] theorem State.resumeThread_mem (s : State) (c t : Nat) (pc : Word) (views : List View)
    : (s.resumeThread c t pc views).mem = s.mem := by
  simp [State.resumeThread, State.joinViews_mem]

@[simp] theorem State.lateFault_mem (s : State) (c t cause sub : Nat) (head info : Word)
    : (s.lateFault c t cause sub head info).mem = s.mem := by
  simp [State.lateFault]

@[simp] theorem State.stopLate_mem (s : State) (c t : Nat) (resume : Word) : (s.stopLate c t resume).mem = s.mem := by
  unfold State.stopLate
  split <;> simp

/-! ### Access -/

@[simp] theorem State.readFwd_mem (s : State) (a : Nat) (st : List (List Nat × List Byte)) (ls : List Nat)
    : (s.readFwd a st ls).1.mem = s.mem := rfl

@[simp] theorem State.joinFence_mem (s : State) (c t : Nat) (f : GFence) : (s.joinFence c t f).mem = s.mem := by
  simp [State.joinFence, State.joinViews_mem]

@[simp] theorem State.joinFences_mem (s : State) (c t pos : Nat) : (s.joinFences c t pos).mem = s.mem := by
  simp [State.joinFences]

@[simp] theorem State.wakeOn_mem (s : State) (c prsn : Nat) : (s.wakeOn c prsn).mem = s.mem := by
  simp [State.wakeOn]

@[simp] theorem State.giveBack_mem (s : State) (c : Nat) (u : Undo) : (s.giveBack c u).mem = s.mem := by
  unfold State.giveBack
  split <;> simp

@[simp] theorem State.dropGroup_mem (s : State) (c t : Nat) : (s.dropGroup c t).mem = s.mem := by
  simp [State.dropGroup]

@[simp] theorem State.discard_mem (s : State) (c t : Nat) : (s.discard c t).mem = s.mem := by
  simp [State.discard]

@[simp] theorem State.discardOnly_mem (s : State) (c t : Nat) : (s.discardOnly c t).mem = s.mem := by
  simp [State.discardOnly]

/-! ### Units -/

@[simp] theorem State.notifyCtx_mem (s : State) (x cause sub : Nat) (info : Word) (old : State)
    : (s.notifyCtx x cause sub info old).mem = s.mem := by
  simp [State.notifyCtx]

@[simp] theorem State.saveFlash_mem (s : State) : (s.saveFlash).mem = s.mem := rfl

@[simp] theorem State.raiseVer_mem (s : State) : (s.raiseVer).mem = s.mem := rfl

@[simp] theorem State.suspend_mem (s : State) (p : Queue → Bool) : (s.suspend p).mem = s.mem := rfl

@[simp] theorem State.recompute_mem (s : State) (x : Nat) : (s.recompute x).mem = s.mem := rfl

@[simp] theorem State.degrade_mem (s : State) (u : Nat) (old : State) : (s.degrade u old).mem = s.mem := by
  simp [State.degrade]

@[simp] theorem State.moveExtents_mem (s : State) (l : List ((Nat × Nat) × Nat × Nat)) : (s.moveExtents l).1.mem = s.mem := by
  unfold State.moveExtents
  refine foldl_fst_mem (fun _ _ => ?_) _ _
  rfl

theorem State.clearChannel_mem {s : State} {d ch : Nat} {r : State × List (Nat × Nat × Nat × Nat × Nat)}
    (h : s.clearChannel d ch = some r) : r.1.mem = s.mem := by
  simp only [State.clearChannel] at h
  split at h
  · obtain ⟨ps, -, rfl⟩ := Option.map_eq_some_iff.mp h
    simp
  · cases h

@[simp] theorem State.leaveChannel_mem (s : State) (d ch : Nat) : (s.leaveChannel d ch).mem = s.mem := by
  simp only [State.leaveChannel]
  split <;> simp

@[simp] theorem State.mapEffs_mem (s : State) (f : Eff → Eff) (g : Owed → Owed) : (s.mapEffs f g).mem = s.mem := rfl

@[simp] theorem State.endLaunch_mem (s : State) (l cause last : Nat) : (s.endLaunch l cause last).mem = s.mem := by
  simp [State.endLaunch]

@[simp] theorem State.dropLogs_mem (s : State) (c : Nat) : (s.dropLogs c).mem = s.mem := by
  simp [State.dropLogs]

@[simp] theorem State.takeLogs_mem (s : State) (c : Nat) : (s.takeLogs c).mem = s.mem := by
  simp [State.takeLogs, State.takeLog_mem]

@[simp] theorem State.launchThread_mem (s : State) (c t l : Nat) (wid : Word) (duo : Bool)
    : (s.launchThread c t l wid duo).mem = s.mem := by
  simp [State.launchThread, State.takeLog_mem, State.joinViews_mem]

@[simp] theorem State.poisonFor_mem (s : State) (c l tag : Nat) : (s.poisonFor c l tag).mem = s.mem := by
  unfold State.poisonFor
  refine foldl_mem (fun st r => ?_) _ _
  dsimp only
  split
  · rfl
  · refine foldl_mem (fun _ _ => ?_) _ _
    rfl

@[simp] theorem State.dropThird_mem (s : State) (l g c t : Nat) : (s.dropThird l g c t).mem = s.mem := by
  simp [State.dropThird]

@[simp] theorem State.pairBegins_mem (s : State) (l g : Nat) : (s.pairBegins l g).mem = s.mem := rfl

@[simp] theorem State.thirdBegins_mem (s : State) (l c : Nat) : (s.thirdBegins l c).mem = s.mem := rfl

@[simp] theorem State.restartMate_mem (s : State) (d t : Nat) (x : Thread) : (s.restartMate d t x).mem = s.mem := by
  simp only [State.restartMate]
  split <;> simp

@[simp] theorem State.restart_mem (s : State) (r t : Nat) (x : Thread) : (s.restart r t x).mem = s.mem := by
  simp [State.restart]

@[simp] theorem State.dropCore_mem (s : State) (c : Nat) (tell : Bool) : (s.dropCore c tell).mem = s.mem := by
  simp only [State.dropCore]
  refine (foldl_mem (fun _ _ => State.endLaunch_mem ..) _ _).trans ?_
  split
  · refine (foldl_mem (fun _ _ => ?_) _ _).trans (by simp)
    split <;> simp
  · simp

@[simp] theorem State.loseUnit_memWf {s : State} (h : Memory.wf s.mem) (u : Nat) : Memory.wf (s.loseUnit u).1.mem := by
  have moved (c r : Nat) : Memory.wf (s.moveCore c r).mem := s.moveCore_memWf c r
  simp only [State.loseUnit]
  repeat' split
  all_goals simp [h, moved]

@[simp] theorem State.retireUnit_memWf {s : State} (h : Memory.wf s.mem) (u reason : Nat)
    : Memory.wf (s.retireUnit u reason).mem := by
  simp [State.retireUnit, h]

@[simp] theorem State.bump_memWf {s : State} (h : Memory.wf s.mem) (u n reason : Nat) : Memory.wf (s.bump u n reason).mem := by
  simp [State.bump, h]

@[simp] theorem State.rindEvent_mem (s : State) (u x : Nat) (bits : List Word) : (s.rindEvent u x bits).mem = s.mem := rfl

@[simp] theorem State.killCore_memWf {s : State} (h : Memory.wf s.mem) (c : Nat) : Memory.wf (s.killCore c).mem := by
  simp [State.killCore, h]

@[simp] theorem State.foundBad_memWf {s : State} (h : Memory.wf s.mem) (ls : List Nat) : Memory.wf (s.foundBad ls).mem :=
  State.foldl_memWf _ (fun _ _ hs => State.bump_memWf hs ..) _ _ h

@[simp] theorem State.clearLink_mem (s : State) : (s.clearLink).mem = s.mem := rfl

@[simp] theorem State.linkFails_memWf {s : State} (h : Memory.wf s.mem) (ls : List (Nat × Nat))
    : Memory.wf (s.linkFails ls).mem :=
  State.foldl_memWf _ (fun _ _ hs => State.bump_memWf hs ..) _ _ h

@[simp] theorem State.slowLink_mem (s : State) (u cap : Nat) : (s.slowLink u cap).mem = s.mem := by
  simp [State.slowLink]

@[simp] theorem State.begins_memWf {s : State} (h : Memory.wf s.mem) (a : Sched) : Memory.wf (s.begins a).mem := by
  simp [State.begins, h]

/-! ### Placer -/

@[simp] theorem State.submit_mem (s : State) (x tag q : Nat) (h : List Byte) (c t : Nat) (fromCore : Bool)
    : (s.submit x tag q h c t fromCore).1.mem = s.mem := by
  simp [State.submit, apply_ite Prod.fst]

@[simp] theorem State.enqueue_mem (s : State) (l : Nat) (views : List View) : (s.enqueue l views).mem = s.mem := rfl

@[simp] theorem State.placeOn_mem (s : State) (c l j : Nat) : (s.placeOn c l j).mem = s.mem := by
  simp [State.placeOn, State.startEighth_mem]

@[simp] theorem State.placeGangOn_mem (s : State) (l : Nat) (a b : List Nat) : (s.placeGangOn l a b).mem = s.mem := by
  simp only [State.placeGangOn, State.modLaunch_mem]
  refine (foldl_mem (fun u p => ?_) _ _).trans (foldl_mem (fun u p => ?_) _ _)
  all_goals split <;> simp

@[simp] theorem State.placeLaunch_mem (tag l f : Nat) (s : State) : (State.placeLaunch tag l f s).mem = s.mem := by
  induction f generalizing s with
  | zero => rfl
  | succ f ih =>
    simp only [State.placeLaunch]
    split
    · rfl
    split
    · rfl
    · simp [ih]

@[simp] theorem State.placeHead_mem (tag q f : Nat) (s : State) : (State.placeHead tag q f s).mem = s.mem := by
  induction f generalizing s with
  | zero => rfl
  | succ f ih =>
    simp only [State.placeHead]
    split
    · rfl
    · simp [ih]

@[simp] theorem State.placePromised_mem (tag f : Nat) (qs : List Nat) (s : State)
    : (State.placePromised tag f qs s).mem = s.mem := by
  induction f generalizing s qs with
  | zero => rfl
  | succ f ih =>
    simp only [State.placePromised]
    split
    · rfl
    · simp [ih]

theorem execPlacerPass_memWf {s : State} (h : Memory.wf s.mem) (tag : Nat) : LeavesWf (execPlacerPass tag s) := by
  simp only [execPlacerPass]
  repeat' split
  all_goals simp [h]

@[simp] theorem State.returnTiles_mem (s : State) (x : Nat) (cls : List Nat) : (s.returnTiles x cls).mem = s.mem := by
  unfold State.returnTiles
  refine foldl_mem (fun _ _ => ?_) _ _
  rfl

theorem execLaunchEnd_memWf {s : State} (h : Memory.wf s.mem) (l : Nat) : LeavesWf (execLaunchEnd l s) := by
  simp only [execLaunchEnd]
  split <;> simp [h]

@[simp] theorem State.rotate_mem (s : State) (c : Nat) : (s.rotate c).mem = s.mem := by
  simp [State.rotate, State.activate_mem, State.arbitrate_mem, State.startEighth_mem, State.startRecords_mem]

theorem execSlotRotationStart_memWf {s : State} (h : Memory.wf s.mem) (c : Nat) : LeavesWf (execSlotRotationStart c s) := by
  unfold execSlotRotationStart
  split <;> simp [h]

theorem execStealRequest_memWf {s : State} (h : Memory.wf s.mem) (c : Nat) : LeavesWf (execStealRequest c s) := by
  simp only [execStealRequest]
  split <;> simp [h]

theorem execStealAnswer_memWf {s : State} (h : Memory.wf s.mem) (c : Nat) : LeavesWf (execStealAnswer c s) := by
  simp only [execStealAnswer]
  split
  · split
    · exact h
    split <;> simp [State.startTask_mem, h]
  · exact h

theorem execStealBackoffExpiry_memWf {s : State} (h : Memory.wf s.mem) (c : Nat) : LeavesWf (execStealBackoffExpiry c s) := by
  unfold execStealBackoffExpiry
  split <;> simp [h]

end Sys2Proof.Machine
end

section
/-! SUPPORT. The same for the vector unit, the engines and the Network Engine. -/

namespace Sys2Proof.Machine

/-! ### VecUnit -/

/-- The state that the dispatch of an effect leaves, whichever way it ends. -/
def Disp.state : Disp → State
  | .done s | .stall s _ | .refuse s _ _ _ => s

@[simp] theorem Disp.state_done (s : State) : (Disp.done s).state = s := rfl
@[simp] theorem Disp.state_stall (s : State) (prsn : Nat) : (Disp.stall s prsn).state = s := rfl
@[simp] theorem Disp.state_refuse (s : State) (cause sub : Nat) (info : Word) : (Disp.refuse s cause sub info).state = s := rfl
@[simp] theorem Disp.state_ite {c : Prop}
    [Decidable c] {a b : Disp} : (if c then a else b).state = if c then a.state else b.state :=
  apply_ite ..

@[simp] theorem State.readParts_mem (s : State) (c t seq : Nat) (need : Nat → Bool) (ps : List Part) :
    (s.readParts c t seq need ps).s.mem = s.mem := by
  simp only [State.readParts]
  refine foldl_same (fun r : Reads => r.s.mem) (fun r p => ?_) _ _
  split
  · rfl
  split
  · rfl
  split
  · rfl
  · rw [State.modThr_mem, State.heat_mem, State.readFwd_mem]

@[simp] theorem State.vecRead_memWf {s : State} (h : Memory.wf s.mem) (c i : Nat) : Memory.wf (s.vecRead c i).mem := by
  unfold State.vecRead
  split
  · exact h
  split
  · exact h
  extract_lets t p op hnd x elB elA elD ha cutA o1 o2 rb o3 o4 early ra o5 rd o6 all ready o7 s1
  have hs : s1.mem = s.mem := (State.readParts_mem ..).trans ((State.readParts_mem ..).trans (State.readParts_mem ..))
  clear_value s1
  rw [← hs] at h
  split
  · exact State.killCore_memWf h c
  · exact h

theorem State.vecDispatch_memWf {s : State} (h : Memory.wf s.mem) (c t : Nat) (e : Eff)
    : Memory.wf (s.vecDispatch c t e).state.mem := by
  simp only [State.vecDispatch]
  split
  · exact h
  split
  · exact h
  split
  · exact h
  split
  · simp [h]
  split <;> simp [h]

@[simp] theorem State.vecAssist_memWf {s : State} (h : Memory.wf s.mem) (c i : Nat) : Memory.wf (s.vecAssist c i).mem := by
  unfold State.vecAssist
  split
  · exact h
  split
  · extract_lets p t s1 s2 a
    have h1 : Memory.wf s1.mem := s.poke_memWf _ _ h
    clear_value s1
    split
    · exact h
    · exact h1
  · exact h

theorem execVectorOpStart_memWf {s : State} (h : Memory.wf s.mem) (c k : Nat) : LeavesWf (execVectorOpStart c k s) := by
  simp only [execVectorOpStart]
  repeat' split
  all_goals simp [h]

@[simp] theorem State.vecWrite_mem (s : State) (c t : Nat) (o : VOp) (p : VPar) (ws : List (Nat × (Nat × List Byte))) :
    (s.vecWrite c t o p ws).1.mem = s.mem := by
  induction ws generalizing s with
  | nil => rfl
  | cons w ws ih =>
    simp only [State.vecWrite]
    split
    · rfl
    · simp [ih]

@[simp] theorem State.freeScb_mem (s : State) (c t seq : Nat) : (s.freeScb c t seq).mem = s.mem := by
  simp [State.freeScb]

theorem execVectorOpRetire_memWf {s : State} (h : Memory.wf s.mem) (c : Nat) (rind : Option Rind)
    : LeavesWf (execVectorOpRetire c rind s) := by
  simp only [execVectorOpRetire]
  repeat' split
  all_goals simp [h]

/-! ### Engines -/

@[simp] theorem State.modImg_mem (s : State) (cl x : Nat) (f : Image → Image) : (s.modImg cl x f).mem = s.mem := rfl

@[simp] theorem State.cmdDispatch_mem (s : State) (c t : Nat) (e : Eff) : (s.cmdDispatch c t e).state.mem = s.mem := by
  simp only [State.cmdDispatch]
  split
  · rfl
  split
  · rfl
  split
  · rfl
  · simp

@[simp] theorem State.popCmd_mem (s : State) (c q : Nat) : (s.popCmd c q).mem = s.mem := rfl

@[simp] theorem State.complete_mem (s : State) (e : Eff) (eng id cause info : Nat)
    : (s.complete e eng id cause info).mem = s.mem := by
  simp [State.complete]

@[simp] theorem State.joinCmd_mem (s : State) (a : Nat) (e : Eff) : (s.joinCmd a e).mem = s.mem := by
  simp [State.joinCmd]

@[simp] theorem State.oweCounter_mem (s : State) (a : Nat) (e : Eff) (ctr : Word) (cause : Nat)
    : (s.oweCounter a e ctr cause).mem = s.mem := by
  simp [State.oweCounter]

/-! ### Tiles -/

theorem State.engRead_bytes {s t : State} {a l n : Nat} {bs : List Byte} (h : s.engRead a l n = .bytes t bs) : t.mem = s.mem := by
  simp only [State.engRead] at h
  split at h
  · cases h
  split at h
  · cases h
  split at h
  · cases h
  · rw [← (Got.bytes.inj h).1]
    exact foldl_fst_mem (fun p q => State.heat_mem ..) _ (s, [])

theorem State.engRead_wait {s t : State} {a l n : Nat} (h : s.engRead a l n = .wait t) : t.mem = s.mem := by
  simp only [State.engRead] at h
  split at h
  · rw [← Got.wait.inj h]; rfl
  split at h
  · rw [← Got.wait.inj h]
  split at h <;> cases h

theorem State.arriveCb_mem {s t : State} {a l : Nat} {err : Option (Nat × Word)} (h : s.arriveCb a l err = some t)
    : t.mem = s.mem := by
  simp only [State.arriveCb] at h
  split at h
  · rw [← Option.some.inj h]; simp
  · cases h

theorem execTileTaskAccept_memWf {s : State} (h : Memory.wf s.mem) (c : Nat) : LeavesWf (execTileTaskAccept c s) := by
  simp only [execTileTaskAccept]
  split
  · exact h
  split
  · exact h
  split
  · simp [h]
  split
  · next hr => simp [State.engRead_wait hr, h]
  · simp [h]
  · next hr =>
    repeat' split
    all_goals simp [State.engRead_bytes hr, h]

theorem execTileTaskStart_memWf {s : State} (h : Memory.wf s.mem) (cl k vat : Nat) : LeavesWf (execTileTaskStart cl k vat s) := by
  simp only [execTileTaskStart]
  repeat' split
  all_goals simp [h]

theorem State.endTile_mem {s u : State} {cl k : Nat} {t : TTask} {fault : Option (Nat × Word)}
    (h : s.endTile cl k t fault = some u) : u.mem = s.mem := by
  simp only [State.endTile] at h
  split at h
  · rw [← Option.some.inj h]; simp
  split at h
  · rw [← Option.some.inj h]; simp
  · cases h
  · cases h
  · obtain ⟨v, hv, rfl⟩ := Option.map_eq_some_iff.mp h
    simp [State.arriveCb_mem hv]

/-- A task ends, or waits for its barrier. -/
@[simp] theorem State.endTile_getD_mem (s u : State) (cl k : Nat) (t : TTask) (fault : Option (Nat × Word)) (hu : u.mem = s.mem) :
    ((s.endTile cl k t fault).getD u).mem = s.mem := by
  cases h : s.endTile cl k t fault with
  | none => exact hu
  | some v => exact State.endTile_mem h

@[simp] theorem State.vatRind_memWf {s : State} (h : Memory.wf s.mem) (cl k : Nat) (t : TTask) (b : Nat) (bits : List Word)
    : Memory.wf (s.vatRind cl k t b bits).mem := by
  unfold State.vatRind
  split <;> simp [h]

@[simp] theorem State.waitBar_mem (s : State) (t : TTask) : (s.waitBar t).mem = s.mem := by
  unfold State.waitBar
  split <;> simp

theorem State.tileOperands_mem {s u : State} {cl : Nat} {t : TTask} {x y z : List Byte}
    (h : s.tileOperands cl t = some (u, x, y, z)) : u.mem = s.mem := by
  simp only [State.tileOperands] at h
  split at h
  · next s1 _ ha =>
    have h1 : s1.mem = s.mem := by split at ha <;> exact State.engRead_bytes ha
    split at h
    · next s2 _ hb =>
      have h2 : s2.mem = s1.mem := State.engRead_bytes hb
      split at h
      · next s3 _ hc =>
        have h3 : s3.mem = s2.mem := by
          split at hc
          · exact State.engRead_bytes hc
          · rw [(Got.bytes.inj hc).1]
        cases h
        exact h3.trans (h2.trans h1)
      · cases h
    · cases h
  · cases h

theorem execTileTaskComplete_memWf {s : State} (h : Memory.wf s.mem) (cl k : Nat) (rind : Option Rind) :
    LeavesWf (execTileTaskComplete cl k rind s) := by
  simp only [execTileTaskComplete]
  split
  · exact h
  split
  · simp [h]
  split
  · exact h
  split
  · simp [h]
  · next ho =>
    have hm := State.tileOperands_mem ho
    split
    · simp [h]
    split <;> simp [hm, h]

theorem execTileZeroFillEnd_memWf {s : State} (h : Memory.wf s.mem) (cl tile : Nat)
    : LeavesWf (execTileZeroFillEnd cl tile s) := by
  simp only [execTileZeroFillEnd]
  split
  · exact s.zeroRange_memWf _ _ h
  · exact h

/-! ### Trellis -/

@[simp] theorem State.trellisLate_mem (s : State) (e : Eff) (cause : Nat) (info : Word)
    : (s.trellisLate e cause info).mem = s.mem := by
  simp [State.trellisLate]

theorem execTrellisAccept_memWf {s : State} (h : Memory.wf s.mem) (c : Nat) : LeavesWf (execTrellisAccept c s) := by
  simp only [execTrellisAccept]
  split
  · exact h
  split
  · exact h
  split
  · split
    · simp [h]
    split
    · next hr => simp [State.engRead_wait hr, h]
    · simp [h]
    · next hr => simp [State.engRead_bytes hr, h]
  · simp [h]

@[simp] theorem State.setCmd_mem (s : State) (cl k : Nat) (w : TCmd) : (s.setCmd cl k w).mem = s.mem := rfl

@[simp] theorem State.fillNow_mem (s : State) (cl x : Nat) (ws : List (Nat × Nat)) : (s.fillNow cl x ws).mem = s.mem := rfl

@[simp] theorem State.convNow_mem (s : State) (cl x : Nat) (g : Image) (ws : List (Nat × Nat))
    : (s.convNow cl x g ws).mem = s.mem := rfl

theorem execTrellisCommandStart_memWf {s : State} (h : Memory.wf s.mem) (cl k tree : Nat)
    : LeavesWf (execTrellisCommandStart cl k tree s) := by
  simp only [execTrellisCommandStart]
  repeat' split
  all_goals simp [h]

@[simp] theorem State.dropCmd_mem (s : State) (cl k : Nat) : (s.dropCmd cl k).mem = s.mem := rfl

@[simp] theorem State.treeRind_memWf {s : State} (h : Memory.wf s.mem) (cl k : Nat) (w : TCmd) (bits : List Word)
    : Memory.wf (s.treeRind cl k w bits).mem := by
  unfold State.treeRind
  split <;> simp [h]

theorem execTrellisCommandRetire_memWf {s : State} (h : Memory.wf s.mem) (cl k : Nat) (rind : Option Rind) :
    LeavesWf (execTrellisCommandRetire cl k rind s) := by
  unfold execTrellisCommandRetire
  split
  · exact h
  extract_lets e t l s1 g0 rest
  split
  · exact h
  split
  · simp [h]
  split
  · split
    · simp [h]
    split
    · exact h
    · simp [s1, h]
  split
  next st w2 hst =>
  have hm : st.mem = s.mem := by split at hst <;> cases hst <;> rfl
  clear hst
  split
  extract_lets filled u trapped v
  have hf : filled.mem = st.mem := by
    simp only [filled]
    repeat' split
    all_goals simp
  have hu : u.mem = filled.mem := (State.modCore_mem ..).trans (State.dropCmd_mem ..)
  have hv : v.mem = u.mem := by
    simp only [v]
    split <;> simp
  rw [leavesWf_next, State.complete_mem, hv, hu, hf, hm]
  exact h

theorem execTrellisImageSwap_memWf {s : State} (h : Memory.wf s.mem) (cl x : Nat) : LeavesWf (execTrellisImageSwap cl x s) := by
  simp only [execTrellisImageSwap]
  split <;> simp [h]

/-! ### Movers -/

theorem execLadleRequestAccept_memWf {s : State} (h : Memory.wf s.mem) (c : Nat) : LeavesWf (execLadleRequestAccept c s) := by
  simp only [execLadleRequestAccept]
  repeat' split
  all_goals simp [h]

@[simp] theorem State.endLadle_mem (s : State) (cl : Nat) (r : LReq) (k : EndKind) (info : Word)
    : (s.endLadle cl r k info).mem = s.mem := by
  unfold State.endLadle
  split <;> simp

@[simp] theorem State.ladleCancel_mem (s : State) (c tag : Nat) : (s.ladleCancel c tag).mem = s.mem := by
  simp only [State.ladleCancel]
  repeat' split
  all_goals simp

theorem State.readAll_mem {s t : State} {a : Nat} {l : List (Nat × Nat)} {bs : List Byte} (h : s.readAll a l = some (t, bs)) :
    t.mem = s.mem := by
  induction l generalizing s bs with
  | nil => cases h; rfl
  | cons p l ih =>
    simp only [State.readAll] at h
    split at h
    · next hr =>
      obtain ⟨⟨u, b⟩, hq, hb⟩ := Option.map_eq_some_iff.mp h
      cases hb
      exact (ih hq).trans (State.engRead_bytes hr)
    · cases h

@[simp] theorem State.writeAll_mem (s : State) (a : Nat) (l : List (Nat × Nat)) (bs : List Byte)
    : (s.writeAll a l bs).mem = s.mem := by
  induction l generalizing s bs with
  | nil => rfl
  | cons p l ih => simp [State.writeAll, ih]

@[simp] theorem State.modLadle_mem (s : State) (cl : Nat) (r : LReq) : (s.modLadle cl r).mem = s.mem := rfl

theorem execLadleChunk_memWf {s : State} (h : Memory.wf s.mem) (cl k : Nat) : LeavesWf (execLadleChunk cl k s) := by
  simp only [execLadleChunk]
  split
  · exact h
  split
  · exact h
  split
  · simp [h]
  split
  · simp [h]
  split
  · simp [h]
  · exact h
  · simp [h]
  · split
    · simp [h]
    · next hr =>
      split <;> simp [State.readAll_mem hr, h]

theorem execPressCommandAccept_memWf {s : State} (h : Memory.wf s.mem) (c : Nat) : LeavesWf (execPressCommandAccept c s) := by
  simp only [execPressCommandAccept]
  split
  · exact h
  split
  · exact h
  split
  · next hr => simp [State.engRead_wait hr, h]
  · simp [h]
  · next hr => simp [State.engRead_bytes hr, h]

@[simp] theorem State.endPress_mem (s : State) (ms : List PMem) (cause : Nat) : (s.endPress ms cause).mem = s.mem := by
  simp [State.endPress]

theorem State.pressReads_mem {s t : State} {ms : List PMem} {m0 : PMem} {f n : Nat} {src : PMem → List (Nat × Nat)} {total : Nat}
    {bs : List (List Byte)} (h : s.pressReads ms m0 f n src total = some (t, bs)) : t.mem = s.mem := by
  refine List.foldlRecOn (motive := fun acc : Option (State × List (List Byte)) => ∀ t l, acc = some (t, l) → t.mem = s.mem) _ _
    (fun t l hr => by cases hr; rfl) (fun acc ha i _ t l hr => ?_) t bs h
  obtain ⟨⟨st, l0⟩, hst, hq⟩ := Option.bind_eq_some_iff.mp hr
  have hm : st.mem = s.mem := ha _ _ hst
  dsimp only at hq
  split at hq
  · split at hq
    · obtain ⟨⟨u, b⟩, hp, hb⟩ := Option.map_eq_some_iff.mp hq
      cases hb
      exact (State.readAll_mem hp).trans hm
    · cases hq; exact hm
  · cases hq; exact hm

theorem execPressChunk_memWf {s : State} (h : Memory.wf s.mem) (d k : Nat) : LeavesWf (execPressChunk d k s) := by
  unfold execPressChunk
  split
  · exact h
  extract_lets ms total away f sz n off src dsts all ranges
  split
  · exact h
  split
  · simp [h]
  split
  · simp [h]
  clear_value all
  split
  · exact h
  · simp [h]
  · simp [h]
  split
  next s0 g hg =>
  have hm : s0.mem = s.mem := by split at hg <;> cases hg <;> rfl
  clear hg
  extract_lets v
  split
  · simp [hm, h]
  split
  · simp [h]
  next s1 bs hr =>
  have hr : s1.mem = s0.mem := State.pressReads_mem hr
  extract_lets s1' out s2 s3 after
  have h1 : s1'.mem = s1.mem := foldl_mem (fun _ _ => foldl_mem (fun _ _ => State.takeViews_mem ..) _ _) _ _
  have h2 : s2.mem = s1'.mem := by
    refine foldl_mem (fun st m => ?_) _ _
    split
    · exact State.writeAll_mem ..
    · rfl
  have h3 : s3.mem = s2.mem := foldl_mem (fun _ _ => State.modDie_mem ..) _ _
  have hw : Memory.wf s3.mem := by
    rw [h3, h2, h1, hr, hm]
    exact h
  split
  · simp [hw]
  · exact hw

@[simp] theorem State.counterLost_mem (s : State) (o : Owed) (cause : Nat) : (s.counterLost o cause).mem = s.mem := by
  unfold State.counterLost
  split <;> simp

theorem execCompletionCounterStep_memWf {s : State} (h : Memory.wf s.mem) (k : Nat)
    : LeavesWf (execCompletionCounterStep k s) := by
  simp only [execCompletionCounterStep]
  repeat' split
  all_goals simp [h]

/-! ### Network -/

/-- The state that an arriving packet leads to. -/
def Recv.state : Recv → State
  | .took s | .stay s => s

@[simp] theorem Recv.state_took (s : State) : (Recv.took s).state = s := rfl
@[simp] theorem Recv.state_stay (s : State) : (Recv.stay s).state = s := rfl

@[simp] theorem State.setReq_mem (s : State) (d : Nat) (r : NReq) : (s.setReq d r).mem = s.mem := rfl

@[simp] theorem State.endReq_mem (s : State) (d : Nat) (r : NReq) (cause sub : Nat) : (s.endReq d r cause sub).mem = s.mem := by
  simp [State.endReq]

theorem execNetRequestAccept_memWf {s : State} (h : Memory.wf s.mem) (c : Nat) : LeavesWf (execNetRequestAccept c s) := by
  simp only [execNetRequestAccept]
  repeat' split
  all_goals simp [h]

@[simp] theorem State.launchPkt_mem (s : State) (p : NetPkt) : (s.launchPkt p).mem = s.mem := rfl

@[simp] theorem State.replyTo_mem (s : State) (p : NetPkt) (placed : List Nat) (refused : Nat)
    : (s.replyTo p placed refused).mem = s.mem := rfl

@[simp] theorem State.sentPkt_mem (s : State) (d : Nat) (r : NReq) (i : Nat) (data : List Byte) (lost : Bool)
    : (s.sentPkt d r i data lost).mem = s.mem := by
  simp [State.sentPkt]

@[simp] theorem State.sendPkt_mem (s : State) (d : Nat) (r : NReq) (i : Nat) (lost : Bool)
    : (s.sendPkt d r i lost).mem = s.mem := by
  simp only [State.sendPkt]
  split
  · simp
  split
  · simp
  · simp
  · rfl
  split
  · simp
  · next hr => simp [State.readAll_mem hr]

theorem execNetPacketSend_memWf {s : State} (h : Memory.wf s.mem) (d k i : Nat) (lost : Bool)
    : LeavesWf (execNetPacketSend d k i lost s) := by
  simp only [execNetPacketSend]
  repeat' split
  all_goals simp [h]

theorem execNetResendTimeout_memWf {s : State} (h : Memory.wf s.mem) (d k i : Nat) (lost : Bool)
    : LeavesWf (execNetResendTimeout d k i lost s) := by
  simp only [execNetResendTimeout]
  repeat' split
  all_goals simp [h]

theorem execNetUnmatchedRetry_memWf {s : State} (h : Memory.wf s.mem) (d k : Nat) (lost : Bool) :
    LeavesWf (execNetUnmatchedRetry d k lost s) := by
  simp only [execNetUnmatchedRetry]
  split
  · exact h
  split
  · exact h
  · rw [leavesWf_next, foldl_mem]
    · exact h
    · intro st i
      split <;> simp

@[simp] theorem State.joinPort_mem (s : State) (d : Nat) (peer : Word) : (s.joinPort d peer).mem = s.mem := by
  unfold State.joinPort
  split <;> simp

theorem execNetAckArrival_memWf {s : State} (h : Memory.wf s.mem) (d : Nat) (a : NetAck)
    : LeavesWf (execNetAckArrival d a s) := by
  simp only [execNetAckArrival]
  split
  · exact h
  next s1 r hg =>
  have hm : s1.mem = s.mem := by
    split at hg
    · cases hg; rfl
    · split at hg
      · split at hg <;> cases hg
        rfl
      · cases hg
  split
  · simp [hm, h]
  repeat' split
  all_goals simp [hm, h]

@[simp] theorem State.writePkt_mem (s : State) (a : Nat) (ls : List (Nat × Nat)) (bs : List Byte)
    : (s.writePkt a ls bs).mem = s.mem := by
  simp [State.writePkt]

@[simp] theorem State.placePost_mem (s : State) (d : Nat) (r : NReq) (p : NetPkt) : (s.placePost d r p).state.mem = s.mem := by
  simp only [State.placePost]
  split
  · simp
  split <;> simp

@[simp] theorem State.record_mem (s : State) (d x op : Nat) (p : NetPkt) (queue : Option (Nat × Nat))
    : (s.record d x op p queue).1.mem = s.mem := rfl

@[simp] theorem State.publishUnits_mem (s : State) (d q base f : Nat) (r : NReq)
    : (s.publishUnits d q base f r).1.mem = s.mem := by
  induction f generalizing s r with
  | zero => rfl
  | succ f ih =>
    simp only [State.publishUnits]
    split
    · rfl
    split
    · rfl
    · rw [ih, State.put_mem]
      exact foldl_mem (fun _ _ => State.put_mem ..) _ _

/-- A fold that writes a range and counts the access leaves memory: both only tell. -/
theorem State.foldl_writeRange_heat_mem {α : Type} (s : State) (a : Nat) (l l' : State → α → Nat) (bs : α → List Byte)
    (us : List α) : (us.foldl (fun st w => (st.writeRange a (l st w) (bs w) []).heat a (l' st w) true) s).mem = s.mem :=
  foldl_mem (fun _ _ => (State.heat_mem ..).trans (State.writeRange_mem ..)) us s

@[simp] theorem State.placeUnits_mem (s : State) (d : Nat) (r : NReq) (p : NetPkt) (q base : Nat) :
    (s.placeUnits d r p q base).state.mem = s.mem := by
  simp only [State.placeUnits]
  split
  · exact State.replyTo_mem ..
  split
  · exact State.report_mem ..
  split
  · exact State.replyTo_mem ..
  split
  · rfl
  · rw [Recv.state_took, State.replyTo_mem, State.setReq_mem, State.publishUnits_mem]
    exact State.foldl_writeRange_heat_mem ..

@[simp] theorem State.recvQueue_mem (s : State) (d x : Nat) (p : NetPkt) : (s.recvQueue d x p).state.mem = s.mem := by
  simp only [State.recvQueue]
  split
  · split
    · exact State.placeUnits_mem ..
    · rfl
  split
  · exact State.replyTo_mem ..
  split
  · exact State.replyTo_mem ..
  split
  · rfl
  · rw [State.placeUnits_mem, State.record_mem, State.joinEvents_mem, State.readEv_mem, State.heat_mem, State.atomicStep_mem]

@[simp] theorem State.recvSend_mem (s : State) (d x : Nat) (p : NetPkt) : (s.recvSend d x p).state.mem = s.mem := by
  simp only [State.recvSend]
  split
  · simp
  split
  · split <;> simp
  · split <;> simp

@[simp] theorem State.recvWrite_mem (s : State) (d x : Nat) (p : NetPkt) : (s.recvWrite d x p).state.mem = s.mem := by
  simp only [State.recvWrite]
  repeat' split
  all_goals simp

@[simp] theorem State.recvRead_mem (s : State) (d : Nat) (p : NetPkt) : (s.recvRead d p).state.mem = s.mem := by
  simp only [State.recvRead]
  split
  · simp
  split
  · simp
  split
  · next hr => exact State.engRead_wait hr
  · simp
  · next hr => simp [State.engRead_bytes hr]

@[simp] theorem State.recvData_mem (s : State) (d x : Nat) (p : NetPkt) : (s.recvData d x p).state.mem = s.mem := by
  simp only [State.recvData]
  split
  · simp
  split
  · simp
  split <;> simp

/-- A packet is dealt with, or stays where it came from. -/
theorem leavesWf_dealt {q : Recv} (a : NetArr) (pkts : List (Nat × NetPkt)) : Memory.wf q.state.mem → LeavesWf (match q, a with
    | .took s2, _ => .next s2
    | .stay s2, .flight _ => .next { s2 with pkts := pkts }
    | .stay s2, .outside _ => .next s2) := fun h => by
  cases q <;> cases a <;> exact h

theorem execNetPacketArrival_memWf {s : State} (h : Memory.wf s.mem) (d : Nat) (a : NetArr)
    : LeavesWf (execNetPacketArrival d a s) := by
  simp only [execNetPacketArrival]
  split
  · exact h
  next s1 p hg =>
  have hm : s1.mem = s.mem := by
    split at hg
    · cases hg; rfl
    · split at hg
      · split at hg <;> cases hg
        rfl
      · cases hg
  split
  · simp [hm, h]
  split
  · simp [hm, h]
  · refine leavesWf_dealt a s.pkts ?_
    split <;> simp [hm, h]

end Sys2Proof.Machine
end

section
/-! SUPPORT. The same for the trees of names, the NSE, the command queues, the results of reads and the commit. -/

namespace Sys2Proof.Machine

/-! ### Names -/

@[simp] theorem State.csrWrite_mem (s : State) (c : Nat) (e : Eff) : (s.csrWrite c e).mem = s.mem := by
  simp only [State.csrWrite]
  split <;> simp

/-! ### Trees -/

/-- The state that a service of the NSE leaves, whichever way it answers. -/
def Ans.state : Ans → State
  | .ok s _ | .no s _ _ _ | .wait s => s

@[simp] theorem Ans.state_ok (s : State) (v : Word) : (Ans.ok s v).state = s := rfl
@[simp] theorem Ans.state_no (s : State) (cause sub : Nat) (info : Word) : (Ans.no s cause sub info).state = s := rfl
@[simp] theorem Ans.state_wait (s : State) : (Ans.wait s).state = s := rfl

@[simp] theorem State.newNode_mem (s : State) (k : Node) : (s.newNode k).1.mem = s.mem := rfl

@[simp] theorem State.addKid_mem (s : State) (dir : Nat) (name : List Byte) (n : Nat) : (s.addKid dir name n).mem = s.mem := rfl

@[simp] theorem State.grow_mem (s : State) (dir : Nat) (name : List Byte) (k : Node) : (s.grow dir name k).1.mem = s.mem := rfl

@[simp] theorem State.newObj_mem (s : State) (o : Obj) : (s.newObj o).1.mem = s.mem := rfl

@[simp] theorem State.growObj_mem (s : State) (dir : Nat) (name : List Byte) (k : Node) (o : Obj)
    : (s.growObj dir name k o).1.mem = s.mem := rfl

@[simp] theorem State.plantView_mem (s : State) (x pk : Nat) (v : Nat × List Byte × Nat × Nat)
    : (s.plantView x pk v).mem = s.mem := by
  simp only [State.plantView]
  split <;> simp

@[simp] theorem State.plant_mem (s : State) (x root : Nat) : (s.plant x root).mem = s.mem := by
  unfold State.plant
  simp only [State.growObj_mem, State.grow_mem]
  refine (foldl_mem (fun _ _ => State.plantView_mem ..) _ _).trans ?_
  simp only [State.grow_mem]
  refine (foldl_mem (fun _ _ => State.growObj_mem ..) _ _).trans ?_
  simp only [State.grow_mem]
  refine (foldl_mem (fun _ _ => State.growObj_mem ..) _ _).trans ?_
  simp only [State.growObj_mem, State.grow_mem]

@[simp] theorem State.openAs_mem (s : State) (x h n oid size rights : Nat) : (s.openAs x h n oid size rights).mem = s.mem := rfl

@[simp] theorem State.dropNode_mem (s : State) (n : Nat) : (s.dropNode n).mem = s.mem := rfl

@[simp] theorem State.dropFmt_mem (s : State) (n : Nat) : (s.dropFmt n).mem = s.mem := by
  unfold State.dropFmt
  exact foldl_mem (fun _ _ => State.dropNode_mem ..) _ _

@[simp] theorem State.emptyObj_memWf {s : State} (h : Memory.wf s.mem) (oid : Nat) : Memory.wf (s.emptyObj oid).mem :=
  s.zeroRange_memWf _ _ h

@[simp] theorem State.freeObj_memWf {s : State} (h : Memory.wf s.mem) (oid : Nat) : Memory.wf (s.freeObj oid).mem := by
  refine State.zeroRange_memWf _ _ _ ?_
  show Memory.wf _
  rw [foldl_mem fun _ _ => by simp]
  exact h

@[simp] theorem State.dropHandle_memWf {s : State} (h : Memory.wf s.mem) (x k : Nat) : Memory.wf (s.dropHandle x k).mem := by
  unfold State.dropHandle
  extract_lets d s1
  have h1 : Memory.wf s1.mem := h
  clear_value s1
  repeat' split
  all_goals simp [h1]

@[simp] theorem State.resolve_mem (s : State) (x : Nat) (base : Option Word) (path : List Byte) :
    (s.resolve x base path).state.mem = s.mem := by
  simp only [State.resolve]
  split
  · rfl
  split
  · rfl
  split <;> rfl

@[simp] theorem State.openNode_memWf {s : State} (h : Memory.wf s.mem) (x n rights : Nat) (tok : Word) :
    Memory.wf (s.openNode x n rights tok).state.mem := by
  simp only [State.openNode]
  split
  · exact h
  split
  · exact h
  split
  · split
    · exact h
    · rw [Ans.state_ok, State.openAs_mem]
      exact State.poke_memWf _ _ _ h
  · exact h

@[simp] theorem State.reused_mem (s : State) (need : Nat) : (s.reused need).1.mem = s.mem := by
  simp [State.reused, apply_ite Prod.fst]

@[simp] theorem State.create_mem (s : State) (x n size rights : Nat) (isLazy : Bool) (tok sizeW : Word) :
    (s.create x n size rights isLazy tok sizeW).state.mem = s.mem := by
  simp only [State.create]
  split
  · rfl
  split
  · rfl
  split
  · rfl
  rw [apply_ite Ans.state, Ans.state_ok, Ans.state_no, ite_mem, State.openAs_mem, ite_mem, State.growObj_mem, ite_self, State.grow_mem,
    State.newObj_mem, State.reused_mem, ite_self]

@[simp] theorem State.logBind_mem (s : State) (x flag : Nat) (new old : Word) (place : Nat)
    : (s.logBind x flag new old place).mem = s.mem := by
  simp [State.logBind]

@[simp] theorem State.bindDo_mem (s : State) (x m : Nat) (un : Bool) (new old : Word) :
    (s.bindDo x m un new old).state.mem = s.mem := by
  simp only [State.bindDo]
  split
  · rfl
  · rfl
  split
  · rfl
  split
  · rfl
  split
  · rfl
  split
  · split <;> simp
  · simp

@[simp] theorem State.makeGo_mem (s : State) (x n : Nat) (cs : List (Nat × List Byte)) : (s.makeGo x n cs).1.mem = s.mem := by
  induction cs generalizing s n with
  | nil => rfl
  | cons c cs ih =>
    simp only [State.makeGo]
    split
    · rfl
    split
    · split
      · exact ih ..
      split <;> rfl
    · simp [ih]

@[simp] theorem State.makePath_mem (s : State) (x n : Nat) (path : List Byte) : (s.makePath x n path).1.mem = s.mem := by
  simp only [State.makePath]
  split
  · rfl
  split
  · rfl
  · next cs _ _ s1 hr =>
    have hm := State.makeGo_mem s x (s.shown s.bindDepth n) cs
    rwa [hr] at hm

/-! ### System -/

@[simp] theorem State.modHead_mem (s : State) (c t : Nat) (f : Eff → Eff) : (s.modHead c t f).mem = s.mem := rfl

@[simp] theorem State.askHub_mem (s : State) (c t : Nat) (e : Eff) : (s.askHub c t e).state.mem = s.mem := by
  unfold State.askHub
  split
  · split <;> simp
  · rfl
  · simp only [Disp.state_done]
    split <;> simp
  · rfl

@[simp] theorem State.reply_mem (s : State) (f : Sys2Proof.Frame) (status sub : Nat) (token arg : Word) (data : List Byte) :
    (s.reply f status sub token arg data).mem = s.mem := rfl

@[simp] theorem State.answer_mem (s : State) (r : HubReq) (cause sub : Nat) (v : Word)
    : (s.answer r cause sub v).mem = s.mem := by
  unfold State.answer
  split <;> simp

@[simp] theorem State.shoot_mem (s : State) (x h : Nat) (close : Bool) : (s.shoot x h close).mem = s.mem := rfl

@[simp] theorem State.endShoot_memWf {s : State} (h : Memory.wf s.mem) (k : Shoot) : Memory.wf (s.endShoot k).mem := by
  unfold State.endShoot
  split
  · exact h
  extract_lets d s1 waits s2 closes s3
  have h1 : Memory.wf s1.mem := by
    rw [show s1.mem = s.mem from (ite_mem ..).trans (by simp)]
    exact h
  have h2 : Memory.wf s2.mem := h1
  have h3 : Memory.wf s3.mem := by
    rw [show s3.mem = if _ then _ else _ from ite_mem .., memWf_ite]
    simp [h2]
  rw [foldl_fst_mem]
  · exact h3
  · intro p r
    repeat' split
    all_goals simp

@[simp] theorem State.dropEntry_mem (s : State) (l st : Nat) : (s.dropEntry l st).mem = s.mem := by
  simp [State.dropEntry]

@[simp] theorem State.dropCopy_mem (s : State) (l st : Nat) : (s.dropCopy l st).mem = s.mem := by
  simp [State.dropCopy]

theorem execShootdownReceipt_memWf {s : State} (h : Memory.wf s.mem) (k st : Nat) : LeavesWf (execShootdownReceipt k st s) := by
  unfold execShootdownReceipt
  split <;> simp [h]

theorem execShootdownAck_memWf {s : State} (h : Memory.wf s.mem) (k st : Nat) : LeavesWf (execShootdownAck k st s) := by
  simp only [execShootdownAck]
  repeat' split
  all_goals simp [h]

/-- The state that the reading of a path leaves, whichever way it ends. -/
def PathRead.state : PathRead → State
  | .ok s _ | .no s _ _ _ | .wait s _ _ => s

@[simp] theorem PathRead.state_ok (s : State) (p : List Byte) : (PathRead.ok s p).state = s := rfl
@[simp] theorem PathRead.state_no (s : State) (cause sub : Nat) (info : Word) : (PathRead.no s cause sub info).state = s := rfl
@[simp] theorem PathRead.state_wait (s : State) (oid x : Nat) : (PathRead.wait s oid x).state = s := rfl

@[simp] theorem State.readPath_mem (c x : Nat) (p : Word) (f : Nat) (acc : List Byte) (s : State) :
    (State.readPath c x p f acc s).state.mem = s.mem := by
  induction f generalizing acc s with
  | zero => rfl
  | succ f ih =>
    simp only [State.readPath]
    split
    · rfl
    split
    · rfl
    split
    · rfl
    split
    · next hr => exact State.engRead_wait hr
    · rfl
    · next hr =>
      split
      · exact State.engRead_bytes hr
      · exact (ih ..).trans (State.engRead_bytes hr)

@[simp] theorem State.doWalk_mem (s : State) (r : HubReq) : (s.doWalk r).state.mem = s.mem := by
  simp only [State.doWalk]
  split
  · exact State.resolve_mem ..
  · have hp := State.readPath_mem r.e.core r.ctx r.e.va 1024 [] s
    split <;> next hr => rw [hr] at hp; simpa using hp

@[simp] theorem State.doOpen_memWf {s : State} (h : Memory.wf s.mem) (r : HubReq) : Memory.wf (s.doOpen r).state.mem := by
  unfold State.doOpen
  split
  · exact h
  split <;> simp [h]

@[simp] theorem State.hubWaits_mem (s : State) (k : Nat) (r : HubReq) : (s.hubWaits k r).mem = s.mem := rfl

@[simp] theorem State.doClose_memWf {s : State} (h : Memory.wf s.mem) (k : Nat) (r : HubReq)
    : Memory.wf (s.doClose k r).state.mem := by
  simp only [State.doClose]
  split
  · exact h
  split <;> simp [h]

@[simp] theorem State.doRevoke_mem (s : State) (k : Nat) (r : HubReq) : (s.doRevoke k r).state.mem = s.mem := by
  simp only [State.doRevoke]
  split <;> simp

@[simp] theorem State.doPmack_mem (s : State) (r : HubReq) : (s.doPmack r).state.mem = s.mem := by
  simp only [State.doPmack]
  split
  · rfl
  split
  · rfl
  · rw [Ans.state_ok, State.modCtx_mem, ite_mem]
    split <;> simp

@[simp] theorem State.doSstop_mem (s : State) (r : HubReq) : (s.doSstop r).state.mem = s.mem := by
  simp only [State.doSstop]
  repeat' split
  all_goals rfl

@[simp] theorem State.partw_mem (s : State) (tag name phys : Nat) (v : Bool) : (s.partw tag name phys v).mem = s.mem := by
  simp [State.partw]

@[simp] theorem State.doPartw_mem (s : State) (r : HubReq) : (s.doPartw r).state.mem = s.mem := State.partw_mem ..

@[simp] theorem State.doAttq_mem (s : State) (r : HubReq) : (s.doAttq r).state.mem = s.mem := by
  simp only [State.doAttq]
  split
  · exact State.oweCounter_mem ..
  · rfl

@[simp] theorem State.hubJoin_mem (s : State) (r : HubReq) : (s.hubJoin r).mem = s.mem := by
  simp [State.hubJoin, State.joinViews_mem]

@[simp] theorem State.hubDo_memWf {s : State} (h : Memory.wf s.mem) (k : Nat) (r : HubReq)
    : Memory.wf (s.hubDo k r).state.mem := by
  unfold State.hubDo
  split <;> simp [h]

@[simp] theorem State.dropHub_mem (s : State) (k : Nat) : (s.dropHub k).mem = s.mem := rfl

@[simp] theorem State.hubServe_memWf {s : State} (h : Memory.wf s.mem) (k : Nat) (r : HubReq)
    : Memory.wf (s.hubServe k r).mem := by
  unfold State.hubServe
  have hd := State.hubDo_memWf (s := s.hubJoin r) (by simpa using h) k r
  split <;> next hr => rw [hr] at hd; simpa using hd

theorem execNseAnswer_memWf {s : State} (h : Memory.wf s.mem) (k : Nat) : LeavesWf (execNseAnswer k s) := by
  simp only [execNseAnswer]
  repeat' split
  all_goals simp [h]

@[simp] theorem State.doTshoot_mem (s : State) (c t : Nat) (e : Eff) : (s.doTshoot c t e).state.mem = s.mem := by
  simp only [State.doTshoot]
  repeat' split
  all_goals simp

@[simp] theorem State.duoRestart_mem (s : State) (c t : Nat) : (s.duoRestart c t).mem = s.mem := by
  unfold State.duoRestart
  split <;> simp

@[simp] theorem State.tretReady_mem (s : State) (c t : Nat) (pc : Word) (vs : List View)
    : (s.tretReady c t pc vs).mem = s.mem := by
  simp only [State.tretReady]
  split <;> simp

@[simp] theorem State.assistElem_memWf {s : State} (h : Memory.wf s.mem) (c t : Nat) (v : Word)
    : Memory.wf (s.assistElem c t v).mem := by
  simp only [State.assistElem]
  repeat' split
  all_goals simp [h]

@[simp] theorem State.tretAssist_memWf {s : State} (h : Memory.wf s.mem) (c t : Nat) (v : Word) (vs : List View)
    : Memory.wf (s.tretAssist c t v vs).mem := by
  simp only [State.tretAssist]
  split <;> simp [h]

@[simp] theorem State.tretKill_mem (s : State) (c t : Nat) : (s.tretKill c t).mem = s.mem := by
  simp [State.tretKill]

@[simp] theorem State.doTret_memWf {s : State} (h : Memory.wf s.mem) (c t : Nat) (e : Eff)
    : Memory.wf (s.doTret c t e).state.mem := by
  simp only [State.doTret]
  split
  · exact h
  split
  · simp [h]
  split
  · exact h
  split
  · rw [Disp.state_done, ite_mem]
    split <;> simp [h]
  all_goals simp [h]

@[simp] theorem State.doHalt_mem (s : State) (c : Nat) : (s.doHalt c).mem = s.mem := rfl

@[simp] theorem State.sysEffect_memWf {s : State} (h : Memory.wf s.mem) (c t : Nat) (e : Eff)
    : Memory.wf (s.sysEffect c t e).state.mem := by
  unfold State.sysEffect
  split <;> simp [h]

/-! ### Queues -/

@[simp] theorem State.withQueue_memWf {s : State} (h : Memory.wf s.mem) (q : Nat) : Memory.wf (s.withQueue q).mem := by
  simp only [State.withQueue]
  split
  · exact h
  split
  · exact h
  · rw [State.modQueue_mem]
    refine State.poke_memWf _ _ _ (State.poke_memWf _ _ _ ?_)
    show Memory.wf _
    rw [State.grow_mem, State.grow_mem, State.grow_mem, State.newObj_mem, State.newObj_mem, State.newObj_mem]
    exact h

@[simp] theorem State.publish_mem (s : State) (q v : Nat) : (s.publish q v).mem = s.mem := by
  unfold State.publish
  rw [State.modQueue_mem, State.heat_mem, State.put_mem]

@[simp] theorem State.publishOwed_mem (s : State) (q : Nat) : (s.publishOwed q).mem = s.mem := by
  simp only [State.publishOwed]
  split
  · rw [ite_mem, State.publish_mem, ite_self]
  · rfl

@[simp] theorem State.setQState_memWf {s : State} (h : Memory.wf s.mem) (q v : Nat) : Memory.wf (s.setQState q v).mem :=
  s.poke_memWf _ _ h

@[simp] theorem State.packetFault_memWf {s : State} (h : Memory.wf s.mem) (q idx : Nat) (hdr : Word) (cause sub under : Nat)
    (ib : Option (Word × Nat)) : Memory.wf (s.packetFault q idx hdr cause sub under ib).mem := by
  unfold State.packetFault
  refine State.poke_memWf _ _ _ ?_
  show Memory.wf _
  rw [State.publish_mem]
  exact State.setQState_memWf (by exact h) _ _

@[simp] theorem State.queueGo_memWf {s : State} (h : Memory.wf s.mem) (q rst : Nat) : Memory.wf (s.queueGo q rst).mem := by
  unfold State.queueGo
  extract_lets s0 k s1
  have h1 : Memory.wf s1.mem := State.poke_memWf _ _ _ (State.withQueue_memWf h q)
  clear_value s1
  split
  · exact h
  split
  · exact h1
  split
  · exact h1
  · rw [State.publish_mem]
    exact State.setQState_memWf (by exact h1) _ _

theorem execQueueGo_memWf {s : State} (h : Memory.wf s.mem) (q rst : Nat) : LeavesWf (execQueueGo q rst s) := by
  simp [execQueueGo, h]

@[simp] theorem State.ctlWrite_memWf {s : State} (h : Memory.wf s.mem) (q off : Nat) (v : Word) (dev : Bool) :
    Memory.wf (s.ctlWrite q off v dev).1.mem := by
  unfold State.ctlWrite
  extract_lets s1 k
  have h1 : Memory.wf s1.mem := State.withQueue_memWf h q
  clear_value s1
  split
  · exact h
  split
  · exact h1
  split
  · split
    · exact State.queueGo_memWf h1 _ _
    · exact State.poke_memWf _ _ _ h1
  split
  · exact State.poke_memWf _ _ _ h1
  · exact h1

theorem execQueueCtlWrite_memWf {s : State} (h : Memory.wf s.mem) (q off : Nat) (v : Word) (dev : Bool)
    : LeavesWf (execQueueCtlWrite q off v dev s) := by
  simp [execQueueCtlWrite, h]

theorem State.hubRead_ok {s t : State} {q : Nat} {p : Word} {n align : Nat} {l : List Byte} (h : s.hubRead q p n align = .ok t l)
    : t.mem = s.mem := by
  simp only [State.hubRead] at h
  split at h
  · cases h
  split at h
  · cases h
  split at h
  · cases h
  split at h
  · cases h
  · cases h
  · next hr =>
    cases h
    exact State.engRead_bytes hr

theorem State.hubRead_wait {s t : State} {q : Nat} {p : Word} {n align : Nat} (h : s.hubRead q p n align = .wait t) :
    t.mem = s.mem := by
  simp only [State.hubRead] at h
  split at h
  · cases h
  split at h
  · cases h
  split at h
  · cases h
    exact State.report_mem ..
  split at h
  · next hr =>
    cases h
    exact State.engRead_wait hr
  · cases h
  · cases h

/-- The state that the parsing of a packet leaves, whichever way it ends. -/
def Parsed.state : Parsed → State
  | .ok s _ | .bad s _ _ | .wait s => s

@[simp] theorem Parsed.state_ok (s : State) (p : Pkt) : (Parsed.ok s p).state = s := rfl
@[simp] theorem Parsed.state_bad (s : State) (sub under : Nat) : (Parsed.bad s sub under).state = s := rfl
@[simp] theorem Parsed.state_wait (s : State) : (Parsed.wait s).state = s := rfl

@[simp] theorem State.parseOne_mem (s : State) (q : Nat) (b : List Byte) (inner : Nat) (p : Pkt) :
    (s.parseOne q b inner p).state.mem = s.mem := by
  simp only [State.parseOne]
  split
  · rfl
  split
  · rfl
  split
  · rfl
  split
  · rfl
  split
  · rfl
  split
  · repeat' split
    all_goals rfl
  split
  · rfl
  split
  · split
    · rfl
    · next hr => exact State.hubRead_wait hr
    · next hr => split <;> exact State.hubRead_ok hr
  split <;> rfl

/-- The same for the packets of a replay. -/
def ParsedAll.state : ParsedAll → State
  | .ok s _ | .bad s _ _ _ _ _ | .wait s => s

@[simp] theorem ParsedAll.state_ok (s : State) (l : List Pkt) : (ParsedAll.ok s l).state = s := rfl
@[simp] theorem ParsedAll.state_bad (s : State) (cause sub under : Nat) (ib : Option (Word × Nat)) (hdr : Word) :
    (ParsedAll.bad s cause sub under ib hdr).state = s := rfl
@[simp] theorem ParsedAll.state_wait (s : State) : (ParsedAll.wait s).state = s := rfl

@[simp] theorem State.parseBody_mem (s : State) (q : Nat) (body : List Byte) (ptr : Word) (p : Pkt) (l : List (Nat × Nat))
    (tag : Nat) (acc : List Pkt) : (s.parseBody q body ptr p l tag acc).state.mem = s.mem := by
  induction l generalizing s tag acc with
  | nil => rfl
  | cons x l ih =>
    simp only [State.parseBody]
    split <;> next hr =>
      have hp := (congrArg (fun r => r.state.mem) hr).symm.trans (State.parseOne_mem ..)
      simpa [ih] using hp

@[simp] theorem State.parseReplay_mem (s : State) (q : Nat) (p : Pkt) : (s.parseReplay q p).state.mem = s.mem := by
  simp only [State.parseReplay]
  split
  · rfl
  · next hr => exact State.hubRead_wait hr
  next s1 head h1 =>
  rw [← State.hubRead_ok h1]
  split
  · rfl
  split
  · rfl
  · next hr => exact State.hubRead_wait hr
  next s2 body h2 =>
  rw [← State.hubRead_ok h2]
  split
  · rfl
  · next hr =>
    split at hr
    · cases hr
    · exact State.hubRead_wait hr
  next s3 pl h3 =>
  have hm : s3.mem = s2.mem := by
    split at h3
    · cases h3; rfl
    · exact State.hubRead_ok h3
  rw [← hm]
  split
  · rfl
  split
  · rfl
  split
  · next s4 l hr => exact (congrArg (fun r => r.state.mem) hr).symm.trans (State.parseBody_mem ..)
  · exact State.parseBody_mem ..

@[simp] theorem State.parseAll_mem (s : State) (q : Nat) (b : List Byte) (inner : Nat) (p : Pkt) :
    (s.parseAll q b inner p).state.mem = s.mem := by
  simp only [State.parseAll]
  have hp := State.parseOne_mem s q b inner p
  split
  · next hr => rwa [hr] at hp
  · next hr => rwa [hr] at hp
  · next hr =>
    rw [hr] at hp
    split
    · exact hp
    split
    · next hr => exact (congrArg (fun r => r.state.mem) hr).symm.trans ((State.parseReplay_mem ..).trans hp)
    · exact (State.parseReplay_mem ..).trans hp

theorem execIbGranuleFetch_memWf {s : State} (h : Memory.wf s.mem) (q : Nat) : LeavesWf (execIbGranuleFetch q s) := by
  simp only [execIbGranuleFetch]
  repeat' split
  all_goals simp [h]

theorem execQueueHeaderRead_memWf {s : State} (h : Memory.wf s.mem) (q : Nat) : LeavesWf (execQueueHeaderRead q s) := by
  unfold execQueueHeaderRead
  extract_lets k l
  clear_value l k
  split
  · exact h
  split
  · simp [h]
  split
  · exact h
  split
  · split
    · exact h
    · extract_lets p
      split <;> rwa [leavesWf_next, State.modQueue_mem]
  by_cases hg : s.goneLoc l
  · rw [if_pos hg]
    rwa [leavesWf_next, State.report_mem]
  rw [if_neg hg]
  have h1 := State.readFwd_mem s (agQueue q) [] (locs l 8)
  generalize State.readFwd s (agQueue q) [] (locs l 8) = r at h1 ⊢
  obtain ⟨t, b, evs⟩ := r
  replace h1 : t.mem = s.mem := h1
  rw [← h1] at h
  simp only
  generalize hs : (t.joinEvents (agQueue q) 4 evs).heat (agQueue q) l false = s2
  have h2 : Memory.wf s2.mem := by
    rw [← hs, State.heat_mem, State.joinEvents_mem]
    exact h
  clear hs
  split
  · rwa [leavesWf_next, State.modQueue_mem]
  split
  · rwa [leavesWf_next, State.publish_mem]
  · exact h2

/-- A read of the hub's leaves memory as `s` has it. -/
def HubRead.SameMem (s : State) : HubRead → Prop
  | .ok t _ | .wait t => t.mem = s.mem
  | .no _ => True

theorem State.ringBytes_sameMem (s : State) (q u n : Nat) : HubRead.SameMem s (s.ringBytes q u n) := by
  induction n with
  | zero =>
    rw [State.ringBytes]
    exact rfl
  | succ n ih =>
    rw [State.ringBytes]
    -- The kernel must not compute the read: it is named before the cases on it.
    obtain ⟨read, hread⟩ : ∃ f, f = State.engRead := ⟨_, rfl⟩
    rw [← hread]
    split
    · next hr =>
      rw [hr] at ih
      split
      · next hr => exact (State.engRead_wait (hread ▸ hr)).trans ih
      · trivial
      · next hr => exact (State.engRead_bytes (hread ▸ hr)).trans ih
    · exact ih

@[simp] theorem State.acceptPkts_mem (s : State) (q units : Nat) (b : List Byte) (ib : Option Pkt) (l : List Pkt)
    : (s.acceptPkts q units b ib l).mem = s.mem := by
  simp only [State.acceptPkts]
  split <;> simp

/-- What `execPacketParse` does with the bytes it has. -/
def State.takePacket (q n : Nat) (st : State) (b : List Byte) (inner : Nat) (ib : Option Pkt) (p : Pkt) : State :=
  if !checkOk b then st.packetFault q p.idx (wordAt b 0) 0x81 0 0 p.ib
  else match st.parseAll q b inner p with
    | .wait s1 => s1
    | .bad s1 c sub under w h => s1.packetFault q p.idx h c sub under w
    | .ok s1 l => s1.acceptPkts q n b ib l

theorem State.takePacket_memWf {s : State} (h : Memory.wf s.mem) (q n : Nat) (b : List Byte) (inner : Nat) (ib : Option Pkt)
    (p : Pkt) : Memory.wf (State.takePacket q n s b inner ib p).mem := by
  unfold State.takePacket
  split
  · simp [h]
  have hp : Memory.wf (s.parseAll q b inner p).state.mem := by rwa [State.parseAll_mem]
  split
  · next hr => rwa [hr] at hp
  · next hr =>
    rw [hr] at hp
    exact State.packetFault_memWf hp ..
  · next hr =>
    rw [hr] at hp
    rwa [State.acceptPkts_mem]

theorem execPacketParse_memWf {s : State} (h : Memory.wf s.mem) (q : Nat) : LeavesWf (execPacketParse q s) := by
  unfold execPacketParse
  extract_lets k n p0 take
  have ht {st : State} (hs : Memory.wf st.mem) (b inner ib p) : Memory.wf (take st b inner ib p).mem :=
    State.takePacket_memWf hs q n b inner ib p
  clear_value take
  split
  · exact h
  split
  · extract_lets p
    repeat' split
    all_goals simp [h, ht]
  split
  · simp [h]
  have hb := State.ringBytes_sameMem s q k.c n
  split
  · next hr =>
    rw [hr] at hb
    exact (congrArg (fun m => Memory.wf m = true) hb).mpr h
  · simp [h]
  · next hr =>
    rw [hr] at hb
    exact ht ((congrArg (fun m => Memory.wf m = true) hb).mpr h) ..

theorem execParserCoreFault_memWf {s : State} (h : Memory.wf s.mem) (q : Nat) : LeavesWf (execParserCoreFault q s) := by
  unfold execParserCoreFault
  split <;> simp [h]

/-! ### Results -/

@[simp] theorem State.setRes_mem (s : State) (c t k : Nat) (r : LRes) : (s.setRes c t k r).mem = s.mem := rfl

theorem execLoadReadStep_memWf {s : State} (h : Memory.wf s.mem) (c t k : Nat) : LeavesWf (execLoadReadStep c t k s) := by
  simp only [execLoadReadStep]
  repeat' split
  all_goals simp [h]

@[simp] theorem State.storeNow_mem (s : State) (c t : Nat) (g : Group) (e : Eff) : (s.storeNow c t g e).mem = s.mem := by
  simp only [State.storeNow]
  refine (foldl_mem (fun _ _ => ?_) _ _).trans (foldl_mem (fun _ _ => State.modThr_mem ..) _ _)
  rw [State.heat_mem, State.asPiece_mem, State.putMem_mem]

theorem execAtomicStep_memWf {s : State} (h : Memory.wf s.mem) (c t k : Nat) : LeavesWf (execAtomicStep c t k s) := by
  simp only [execAtomicStep]
  repeat' split
  all_goals simp [h]

@[simp] theorem State.setRet_mem (s : State) (c t k : Nat) (r : LRes) (v : LVal) : (s.setRet c t k r v).mem = s.mem := rfl

@[simp] theorem State.retTrap_mem (s : State) (c t k : Nat) (r : LRes) (cause sub : Nat) (info : Word)
    : (s.retTrap c t k r cause sub info).mem = s.mem := rfl

@[simp] theorem State.retRind_mem (s : State) (c t k : Nat) (r : LRes) (v rind : Word)
    : (s.retRind c t k r v rind).mem = s.mem := by
  simp [State.retRind]

@[simp] theorem State.rindReturn_mem (s : State) (c t k : Nat) (rind : Word) : (s.rindReturn c t k rind).mem = s.mem := by
  simp only [State.rindReturn]
  repeat' split
  all_goals simp

@[simp] theorem State.retField_mem (s : State) (c t k : Nat) (r : LRes) (n lo w v : Nat)
    : (s.retField c t k r n lo w v).mem = s.mem := by
  simp [State.retField]

@[simp] theorem State.retData_mem (s : State) (c t k op : Nat) (r : LRes) (l : List Byte) (n : Bool)
    : (s.retData c t k op r l n).mem = s.mem := rfl

@[simp] theorem State.retCheck_mem (s : State) (c t k op : Nat) (r : LRes) (l : List Byte) (n : Bool) (ok : Try Unit)
    : (s.retCheck c t k op r l n ok).mem = s.mem := by
  unfold State.retCheck
  split <;> simp

@[simp] theorem State.retLaunch_mem (s : State) (c t k : Nat) (r : LRes) (l : List Byte)
    : (s.retLaunch c t k r l).mem = s.mem := by
  simp [State.retLaunch]

@[simp] theorem State.retPush_mem (s : State) (c t k : Nat) (r : LRes) (l : List Byte) : (s.retPush c t k r l).mem = s.mem := by
  simp only [State.retPush]
  split <;> simp

@[simp] theorem State.retRecord_mem (s : State) (c t k op : Nat) (r : LRes) (l : List Byte)
    : (s.retRecord c t k op r l).mem = s.mem := by
  unfold State.retRecord
  split <;> simp

@[simp] theorem State.loseFor_mem (s : State) (c t : Nat) (sub : Bool) : (s.loseFor c t sub).mem = s.mem := by
  simp [State.loseFor]

@[simp] theorem State.retLoad_mem (s : State) (c t k : Nat) (r : LRes) (cv : Conv) : (s.retLoad c t k r cv).mem = s.mem := by
  unfold State.retLoad
  split <;> simp

@[simp] theorem State.retWait_memWf {s : State} (h : Memory.wf s.mem) (c t k : Nat) (r : LRes) (done : List Byte → Bool)
    (err : List Byte → Option Nat) : Memory.wf (s.retWait c t k r done err).mem := by
  simp only [State.retWait]
  repeat' split
  all_goals simp [h]

theorem execResultReturn_memWf {s : State} (h : Memory.wf s.mem) (c t k : Nat) : LeavesWf (execResultReturn c t k s) := by
  simp only [execResultReturn]
  repeat' split
  all_goals simp [h]

/-! ### Commit -/

@[simp] theorem State.assistThread_mem (s : State) (c t pos : Nat) (head : Word)
    : (s.assistThread c t pos head).mem = s.mem := rfl

@[simp] theorem State.dropMate_mem (s : State) (c t : Nat) : (s.dropMate c t).mem = s.mem := by
  simp only [State.dropMate]
  repeat' split
  all_goals simp

@[simp] theorem State.assistLater_mem (s : State) (c t : Nat) (head : Word) : (s.assistLater c t head).mem = s.mem := rfl

@[simp] theorem State.takeTrap_mem (s : State) (c t pos cause sub : Nat) (pc info resume : Word)
    : (s.takeTrap c t pos cause sub pc info resume).mem = s.mem := by
  simp [State.takeTrap]

@[simp] theorem State.dropThread_mem (s : State) (c t : Nat) (n : NotPres) (pc : Word)
    : (s.dropThread c t n pc).mem = s.mem := rfl

@[simp] theorem State.stopAfter_mem (s : State) (c t : Nat) (post : Post) : (s.stopAfter c t post).mem = s.mem := by
  simp only [State.stopAfter]
  split <;> simp

@[simp] theorem State.awaitBar_mem (s : State) (c t lvl : Nat) : (s.awaitBar c t lvl).mem = s.mem := by
  simp [State.awaitBar]

@[simp] theorem State.awaitVote_mem (s : State) (c t : Nat) (post : Post) : (s.awaitVote c t post).mem = s.mem := rfl

@[simp] theorem State.endWith_mem (s : State) (c t : Nat) : (s.endWith c t).mem = s.mem := by
  simp [State.endWith]

@[simp] theorem State.afterCommit_mem (s : State) (c t : Nat) (post : Post) : (s.afterCommit c t post).mem = s.mem := by
  unfold State.afterCommit
  split <;> simp

@[simp] theorem State.afterRefusal_mem (s : State) (c t : Nat) (l : Late) (count : Nat) (post : Post)
    : (s.afterRefusal c t l count post).mem = s.mem := by
  simp only [State.afterRefusal]
  split <;> simp

@[simp] theorem State.finish_mem (s : State) (c t : Nat) : (s.finish c t).mem = s.mem := by
  simp only [State.finish]
  split <;> simp

@[simp] theorem State.storeEff_mem (s : State) (c t : Nat) (e : Eff) (rel : Option Nat)
    : (s.storeEff c t e rel).mem = s.mem := rfl

@[simp] theorem State.fenceEff_mem (s : State) (c t : Nat) (e : Eff) : (s.fenceEff c t e).state.mem = s.mem := by
  simp only [State.fenceEff]
  split
  · rfl
  · split <;> simp
  · simp

@[simp] theorem State.sendEff_mem (s : State) (c t : Nat) (e : Eff) : (s.sendEff c t e).state.mem = s.mem := by
  simp only [State.sendEff]
  repeat' split
  all_goals simp

@[simp] theorem State.emptyEff_mem (s : State) (c t : Nat) (e : Eff) : (s.emptyEff c t e).mem = s.mem := by
  simp [State.emptyEff]

@[simp] theorem State.keepViews_mem (s : State) (c t : Nat) : (s.keepViews c t).mem = s.mem := rfl

@[simp] theorem State.migEff_mem (s : State) (c t : Nat) (e : Eff) : (s.migEff c t e).state.mem = s.mem := by
  unfold State.migEff
  extract_lets x tag target
  clear_value target
  repeat' split
  all_goals simp

@[simp] theorem State.castEff_mem (s : State) (c : Nat) (e : Eff) : (s.castEff c e).mem = s.mem := by
  simp [State.castEff]

@[simp] theorem State.pushEff_mem (s : State) (c t : Nat) (e : Eff) : (s.pushEff c t e).state.mem = s.mem := by
  simp only [State.pushEff]
  split
  · rfl
  split <;> simp [State.startTask_mem]

@[simp] theorem State.baraEff_mem (s : State) (c t : Nat) (e : Eff) : (s.baraEff c t e).state.mem = s.mem := by
  simp only [State.baraEff]
  split <;> simp

@[simp] theorem State.tileEff_mem {f : State → Disp} (hf : ∀ s, (f s).state.mem = s.mem) (s : State) (c n x : Nat) :
    (s.tileEff c n x f).state.mem = s.mem := by
  unfold State.tileEff
  split
  · exact hf s
  · rfl

@[simp] theorem State.giveEff_mem (s : State) (c t : Nat) (e : Eff) (x : Nat) : (s.giveEff c t e x).state.mem = s.mem := by
  simp only [State.giveEff]
  split <;> rfl

@[simp] theorem State.relTile_mem (s : State) (cl n : Nat) : (s.relTile cl n).mem = s.mem := rfl

@[simp] theorem State.unitEff_memWf {s : State} (h : Memory.wf s.mem) (c t : Nat) (e : Eff)
    : Memory.wf (s.unitEff c t e).state.mem := by
  unfold State.unitEff
  split
  · simpa using h
  split
  · exact State.vecDispatch_memWf h ..
  · exact State.sysEffect_memWf h ..

@[simp] theorem State.effect_memWf {s : State} (h : Memory.wf s.mem) (c t : Nat) (e : Eff)
    : Memory.wf (s.effect c t e).state.mem := by
  simp only [State.effect]
  split
  case h_26 =>
    rw [State.tileEff_mem]
    · exact h
    · exact fun _ => State.relTile_mem ..
  case h_28 =>
    rw [State.tileEff_mem]
    · exact h
    · exact fun _ => rfl
  case h_30 => exact State.unitEff_memWf h ..
  all_goals simp [h, State.joinViews_mem]

@[simp] theorem State.effectChecked_memWf {s : State} (h : Memory.wf s.mem) (c t : Nat) (e : Eff) :
    Memory.wf (s.effectChecked c t e).state.mem := by
  unfold State.effectChecked
  split
  · exact h
  · exact State.effect_memWf h ..

@[simp] theorem State.runS5_memWf {s : State} (h : Memory.wf s.mem) (c t f : Nat) : Memory.wf (State.runS5 c t f s).mem := by
  induction f generalizing s with
  | zero => exact h
  | succ f ih =>
    unfold State.runS5
    split
    · simpa using h
    next e l _ =>
    have he := State.effectChecked_memWf h c t e
    split
    · next hr =>
      rw [hr] at he
      exact ih he
    · next hr => rwa [hr] at he
    · next hr =>
      rw [hr] at he
      exact ih he

@[simp] theorem State.step5_memWf {s : State} (h : Memory.wf s.mem) (c t : Nat) : Memory.wf (s.step5 c t).mem := by
  simp [State.step5, h]

theorem execCommitStep5Resume_memWf {s : State} (h : Memory.wf s.mem) (c t : Nat) : LeavesWf (execCommitStep5Resume c t s) := by
  unfold execCommitStep5Resume
  split <;> simp [h]

@[simp] theorem State.writeRes_mem (s : State) (c t : Nat) (g : Group) (r : LRes) : (s.writeRes c t g r).mem = s.mem := by
  unfold State.writeRes
  split <;> simp

@[simp] theorem State.popComp_mem (s : State) (c t : Nat) (r : LRes) : (s.popComp c t r).mem = s.mem := by
  simp [State.popComp]

@[simp] theorem State.commitAt_mem (c t : Nat) (g : Group) (s : State) (pos : Nat)
    : (State.commitAt c t g s pos).mem = s.mem := by
  simp only [State.commitAt]
  refine (foldl_mem (fun _ _ => ?_) _ _).trans (foldl_mem (fun _ _ => State.modThr_mem ..) _ _)
  rw [State.popComp_mem, State.writeRes_mem]

@[simp] theorem State.commitGroup_memWf {s : State} (h : Memory.wf s.mem) (c t : Nat) (g : Group) (post : Post)
    : Memory.wf (s.commitGroup c t g post).mem := by
  simp [State.commitGroup, h]

@[simp] theorem State.commitCut_memWf {s : State} (h : Memory.wf s.mem) (c t p : Nat) (pc : Word) (post : Post)
    : Memory.wf (s.commitCut c t p pc post).mem := by
  simp [State.commitCut, h]

@[simp] theorem State.rindGroup_memWf {s : State} (h : Memory.wf s.mem) (c t : Nat) (g : Group) (pos : Nat) (pc : Word)
    : Memory.wf (s.rindGroup c t g pos pc).mem := by
  simp [State.rindGroup, h]

@[simp] theorem State.discardGroup_memWf {s : State} (h : Memory.wf s.mem) (c t : Nat) (g : Group)
    : Memory.wf (s.discardGroup c t g).mem := by
  unfold State.discardGroup
  split <;> simp [h]

@[simp] theorem State.cutGroup_memWf {s : State} (h : Memory.wf s.mem) (c t : Nat) (g : Group) (p : Nat)
    : Memory.wf (s.cutGroup c t g p).mem := by
  unfold State.cutGroup
  split <;> simp [h]

@[simp] theorem State.commit_memWf {s : State} (h : Memory.wf s.mem) (c t : Nat) : Memory.wf (s.commit c t).mem := by
  simp only [State.commit]
  split <;> simp [h]

theorem execGroupCommit_memWf {s : State} (h : Memory.wf s.mem) (c t : Nat) (rind : Option (Nat × Word))
    : LeavesWf (execGroupCommit c t rind s) := by
  simp only [execGroupCommit]
  repeat' split
  all_goals simp [h]

end Sys2Proof.Machine
end

section
/-! SUPPORT. The same for partitions, reliability, the boot, the deliveries, extents, packets and frames. -/

namespace Sys2Proof.Machine

/-! ### Partitions -/

@[simp] theorem State.answerSup_mem (s : State) (r : SupReq) (status : Nat) : (s.answerSup r status).mem = s.mem := rfl

theorem State.readBitmap_names {s t : State} {p : Word} {l : List Nat} (h : s.readBitmap p = .names t l) : t.mem = s.mem := by
  simp only [State.readBitmap] at h
  split at h
  · cases h
  split at h
  · cases h
  · cases h
  · cases h
  split at h
  · cases h
  · next hr =>
    split at h <;> cases h
    exact State.readAll_mem hr

theorem State.readBitmap_wait {s t : State} {p : Word} (h : s.readBitmap p = .wait t) : t.mem = s.mem := by
  simp only [State.readBitmap] at h
  split at h
  · cases h
  split at h
  · cases h
  · cases h
    exact State.report_mem ..
  · cases h
    rfl
  split at h
  · cases h
  · split at h <;> cases h

@[simp] theorem State.mapAll_mem (s : State) (tag : Nat) (l : List (Nat × Nat)) : (s.mapAll tag l).mem = s.mem := by
  simp [State.mapAll]

@[simp] theorem State.unmapCore_mem (s : State) (tag n : Nat) : (s.unmapCore tag n).mem = s.mem := by
  unfold State.unmapCore
  split <;> simp

@[simp] theorem State.setShares_mem (s : State) (r : SupReq) (names : List Nat) : (s.setShares r names).mem = s.mem := rfl

@[simp] theorem State.dropPart_mem (s : State) (tag : Nat) : (s.dropPart tag).mem = s.mem := by
  simp [State.dropPart]

@[simp] theorem State.settlePending_mem (s : State) (tag : Nat) : (s.settlePending tag).mem = s.mem := by
  simp only [State.settlePending]
  repeat' split
  all_goals simp

theorem execSetPartition_memWf {s : State} (h : Memory.wf s.mem) (r : SupReq) : LeavesWf (execSetPartition r s) := by
  simp only [execSetPartition]
  split
  · exact h
  split
  · simp [h]
  split
  · simp [h]
  split
  · next hr => rwa [leavesWf_next, State.readBitmap_wait hr]
  · simp [h]
  · next s0 names hr =>
    rw [← State.readBitmap_names hr] at h
    split
    · rw [leavesWf_next, ite_mem]
      simp [h]
    split
    · simp [h]
    split <;> simp [h]

theorem execRemovePartition_memWf {s : State} (h : Memory.wf s.mem) (r : SupReq) : LeavesWf (execRemovePartition r s) := by
  simp only [execRemovePartition]
  repeat' split
  all_goals simp [h]

theorem execSliceExpiry_memWf {s : State} (h : Memory.wf s.mem) (tag : Nat) : LeavesWf (execSliceExpiry tag s) := by
  simp only [execSliceExpiry]
  split <;> simp [h]

@[simp] theorem State.setStop_mem (s : State) (k : Nat) (q : Stop) : (s.setStop k q).mem = s.mem := rfl

theorem execStopAnnouncement_memWf {s : State} (h : Memory.wf s.mem) (k : Nat) : LeavesWf (execStopAnnouncement k s) := by
  simp only [execStopAnnouncement]
  repeat' split
  all_goals simp [h]

theorem State.capture_memWf {s : State} (h : Memory.wf s.mem) (c t : Nat) : ∀ u ∈ s.capture c t, Memory.wf u.mem := by
  simp only [State.capture]
  repeat' split
  all_goals simp [h]

theorem State.captureAll_memWf {s : State} (h : Memory.wf s.mem) (cs : List Nat) : ∀ u ∈ s.captureAll cs, Memory.wf u.mem := by
  unfold State.captureAll
  generalize (cs.flatMap fun c => (List.range 8).map fun t => (c, t)) = l
  suffices key : ∀ (l : List (Nat × Nat)) (a : Option State), (∀ u ∈ a, Memory.wf u.mem) →
      ∀ u ∈ l.foldl (fun (a : Option State) p => a.bind fun st => st.capture p.1 p.2) a, Memory.wf u.mem from
    key l (some s) fun u hu => by rwa [← Option.some.inj hu]
  intro l
  induction l with
  | nil => exact fun a ha => ha
  | cons p l ih =>
    intro a ha
    refine ih _ fun u hu => ?_
    obtain ⟨v, hv, hu⟩ := Option.bind_eq_some_iff.mp hu
    exact State.capture_memWf (ha v hv) _ _ u hu

theorem execSyncStop_memWf {s : State} (h : Memory.wf s.mem) (k : Nat) : LeavesWf (execSyncStop k s) := by
  simp only [execSyncStop]
  split
  · exact h
  split
  · exact h
  split
  · exact h
  · next hr =>
    rw [leavesWf_next, State.setStop_mem, foldl_mem fun _ _ => State.modCore_mem ..]
    exact State.captureAll_memWf h _ _ hr

theorem execFlushToken_memWf {s : State} (h : Memory.wf s.mem) (k d : Nat) : LeavesWf (execFlushToken k d s) := by
  simp only [execFlushToken]
  split
  · exact h
  split
  · exact h
  · rw [leavesWf_next, State.setStop_mem, foldl_mem fun _ _ => State.modThr_mem ..]
    exact h

@[simp] theorem State.writeSave_memWf {s : State} (h : Memory.wf s.mem) (v : Save) (tag : Nat) (p : Word) :
    Memory.wf (s.writeSave v tag p).1.mem := by
  simp only [State.writeSave]
  split
  · exact State.blit_memWf _ _ _ h
  · split <;> exact h

@[simp] theorem State.damaged_mem (s : State) (v : Save) (tag : Nat) : (s.damaged v tag).mem = s.mem := rfl

@[simp] theorem State.mem_freeCores (s : State) (cs : List Nat) : (s.freeCores_ cs).mem = s.mem := by
  simp [State.freeCores_]

theorem execPartitionSave_memWf {s : State} (h : Memory.wf s.mem) (k : Nat) (bad : List Nat)
    : LeavesWf (execPartitionSave k bad s) := by
  simp only [execPartitionSave]
  repeat' split
  all_goals simp [h]

@[simp] theorem State.markLost_memWf {s : State} (h : Memory.wf s.mem) (tag : Nat) (v : Save) :
    Memory.wf (s.markLost tag v).1.mem := by
  simp only [State.markLost]
  split
  · exact h
  · rw [State.damaged_mem]
    exact State.blit_memWf _ _ _ h

@[simp] theorem State.putCore_mem (s : State) (m : Relo) (tag : Nat) (v : SecCore) (good : Bool)
    : (s.putCore m tag v good).mem = s.mem := by
  simp [State.putCore]

@[simp] theorem State.againDuos_mem (s : State) (m : Relo) (v : SecCore) : (s.againDuos m v).mem = s.mem := by
  simp only [State.againDuos]
  refine foldl_mem (fun _ _ => ?_) _ _
  split <;> simp

@[simp] theorem State.endLaunches_mem (s : State) (x cause : Nat) (all : Bool) : (s.endLaunches x cause all).mem = s.mem := by
  simp [State.endLaunches]

@[simp] theorem State.moveViews_mem (s : State) (m : Relo) (seen : Nat) : (s.moveViews m seen).mem = s.mem := rfl

@[simp] theorem State.joinLadles_mem (s : State) (m : Relo) (v : Save) : (s.joinLadles m v).mem = s.mem := by
  simp [State.joinLadles]

@[simp] theorem State.putBack_memWf {s : State} (h : Memory.wf s.mem) (m : Relo) (tag : Nat) (v : Save) :
    Memory.wf (s.putBack m tag v).mem := by
  unfold State.putBack
  extract_lets nc okCore okClu okDie cores clus dies good s1 s2 s3 s3a s4 s5 okAt s6 lost hit s7 s8 s9 seen ags
  have h1 : Memory.wf s1.mem := State.putBytes_memWf _ _ _ _ h
  have h3 : s3.mem = s2.mem := foldl_mem (fun _ _ => by split <;> rfl) _ _
  have h3a : s3a.mem = s3.mem := foldl_mem (fun _ _ => State.putCore_mem ..) _ _
  have h4 : s4.mem = s3a.mem := foldl_mem (fun _ _ => State.againDuos_mem ..) _ _
  have h5 : s5.mem = s4.mem := foldl_mem (fun _ _ => by split <;> rfl) _ _
  have h7 : s7.mem = s6.mem := foldl_mem (fun _ _ => State.endLaunch_mem ..) _ _
  have h8 : s8.mem = s7.mem := (ite_mem ..).trans (by rw [State.endLaunches_mem, ite_self])
  have h9 : s9.mem = s8.mem := foldl_mem (fun _ _ => State.endLaunch_mem ..) _ _
  rw [State.joinLadles_mem, State.moveViews_mem]
  show Memory.wf s9.mem
  rw [h9, h8, h7]
  show Memory.wf s5.mem
  rw [h5, h4, h3a, h3]
  exact h1

@[simp] theorem State.releaseHeld_mem (s : State) (m : Relo) (x : Nat) : (s.releaseHeld m x).mem = s.mem := rfl

@[simp] theorem State.endCoreStop_mem (s : State) (c r : Nat) (v : Save) : (s.endCoreStop c r v).mem = s.mem := rfl

@[simp] theorem State.restoreCore_memWf {s : State} (h : Memory.wf s.mem) (key : Nat) (v : Save) (cores : List (Nat × Nat)) :
    Memory.wf (s.restoreCore key v cores).mem := by
  unfold State.restoreCore
  split
  · extract_lets tag m seen k s0 s1 s2 s3
    have h1 : Memory.wf s1.mem := State.moveCore_memWf _ _ _
    have h2 : Memory.wf s2.mem := by
      rw [show s2.mem = if _ then _ else _ from ite_mem .., memWf_ite, State.takeLogs_mem, State.againDuos_mem, State.putCore_mem]
      rw [show Memory.wf s1.mem = true from h1, show Memory.wf (s1.putBytes m v fun _ => true).mem = true from State.putBytes_memWf _ _ _ _ h1]
      exact ite_self _
    rw [State.endCoreStop_mem]
    exact h2
  · exact h

theorem execPartitionRestore_memWf {s : State} (h : Memory.wf s.mem) (tag : Nat) (cores : List (Nat × Nat)) :
    LeavesWf (execPartitionRestore tag cores s) := by
  unfold execPartitionRestore
  extract_lets v old p m s0 s1 s2 s3
  have h1 : Memory.wf s1.mem := by
    rw [show s1.mem = s.mem from (State.mapAll_mem ..).trans (foldl_mem (fun _ _ => State.modPart_mem ..) _ _)]
    exact h
  clear_value s1
  have h2 : Memory.wf s2.mem := by
    rw [show s2.mem = if _ then _ else _ from ite_mem .., memWf_ite, ite_mem, memWf_ite]
    simp [h1]
  split
  · split
    · exact h
    · exact State.restoreCore_memWf h _ _ _
  split
  · exact h
  split
  · exact h
  · rw [leavesWf_next, foldl_mem fun _ _ => State.modCore_mem ..]
    show Memory.wf s3.mem
    rwa [show s3.mem = s2.mem from (State.modPart_mem ..).trans (State.releaseHeld_mem ..)]

@[simp] theorem State.renewDue_mem (s : State) (x stop : Nat) : (s.renewDue x stop).mem = s.mem := by
  simp [State.renewDue]

theorem execPartitionResume_memWf {s : State} (h : Memory.wf s.mem) (tag : Nat) : LeavesWf (execPartitionResume tag s) := by
  simp only [execPartitionResume]
  split
  · split <;> simp [h]
  split
  · exact h
  split
  · rw [leavesWf_next, ite_mem]
    simp [h]
  · rw [leavesWf_next, State.renewDue_mem, State.settlePending_mem, State.modPart_mem, foldl_mem fun _ _ => State.modCore_mem ..]
    exact h

@[simp] theorem State.dropSave_memWf {s : State} (h : Memory.wf s.mem) (tag : Nat) (v : Save)
    : Memory.wf (s.dropSave tag v).mem := by
  simp [State.dropSave, h]

@[simp] theorem State.convert_memWf {s : State} (h : Memory.wf s.mem) (tag ver : Nat) (v : Save)
    : Memory.wf (s.convert tag ver v).mem := by
  simp only [State.convert]
  split
  · exact h
  · exact State.blit_memWf _ _ _ h

/-! ### Reliability -/

@[simp] theorem State.wearOut_mem (s : State) (ch : Nat) (p : Nat → Bool) : (s.wearOut ch p).mem = s.mem := rfl

@[simp] theorem State.loseCap_mem (s : State) (u : Nat) : (s.loseCap u).mem = s.mem := by
  simp [State.loseCap]

theorem execGraderSignature_memWf {s : State} (h : Memory.wf s.mem) (ch bank row col : Nat) :
    LeavesWf (execGraderSignature ch bank row col s) := by
  unfold execGraderSignature
  extract_lets u all ring
  split
  · exact h
  · refine State.bump_memWf ?_ _ _ _
    split <;> simp [h]

@[simp] theorem State.beginLease_mem (s : State) (u : Nat) (moved : List (Nat × Nat × Nat × Nat × Nat))
    : (s.beginLease u moved).mem = s.mem := by
  simp [State.beginLease]

@[simp] theorem State.planLease_mem (s : State) (u : Nat) : (s.planLease u).mem = s.mem := by
  simp [State.planLease]

@[simp] theorem State.withdrawCore_memWf {s : State} (h : Memory.wf s.mem) (u c : Nat) : Memory.wf (s.withdrawCore u c).mem := by
  simp only [State.withdrawCore]
  split
  · exact h
  split
  · split <;> exact h
  split
  · exact h
  split
  · exact h
  · rw [State.beginLease_mem, State.modCore_mem, State.modUnit_mem, State.endCoreStop_mem, State.takeLogs_mem]
    exact State.moveCore_memWf _ _ _

theorem execFallowLeaseStart_memWf {s : State} (h : Memory.wf s.mem) (u : Nat) : LeavesWf (execFallowLeaseStart u s) := by
  simp only [execFallowLeaseStart]
  split
  · exact h
  split
  · simp [h]
  split
  · split
    · exact h
    split
    · split <;> simp [h]
    · simp [h]
  · rw [leavesWf_next, ite_mem]
    simp [h]
  · rw [leavesWf_next, ite_mem]
    simp [h]
  · split
    · exact h
    · simp [h]
  · split
    · exact h
    · next hr =>
      rw [leavesWf_next, State.beginLease_mem, State.clearChannel_mem hr]
      exact h
  · simp [h]
  · exact h

@[simp] theorem State.returnUnit_mem (s : State) (u : Nat) (l : Lease) : (s.returnUnit u l).mem = s.mem := by
  unfold State.returnUnit
  split <;> simp

theorem execFallowLeaseEnd_memWf {s : State} (h : Memory.wf s.mem) (u : Nat) (pass : Bool)
    : LeavesWf (execFallowLeaseEnd u pass s) := by
  simp only [execFallowLeaseEnd]
  repeat' split
  all_goals simp [h]

theorem execChannelLeaseWaitRecord_memWf {s : State} (h : Memory.wf s.mem) (u : Nat)
    : LeavesWf (execChannelLeaseWaitRecord u s) := by
  unfold execChannelLeaseWaitRecord
  split <;> simp [h]

theorem execScoreDecay_memWf {s : State} (h : Memory.wf s.mem) (u : Nat) : LeavesWf (execScoreDecay u s) := by
  simp only [execScoreDecay]
  split <;> simp [h]

theorem execPmackDeadlineExpiry_memWf {s : State} (h : Memory.wf s.mem) (x : Nat) : LeavesWf (execPmackDeadlineExpiry x s) := by
  simp only [execPmackDeadlineExpiry]
  repeat' split
  all_goals simp [h]

@[simp] theorem State.commitLog_mem (s : State) (c t : Nat) : (s.commitLog c t).mem = s.mem := by
  simp [State.commitLog]

@[simp] theorem State.passOn_mem (s : State) (c t : Nat) : (s.passOn c t).mem = s.mem := by
  unfold State.passOn
  split <;> simp

@[simp] theorem State.votePass_mem (s : State) (l g win a b t : Nat) : (s.votePass l g win a b t).mem = s.mem := by
  simp [State.votePass, State.joinViews_mem]

theorem execDuoVote_memWf {s : State} (h : Memory.wf s.mem) (l g : Nat) : LeavesWf (execDuoVote l g s) := by
  simp only [execDuoVote]
  repeat' split
  all_goals simp [h]

/-- The cores of a duo whose copies all differ come under test. -/
theorem State.foldl_due_memWf {s : State} (h : Memory.wf s.mem) (l : List Nat) :
    Memory.wf (l.foldl (fun st c => (st.modUnit (unitCore c) fun v => { v with due := true }).bump (unitCore c) 64 3) s).mem :=
  State.foldl_memWf _ (fun _ _ h => State.bump_memWf (by rwa [State.modUnit_mem]) _ _ _) _ _ h

theorem execDuoThirdCopy_memWf {s : State} (h : Memory.wf s.mem) (l g : Nat) : LeavesWf (execDuoThirdCopy l g s) := by
  simp only [execDuoThirdCopy]
  split
  · split
    · exact h
    split
    · simp [h]
    split
    · split
      · simp [h]
      · exact h
    split
    · split
      · simp [h]
      · exact h
    · refine State.foldl_due_memWf ?_ _
      rw [State.modLaunch_mem, State.endLates_mem, State.endTask_mem, State.dropLog_mem, State.modThr_mem, State.endLates_mem,
        State.endTask_mem, State.dropLog_mem, State.modThr_mem]
      simp only [State.notify_mem, State.dropThird_mem]
      exact h
  · exact h

/-! ### Boot -/

@[simp] theorem State.measure_mem (s : State) (i : Nat) (x : List Byte) : (s.measure i x).mem = s.mem := rfl

@[simp] theorem State.deriveKey_mem (s : State) : (s.deriveKey).mem = s.mem := by
  simp [State.deriveKey]

@[simp] theorem State.loadImage_mem (s : State) (slot : Nat) (x : List Byte) : (s.loadImage slot x).mem = s.mem := rfl

@[simp] theorem State.installUnits_mem (s : State) (f : Flash) : (s.installUnits f).mem = s.mem := by
  simp only [State.installUnits]
  refine foldl_mem (fun _ _ => ?_) _ _
  split <;> rfl

/-- After power on memory is empty. -/
@[simp] theorem State.cold_memWf (s : State) : Memory.wf s.cold.mem := rfl

@[simp] theorem State.plantHost_memWf {s : State} (h : Memory.wf s.mem) : Memory.wf s.plantHost.mem := by
  simp only [State.plantHost]
  rw [foldl_mem fun _ _ => State.grow_mem .., State.grow_mem, State.grow_mem, State.grow_mem, State.grow_mem]
  refine State.withQueue_memWf ?_ _
  rw [State.plant_mem]
  refine State.withQueue_memWf ?_ _
  rwa [State.plant_mem]

/-- The state that a stage of the boot leaves. -/
def Stage.state : Stage → State
  | .stop s _ | .on s => s

@[simp] theorem Stage.state_stop (s : State) (slot : Nat) : (Stage.stop s slot).state = s := rfl
@[simp] theorem Stage.state_on (s : State) : (Stage.on s).state = s := rfl

@[simp] theorem State.bootMap_mem (s : State) : s.bootMap.state.mem = s.mem := by
  simp only [State.bootMap]
  split
  · rfl
  · rw [Stage.state_on, State.measure_mem, State.installUnits_mem]

@[simp] theorem bootFrom_mem (good : Bool) (slots : List Nat) (img : List (List Byte)) (s : State) :
    (bootFrom good slots img s).state.mem = s.mem := by
  induction slots generalizing img s with
  | nil => cases img <;> rfl
  | cons slot rest ih =>
    match img with
    | [] => rfl
    | [_] => rfl
    | a :: b :: xs =>
      simp only [bootFrom]
      split
      · rfl
      · next x _ =>
        have hm : (if slot = 2 then (s.loadImage slot x).bootMap else .on (s.loadImage slot x)).state.mem = s.mem := by
          split <;> simp
        split
        · next hr => rwa [hr] at hm
        · next hr =>
          rw [hr] at hm
          exact (ih ..).trans hm

theorem execPowerOnBoot_memWf {s : State} (h : Memory.wf s.mem) (img : List (List Byte)) (good : Bool) :
    LeavesWf (execPowerOnBoot img good s) := by
  unfold execPowerOnBoot
  split
  · exact h
  have hc := s.cold_memWf
  generalize s.cold = c at hc ⊢
  extract_lets d s0
  have hb : Memory.wf (bootFrom good imageSlots img s0).state.mem := by
    rw [bootFrom_mem]
    exact hc
  split
  · next hr =>
    rw [hr] at hb
    exact hb
  · next s1 hr =>
    rw [hr] at hb
    have hp : Memory.wf s1.deriveKey.plantHost.mem := State.plantHost_memWf (by rwa [State.deriveKey_mem])
    generalize s1.deriveKey.plantHost = u at hp ⊢
    exact hp

theorem execPackageReset_memWf {s : State} (_ : Memory.wf s.mem) : LeavesWf (execPackageReset s) := by
  simp [execPackageReset]

theorem execPowerLoss_memWf {s : State} (_ : Memory.wf s.mem) (between : Bool) : LeavesWf (execPowerLoss between s) := by
  simp [execPowerLoss]

@[simp] theorem State.newFirmware_mem (s : State) (vers : List Nat) (img : List (List Byte))
    : (s.newFirmware vers img).mem = s.mem := by
  simp [State.newFirmware]

theorem execActivateFirmware_memWf {s : State} (h : Memory.wf s.mem) (r : SupReq) (vers : List Nat) (img : List (List Byte)) :
    LeavesWf (execActivateFirmware r vers img s) := by
  simp only [execActivateFirmware]
  split
  · exact h
  split
  · simp [h]
  split
  · rw [leavesWf_next, State.answerSup_mem, State.newFirmware_mem]
    exact State.foldl_memWf _ (fun _ _ h => State.dropSave_memWf h _ _) _ _ h
  split
  · simp [h]
  split
  · rw [leavesWf_next, State.answerSup_mem, State.newFirmware_mem]
    exact State.foldl_memWf _ (fun _ _ h => State.convert_memWf h _ _ _) _ _ h
  · simp [h]

theorem execQuoteSign_memWf {s : State} (h : Memory.wf s.mem) : LeavesWf (execQuoteSign s) := by
  simp only [execQuoteSign]
  repeat' split
  all_goals simp [h]

theorem execMgmtRead_memWf {s : State} (h : Memory.wf s.mem) (what off len : Nat) : LeavesWf (execMgmtRead what off len s) := h

theorem execThermalHoldEnter_memWf {s : State} (h : Memory.wf s.mem) : LeavesWf (execThermalHoldEnter s) := by
  unfold execThermalHoldEnter
  split <;> simp [h]

theorem execThermalHoldExit_memWf {s : State} (h : Memory.wf s.mem) : LeavesWf (execThermalHoldExit s) := h

theorem execThermalShutdown_memWf {s : State} (h : Memory.wf s.mem) : LeavesWf (execThermalShutdown s) := by
  unfold execThermalShutdown
  split <;> simp [h]

/-! ### Fetch -/

theorem State.fetch_mem {s u : State} {c t : Nat} {pc : Word} {l : List Byte} (h : s.fetch c t pc = .line u l)
    : u.mem = s.mem := by
  simp only [State.fetch] at h
  -- The kernel must not compute the translation or the read: they are named before the cases on them.
  obtain ⟨tr, htr⟩ : ∃ f, f = State.translate := ⟨_, rfl⟩
  obtain ⟨read, hread⟩ : ∃ f, f = State.lineEv := ⟨_, rfl⟩
  rw [← htr, ← hread] at h
  split at h
  · cases h; rfl
  split at h
  · cases h
  split at h
  · cases h
  split at h
  · cases h
  · next hr =>
    cases h
    rw [State.modThr_mem, State.heat_mem]
    exact State.lineEv_mem (hread ▸ hr)

/-! ### Delivery -/

@[simp] theorem State.dropCq_mem (s : State) (c t k : Nat) : (s.dropCq c t k).mem = s.mem := rfl

@[simp] theorem State.barLate_mem (s : State) (c t lvl d : Nat) : (s.barLate c t lvl d).mem = s.mem := by
  simp [State.barLate]

@[simp] theorem State.performCq_mem (s : State) (c t k : Nat) (e : CqE) : (s.performCq c t k e).mem = s.mem := by
  simp only [State.performCq]
  repeat' split
  all_goals simp

theorem execWritePerform_memWf {s : State} (h : Memory.wf s.mem) (c t k : Nat) : LeavesWf (execWritePerform c t k s) := by
  unfold execWritePerform
  split <;> simp [h]

theorem execHomeApply_memWf {s : State} (h : Memory.wf s.mem) (e : Nat) : LeavesWf (execHomeApply e s) := by
  unfold execHomeApply
  split <;> simp [h]

@[simp] theorem State.noteHits_mem (s : State) : (s.noteHits).mem = s.mem := rfl

theorem execFrontierPropagation_memWf {s : State} (h : Memory.wf s.mem) (e : Nat) : LeavesWf (execFrontierPropagation e s) := by
  unfold execFrontierPropagation
  split
  · exact State.propagate_memWf _ _ _ (by rwa [State.memWf, State.noteHits_mem])
  · exact h

@[simp] theorem State.mem_tell (s : State) (m : Eff) (f : Eff → Eff) : (s.tell m f).mem = s.mem := State.modThr_mem ..

theorem execMessageDelivery_memWf {s : State} (h : Memory.wf s.mem) (k : Nat) : LeavesWf (execMessageDelivery k s) := by
  simp only [execMessageDelivery]
  split
  · exact h
  split
  · simp [h]
  split
  · exact h
  split
  · simp [h]
  split
  · exact h
  · next hr =>
    have hm := State.deliver_mem hr
    rw [leavesWf_next, ite_mem, State.haltWake_mem, ite_self, State.mem_tell, hm]
    exact h

theorem execMigrationArrival_memWf {s : State} (h : Memory.wf s.mem) (k : Nat) : LeavesWf (execMigrationArrival k s) := by
  simp only [execMigrationArrival]
  repeat' split
  all_goals simp [h]

@[simp] theorem State.queueNote_mem (s : State) (d : Nat) (m : HMsg) : (s.queueNote d m).mem = s.mem := by
  simp [State.queueNote]

@[simp] theorem State.queueTrap_mem (s : State) (d : Nat) (m : HMsg) : (s.queueTrap d m).mem = s.mem := rfl

theorem execHandlerMessageArrival_memWf {s : State} (h : Memory.wf s.mem) (k : Nat)
    : LeavesWf (execHandlerMessageArrival k s) := by
  simp only [execHandlerMessageArrival]
  repeat' split
  all_goals simp [h]

theorem execHandlerEntryTimeout_memWf {s : State} (h : Memory.wf s.mem) (c x : Nat)
    : LeavesWf (execHandlerEntryTimeout c x s) := by
  simp only [execHandlerEntryTimeout]
  repeat' split
  all_goals simp [h]

/-! ### Extents -/

@[simp] theorem State.eachDropped_mem {f : State → Nat → Nat → NotPres → State} (hf : ∀ s c t n, (f s c t n).mem = s.mem)
    (s : State) (oid x : Nat) : (s.eachDropped oid x f).mem = s.mem := by
  unfold State.eachDropped
  refine foldl_mem (fun _ _ => foldl_mem (fun _ _ => ?_) _ _) _ _
  dsimp only
  split
  · split
    · exact hf ..
    · rfl
  · rfl

@[simp] theorem State.loseExtent_mem (s : State) (oid x : Nat) : (s.loseExtent oid x).mem = s.mem := by
  unfold State.loseExtent
  extract_lets absent s1 s2 lost s3 mark s4 walks
  have h2 : s2.mem = s1.mem := by
    refine foldl_mem (fun _ _ => foldl_mem (fun _ _ => ?_) _ _) _ _
    repeat' split
    all_goals simp
  have h3 : s3.mem = s2.mem := foldl_mem (fun _ _ => State.counterLost_mem ..) _ _
  refine (foldl_mem (fun _ _ => ?_) _ _).trans ?_
  · exact State.answer_mem ..
  · exact h3.trans h2

@[simp] theorem State.allocate_mem (s : State) (oid x : Nat) (e : Extent) : (s.allocate oid x e).mem = s.mem := rfl

theorem execExtentAllocationWake_memWf {s : State} (h : Memory.wf s.mem) (oid x : Nat) (p : Place) (ok : Bool) :
    LeavesWf (execExtentAllocationWake oid x p ok s) := by
  unfold execExtentAllocationWake
  extract_lets e new s1 s2 s3
  split
  · exact h
  split
  · split
    · exact h
    · rw [leavesWf_next, State.eachDropped_mem fun _ _ _ _ => State.modThr_mem .., State.allocate_mem, ite_mem, memWf_ite, h]
      rw [State.zeroRange_memWf _ _ _ h]
      exact ite_self _
  · rw [leavesWf_next, State.eachDropped_mem fun _ _ _ _ => State.takeTrap_mem .., State.loseExtent_mem, State.setExtent_mem]
    exact h

theorem execHeatSweep_memWf {s : State} (h : Memory.wf s.mem) : LeavesWf (execHeatSweep s) := h

theorem execExtentMove_memWf {s : State} (h : Memory.wf s.mem) (oid x : Nat) (p : Place)
    : LeavesWf (execExtentMove oid x p s) := by
  unfold execExtentMove
  split <;> simp [h]

theorem execWeightRefreshWindow_memWf {s : State} (h : Memory.wf s.mem) : LeavesWf (execWeightRefreshWindow s) := h

theorem execScrubExtentClear_memWf {s : State} (h : Memory.wf s.mem) (oid x : Nat) : LeavesWf (execScrubExtentClear oid x s) := by
  simp only [execScrubExtentClear]
  split
  · split
    · exact h
    · rw [leavesWf_next, ite_mem, ite_self]
      exact h
  split
  · exact h
  · rw [leavesWf_next, foldl_mem fun _ _ => State.wakeOn_mem ..]
    exact State.zeroRange_memWf _ _ _ h

/-! ### Packets -/

@[simp] theorem State.setPkt_mem (s : State) (q : Nat) (p : Pkt) : (s.setPkt q p).mem = s.mem := rfl

@[simp] theorem State.startPkt_mem (s : State) (q : Nat) (p : Pkt) : (s.startPkt q p).mem = s.mem := by
  simp [State.startPkt]

@[simp] theorem State.owePkt_mem (s : State) (q agent : Nat) (cc : Word) (cause : Nat)
    : (s.owePkt q agent cc cause).mem = s.mem := by
  simp [State.owePkt]

@[simp] theorem State.donePkt_mem (s : State) (q : Nat) (p : Pkt) (f : Nat) : (s.donePkt q p f).mem = s.mem := by
  induction f generalizing s q p with
  | zero => rfl
  | succ f ih =>
    simp only [State.donePkt]
    split
    · simp
    split
    · simp
    repeat' split
    all_goals simp [ih]

@[simp] theorem State.endPkt_mem (s : State) (q : Nat) (p : Pkt) : (s.endPkt q p).mem = s.mem := by
  simp [State.endPkt]

@[simp] theorem State.refuseLaunch_mem (s : State) (q : Nat) (p : Pkt) (cause : Nat)
    : (s.refuseLaunch q p cause).mem = s.mem := by
  simp only [State.refuseLaunch]
  split <;> simp

@[simp] theorem State.startLaunch_mem (s : State) (q : Nat) (p : Pkt) : (s.startLaunch q p).mem = s.mem := by
  unfold State.startLaunch
  extract_lets k s0
  have hs : s0.mem = s.mem := State.startPkt_mem ..
  have hr := State.submit_mem s0 k.ctx (s.queueTag q) q p.body 0 0 false
  generalize s0.submit k.ctx (s.queueTag q) q p.body 0 0 false = r at hr ⊢
  obtain ⟨s1, status, l⟩ := r
  show (if status ≠ 0 then _ else _ : State).mem = _
  rw [ite_mem, State.refuseLaunch_mem, State.setPkt_mem, State.enqueue_mem, State.modLaunch_mem, ite_self]
  exact hr.trans hs

@[simp] theorem State.launchPacket_mem (s : State) (q t : Nat) : (s.launchPacket q t).mem = s.mem := by
  simp only [State.launchPacket]
  repeat' split
  all_goals simp

theorem execPktLaunch_memWf {s : State} (h : Memory.wf s.mem) (q : Nat) : LeavesWf (execPktLaunch q s) := by
  simp [execPktLaunch, h]

theorem execPktGlaunch_memWf {s : State} (h : Memory.wf s.mem) (q : Nat) : LeavesWf (execPktGlaunch q s) := by
  simp [execPktGlaunch, h]

theorem execPktWait_memWf {s : State} (h : Memory.wf s.mem) (q : Nat) : LeavesWf (execPktWait q s) := by
  simp only [execPktWait]
  repeat' split
  all_goals simp [h]

theorem execPktSignal_memWf {s : State} (h : Memory.wf s.mem) (q : Nat) : LeavesWf (execPktSignal q s) := by
  simp only [execPktSignal]
  repeat' split
  all_goals simp [h]

theorem execPktCopy_memWf {s : State} (h : Memory.wf s.mem) (q : Nat) : LeavesWf (execPktCopy q s) := by
  simp only [execPktCopy]
  split
  · simp [h]
  · exact h
  split
  · simp [h]
  · simp [h]
  · exact h
  split
  · simp [h]
  · next hr =>
    have hm := State.readAll_mem hr
    split <;> simp [h, hm]

theorem execPktIb_memWf {s : State} (h : Memory.wf s.mem) (q : Nat) : LeavesWf (execPktIb q s) := by
  simp only [execPktIb]
  repeat' split
  all_goals simp [h]

theorem execPktReplay_memWf {s : State} (h : Memory.wf s.mem) (q : Nat) : LeavesWf (execPktReplay q s) := by
  simp only [execPktReplay]
  repeat' split
  all_goals simp [h]

theorem execPktBind_memWf {s : State} (h : Memory.wf s.mem) (q : Nat) : LeavesWf (execPktBind q s) := by
  simp only [execPktBind]
  split
  · exact h
  · next p _ =>
    have hm : ((s.startPkt q p).bindDo (s.queue q).ctx (leAt p.bytes 0x18 8 % 32) (bit (leAt p.bytes 0x18 8) 7) (wordAt p.bytes 8)
        (wordAt p.bytes 0x10)).state.mem = s.mem := by simp
    split <;> next hr =>
      rw [hr] at hm
      have hm := (congrArg (Memory.wf · = true) hm).mpr h
      simpa using hm

theorem execPktNop_memWf {s : State} (h : Memory.wf s.mem) (q : Nat) : LeavesWf (execPktNop q s) := by
  simp only [execPktNop]
  split <;> simp [h]

theorem execSupervisorMismatch_memWf {s : State} (h : Memory.wf s.mem) : LeavesWf (execSupervisorMismatch s) := h

theorem execSupervisorCheckpoint_memWf {s : State} (h : Memory.wf s.mem) : LeavesWf (execSupervisorCheckpoint s) := h

/-! ### Frames -/

theorem State.frameCtx_mem {s t : State} {f : Sys2Proof.Frame} {x : Nat} (h : s.frameCtx f = .ok (t, x)) : t.mem = s.mem := by
  simp only [State.frameCtx] at h
  split at h
  · split at h <;> cases h
    rfl
  split at h
  · cases h
  split at h
  · cases h
  split at h <;> cases h
  exact State.modCtx_mem ..

theorem State.serve_memWf {s : State} (h : Memory.wf s.mem) (type : Nat) (f : Sys2Proof.Frame) {body : State → Nat → State}
    (hb : ∀ t x, Memory.wf t.mem → Memory.wf (body t x).mem) : LeavesWf (s.serve type f body) := by
  unfold State.serve
  split
  · simp [h]
  split
  · exact h
  split
  · simp [h]
  · next hr => exact hb _ _ (by rwa [State.frameCtx_mem hr])

@[simp] theorem State.askFrame_memWf {s : State} (h : Memory.wf s.mem) (f : Sys2Proof.Frame) (x : Nat) (e : Eff) :
    Memory.wf (s.askFrame f x e).mem := State.hubServe_memWf (by exact h) _ _

theorem execFrameWalk_memWf {s : State} (h : Memory.wf s.mem) (f : Sys2Proof.Frame) : LeavesWf (execFrameWalk f s) := by
  refine State.serve_memWf h _ _ fun t x ht => ?_
  split <;> simp [ht]

theorem execFrameOpen_memWf {s : State} (h : Memory.wf s.mem) (f : Sys2Proof.Frame) : LeavesWf (execFrameOpen f s) := by
  unfold execFrameOpen
  split
  · exact h
  refine State.serve_memWf h _ _ fun t x ht => ?_
  split
  · simp [ht]
  split
  · simp [ht]
  · next p _ =>
    have hm : Memory.wf (t.resolve x (some f.token) p).state.mem := by simpa using ht
    split
    · next hr =>
      rw [hr] at hm
      exact State.askFrame_memWf hm ..
    · next hr =>
      rw [hr] at hm
      rwa [State.reply_mem]
    · next hr => rwa [hr] at hm

theorem execFrameRead_memWf {s : State} (h : Memory.wf s.mem) (f : Sys2Proof.Frame) : LeavesWf (execFrameRead f s) := by
  refine State.serve_memWf h _ _ fun t x ht => ?_
  split
  · simp [ht]
  split
  · simp [ht]
  split
  · simp [ht]
  · extract_lets ps a
    split
    · exact h
    split
    · simp [ht]
    · simp only [State.reply_mem, State.joinEvents_mem]
      rwa [foldl_fst_mem fun _ _ => by rw [State.heat_mem, State.readFwd_mem]]

theorem foldl_fst_memWf {α β : Type} {f : State × β → α → State × β} (hf : ∀ p a, Memory.wf p.1.mem → Memory.wf (f p a).1.mem)
    (l : List α) (p : State × β) (h : Memory.wf p.1.mem) : Memory.wf (l.foldl f p).1.mem := by
  induction l generalizing p with
  | nil => exact h
  | cons a l ih => exact ih _ (hf p a h)

@[simp] theorem State.writeReg_memWf {s : State} (h : Memory.wf s.mem) (oid o : Nat) (bs : List Byte) (fw dev : Bool) :
    Memory.wf (s.writeReg oid o bs fw dev).1.mem := by
  unfold State.writeReg
  split
  · split
    · exact h
    · refine foldl_fst_memWf (fun p i hp => ?_) _ _ h
      split
      · exact hp
      · exact State.ctlWrite_memWf hp ..
  · split
    · exact h
    · simpa using h
  · simpa using h
  · exact h

theorem execFrameWrite_memWf {s : State} (h : Memory.wf s.mem) (f : Sys2Proof.Frame) : LeavesWf (execFrameWrite f s) := by
  unfold execFrameWrite
  refine leavesWf_ite_of h ?_
  refine State.serve_memWf h _ _ fun t x ht => ?_
  split
  · simp [ht]
  · next k _ =>
    split
    · have hw := State.writeReg_memWf ht (locId k.loc) (locOff k.loc) f.payload ((t.ctx x).dom == 2) f.peer.isSome
      simp only
      split
      · rwa [State.reply_mem]
      · rwa [State.reply_mem]
    split
    · simp [ht]
    extract_lets ps a s2 s3
    split
    · simp [ht]
    split
    · exact h
    · rw [State.reply_mem, State.asWhole_mem]
      rwa [foldl_mem fun _ _ => by rw [State.heat_mem, State.put_mem]]

theorem execFrameMake_memWf {s : State} (h : Memory.wf s.mem) (f : Sys2Proof.Frame) : LeavesWf (execFrameMake f s) := by
  refine State.serve_memWf h _ _ fun t x ht => ?_
  simp only
  repeat' split
  all_goals simp [h, ht]

theorem execFrameClose_memWf {s : State} (h : Memory.wf s.mem) (f : Sys2Proof.Frame) : LeavesWf (execFrameClose f s) := by
  unfold execFrameClose
  split
  · exact h
  · exact State.serve_memWf h _ _ fun t x ht => State.askFrame_memWf ht ..

theorem execFrameRevoke_memWf {s : State} (h : Memory.wf s.mem) (f : Sys2Proof.Frame) : LeavesWf (execFrameRevoke f s) := by
  unfold execFrameRevoke
  split
  · exact h
  refine State.serve_memWf h _ _ fun t x ht => ?_
  simp only
  generalize (if bit f.flags.toNat 1 = true then f.arg.toNat else x) = y
  repeat' split
  all_goals simp [ht]

theorem execFrameBind_memWf {s : State} (h : Memory.wf s.mem) (f : Sys2Proof.Frame) : LeavesWf (execFrameBind f s) := by
  unfold execFrameBind
  split
  · exact h
  · exact State.serve_memWf h _ _ fun t x ht => State.askFrame_memWf ht ..

theorem execFrameUnbind_memWf {s : State} (h : Memory.wf s.mem) (f : Sys2Proof.Frame) : LeavesWf (execFrameUnbind f s) := by
  unfold execFrameUnbind
  split
  · exact h
  · exact State.serve_memWf h _ _ fun t x ht => State.askFrame_memWf ht ..

@[simp] theorem State.freshLog_mem (s : State) (x : Nat) : (s.freshLog x).mem = s.mem := rfl

theorem execContextCreate_memWf {s : State} (h : Memory.wf s.mem) (f : Sys2Proof.Frame) (id : Nat)
    : LeavesWf (execContextCreate f id s) := by
  unfold execContextCreate
  refine leavesWf_ite_of h ?_
  generalize (List.range 4096).any s.idFree = any
  refine leavesWf_ite_of (by rwa [leavesWf_next, State.reply_mem]) (leavesWf_ite_of h ?_)
  split
  · exact h
  · simp only
    rw [leavesWf_next, State.reply_mem, State.growObj_mem, State.addKid_mem, State.grow_mem]
    refine State.withQueue_memWf ?_ _
    rwa [State.plant_mem, State.modCtx_mem, State.newNode_mem, State.freshLog_mem]

@[simp] theorem State.beginEnd_mem (s : State) (x : Nat) : (s.beginEnd x).mem = s.mem := rfl

@[simp] theorem State.stopContext_mem (s : State) (x : Nat) : (s.stopContext x).mem = s.mem := by
  simp [State.stopContext]

@[simp] theorem State.revokeAll_mem (s : State) (x : Nat) : (s.revokeAll x).mem = s.mem := by
  simp [State.revokeAll]

@[simp] theorem State.freeWith_memWf {s : State} (h : Memory.wf s.mem) (oid : Nat) : Memory.wf (s.freeWith oid).mem := by
  unfold State.freeWith
  split <;> simp [h]

@[simp] theorem State.clearContext_memWf {s : State} (h : Memory.wf s.mem) (x : Nat) : Memory.wf (s.clearContext x).mem := by
  unfold State.clearContext
  extract_lets s1 mine s2 s3 s4
  have h1 : Memory.wf s1.mem := State.foldl_memWf _ (fun st r hs => by
    split
    · exact hs
    · exact State.dropHandle_memWf hs ..) _ _ h
  have h2 : Memory.wf s2.mem := by
    refine State.foldl_memWf _ (fun st r hs => State.freeWith_memWf hs _) _ _ ?_
    refine State.foldl_memWf _ (fun st r hs => ?_) _ _ h1
    exact State.zeroRange_memWf st _ _ hs
  rw [State.modCtx_mem]
  show Memory.wf s3.mem
  rwa [show s3.mem = s2.mem from foldl_mem (fun _ _ => State.dropNode_mem ..) _ _]

@[simp] theorem State.finishContext_mem (s : State) (x : Nat) : (s.finishContext x).mem = s.mem := by
  unfold State.finishContext
  rw [State.modCtx_mem]
  split
  · exact (State.dropNode_mem ..).trans (foldl_mem (fun _ _ => State.dropNode_mem ..) _ _)
  · rfl

theorem execContextEnd_memWf {s : State} (h : Memory.wf s.mem) (f : Sys2Proof.Frame) : LeavesWf (execContextEnd f s) := by
  unfold execContextEnd
  split
  · exact h
  split
  · split
    · simp [h]
    · rw [leavesWf_next, ite_mem]
      simp [h]
    · rw [leavesWf_next, ite_mem, memWf_ite]
      simp [h]
    · split
      · exact h
      · simp [h]
  · exact h

end Sys2Proof.Machine
end

section
/-! SUPPORT. The same for a core's turn, the events that are due, an instruction and a step. -/

namespace Sys2Proof.Machine

/-! ### Turn -/

/-- The state that the search for a head leaves, whichever way it ends. -/
def Seek.state : Seek → State
  | .found s _ _ | .absent s _ _ | .bad s _ _ _ => s

@[simp] theorem Seek.state_found (s : State) (line : List Byte) (k : Nat) : (Seek.found s line k).state = s := rfl
@[simp] theorem Seek.state_absent (s : State) (oid x : Nat) : (Seek.absent s oid x).state = s := rfl
@[simp] theorem Seek.state_bad (s : State) (cause sub : Nat) (info : Word) : (Seek.bad s cause sub info).state = s := rfl

/-- Whatever event it runs, `ex` keeps memory in canonical form. -/
def Exec.KeepsWf (ex : Exec) : Prop := ∀ (i : Instr) (s : State), Memory.wf s.mem → LeavesWf (ex i s)

@[simp] theorem State.seek_mem (s : State) (c t f : Nat) : (s.seek c t f).state.mem = s.mem := by
  induction f generalizing s with
  | zero => rfl
  | succ f ih =>
    simp only [State.seek]
    split
    · rfl
    split
    · rfl
    · rfl
    · rfl
    · next hr =>
      have hm := State.fetch_mem hr
      split
      · exact hm
      · rwa [Seek.state_found, State.modThr_mem]
      · rw [ih, State.modThr_mem, hm]

theorem State.runHead_memWf {ex : Exec} (hex : ex.KeepsWf) {s : State} (h : Memory.wf s.mem) (c t : Nat) (e : Enc) :
    LeavesWf (s.runHead ex c t e) := by
  unfold State.runHead
  split
  · exact hex _ _ h
  · simp [h]

theorem State.runPair_memWf {ex : Exec} (hex : ex.KeepsWf) {s : State} (h : Memory.wf s.mem) (c t : Nat) (e e2 : Enc) :
    LeavesWf (s.runPair ex c t e e2) := by
  simp only [State.runPair]
  have h1 := State.runHead_memWf hex (s := s.modThr c t fun y => { y with snap := some y.snapshot }) (by rwa [State.modThr_mem]) c t e
  generalize State.runHead _ _ c t e = r at h1 ⊢
  split
  · next s1 =>
    replace h1 : Memory.wf s1.mem := h1
    split
    · rw [leavesWf_next, ite_mem, State.setThr_mem, ite_self]
      exact h
    split
    · rwa [leavesWf_next, State.modThr_mem]
    · have h2 := State.runHead_memWf hex h1 c t e2
      generalize State.runHead _ _ c t e2 = r2 at h2 ⊢
      split
      · next s2 =>
        replace h2 : Memory.wf s2.mem := h2
        split
        · rw [leavesWf_next, ite_mem, State.setThr_mem, ite_self]
          exact h
        · rwa [leavesWf_next, State.modThr_mem]
      · exact h2
  · exact h1

theorem State.runAt_memWf {ex : Exec} (hex : ex.KeepsWf) {s : State} (h : Memory.wf s.mem) (c t : Nat) (line : List Byte)
    (k : Nat) : LeavesWf (s.runAt ex c t line k) := by
  simp only [State.runAt]
  split
  · exact h
  split
  · exact State.runHead_memWf hex h ..
  split
  · simp [h]
  split
  · exact h
  · exact State.runPair_memWf hex h ..

theorem State.issueThread_memWf {ex : Exec} (hex : ex.KeepsWf) {s : State} (h : Memory.wf s.mem) (c t : Nat) :
    LeavesWf (s.issueThread ex c t) := by
  unfold State.issueThread
  have hs : Memory.wf (s.seek c t 64).state.mem := by rwa [State.seek_mem]
  generalize s.seek c t 64 = r at hs ⊢
  split
  · exact State.runAt_memWf hex hs ..
  · rwa [leavesWf_next, State.modThr_mem]
  · rwa [leavesWf_next, ite_mem, State.modThr_mem, ite_self]

@[simp] theorem State.markDry_mem (s : State) (c t : Nat) : (s.markDry c t).mem = s.mem := by
  simp [State.markDry]

theorem State.turn_memWf {ex : Exec} (hex : ex.KeepsWf) {s : State} (h : Memory.wf s.mem) (c : Nat) : LeavesWf (s.turn ex c) := by
  simp only [State.turn]
  refine leavesWf_ite_of h ?_
  generalize hs : (if (s.core c).pos ≥ 32 then s.rotate c else s) = s1
  have h1 : Memory.wf s1.mem := by
    rw [← hs, ite_mem, State.rotate_mem, ite_self]
    exact h
  generalize hs2 : s1.setCore c _ = s2
  have h2 : Memory.wf s2.mem := by rwa [← hs2, State.setCore_mem]
  split
  · exact h2
  · next t _ =>
    have h3 := State.issueThread_memWf hex h2 c t
    generalize s2.issueThread ex c t = r at h3 ⊢
    split
    · rw [leavesWf_next, State.markDry_mem]
      exact h3
    · exact h3

theorem execLineFetch_memWf {s : State} (h : Memory.wf s.mem) (c t : Nat) : LeavesWf (execLineFetch c t s) := by
  simp only [execLineFetch]
  split
  · exact h
  split
  · next hr => rwa [leavesWf_next, State.fetch_mem hr]
  · exact h

theorem execChannelDry_memWf {s : State} (h : Memory.wf s.mem) (c t : Nat) : LeavesWf (execChannelDry c t s) := by
  simp only [execChannelDry]
  split <;> simp [h]

@[simp] theorem State.tick_memWf {s : State} (h : Memory.wf s.mem) : Memory.wf s.tick.mem := by
  unfold State.tick
  refine State.foldl_memWf _ (fun st r hs => ?_) _ _ h
  have hp := execPlacerPass_memWf hs r.1
  generalize execPlacerPass r.1 st = o at hp ⊢
  split
  · exact hp
  · exact hs

/-! ### The events that are due -/

/-- The event keeps memory in canonical form. -/
def Event.KeepsWf (f : Event) : Prop := ∀ ⦃s : State⦄, Memory.wf s.mem → LeavesWf (f s)

theorem threadEvents_keepWf (c t : Nat) (x : Thread) : ∀ f ∈ threadEvents c t x, Event.KeepsWf f := by
  intro f hf s h
  simp only [threadEvents, List.mem_append, List.mem_flatMap, List.mem_map, Prod.exists] at hf
  obtain ((((hf | hf) | ⟨_, _, _, _, _, rfl⟩) | ⟨_, _, rfl⟩) | ⟨_, _, rfl⟩) | ⟨_, _, rfl⟩ := hf
  · split at hf
    · obtain rfl := List.mem_singleton.mp hf
      exact execGroupCommit_memWf h ..
    · cases hf
  · split at hf
    · obtain rfl := List.mem_singleton.mp hf
      exact execCommitStep5Resume_memWf h ..
    · cases hf
  · exact execLoadReadStep_memWf h ..
  · exact execAtomicStep_memWf h ..
  · exact execResultReturn_memWf h ..
  · exact execWritePerform_memWf h ..

theorem coreEvents_keepWf (c : Nat) (k : Core) : ∀ f ∈ coreEvents c k, Event.KeepsWf f := by
  intro f hf s h
  simp only [coreEvents, List.mem_append, List.mem_flatMap, List.mem_map] at hf
  obtain (((⟨_, _, hf⟩ | ⟨_, _, rfl⟩) | hf) | hf) | hf := hf
  · exact threadEvents_keepWf _ _ _ f hf h
  · exact execVectorOpStart_memWf h ..
  · split at hf
    · cases hf
    · obtain rfl := List.mem_singleton.mp hf
      exact execVectorOpRetire_memWf h ..
  · split at hf
    · cases hf
    · simp only [List.mem_cons, List.not_mem_nil, or_false] at hf
      obtain rfl | rfl | rfl | rfl | rfl := hf
      · exact execTileTaskAccept_memWf h ..
      · exact execTrellisAccept_memWf h ..
      · exact execLadleRequestAccept_memWf h ..
      · exact execPressCommandAccept_memWf h ..
      · exact execNetRequestAccept_memWf h ..
  · simp only [List.mem_cons, List.not_mem_nil, or_false] at hf
    obtain rfl | rfl := hf
    · exact execStealRequest_memWf h ..
    · exact execStealAnswer_memWf h ..

theorem clusterEvents_keepWf (cl : Nat) (q : Cluster) : ∀ f ∈ clusterEvents cl q, Event.KeepsWf f := by
  intro f hf s h
  simp only [clusterEvents, List.mem_append, List.mem_flatMap, List.mem_map, List.mem_cons, List.not_mem_nil, or_false] at hf
  obtain (((⟨_, _, rfl⟩ | ⟨_, _, rfl | rfl | rfl⟩) | ⟨_, _, rfl⟩) | ⟨_, _, ⟨_, _, rfl⟩ | rfl⟩) | ⟨_, _, rfl⟩ := hf
  · exact execTileZeroFillEnd_memWf h ..
  · exact execTileTaskStart_memWf h ..
  · exact execTileTaskStart_memWf h ..
  · exact execTileTaskComplete_memWf h ..
  · exact execTrellisImageSwap_memWf h ..
  · exact execTrellisCommandStart_memWf h ..
  · exact execTrellisCommandRetire_memWf h ..
  · exact execLadleChunk_memWf h ..

theorem dieEvents_keepWf (d : Nat) (q : Die) (pkts acks : Nat) : ∀ f ∈ dieEvents d q pkts acks, Event.KeepsWf f := by
  intro f hf s h
  simp only [dieEvents, List.mem_append, List.mem_flatMap, List.mem_map, List.mem_cons, List.not_mem_nil, or_false, Prod.exists] at hf
  obtain ((⟨_, _, rfl⟩ | ⟨_, _, rfl⟩) | ⟨_, _, rfl⟩) | ⟨_, _, _, (⟨_, _, rfl⟩ | rfl) | ⟨_, _, rfl⟩⟩ := hf
  · exact execPressChunk_memWf h ..
  · exact execNetPacketArrival_memWf h ..
  · exact execNetAckArrival_memWf h ..
  · exact execNetPacketSend_memWf h ..
  · exact execNetUnmatchedRetry_memWf h ..
  · exact execNetResendTimeout_memWf h ..

theorem queueEvents_keepWf (q : Nat) : ∀ f ∈ queueEvents q, Event.KeepsWf f := by
  intro f hf s h
  simp only [queueEvents, List.mem_cons, List.not_mem_nil, or_false] at hf
  obtain rfl | rfl | rfl | rfl | rfl | rfl | rfl | rfl | rfl | rfl | rfl | rfl := hf
  · exact execQueueHeaderRead_memWf h ..
  · exact execIbGranuleFetch_memWf h ..
  · exact execPacketParse_memWf h ..
  · exact execPktLaunch_memWf h ..
  · exact execPktGlaunch_memWf h ..
  · exact execPktWait_memWf h ..
  · exact execPktSignal_memWf h ..
  · exact execPktCopy_memWf h ..
  · exact execPktIb_memWf h ..
  · exact execPktReplay_memWf h ..
  · exact execPktBind_memWf h ..
  · exact execPktNop_memWf h ..

theorem stopEvents_keepWf (k : Nat) : ∀ f ∈ stopEvents k, Event.KeepsWf f := by
  intro f hf s h
  simp only [stopEvents, List.mem_append, List.mem_map, List.mem_cons, List.not_mem_nil, or_false] at hf
  obtain ((rfl | rfl) | ⟨_, _, rfl⟩) | rfl := hf
  · exact execStopAnnouncement_memWf h ..
  · exact execSyncStop_memWf h ..
  · exact execFlushToken_memWf h ..
  · exact execPartitionSave_memWf h ..

theorem State.hubEvents_keepWf (u : State) : ∀ f ∈ u.hubEvents, Event.KeepsWf f := by
  intro f hf s h
  simp only [State.hubEvents, List.mem_append, List.mem_flatMap, List.mem_map, List.mem_cons, List.not_mem_nil, or_false, Prod.exists]
    at hf
  obtain (((((((((((((⟨_, _, rfl⟩ | ⟨_, _, rfl⟩) | ⟨_, _, rfl⟩) | ⟨_, _, rfl⟩) | ⟨_, _, rfl⟩) | ⟨_, _, _, ⟨_, _, rfl⟩ | ⟨_, _, rfl⟩⟩)
    | ⟨_, _, rfl⟩) | ⟨_, _, _, rfl⟩) | ⟨_, _, _, hf⟩) | ⟨_, _, hf⟩) | ⟨_, _, _, rfl⟩) | ⟨_, _, _, _, _, rfl | rfl⟩) | hf)
    | ⟨_, _, rfl⟩) := hf
  · exact execMessageDelivery_memWf h ..
  · exact execMigrationArrival_memWf h ..
  · exact execHandlerMessageArrival_memWf h ..
  · exact execHomeApply_memWf h ..
  · exact execNseAnswer_memWf h ..
  · exact execShootdownReceipt_memWf h ..
  · exact execShootdownAck_memWf h ..
  · exact execCompletionCounterStep_memWf h ..
  · exact execLaunchEnd_memWf h ..
  · exact queueEvents_keepWf _ f hf h
  · exact stopEvents_keepWf _ f hf h
  · exact execPartitionResume_memWf h ..
  · exact execDuoVote_memWf h ..
  · exact execDuoThirdCopy_memWf h ..
  · split at hf
    · cases hf
    · obtain rfl := List.mem_singleton.mp hf
      exact execQuoteSign_memWf h ..
  · exact execFrontierPropagation_memWf h ..

theorem State.cutEvents_keepWf (u : State) : ∀ f ∈ u.cutEvents, Event.KeepsWf f := by
  intro f hf s h
  simp only [State.cutEvents, List.mem_append, List.mem_map] at hf
  obtain ((⟨_, _, rfl⟩ | ⟨_, _, rfl⟩) | ⟨_, _, rfl⟩) | ⟨_, _, rfl⟩ := hf
  · exact execHomeApply_memWf h ..
  · exact execCompletionCounterStep_memWf h ..
  · exact execLaunchEnd_memWf h ..
  · exact execFrontierPropagation_memWf h ..

theorem State.dueEvents_keepWf (u : State) : ∀ f ∈ u.dueEvents, Event.KeepsWf f := by
  intro f hf
  unfold State.dueEvents at hf
  split at hf
  · exact u.cutEvents_keepWf f hf
  simp only [List.mem_append, List.mem_flatMap] at hf
  obtain ((⟨_, _, hf⟩ | ⟨_, _, hf⟩) | ⟨_, _, hf⟩) | hf := hf
  · exact coreEvents_keepWf _ _ f hf
  · exact clusterEvents_keepWf _ _ f hf
  · exact dieEvents_keepWf _ _ _ _ f hf
  · exact u.hubEvents_keepWf f hf

theorem firstChange_keepWf {s : State} (h : Memory.wf s.mem) {fs : List Event} (hf : ∀ f ∈ fs, Event.KeepsWf f)
    {r : Host.Outcome State Fault Refusal} (hr : firstChange s fs = some r) : LeavesWf r := by
  induction fs with
  | nil => cases hr
  | cons f fs ih =>
    have h1 := hf f List.mem_cons_self h
    have h2 := ih fun g hg => hf g (List.mem_cons_of_mem _ hg)
    unfold firstChange at hr
    split at hr
    · next t ht =>
      split at hr
      · exact h2 hr
      · rw [← Option.some.inj hr, ← ht]
        exact h1
    · rw [← Option.some.inj hr]
      exact h1

/-! ### A step -/

theorem State.auto_memWf {ex : Exec} (hex : ex.KeepsWf) {s : State} (h : Memory.wf s.mem) : LeavesWf (s.auto ex) := by
  unfold State.auto
  generalize hp : ({ s with pref := [] } : State) = u
  have hu : Memory.wf u.mem := by rwa [← hp]
  clear hp
  simp only
  split
  · next hr => exact firstChange_keepWf hu u.dueEvents_keepWf hr
  split
  · rw [leavesWf_next, ite_mem, memWf_ite]
    simp [hu]
  · split
    · exact State.tick_memWf hu
    · exact State.turn_memWf hex (by exact hu) _

theorem State.move_memWf {ex : Exec} (hex : ex.KeepsWf) {s : State} (h : Memory.wf s.mem) : LeavesWf (s.move ex) := by
  unfold State.move
  split
  · split
    · exact h
    · exact State.auto_memWf hex h
  · extract_lets s1
    have h1 : Memory.wf s1.mem := State.begins_memWf (by exact h) _
    clear_value s1
    split
    · exact h1
    split
    · exact State.turn_memWf hex h1 _
    · exact hex _ _ h1

/-! ### An instruction -/

/-- No body of row 8 hands back a state of its own. -/
theorem bodyOf_float_st {op : Nat} (h : op / 16 = 8) {i : Iss} {r : Out} (hr : bodyOf op i = .ok r) : r.st = none := by
  suffices hq : (bodyOf op i).Always (fun l => l.length = 64) Out.Quiet by
    rw [hr] at hq
    exact hq.2.2
  obtain ⟨hl, hu⟩ : 0x80 ≤ op ∧ op < 0x90 := by omega
  interval_cases op
  exacts [opFadd_quiet, opFsub_quiet, opFmul_quiet, opFfma_quiet, opFdiv_quiet, opFsqrt_quiet, opFmin_quiet, opFmax_quiet, opFcmp_quiet _,
    opFcvt_quiet, opFcls_quiet, opFtld_quiet _, opEnc8_quiet _, opDec8_quiet, ⟨rfl, rfl, rfl⟩, ⟨rfl, rfl, rfl⟩]

/-- A state that a body hands back holds the memory that it was given. -/
theorem bodyOf_st_mem {op : Nat} (h : op < 0x100) {i : Iss} {r : Out} (hr : bodyOf op i = .ok r) {s : State} (hs : r.st = some s)
    : s.mem = i.s.mem := by
  by_cases ho : op / 16 = 8
  · cases (bodyOf_float_st ho hr).symm.trans hs
  · have hf : (bodyOf op i).Framed op i := bodyOf_framed h
    rw [hr] at hf
    exact ((Out.Framed.claim hf s hs).1.mem ho).1

theorem Try.always_of_ok {α : Type} {P : α → Prop} {m : Try α} (h : ∀ a, m = .ok a → P a) : m.Always (fun _ => True) P := by
  cases m with
  | ok a => exact h a rfl
  | error e => cases e <;> trivial

theorem Try.always_of_forall {α : Type} {P : α → Prop} {m : Try α} (h : ∀ a, P a) : m.Always (fun _ => True) P :=
  Try.always_of_ok fun a _ => h a

/-- The issue of an instruction whose body keeps memory writes no more than an assist's record. -/
theorem State.issue_memWf {s : State} (h : Memory.wf s.mem) (op : Nat) (fm : Form) (o : Opnd) {body : Iss → Try Out}
    (hb : ∀ i r t, body i = .ok r → r.st = some t → t.mem = i.s.mem) : Memory.wf (s.issue op fm o body).mem := by
  simp only [State.issue]
  split
  · exact h
  · exact h
  split
  · exact h
  split
  · exact h
  · exact h
  · rw [State.setThr_mem, State.assistRecord, ite_mem, State.setThr_mem, memWf_ite, h]
    rw [State.poke_memWf _ _ _ (by exact h)]
    exact ite_self _
  · exact h
  · next r hr =>
    split
    · exact h
    split
    · exact h
    · rw [State.setThr_mem]
      cases ho : r.st with
      | none => exact h
      | some t =>
        have hq : Try.Always (fun _ => True) (fun r => ∀ t, r.st = some t → t.mem = s.mem) (Except.ok r) := by
          rw [← hr]
          split
          · exact trivial
          · exact Try.always_bind.mpr (Try.always_of_forall fun v => Try.always_of_ok fun r hr t ht => hb _ _ _ hr ht)
        rw [Option.getD_some, Try.always_ok.mp hq t ho]
        exact h

/-- Every event and every instruction keeps memory in canonical form. -/
theorem exec_keepsWf : Exec.KeepsWf exec := by
  intro i s h
  cases hv : i.view with
  | some v =>
    obtain ⟨op, fm, o⟩ := v
    rw [exec_issue hv]
    exact State.issue_memWf h op fm o fun _ _ _ hr hs => bodyOf_st_mem (view_op_lt hv) hr hs
  | none =>
    cases i
    case reservedOpcode => exact h
    case illegalOpcodeFf => exact h
    case groupCommit => exact execGroupCommit_memWf h ..
    case commitStep5Resume => exact execCommitStep5Resume_memWf h ..
    case resultReturn => exact execResultReturn_memWf h ..
    case lineFetch => exact execLineFetch_memWf h ..
    case messageDelivery => exact execMessageDelivery_memWf h ..
    case handlerMessageArrival => exact execHandlerMessageArrival_memWf h ..
    case handlerEntryTimeout => exact execHandlerEntryTimeout_memWf h ..
    case slotRotationStart => exact execSlotRotationStart_memWf h ..
    case channelDry => exact execChannelDry_memWf h ..
    case loadReadStep => exact execLoadReadStep_memWf h ..
    case writePerform => exact execWritePerform_memWf h ..
    case homeApply => exact execHomeApply_memWf h ..
    case atomicStep => exact execAtomicStep_memWf h ..
    case frontierPropagation => exact execFrontierPropagation_memWf h ..
    case extentAllocationWake => exact execExtentAllocationWake_memWf h ..
    case heatSweep => exact execHeatSweep_memWf h ..
    case extentMove => exact execExtentMove_memWf h ..
    case weightRefreshWindow => exact execWeightRefreshWindow_memWf h ..
    case scrubExtentClear => exact execScrubExtentClear_memWf h ..
    case vectorOpStart => exact execVectorOpStart_memWf h ..
    case vectorOpRetire => exact execVectorOpRetire_memWf h ..
    case tileZeroFillEnd => exact execTileZeroFillEnd_memWf h ..
    case tileTaskAccept => exact execTileTaskAccept_memWf h ..
    case tileTaskStart => exact execTileTaskStart_memWf h ..
    case tileTaskComplete => exact execTileTaskComplete_memWf h ..
    case trellisAccept => exact execTrellisAccept_memWf h ..
    case trellisCommandStart => exact execTrellisCommandStart_memWf h ..
    case trellisCommandRetire => exact execTrellisCommandRetire_memWf h ..
    case trellisImageSwap => exact execTrellisImageSwap_memWf h ..
    case ladleChunk => exact execLadleChunk_memWf h ..
    case pressChunk => exact execPressChunk_memWf h ..
    case netPacketSend => exact execNetPacketSend_memWf h ..
    case netPacketArrival => exact execNetPacketArrival_memWf h ..
    case netAckArrival => exact execNetAckArrival_memWf h ..
    case netResendTimeout => exact execNetResendTimeout_memWf h ..
    case netUnmatchedRetry => exact execNetUnmatchedRetry_memWf h ..
    case completionCounterStep => exact execCompletionCounterStep_memWf h ..
    case placerPass => exact execPlacerPass_memWf h ..
    case launchEnd => exact execLaunchEnd_memWf h ..
    case stealRequest => exact execStealRequest_memWf h ..
    case stealAnswer => exact execStealAnswer_memWf h ..
    case stealBackoffExpiry => exact execStealBackoffExpiry_memWf h ..
    case migrationArrival => exact execMigrationArrival_memWf h ..
    case nseAnswer => exact execNseAnswer_memWf h ..
    case shootdownReceipt => exact execShootdownReceipt_memWf h ..
    case shootdownAck => exact execShootdownAck_memWf h ..
    case frameWalk => exact execFrameWalk_memWf h ..
    case frameOpen => exact execFrameOpen_memWf h ..
    case frameRead => exact execFrameRead_memWf h ..
    case frameWrite => exact execFrameWrite_memWf h ..
    case frameMake => exact execFrameMake_memWf h ..
    case frameClose => exact execFrameClose_memWf h ..
    case frameRevoke => exact execFrameRevoke_memWf h ..
    case frameBind => exact execFrameBind_memWf h ..
    case frameUnbind => exact execFrameUnbind_memWf h ..
    case contextCreate => exact execContextCreate_memWf h ..
    case contextEnd => exact execContextEnd_memWf h ..
    case queueGo => exact execQueueGo_memWf h ..
    case queueCtlWrite => exact execQueueCtlWrite_memWf h ..
    case queueHeaderRead => exact execQueueHeaderRead_memWf h ..
    case packetParse => exact execPacketParse_memWf h ..
    case pktLaunch => exact execPktLaunch_memWf h ..
    case pktGlaunch => exact execPktGlaunch_memWf h ..
    case pktWait => exact execPktWait_memWf h ..
    case pktSignal => exact execPktSignal_memWf h ..
    case pktCopy => exact execPktCopy_memWf h ..
    case pktIb => exact execPktIb_memWf h ..
    case pktReplay => exact execPktReplay_memWf h ..
    case pktBind => exact execPktBind_memWf h ..
    case pktNop => exact execPktNop_memWf h ..
    case ibGranuleFetch => exact execIbGranuleFetch_memWf h ..
    case parserCoreFault => exact execParserCoreFault_memWf h ..
    case supervisorMismatch => exact execSupervisorMismatch_memWf h ..
    case supervisorCheckpoint => exact execSupervisorCheckpoint_memWf h ..
    case setPartition => exact execSetPartition_memWf h ..
    case removePartition => exact execRemovePartition_memWf h ..
    case activateFirmware => exact execActivateFirmware_memWf h ..
    case sliceExpiry => exact execSliceExpiry_memWf h ..
    case stopAnnouncement => exact execStopAnnouncement_memWf h ..
    case syncStop => exact execSyncStop_memWf h ..
    case flushToken => exact execFlushToken_memWf h ..
    case partitionSave => exact execPartitionSave_memWf h ..
    case partitionRestore => exact execPartitionRestore_memWf h ..
    case partitionResume => exact execPartitionResume_memWf h ..
    case graderSignature => exact execGraderSignature_memWf h ..
    case fallowLeaseStart => exact execFallowLeaseStart_memWf h ..
    case fallowLeaseEnd => exact execFallowLeaseEnd_memWf h ..
    case channelLeaseWaitRecord => exact execChannelLeaseWaitRecord_memWf h ..
    case scoreDecay => exact execScoreDecay_memWf h ..
    case pmackDeadlineExpiry => exact execPmackDeadlineExpiry_memWf h ..
    case duoVote => exact execDuoVote_memWf h ..
    case duoThirdCopy => exact execDuoThirdCopy_memWf h ..
    case quoteSign => exact execQuoteSign_memWf h ..
    case powerOnBoot => exact execPowerOnBoot_memWf h ..
    case mgmtRead => exact execMgmtRead_memWf h ..
    case packageReset => exact execPackageReset_memWf h ..
    case thermalHoldEnter => exact execThermalHoldEnter_memWf h ..
    case thermalHoldExit => exact execThermalHoldExit_memWf h ..
    case thermalShutdown => exact execThermalShutdown_memWf h ..
    case ladleRequestAccept => exact execLadleRequestAccept_memWf h ..
    case pressCommandAccept => exact execPressCommandAccept_memWf h ..
    case netRequestAccept => exact execNetRequestAccept_memWf h ..
    case powerLoss => exact execPowerLoss_memWf h ..
    all_goals cases hv

/-- Settles O48: each step is a schedule entry's instruction or event, an event that is due, a turn of a core or the placer's
tick, and each of them keeps the canonical form. -/
theorem stepKeepsMemoryCanonical : Obligations.StepKeepsMemoryCanonical := by
  unfold Obligations.StepKeepsMemoryCanonical
  intro s t h ht
  have hm : LeavesWf (step s) := State.move_memWf exec_keepsWf h
  rwa [ht] at hm

/-- Settles O47: no byte is listed at reset. -/
theorem resetMemoryCanonical : Obligations.ResetMemoryCanonical := rfl

end Sys2Proof.Machine
end

section
/-! SUPPORT. Device writes (R97, R213, R320): what memory, the writes told apart and the home hold after `poke` and
`zeroRange`, byte by byte. -/

namespace Sys2Proof.Machine

/-- A row that a filter on keys drops reads as the default. -/
theorem SMap.get_filter_key_false {α : Type} (d : α) {k : Nat} {p : Nat → Bool} (hp : p k = false) (m : SMap α) :
    SMap.get d k (m.filter fun r => p r.1) = d := by
  induction m with
  | nil => rfl
  | cons r t ih =>
    rw [List.filter_cons]
    split
    · next hr =>
      rw [SMap.get, if_neg fun h => by rw [← h, hp] at hr; cases hr]
      exact ih
    · exact ih

theorem locs_succ (l n : Nat) : locs l (n + 1) = l :: locs (l + 1) n := by
  simp only [locs, List.range_succ_eq_map, List.map_cons, List.map_map, Nat.add_zero]
  congr 2
  funext k
  simp only [Function.comp]
  omega

/-- What a location holds after bytes are set at consecutive locations. -/
theorem get_foldl_set_locs (a : Nat) (bs : List Byte) (l : Nat) (m : SMap Byte) :
    SMap.get 0#8 a (((locs l bs.length).zip bs).foldl (fun m (x, b) => SMap.set 0#8 x b m) m)
      = if l ≤ a ∧ a < l + bs.length then bs.getD (a - l) 0#8 else SMap.get 0#8 a m := by
  induction bs generalizing l m with
  | nil => rw [if_neg (by simp)]; rfl
  | cons b bs ih =>
    rw [List.length_cons, locs_succ, List.zip_cons_cons, List.foldl_cons, ih, SMap.get_set]
    obtain h | rfl | h : a < l ∨ a = l ∨ l < a := by omega
    · rw [if_neg (by omega), if_neg (by omega), if_neg (by omega)]
    · rw [if_neg (by omega), if_pos rfl, if_pos (by omega), Nat.sub_self]
      rfl
    · obtain ⟨k, rfl⟩ : ∃ k, a = l + 1 + k := ⟨a - (l + 1), by omega⟩
      rw [show l + 1 + k - (l + 1) = k by omega, show l + 1 + k - l = k + 1 by omega, List.getD_cons_succ, if_neg (by omega : l + 1 + k ≠ l)]
      exact if_congr (by omega) rfl rfl

/-- The writes of a location when those of a range are dropped. -/
theorem writes_outside (ws : List WByte) (l n a : Nat) :
    (ws.filter fun w => !(l ≤ w.loc && w.loc < l + n)).filter (fun w => w.loc == a)
      = if l ≤ a ∧ a < l + n then [] else ws.filter fun w => w.loc == a := by
  rw [List.filter_filter]
  split
  · next h =>
    refine List.filter_eq_nil_iff.mpr fun w _ hw => ?_
    simp only [Bool.and_eq_true, beq_iff_eq, Bool.not_eq_true', Bool.and_eq_false_iff, decide_eq_false_iff_not] at hw
    omega
  · next h =>
    refine List.filter_congr fun w _ => ?_
    cases hw : w.loc == a with
    | false => rfl
    | true =>
      obtain rfl := beq_iff_eq.mp hw
      simp only [Bool.true_and, Bool.not_eq_true', Bool.and_eq_false_iff, decide_eq_false_iff_not]
      omega

section
variable (s : State) (l n a : Nat) (bs : List Byte)

theorem State.get_poke : SMap.get 0#8 a (s.poke l bs).mem
    = if l ≤ a ∧ a < l + bs.length then bs.getD (a - l) 0#8 else SMap.get 0#8 a s.mem := get_foldl_set_locs ..

theorem State.writes_poke : (s.poke l bs).oom.writes a = if l ≤ a ∧ a < l + bs.length then [] else s.oom.writes a := writes_outside ..

theorem State.home_poke (h : l ≤ a ∧ a < l + bs.length) : (s.poke l bs).oom.home a = 0 :=
  SMap.get_filter_key_false (p := fun x => !(l ≤ x && x < l + bs.length)) 0 (by simpa using h) s.oom.hl

theorem State.get_zeroRange : SMap.get 0#8 a (s.zeroRange l n).mem = if l ≤ a ∧ a < l + n then 0#8 else SMap.get 0#8 a s.mem := by
  split
  · next h => exact SMap.get_filter_key_false (p := fun x => !(l ≤ x && x < l + n)) 0#8 (by simpa using h) s.mem
  · next h => exact SMap.get_filter_key (p := fun x => !(l ≤ x && x < l + n)) 0#8 (by simp; omega) s.mem

theorem State.writes_zeroRange : (s.zeroRange l n).oom.writes a = if l ≤ a ∧ a < l + n then [] else s.oom.writes a := writes_outside ..

end

/-- Settles O49, location by location. -/
theorem deviceWritesReadBack : Obligations.DeviceWritesReadBack := by
  unfold Obligations.DeviceWritesReadBack
  intro s l bs n h
  refine ⟨s.poke_memWf l bs h, s.zeroRange_memWf l n h, fun k hk => ?_, fun a ha => ?_, fun k hk => ?_, fun a ha => ?_⟩
  · have hin : l ≤ l + k ∧ l + k < l + bs.length := by omega
    refine ⟨?_, ?_, s.home_poke l _ bs hin⟩
    · rw [State.get_poke, if_pos hin, Nat.add_sub_cancel_left]
    · rw [State.writes_poke, if_pos hin]
  · have hout : ¬ (l ≤ a ∧ a < l + bs.length) := by omega
    exact ⟨by rw [State.get_poke, if_neg hout], by rw [State.writes_poke, if_neg hout]⟩
  · have hin : l ≤ l + k ∧ l + k < l + n := by omega
    exact ⟨by rw [State.get_zeroRange, if_pos hin], by rw [State.writes_zeroRange, if_pos hin]⟩
  · have hout : ¬ (l ≤ a ∧ a < l + n) := by omega
    exact ⟨by rw [State.get_zeroRange, if_neg hout], by rw [State.writes_zeroRange, if_neg hout]⟩

end Sys2Proof.Machine
end

section
/-! SUPPORT. The issue of FENCE, TFENCE and SBWAIT (R151 to R153). -/

namespace Sys2Proof.Machine

open Sys2Proof.Spec

section
variable {i : Instr} {s : State} {fm : Form} {o : Opnd} {a b c : Word}

/-- SBWAIT parks while a command of the thread has a write to come. -/
theorem opSbwait_parks (h : ((s.opened.pendingOf s.curCore s.curThr).any fun e => writesLater e.op) = true) :
    bodyOf 0x5B (s.iss 0x5B fm o a b c) = .error (.park 0x07) := if_pos h

/-- SBWAIT goes through with what the thread's Ladle commands wrote in its frontier. -/
theorem opSbwait_through (h : ((s.opened.pendingOf s.curCore s.curThr).any fun e => writesLater e.op) = false) :
    bodyOf 0x5B (s.iss 0x5B fm o a b c) = .ok { st := some (({ s.opened with
      oom := s.oom.see (agThread s.curCore s.curThr) (s.me.ladleIds.filter fun w => s.oom.ws.any fun v => v.id == w) } :
        State).modThr s.curCore s.curThr fun x => { x with ladleIds := [] }) } :=
  if_neg (ne_true_of_eq_false h)

end

/-- Settles O24: the fences defer their effect, and SBWAIT looks at what is pending. -/
theorem fencesIssue : Obligations.FencesIssue := by
  unfold Obligations.FencesIssue
  intro i s op fm o a b c hv hr
  refine ⟨?_, ?_, ?_, ?_⟩
  · rintro rfl
    exact exec_does hv hr rfl rfl rfl (Out.keepsReads_of_writes rfl _) rfl ⟨rfl, rfl, rfl, rfl, rfl, rfl, rfl, rfl, rfl, rfl, rfl⟩
  · rintro rfl
    exact exec_does hv hr rfl rfl rfl (Out.keepsReads_of_writes rfl _) rfl ⟨rfl, rfl, rfl, rfl, rfl, rfl, rfl, rfl, rfl, rfl, rfl⟩
  · rintro rfl hp
    refine exec_does_claim hv hr (opSbwait_through hp) rfl rfl rfl (Out.keepsReads_of_writes rfl _) ?_ ?_
      ⟨rfl, rfl, rfl, rfl, rfl, rfl, rfl, rfl, rfl, rfl, rfl⟩
    · rw [State.modThr, State.setThr_thr, if_pos ⟨rfl, rfl⟩]
      exact congrArg (·.grp.n) s.opened_thr
    · rw [State.modThr, State.setThr_thr, if_pos ⟨rfl, rfl⟩]
      exact congrArg (·.pc) s.opened_thr
  · rintro rfl hp hst
    exact ⟨_, (exec_issue hv s).trans (issue_park hr (opSbwait_parks hp)), State.OnlyThread.of_opened s _, by simp [Thread.park, hst]⟩

end Sys2Proof.Machine
end

section
/-! SUPPORT. The read step (R93, R96) and the perform step (R95) of the ordering machine. -/

namespace Sys2Proof.Machine

open Sys2Proof.Spec

/-! ### Reads of bytes no write of which is told apart -/

theorem Oom.eligible_of_settled {o : Oom} {a l : Nat} (h : o.writes l = []) : o.eligible a l = [0] := by
  simp [Oom.eligible, Oom.seenAt, h]

theorem pickOf_initial (pref : List Nat) : pickOf pref [0] = 0 := by
  unfold pickOf
  split
  · next h => simpa using List.find?_some h
  · rfl

/-- A location with no write has no write of any number. -/
theorem State.byteOf_of_settled {s : State} {l : Nat} (h : s.oom.writes l = []) (i : Nat) : s.byteOf l i = s.base l := by
  unfold State.byteOf
  rw [List.find?_eq_none.mpr]
  intro w hw hi
  have hf := List.filter_eq_nil_iff.mp h w hw
  exact hf (Bool.and_elim_right hi)

section
variable {s : State} {a : Nat} {ls : List Nat}

theorem State.picks_of_settled (h : Settled s ls) : s.picks a ls = ls.map fun _ => 0 := by
  have pick (pref : List Nat) : (ls.map fun l => pickOf pref (s.oom.eligible a l)) = ls.map fun _ => 0 :=
    List.map_congr_left fun l hl => by rw [Oom.eligible_of_settled (h l hl), pickOf_initial]
  simp only [State.picks, pick, ite_self]

theorem State.readEv_of_settled (h : Settled s ls) : (s.readEv a ls).2.1 = ls.map s.base := by
  simp only [State.readEv, State.picks_of_settled h, ← List.map_prod_left_eq_zip, List.map_map]
  exact List.map_congr_left fun l hl => State.byteOf_of_settled (h l hl) 0

end

theorem find_zip_map (f : Nat → Byte) {ls : List Nat} {l : Nat} (h : l ∈ ls) : (ls.zip (ls.map f)).find? (fun p => p.1 == l) = some (l, f l) := by
  induction ls with
  | nil => cases h
  | cons x ls ih =>
    rw [List.map_cons, List.zip_cons_cons, List.find?_cons]
    by_cases hx : x = l
    · simp [hx]
    · rw [beq_eq_false_iff_ne.mpr hx]
      exact ih ((List.mem_cons.mp h).resolve_left (Ne.symm hx))

/-- A read that nothing forwards to takes what memory holds. -/
theorem State.readFwd_of_settled {s : State} {ls : List Nat} (a : Nat) (hz : ∀ l ∈ ls, s.zLoc l = false) (h : Settled s ls) :
    (s.readFwd a [] ls).2.1 = ls.map s.base := by
  have hown : (ls.filter fun l => (youngest [] l).isNone && !s.zLoc l) = ls :=
    List.filter_eq_self.mpr fun l hl => by simp [youngest, hz l hl]
  simp only [State.readFwd, hown, State.readEv_of_settled h]
  refine List.map_congr_left fun l hl => ?_
  simp [youngest, hz l hl, find_zip_map s.base hl]

theorem State.readFwd_thr (s : State) (a : Nat) (st : List (List Nat × List Byte)) (ls : List Nat) (c t : Nat) :
    (s.readFwd a st ls).1.thr c t = s.thr c t := rfl

/-- No fence of the group waits for its join. -/
theorem State.joinFences_of_none {s : State} {c t pos : Nat} (h : (s.thr c t).grp.openFences pos = []) : s.joinFences c t pos = s := by
  simp only [State.joinFences, h, List.foldl_nil]

/-- A step of the group replaces a result that it has. -/
theorem State.setRes_res {s : State} {c t k : Nat} {q : LRes} (r : LRes) (h : (s.thr c t).grp.res[k]? = some q) :
    ((s.setRes c t k r).thr c t).grp.res[k]? = some r := by
  obtain ⟨hk, -⟩ := List.getElem?_eq_some_iff.mp h
  simp [State.setRes, State.modGrp, hk]

/-- The state that a read event leaves that nothing forwards to and that acquires nothing. -/
def State.readInto (s : State) (c t k : Nat) (r : LRes) (p : Part) : State :=
  let q := s.readFwd (agThread c t) [] (locs p.loc p.size)
  let ps := r.parts.set (k / 32) { p with got := some q.2.1 }
  ((q.1.heat (agThread c t) p.loc false).modThr c t fun y => { y.showWait false with seen := (y.seen ++ q.2.2).dedup }).setRes c t (k % 32)
    { r with parts := ps, done := ps.all fun q => q.got.isSome }

section
variable {s : State} {c t k : Nat} {r : LRes} {p : Part}

theorem State.readInto_mem : (s.readInto c t k r p).mem = s.mem := by
  rw [State.readInto, State.setRes_mem, State.modThr_mem, State.heat_mem, State.readFwd_mem]

theorem State.readInto_res (hr : (s.thr c t).grp.res[k % 32]? = some r) :
    ∃ q, ((s.readInto c t k r p).thr c t).grp.res[k % 32]? = some q
      ∧ q.parts = r.parts.set (k / 32) { p with got := some (s.readFwd (agThread c t) [] (locs p.loc p.size)).2.1 } := by
  refine ⟨_, State.setRes_res _ (q := r) ?_, rfl⟩
  rw [State.modThr_thr, if_pos ⟨rfl, rfl⟩, State.heat_thr, State.readFwd_thr]
  simp only [Thread.showWait]
  split <;> exact hr

/-- A read event that nothing holds up, forwards to or orders performs. -/
theorem exec_loadReadStep {cv : Conv} (hr : (s.thr c t).grp.res[k % 32]? = some r) (hv : r.val = .load cv none false)
    (hp : r.parts[k / 32]? = some p) (hg : p.got = none) (hm : s.mayPerform c t (k % 32) r = true) (hgone : s.goneLoc p.loc = false)
    (hw : s.inWindow p.loc = false) (hb : s.bad = []) (hf : (s.thr c t).grp.openFences r.pos = [])
    (hst : s.storesOf c t (s.thr c t).seq r.pos = []) : exec (.loadReadStep c t k) s = .next (s.readInto c t k r p) := by
  show execLoadReadStep c t k s = _
  have hpo (ls : List Nat) : s.poisoned [] ls = false := by simp [State.poisoned, hb]
  simp only [execLoadReadStep, hr, hv, hp, hg, hm, hgone, hw, State.joinFences_of_none hf, hst, hpo, Option.isSome_none, Bool.not_true,
    Bool.or_self, Bool.false_eq_true, if_false, State.readInto]

theorem loadReadStep_of_settled {cv : Conv} (hr : (s.thr c t).grp.res[k % 32]? = some r) (hv : r.val = .load cv none false)
    (hp : r.parts[k / 32]? = some p) (hg : p.got = none) (hm : s.mayPerform c t (k % 32) r = true) (hgone : s.goneLoc p.loc = false)
    (hw : s.inWindow p.loc = false) (hb : s.bad = []) (hf : (s.thr c t).grp.openFences r.pos = [])
    (hst : s.storesOf c t (s.thr c t).seq r.pos = []) (hz : ∀ l ∈ locs p.loc p.size, s.zLoc l = false)
    (h : Settled s (locs p.loc p.size)) :
    Goes (.loadReadStep c t k) s fun u => u.mem = s.mem ∧ ∃ q, (u.thr c t).grp.res[k % 32]? = some q
      ∧ q.parts[k / 32]? = some { p with got := some ((locs p.loc p.size).map s.base) } := by
  obtain ⟨q, hq, hparts⟩ := State.readInto_res (p := p) hr
  refine ⟨_, exec_loadReadStep hr hv hp hg hm hgone hw hb hf hst, State.readInto_mem, q, hq, ?_⟩
  obtain ⟨hk, -⟩ := List.getElem?_eq_some_iff.mp hp
  rw [hparts, State.readFwd_of_settled _ hz h]
  simp [hk]

end

end Sys2Proof.Machine
end

section
/-! SUPPORT. The perform step of a write event (R95, R98): the new writes, and what the home then holds. -/

namespace Sys2Proof.Machine

open Sys2Proof.Spec

/-- The writes that one event performs, byte by byte, numbered from `u` on. -/
def newBytes (u ev : Nat) (applied : Bool) : List Nat → List Byte → List WByte
  | l :: ls, b :: bs => { id := u, ev := ev, loc := l, val := b, applied := applied } :: newBytes (u + 1) ev applied ls bs
  | _, _ => []

theorem mem_newBytes {u ev : Nat} {applied : Bool} {ls : List Nat} {bs : List Byte} {w : WByte} (h : w ∈ newBytes u ev applied ls bs) :
    w.loc ∈ ls ∧ u ≤ w.id := by
  induction ls generalizing u bs with
  | nil => cases h
  | cons l ls ih =>
    cases bs with
    | nil => cases h
    | cons b bs =>
      obtain rfl | h := List.mem_cons.mp h
      · exact ⟨List.mem_cons_self, Nat.le_refl _⟩
      · obtain ⟨hl, hu⟩ := ih h
        exact ⟨List.mem_cons_of_mem _ hl, by omega⟩

/-- The write of the byte at a place of the event. -/
theorem newBytes_at {u ev : Nat} {applied : Bool} {ls : List Nat} {bs : List Byte} {j l : Nat} {b : Byte} (hn : ls.Nodup)
    (hl : ls[j]? = some l) (hb : bs[j]? = some b) : (newBytes u ev applied ls bs).filter (fun w => w.loc == l)
      = [{ id := u + j, ev := ev, loc := l, val := b, applied := applied }] := by
  induction ls generalizing u bs j with
  | nil => cases hl
  | cons x ls ih =>
    obtain ⟨hx, hn⟩ := List.nodup_cons.mp hn
    cases bs with
    | nil => cases hb
    | cons y bs =>
      cases j with
      | zero =>
        obtain rfl : x = l := Option.some.inj hl
        obtain rfl : y = b := Option.some.inj hb
        have hnone : (newBytes (u + 1) ev applied ls bs).filter (fun w => w.loc == x) = [] :=
          List.filter_eq_nil_iff.mpr fun w hw hi => hx ((beq_iff_eq.mp hi : w.loc = x) ▸ (mem_newBytes hw).1)
        rw [newBytes, List.filter_cons_of_pos (by simp), hnone]
        rfl
      | succ j =>
        have hne : x ≠ l := fun h => hx (h ▸ List.mem_of_getElem? hl)
        rw [newBytes, List.filter_cons_of_neg (by simpa using hne), ih hn hl hb, Nat.add_right_comm, Nat.add_assoc]

theorem find_newBytes {u ev : Nat} {applied : Bool} {ls : List Nat} {bs : List Byte} {j l : Nat} {b : Byte}
    (hl : ls[j]? = some l) (hb : bs[j]? = some b) : (newBytes u ev applied ls bs).find? (fun w => w.id == u + j && w.loc == l)
      = some { id := u + j, ev := ev, loc := l, val := b, applied := applied } := by
  induction ls generalizing u bs j with
  | nil => cases hl
  | cons x ls ih =>
    cases bs with
    | nil => cases hb
    | cons y bs =>
      cases j with
      | zero =>
        obtain rfl : x = l := Option.some.inj hl
        obtain rfl : y = b := Option.some.inj hb
        rw [newBytes, List.find?_cons_of_pos (by simp)]
        rfl
      | succ j =>
        rw [newBytes, List.find?_cons_of_neg (by simp), show u + (j + 1) = u + 1 + j by omega]
        exact ih hl hb

section
variable (o : Oom) (a ev : Nat) (applied : Bool)

theorem Oom.putBytes_ws (ls : List Nat) (bs : List Byte) : (o.putBytes a ev applied ls bs).ws = o.ws ++ newBytes o.nextId ev applied ls bs := by
  induction ls generalizing o bs with
  | nil => simp [Oom.putBytes, newBytes]
  | cons l ls ih =>
    cases bs with
    | nil => simp [Oom.putBytes, newBytes]
    | cons b bs =>
      rw [Oom.putBytes, ih]
      exact List.append_assoc ..

theorem Oom.putBytes_home_of_not_mem {l : Nat} {ls : List Nat} (h : l ∉ ls) (bs : List Byte) :
    (o.putBytes a ev applied ls bs).home l = o.home l := by
  induction ls generalizing o bs with
  | nil => rfl
  | cons x ls ih =>
    obtain ⟨hx, hl⟩ := not_or.mp (mt List.mem_cons.mpr h)
    cases bs with
    | nil => rfl
    | cons b bs =>
      rw [Oom.putBytes, ih _ hl]
      simp only [Oom.home, Oom.see]
      split
      · exact SMap.get_set_ne 0 hx _ _
      · rfl

/-- A byte that an event writes at home is applied last there. -/
theorem Oom.putBytes_home {ls : List Nat} {bs : List Byte} {j l : Nat} (hn : ls.Nodup) (hl : ls[j]? = some l) (hj : j < bs.length) :
    (o.putBytes a ev true ls bs).home l = o.nextId + j := by
  induction ls generalizing o bs j with
  | nil => cases hl
  | cons x ls ih =>
    obtain ⟨hx, hn⟩ := List.nodup_cons.mp hn
    cases bs with
    | nil => cases hj
    | cons b bs =>
      rw [Oom.putBytes]
      cases j with
      | zero =>
        obtain rfl : x = l := Option.some.inj hl
        rw [Oom.putBytes_home_of_not_mem _ _ _ _ hx]
        exact SMap.get_set_self ..
      | succ j =>
        rw [ih _ hn hl (Nat.lt_of_succ_lt_succ hj)]
        simp only [Oom.see]
        omega

end

section
variable (o : Oom) (a : Nat) (ls : List Nat) (bs : List Byte) (carried : List View) (rel : Option Nat) (home : Bool)

theorem Oom.put_ws : (o.put a ls bs carried rel home).ws = o.ws ++ newBytes o.nextId o.nextEv home ls bs := Oom.putBytes_ws ..

theorem Oom.put_writes (l : Nat) : (o.put a ls bs carried rel home).writes l
    = o.writes l ++ (newBytes o.nextId o.nextEv home ls bs).filter fun w => w.loc == l := by
  rw [Oom.writes, Oom.put_ws, List.filter_append]
  rfl

theorem Oom.put_home {ls : List Nat} {bs : List Byte} {j l : Nat} (hn : ls.Nodup) (hl : ls[j]? = some l) (hj : j < bs.length) :
    (o.put a ls bs carried rel true).home l = o.nextId + j := Oom.putBytes_home { o with nextEv := o.nextEv + 1 } a _ hn hl hj

end

/-! ### The perform step of a deferred store -/

theorem State.heat_oom (s : State) (a l : Nat) (w : Bool) : (s.heat a l w).oom = s.oom := by
  obtain h | ⟨_, _, _, h⟩ := s.heat_cases a l w
  · rw [h]
  · rw [h]; rfl

theorem State.asPiece_ws (s : State) (whole : Nat) : (s.asPiece whole).oom.ws = s.oom.ws := by
  unfold State.asPiece
  split <;> rfl

theorem State.asPiece_thr (s : State) (whole c t : Nat) : (s.asPiece whole).thr c t = s.thr c t := by
  unfold State.asPiece
  split <;> rfl

theorem State.put_thr (s : State) (a : Nat) (ls : List Nat) (bs : List Byte) (carried : List View) (rel : Option Nat) (c t : Nat) :
    (s.put a ls bs carried rel).thr c t = s.thr c t := rfl

section
variable {s : State} {c t k : Nat} {e : CqE}

/-- The state after a store of the commit queue has performed. -/
def State.stored (s : State) (c t k : Nat) (e : CqE) : State :=
  (((s.put (agThread c t) e.locs e.data (s.thr c t).rel e.rel).asPiece e.whole).heat (agThread c t) (e.locs.headD 0) true).dropCq c t k

theorem exec_writePerform (he : (s.thr c t).cq[k]? = some e) (hk : e.kind = .write) (ht : s.tileLost e = false)
    (hs : s.isSys (e.locs.headD 0) = false) (hw : s.writeMay c t e.seq e.locs e.rel.isSome = true) (hg : e.locs.find? s.goneLoc = none) :
    exec (.writePerform c t k) s = .next (s.stored c t k e) := by
  show execWritePerform c t k s = _
  simp only [execWritePerform, he, State.performCq, hk, ht, hw, hg, State.putMem, hs, Bool.not_true, Bool.false_eq_true, if_false, State.stored]

theorem State.stored_writes (l : Nat) : (s.stored c t k e).oom.writes l
    = s.oom.writes l ++ (newBytes s.oom.nextId s.oom.nextEv false e.locs e.data).filter fun w => w.loc == l := by
  rw [State.stored, State.dropCq, State.modThr_oom, State.heat_oom, Oom.writes, State.asPiece_ws]
  exact Oom.put_writes ..

theorem State.stored_mem : (s.stored c t k e).mem = s.mem := by
  rw [State.stored, State.dropCq_mem, State.heat_mem, State.asPiece_mem, State.put_mem]

theorem State.stored_cq : ((s.stored c t k e).thr c t).cq = (s.thr c t).cq.eraseIdx k := by
  rw [State.stored, State.dropCq, State.modThr_thr, if_pos ⟨rfl, rfl⟩, State.heat_thr, State.asPiece_thr, State.put_thr]

end

/-! ### The atomic step -/

theorem nodup_locs (l n : Nat) : (locs l n).Nodup := List.nodup_range.map fun _ _ h => Nat.add_left_cancel h

/-- After an atomic step has written some bytes their home holds them. -/
theorem State.homeBytes_of_put {s : State} {o : Oom} {a : Nat} {ls : List Nat} {bs : List Byte} {carried : List View} {rel : Option Nat}
    (ho : s.oom = o.put a ls bs carried rel true) (hid : ∀ w ∈ o.ws, w.id < o.nextId) (hn : ls.Nodup) (hlen : ls.length = bs.length) :
    s.homeBytes ls = bs := by
  refine List.ext_getElem? fun j => ?_
  rw [State.homeBytes, List.getElem?_map]
  cases hl : ls[j]? with
  | none =>
    rw [List.getElem?_eq_none_iff] at hl
    exact (List.getElem?_eq_none (by omega)).symm
  | some l =>
    obtain ⟨hj, -⟩ := List.getElem?_eq_some_iff.mp hl
    have hjb : j < bs.length := by omega
    have hb : bs[j]? = some bs[j] := List.getElem?_eq_getElem hjb
    have hold : o.ws.find? (fun w => w.id == o.nextId + j && w.loc == l) = none :=
      List.find?_eq_none.mpr fun w hw hi => by
        have := hid w hw
        have := beq_iff_eq.mp (Bool.and_elim_left hi)
        omega
    rw [hb, Option.map_some, State.byteOf, ho, Oom.put_home _ _ _ _ hn hl hjb, Oom.put_ws, List.find?_append, hold, Option.none_or,
      find_newBytes hl hb]

end Sys2Proof.Machine
end

section
/-! SUPPORT. The atomic step (R98, R150), and the stores of its group that perform before it (R95). -/

namespace Sys2Proof.Machine

open Sys2Proof.Spec

section
variable (s : State) (a scope : Nat)

theorem State.joinView_ws (v : View) : (s.joinView a scope v).oom.ws = s.oom.ws ∧ (s.joinView a scope v).oom.nextId = s.oom.nextId := by
  unfold State.joinView
  split <;> exact ⟨rfl, rfl⟩

theorem State.joinViews_ws (vs : List View) :
    (s.joinViews a scope vs).oom.ws = s.oom.ws ∧ (s.joinViews a scope vs).oom.nextId = s.oom.nextId :=
  ⟨foldl_same (fun u => u.oom.ws) (fun u v => (u.joinView_ws a scope v).1) vs s,
    foldl_same (fun u => u.oom.nextId) (fun u v => (u.joinView_ws a scope v).2) vs s⟩

theorem State.joinEvents_ws (evs : List Nat) :
    (s.joinEvents a scope evs).oom.ws = s.oom.ws ∧ (s.joinEvents a scope evs).oom.nextId = s.oom.nextId :=
  ⟨foldl_same (fun u => u.oom.ws) (fun u _ => (u.joinViews_ws a scope _).1) evs s,
    foldl_same (fun u => u.oom.nextId) (fun u _ => (u.joinViews_ws a scope _).2) evs s⟩

theorem State.joinViews_thr (vs : List View) (c t : Nat) : (s.joinViews a scope vs).thr c t = s.thr c t := by
  obtain ⟨o, h⟩ := s.joinViews_eq a scope vs
  rw [h]
  rfl

theorem State.joinEvents_thr (evs : List Nat) (c t : Nat) : (s.joinEvents a scope evs).thr c t = s.thr c t := by
  obtain ⟨o, h⟩ := s.joinEvents_eq a scope evs
  rw [h]
  rfl

end

section
variable (s : State) (a : Nat) (ls : List Nat) (acq rel : Option Nat) (carried : List View)

/-- What an acquiring atomic step has joined before it writes. -/
def State.atomicJoined : State :=
  let s1 : State := { s with oom := s.oom.see a (ls.map s.oom.home) }
  match acq with
  | some sc => s1.joinEvents a sc (s.oom.eventsOf (ls.map s.oom.home))
  | none => s1

theorem State.atomicJoined_ws : (s.atomicJoined a ls acq).oom.ws = s.oom.ws ∧ (s.atomicJoined a ls acq).oom.nextId = s.oom.nextId := by
  unfold State.atomicJoined
  split
  · exact State.joinEvents_ws ..
  · exact ⟨rfl, rfl⟩

theorem State.atomicJoined_thr (c t : Nat) : (s.atomicJoined a ls acq).thr c t = s.thr c t := by
  unfold State.atomicJoined
  split
  · exact State.joinEvents_thr ..
  · rfl

theorem State.atomicStep_some (bs : List Byte) :
    (s.atomicStep a ls acq rel carried (some bs)).1.oom = (s.atomicJoined a ls acq).oom.put a ls bs carried rel true := rfl

theorem State.atomicStep_none : (s.atomicStep a ls acq rel carried none).1 = s.atomicJoined a ls acq := rfl

theorem State.atomicStep_thr (new : Option (List Byte)) (c t : Nat) : (s.atomicStep a ls acq rel carried new).1.thr c t = s.thr c t := by
  cases new with
  | none => exact State.atomicJoined_thr ..
  | some bs => exact State.atomicJoined_thr s a ls acq c t

end

/-! ### An atomic without stores before it -/

section
variable {s : State} {c t k op size ord scope : Nat} {uns : Bool} {b cv : Word} {r : LRes} {p : Part}

/-- The number that the home holds at an atomic's bytes. -/
def State.homeNat (s : State) (p : Part) (size : Nat) : Nat := leNat (s.homeBytes (locs p.loc size))

/-- The state after an atomic has performed. -/
def State.atomicDone (s : State) (c t k op size ord scope : Nat) (uns : Bool) (b cv : Word) (r : LRes) (p : Part) : State :=
  let new := (atomicNew op size uns (s.homeNat p size) b.toNat cv.toNat).map (leBytes size)
  let q := s.atomicStep (agThread c t) (locs p.loc size) (if bit ord 0 then some scope else none) (if bit ord 1 then some scope else none)
    (s.thr c t).rel new
  ((q.1.heat (agThread c t) p.loc new.isSome).modThr c t fun y => { y with seen := (y.seen ++ q.2).dedup }).setRes c t k
    { r with val := .val (BitVec.ofNat 64 (s.homeNat p size)), parts := [], done := true }

theorem exec_atomicStep (hr : (s.thr c t).grp.res[k]? = some r) (hv : r.val = .atom op size ord scope uns b cv) (hp : r.parts = [p])
    (hd : r.done = false) (hm : s.mayPerform c t k r = true)
    (hw : s.writeMay c t ((s.thr c t).seq + 1) (locs p.loc size) (bit ord 1) = true)
    (ha : s.atomicReady (agThread c t) (locs p.loc size) = true) (hg : s.goneLoc p.loc = false) (hb : s.bad = [])
    (hf : (s.thr c t).grp.openFences r.pos = []) (he : (s.thr c t).grp.storesBefore r.pos (locs p.loc size) (bit ord 1) = []) :
    exec (.atomicStep c t k) s = .next (s.atomicDone c t k op size ord scope uns b cv r p) := by
  show execAtomicStep c t k s = _
  have hbad (ls : List Nat) : ls.any s.bad.contains = false := by simp [hb]
  simp only [execAtomicStep, hr, hv, hp, hd, hm, he, State.joinFences_of_none hf, List.foldl_nil, List.any_nil, Bool.or_false, hw, ha, hg,
    hbad, List.all_nil, List.isEmpty_nil, Bool.not_true, Bool.false_eq_true, if_false, State.atomicDone, State.homeNat]

theorem State.atomicDone_oom : (s.atomicDone c t k op size ord scope uns b cv r p).oom
    = (s.atomicStep (agThread c t) (locs p.loc size) (if bit ord 0 then some scope else none) (if bit ord 1 then some scope else none)
      (s.thr c t).rel ((atomicNew op size uns (s.homeNat p size) b.toNat cv.toNat).map (leBytes size))).1.oom := by
  rw [State.atomicDone, State.setRes, State.modGrp_oom, State.modThr_oom, State.heat_oom]

theorem State.atomicDone_res (hr : (s.thr c t).grp.res[k]? = some r) :
    ((s.atomicDone c t k op size ord scope uns b cv r p).thr c t).grp.res[k]?
      = some { r with val := .val (BitVec.ofNat 64 (s.homeNat p size)), parts := [], done := true } := by
  refine State.setRes_res _ (q := r) ?_
  rw [State.modThr_thr, if_pos ⟨rfl, rfl⟩, State.heat_thr, State.atomicStep_thr]
  exact hr

theorem State.atomicDone_homeBytes (hid : ∀ w ∈ s.oom.ws, w.id < s.oom.nextId) {n : Nat}
    (hn : atomicNew op size uns (s.homeNat p size) b.toNat cv.toNat = some n) :
    (s.atomicDone c t k op size ord scope uns b cv r p).homeBytes (locs p.loc size) = leBytes size n := by
  refine State.homeBytes_of_put (o := (s.atomicJoined (agThread c t) (locs p.loc size) (if bit ord 0 then some scope else none)).oom)
    (a := agThread c t) (carried := (s.thr c t).rel) (rel := if bit ord 1 then some scope else none) (State.atomicDone_oom.trans ?_) ?_ (nodup_locs ..) (by rw [length_locs, length_leBytes])
  · rw [hn]
    exact State.atomicStep_some ..
  · obtain ⟨hws, hnext⟩ := s.atomicJoined_ws (agThread c t) (locs p.loc size) (if bit ord 0 then some scope else none)
    rw [hws, hnext]
    exact hid

theorem State.atomicDone_ws_of_none (hn : atomicNew op size uns (s.homeNat p size) b.toNat cv.toNat = none) :
    (s.atomicDone c t k op size ord scope uns b cv r p).oom.ws = s.oom.ws := by
  rw [State.atomicDone_oom, hn]
  exact (State.atomicJoined_ws ..).1

end

/-! ### What a store leaves of the group it belongs to -/

/-- What a change of the state leaves of a thread that runs and waits at no barrier: it goes on with its group. -/
structure State.KeepsGrp (c t : Nat) (s u : State) : Prop where
  keeps : (s.thr c t).st ≠ 0 → (∀ l, (s.thr c t).phase ≠ .barrier l) →
    (u.thr c t).st ≠ 0 ∧ (u.thr c t).phase = (s.thr c t).phase ∧ (u.thr c t).grp.defs = (s.thr c t).grp.defs
      ∧ (u.thr c t).grp.res = (s.thr c t).grp.res

namespace State.KeepsGrp

section
variable {c t : Nat} {s u v : State}

theorem of_thr (h : u.thr c t = s.thr c t) : State.KeepsGrp c t s u := ⟨fun hs _ => by rw [h]; exact ⟨hs, rfl, rfl, rfl⟩⟩

theorem trans (h : State.KeepsGrp c t s u) (g : State.KeepsGrp c t u v) : State.KeepsGrp c t s v := ⟨fun hs hp => by
  obtain ⟨h1, h2, h3, h4⟩ := h.keeps hs hp
  obtain ⟨g1, g2, g3, g4⟩ := g.keeps h1 (by rwa [h2])
  exact ⟨g1, g2.trans h2, g3.trans h3, g4.trans h4⟩⟩

theorem foldl {α : Type} {f : State → α → State} (h : ∀ u a, State.KeepsGrp c t u (f u a)) (l : List α) (s : State) :
    State.KeepsGrp c t s (l.foldl f s) :=
  List.foldlRecOn (motive := State.KeepsGrp c t s) l f (of_thr rfl) fun u hu a _ => hu.trans (h u a)

/-- A change of a thread that leaves what it runs. -/
theorem of_modThr {f : Thread → Thread} (h : ∀ x, (f x).st = x.st ∧ (f x).phase = x.phase ∧ (f x).grp.defs = x.grp.defs ∧ (f x).grp.res = x.grp.res)
    (d k : Nat) : State.KeepsGrp c t s (s.modThr d k f) := ⟨fun hs _ => by
  rw [State.modThr_thr]
  split
  · next hi =>
    obtain ⟨rfl, rfl⟩ := hi
    obtain ⟨h1, h2, h3, h4⟩ := h (s.thr c t)
    exact ⟨by rwa [h1], h2, h3, h4⟩
  · exact ⟨hs, rfl, rfl, rfl⟩⟩

end

end State.KeepsGrp

theorem Thread.fill_st {x : Thread} (n : Nat) (v : Word) (vs : List View) (src : Nat) (b : Bool) (h : x.st ≠ 0) :
    (x.fill n v vs src b).st ≠ 0 := by
  simp only [Thread.fill]
  split
  · exact Nat.one_ne_zero
  · exact h

theorem State.takeMsg_st (s : State) (c cx : Nat) (m : HMsg) : ((s.takeMsg c cx m).thr c 7).st = (s.thr c 7).st := by
  obtain ⟨n, e⟩ := (Core.Gave.of_gives (s.core c) s.dtime cx m).thr 7
  rw [State.takeMsg_eq]
  simp only [State.thr, State.modCore_core, if_true, State.told_core, e]

/-- A core whose t7 runs does not stop it with a message. -/
theorem State.pump_st {s : State} {c : Nat} (h : (s.thr c 7).st ≠ 0) : ((s.pump c).thr c 7).st ≠ 0 := by
  simp only [State.pump, if_neg h]
  split
  · split
    · exact h
    · next m _ =>
      rw [State.haltWake_thr, State.modThr_thr, if_pos ⟨rfl, rfl⟩]
      exact Thread.fill_st _ _ _ _ _ (Thread.fill_st _ _ _ _ _ (Thread.fill_st _ _ _ _ _ ((s.takeMsg_st c _ m).symm ▸ h)))
  · exact h

theorem State.pump_keepsGrp (s : State) (d c t : Nat) : State.KeepsGrp c t s (s.pump d) := ⟨fun hs hp => by
  by_cases h7 : c = d ∧ t = 7
  · obtain ⟨rfl, rfl⟩ := h7
    exact ⟨State.pump_st hs, State.pump_live (fun x => x.phase) (fun _ _ _ _ _ _ _ _ _ _ _ => rfl) hs,
      State.pump_live (fun x => x.grp.defs) (fun _ _ _ _ _ _ _ _ _ _ _ => rfl) hs,
      State.pump_live (fun x => x.grp.res) (fun _ _ _ _ _ _ _ _ _ _ _ => rfl) hs⟩
  · obtain ⟨n, h⟩ := (s.pump_stirs d).thr c t hp h7
    rw [h]
    exact ⟨hs, rfl, rfl, rfl⟩⟩

/-- A core whose waiting messages are changed one by one. -/
def Core.withMsgs (f : HMsg → HMsg) (k : Core) : Core := { k with tq := k.tq.map f, nq := k.nq.map fun q => (q.1, q.2.map f) }

theorem State.restartWaits_core (s : State) (x c : Nat) : ∃ f, (s.restartWaits x).core c = (s.core c).withMsgs f :=
  ⟨_, SMap.get_mapVal (d := ({} : Core)) (f := Core.withMsgs fun m => if m.ctx = x then { m with since := s.dtime } else m) rfl c s.cores⟩

theorem State.restartWaits_thr (s : State) (x c t : Nat) : (s.restartWaits x).thr c t = s.thr c t := by
  obtain ⟨f, h⟩ := s.restartWaits_core x c
  rw [State.thr, h]
  rfl

theorem State.storeEntry_thr (s : State) (l : Nat) (bs : List Byte) (c t : Nat) : (s.storeEntry l bs).thr c t = s.thr c t := by
  simp only [State.storeEntry, State.storeDesc, State.storeLeaf]
  repeat' split
  all_goals rfl

namespace State.KeepsGrp

section
variable (s : State) (c t : Nat)

theorem pumpCtx (x : Nat) : State.KeepsGrp c t s (s.pumpCtx x) :=
  foldl (fun u _ => by split; exacts [u.pump_keepsGrp .., of_thr rfl]) _ s

theorem storeFile (oid off : Nat) (bs : List Byte) : State.KeepsGrp c t s (s.storeFile oid off bs) := by
  unfold State.storeFile
  split
  · split
    · exact of_thr rfl
    · next x _ _ =>
      refine .trans (of_thr ?_) (pumpCtx _ c t x)
      split
      · rfl
      · exact s.restartWaits_thr x c t
  · exact of_thr rfl
  · exact of_thr rfl

theorem storeSys (l : Nat) (bs : List Byte) : State.KeepsGrp c t s (s.storeSys l bs) := by
  unfold State.storeSys
  split
  · exact of_thr (s.storeEntry_thr l bs c t)
  · exact storeFile ..

theorem putMem (a : Nat) (ls : List Nat) (bs : List Byte) (carried : List View) (rel : Option Nat) :
    State.KeepsGrp c t s (s.putMem a ls bs carried rel) := by
  unfold State.putMem
  split
  · exact foldl (fun u _ => storeSys u ..) _ s
  · exact of_thr rfl

theorem capture (d k : Nat) (v : View) : State.KeepsGrp c t s (s.modThr d k fun y => y.capture v) :=
  of_modThr (f := fun y => y.capture v) (fun _ => ⟨rfl, rfl, rfl, rfl⟩) d k

theorem storeNow (g : Group) (e : Eff) : State.KeepsGrp c t s (s.storeNow c t g e) := by
  unfold State.storeNow
  refine .trans (foldl (fun u _ => capture u ..) _ s) (foldl (fun u p => ?_) _ _)
  exact .trans (putMem u ..) (of_thr (by rw [State.heat_thr, State.asPiece_thr]))

theorem joinFence (f : GFence) : State.KeepsGrp c t s (s.joinFence c t f) := by
  simp only [State.joinFence]
  refine .trans (of_thr ?_) (of_modThr ?_ c t)
  · rw [State.joinViews_thr, State.joinEvents_thr]
  · exact fun _ => ⟨rfl, rfl, rfl, rfl⟩

theorem joinFences (n : Nat) : State.KeepsGrp c t s (s.joinFences c t n) := foldl (fun u _ => joinFence u ..) _ s

end

end State.KeepsGrp

end Sys2Proof.Machine
end

section
/-! SUPPORT. The stores of a group that an atomic waits for perform (R95). -/

namespace Sys2Proof.Machine

open Sys2Proof.Spec

/-! ### The stores that an atomic performs after -/

section
variable {g g' : Group} {pos : Nat} {ls : List Nat} {rel : Bool} {e : Eff}

/-- The deferred stores of a group before a position. -/
def Group.storesTill (g : Group) (pos : Nat) : List Eff := g.defs.filter fun e => e.storeRel.isSome && decide (e.pos < pos)

theorem Group.storesBefore_release : g.storesBefore pos ls true = g.storesTill pos := rfl

theorem Group.mem_storesBefore_of_meets (he : e ∈ (g.storesTill pos).filter fun e => meets e.locs ls) : e ∈ g.storesBefore pos ls rel := by
  simp only [Group.storesBefore]
  split
  · exact List.mem_of_mem_filter he
  · exact he

theorem Group.storesBefore_of_none (h : ((g.storesTill pos).filter fun e => meets e.locs ls) = []) : g.storesBefore pos ls false = [] := by
  simp only [Group.storesBefore]
  rw [← Group.storesTill, h]
  rfl

/-- A deferred effect that is none of some stores. -/
def Eff.notIn (es : List Eff) (e : Eff) : Bool := !es.any fun f => f.pos == e.pos && f.op == e.op

theorem Eff.notIn_of_mem {es : List Eff} (h : e ∈ es) : e.notIn es = false := by
  simp only [Eff.notIn, Bool.not_eq_false', List.any_eq_true]
  exact ⟨e, h, by simp⟩

/-- When the stores that an atomic performs after have left the group, it performs after none. -/
theorem Group.storesBefore_of_dropped (h : g'.defs = g.defs.filter (Eff.notIn (g.storesBefore pos ls rel))) : g'.storesBefore pos ls rel = [] := by
  have hleft {e : Eff} (he : e ∈ g'.storesTill pos) : e ∈ g.storesTill pos ∧ e ∉ g.storesBefore pos ls rel := by
    obtain ⟨hd, hs⟩ := List.mem_filter.mp he
    rw [h] at hd
    obtain ⟨hg, hn⟩ := List.mem_filter.mp hd
    exact ⟨List.mem_filter.mpr ⟨hg, hs⟩, fun hm => Bool.noConfusion (hn.symm.trans (Eff.notIn_of_mem hm))⟩
  cases rel with
  | true => exact List.eq_nil_iff_forall_not_mem.mpr fun e he => (hleft he).2 (hleft he).1
  | false =>
    refine Group.storesBefore_of_none (List.filter_eq_nil_iff.mpr fun e he hm => (hleft he).2 ?_)
    exact Group.mem_storesBefore_of_meets (List.mem_filter.mpr ⟨(hleft he).1, hm⟩)

end

section
variable {s : State} {c t k op size ord scope : Nat} {uns : Bool} {b cv : Word} {r : LRes} {p : Part}

theorem State.writeMay_of_release {seq : Nat} {ls : List Nat} (rel : Bool) (h : s.writeMay c t seq ls true = true) :
    s.writeMay c t seq ls rel = true := by
  simp only [State.writeMay, Bool.and_eq_true, Bool.not_true, Bool.false_or] at h ⊢
  obtain ⟨⟨hq, hd⟩, hz⟩ := h
  exact ⟨⟨hq, by rw [hd, Bool.or_true]⟩, hz⟩

/-- A thread whose group is in flight runs, and waits at no barrier. -/
theorem State.runs_of_mayPerform (h : s.mayPerform c t k r = true) : (s.thr c t).st ≠ 0 ∧ ∀ l, (s.thr c t).phase ≠ .barrier l := by
  simp only [State.mayPerform, State.inFlight, Bool.and_eq_true, Bool.or_eq_true, beq_iff_eq, bne_iff_ne] at h
  obtain ⟨⟨⟨⟨⟨-, hst⟩, hph⟩, -⟩, -⟩, -⟩ := h
  refine ⟨hst, fun l hl => ?_⟩
  rw [hl] at hph
  exact hph.elim Phase.noConfusion Phase.noConfusion

/-- The state after some stores of a group have performed before an atomic of it. -/
def State.earlyDone (s : State) (c t pos : Nat) (es : List Eff) : State :=
  (es.foldl (fun st e => st.storeNow c t (s.thr c t).grp e) (s.joinFences c t pos)).modGrp c t fun g =>
    { g with defs := g.defs.filter (Eff.notIn es) }

theorem State.earlyDone_mem (pos : Nat) (es : List Eff) : (s.earlyDone c t pos es).mem = s.mem := by
  rw [State.earlyDone, State.modGrp_mem, foldl_same State.mem (fun u e => u.storeNow_mem c t _ e), State.joinFences_mem]

theorem State.earlyDone_grp (h : s.mayPerform c t k r = true) (pos : Nat) (es : List Eff) :
    ((s.earlyDone c t pos es).thr c t).grp.defs = (s.thr c t).grp.defs.filter (Eff.notIn es)
      ∧ ((s.earlyDone c t pos es).thr c t).grp.res = (s.thr c t).grp.res := by
  obtain ⟨hst, hph⟩ := State.runs_of_mayPerform h
  obtain ⟨-, -, hd, hr⟩ := ((State.KeepsGrp.joinFences s c t pos).trans
    (.foldl (fun u e => .storeNow u c t (s.thr c t).grp e) es _)).keeps hst hph
  rw [State.earlyDone, State.modGrp, State.modThr_thr, if_pos ⟨rfl, rfl⟩]
  exact ⟨congrArg (List.filter (Eff.notIn es)) hd, hr⟩

theorem exec_atomicStep_early (hr : (s.thr c t).grp.res[k]? = some r) (hv : r.val = .atom op size ord scope uns b cv) (hp : r.parts = [p])
    (hd : r.done = false) (hm : s.mayPerform c t k r = true)
    (he : (s.thr c t).grp.storesBefore r.pos (locs p.loc size) (bit ord 1) ≠ [])
    (hw : s.writeMay c t ((s.thr c t).seq + 1) (locs p.loc size) true = true)
    (hes : ∀ e ∈ (s.thr c t).grp.storesBefore r.pos (locs p.loc size) (bit ord 1), s.writeMay c t ((s.thr c t).seq + 1) e.locs true = true) :
    exec (.atomicStep c t k) s = .next (s.earlyDone c t r.pos ((s.thr c t).grp.storesBefore r.pos (locs p.loc size) (bit ord 1))) := by
  show execAtomicStep c t k s = _
  have hall (w : Bool) : ((s.thr c t).grp.storesBefore r.pos (locs p.loc size) (bit ord 1)).all
      (fun e => s.writeMay c t ((s.thr c t).seq + 1) e.locs w) = true :=
    List.all_eq_true.mpr fun e h => State.writeMay_of_release w (hes e h)
  simp only [execAtomicStep, hr, hv, hp, hd, hm, State.writeMay_of_release _ hw, hall, List.isEmpty_eq_false_iff.mpr he, Bool.not_true,
    Bool.or_self, Bool.not_false, Bool.false_eq_true, if_false, if_true]
  rfl

theorem atomicStep_early (hr : (s.thr c t).grp.res[k]? = some r) (hv : r.val = .atom op size ord scope uns b cv) (hp : r.parts = [p])
    (hd : r.done = false) (hm : s.mayPerform c t k r = true)
    (he : (s.thr c t).grp.storesBefore r.pos (locs p.loc size) (bit ord 1) ≠ [])
    (hw : s.writeMay c t ((s.thr c t).seq + 1) (locs p.loc size) true = true)
    (hes : ∀ e ∈ (s.thr c t).grp.storesBefore r.pos (locs p.loc size) (bit ord 1), s.writeMay c t ((s.thr c t).seq + 1) e.locs true = true) :
    Goes (.atomicStep c t k) s fun u => (u.thr c t).grp.storesBefore r.pos (locs p.loc size) (bit ord 1) = []
      ∧ (u.thr c t).grp.res = (s.thr c t).grp.res ∧ u.mem = s.mem := by
  obtain ⟨hdefs, hres⟩ := State.earlyDone_grp hm r.pos ((s.thr c t).grp.storesBefore r.pos (locs p.loc size) (bit ord 1))
  exact ⟨_, exec_atomicStep_early hr hv hp hd hm he hw hes, Group.storesBefore_of_dropped hdefs, hres, State.earlyDone_mem ..⟩

end

end Sys2Proof.Machine
end

section
/-! SUPPORT. The home step of an event (R97) and its propagation into every frontier (R333). -/

namespace Sys2Proof.Machine

open Sys2Proof.Spec

/-! ### The home step -/

/-- A write, applied at its home where its number is one of some. -/
def WByte.applyIn (ids : List Nat) (w : WByte) : WByte := if w.id ∈ ids then { w with applied := true } else w

section
variable (ids : List Nat) (w : WByte)

theorem WByte.applyIn_id : (w.applyIn ids).id = w.id := by unfold WByte.applyIn; split <;> rfl
theorem WByte.applyIn_ev : (w.applyIn ids).ev = w.ev := by unfold WByte.applyIn; split <;> rfl
theorem WByte.applyIn_loc : (w.applyIn ids).loc = w.loc := by unfold WByte.applyIn; split <;> rfl
theorem WByte.applyIn_val : (w.applyIn ids).val = w.val := by unfold WByte.applyIn; split <;> rfl

theorem WByte.applyIn_applied : (w.applyIn ids).applied = (decide (w.id ∈ ids) || w.applied) := by
  unfold WByte.applyIn
  split <;> simp [*]

theorem WByte.applyIn_cons (i : Nat) :
    (if w.id = i then { w with applied := true } else w : WByte).applyIn ids = w.applyIn (i :: ids) := by
  by_cases h : w.id = i <;> by_cases hi : w.id ∈ ids <;> simp [WByte.applyIn, h, hi]

end

section
variable (o : Oom) (e : Nat)

/-- The numbers of the writes of an event that its home step applies. -/
def Oom.applies (o : Oom) (e : Nat) : List Nat := (o.ws.filter fun w => w.ev == e && !o.settledAtHome w).map (·.id)

theorem Oom.applyEv_ws_sup : (o.applyEv e).ws = o.ws.map (WByte.applyIn (o.applies e)) ∧ (o.applyEv e).sup = o.sup := by
  unfold Oom.applyEv Oom.applies
  generalize o.ws.filter (fun w => w.ev == e && !o.settledAtHome w) = l
  induction l generalizing o with
  | nil =>
    refine ⟨(List.map_id'' (fun w => ?_) o.ws).symm, rfl⟩
    simp [WByte.applyIn]
  | cons w l ih =>
    obtain ⟨hw, hs⟩ := ih { o with
      ws := o.ws.map fun v => if v.id = w.id then { v with applied := true } else v
      hl := SMap.set 0 w.loc w.id o.hl }
    refine ⟨?_, hs⟩
    rw [List.foldl_cons, hw, List.map_map]
    exact List.map_congr_left fun v _ => WByte.applyIn_cons ..

theorem Oom.applyEv_writes (l : Nat) : (o.applyEv e).writes l = (o.writes l).map (WByte.applyIn (o.applies e)) := by
  rw [Oom.writes, (o.applyEv_ws_sup e).1, List.filter_map]
  congr 1
  exact List.filter_congr fun w _ => by simp [WByte.applyIn_loc]

theorem Oom.applyEv_below (u w : Nat) : (o.applyEv e).below u w = o.below u w := by
  rw [Oom.below, (o.applyEv_ws_sup e).2, Oom.below]

/-- A write that is settled at its home stays so; one that the step applies is so. -/
theorem Oom.applyEv_settledAtHome {w : WByte} (h : w.id ∈ o.applies e ∨ o.settledAtHome w = true) :
    (o.applyEv e).settledAtHome (w.applyIn (o.applies e)) = true := by
  rw [Oom.settledAtHome, WByte.applyIn_applied, WByte.applyIn_loc, WByte.applyIn_id, Oom.applyEv_writes, List.any_map]
  rcases h with h | h
  · simp [h]
  · rw [Oom.settledAtHome, Bool.or_eq_true, List.any_eq_true] at h
    obtain h | ⟨v, hv, h⟩ := h
    · simp [h]
    · obtain ⟨ha, hb⟩ := Bool.and_eq_true_iff.mp h
      rw [Bool.or_eq_true, List.any_eq_true]
      exact .inr ⟨v, hv, by simp [WByte.applyIn_applied, WByte.applyIn_id, Oom.applyEv_below, ha, hb]⟩

/-- After the home step of an event none of its bytes waits for one. -/
theorem Oom.canApply_applyEv : (o.applyEv e).canApply e = false := by
  rw [Oom.canApply, (o.applyEv_ws_sup e).1, List.any_map, List.any_eq_false]
  intro w hw hc
  obtain ⟨hev, hn⟩ := Bool.and_eq_true_iff.mp hc
  have hev : (w.ev == e) = true := by rwa [WByte.applyIn_ev] at hev
  have hs : (o.applyEv e).settledAtHome (w.applyIn (o.applies e)) = true := o.applyEv_settledAtHome e <| by
    cases hso : o.settledAtHome w with
    | true => exact .inr rfl
    | false => exact .inl (List.mem_map.mpr ⟨w, List.mem_filter.mpr ⟨hw, by simp [hev, hso]⟩, rfl⟩)
  rw [hs] at hn
  exact Bool.noConfusion hn

end

theorem homeApply_applies {s : State} {e : Nat} (h : s.oom.canApply e = true) :
    Goes (.homeApply e) s fun u => u.oom.canApply e = false ∧ u.mem = s.mem ∧ u.cores = s.cores
      ∧ ∀ l, (u.oom.writes l).map (fun w => (w.id, w.val)) = (s.oom.writes l).map fun w => (w.id, w.val) := by
  refine ⟨{ s with oom := s.oom.applyEv e }, ?_, s.oom.canApply_applyEv e, rfl, rfl, fun l => ?_⟩
  · show execHomeApply e s = _
    rw [execHomeApply, if_pos h]
  · rw [Oom.applyEv_writes, List.map_map]
    exact List.map_congr_left fun w _ => by simp [WByte.applyIn_id, WByte.applyIn_val]

/-! ### Writes that are no longer told apart -/

/-- What forgetting writes leaves: of the writes some, and each that is left and was in every frontier still is. -/
def Oom.Sheds (o o' : Oom) : Prop := ∀ w ∈ o'.ws, w ∈ o.ws ∧ (w.id ∈ o.all → w.id ∈ o'.all)

theorem Oom.Sheds.trans {o p q : Oom} (h : o.Sheds p) (g : p.Sheds q) : o.Sheds q := fun w hw =>
  ⟨(h w (g w hw).1).1, fun ha => (g w hw).2 ((h w (g w hw).1).2 ha)⟩

theorem Oom.mem_forget_ws {o : Oom} {gone : List Nat} {w : WByte} : w ∈ (o.forget gone).ws ↔ w ∈ o.ws ∧ w.id ∉ gone := by
  simp [Oom.forget]

theorem Oom.mem_forget_all {o : Oom} {gone : List Nat} {i : Nat} : i ∈ (o.forget gone).all ↔ i ∈ o.all ∧ i ∉ gone := by
  simp [Oom.forget]

theorem Oom.forget_sheds (o : Oom) (gone : List Nat) : o.Sheds (o.forget gone) := fun _ hw =>
  ⟨(Oom.mem_forget_ws.mp hw).1, fun ha => Oom.mem_forget_all.mpr ⟨ha, (Oom.mem_forget_ws.mp hw).2⟩⟩

section
variable {s : State}

theorem State.settleByte_sheds (s : State) (w : WByte) : s.oom.Sheds (s.settleByte w).oom := s.oom.forget_sheds [w.id]

theorem State.settleBytes_sheds (l : List WByte) (s : State) : s.oom.Sheds (l.foldl (fun st w => st.settleByte w) s).oom :=
  List.foldlRecOn (motive := fun u : State => s.oom.Sheds u.oom) l _ (fun _ hw => ⟨hw, id⟩)
    fun u hu w _ => hu.trans (u.settleByte_sheds w)

/-- A write that is settled is told apart no longer. -/
theorem State.settleBytes_drops {l : List WByte} {w : WByte} (h : w ∈ l) : w ∉ (l.foldl (fun st w => st.settleByte w) s).oom.ws := by
  induction l generalizing s with
  | nil => cases h
  | cons v l ih =>
    obtain rfl | h := List.mem_cons.mp h
    · intro hw
      have hw := (State.settleBytes_sheds l (s.settleByte w) w hw).1
      exact (Oom.mem_forget_ws.mp hw).2 List.mem_cons_self
    · exact ih h

/-- A byte holds the value that every write settled there has: one settles there, or the byte holds it before. -/
theorem State.settleBytes_mem {l : List WByte} {x : Nat} {b : Byte} (hv : ∀ v ∈ l, v.loc = x → v.val = b)
    (h : (∃ v ∈ l, v.loc = x) ∨ SMap.get 0#8 x s.mem = b) : SMap.get 0#8 x (l.foldl (fun st w => st.settleByte w) s).mem = b := by
  induction l generalizing s with
  | nil => exact h.resolve_left fun ⟨_, hm, _⟩ => List.not_mem_nil hm
  | cons v l ih =>
    refine ih (fun w hw => hv w (List.mem_cons_of_mem _ hw)) ?_
    by_cases hx : v.loc = x
    · right
      rw [← hv v List.mem_cons_self hx, ← hx]
      exact SMap.get_set_self ..
    · refine h.imp (fun ⟨w, hw, hl⟩ => ⟨w, (List.mem_cons.mp hw).resolve_left fun he => hx (he ▸ hl), hl⟩) fun hm => ?_
      exact (SMap.get_set_ne 0#8 (Ne.symm hx) ..).trans hm

end

/-! ### Propagation -/

section
variable {o : Oom} {e : Nat} {w : WByte}

/-- The applied writes of an event in every frontier. -/
def Oom.published (o : Oom) (e : Nat) : Oom := { o with all := (o.all ++ ((o.ws.filter fun w => w.ev == e && w.applied).map (·.id))).dedup }

/-- Then without the writes that one of every frontier supersedes. -/
def Oom.pruned (o : Oom) (e : Nat) : Oom := (o.published e).forget (((o.published e).ws.filter (o.published e).dead).map (·.id))

theorem Oom.mem_published (hw : w ∈ o.ws) (he : w.ev = e) (ha : w.applied = true) : w.id ∈ (o.published e).all := by
  simp only [Oom.published, List.mem_dedup, List.mem_append, List.mem_map, List.mem_filter]
  exact .inr ⟨w, ⟨hw, by simp [he, ha]⟩, rfl⟩

theorem Oom.pruned_sheds : (o.published e).Sheds (o.pruned e) := (o.published e).forget_sheds _

/-- A write is left that shares its number with no write that is superseded. -/
theorem Oom.mem_pruned (hw : w ∈ o.ws) (h : ∀ v ∈ o.ws, v.id = w.id → (o.published e).dead v = false) : w ∈ (o.pruned e).ws := by
  refine Oom.mem_forget_ws.mpr ⟨hw, fun hg => ?_⟩
  obtain ⟨v, hv, hi⟩ := List.mem_map.mp hg
  obtain ⟨hv, hd⟩ := List.mem_filter.mp hv
  exact Bool.noConfusion (hd.symm.trans (h v hv hi))

theorem Oom.not_mem_pruned {g : Nat} (hg : g ∈ (o.published e).all) (hb : o.below w.id g = true) : w ∉ (o.pruned e).ws := fun hw => by
  obtain ⟨hm, hn⟩ := Oom.mem_forget_ws.mp hw
  have hd : (o.published e).dead w = true := List.any_eq_true.mpr ⟨g, hg, hb⟩
  exact hn (List.mem_map.mpr ⟨w, List.mem_filter.mpr ⟨hm, hd⟩, rfl⟩)

/-- A write is settled that is alone at its location and in its whole, applied last at home, superseded by none, and carries no view. -/
theorem Oom.settled_pruned (hw : w ∈ (o.pruned e).ws) (ha : w.id ∈ (o.published e).all) (hh : o.home w.loc = w.id) (hl : o.writes w.loc = [w])
    (hv : ∀ v ∈ o.ws, o.sameWhole v w = true → v = w) (hr : (SMap.get {} w.ev o.evs).views = []) : (o.pruned e).settled w = true := by
  have hall : w.id ∈ (o.pruned e).all := (Oom.pruned_sheds w hw).2 ha
  have hmem {v : WByte} (h : v ∈ (o.pruned e).ws) : v ∈ o.ws := (Oom.pruned_sheds v h).1
  have hone : (o.pruned e).writes w.loc = [w] := by
    have hsub : List.Sublist ((o.pruned e).writes w.loc) [w] := hl ▸ (List.filter_sublist.filter _)
    have hin : w ∈ (o.pruned e).writes w.loc := List.mem_filter.mpr ⟨hw, by simp⟩
    exact hsub.eq_of_length_le (List.length_pos_of_mem hin)
  have hwhole : ((o.pruned e).ws.all fun v => !(o.pruned e).sameWhole v w || (o.pruned e).all.contains v.id || (o.pruned e).dead v) = true :=
    List.all_eq_true.mpr fun v hv' => by
      cases hs : (o.pruned e).sameWhole v w with
      | false => rfl
      | true =>
        rw [hv v (hmem hv') hs]
        simp [hall]
  have hviews : (SMap.get {} w.ev (o.pruned e).evs).views = [] := hr
  have hhome : (o.pruned e).home w.loc = w.id := hh
  rw [Oom.settled, hwhole, hone, hhome, hviews]
  simp [hall]

end

section
variable {s : State} {busy : Nat → Bool} {e : Nat} {w : WByte}

/-- The writes that a propagation settles. -/
def State.settles (s : State) (busy : Nat → Bool) (e : Nat) : List WByte :=
  (s.oom.pruned e).ws.filter fun w => (s.oom.pruned e).settled w && !busy (SMap.get {} w.ev (s.oom.pruned e).evs).whole

/-- The state once they have become memory. -/
def State.afterSettles (s : State) (busy : Nat → Bool) (e : Nat) : State :=
  (s.settles busy e).foldl (fun st w => st.settleByte w) { s with oom := s.oom.pruned e }

theorem State.propagate_eq : ∃ evs, s.propagate busy e = { s.afterSettles busy e with oom := { (s.afterSettles busy e).oom with evs := evs } } :=
  ⟨_, rfl⟩

theorem State.mem_of_settles (h : w ∈ s.settles busy e) : w ∈ s.oom.ws := (Oom.pruned_sheds w (List.mem_of_mem_filter h)).1

theorem State.afterSettles_sheds : (s.oom.published e).Sheds (s.afterSettles busy e).oom :=
  Oom.pruned_sheds.trans (State.settleBytes_sheds _ _)

theorem State.afterSettles_mem {l : Nat} (h : s.oom.writes l = []) : SMap.get 0#8 l (s.afterSettles busy e).mem = SMap.get 0#8 l s.mem :=
  State.settleBytes_mem (fun _ hv hl => (List.filter_eq_nil_iff.mp h _ (State.mem_of_settles hv) (beq_iff_eq.mpr hl)).elim) (.inr rfl)

theorem State.afterSettles_settled (h : w ∈ s.settles busy e) (hl : s.oom.writes w.loc = [w]) :
    w ∉ (s.afterSettles busy e).oom.ws ∧ SMap.get 0#8 w.loc (s.afterSettles busy e).mem = w.val := by
  refine ⟨State.settleBytes_drops h, State.settleBytes_mem (fun v hv hx => ?_) (.inl ⟨w, h, rfl⟩)⟩
  have hin : v ∈ s.oom.writes w.loc := List.mem_filter.mpr ⟨State.mem_of_settles hv, beq_iff_eq.mpr hx⟩
  rw [hl, List.mem_singleton] at hin
  rw [hin]

end

theorem frontierPropagation_publishes {s : State} {e : Nat} (h : s.oom.canPropagate e = true) :
    Goes (.frontierPropagation e) s fun u =>
      (∀ w ∈ u.oom.ws, w ∈ s.oom.ws)
      ∧ (∀ l, s.oom.writes l = [] → SMap.get 0#8 l u.mem = SMap.get 0#8 l s.mem)
      ∧ ∀ w ∈ s.oom.ws, w.ev = e → w.applied = true →
        (w ∈ u.oom.ws → ∀ a, u.oom.knows a w.id = true)
        ∧ (∀ v, s.oom.below v.id w.id = true → v ∉ u.oom.ws)
        ∧ (s.oom.writes w.loc = [w] → s.oom.home w.loc = w.id → (∀ v ∈ s.oom.ws, v.id = w.id ∨ s.oom.sameWhole v w = true → v = w) →
            (∀ g, s.oom.below w.id g = false) → s.viewsOf e = [] → s.piecesWait (SMap.get {} e s.oom.evs).whole = false →
            w ∉ u.oom.ws ∧ SMap.get 0#8 w.loc u.mem = w.val) := by
  obtain ⟨evs, hu⟩ := State.propagate_eq (s := s.noteHits) (busy := s.piecesWait) (e := e)
  have hsheds := State.afterSettles_sheds (s := s.noteHits) (busy := s.piecesWait) (e := e)
  refine ⟨s.noteHits.propagate s.piecesWait e, ?_, ?_⟩
  · show execFrontierPropagation e s = _
    rw [execFrontierPropagation, if_pos h]
  · rw [hu]
    refine ⟨fun w hw => (hsheds w hw).1, fun l hl => State.afterSettles_mem (s := s.noteHits) hl, fun w hw hev happ => ?_⟩
    have hall : w.id ∈ (s.oom.published e).all := Oom.mem_published hw hev happ
    refine ⟨fun hin a => ?_, fun v hb hin => ?_, fun hl hh hv hg hr hp => ?_⟩
    · have := (hsheds w hin).2 hall
      simp only [Oom.knows, Bool.or_eq_true, List.contains_iff_mem]
      exact .inr this
    · exact Oom.not_mem_pruned hall hb (State.settleBytes_sheds _ _ v hin).1
    · have hleft : w ∈ (s.oom.pruned e).ws := Oom.mem_pruned hw fun v hv' hi => by
        rw [hv v hv' (.inl hi)]
        exact List.any_eq_false.mpr fun g _ hb => Bool.noConfusion (hb.symm.trans (hg g))
      have hset := Oom.settled_pruned hleft hall hh hl (fun v hv' hs => hv v hv' (.inr hs)) (by rw [hev]; exact hr)
      have hbusy : s.piecesWait (SMap.get {} w.ev (s.oom.pruned e).evs).whole = false := by rw [hev]; exact hp
      refine State.afterSettles_settled (s := s.noteHits) (List.mem_filter.mpr ⟨hleft, ?_⟩) hl
      exact Bool.and_eq_true_iff.mpr ⟨hset, by rw [show s.noteHits.oom = s.oom from rfl, hbusy]; rfl⟩

end Sys2Proof.Machine
end

section
/-! The steps of the ordering machine. -/

namespace Sys2Proof.Machine

open Sys2Proof.Spec

theorem writePerform_stores {s : State} {c t k : Nat} {e : CqE} (he : (s.thr c t).cq[k]? = some e) (hk : e.kind = .write)
    (ht : s.tileLost e = false) (hs : s.isSys (e.locs.headD 0) = false) (hw : s.writeMay c t e.seq e.locs e.rel.isSome = true)
    (hg : e.locs.find? s.goneLoc = none) (hn : e.locs.Nodup) :
    Goes (.writePerform c t k) s fun u =>
      (u.thr c t).cq = (s.thr c t).cq.eraseIdx k ∧ u.mem = s.mem
      ∧ (∀ (j l : Nat) (b : Byte), e.locs[j]? = some l → e.data[j]? = some b →
          ∃ w, u.oom.writes l = s.oom.writes l ++ [w] ∧ w.val = b ∧ w.applied = false)
      ∧ (∀ l, l ∉ e.locs → u.oom.writes l = s.oom.writes l) := by
  refine ⟨_, exec_writePerform he hk ht hs hw hg, State.stored_cq, State.stored_mem, fun j l b hl hb => ?_, fun l hl => ?_⟩
  · exact ⟨_, (State.stored_writes l).trans (by rw [newBytes_at hn hl hb]), rfl, rfl⟩
  · have hnone : (newBytes s.oom.nextId s.oom.nextEv false e.locs e.data).filter (fun w => w.loc == l) = [] :=
      List.filter_eq_nil_iff.mpr fun w hw hi => hl ((beq_iff_eq.mp hi : w.loc = l) ▸ (mem_newBytes hw).1)
    rw [State.stored_writes, hnone, List.append_nil]

/-- Settles O52: read, write, home, atomic and propagation steps, each from its own rule. -/
theorem memoryEvents : Obligations.MemoryEvents := by
  unfold Obligations.MemoryEvents
  refine ⟨fun s c t k r p cv hr hv hp hg hm hgone hw hb hf hst hz h => loadReadStep_of_settled hr hv hp hg hm hgone hw hb hf hst hz h,
    fun s c t k e he hk ht hs hw hg _ hn => writePerform_stores he hk ht hs hw hg hn, fun s e h => homeApply_applies h,
    fun s c t k op size ord scope uns b cv r p hr hv hp hd hm hw ha hg hb hf hid he => ?_,
    fun s c t k op size ord scope uns b cv r p hr hv hp hd hm he hw hes => atomicStep_early hr hv hp hd hm he hw hes,
    fun s e h => frontierPropagation_publishes h⟩
  exact ⟨_, exec_atomicStep hr hv hp hd hm hw ha hg hb hf he, State.atomicDone_res hr, fun n hn => State.atomicDone_homeBytes hid hn,
    State.atomicDone_ws_of_none⟩

end Sys2Proof.Machine
end

section
/-! SUPPORT. What the Network Engine's part of the state is, and what leaves it as it is (R235, R236). -/

namespace Sys2Proof.Machine

open Sys2Proof.Spec

/-- The dies with their requests, the packets and replies on their way, and the cycle. -/
def State.wire (s : State) : SMap Die × List (Nat × NetPkt) × List (Nat × NetReply) × Nat := (s.dies, s.pkts, s.acks, s.cyc)

section
variable {s u : State}

theorem State.die_of_wire (h : u.wire = s.wire) (d : Nat) : u.die d = s.die d := congrArg (SMap.get ({} : Die) d) (congrArg Prod.fst h : u.dies = s.dies)
theorem State.pkts_of_wire (h : u.wire = s.wire) : u.pkts = s.pkts := congrArg (fun w => w.2.1) h
theorem State.acks_of_wire (h : u.wire = s.wire) : u.acks = s.acks := congrArg (fun w => w.2.2.1) h
theorem State.cyc_of_wire (h : u.wire = s.wire) : u.cyc = s.cyc := congrArg (fun w => w.2.2.2) h

end

section
variable (s : State)

@[simp] theorem State.modCore_wire (c : Nat) (f : Core → Core) : (s.modCore c f).wire = s.wire := rfl
@[simp] theorem State.modThr_wire (c t : Nat) (f : Thread → Thread) : (s.modThr c t f).wire = s.wire := rfl
@[simp] theorem State.modCtx_wire (x : Nat) (f : Context → Context) : (s.modCtx x f).wire = s.wire := rfl
@[simp] theorem State.setExtent_wire (oid x : Nat) (e : Extent) : (s.setExtent oid x e).wire = s.wire := rfl
@[simp] theorem State.asWhole_wire (whole since : Nat) : (s.asWhole whole since).wire = s.wire := rfl
@[simp] theorem State.put_wire (a : Nat) (ls : List Nat) (bs : List Byte) (carried : List View) (rel : Option Nat) :
    (s.put a ls bs carried rel).wire = s.wire := rfl
@[simp] theorem State.readFwd_wire (a : Nat) (st : List (List Nat × List Byte)) (ls : List Nat) : (s.readFwd a st ls).1.wire = s.wire := rfl

@[simp] theorem State.heat_wire (a l : Nat) (w : Bool) : (s.heat a l w).wire = s.wire := by
  obtain h | ⟨_, _, _, h⟩ := s.heat_cases a l w
  · rw [h]
  · rw [h, State.setExtent_wire]

@[simp] theorem State.takeViews_wire (a : Nat) (vs : List View) : (s.takeViews a vs).wire = s.wire := by
  obtain ⟨o, h⟩ := s.joinViews_eq a 5 vs
  rw [State.takeViews, h]
  rfl

/-! ### Messages that move -/

@[simp] theorem State.told_wire (m : HMsg) : (s.told m).wire = s.wire := by
  simp only [State.told]
  split
  · exact s.modCtx_wire ..
  · rfl

@[simp] theorem State.takeMsg_wire (c x : Nat) (m : HMsg) : (s.takeMsg c x m).wire = s.wire := by
  rw [State.takeMsg_eq, State.modCore_wire, State.told_wire]

@[simp] theorem State.haltWake_wire (v : State) (c : Nat) : (s.haltWake v c).wire = v.wire :=
  State.haltWake_rest State.wire (fun u _ => u.modCore_wire ..) s v c

@[simp] theorem State.pump_wire (c : Nat) : (s.pump c).wire = s.wire := by
  simp only [State.pump]
  repeat' split
  all_goals simp

@[simp] theorem State.pumpCtx_wire (x : Nat) : (s.pumpCtx x).wire = s.wire :=
  foldl_same State.wire (fun u r => by split <;> simp) s.cores s

/-! ### Writes -/

@[simp] theorem State.storeEntry_wire (l : Nat) (bs : List Byte) : (s.storeEntry l bs).wire = s.wire := by
  simp only [State.storeEntry, State.storeDesc, State.storeLeaf]
  repeat' split
  all_goals rfl

@[simp] theorem State.storeFile_wire (oid off : Nat) (bs : List Byte) : (s.storeFile oid off bs).wire = s.wire := by
  unfold State.storeFile
  split
  · split
    · rfl
    · rw [State.pumpCtx_wire, State.modCtx_wire]
      split <;> rfl
  · rfl
  · rfl

@[simp] theorem State.storeSys_wire (l : Nat) (bs : List Byte) : (s.storeSys l bs).wire = s.wire := by
  unfold State.storeSys
  split <;> simp

@[simp] theorem State.putMem_wire (a : Nat) (ls : List Nat) (bs : List Byte) (carried : List View) (rel : Option Nat) :
    (s.putMem a ls bs carried rel).wire = s.wire := by
  unfold State.putMem
  split
  · exact foldl_same State.wire (fun u p => u.storeSys_wire ..) _ s
  · rfl

@[simp] theorem State.writeAt_wire (a l : Nat) (bs : List Byte) (carried : List View) : (s.writeAt a l bs carried).wire = s.wire := by
  unfold State.writeAt
  split
  · exact s.putMem_wire ..
  · exact foldl_same State.wire (fun u p => u.put_wire ..) _ s

@[simp] theorem State.writeAll_wire (a : Nat) (ls : List (Nat × Nat)) (bs : List Byte) : (s.writeAll a ls bs).wire = s.wire := by
  induction ls generalizing s bs with
  | nil => rfl
  | cons p ls ih => rw [State.writeAll, ih, State.heat_wire, State.writeAt_wire]

@[simp] theorem State.writePkt_wire (a : Nat) (ls : List (Nat × Nat)) (bs : List Byte) : (s.writePkt a ls bs).wire = s.wire := by
  rw [State.writePkt, State.asWhole_wire, State.writeAll_wire]

/-! ### Completions -/

@[simp] theorem State.wakeOn_wire (c prsn : Nat) : (s.wakeOn c prsn).wire = s.wire :=
  foldl_same State.wire (fun u r => by split <;> simp) _ s

@[simp] theorem State.complete_wire (e : Eff) (eng id cause info : Nat) : (s.complete e eng id cause info).wire = s.wire := by
  simp only [State.complete]
  split
  · rfl
  · rw [State.wakeOn_wire, State.modCore_wire]

@[simp] theorem State.oweCounter_wire (a : Nat) (e : Eff) (ctr : Word) (cause : Nat) : (s.oweCounter a e ctr cause).wire = s.wire := by
  simp only [State.oweCounter]
  split <;> rfl

theorem State.complete_oom (e : Eff) (eng id cause info : Nat) : (s.complete e eng id cause info).oom = s.oom := by
  simp only [State.complete]
  split
  · rfl
  · exact foldl_same State.oom (fun u r => by split <;> rfl) _ _

theorem State.oweCounter_oom (a : Nat) (e : Eff) (ctr : Word) (cause : Nat) : (s.oweCounter a e ctr cause).oom = s.oom := by
  simp only [State.oweCounter]
  split <;> rfl

end

/-! ### Reads -/

theorem State.engRead_wire {s u : State} {a l n : Nat} {bs : List Byte} (h : s.engRead a l n = .bytes u bs) : u.wire = s.wire := by
  simp only [State.engRead] at h
  split at h
  · cases h
  split at h
  · cases h
  split at h
  · cases h
  · rw [← (Got.bytes.inj h).1]
    exact foldl_same (fun q : State × List Byte => q.1.wire) (fun q p => State.heat_wire ..) _ (s, [])

theorem State.readAll_wire {a : Nat} {rd : List (Nat × Nat)} {s u : State} {bs : List Byte} (h : s.readAll a rd = some (u, bs)) :
    u.wire = s.wire := by
  induction rd generalizing s bs with
  | nil =>
    obtain ⟨rfl, -⟩ := Prod.mk.inj (Option.some.inj h)
    rfl
  | cons p rd ih =>
    obtain ⟨read, hread⟩ : ∃ f, f = State.engRead := ⟨_, rfl⟩
    rw [State.readAll, ← hread] at h
    split at h
    · next hr =>
      obtain ⟨⟨v, b⟩, hv, he⟩ := Option.map_eq_some_iff.mp h
      obtain ⟨rfl, -⟩ := Prod.mk.inj he
      exact (ih hv).trans (State.engRead_wire (hread ▸ hr))
    · cases h

end Sys2Proof.Machine
end

section
/-! SUPPORT. The Network Engine's requests: accepted, ended, their packets sent and acknowledged (R235 to R237, R335 to R338). -/

namespace Sys2Proof.Machine

open Sys2Proof.Spec

/-! ### A request that is replaced -/

section
variable {s u : State} {d k i : Nat} {r w : NReq}

theorem State.setReq_net (s : State) (d : Nat) (r : NReq) :
    ((s.setReq d r).die d).net = (s.die d).net.map fun w => if w.id = r.id then r else w := by
  rw [State.setReq, State.modDie_die, if_pos rfl]

/-- A request that is replaced stands where it stood. -/
theorem State.setReq_at (hk : (s.die d).net[k]? = some w) (hi : w.id = r.id) : ((s.setReq d r).die d).net[k]? = some r := by
  rw [State.setReq_net, List.getElem?_map, hk, Option.map_some, if_pos hi]

theorem State.setReq_one (hn : (s.die d).net = [w]) (hi : w.id = r.id) : ((s.setReq d r).die d).net = [r] := by
  rw [State.setReq_net, hn, List.map_singleton, if_pos hi]

/-- A request that ends is its record, with the cause. -/
theorem State.endReq_net (s : State) (d : Nat) (r : NReq) (cause sub : Nat) :
    ((s.endReq d r cause sub).die d).net = ((s.setReq d { r with ended := true, cause := cause, sub := sub }).die d).net := by
  rw [State.endReq, State.die_of_wire (State.oweCounter_wire ..), State.die_of_wire (State.complete_wire ..)]

theorem State.endReq_at (hk : (s.die d).net[k]? = some w) (hi : w.id = r.id) (cause sub : Nat) :
    ((s.endReq d r cause sub).die d).net[k]? = some { r with ended := true, cause := cause, sub := sub } := by
  rw [State.endReq_net]
  exact State.setReq_at hk hi

theorem State.endReq_one (hn : (s.die d).net = [w]) (hi : w.id = r.id) (cause sub : Nat) :
    ((s.endReq d r cause sub).die d).net = [{ r with ended := true, cause := cause, sub := sub }] := by
  rw [State.endReq_net]
  exact State.setReq_one hn hi

theorem State.endReq_acks (s : State) (d : Nat) (r : NReq) (cause sub : Nat) : (s.endReq d r cause sub).acks = s.acks := by
  rw [State.endReq, State.acks_of_wire (State.oweCounter_wire ..), State.acks_of_wire (State.complete_wire ..)]
  rfl

theorem State.endReq_oom (s : State) (d : Nat) (r : NReq) (cause sub : Nat) : (s.endReq d r cause sub).oom = s.oom := by
  rw [State.endReq, State.oweCounter_oom, State.complete_oom]
  rfl

theorem NReq.setPkt_pkt (r : NReq) (i : Nat) (p : PktSt) : (r.setPkt i p).pkt i = p := SMap.get_set_self ..

end

/-! ### The accepting of a work request -/

section
variable {s : State} {c : Nat} {e : Eff} {rest : List Eff}

/-- The request that a work request makes (R235). -/
def NReq.ofWork (n : Nat) (e : Eff) : NReq :=
  { id := n, e := e, op := e.op - 0xE7, len := nrLen e.data, lptr := nrLptr e.data, peer := nrPeer e.data
    tag := nrTag e.data, ticket := BitVec.ofNat 128 (leAt e.data 0x18 16), roff := leAt e.data 0x28 8, cc := nrCc e.data
    fence := bit (leAt e.data 1 1) 1, total := if e.op = 0xE9 then 0 else pktCount (nrLen e.data) }

theorem exec_netRequestAccept (hq : SMap.get [] 4 (s.core c).q = e :: rest) (hr : s.cmdReady e = true) (hs : s.quiet c = false) :
    exec (.netRequestAccept c) s = .next (((s.joinCmd (agNet (dieOf c)) e).popCmd c 4).modDie (dieOf c) fun q =>
      { q with net := q.net ++ [NReq.ofWork q.netNext e], netNext := q.netNext + 1 }) := by
  show execNetRequestAccept c s = _
  have hop : (e.op - 0xE7 = 2) = (e.op = 0xE9) := propext (by omega)
  simp only [execNetRequestAccept, hq, hr, hs, hop, Bool.not_true, Bool.or_self, Bool.false_eq_true, if_false, NReq.ofWork]

theorem netRequestAccept_accepts (hq : SMap.get [] 4 (s.core c).q = e :: rest) (hr : s.cmdReady e = true) (hs : s.quiet c = false) :
    Goes (.netRequestAccept c) s fun u => SMap.get [] 4 (u.core c).q = rest ∧ (u.die (dieOf c)).netNext = (s.die (dieOf c)).netNext + 1
      ∧ (u.die (dieOf c)).net = (s.die (dieOf c)).net ++ [NReq.ofWork (s.die (dieOf c)).netNext e] := by
  have hdie : ((s.joinCmd (agNet (dieOf c)) e).popCmd c 4).die (dieOf c) = s.die (dieOf c) :=
    (State.die_of_wire ((State.modCore_wire ..).trans (s.takeViews_wire ..)) _)
  have hcore : (s.joinCmd (agNet (dieOf c)) e).core c = s.core c := by
    obtain ⟨o, h⟩ := s.joinViews_eq (agNet (dieOf c)) 5 (if e.views.isEmpty then [s.viewFrom (agThread e.core e.thr) 5] else e.views)
    rw [State.joinCmd, State.takeViews, h]
    rfl
  refine ⟨_, exec_netRequestAccept hq hr hs, ?_, ?_, ?_⟩
  · have hpop : (((s.joinCmd (agNet (dieOf c)) e).popCmd c 4).core c).q = SMap.set [] 4 rest (s.core c).q := by
      rw [State.popCmd, State.modCore_core, if_pos rfl, hcore, hq, List.tail_cons]
    show SMap.get [] 4 (((s.joinCmd (agNet (dieOf c)) e).popCmd c 4).core c).q = rest
    rw [hpop]
    exact SMap.get_set_self ..
  · rw [State.modDie_die, if_pos rfl, hdie]
  · rw [State.modDie_die, if_pos rfl, hdie]

end

/-! ### The sending of a packet -/

section
variable {s s1 : State} {d k i : Nat} {lost : Bool} {r : NReq} {rd : List (Nat × Nat)} {bs : List Byte}

theorem State.sendPkt_of_send (hop : r.op = 1) (hc : s.chkRange r.e.core r.e.ctx r.lptr (i * 2048 : Nat) (pktLen r.len i) false = .ok rd)
    (hb : s.readAll (agNet d) rd = some (s1, bs)) : s.sendPkt d r i lost = s1.sentPkt d r i bs lost := by
  rw [State.sendPkt, if_neg (by rw [hop]; decide), hc]
  simp only [hb]

/-- A packet that is sent leaves its request with one copy more, at this cycle. -/
theorem State.sentPkt_net (hk : (s.die d).net[k]? = some r) (data : List Byte) (lost : Bool) :
    ((s.sentPkt d r i data lost).die d).net[k]?
      = some (r.setPkt i { r.pkt i with sends := (r.pkt i).sends + 1, last := s.cyc, refused := false }) := by
  simp only [State.sentPkt]
  split
  · exact State.setReq_at hk rfl
  · exact State.setReq_at hk rfl

theorem State.sentPkt_pkts_lost (data : List Byte) : (s.sentPkt d r i data true).pkts = s.pkts := rfl

theorem State.sentPkt_pkts (data : List Byte) : ∃ x, (s.sentPkt d r i data false).pkts = s.pkts ++ [(x,
    { kind := netKind r.op, src := portName d r.e.ctx, dst := r.peer, msg := r.id, idx := i, len := r.len, tag := r.tag
      ticket := r.ticket, roff := r.roff, data := data })] := ⟨_, rfl⟩

/-- What a copy of a packet leaves once its bytes have been read. -/
theorem State.sendPkt_net (hk : (s.die d).net[k]? = some r) (hop : r.op = 1)
    (hc : s.chkRange r.e.core r.e.ctx r.lptr (i * 2048 : Nat) (pktLen r.len i) false = .ok rd)
    (hb : s.readAll (agNet d) rd = some (s1, bs)) :
    ((s.sendPkt d r i lost).die d).net[k]? = some (r.setPkt i { r.pkt i with sends := (r.pkt i).sends + 1, last := s.cyc, refused := false }) := by
  have hw := State.readAll_wire hb
  rw [State.sendPkt_of_send hop hc hb, State.sentPkt_net ((State.die_of_wire hw d).symm ▸ hk), State.cyc_of_wire hw]

theorem NReq.sends_of_send (hop : r.op = 1) (he : r.ended = false) : r.sends = true := by simp [NReq.sends, hop, he]

theorem exec_netPacketSend (hk : (s.die d).net[k]? = some r) (hop : r.op = 1) (he : r.ended = false) (hi : i < r.total)
    (h0 : (r.pkt i).sends = 0) (hrf : (r.pkt i).refused = false) (hd : (r.pkt i).done = false) (hf : s.netFree d r = true)
    (hq : s.quiet r.e.core = false) : exec (.netPacketSend d k i lost) s = .next (s.sendPkt d r i lost) := by
  show execNetPacketSend d k i lost s = _
  simp [execNetPacketSend, hk, NReq.sends_of_send hop he, Nat.not_le.mpr hi, h0, hrf, hd, hf, hq]

theorem netPacketSend_sends (hk : (s.die d).net[k]? = some r) (hop : r.op = 1) (he : r.ended = false) (hi : i < r.total)
    (h0 : (r.pkt i).sends = 0) (hrf : (r.pkt i).refused = false) (hd : (r.pkt i).done = false) (hf : s.netFree d r = true)
    (hq : s.quiet r.e.core = false) (hc : s.chkRange r.e.core r.e.ctx r.lptr (i * 2048 : Nat) (pktLen r.len i) false = .ok rd)
    (hb : s.readAll (agNet d) rd = some (s1, bs)) :
    Goes (.netPacketSend d k i lost) s fun u =>
      (∃ w, (u.die d).net[k]? = some w ∧ (w.pkt i).sends = 1 ∧ (w.pkt i).last = s.cyc)
      ∧ (lost = true → u.pkts = s.pkts)
      ∧ (lost = false → ∃ x p, u.pkts = s.pkts ++ [(x, p)] ∧ p.kind = .send ∧ p.dst = r.peer ∧ p.msg = r.id ∧ p.idx = i ∧ p.data = bs) := by
  have hsend := State.sendPkt_of_send (lost := lost) hop hc hb
  have hpkts := State.pkts_of_wire (State.readAll_wire hb)
  refine ⟨_, exec_netPacketSend hk hop he hi h0 hrf hd hf hq, ⟨_, State.sendPkt_net hk hop hc hb, ?_, ?_⟩, fun hl => ?_, fun hl => ?_⟩
  · rw [NReq.setPkt_pkt, h0]
  · rw [NReq.setPkt_pkt]
  · rw [hsend, hl, State.sentPkt_pkts_lost, hpkts]
  · obtain ⟨x, hx⟩ := State.sentPkt_pkts (s := s1) (d := d) (r := r) (i := i) bs
    rw [hsend, hl, ← hpkts]
    exact ⟨x, _, hx, by simp only [netKind, hop, if_true], rfl, rfl, rfl, rfl⟩

/-! ### The sending of a packet again -/

theorem exec_netResendTimeout (hk : (s.die d).net[k]? = some r) (hop : r.op = 1) (he : r.ended = false) (hi : i < r.total)
    (h0 : 0 < (r.pkt i).sends) (hrf : (r.pkt i).refused = false) (hd : (r.pkt i).done = false) (hdue : r.due i s.cyc = true)
    (hq : s.quiet r.e.core = false) : exec (.netResendTimeout d k i lost) s
      = .next (if (r.pkt i).sends ≥ 8 then s.endReq d r 0x71 else s.sendPkt d r i lost) := by
  show execNetResendTimeout d k i lost s = _
  simp only [execNetResendTimeout, hk, NReq.sends_of_send hop he, Nat.not_le.mpr hi, Nat.ne_of_gt h0, hrf, hd, hdue, hq, decide_false,
    Bool.not_true, Bool.or_self, Bool.false_eq_true, if_false]
  split <;> rfl

theorem netResendTimeout_resends (hk : (s.die d).net[k]? = some r) (hop : r.op = 1) (he : r.ended = false) (hi : i < r.total)
    (hrf : (r.pkt i).refused = false) (hd : (r.pkt i).done = false) (hdue : r.due i s.cyc = true) (hq : s.quiet r.e.core = false) :
    (8 ≤ (r.pkt i).sends → Goes (.netResendTimeout d k i lost) s fun u => ∃ w, (u.die d).net[k]? = some w ∧ w.ended = true ∧ w.cause = 0x71)
    ∧ (0 < (r.pkt i).sends → (r.pkt i).sends < 8 →
        s.chkRange r.e.core r.e.ctx r.lptr (i * 2048 : Nat) (pktLen r.len i) false = .ok rd → s.readAll (agNet d) rd = some (s1, bs) →
        Goes (.netResendTimeout d k i lost) s fun u => ∃ w, (u.die d).net[k]? = some w ∧ (w.pkt i).sends = (r.pkt i).sends + 1) := by
  refine ⟨fun h8 => ?_, fun h0 h8 hc hb => ?_⟩
  · have hx := exec_netResendTimeout (lost := lost) hk hop he hi (by omega) hrf hd hdue hq
    rw [if_pos h8] at hx
    exact ⟨_, hx, _, State.endReq_at hk rfl .., rfl, rfl⟩
  · have hx := exec_netResendTimeout (lost := lost) hk hop he hi h0 hrf hd hdue hq
    rw [if_neg (Nat.not_le.mpr h8)] at hx
    exact ⟨_, hx, _, State.sendPkt_net hk hop hc hb, by rw [NReq.setPkt_pkt]⟩

theorem exec_netUnmatchedRetry (hk : (s.die d).net[k]? = some r) (hop : r.op = 1) (he : r.ended = false) (ht : r.total = 1)
    (hrf : (r.pkt 0).refused = true) (hl : (r.pkt 0).last + 17000 ≤ s.cyc) (hq : s.quiet r.e.core = false) :
    exec (.netUnmatchedRetry d k lost) s = .next (s.sendPkt d r 0 lost) := by
  show execNetUnmatchedRetry d k lost s = _
  have hagain : ((List.range 1).filter fun i => (r.pkt i).refused && decide ((r.pkt i).last + 2 * 8500 ≤ s.cyc)) = [0] :=
    List.filter_eq_self.mpr fun i hi => by
      obtain rfl : i = 0 := by simpa using hi
      simpa [hrf] using hl
  simp only [execNetUnmatchedRetry, hk, ht, hagain, NReq.sends_of_send hop he, hq, he, List.isEmpty_cons, List.foldl_cons, List.foldl_nil,
    Bool.not_true, Bool.or_self, Bool.false_eq_true, if_false]

theorem netUnmatchedRetry_resends (hk : (s.die d).net[k]? = some r) (hop : r.op = 1) (he : r.ended = false) (ht : r.total = 1)
    (hrf : (r.pkt 0).refused = true) (hl : (r.pkt 0).last + 17000 ≤ s.cyc) (hq : s.quiet r.e.core = false)
    (hc : s.chkRange r.e.core r.e.ctx r.lptr (0 : Nat) (pktLen r.len 0) false = .ok rd) (hb : s.readAll (agNet d) rd = some (s1, bs)) :
    Goes (.netUnmatchedRetry d k lost) s fun u => ∃ w, (u.die d).net[k]? = some w ∧ (w.pkt 0).refused = false
      ∧ (w.pkt 0).sends = (r.pkt 0).sends + 1 := by
  refine ⟨_, exec_netUnmatchedRetry hk hop he ht hrf hl hq, _, State.sendPkt_net hk hop (by rwa [Nat.zero_mul]) hb, ?_, ?_⟩
  · rw [NReq.setPkt_pkt]
  · rw [NReq.setPkt_pkt]

end

end Sys2Proof.Machine
end

section
/-! SUPPORT. What reaches a port of the Network Engine (R236, R326, R338), and the counter step (R237). -/

namespace Sys2Proof.Machine

open Sys2Proof.Spec

/-! ### Messages of one packet -/

section
variable {r : NReq}

theorem pktCount_one {n : Nat} (h0 : 0 < n) (h : n ≤ 2048) : pktCount n = 1 := by
  unfold pktCount
  omega

theorem NReq.allDone_one (ht : r.total = 1) : r.allDone = (r.pkt 0).done := by
  rw [NReq.allDone, ht]
  exact Bool.and_true _

theorem NReq.placed_one (ht : r.total = 1) (hd : (r.pkt 0).done = true) : r.placed = [0] := by
  rw [NReq.placed, ht]
  show List.filter _ [0] = [0]
  simp [hd]

end

/-! ### A packet that finds its post -/

section
variable {s : State} {d x : Nat} {p : NetPkt} {r : NReq} {wr : List (Nat × Nat)}

/-- A post, taken by the message of a packet (R236). -/
def NReq.takes (r : NReq) (p : NetPkt) : NReq := { r with posted := true, from_ := p.src, msg := p.msg, total := pktCount p.len }

/-- A post all of whose one packet is placed. -/
def NReq.filled (r : NReq) (p : NetPkt) : NReq := (r.takes p).setPkt 0 { done := true }

theorem State.recvSend_of_post (hb : bit p.tag.toNat 63 = false) (hn : (s.die d).net = [r]) (hop : r.op = 2) (hp : r.posted = false)
    (he : r.ended = false) (hx : r.e.ctx = x) (ht : r.tag = p.tag) (hpeer : r.peer = BitVec.allOnes 64 ∨ r.peer = p.src) (hf : r.fence = false)
    (hs : s.stopReached r.e.core = false) : s.recvSend d x p = s.placePost d (r.takes p) p := by
  have hrec : s.recordOf d x 2 p = none := by simp [State.recordOf, hn, hp]
  have hfree : s.netFree d r = true := by simp [State.netFree, hf]
  have hacc : (r.peer == BitVec.allOnes 64 || r.peer == p.src) = true := by
    rw [Bool.or_eq_true, beq_iff_eq, beq_iff_eq]
    exact hpeer
  have hfind : (s.die d).net.find? (fun r => r.op == 2 && !r.posted && !r.ended && r.e.ctx == x && r.tag == p.tag
      && (r.peer == BitVec.allOnes 64 || r.peer == p.src) && s.netFree d r && !s.stopReached r.e.core) = some r := by
    rw [hn]
    exact List.find?_cons_of_pos (by simp only [hop, hp, he, hx, ht, hacc, hfree, hs, beq_self_eq_true, Bool.not_false, Bool.and_self])
  simp only [State.recvSend, hb, hrec, hfind, Bool.false_eq_true, if_false, NReq.takes]

/-- The state once the one packet of a message has been placed in its post. -/
def State.postFilled (s : State) (d : Nat) (r : NReq) (p : NetPkt) (wr : List (Nat × Nat)) : State :=
  ((s.writePkt (agNet d) wr p.data).endReq d (r.filled p) 0).replyTo p [0] 0

theorem State.placePost_of_one (hi : p.idx = 0) (h0 : 0 < p.len) (h : p.len ≤ 2048) (hl : p.data.length = p.len) (hr : p.len ≤ r.len)
    (he : r.ended = false) (hpk : r.pkts = [])
    (hc : s.chkRange r.e.core r.e.ctx r.lptr (0 : Nat) p.len true = .ok wr) : s.placePost d (r.takes p) p = .took (s.postFilled d r p wr) := by
  have hnone : (r.takes p).pkt 0 = {} := by rw [NReq.pkt, NReq.takes, hpk]; rfl
  have hdone : ((r.filled p).pkt 0).done = true := by rw [NReq.filled, NReq.setPkt_pkt]
  have htot : (r.filled p).total = 1 := pktCount_one h0 h
  have hall : (r.filled p).allDone = true := by rw [NReq.allDone_one htot, hdone]
  have hstood : (r.filled p).stood = [0] := by
    rw [NReq.stood, NReq.placed_one htot hdone]
    exact List.filter_cons_of_pos (decide_eq_true (by rw [Nat.zero_mul]; exact Nat.lt_of_lt_of_le h0 hr))
  have hlen : min p.data.length ((r.takes p).len - 0 * 2048) = p.len := by
    rw [hl, Nat.zero_mul, Nat.sub_zero]
    exact Nat.min_eq_left hr
  have hend : ((r.takes p).ended || false) = false := by rw [Bool.or_false]; exact he
  have hchk : s.chkRange (r.takes p).e.core (r.takes p).e.ctx (r.takes p).lptr ((0 * 2048 : Nat) : Int) p.len true = .ok wr := by
    rw [Nat.zero_mul]
    exact hc
  have htake : p.data.take p.len = p.data := hl ▸ List.take_length
  have hlt : ¬ (r.takes p).len < p.len := Nat.not_lt.mpr hr
  simp only [State.placePost, hi, hnone, hend, hlen, Nat.ne_of_gt h0, hchk, htake, Bool.false_eq_true, if_false]
  rw [← NReq.filled, hstood, hall, if_pos rfl, if_neg hlt]
  rfl

theorem State.postFilled_net (hn : (s.die d).net = [r]) :
    ((s.postFilled d r p wr).die d).net = [{ r.filled p with ended := true, cause := 0, sub := 0 }] := by
  refine State.endReq_one (s := s.writePkt (agNet d) wr p.data) (w := r) (r := r.filled p) ?_ rfl 0 0
  rw [State.die_of_wire (s.writePkt_wire ..), hn]

theorem State.postFilled_oom : (s.postFilled d r p wr).oom = (s.writePkt (agNet d) wr p.data).oom := State.endReq_oom ..

theorem State.postFilled_acks (hk : p.kind = .send) (hi : p.idx = 0) : ∃ y, (s.postFilled d r p wr).acks
    = s.acks ++ [(y, { dst := p.src, msg := p.msg, idx := 0, placed := [0], refused := 0 })] := by
  have hacks := (State.endReq_acks (s.writePkt (agNet d) wr p.data) d (r.filled p) 0 0).trans (State.acks_of_wire (s.writePkt_wire ..))
  simp only [State.postFilled, State.replyTo, hacks, hi, hk]
  exact ⟨_, rfl⟩

theorem exec_netPacketArrival_outside (hd : s.portOf p.dst = some (d, x)) (hw : pktWhole p = true) (hk : p.kind = .send) {u : State}
    (hr : s.recvSend d x p = .took u) : exec (.netPacketArrival d (.outside p)) s = .next u := by
  show execNetPacketArrival d (.outside p) s = _
  simp only [execNetPacketArrival, hd, hw, hk, hr, ne_eq, not_true_eq_false, decide_false, Bool.not_true, Bool.or_self, Bool.false_eq_true, if_false]

theorem netPacketArrival_places (hd : s.portOf p.dst = some (d, x)) (hw : pktWhole p = true) (hk : p.kind = .send)
    (hb : bit p.tag.toNat 63 = false) (hi : p.idx = 0) (h : p.len ≤ 2048) (hr : p.len ≤ r.len) (hn : (s.die d).net = [r]) (hop : r.op = 2)
    (hp : r.posted = false) (he : r.ended = false) (hx : r.e.ctx = x) (ht : r.tag = p.tag)
    (hpeer : r.peer = BitVec.allOnes 64 ∨ r.peer = p.src) (hf : r.fence = false) (hs : s.stopReached r.e.core = false) (hpk : r.pkts = [])
    (hc : s.chkRange r.e.core r.e.ctx r.lptr (0 : Nat) p.len true = .ok wr) :
    Goes (.netPacketArrival d (.outside p)) s fun u =>
      (∃ w, (u.die d).net = [w] ∧ w.ended = true ∧ w.cause = 0 ∧ w.placed = [0]) ∧ u.oom = (s.writePkt (agNet d) wr p.data).oom
      ∧ ∃ y, u.acks = s.acks ++ [(y, { dst := p.src, msg := p.msg, idx := 0, placed := [0], refused := 0 })] := by
  have hsize : 0 < p.len ∧ p.data.length = p.len := by
    simp [pktWhole, hk, hi, pktCount, pktLen] at hw
    omega
  obtain ⟨h0, hl⟩ := hsize
  refine ⟨s.postFilled d r p wr, exec_netPacketArrival_outside hd hw hk ?_, ⟨_, State.postFilled_net hn, rfl, rfl, ?_⟩,
    State.postFilled_oom, State.postFilled_acks hk hi⟩
  · rw [State.recvSend_of_post hb hn hop hp he hx ht hpeer hf hs, State.placePost_of_one hi h0 h hl hr he hpk hc]
  · exact NReq.placed_one (r := { r.filled p with ended := true, cause := 0, sub := 0 }) (pktCount_one h0 h)
      (congrArg PktSt.done (NReq.setPkt_pkt (r.takes p) 0 { done := true }))

end

/-! ### An acknowledgement that arrives -/

section
variable {s : State} {d : Nat} {a : NetReply} {r : NReq}

/-- A packet of a request, placed as an acknowledgement says. -/
def NReq.acked (placed : List Nat) (q : NReq) (i : Nat) : NReq :=
  if i < q.total then q.setPkt i { q.pkt i with done := true, refused := false, named := (q.pkt i).named || placed.contains i } else q

theorem NReq.acked_id (l is : List Nat) (q : NReq) : (is.foldl (NReq.acked l) q).id = q.id :=
  foldl_same NReq.id (fun q i => by unfold NReq.acked; split <;> rfl) is q

theorem NReq.acked_total (l is : List Nat) (q : NReq) : (is.foldl (NReq.acked l) q).total = q.total :=
  foldl_same NReq.total (fun q i => by unfold NReq.acked; split <;> rfl) is q

/-- A packet that is placed stays so. -/
theorem NReq.acked_done_of_done {q : NReq} {j : Nat} (l : List Nat) (i : Nat) (h : (q.pkt j).done = true) : ((q.acked l i).pkt j).done = true := by
  unfold NReq.acked
  split
  · by_cases hj : j = i
    · subst hj
      rw [NReq.setPkt_pkt]
    · have he : (q.setPkt i { q.pkt i with done := true, refused := false, named := (q.pkt i).named || l.contains i }).pkt j = q.pkt j :=
        SMap.get_set_ne _ hj ..
      rw [he, h]
  · exact h

theorem NReq.acked_done (l is : List Nat) {i : Nat} {q : NReq} (hi : i < q.total) : (((i :: is).foldl (NReq.acked l) q).pkt i).done = true := by
  refine List.foldlRecOn (motive := fun q : NReq => (q.pkt i).done = true) is _ ?_ fun q hq j _ => NReq.acked_done_of_done l j hq
  rw [NReq.acked, if_pos hi, NReq.setPkt_pkt]

/-- The state after an acknowledgement has reached the request that it names (R338). -/
def State.ackTaken (s : State) (d : Nat) (a : NetReply) (r : NReq) : State :=
  if a.refused = 1 then
    s.setReq d (if (r.pkt a.idx).done then r else r.setPkt a.idx { r.pkt a.idx with refused := true, sends := (r.pkt a.idx).sends - 1 })
  else if a.refused ≠ 0 then s.endReq d r a.refused
  else
    let r1 := (a.idx :: a.placed).foldl (NReq.acked a.placed) r
    if r1.allDone then (s.joinPort d r.peer).endReq d r1 0 else (s.joinPort d r.peer).setReq d r1

theorem exec_netAckArrival (hn : (s.die d).net = [r]) (hop : r.op = 1) (he : r.ended = false) (hi : r.id = a.msg)
    (hp : portName d r.e.ctx = a.dst) (hd : a.data = false) : exec (.netAckArrival d (.outside a)) s = .next (s.ackTaken d a r) := by
  show execNetAckArrival d (.outside a) s = _
  have hfind : (s.die d).net.find? (fun r => !a.data && r.sends && r.id == a.msg && portName d r.e.ctx == a.dst) = some r := by
    rw [hn]
    exact List.find?_cons_of_pos (by simp [hd, NReq.sends_of_send hop he, hi, hp])
  have h4 : r.op ≠ 4 := by rw [hop]; decide
  simp only [execNetAckArrival, hfind, State.ackTaken, if_neg h4]
  split
  · rfl
  · split <;> rfl

theorem State.joinPort_wire (s : State) (d : Nat) (peer : Word) : (s.joinPort d peer).wire = s.wire := by
  unfold State.joinPort
  split
  · exact s.takeViews_wire ..
  · rfl

theorem netAckArrival_answers (hn : (s.die d).net = [r]) (hop : r.op = 1) (he : r.ended = false) (hi : r.id = a.msg)
    (hp : portName d r.e.ctx = a.dst) (ht : r.total = 1) (h0 : a.idx = 0) (hd : a.data = false) :
    (a.refused = 0 → Goes (.netAckArrival d (.outside a)) s fun u => ∃ w, (u.die d).net = [w] ∧ w.ended = true ∧ w.cause = 0)
    ∧ (a.refused = 1 → (r.pkt 0).done = false →
        Goes (.netAckArrival d (.outside a)) s fun u => ∃ w, (u.die d).net = [w] ∧ w.ended = false ∧ (w.pkt 0).refused = true
          ∧ (w.pkt 0).sends = (r.pkt 0).sends - 1)
    ∧ (1 < a.refused → Goes (.netAckArrival d (.outside a)) s fun u => ∃ w, (u.die d).net = [w] ∧ w.ended = true ∧ w.cause = a.refused) := by
  have hgo := exec_netAckArrival hn hop he hi hp hd
  refine ⟨fun hr => ?_, fun hr hdone => ?_, fun hr => ?_⟩
  · have hall : ((a.idx :: a.placed).foldl (NReq.acked a.placed) r).allDone = true := by
      rw [NReq.allDone_one ((NReq.acked_total ..).trans ht), h0]
      exact NReq.acked_done _ _ (by omega)
    have hs : s.ackTaken d a r = (s.joinPort d r.peer).endReq d ((a.idx :: a.placed).foldl (NReq.acked a.placed) r) 0 := by
      simp only [State.ackTaken, hr, hall, Nat.zero_ne_one, ne_eq, not_true_eq_false, if_false, if_true]
    rw [hs] at hgo
    refine ⟨_, hgo, _, State.endReq_one (w := r) ?_ (NReq.acked_id ..).symm _ _, rfl, rfl⟩
    rw [State.die_of_wire (s.joinPort_wire d r.peer), hn]
  · rw [State.ackTaken, if_pos hr, h0, if_neg (by rw [hdone]; decide)] at hgo
    refine ⟨_, hgo, _, State.setReq_one hn rfl, he, ?_, ?_⟩
    · rw [NReq.setPkt_pkt]
    · rw [NReq.setPkt_pkt]
  · rw [State.ackTaken, if_neg (by omega), if_pos (by omega)] at hgo
    exact ⟨_, hgo, _, State.endReq_one hn rfl _ _, rfl, rfl⟩

end

/-! ### The counter step -/

section
variable {s : State} {k l : Nat} {o : Owed}

theorem length_ccStep (bs : List Byte) (cause : Nat) : (ccStep bs cause).length = 8 := by
  simp only [ccStep]
  split <;> simp [length_leBytes]

/-- The state after a counter step has been taken at its home (R104, R237). -/
def State.counted (s : State) (k l : Nat) (o : Owed) : State :=
  ((State.atomicStep { s with owed := s.owed.eraseIdx k } o.agent (locs l 8) none (some 5) []
    (some (ccStep (s.homeBytes (locs l 8)) o.cause))).1).heat o.agent l true

theorem exec_completionCounterStep (ho : s.owed[k]? = some o) (ha : o.after = []) (hq : o.queue = none)
    (hp : o.agent ≠ agHub 1 ∨ s.pause ≤ s.dtime) (hr : s.reach o.core o.ctx o.ctr 8 = .at_ l)
    (hready : s.atomicReady o.agent (locs l 8) = true) : exec (.completionCounterStep k) s = .next (s.counted k l o) := by
  show execCompletionCounterStep k s = _
  have hpause : (o.agent == agHub 1 && decide (s.dtime < s.pause)) = false := by
    rcases hp with hp | hp
    · rw [beq_eq_false_iff_ne.mpr hp, Bool.false_and]
    · rw [decide_eq_false (Nat.not_lt.mpr hp), Bool.and_false]
  simp only [execCompletionCounterStep, ho, ha, hq, hpause, hr, hready, Option.isSome_none, Bool.false_or, Bool.false_and, List.any_nil,
    Bool.false_eq_true, if_false, if_true, State.counted]

theorem completionCounterStep_counts (ho : s.owed[k]? = some o) (ha : o.after = []) (hq : o.queue = none)
    (hp : o.agent ≠ agHub 1 ∨ s.pause ≤ s.dtime) (hr : s.reach o.core o.ctx o.ctr 8 = .at_ l)
    (hready : s.atomicReady o.agent (locs l 8) = true) (hid : ∀ w ∈ s.oom.ws, w.id < s.oom.nextId) :
    Goes (.completionCounterStep k) s fun u => u.owed = s.owed.eraseIdx k
      ∧ u.homeBytes (locs l 8) = ccStep (s.homeBytes (locs l 8)) o.cause := by
  refine ⟨_, exec_completionCounterStep ho ha hq hp hr hready, ?_, ?_⟩
  · rw [State.counted]
    obtain h | ⟨_, _, _, h⟩ := State.heat_cases (State.atomicStep { s with owed := s.owed.eraseIdx k } o.agent (locs l 8) none (some 5) []
      (some (ccStep (s.homeBytes (locs l 8)) o.cause))).1 o.agent l true
    · rw [h]; rfl
    · rw [h]; rfl
  · refine State.homeBytes_of_put (o := (State.atomicJoined { s with owed := s.owed.eraseIdx k } o.agent (locs l 8) none).oom)
      (a := o.agent) (carried := []) (rel := some 5) ?_ hid (nodup_locs ..) ?_
    · rw [State.counted, State.heat_oom, State.atomicStep_some]
    · rw [length_locs, length_ccStep]

end

/-- Settles O56: each event of the Network Engine and the counter step, from its own rule. -/
theorem networkEvents : Obligations.NetworkEvents := by
  unfold Obligations.NetworkEvents
  exact ⟨fun s c e rest hq hr hs => netRequestAccept_accepts hq hr hs,
    fun s s1 d k i lost r rd bs hk hop he hi h0 hrf hd hf hq hc hb => netPacketSend_sends hk hop he hi h0 hrf hd hf hq hc hb,
    fun s d x p r wr hd hw hk hb hi h hr hn hop hp he hx ht hpeer hf hs hpk hc =>
      netPacketArrival_places hd hw hk hb hi h hr hn hop hp he hx ht hpeer hf hs hpk hc,
    fun s d a r hn hop he hi hp ht h0 hd => netAckArrival_answers hn hop he hi hp ht h0 hd,
    fun s s1 d k i lost r rd bs hk hop he hi hrf hd hdue hq => netResendTimeout_resends hk hop he hi hrf hd hdue hq,
    fun s s1 d k lost r rd bs hk hop he ht hrf hl hq hc hb => netUnmatchedRetry_resends hk hop he ht hrf hl hq hc hb,
    fun s k l o ho ha hq hp hr hready hid => completionCounterStep_counts ho ha hq hp hr hready hid⟩

end Sys2Proof.Machine
end

section
/-! SUPPORT. What an instruction whose body answers leaves, and what it finds of its core. -/

namespace Sys2Proof.Machine

open Sys2Proof.Spec

/-! ### What the issuing thread finds of its core -/

section
variable (s : State)

/-- The issuing thread finds its core with its own group open. -/
theorem State.opened_core_eq : s.opened.core s.curCore = (s.core s.curCore).setThread s.curThr s.me := by
  rw [State.opened, State.setThr, State.modCore_core, if_pos rfl]

theorem State.opened_q : (s.opened.core s.curCore).q = (s.core s.curCore).q := (congrArg Core.q s.opened_core_eq :)
theorem State.opened_comps : (s.opened.core s.curCore).comps = (s.core s.curCore).comps := (congrArg Core.comps s.opened_core_eq :)
theorem State.opened_active : (s.opened.core s.curCore).active = (s.core s.curCore).active := (congrArg Core.active s.opened_core_eq :)
theorem State.opened_shadow : (s.opened.core s.curCore).shadow = (s.core s.curCore).shadow := (congrArg Core.shadow s.opened_core_eq :)
theorem State.opened_deque : (s.opened.core s.curCore).deque = (s.core s.curCore).deque := (congrArg Core.deque s.opened_core_eq :)
theorem State.opened_dqSlots : (s.opened.core s.curCore).dqSlots = (s.core s.curCore).dqSlots := (congrArg Core.dqSlots s.opened_core_eq :)

theorem State.opened_topRec : (s.opened.core s.curCore).topRec = (s.core s.curCore).topRec :=
  (congrArg Core.topRec s.opened_core_eq :)

end

/-! ### What an instruction leaves whose body answers -/

section
variable {i : Instr} {s : State} {op : Nat} {fm : Form} {o : Opnd} {a b c : Word}

/-- A body that reads nothing beside its sources, meets no absent extent and claims nothing: what it answers is what its
instruction leaves. -/
theorem issues_body {r : Out} (hv : i.view = some (op, fm, o)) (hr : s.Ready op fm o a b c)
    (hb : bodyOf op (s.iss op fm o a b c) = .ok r) (hrd : r.rd = []) (hn : r.np = none) (hs : r.st = none) :
    Issues i s op fm o r :=
  exec_does hv hr hb hn hs (Out.keepsReads_of_rd hrd op fm o) hs ⟨rfl, rfl, rfl, rfl, rfl, rfl, rfl, rfl, rfl, rfl, rfl⟩

/-- The same for a body that defers one effect. -/
theorem issues_defers {e : Eff} (hv : i.view = some (op, fm, o)) (hr : s.Ready op fm o a b c)
    (hb : bodyOf op (s.iss op fm o a b c) = .ok { defs := [e] }) : Issues i s op fm o (defers e) :=
  issues_body hv hr hb rfl rfl rfl

/-- An instruction whose body is a long-latency result. -/
theorem issues_long {v : Word} (hv : i.view = some (op, fm, o)) (hr : s.Ready op fm o a b c)
    (hb : bodyOf op (s.iss op fm o a b c) = longG (s.iss op fm o a b c) v) : Issues i s op fm o (gLong o.d v) :=
  issues_body hv hr hb rfl rfl rfl

/-- An instruction whose body is a single-cycle result. -/
theorem issues_one {v : Word} (hv : i.view = some (op, fm, o)) (hr : s.Ready op fm o a b c)
    (hb : bodyOf op (s.iss op fm o a b c) = oneG (s.iss op fm o a b c) v) : Issues i s op fm o (gResult o.d v) :=
  issues_body hv hr hb rfl rfl rfl

/-- An instruction that claims something of its core beside its threads. -/
theorem issues_claim {r : Out} {f : Core → Core} (hv : i.view = some (op, fm, o))
    (hr : s.Ready op fm o a b c) (hb : bodyOf op (s.iss op fm o a b c) = .ok r) (hs : r.st = some (s.opened.modCore s.curCore f))
    (hf : ∀ q, (f q).th = q.th) (hrd : r.rd = []) (hn : r.np = none) : Issues i s op fm o r :=
  exec_does_claim hv hr hb hn hs hs (Out.keepsReads_of_rd hrd op fm o) (by rw [State.modCore_thr _ _ hf, State.opened_thr])
    (by rw [State.modCore_thr _ _ hf, State.opened_thr]) ⟨rfl, rfl, rfl, rfl, rfl, rfl, rfl, rfl, rfl, rfl, rfl⟩

/-- From row 4 on, WIDF alone writes a register at once (R50). -/
theorem singleWrites_of_row4 {op : Nat} (h : 0x40 ≤ op) (hw : op ≠ 0x74) (fm : Form) (o : Opnd) : singleWrites op fm o = [] := by
  unfold singleWrites
  repeat rw [if_neg (by omega)]

end

end Sys2Proof.Machine
end

section
/-! SUPPORT. Atomics and CBARR at issue, and the new value of an atomic step (R149, R150, R174). -/

namespace Sys2Proof.Machine

open Sys2Proof.Spec

/-! ### At issue -/

section
variable {s : State} {op : Nat} {fm : Form} {o : Opnd} {a b c : Word} {k : Ok}

/-- CAS, SWP and the read-modify-write atomics have one body. -/
theorem bodyOf_eq_atomic (h : 0x50 ≤ op ∧ op ≤ 0x58) : bodyOf op = atomic := by
  obtain ⟨hl, hu⟩ := h
  interval_cases op <;> rfl

/-- An atomic whose access passes (R149, R150). -/
theorem atomic_body (hk : PassesW s a (accessSize o) (accessSize o) rAtomic k) :
    atomic (s.iss op fm o a b c) = .ok (Iss.loads a k false
      [{ pos := 0, dest := gDest o.d
         val := .atom op (accessSize o) (o.m / 4 % 4) (o.m / 16 % 8) (bit o.m 7) b c
         parts := [{ loc := k.loc, size := accessSize o }] }] {}) :=
  checkW_bind hk _

/-- CBARR whose access passes (R174). -/
theorem opCbarr_body (hk : PassesW s a 32 32 rAtomic k) :
    opCbarr (s.iss op fm o a b c) = .ok
      { defs := [{ op := 0x7B, locs := locs k.loc 32, vb := b, n := bit o.m 0, hnds := [k.hnd], va := a, chk := [(a, 32, 32, 3)] }] } := by
  refine (checkW_bind hk _).trans ?_
  rw [Iss.stores, present_of_passesW hk, length_locs]
  rfl

end

/-- Settles O22: the atomics share one body, which owes its step as a result; CBARR's effect is deferred. -/
theorem atomicsIssue : Obligations.AtomicsIssue := by
  unfold Obligations.AtomicsIssue
  intro i s op fm o a b c hv hr n
  refine ⟨fun hop k hk => ?_, ?_⟩
  · rw [mbit_eq_bit]
    exact issues_loads hv hr (singleWrites_of_row4 (by omega) (by omega) fm o) (present_of_passesW hk)
      ((congrFun (bodyOf_eq_atomic hop) _).trans (atomic_body hk))
  · rintro rfl k hk
    rw [mbit_eq_bit]
    exact issues_defers hv hr (opCbarr_body hk)

/-! ### The new value -/

/-- A number read as two's complement is the signed value of the word of its width. -/
theorem toInt_ofNat_eq_sgn (w n : Nat) (hw : 0 < w) : (BitVec.ofNat w n).toInt = sgn w n := toInt_ofNat_eq_sx w n hw

theorem sgn_mod (w n : Nat) : sgn w (n % 2 ^ w) = sgn w n := by simp only [sgn, Nat.mod_mod]

/-- The order of AMIN and AMAX is that of the numbers, or that of the words of the access (R150). -/
theorem atomicLe_iff {w : Nat} (uns : Bool) (old b : Nat) (hw : 0 < w) :
    (if uns then decide (old ≤ b % 2 ^ w) else decide (sgn w old ≤ sgn w (b % 2 ^ w))) = true
      ↔ if uns then old ≤ b % 2 ^ w else (BitVec.ofNat w old).toInt ≤ (BitVec.ofNat w b).toInt := by
  rw [sgn_mod, toInt_ofNat_eq_sgn w old hw, toInt_ofNat_eq_sgn w b hw]
  cases uns <;> exact decide_eq_true_iff

/-- Settles O23: each opcode's value is its row of the table, and the order of AMIN and AMAX is the one the access names. -/
theorem atomicNewValues : Obligations.AtomicNewValues := by
  unfold Obligations.AtomicNewValues
  intro w uns old b c hw _ m le
  have hm : m = 2 ^ (8 * w) := (Nat.pow_mul 2 8 w).symm
  have hle := atomicLe_iff (w := 8 * w) uns old b (by omega)
  simp only [le]
  rw [hm, ← hle]
  exact ⟨rfl, rfl, congrArg some (Nat.add_mod_mod ..), rfl, rfl, rfl, fun h => ⟨congrArg some (if_pos h), congrArg some (if_pos h)⟩,
    fun h => ⟨congrArg some (if_neg h), congrArg some (if_neg h)⟩⟩

end Sys2Proof.Machine
end

section
/-! SUPPORT. The issue of messages, migration and the cluster's roles (R154 to R162). -/

namespace Sys2Proof.Machine

open Sys2Proof.Spec

section
variable {s : State} {op : Nat} {fm : Form} {o : Opnd} {a b c : Word}

/-- The issuing thread may name the core `w` (R155). -/
abbrev State.names (s : State) (w : Word) : Bool := s.opened.coreNameOk (s.opened.tagOf s.curCore s.curThr) w

/-! ### A core name -/

theorem coreName_bind {α : Type} (h : s.names a = true) (f : Unit → Try α) : ((s.iss op fm o a b c).coreName a >>= f) = f () :=
  try_bind (if_pos h) f

theorem coreName_traps {α : Type} (h : s.names a = false) (f : Unit → Try α) :
    ((s.iss op fm o a b c).coreName a >>= f) = trap 0x42 0 a := trap_bind (if_neg (ne_true_of_eq_false h)) f

/-! ### The bodies -/

theorem opSend_body (h : s.names a = true) :
    opSend (s.iss op fm o a b c) = .ok { defs := [{ op := 0x60, m := o.m % 8, rd := o.d, va := a, vb := b }] } := coreName_bind h _

theorem opSendi_body (h : s.names a = true) :
    opSendi (s.iss op fm o a b c) =
      .ok { defs := [{ op := 0x60, m := o.m % 8, rd := o.d, va := a, vb := (BitVec.ofNat 48 o.i).signExtend 64 }] } := by
  rw [BitVec.signExtend, toInt_ofNat_eq_sx 48 _ (by decide)]
  exact coreName_bind h _

theorem opMigr_body (h : s.names a = true) : opMigr (s.iss op fm o a b c) = .ok { defs := [{ op := 0x63, va := a }] } :=
  coreName_bind h _

/-- EMPTY looks at its sender's name where SRC asks for it (R158). -/
theorem opEmpty_body (h : fm = .t4 ∧ mbit o 0 = true → s.names a = true) :
    opEmpty (s.iss op fm o a b c) = .ok { defs := [{ op := 0x62, rd := o.d, va := a, n := fm == .t4 && mbit o 0 }] } := by
  rw [mbit_eq_bit] at h ⊢
  by_cases hs : (fm == .t4 && bit o.m 0) = true
  · exact (if_pos hs).trans (coreName_bind (h (by simpa using hs)) _)
  · exact if_neg hs

theorem opEmpty_traps (hf : fm = .t4) (hs : mbit o 0 = true) (h : s.names a = false) :
    opEmpty (s.iss op fm o a b c) = trap 0x42 0 a := by
  rw [mbit_eq_bit] at hs
  exact (if_pos (by simp [State.iss, hf, hs])).trans (coreName_traps h _)

/-- MIGH on handle 0 moves nothing (R160). -/
theorem opMigh_local (h : fpHnd a = 0) : opMigh (s.iss op fm o a b c) = .ok { defs := [{ op := 0x64, va := a, n := true }] } := if_pos h

theorem opMigh_body {k : Ok} (h : fpHnd a ≠ 0) (hk : Passes s a 1 1 6 k) :
    opMigh (s.iss op fm o a b c) = .ok { defs := [{ op := 0x64, va := a, locs := [k.loc] }] } := by
  refine (if_neg h).trans ((check_bind hk _).trans ?_)
  rw [present_of_passes hk]
  rfl

end

/-- Settles O25: each body is its checks, then the effect it defers. -/
theorem messagesIssue : Obligations.MessagesIssue := by
  unfold Obligations.MessagesIssue
  intro i s op fm o a b c hv hr named
  refine ⟨?_, ?_, ?_, ?_, ?_, ?_, ?_, ?_, ?_, ?_, ?_⟩
  · rintro (rfl | rfl | rfl | ⟨rfl, hf, hs⟩) hn
    · exact exec_traps hv hr (coreName_traps hn _)
    · exact exec_traps hv hr (coreName_traps hn _)
    · exact exec_traps hv hr (coreName_traps hn _)
    · exact exec_traps hv hr (opEmpty_traps hf hs hn)
  · rintro rfl hn
    exact issues_defers hv hr (opSend_body hn)
  · rintro rfl hn
    exact issues_defers hv hr (opSendi_body hn)
  · rintro rfl hn
    exact issues_defers hv hr (opEmpty_body hn)
  · rintro rfl hn
    exact issues_defers hv hr (opMigr_body hn)
  · rintro rfl h
    exact issues_defers hv hr (opMigh_local h)
  · rintro rfl h k hk
    exact issues_defers hv hr (opMigh_body h hk)
  · rintro rfl ha hb h16
    exact issues_defers hv hr (if_neg (by omega : ¬ (8 ≤ a.toNat ∨ 2 ^ 16 ≤ b.toNat ∨ b.toNat % 16 ≠ 0)))
  · rintro rfl h
    exact exec_traps hv hr (if_pos h)
  · rintro rfl h
    exact issues_defers hv hr (if_neg (Nat.not_le.mpr h))
  · rintro rfl h
    exact exec_traps hv hr (if_pos h)

end Sys2Proof.Machine
end

section
/-! SUPPORT. Status reads (R161, R164, R172, R206, R211, R214, R223, R229, R233, R236): one long-latency result, from the
state as it stands. -/

namespace Sys2Proof.Machine

open Sys2Proof.Spec

/-! ### MBOXQ: a count and a mask of registers (R164) -/

/-- The powers of two over the members of a list, each taken once, in the upper bits of a mask. -/
theorem foldl_dedup_two_pow (l : List Nat) (lo : Nat) :
    l.dedup.foldl (fun a n => a + 2 ^ (n + lo)) 0 = 2 ^ lo * ∑ n ∈ l.toFinset, 2 ^ n := by
  have hl : l.toFinset = l.dedup.toFinset := by
    ext n
    rw [List.mem_toFinset, List.mem_toFinset, List.mem_dedup]
  rw [← List.foldl_map (f := fun n => 2 ^ (n + lo)) (g := (· + ·)), ← List.sum_eq_foldl, Finset.mul_sum, hl,
    List.sum_toFinset _ l.nodup_dedup]
  simp only [Nat.pow_add, Nat.mul_comm]

/-- A sum of distinct powers of two has a member's bit set, and no other. -/
theorem testBit_sum_two_pow (S : Finset Nat) (k : Nat) : (∑ n ∈ S, 2 ^ n).testBit k = decide (k ∈ S) := by
  rw [Bool.eq_iff_iff, decide_eq_true_iff, ← Nat.mem_bitIndices, ← List.mem_toFinset, Finset.toFinset_bitIndices_sum_two_pow]

/-- A count modulo 32 in the low bits of a word, and a set of registers from bit 16 on. -/
def mailWord (len : Nat) (S : Finset Nat) : Word := BitVec.ofNat 64 (2 ^ 16 * ∑ n ∈ S, 2 ^ n + len % 32)

theorem mailWord_count (len : Nat) (S : Finset Nat) : (mailWord len S).toNat % 32 = len % 32 := by
  rw [mailWord, BitVec.toNat_ofNat]
  omega

theorem mailWord_bit (len : Nat) (S : Finset Nat) (k : Nat) :
    (mailWord len S).getLsbD k = (decide (k < 64) && if k < 16 then (len % 32).testBit k else decide (k - 16 ∈ S)) := by
  rw [mailWord, BitVec.getLsbD_ofNat, Nat.testBit_two_pow_mul_add _ (by omega), testBit_sum_two_pow]

theorem mailWord_between (len : Nat) (S : Finset Nat) {k : Nat} (hl : 5 ≤ k) (hu : k < 16) : (mailWord len S).getLsbD k = false := by
  rw [mailWord_bit, if_pos hu, Nat.testBit_lt_two_pow, Bool.and_false]
  calc len % 32 < 2 ^ 5 := Nat.mod_lt _ (by decide)
    _ ≤ 2 ^ k := Nat.pow_le_pow_right (by decide) hl

theorem mailWord_mask (len : Nat) (S : Finset Nat) {k : Nat} (h : k < 16) : (mailWord len S).getLsbD (k + 16) = true ↔ k ∈ S := by
  rw [mailWord_bit, if_neg (by omega), Nat.add_sub_cancel]
  simp only [Bool.and_eq_true, decide_eq_true_eq, and_iff_right_iff_imp]
  omega

theorem mailWord_above (len : Nat) {S : Finset Nat} (hS : ∀ n ∈ S, n < 16) {k : Nat} (h : 32 ≤ k) :
    (mailWord len S).getLsbD k = false := by
  rw [mailWord_bit, if_neg (by omega), decide_eq_false fun hk => absurd (hS _ hk) (by omega), Bool.and_false]

/-! ### The bodies -/

section
variable {s : State} {op : Nat} {fm : Form} {o : Opnd} {a b c : Word}

/-- ROLE (R161). -/
theorem opRole_body : opRole (s.iss op fm o a b c) = longG (s.iss op fm o a b c)
    (BitVec.ofNat 64 (if isCC s.curCore then 0 else (s.roleOf s.curCore).toNat)) := by
  rw [apply_ite (BitVec.ofNat 64), BitVec.ofNat_toNat]
  rfl

/-- MBOXQ (R164). -/
theorem opMboxq_body : opMboxq (s.iss op fm o a b c) = longG (s.iss op fm o a b c)
    (mailWord (mail s).length ((mail s).map (·.reg)).toFinset) := by
  have hf : s.opened.forTask s.curCore s.curThr = fun m => !(s.curThr == 7 && isCC s.curCore) || m.ctx == s.me.ctx := by
    funext m
    rw [State.forTask, State.opened_thr]
  rw [mailWord, ← foldl_dedup_two_pow, Nat.add_comm, mail, ← hf]
  rfl

/-- POISQ leaves the poison bits of g1 to g15 (R164). -/
theorem poison_bits (p : BitVec 16) (n : Nat) :
    ((p &&& 0xFFFE#16).zeroExtend 64).getLsbD n = (decide (1 ≤ n ∧ n < 16) && p.getLsbD n) := by
  have hm : (0xFFFE#16).getLsbD n = decide (1 ≤ n ∧ n < 16) := by
    by_cases h : n < 16
    · interval_cases n <;> rfl
    · rw [BitVec.getLsbD_of_ge _ _ (by omega), decide_eq_false (by omega)]
  by_cases h : n < 64
  · simp only [BitVec.zeroExtend, BitVec.getLsbD_setWidth, BitVec.getLsbD_and, hm, h, decide_true, Bool.true_and, Bool.and_comm]
  · rw [BitVec.getLsbD_of_ge _ _ (by omega), decide_eq_false (by omega), Bool.false_and]

/-- SLTR (R172). -/
theorem opSltr_active (h : a.toNat < 32) : opSltr (s.iss op fm o a b c) = longG (s.iss op fm o a b c)
    (BitVec.ofNat 64 ((s.core s.curCore).active[a.toNat]?.getD 0#16).toNat) := by
  have hb : bit a.toNat 5 = false := decide_eq_false (by omega)
  rw [BitVec.ofNat_toNat, ← State.opened_active]
  refine (if_neg (show ¬ a.toNat > 63 by omega)).trans ?_
  simp only [State.iss, hb, Bool.false_eq_true, if_false, Nat.mod_eq_of_lt h]

theorem opSltr_shadow (hl : 32 ≤ a.toNat) (hu : a.toNat ≤ 63) : opSltr (s.iss op fm o a b c) = longG (s.iss op fm o a b c)
    (BitVec.ofNat 64 ((s.core s.curCore).shadow[a.toNat - 32]?.getD 0#16).toNat) := by
  have hb : bit a.toNat 5 = true := decide_eq_true (by omega)
  rw [BitVec.ofNat_toNat, ← State.opened_shadow]
  refine (if_neg (show ¬ a.toNat > 63 by omega)).trans ?_
  simp only [State.iss, hb, if_true, show a.toNat % 32 = a.toNat - 32 by omega]

/-- SHGET (R211). -/
theorem opShget_body : opShget (s.iss op fm o a b c) = longG (s.iss op fm o a b c)
    (BitVec.ofNat 64 (((s.core s.curCore).shape o.a).toNat / 2 ^ (o.m % 512) % 2 ^ (widthCode (o.m / 512 % 16)).getD 0)) := by
  rw [← State.opened_shape, show o.m % 512 = bits o.m 0 9 from (bits_low o.m 9).symm]
  rfl

/-- QSTAT of an engine queue, and of a completion queue (R206). -/
theorem opQstat_queue (h : o.a < 5) : opQstat (s.iss op fm o a b c) = longG (s.iss op fm o a b c)
    (BitVec.ofNat 64 ((SMap.get [] o.a (s.core s.curCore).q).length % 32)) := by
  rw [← State.opened_q]
  exact if_pos h

theorem opQstat_completions (h : 5 ≤ o.a) : opQstat (s.iss op fm o a b c) = longG (s.iss op fm o a b c)
    (BitVec.ofNat 64
      ((((SMap.get [] o.a (s.core s.curCore).comps).filter fun w => w.thr == s.curThr).filter fun w => w.word.isSome).length % 64
      + (((SMap.get [] o.a (s.core s.curCore).comps).filter fun w => w.thr == s.curThr).filter fun w => w.word.isNone).length % 64
        * 2 ^ 8)) := by
  rw [← State.opened_comps]
  exact if_neg (Nat.not_lt.mpr h)

/-- SPSTAT: the commands of the core, those of the cluster, and a word of the scratch (R223, R229). -/
theorem opSpstat_core : opSpstat (s.iss op fm o 0 b c) = longG (s.iss op fm o 0 b c)
    (BitVec.ofNat 64 (((SMap.get [] 1 (s.core s.curCore).q).length
      + ((s.clu (clusterOf s.curCore)).trel.win.filter fun w => w.e.core == s.curCore).length) % 32)) := by
  rw [← State.opened_q]
  rfl

theorem opSpstat_cluster : opSpstat (s.iss op fm o 1 b c) = longG (s.iss op fm o 1 b c)
    (BitVec.ofNat 64 ((s.clu (clusterOf s.curCore)).trel.win.length % 64)) := rfl

theorem opSpstat_word {n : Nat} (h : n < 8192) (ha : a = BitVec.ofNat 64 (0x10000 + n)) :
    opSpstat (s.iss op fm o a b c) = longG (s.iss op fm o a b c)
      (BitVec.ofNat 64 ((SMap.get 0#32 n ((s.clu (clusterOf s.curCore)).trel.image s.me.ctx).val).toNat * 2 ^ 32
        + if SMap.get false n ((s.clu (clusterOf s.curCore)).trel.image s.me.ctx).full = true then 1 else 0)) := by
  have hn : a.toNat = 0x10000 + n := by rw [ha, BitVec.toNat_ofNat]; omega
  unfold opSpstat
  simp only [State.iss, hn, Nat.add_sub_cancel_left]
  rw [if_neg (by omega), if_neg (by omega), if_pos (by omega)]
  rfl

theorem opSpstat_traps (h0 : a ≠ 0) (h1 : a ≠ 1) (h : a.toNat < 0x10000 ∨ 0x12000 ≤ a.toNat) :
    opSpstat (s.iss op fm o a b c) = trap 0x07 0 (lineOff s.me.pc) := by
  have n0 : ¬ a.toNat = 0 := fun e => h0 (BitVec.eq_of_toNat_eq e)
  have n1 : ¬ a.toNat = 1 := fun e => h1 (BitVec.eq_of_toNat_eq e)
  exact (if_neg n0).trans ((if_neg n1).trans (if_neg (show ¬ (0x10000 ≤ a.toNat ∧ a.toNat < 0x12000) by omega)))

/-- The requests of a core with a tag that the Ladle of its cluster holds. -/
def State.ladleHeld (s : State) (c tag : Nat) : List LReq :=
  (s.clu (clusterOf c)).ladle.filter fun r => r.e.core == c && ladleTag r.e == tag

/-- LSTAT: a request of the tag that waits in the core's queue comes before those that the Ladle holds, of which the latest
answers (R233). -/
theorem opLstat_queued (h : ((SMap.get [] 2 (s.core s.curCore).q).any fun e => ladleTag e == a.toNat % 128) = true) :
    opLstat (s.iss op fm o a b c) = longG (s.iss op fm o a b c) (BitVec.ofNat 64 (2 ^ 60)) := by
  rw [← State.opened_q] at h
  exact if_pos h

section
variable (hq : ((SMap.get [] 2 (s.core s.curCore).q).any fun e => ladleTag e == a.toNat % 128) = false)
include hq

theorem opLstat_none (h : s.ladleHeld s.curCore (a.toNat % 128) = []) :
    opLstat (s.iss op fm o a b c) = longG (s.iss op fm o a b c) (BitVec.ofNat 64 0) := by
  rw [← State.opened_q] at hq
  have hn : (s.opened.ladleHeld s.curCore (a.toNat % 128)).getLast? = none := congrArg List.getLast? h
  rw [State.ladleHeld] at hn
  refine (if_neg (ne_true_of_eq_false hq)).trans ?_
  simp only [State.iss, hn]
  rfl

theorem opLstat_latest {r : LReq} (h : (s.ladleHeld s.curCore (a.toNat % 128)).getLast? = some r) :
    opLstat (s.iss op fm o a b c) = longG (s.iss op fm o a b c) (BitVec.ofNat 64 (r.prog % 2 ^ 41 + 2 ^ 60
      + match r.ended with | .running => 0 | .done => 2 ^ 63 | .err _ => 2 ^ 62 | .cancelled => 2 ^ 61)) := by
  rw [← State.opened_q] at hq
  have hl : (s.opened.ladleHeld s.curCore (a.toNat % 128)).getLast? = some r := h
  rw [State.ladleHeld] at hl
  refine (if_neg (ne_true_of_eq_false hq)).trans ?_
  simp only [State.iss, hl]
  congr 2
  cases r.ended <;> dsimp only <;> omega

end

/-- NSTAT (R236). -/
theorem opNstat_body : opNstat (s.iss op fm o a b c) = longG (s.iss op fm o a b c)
    (BitVec.ofNat 64 ((((s.die (dieOf s.curCore)).net.filter fun r => r.e.core == s.curCore && !r.ended).length
        + (SMap.get [] 4 (s.core s.curCore).q).length) % 256
      + ((((s.die (dieOf s.curCore)).net.filter fun r => r.e.core == s.curCore && !r.ended).filter fun r => r.op == 2 && !r.posted).length
          + ((SMap.get [] 4 (s.core s.curCore).q).filter fun e => e.op == 0xE9).length) % 256 * 2 ^ 8)) := by
  rw [← State.opened_q]
  rfl

end

/-- Settles O26: each body is one long-latency result, read off the machine. -/
theorem statusReads : Obligations.StatusReads := by
  unfold Obligations.StatusReads
  intro i s op fm o a b c hv hr k cl answers queued held mine reqs posts
  refine ⟨?_, ?_, ?_, ?_, ?_, ?_, ?_, ?_, ?_, ?_⟩
  · rintro rfl
    exact issues_long hv hr opRole_body
  · rintro rfl
    have hmem : ∀ n, n ∈ ((mail s).map (·.reg)).toFinset ↔ ∃ m ∈ mail s, m.reg = n := fun n => by
      rw [List.mem_toFinset, List.mem_map]
    refine ⟨_, issues_long hv hr opMboxq_body, mailWord_count _ _, fun n hl hu => mailWord_between _ _ hl hu,
      fun n hn => (mailWord_mask _ _ hn).trans (hmem n), fun h n hn => mailWord_above _ (fun j hj => ?_) hn⟩
    obtain ⟨m, hm, rfl⟩ := (hmem j).mp hj
    exact h m hm
  · rintro rfl
    exact ⟨_, issues_long hv hr rfl, poison_bits s.me.poison⟩
  · rintro rfl
    exact ⟨fun h => exec_traps hv hr (if_pos h), fun h => issues_long hv hr (opSltr_active h),
      fun hl hu => issues_long hv hr (opSltr_shadow hl hu)⟩
  · rintro rfl
    exact issues_long hv hr opShget_body
  · rintro rfl n hn
    exact issues_long hv hr (try_bind hn _)
  · rintro rfl
    exact ⟨fun h => issues_long hv hr (opQstat_queue h), fun h => issues_long hv hr (opQstat_completions h)⟩
  · rintro rfl
    refine ⟨?_, ?_, fun n hn ha => issues_long hv hr (opSpstat_word hn ha), fun h0 h1 h => exec_traps hv hr (opSpstat_traps h0 h1 h)⟩
    · rintro rfl
      exact issues_long hv hr opSpstat_core
    · rintro rfl
      exact issues_long hv hr opSpstat_cluster
  · rintro rfl
    exact ⟨fun h => issues_long hv hr (opLstat_queued h), fun hq h => issues_long hv hr (opLstat_none hq h),
      fun hq r h => issues_long hv hr (opLstat_latest hq h)⟩
  · rintro rfl
    exact issues_long hv hr opNstat_body

end Sys2Proof.Machine
end

section
/-! SUPPORT. The issue of row 7 and of CCWAIT: deque, launches, work identifiers, barriers, the slot table and completion
barriers (R166 to R175, R238). -/

namespace Sys2Proof.Machine

open Sys2Proof.Spec

section
variable {s : State} {op : Nat} {fm : Form} {o : Opnd} {a b c : Word}

/-! ### Records read at issue (R410) -/

/-- A record whose access passes: its doublewords are due, and complete the effect. -/
theorem record_body {n al : Nat} {dest : Dest} {e : Eff} {claim : State → State} {undo : List Undo} {k : Ok}
    (hk : Passes s a n al rRead k) : (s.iss op fm o a b c).record n al dest e claim undo = .ok
      { res := [dueLoad dest (.record op) none { k with side := false } a (recParts k.loc n)]
        defs := [e], undo := undo, st := some (claim s.opened) } := by
  refine (check_bind hk _).trans ?_
  rw [present_of_passes hk]
  rfl

/-- DQPUSH and SPAWN on a full deque (R167). -/
theorem push_full (h : 64 ≤ (s.core s.curCore).deque.length + (s.core s.curCore).dqSlots) :
    push (s.iss op fm o a b c) = trap 0x51 0 a := by
  rw [← State.opened_deque, ← State.opened_dqSlots] at h
  exact if_pos h

/-- They claim a slot for the record that they read. -/
theorem push_body {k : Ok} (h : (s.core s.curCore).deque.length + (s.core s.curCore).dqSlots < 64) (hk : Passes s a 32 8 rRead k) :
    push (s.iss op fm o a b c) = .ok
      { res := [dueLoad .none (.record op) none { k with side := false } a (recParts k.loc 32)]
        defs := [{ op := op, va := a }], undo := [.slot]
        st := some (s.opened.modCore s.curCore fun q => { q with dqSlots := q.dqSlots + 1 }) } := by
  rw [← State.opened_deque, ← State.opened_dqSlots] at h
  exact (if_neg (Nat.not_le.mpr h)).trans (record_body hk)

/-! ### DQPOP (R167) -/

theorem opDqpop_empty {k : Ok} (hk : PassesW s a 32 8 rWrite k) (h : (s.core s.curCore).topRec = none) :
    opDqpop (s.iss op fm o a b c) = .ok { res := valRes o.d 0 } := by
  rw [← State.opened_topRec] at h
  refine (checkW_bind hk _).trans ?_
  simp only [present_of_passesW hk, State.iss, h]
  rfl

/-- It claims the topmost record for the store that it defers. -/
theorem opDqpop_body {k : Ok} {r : DqRec} (hk : PassesW s a 32 8 rWrite k) (h : (s.core s.curCore).topRec = some r) :
    opDqpop (s.iss op fm o a b c) = .ok
      { res := valRes o.d 1
        defs := [{ op := 0x71, va := a, locs := locs k.loc 32, data := r.task.bytes, hnds := [k.hnd], chk := [(a, 32, 8, rWrite)]
                   st := r.id, views := r.views }]
        undo := [.record r.id]
        st := some (s.opened.modCore s.curCore fun q =>
          { q with deque := q.deque.map fun w => if w.id = r.id then { w with res := s.curThr + 1 } else w }) } := by
  rw [← State.opened_topRec] at h
  refine (checkW_bind hk _).trans ?_
  simp only [present_of_passesW hk, State.iss, h]
  rfl

/-! ### WIDF (R169) -/

/-- The header of the launch that the issuing thread belongs to. -/
abbrev State.myHdr (s : State) : List Byte := (s.launch s.me.lid).hdr

theorem opWidf_field (hm : mbit o 3 = false) (h : o.m % 8 < hdrLevels s.myHdr) : opWidf (s.iss op fm o a b c) =
    oneG (s.iss op fm o a b c) (BitVec.ofNat 64 (s.me.wid.toNat / 2 ^ hdrLo s.myHdr (o.m % 8) % 2 ^ hdrWidth s.myHdr (o.m % 8))) := by
  rw [mbit_eq_bit] at hm
  exact (if_neg (ne_true_of_eq_false hm)).trans (if_neg (Nat.not_le.mpr h))

theorem opWidf_field_traps (hm : mbit o 3 = false) (h : hdrLevels s.myHdr ≤ o.m % 8) :
    opWidf (s.iss op fm o a b c) = trap 0x07 0 (lineOff s.me.pc) := by
  rw [mbit_eq_bit] at hm
  exact (if_neg (ne_true_of_eq_false hm)).trans (if_pos h)

theorem opWidf_group (hm : mbit o 3 = true) (h0 : o.m % 8 ≠ 0) (h : o.m % 8 ≤ hdrLevels s.myHdr) : opWidf (s.iss op fm o a b c) =
    oneG (s.iss op fm o a b c) (BitVec.ofNat 64 (s.me.wid.toNat / 2 ^ hdrLo s.myHdr (o.m % 8 - 1))) := by
  rw [mbit_eq_bit] at hm
  exact (if_pos hm).trans (if_neg (not_or.mpr ⟨h0, Nat.not_lt.mpr h⟩))

theorem opWidf_group_traps (hm : mbit o 3 = true) (h : o.m % 8 = 0 ∨ hdrLevels s.myHdr < o.m % 8) :
    opWidf (s.iss op fm o a b c) = trap 0x07 0 (lineOff s.me.pc) := by
  rw [mbit_eq_bit] at hm
  exact (if_pos hm).trans (if_pos h)

/-- A part of a word is a word. -/
theorem toNat_ofNat_of_le {v : Word} {n : Nat} (h : n ≤ v.toNat) : (BitVec.ofNat 64 n).toNat = n := by
  rw [BitVec.toNat_ofNat, Nat.mod_eq_of_lt (h.trans_lt v.isLt)]

/-! ### Barrier levels (R170) -/

section
variable (hn : o.d ≠ 0)
include hn

theorem level_deep (h : hdrLevels s.myHdr < o.d) : (s.iss op fm o a b c).level = trap 0x52 1 (BitVec.ofNat 64 o.d) :=
  (if_neg hn).trans (if_pos h)

theorem level_uneven (hl : o.d ≤ hdrLevels s.myHdr) (hg : hdrGpg s.myHdr * hdrTpg s.myHdr % hdrGroup s.myHdr o.d ≠ 0)
    (h0 : hdrGroup s.myHdr 0 ≠ hdrGpg s.myHdr * hdrTpg s.myHdr) : (s.iss op fm o a b c).level = trap 0x52 2 (BitVec.ofNat 64 o.d) :=
  (if_neg hn).trans ((if_neg (Nat.not_lt.mpr hl)).trans (if_pos ⟨hg, h0⟩))

end

theorem level_ok (h : o.d = 0 ∨ (o.d ≤ hdrLevels s.myHdr ∧ (hdrGpg s.myHdr * hdrTpg s.myHdr % hdrGroup s.myHdr o.d = 0
    ∨ hdrGroup s.myHdr 0 = hdrGpg s.myHdr * hdrTpg s.myHdr))) : (s.iss op fm o a b c).level = .ok () := by
  by_cases hn : o.d = 0
  · exact if_pos hn
  · obtain ⟨hl, hg⟩ := h.resolve_left hn
    exact (if_neg hn).trans ((if_neg (Nat.not_lt.mpr hl)).trans (if_neg fun ⟨h1, h2⟩ => hg.elim h1 h2))

/-- BARA, BARW and BAR look at their level first. -/
theorem barrier_traps (hop : op = 0x75 ∨ op = 0x76 ∨ op = 0x77) {cause sub : Nat} {info : Word}
    (h : (s.iss op fm o a b c).level = trap cause sub info) : bodyOf op (s.iss op fm o a b c) = trap cause sub info := by
  rcases hop with rfl | rfl | rfl <;> exact trap_bind h _

/-- BARA arrives, BARW waits, and BAR does both. -/
theorem barrier_body (hop : op = 0x75 ∨ op = 0x76 ∨ op = 0x77) (h : (s.iss op fm o a b c).level = .ok ()) :
    bodyOf op (s.iss op fm o a b c) = .ok
      { defs := if op = 0x76 then [] else [{ op := 0x75, rd := o.d }], post := if op = 0x75 then none else some (.bar o.d) } := by
  rcases hop with rfl | rfl | rfl <;> exact try_bind h _

/-! ### SLTW (R172) -/

theorem opSltw_entry_traps (h : 31 < a.toNat) : opSltw (s.iss op fm o a b c) = trap 0x50 3 a := if_pos h

theorem opSltw_value_traps (ha : a.toNat ≤ 31)
    (h : 2 ^ 16 ≤ b.toNat ∨ b.toNat / 256 % 128 ≠ 0 ∨ (b.toNat / 2 ^ 15 % 2 = 0 ∧ b.toNat / 8 % 32 ≠ 0)) :
    opSltw (s.iss op fm o a b c) = trap 0x50 4 a := (if_neg (Nat.not_lt.mpr ha)).trans (if_pos h)

theorem opSltw_body (ha : a.toNat ≤ 31) (hb : b.toNat < 2 ^ 16) (h0 : b.toNat / 256 % 128 = 0)
    (h : b.toNat / 2 ^ 15 % 2 = 1 ∨ b.toNat / 8 % 32 = 0) :
    opSltw (s.iss op fm o a b c) = .ok { defs := [{ op := 0x78, va := a, vb := b }] } :=
  (if_neg (Nat.not_lt.mpr ha)).trans (if_neg (by
    show ¬ (2 ^ 16 ≤ b.toNat ∨ b.toNat / 256 % 128 ≠ 0 ∨ (b.toNat / 2 ^ 15 % 2 = 0 ∧ b.toNat / 8 % 32 ≠ 0))
    omega))

/-! ### Waits (R175, R238) -/

theorem opCbwait_body {k : Ok} (hk : Passes s a 32 32 rRead k) :
    opCbwait (s.iss op fm o a b c) = .ok (Iss.loads a k false
      [{ pos := 0, dest := .none, val := .cbwait (bit o.m 0), parts := [{ loc := k.loc, size := 32 }] }] {}) := check_bind hk _

theorem opCcwait_body {k : Ok} (hk : Passes s a 8 8 rAtomic k) :
    opCcwait (s.iss op fm o a b c) = .ok (Iss.loads a k false
      [{ pos := 0, dest := .none, val := .ccwait (b.toNat % 2 ^ 49), parts := [{ loc := k.loc, size := 8 }] }] {}) := check_bind hk _

end

/-- Settles O27: each body is its checks, then what it claims, defers or owes. -/
theorem tasksIssue : Obligations.TasksIssue := by
  unfold Obligations.TasksIssue
  intro i s op fm o a b c hv hr k h n
  refine ⟨?_, ?_, ?_, ?_, ?_, ?_, ?_, ?_, ?_, ?_, ?_⟩
  · rintro (rfl | rfl)
    · exact ⟨fun hd => exec_traps hv hr (push_full hd),
        fun hd q hq => issues_claim hv hr (push_body hd hq) rfl (fun _ => rfl) rfl rfl⟩
    · exact ⟨fun hd => exec_traps hv hr (push_full hd),
        fun hd q hq => issues_claim hv hr (push_body hd hq) rfl (fun _ => rfl) rfl rfl⟩
  · rintro rfl q hq
    exact ⟨fun ht => issues_body hv hr (opDqpop_empty hq ht) rfl rfl rfl,
      fun r ht => issues_claim hv hr (opDqpop_body hq ht) rfl (fun _ => rfl) rfl rfl⟩
  · rintro rfl q hq
    exact exec_does_claim hv hr (record_body hq) rfl rfl rfl (Out.keepsReads_of_rd rfl _ _ _) (by rw [id, State.opened_thr])
      (by rw [id, State.opened_thr]) ⟨rfl, rfl, rfl, rfl, rfl, rfl, rfl, rfl, rfl, rfl, rfl⟩
  · rintro rfl hm
    exact ⟨fun hl => exec_traps hv hr (opWidf_field_traps hm hl), fun hl => ⟨_, issues_one hv hr (opWidf_field hm hl),
      toNat_ofNat_of_le ((Nat.mod_le _ _).trans (Nat.div_le_self _ _))⟩⟩
  · rintro rfl hm
    exact ⟨fun hl => exec_traps hv hr (opWidf_group_traps hm hl), fun h0 hl => ⟨_, issues_one hv hr (opWidf_group hm h0 hl),
      toNat_ofNat_of_le (Nat.div_le_self _ _)⟩⟩
  · exact fun hop hn hl => exec_traps hv hr (barrier_traps hop (level_deep hn hl))
  · exact fun hop hn hl hg h0 => exec_traps hv hr (barrier_traps hop (level_uneven hn hl hg h0))
  · exact fun hop hl => issues_body hv hr (barrier_body hop (level_ok hl)) rfl rfl rfl
  · rintro rfl
    exact ⟨fun ha => exec_traps hv hr (opSltw_entry_traps ha), fun ha hb => exec_traps hv hr (opSltw_value_traps ha hb),
      fun ha hb h0 h8 => issues_defers hv hr (opSltw_body ha hb h0 h8)⟩
  · rintro rfl q hq
    rw [mbit_eq_bit]
    exact issues_loads hv hr rfl (present_of_passes hq) (opCbwait_body hq)
  · rintro rfl q hq
    exact issues_loads hv hr rfl (present_of_passes hq) (opCcwait_body hq)

end Sys2Proof.Machine
end

section
/-! SUPPORT. Row 8's arithmetic: its results (R179), and its special cases (R180). -/

namespace Sys2Proof.Machine

open Sys2Proof.Spec

/-- Settles O28: FADD to FMAX deliver their exact result rounded once. -/
theorem floatResults : Obligations.FloatResults := by
  unfold Obligations.FloatResults
  intro i s op fm o a b c hv hr hop f rm e r h
  have hcls : op ≠ 0x8A := by omega
  have hdec : op ≠ 0x8D := by omega
  have hf : floatOf s op o a b c = (r.1, e.2 ||| r.2) := (if_neg hcls).trans (if_neg hdec)
  have hi := issues_float hv hr (.inl hop) (hf ▸ h)
  rwa [hf] at hi

/-! ### What rounding leaves as it is -/

section
variable (f : Fmt) (rm : RM)

theorem Fmt.round_nan (sig : Bool) : f.round rm (.nan sig) = (f.qnan, 0) := rfl
theorem Fmt.round_inf (n : Bool) : f.round rm (.inf n) = (f.infinity n, 0) := rfl
theorem Fmt.round_zero (n : Bool) : f.round rm (.zero n) = (f.signBit n, 0) := rfl

end

/-! ### The exact operations on zeros and infinities -/

section
variable {m : Nat} (hm : m ≠ 0) (n k : Bool) (e : Int) (rm : RM)

theorem Num.div_zero_zero : Num.div (.zero n) (.zero k) = (.nan false, flNV) := rfl
theorem Num.div_inf_inf : Num.div (.inf n) (.inf k) = (.nan false, flNV) := rfl
theorem Num.mul_zero_inf : Num.mul (.zero n) (.inf k) = (.nan false, flNV) := rfl
theorem Num.mul_inf_zero : Num.mul (.inf k) (.zero n) = (.nan false, flNV) := rfl
theorem Num.sqrt_zero : Num.sqrt (.zero n) = (.zero n, 0) := rfl
theorem Num.sqrt_inf_neg : Num.sqrt (.inf true) = (.nan false, flNV) := rfl

theorem Num.add_inf_opposite : Num.add rm (.inf n) (.inf !n) = (.nan false, flNV) := by cases n <;> rfl
theorem Num.add_zero_same : Num.add rm (.zero n) (.zero n) = (.zero n, 0) := by cases n <;> rfl

include hm

theorem Num.div_zero : Num.div (.fin n m e false) (.zero k) = (.inf (n != k), flDZ) := if_neg hm
theorem Num.sqrt_neg : Num.sqrt (.fin true m e false) = (.nan false, flNV) := if_neg hm

/-- The exact zero sum takes the sign of the rounding mode. -/
theorem Num.add_opposite : Num.add rm (.fin false m e false) (.fin true m e false) = (.zero (zeroSign rm), 0) := by
  have hz : signedAt false m e (min e e) + signedAt true m e (min e e) = 0 := add_neg_cancel _
  simp only [Num.add, hz, hm, decide_false, Bool.false_and, Bool.false_eq_true, if_false, if_true]

end

/-- Settles O30, for F32 and F64 as for any format: an exact operation, then one rounding, which adds no flag. -/
theorem floatSpecialCases : Obligations.FloatSpecialCases := by
  unfold Obligations.FloatSpecialCases
  intro f rm _ res
  have rounded {x : Num} {r g : Nat} {p : Num × Nat} (hp : p = (x, g)) (hx : f.round rm x = (r, 0)) : res p = (r, g) := by
    simp only [res, hp, hx, Nat.or_zero]
  exact ⟨fun n m e k hm => rounded (Num.div_zero hm ..) (f.round_inf ..),
    fun n k => ⟨rounded (Num.div_zero_zero ..) (f.round_nan ..), rounded (Num.div_inf_inf ..) (f.round_nan ..)⟩,
    fun n => rounded (Num.add_inf_opposite ..) (f.round_nan ..),
    fun n k => ⟨rounded (Num.mul_zero_inf ..) (f.round_nan ..), rounded (Num.mul_inf_zero ..) (f.round_nan ..)⟩,
    rounded (Num.sqrt_zero ..) (f.round_zero ..),
    fun m e hm => rounded (Num.sqrt_neg hm ..) (f.round_nan ..), rounded Num.sqrt_inf_neg (f.round_nan ..),
    fun m e hm => rounded (Num.add_opposite hm ..) (f.round_zero ..), fun n => rounded (Num.add_zero_same ..) (f.round_zero ..)⟩

end Sys2Proof.Machine
end

section
/-! SUPPORT. The refusals of a vector operation at issue (R187, R188), and the lane grant (R197). -/

namespace Sys2Proof.Machine

open Sys2Proof.Spec

/-! ### The refusals of rows 9 to B -/

section
variable {i : Iss} {d : Word} {e y z : Nat}

/-- Formats that do not resolve (R188). -/
theorem vec_formats_trap (hd : i.x.readG i.o.d = .ok d) {sub : Nat} {p : Word}
    (hf : vecFmts i.op i.o.m d i.va i.vb = .error (sub, p)) : vec i = trap 0x15 sub p :=
  (try_bind hd _).trans (by simp only [hf]; rfl)

variable (hd : i.x.readG i.o.d = .ok d) (hf : vecFmts i.op i.o.m d i.va i.vb = .ok (e, y, z))
  (hc : ¬ (i.op = 0xAD ∧ vecX i.op i.o.m = 4 ∧ fmtIsInt e = true))
include hd hf hc

/-- A block scale on an operand that takes none (R188 rule 5). -/
theorem vec_scale_trap {p : Word} (hb : vecBadBlg i.op i.o.m d i.va i.vb e y z = some p) : vec i = trap 0x15 3 p := by
  refine (try_bind hd _).trans ((vecFmts_bind hf _).trans ((if_neg hc).trans ?_))
  simp only [hb]
  rfl

/-- A destination whose span is above 65,536 bytes (R187). -/
theorem vec_span_trap (hb : vecBadBlg i.op i.o.m d i.va i.vb e y z = none)
    (hp : (vecRow i.op (vecX i.op i.o.m)).d.isPtr = true) (hbase : (vecRow i.op (vecX i.op i.o.m)).d ≠ .base)
    (h : 65536 < vecSpan i.op (vecX i.op i.o.m) 0 d i.vc.toNat (fmtSize ((vecRow i.op (vecX i.op i.o.m)).d.fmt e y z))) :
    vec i = trap 0x07 9 (lineOff i.pc) := by
  have hspanned : ((vecRow i.op (vecX i.op i.o.m)).d.isPtr && (vecRow i.op (vecX i.op i.o.m)).d != .base) = true := by
    rw [hp, Bool.true_and, bne_iff_ne]; exact hbase
  refine (try_bind hd _).trans ((vecFmts_bind hf _).trans ((if_neg hc).trans ?_))
  simp only [hb]
  exact if_pos (.inl (by rwa [if_pos hspanned]))

end

/-- Settles O34: the body of a vector operation ends at the first of its checks that fails. -/
theorem vectorOpsTrap : Obligations.VectorOpsTrap := by
  unfold Obligations.VectorOpsTrap
  intro i s op fm o a b c d hv hr hop hd
  have hreads : (s.iss op fm o a b c).x.readG (s.iss op fm o a b c).o.d = .ok d := hd
  have traps {cause sub : Nat} {info : Word} (h : vec (s.iss op fm o a b c) = trap cause sub info) : Trapped i s cause sub info :=
    exec_traps hv hr (by rw [bodyOf_eq_vec hop]; exact h)
  exact ⟨fun sub p hf => traps (vec_formats_trap hreads hf), fun e y z hf hc => ⟨fun p hb => traps (vec_scale_trap hreads hf hc hb),
    fun hb ⟨hp, hbase, h⟩ => traps (vec_span_trap hreads hf hc hb hp hbase h)⟩⟩

/-! ### The lane grant (R197) -/

/-- A core's free lanes do not depend on the core itself, so opening a group leaves them. -/
theorem State.opened_freeLanes (s : State) : s.opened.freeLanes s.curCore = s.freeLanes s.curCore := by
  have hlanes : ∀ d ∈ (coresOf (clusterOf s.curCore)).filter (· != s.curCore), ∀ n,
      n + (s.opened.core d).lanes = n + (s.core d).lanes := fun d hd n => by
    rw [State.opened, State.setThr_core_ne s (bne_iff_ne.mp (List.mem_filter.mp hd).2)]
  rw [State.freeLanes, State.freeLanes, List.foldl_ext _ _ 0 fun n d hd => hlanes d hd n]
  rfl

/-- VCLAIM: what it is granted is due, and the claim is kept for its undoing. -/
theorem opVclaim_body {s : State} {o : Opnd} {a : Word} {g : Nat}
    (hg : g = min (min 64 (((if mbit o 4 then a.toNat else 8 * (o.m % 16)) + 7) / 8 * 8)) (s.freeLanes s.curCore))
    (op : Nat) (fm : Form) (b c : Word) :
    opVclaim (s.iss op fm o a b c) = .ok { res := valRes o.d (BitVec.ofNat 64 g), undo := [.grant g] } := by
  rw [hg, ← State.opened_freeLanes, mbit_eq_bit]
  rfl

/-- Settles O35: VCLAIM's grant by the free lanes of its core, VREL's effect at step 5. -/
theorem lanesIssue : Obligations.LanesIssue := by
  unfold Obligations.LanesIssue
  intro i s op fm o a b c hv hr want
  refine ⟨?_, ?_⟩
  · rintro rfl
    exact ⟨_, rfl, issues_body hv hr (opVclaim_body rfl 0xB0 fm b c) rfl rfl rfl⟩
  · rintro rfl
    exact issues_defers hv hr rfl

end Sys2Proof.Machine
end

section
/-! The engines: a state against the end of a collective (R234). -/

namespace Sys2Proof.Machine

open Sys2Proof.Spec

/-- A reduction of one F32 element, from and to the start of the issuing core's first bank, in a group of one member. -/
def loneReduction (core : Nat) : PMem := { e := { op := 0xE4, vb := 1, core := core }, grp := 0, rank := 0, k := 0 }

/-- The Press of die 0 has taken the reduction from a core of die 1 and from its own core 0, and that of die 1 the second
alone. The row of die 1 stands before that of die 0: no run leaves the table of the dies so, but the statement does not ask
for rising keys. -/
def rowsFalling : State :=
  { State.reset with
    objs := [(0, { kind := .press 1 [] })]
    dies := [(1, { press := [loneReduction 0] }), (0, { press := [loneReduction 2048, loneReduction 0] })] }

/-- The scan of the dies' rows finds the member of core 0 first. -/
theorem rowsFalling_members : rowsFalling.pressAll 0 0 = [loneReduction 0] := rfl

/-- The chunk moves every element, and the row of die 0, written again, now stands before that of die 1: the scan for whom
to end finds the member of the other die, so the member of core 0 stays. -/
theorem rowsFalling_keeps :
    (match exec (.pressChunk 0 1) rowsFalling with
      | .next u => (u.die 0).press.any fun v => v.grp == 0 && v.rank == 0 && v.k == 0
      | _ => false) = true := by decide

/-- Refutes O55: where the rows of the dies do not rise, the last chunk of a collective of one ends another member than
the one whose chunk it moved, which then stays in its Press. -/
theorem not_engineEvents : ¬ Obligations.EngineEvents := by
  unfold Obligations.EngineEvents
  rintro ⟨-, -, -, -, -, -, -, -, -, -, -, -, h⟩
  have hquiet : ∀ v ∈ rowsFalling.pressAll 0 0, rowsFalling.quiet v.e.core = false := by
    rw [rowsFalling_members]; decide
  obtain ⟨-, hone⟩ := h rowsFalling 0 1 (loneReduction 0) rfl (by decide) hquiet
  obtain ⟨⟨s1, bs⟩, hread⟩ := Option.isSome_iff_exists.mp
    (show (rowsFalling.readAll (agPress 0) [(locLocal 0 0, 4)]).isSome = true by decide)
  obtain ⟨u, hu, -, hend⟩ := hone s1 [(locLocal 0 0, 4)] [(locLocal 0 0, 4)] bs rowsFalling_members rfl rfl rfl rfl rfl (by decide)
    rfl rfl hread
  have hstays := rowsFalling_keeps
  rw [hu] at hstays
  obtain ⟨v, hv, hkey⟩ := List.any_eq_true.mp hstays
  simp only [Bool.and_eq_true, beq_iff_eq, and_assoc] at hkey
  exact hend (by decide) v hv hkey

end Sys2Proof.Machine
end
